-- ==== Sys2Proof/Word.lean ====
section
/-! DEFINITION. The word types of the Kohild K4 (rule R5: bytes are 8 bits, halfwords 16, words 32, doublewords 64). -/

namespace Sys2Proof

/-- A byte (R5). -/
abbrev Byte := BitVec 8
/-- A halfword (R5). -/
abbrev Half := BitVec 16
/-- A 32-bit word (R5). -/
abbrev Word32 := BitVec 32
/-- A doubleword (R5), the width of an x register (R10). -/
abbrev Word := BitVec 64

end Sys2Proof
end

