-- ==== Sys2Proof/Config.lean ====
section
/-! DEFINITION. What an implementation of the K4 fixes and the spec leaves open: free values without a body, and the fixed
configuration of one module. -/

namespace Sys2Proof.Config

/-- FREE VALUE (log 4, DESIGN CHOICE): how many counts of the 100 MHz reference TIME gains at a step (R21, R96 give no number). -/
opaque timeElapsed : Nat → Nat

/-- FREE VALUE (log 4, DESIGN CHOICE): how many clock edges a core's CYCLE gains at a step of that core (R21, R267 give no number). -/
opaque cycleElapsed : Nat → Nat

/-- FREE VALUE (log 15, DESIGN CHOICE): the SHA3-384 digest of a list of bytes; the spec names the function and does not define it (R400). -/
opaque sha3 : List Byte → BitVec 384

/-- FREE VALUE (log 15, DESIGN CHOICE): the Ed25519 signature of a list of bytes under the module's identity key (R401). -/
opaque ed25519 : List Byte → BitVec 512

/-- FREE VALUE (log 15, DESIGN CHOICE): the ML-DSA-65 signature of a list of bytes, 3,309 bytes (R401). -/
opaque mlDsa65 : List Byte → BitVec 26472

/-- FREE VALUE (log 15, DESIGN CHOICE): the Ed25519 signature over a digest that verifies under a public key (R399). -/
opaque imageEd : List Byte → BitVec 384 → BitVec 512

/-- FREE VALUE (log 15, DESIGN CHOICE): an ML-DSA-65 signature over a digest that verifies under a public key (R399). -/
opaque imageMl : List Byte → BitVec 384 → BitVec 26472

/-- FREE VALUE (log 15, DESIGN CHOICE): whether another ML-DSA-65 signature over a digest verifies under a public key (R399). -/
opaque imageMlAlso : List Byte → BitVec 384 → BitVec 26472 → Bool

/-- FREE VALUE (log 35, DESIGN CHOICE): the full lanes of a die link, which R395 reports and no rule gives. -/
opaque linkLanes : Nat → Nat

/-- FREE VALUE (log 21, DESIGN CHOICE): a 64-bit value that the spec leaves open, fresh at each use (the argument is State's counter). -/
opaque freeWord : Nat → Word

/-- FREE VALUE (log 22, DESIGN CHOICE): the outcome, true or false, of a choice that the spec leaves to the device, fresh at each use (the
argument is State's counter). -/
opaque freeBool : Nat → Bool

/-- FREE VALUE (log 59, DESIGN CHOICE): whether a tie of nearest-even rounds up in magnitude in a binary8 format of one significant bit, which has no
trailing field to be even (R41, R49): by format code, sign and scale of the value. -/
opaque tieUp : Nat → Bool → Int → Bool

/-- FREE VALUE (log 32, DESIGN CHOICE): the digest that a capture buffer gives when it cannot be read; R404 states none. -/
opaque freeDigest : Nat → BitVec 384

end Sys2Proof.Config
end

