-- ==== Sys2Proof/Syntax.lean ====
section
/-! DEFINITION. The syntax of Ataith: the tail layouts of R72 as structures (with the head's D field) and the ONE inductive of
instructions, one constructor for each row of spec/opcode_table.json. -/

namespace Sys2Proof

/-- Layout N: no tail (R72). -/
structure LN where
  d : BitVec 5
deriving DecidableEq, Repr

/-- Layout H: F [15:10], B [9:5], A [4:0] (R72). -/
structure LH where
  d : BitVec 5
  f : BitVec 6
  b : BitVec 5
  a : BitVec 5
deriving DecidableEq, Repr

/-- Layout I16: imm16 (R72). -/
structure LI16 where
  d : BitVec 5
  imm : BitVec 16
deriving DecidableEq, Repr

/-- Layout I32: imm32 (R72). -/
structure LI32 where
  d : BitVec 5
  imm : BitVec 32
deriving DecidableEq, Repr

/-- Layout W (R72): F [31:25], SC [24:22], OC [21:18], cC, cB, cA, C, B, A. -/
structure LW where
  d : BitVec 5
  f : BitVec 7
  sc : BitVec 3
  oc : BitVec 4
  cC : BitVec 1
  cB : BitVec 1
  cA : BitVec 1
  c : BitVec 5
  b : BitVec 5
  a : BitVec 5
deriving DecidableEq, Repr

/-- Layout WI (R72): imm27 [31:5], A [4:0]. -/
structure LWI where
  d : BitVec 5
  imm : BitVec 27
  a : BitVec 5
deriving DecidableEq, Repr

/-- Layout M (R72): imm20 [31:12], SC [11:9], OC [8:5], A [4:0]. -/
structure LM where
  d : BitVec 5
  imm : BitVec 20
  sc : BitVec 3
  oc : BitVec 4
  a : BitVec 5
deriving DecidableEq, Repr

/-- Layout B (R72): imm22 [31:10], T [9:5], B [4:0]. -/
structure LB where
  d : BitVec 5
  imm : BitVec 22
  t : BitVec 5
  b : BitVec 5
deriving DecidableEq, Repr

/-- Layout V (R72): F [31:25], a zero field [24:21] kept here as z, MK [20:17] (the field msk), cB, cA, L, B, A. -/
structure LV where
  d : BitVec 5
  f : BitVec 7
  z : BitVec 4
  msk : BitVec 4
  cB : BitVec 1
  cA : BitVec 1
  l : BitVec 5
  b : BitVec 5
  a : BitVec 5
deriving DecidableEq, Repr

/-- Layout XI (R72): imm59 [63:5], A [4:0]. -/
structure LXI where
  d : BitVec 5
  imm : BitVec 59
  a : BitVec 5
deriving DecidableEq, Repr

/-- Layout L64 (R72): imm64. -/
structure L64 where
  d : BitVec 5
  imm : BitVec 64
deriving DecidableEq, Repr

/-- Layout X (R72): F16 [63:48], imm14 [47:34], SC, OC, MK (the field msk), cC, cB, cA, L, C, B, A. -/
structure LX where
  d : BitVec 5
  f16 : BitVec 16
  imm : BitVec 14
  sc : BitVec 3
  oc : BitVec 4
  msk : BitVec 4
  cC : BitVec 1
  cB : BitVec 1
  cA : BitVec 1
  l : BitVec 5
  c : BitVec 5
  b : BitVec 5
  a : BitVec 5
deriving DecidableEq, Repr

/-- The instructions of the opcode map (R81), in the order of spec/opcode_table.json, after them the steps of the machine that
the table lists without an encoding (95_what_each_step_holds.md), and last the instructions without a field. An instruction carries
the fields of its head and tail. -/
inductive Instr where
  /-- Raises the BRK trap and places imm16 in SINFO. (R97; layout I16, major 0x00, SUB 1) -/
  | brk (o : LI16)
  /-- x[D] := x[A] + x[B], wrapping at 64 bits. (R90; layout H, major 0x01, SUB 0) -/
  | add (o : LH)
  /-- x[D] := x[A] - x[B], wrapping. (R90; layout H, major 0x01, SUB 1) -/
  | sub (o : LH)
  /-- Bitwise AND of x[A] and x[B]. (R90; layout H, major 0x01, SUB 2) -/
  | and (o : LH)
  /-- Bitwise OR of x[A] and x[B]. (R90; layout H, major 0x01, SUB 3) -/
  | or (o : LH)
  /-- Bitwise XOR of x[A] and x[B]. (R90; layout H, major 0x01, SUB 4) -/
  | xor (o : LH)
  /-- x[A] AND NOT x[B]. (R90; layout H, major 0x01, SUB 5) -/
  | andn (o : LH)
  /-- x[A] OR NOT x[B]. (R90; layout H, major 0x01, SUB 6) -/
  | orn (o : LH)
  /-- NOT (x[A] XOR x[B]). (R90; layout H, major 0x01, SUB 7) -/
  | xnor (o : LH)
  /-- Shifts x[A] left by x[B][5:0]. (R90; layout H, major 0x02, SUB 0) -/
  | sll (o : LH)
  /-- Shifts x[A] logically right by x[B][5:0]. (R90; layout H, major 0x02, SUB 1) -/
  | srl (o : LH)
  /-- Shifts x[A] arithmetically right by x[B][5:0]. (R90; layout H, major 0x02, SUB 2) -/
  | sra (o : LH)
  /-- Rotates x[A] left by x[B][5:0]. (R90; layout H, major 0x02, SUB 3) -/
  | rol (o : LH)
  /-- Rotates x[A] right by x[B][5:0]. (R90; layout H, major 0x02, SUB 4) -/
  | ror (o : LH)
  /-- Writes 1 if x[A] < x[B] as signed values, else 0. (R90; layout H, major 0x02, SUB 5) -/
  | slt (o : LH)
  /-- Writes 1 if x[A] < x[B] as unsigned values, else 0. (R90; layout H, major 0x02, SUB 6) -/
  | sltu (o : LH)
  /-- Writes 1 if x[A] = x[B], else 0. (R90; layout H, major 0x02, SUB 7) -/
  | seq (o : LH)
  /-- Signed minimum of x[A] and x[B]. (R90; layout H, major 0x03, SUB 0) -/
  | min (o : LH)
  /-- Signed maximum of x[A] and x[B]. (R90; layout H, major 0x03, SUB 1) -/
  | max (o : LH)
  /-- Unsigned minimum of x[A] and x[B]. (R90; layout H, major 0x03, SUB 2) -/
  | minu (o : LH)
  /-- Unsigned maximum of x[A] and x[B]. (R90; layout H, major 0x03, SUB 3) -/
  | maxu (o : LH)
  /-- Low 64 bits of the product of x[A] and x[B]. (R90; layout H, major 0x03, SUB 4) -/
  | mul (o : LH)
  /-- High 64 bits of the signed product. (R90; layout H, major 0x03, SUB 5) -/
  | mulh (o : LH)
  /-- High 64 bits of the unsigned product. (R90; layout H, major 0x03, SUB 6) -/
  | mulhu (o : LH)
  /-- High 64 bits of the product of signed x[A] and unsigned x[B]. (R90; layout H, major 0x03, SUB 7) -/
  | mulhsu (o : LH)
  /-- Signed 64-bit quotient, under R36. (R90; layout H, major 0x04, SUB 0) -/
  | div (o : LH)
  /-- Unsigned 64-bit quotient, under R36. (R90; layout H, major 0x04, SUB 1) -/
  | divu (o : LH)
  /-- Signed 64-bit remainder, under R36. (R90; layout H, major 0x04, SUB 2) -/
  | rem (o : LH)
  /-- Unsigned 64-bit remainder, under R36. (R90; layout H, major 0x04, SUB 3) -/
  | remu (o : LH)
  /-- Counts the leading zero bits of x[A]. (R90; layout H, major 0x04, SUB 4) -/
  | clz (o : LH)
  /-- Counts the trailing zero bits of x[A]. (R90; layout H, major 0x04, SUB 5) -/
  | ctz (o : LH)
  /-- Counts the one bits of x[A]. (R90; layout H, major 0x04, SUB 6) -/
  | popc (o : LH)
  /-- Reverses the byte order of x[A]. (R90; layout H, major 0x04, SUB 7) -/
  | bswap (o : LH)
  /-- Sign-extends x[A] from 8, 16 or 32 bits. (R90; layout H, major 0x05, SUB 0) -/
  | sext (o : LH)
  /-- Zero-extends x[A] from 8, 16 or 32 bits. (R90; layout H, major 0x05, SUB 1) -/
  | zext (o : LH)
  /-- 32-bit add, result sign-extended to 64 bits. (R90; layout H, major 0x05, SUB 2) -/
  | addw (o : LH)
  /-- 32-bit subtract, result sign-extended to 64 bits. (R90; layout H, major 0x05, SUB 3) -/
  | subw (o : LH)
  /-- 32-bit multiply, result sign-extended to 64 bits. (R90; layout H, major 0x05, SUB 4) -/
  | mulw (o : LH)
  /-- x[D] := x[A] when x[B] = 0. (R90; layout H, major 0x05, SUB 5) -/
  | cmovz (o : LH)
  /-- x[D] := x[A] when x[B] != 0. (R90; layout H, major 0x05, SUB 6) -/
  | cmovnz (o : LH)
  /-- x[D] := x[D] + sext(imm16). (R91; layout I16, major 0x08, SUB 0) -/
  | addiI16 (o : LI16)
  /-- x[D] := x[A] + sext(imm27). (R91; layout WI, major 0x08, SUB 0) -/
  | addiWi (o : LWI)
  /-- x[D] := x[A] + sext(imm59). (R91; layout XI, major 0x08, SUB 0) -/
  | addiXi (o : LXI)
  /-- x[D] := x[D] AND sext(imm16). (R91; layout I16, major 0x08, SUB 1) -/
  | andiI16 (o : LI16)
  /-- x[D] := x[A] AND sext(imm27). (R91; layout WI, major 0x08, SUB 1) -/
  | andiWi (o : LWI)
  /-- x[D] := x[A] AND sext(imm59). (R91; layout XI, major 0x08, SUB 1) -/
  | andiXi (o : LXI)
  /-- x[D] := x[D] OR sext(imm16). (R91; layout I16, major 0x08, SUB 2) -/
  | oriI16 (o : LI16)
  /-- x[D] := x[A] OR sext(imm27). (R91; layout WI, major 0x08, SUB 2) -/
  | oriWi (o : LWI)
  /-- x[D] := x[A] OR sext(imm59). (R91; layout XI, major 0x08, SUB 2) -/
  | oriXi (o : LXI)
  /-- x[D] := x[D] XOR sext(imm16). (R91; layout I16, major 0x08, SUB 3) -/
  | xoriI16 (o : LI16)
  /-- x[D] := x[A] XOR sext(imm27). (R91; layout WI, major 0x08, SUB 3) -/
  | xoriWi (o : LWI)
  /-- x[D] := x[A] XOR sext(imm59). (R91; layout XI, major 0x08, SUB 3) -/
  | xoriXi (o : LXI)
  /-- Signed compare of x[D] with the 16-bit immediate. (R91; layout I16, major 0x08, SUB 4) -/
  | sltiI16 (o : LI16)
  /-- Signed compare of x[A] with the 27-bit immediate. (R91; layout WI, major 0x08, SUB 4) -/
  | sltiWi (o : LWI)
  /-- Signed compare of x[A] with the 59-bit immediate. (R91; layout XI, major 0x08, SUB 4) -/
  | sltiXi (o : LXI)
  /-- Unsigned compare of x[D] with the sign-extended 16-bit immediate. (R91; layout I16, major 0x08, SUB 5) -/
  | sltiuI16 (o : LI16)
  /-- Unsigned compare of x[A] with the sign-extended 27-bit immediate. (R91; layout WI, major 0x08, SUB 5) -/
  | sltiuWi (o : LWI)
  /-- Unsigned compare of x[A] with the sign-extended 59-bit immediate. (R91; layout XI, major 0x08, SUB 5) -/
  | sltiuXi (o : LXI)
  /-- Shifts or rotates x[D] by an immediate amount of the kind in imm[7:6]. (R91; layout I16, major 0x08, SUB 6) -/
  | shiI16 (o : LI16)
  /-- Shifts or rotates x[A] by an immediate amount, into x[D]. (R91; layout WI, major 0x08, SUB 6) -/
  | shiWi (o : LWI)
  /-- Shifts or rotates x[A] by an immediate amount, long form. (R91; layout XI, major 0x08, SUB 6) -/
  | shiXi (o : LXI)
  /-- x[D] := low 64 bits of x[D] times sext(imm16). (R91; layout I16, major 0x08, SUB 7) -/
  | muliI16 (o : LI16)
  /-- x[D] := low 64 bits of x[A] times sext(imm27). (R91; layout WI, major 0x08, SUB 7) -/
  | muliWi (o : LWI)
  /-- x[D] := low 64 bits of x[A] times sext(imm59). (R91; layout XI, major 0x08, SUB 7) -/
  | muliXi (o : LXI)
  /-- Adds x[B] to the address of fat pointer x[A], keeping its top byte; raises ADDROVF on overflow. (R92; layout H, major 0x0C, SUB 0) -/
  | adda (o : LH)
  /-- Adds a 27-bit immediate to the address of a fat pointer. (R92; layout WI, major 0x0C, SUB 1) -/
  | addiaWi (o : LWI)
  /-- Adds a 59-bit immediate to the address of a fat pointer. (R92; layout XI, major 0x0C, SUB 1) -/
  | addiaXi (o : LXI)
  /-- Adds x[B] shifted left by sh to the address of a fat pointer. (R92; layout H, major 0x0C, SUB 2) -/
  | scalea (o : LH)
  /-- Sets the top byte of x[D] to an immediate format byte. (R92; layout I16, major 0x0C, SUB 3) -/
  | pfmt (o : LI16)
  /-- Extracts the top byte of x[A]. (R92; layout H, major 0x0C, SUB 4) -/
  | gfmt (o : LH)
  /-- Clears the top byte of x[A]. (R92; layout H, major 0x0C, SUB 5) -/
  | clrfmt (o : LH)
  /-- Signed difference of two 56-bit addresses. (R92; layout H, major 0x0C, SUB 6) -/
  | suba (o : LH)
  /-- Loads a sign-extended 16-bit constant. (R93; layout I16, major 0x0E, SUB 0) -/
  | liI16 (o : LI16)
  /-- Loads a sign-extended 32-bit constant. (R93; layout I32, major 0x0E, SUB 0) -/
  | liI32 (o : LI32)
  /-- Loads a 64-bit constant. (R93; layout L64, major 0x0E, SUB 0) -/
  | liL64 (o : L64)
  /-- Loads a PC-relative line address and slot into x[D]. (R93; layout WI, major 0x0E, SUB 1) -/
  | lpc (o : LWI)
  /-- Copies x[A] into x[D]. (R93; layout H, major 0x0E, SUB 2) -/
  | mov (o : LH)
  /-- Reads a CSR into x[D] after the rights checks of R20. (R94; layout I16, major 0x0F, SUB 0) -/
  | csrr (o : LI16)
  /-- Writes x[D] into a CSR, applying that CSR's checks and effects. (R94; layout I16, major 0x0F, SUB 1) -/
  | csrw (o : LI16)
  /-- Sets the CSR bits that are set in x[D]. (R94; layout I16, major 0x0F, SUB 2) -/
  | csrs (o : LI16)
  /-- Clears the CSR bits that are set in x[D]. (R94; layout I16, major 0x0F, SUB 3) -/
  | csrc (o : LI16)
  /-- Exchanges a CSR with x[D]. (R94; layout I16, major 0x0F, SUB 4) -/
  | csrx (o : LI16)
  /-- Jumps to a line-relative target. (R98; layout WI, major 0x10, SUB 0) -/
  | j (o : LWI)
  /-- Jumps to a line-relative target and writes the return PC to x[D]. (R98; layout WI, major 0x10, SUB 1) -/
  | jal (o : LWI)
  /-- Jumps to x[A] and writes the return PC to x[D]. (R98; layout H, major 0x10, SUB 2) -/
  | jalr (o : LH)
  /-- Branches if x[D] = x[B]. (R99; layout B, major 0x11, SUB 0) -/
  | beq (o : LB)
  /-- Branches if x[D] != x[B]. (R99; layout B, major 0x11, SUB 1) -/
  | bne (o : LB)
  /-- Branches if x[D] < x[B] as signed values. (R99; layout B, major 0x11, SUB 2) -/
  | blt (o : LB)
  /-- Branches if x[D] >= x[B] as signed values. (R99; layout B, major 0x11, SUB 3) -/
  | bge (o : LB)
  /-- Branches if x[D] < x[B] as unsigned values. (R99; layout B, major 0x11, SUB 4) -/
  | bltu (o : LB)
  /-- Branches if x[D] >= x[B] as unsigned values. (R99; layout B, major 0x11, SUB 5) -/
  | bgeu (o : LB)
  /-- Branches if any mask bit below VL is set, after the mask's producer completes. (R99; layout B, major 0x11, SUB 6) -/
  | bms (o : LB)
  /-- Branches if no mask bit below VL is set, after the mask's producer completes. (R99; layout B, major 0x11, SUB 7) -/
  | bmc (o : LB)
  /-- Scalar floating add in binary32, binary64, T32 or T16. (R101; layout H, major 0x1C, SUB 0) -/
  | fadd (o : LH)
  /-- Scalar floating subtract. (R101; layout H, major 0x1C, SUB 1) -/
  | fsub (o : LH)
  /-- Scalar floating multiply. (R101; layout H, major 0x1C, SUB 2) -/
  | fmul (o : LH)
  /-- Scalar floating divide. (R101; layout H, major 0x1C, SUB 3) -/
  | fdiv (o : LH)
  /-- Scalar floating square root. (R101; layout H, major 0x1C, SUB 4) -/
  | fsqrt (o : LH)
  /-- Scalar floating minimum, under R43 or R48. (R101; layout H, major 0x1C, SUB 5) -/
  | fmin (o : LH)
  /-- Scalar floating maximum, under R43 or R48. (R101; layout H, major 0x1C, SUB 6) -/
  | fmax (o : LH)
  /-- Scalar floating compare, writing 0 or 1. (R101; layout H, major 0x1C, SUB 7) -/
  | fcmp (o : LH)
  /-- Scalar fused multiply-add, with optional negation of the product and the addend. (R102; layout W, major 0x1D, SUB 0) -/
  | fma (o : LW)
  /-- Converts x[A] between formats or to and from a 64-bit integer. (R103; layout H, major 0x1D, SUB 1) -/
  | fcvt (o : LH)
  /-- Writes the class mask of a floating code. (R104; layout H, major 0x1D, SUB 2) -/
  | fclass (o : LH)
  /-- Loads a sign-extended byte. (R111; layout M, major 0x14, SUB 0) -/
  | ldb (o : LM)
  /-- Loads a zero-extended byte. (R111; layout M, major 0x14, SUB 1) -/
  | ldbu (o : LM)
  /-- Loads a sign-extended halfword. (R111; layout M, major 0x14, SUB 2) -/
  | ldh (o : LM)
  /-- Loads a zero-extended halfword. (R111; layout M, major 0x14, SUB 3) -/
  | ldhu (o : LM)
  /-- Loads a sign-extended word. (R111; layout M, major 0x14, SUB 4) -/
  | ldw (o : LM)
  /-- Loads a zero-extended word. (R111; layout M, major 0x14, SUB 5) -/
  | ldwu (o : LM)
  /-- Loads a doubleword. (R111; layout M, major 0x14, SUB 6) -/
  | ldd (o : LM)
  /-- Loads a doubleword with acquire at scope SC. (R111; layout M, major 0x14, SUB 7) -/
  | ldaq (o : LM)
  /-- Stores a byte. (R111; layout M, major 0x15, SUB 0) -/
  | stb (o : LM)
  /-- Stores a halfword. (R111; layout M, major 0x15, SUB 1) -/
  | sth (o : LM)
  /-- Stores a word. (R111; layout M, major 0x15, SUB 2) -/
  | stw (o : LM)
  /-- Stores a doubleword. (R111; layout M, major 0x15, SUB 3) -/
  | std (o : LM)
  /-- Stores a doubleword with release at scope SC. (R111; layout M, major 0x15, SUB 4) -/
  | strl (o : LM)
  /-- Stores a word with release at scope SC. (R111; layout M, major 0x15, SUB 5) -/
  | strlw (o : LM)
  /-- Loads a zero-extended word with acquire at scope SC. (R111; layout M, major 0x15, SUB 6) -/
  | ldaqw (o : LM)
  /-- Multicast doubleword store, serialised at the home and written to every replica. (R113; layout M, major 0x15, SUB 7) -/
  | mstd (o : LM)
  /-- Indivisible read-modify-write with the operation, size and order given in F. (R114; layout W, major 0x16, SUB 0) -/
  | amo (o : LW)
  /-- Compare-and-swap of a word or doubleword. (R115; layout W, major 0x16, SUB 1) -/
  | cas (o : LW)
  /-- Orders the strand's accesses of the masked classes at the given scope. (R117; layout I16, major 0x16, SUB 2) -/
  | fence (o : LI16)
  /-- Writes a line back and adds a persistent line to the pending set. (R118; layout M, major 0x16, SUB 3) -/
  | pflush (o : LM)
  /-- Writes a 256-byte line back to its backing memory. (R118; layout M, major 0x16, SUB 5) -/
  | clwb (o : LM)
  /-- Issues an engine copy, local or node-qualified, and makes x[D] pending. (R122; layout X, major 0x18, SUB 0) -/
  | acopy (o : LX)
  /-- Issues a two-dimensional engine copy. (R122; layout X, major 0x18, SUB 1) -/
  | acopy2d (o : LX)
  /-- Issues an engine gather by an index array. (R122; layout X, major 0x18, SUB 2) -/
  | agather (o : LX)
  /-- Issues a collective among the members of a group. (R124; layout X, major 0x18, SUB 3) -/
  | acoll (o : LX)
  /-- Issues a publish of a window's bisque buffer. (R127; layout X, major 0x18, SUB 4) -/
  | glaze (o : LX)
  /-- Binds a window to a descriptor, or unbinds it. (R126; layout X, major 0x18, SUB 5) -/
  | wbind (o : LX)
  /-- Reads a window's current version with acquire. (R128; layout X, major 0x18, SUB 6) -/
  | wread (o : LX)
  /-- Stops the engine operation of a pending token. (R128; layout X, major 0x18, SUB 7) -/
  | acancel (o : LX)
  /-- Sets a vector length from a request, and remaps a core with a retired lane. (R140; layout H, major 0x20, SUB 0) -/
  | setvl (o : LH)
  /-- Writes VTYPE from an immediate and returns the new VLMAX. (R140; layout I16, major 0x20, SUB 1) -/
  | vsett (o : LI16)
  /-- Writes VTYPE from x[A] and sets a length from x[B]. (R140; layout H, major 0x20, SUB 2) -/
  | vsettx (o : LH)
  /-- Writes the slip limits of SLIPCFG. (R140; layout I16, major 0x20, SUB 3) -/
  | slip (o : LI16)
  /-- Tries to lock an aligned block of cores into a gang. (R141; layout H, major 0x20, SUB 5) -/
  | gang (o : LH)
  /-- Queues an elementwise integer add. (R142; layout V, major 0x21, SUB 0) -/
  | vadd (o : LV)
  /-- Queues an elementwise integer subtract. (R142; layout V, major 0x21, SUB 1) -/
  | vsub (o : LV)
  /-- Queues an elementwise AND. (R142; layout V, major 0x21, SUB 2) -/
  | vand (o : LV)
  /-- Queues an elementwise OR. (R142; layout V, major 0x21, SUB 3) -/
  | vor (o : LV)
  /-- Queues an elementwise XOR. (R142; layout V, major 0x21, SUB 4) -/
  | vxor (o : LV)
  /-- Queues an elementwise left shift. (R142; layout V, major 0x21, SUB 5) -/
  | vsll (o : LV)
  /-- Queues an elementwise logical right shift. (R142; layout V, major 0x21, SUB 6) -/
  | vsrl (o : LV)
  /-- Queues an elementwise arithmetic right shift. (R142; layout V, major 0x21, SUB 7) -/
  | vsra (o : LV)
  /-- Queues an elementwise low multiply. (R142; layout V, major 0x22, SUB 0) -/
  | vmul (o : LV)
  /-- Queues an elementwise high multiply. (R142; layout V, major 0x22, SUB 1) -/
  | vmulh (o : LV)
  /-- Queues an elementwise integer minimum. (R142; layout V, major 0x22, SUB 2) -/
  | vmin (o : LV)
  /-- Queues an elementwise integer maximum. (R142; layout V, major 0x22, SUB 3) -/
  | vmax (o : LV)
  /-- Queues an elementwise saturating add. (R142; layout V, major 0x22, SUB 4) -/
  | vsadd (o : LV)
  /-- Queues an elementwise saturating subtract. (R142; layout V, major 0x22, SUB 5) -/
  | vssub (o : LV)
  /-- Queues an integer compare into a mask. (R142; layout V, major 0x22, SUB 6) -/
  | vcmp (o : LV)
  /-- Queues a mask-selected merge of two vectors. (R142; layout V, major 0x22, SUB 7) -/
  | vmerge (o : LV)
  /-- Queues an elementwise floating add. (R142; layout V, major 0x23, SUB 0) -/
  | vfadd (o : LV)
  /-- Queues an elementwise floating subtract. (R142; layout V, major 0x23, SUB 1) -/
  | vfsub (o : LV)
  /-- Queues an elementwise floating multiply. (R142; layout V, major 0x23, SUB 2) -/
  | vfmul (o : LV)
  /-- Queues an elementwise floating divide. (R142; layout V, major 0x23, SUB 3) -/
  | vfdiv (o : LV)
  /-- Queues an elementwise floating minimum. (R142; layout V, major 0x23, SUB 4) -/
  | vfmin (o : LV)
  /-- Queues an elementwise floating maximum. (R142; layout V, major 0x23, SUB 5) -/
  | vfmax (o : LV)
  /-- Queues a floating compare into a mask. (R142; layout V, major 0x23, SUB 6) -/
  | vfcmp (o : LV)
  /-- Queues an elementwise floating square root. (R142; layout V, major 0x23, SUB 7) -/
  | vfsqrt (o : LV)
  /-- Queues an elementwise fused multiply-add. (R143; layout X, major 0x24, SUB 0) -/
  | vfma (o : LX)
  /-- Queues an elementwise negated fused multiply-add. (R143; layout X, major 0x24, SUB 1) -/
  | vfnma (o : LX)
  /-- Queues an elementwise format conversion. (R143; layout X, major 0x24, SUB 2) -/
  | vfcvt (o : LX)
  /-- Queues an elementwise class test into a mask. (R143; layout X, major 0x24, SUB 3) -/
  | vfclass (o : LX)
  /-- Queues an elementwise scale by a power of two. (R143; layout X, major 0x24, SUB 4) -/
  | vfscale (o : LX)
  /-- Queues an elementwise sign injection. (R143; layout X, major 0x24, SUB 5) -/
  | vfsgn (o : LX)
  /-- Queues an integer sum reduction. (R144; layout V, major 0x25, SUB 0) -/
  | vredsum (o : LV)
  /-- Queues a floating tree-sum reduction. (R144; layout V, major 0x25, SUB 1) -/
  | vfredsum (o : LV)
  /-- Queues an integer max or min reduction. (R144; layout V, major 0x25, SUB 2) -/
  | vredmax (o : LV)
  /-- Queues a floating max or min reduction. (R144; layout V, major 0x25, SUB 3) -/
  | vfredmax (o : LV)
  /-- Queues a slide up or down by x[B] elements. (R144; layout V, major 0x25, SUB 4) -/
  | vslide (o : LV)
  /-- Queues an index permutation. (R144; layout V, major 0x25, SUB 5) -/
  | vperm (o : LV)
  /-- Queues a compression of the active elements. (R144; layout V, major 0x25, SUB 6) -/
  | vcompress (o : LV)
  /-- Queues an expansion into the active elements. (R144; layout V, major 0x25, SUB 7) -/
  | vexpand (o : LV)
  /-- Moves a vector element to an x register, stalling the scalar pipe. (R145; layout V, major 0x26, SUB 0) -/
  | vmovx (o : LV)
  /-- Queues an insertion of x[A] into one vector element. (R145; layout V, major 0x26, SUB 1) -/
  | vins (o : LV)
  /-- Queues a broadcast of x[A] to the active elements. (R145; layout V, major 0x26, SUB 2) -/
  | vsplat (o : LV)
  /-- Queues a prefix count of mask bits. (R145; layout V, major 0x26, SUB 3) -/
  | viota (o : LV)
  /-- Queues a copy of the active elements. (R145; layout V, major 0x26, SUB 4) -/
  | vmov (o : LV)
  /-- Mask AND below VL. (R146; layout H, major 0x27, SUB 0) -/
  | mand (o : LH)
  /-- Mask OR below VL. (R146; layout H, major 0x27, SUB 1) -/
  | mor (o : LH)
  /-- Mask XOR below VL. (R146; layout H, major 0x27, SUB 2) -/
  | mxor (o : LH)
  /-- Mask AND-NOT below VL. (R146; layout H, major 0x27, SUB 3) -/
  | mandn (o : LH)
  /-- Mask NOT below VL. (R146; layout H, major 0x27, SUB 4) -/
  | mnot (o : LH)
  /-- Counts the set mask bits below VL into x[D]. (R146; layout H, major 0x27, SUB 5) -/
  | mpop (o : LH)
  /-- Writes the lowest set mask index below VL. (R146; layout H, major 0x27, SUB 6) -/
  | mfirst (o : LH)
  /-- Sets the mask bits below the first set bit. (R146; layout H, major 0x27, SUB 7) -/
  | msbf (o : LH)
  /-- Queues a unit-stride or strided vector load with format conversion. (R149; layout X, major 0x28, SUB 0) -/
  | vld (o : LX)
  /-- Queues an indexed vector load. (R149; layout X, major 0x28, SUB 1) -/
  | vldx (o : LX)
  /-- Queues a unit-stride or strided vector store. (R149; layout X, major 0x28, SUB 2) -/
  | vst (o : LX)
  /-- Queues an indexed vector store. (R149; layout X, major 0x28, SUB 3) -/
  | vstx (o : LX)
  /-- Queues a block-scaled vector load. (R151; layout X, major 0x28, SUB 4) -/
  | vlds (o : LX)
  /-- Queues a block-scaled vector store that chooses the block scales. (R151; layout X, major 0x28, SUB 5) -/
  | vsts (o : LX)
  /-- Queues a mask load. (R149; layout X, major 0x28, SUB 6) -/
  | mld (o : LX)
  /-- Queues a mask store. (R149; layout X, major 0x28, SUB 7) -/
  | mst (o : LX)
  /-- Queues a load from the lane-private slices. (R153; layout X, major 0x29, SUB 0) -/
  | vldl (o : LX)
  /-- Queues a store to the lane-private slices. (R153; layout X, major 0x29, SUB 1) -/
  | vstl (o : LX)
  /-- Queues a rank-one update added into an accumulator. (R160; layout X, major 0x30, SUB 0) -/
  | ranka (o : LX)
  /-- Queues a rank-one update subtracted from an accumulator. (R160; layout X, major 0x30, SUB 1) -/
  | ranks (o : LX)
  /-- Performs K rank-one steps from panels in cluster memory, restartable through MSTART. (R161; layout X, major 0x30, SUB 2) -/
  | mopak (o : LX)
  /-- Queues a zeroing of an accumulator. (R167; layout X, major 0x30, SUB 3) -/
  | mzero (o : LX)
  /-- Reads and converts an accumulator row into a vector register, with the step count. (R166; layout X, major 0x30, SUB 4) -/
  | mrd (o : LX)
  /-- Queues a write of a vector into an accumulator row. (R167; layout X, major 0x30, SUB 5) -/
  | mwr (o : LX)
  /-- Queues a scaled vector added into one accumulator row. (R168; layout X, major 0x30, SUB 6) -/
  | mrowacc (o : LX)
  /-- Stores accumulator rows to memory, row by row and restartable. (R169; layout X, major 0x30, SUB 7) -/
  | msta (o : LX)
  /-- Reads the matrix unit status. (R170; layout H, major 0x31, SUB 0) -/
  | mstat (o : LH)
  /-- Loads accumulator rows from memory, row by row and restartable. (R169; layout X, major 0x31, SUB 2) -/
  | mlda (o : LX)
  /-- Ends an accumulator's liveness. (R170; layout N, major 0x31, SUB 3) -/
  | mdrop (o : LN)
  /-- Loads a reference from a slot, healing it and writing the healed value back. (R175; layout M, major 0x36, SUB 0) -/
  | ldref (o : LM)
  /-- Stores a healed reference into a slot. (R176; layout M, major 0x36, SUB 1) -/
  | stref (o : LM)
  /-- Loads an object field through a reference. (R178; layout M, major 0x36, SUB 2) -/
  | ldf (o : LM)
  /-- Stores an object field through a reference. (R178; layout M, major 0x36, SUB 3) -/
  | stf (o : LM)
  /-- Raises the pin counts of an object's pages and returns its raw address. (R179; layout H, major 0x36, SUB 4) -/
  | pin (o : LH)
  /-- Lowers the pin counts of an object's pages. (R179; layout H, major 0x36, SUB 5) -/
  | unpin (o : LH)
  /-- Copies a reference register. (R180; layout H, major 0x36, SUB 6) -/
  | qmov (o : LH)
  /-- Converts an x value into a reference after checks. (R180; layout H, major 0x36, SUB 7) -/
  | qcvtToRef (o : LH)
  /-- Copies a reference's bits into an x register. (R180; layout H, major 0x36, SUB 7) -/
  | qcvtFromRef (o : LH)
  /-- Compares two references by object, healing stale ones. (R180; layout H, major 0x37, SUB 0) -/
  | refeq (o : LH)
  /-- Creates a child strand, placing it, spilling it or running it inline. (R186; layout X, major 0x39, SUB 0) -/
  | spawn (o : LX)
  /-- Reads a join word with acquire, waiting or polling while children are outstanding. (R189; layout H, major 0x39, SUB 1) -/
  | join (o : LH)
  /-- Returns from an inline child or ends the strand, updating records and join words. (R188; layout H, major 0x39, SUB 2) -/
  | exit (o : LH)
  /-- Moves the strand to the core its place word names. (R191; layout H, major 0x39, SUB 4) -/
  | migrate (o : LH)
  /-- Waits at a crew barrier. (R192; layout I16, major 0x39, SUB 5) -/
  | bar (o : LI16)
  /-- Reads the crew size and index, or a member's core. (R193; layout H, major 0x39, SUB 6) -/
  | crewinfo (o : LH)
  /-- Reads the executing core, class, context and gang size. (R193; layout H, major 0x39, SUB 7) -/
  | self (o : LH)
  /-- Sends an active message and waits for its answer. (R194; layout H, major 0x3A, SUB 0) -/
  | msend (o : LH)
  /-- Sends an active message whose answer arrives through a token. (R195; layout H, major 0x3A, SUB 1) -/
  | msenda (o : LH)
  /-- Places a task record in a cluster task queue. (R197; layout H, major 0x3B, SUB 0) -/
  | enqt (o : LH)
  /-- Completes a task record and counts down its dependents. (R198; layout H, major 0x3B, SUB 1) -/
  | tdone (o : LH)
  /-- Instantiates a run of a graph template. (R199; layout H, major 0x3B, SUB 2) -/
  | grun (o : LH)
  /-- Removes cached copies of control blocks in a range. (R200; layout H, major 0x3B, SUB 3) -/
  | cbinv (o : LH)
  /-- Traps to service code or posts a request to the syscall ring. (R201; layout H, major 0x3C, SUB 0) -/
  | sysc (o : LH)
  /-- Ends service code, releasing or killing the held strand. (R206; layout N, major 0x3C, SUB 1) -/
  | sret (o : LN)
  /-- Waits until a doubleword differs from an expected value, or until a timeout. (R202; layout H, major 0x3C, SUB 2) -/
  | wait (o : LH)
  /-- Drops the translations and L1 lines of a range. (R207; layout H, major 0x3C, SUB 3) -/
  | xinv (o : LH)
  /-- Records the core's requested operating point. (R203; layout I16, major 0x3C, SUB 4) -/
  | opreq (o : LI16)
  /-- Stops another core's U strand and spills it. (R208; layout H, major 0x3C, SUB 5) -/
  | preempt (o : LH)
  /-- Stops a core's U strand and streams it to another core. (R209; layout H, major 0x3C, SUB 6) -/
  | ctxstream (o : LH)
  /-- When the A context is free, a pending service entry starts service code at SVEC. (R205; a step of the machine, no encoding) -/
  | serviceEntry (core : Nat)
  /-- When the A context is free, the oldest accepted message's handler starts. (R223; a step of the machine, no encoding) -/
  | handlerStart (core : Nat)
  /-- A target core answers an arriving message: refuse, forward or accept. (R220; a step of the machine, no encoding) -/
  | messageAnswer (flight : Nat)
  /-- The answer to an MSENDA completes its token. (R195; a step of the machine, no encoding) -/
  | msendaCompletion (flight : Nat)
  /-- A queued vector entry executes and completes, or takes QFAULT. (R136; a step of the machine, no encoding) -/
  | vectorEntryExecute (core k : Nat)
  /-- A short matrix entry executes from MQ. (R155; a step of the machine, no encoding) -/
  | matrixEntryExecute (core : Nat)
  /-- The cluster copy engine performs one piece of a queued operation. (R246; a step of the machine, no encoding) -/
  | enginePiece (op : Nat)
  /-- An engine operation completes and its token receives VAL and STATUS. (R119; a step of the machine, no encoding) -/
  | tokenCompletion (op : Nat)
  /-- The window home exchanges the buffers and raises the version. (R127; a step of the machine, no encoding) -/
  | windowExchange (op : Nat)
  /-- A collective member fails to answer within 1 s and the members end with status 7. (R360; a step of the machine, no encoding) -/
  | collectiveTimeout (op : Nat)
  /-- A node-qualified copy receives no answer within 1 s and ends with status 7. (R359; a step of the machine, no encoding) -/
  | remoteCopyTimeout (op : Nat)
  /-- The target acknowledges a streamed image and the strand resumes there. (R331; a step of the machine, no encoding) -/
  | liveMoveAck (move : Nat)
  /-- At the end of a 4,096-instruction window, the strand may migrate by its instruction mix. (R233; a step of the machine, no encoding) -/
  | measuredMigration (core : Nat)
  /-- A strand ready for 1 ms makes the U strand park. (R227; a step of the machine, no encoding) -/
  | aging (core : Nat)
  /-- A parked JOIN or WAIT strand is rechecked when its word is written or every 10 µs. (R228; a step of the machine, no encoding) -/
  | parkedWaitCheck (core k : Nat)
  /-- WAIT's timeout of 2^t TIME counts expires. (R202; a step of the machine, no encoding) -/
  | waitTimeout (asid sid : Nat)
  /-- A freed arrival-queue slot takes the oldest overflow-list entry it can take. (R229; a step of the machine, no encoding) -/
  | overflowAdmit (core : Nat)
  /-- A core finishes zeroing after an occupant change, and the new strand may issue. (R247; a step of the machine, no encoding) -/
  | occupantZeroingDone (core : Nat)
  /-- A ready record that waited 1 ms at high priority makes the scheduler pre-empt a strand. (R332; a step of the machine, no encoding) -/
  | schedulerPreempt (site : Nat)
  /-- Watchdog step 1 expires: the strand is stopped and held. (R301; a step of the machine, no encoding) -/
  | watchdogT1 (asid sid : Nat)
  /-- Watchdog step 2 expires: the strand is killed and its record faulted. (R301; a step of the machine, no encoding) -/
  | watchdogT2 (asid sid : Nat)
  /-- Watchdog step 3 expires with the kill incomplete: the core is fenced. (R301; a step of the machine, no encoding) -/
  | watchdogT3 (asid sid : Nat)
  /-- The device takes a published job record from a launch queue ring. (R291; a step of the machine, no encoding) -/
  | jobTake (asid queue : Nat)
  /-- A task record with wait count 0 becomes ready. (R292; a step of the machine, no encoding) -/
  | recordReady (asid record : Nat)
  /-- The launch scheduler dispatches a ready record to cores. (R294; a step of the machine, no encoding) -/
  | dispatch (site : Nat)
  /-- A crew unplaced for 2 ms reserves a site. (R296; a step of the machine, no encoding) -/
  | crewReservation (site : Nat)
  /-- A queue whose oldest ready record waited 8 ms gains one effective priority level. (R294; a step of the machine, no encoding) -/
  | eprioRaise (asid queue : Nat)
  /-- A cluster task scheduler dispatches a ready entry to a tensor core. (R297; a step of the machine, no encoding) -/
  | clusterTaskDispatch (cluster : Nat)
  /-- A cluster queue entry's record is reread on a write or every 10 µs. (R297; a step of the machine, no encoding) -/
  | clusterTaskRecheck (cluster k : Nat)
  /-- On STATE 2, the device cancels the origin's ready and pending records and thaws the queue. (R299; a step of the machine, no encoding) -/
  | queueCancel (asid queue : Nat)
  /-- When event ring space returns, held events and one lost-count event are written. (R300; a step of the machine, no encoding) -/
  | eventsLostReport (asid : Nat)
  /-- A strand parked on a full syscall ring retries when the host frees a slot. (R305; a step of the machine, no encoding) -/
  | syscRingRetry (asid : Nat)
  /-- The device reads the freed slot with acquire and completes the SYSC token. (R354; a step of the machine, no encoding) -/
  | syscResult (asid pos : Nat)
  /-- ASBIND operation 1 binds an address space. (R352; a step of the machine, no encoding) -/
  | asbindBind (port record : Nat)
  /-- ASBIND operation 2 unbinds an address space, killing its work. (R352; a step of the machine, no encoding) -/
  | asbindUnbind (port record : Nat)
  /-- Power-on starts a cold reset and bring-up. (R388; a step of the machine, no encoding) -/
  | powerOnReset
  /-- A write of MODCTL.COLD requests a cold reset. (R388; a step of the machine, no encoding) -/
  | modctlCold (port : Nat)
  /-- A write of MODCTL.WARM requests a warm reset. (R388; a step of the machine, no encoding) -/
  | modctlWarm (port : Nat)
  /-- ATTCTL.GO starts an attestation report signed by the saggar. (R401; a step of the machine, no encoding) -/
  | attestRequest (port area : Nat)
  /-- A CAPCTL write of MODE 0 ends capture or replay. (R403; a step of the machine, no encoding) -/
  | captureModeOff (port : Nat)
  /-- A CAPCTL write of MODE 1 starts Perden capture. (R403; a step of the machine, no encoding) -/
  | captureModeOn (port ring logn : Nat)
  /-- A CAPCTL write of MODE 2 starts replay of a capture ring. (R406; a step of the machine, no encoding) -/
  | replayModeOn (port ring logn : Nat)
  /-- Capture ring space returns and held work proceeds. (R405; a step of the machine, no encoding) -/
  | captureRingSpace
  /-- A recorded choice cannot be forced within 1 s and replay ends. (R406; a step of the machine, no encoding) -/
  | replayForceTimeout (asid queue record : Nat)
  /-- A write to a BAR 0 register with no row of its own. (R7; a step of the machine, no encoding) -/
  | registerWrite (port offset value : Nat)
  /-- A corrected error is detected and logged. (R378; a step of the machine, no encoding) -/
  | errorCorrected (unitKind unit pa count : Nat)
  /-- An uncorrectable data error poisons an atom or element. (R381; a step of the machine, no encoding) -/
  | poisonCreated (place unit addr : Nat)
  /-- An uncorrectable lane error retires the lane and starts twin mode. (R382; a step of the machine, no encoding) -/
  | laneRetire (core lane : Nat)
  /-- A matrix step fails its residue check and repeats, retiring the core on a second failure. (R378; a step of the machine, no encoding) -/
  | matrixStepCheckFail (core : Nat)
  /-- A core-logic error fences the core. (R384; a step of the machine, no encoding) -/
  | coreFence (core : Nat)
  /-- More than 16 retakes within 1 ms lower the tile's highest point. (R269; a step of the machine, no encoding) -/
  | opLimitLower (tile : Nat)
  /-- A pseudo-channel crosses an error threshold and is marked failing. (R385; a step of the machine, no encoding) -/
  | pseudoChannelFailing (pc : Nat)
  /-- A die link loses a lane and continues with flit retry. (R385; a step of the machine, no encoding) -/
  | linkDegrade (link : Nat)
  /-- A module-class fault stops issue and sets RESETREQ. (R378; a step of the machine, no encoding) -/
  | moduleError
  /-- A host port goes down or its host is removed. (R357; a step of the machine, no encoding) -/
  | hostPortDown (port : Nat)
  /-- A pool-sharing host dies holding modified lines, which become poisoned. (R357; a step of the machine, no encoding) -/
  | hostDeath (port offset lines : Nat)
  /-- Part of the pool dies. (R357; a step of the machine, no encoding) -/
  | poolFailure (port offset bytes : Nat)
  /-- The pool's coherence engine fails and the port's CXL range is marked down. (R357; a step of the machine, no encoding) -/
  | cxlEngineFailure (port : Nat)
  /-- A fabric port fails and bandwidth is reduced. (R358; a step of the machine, no encoding) -/
  | fabricPortDown (port : Nat)
  /-- A cone point passes its warning limit and grants above OP3 are recalled. (R407; a step of the machine, no encoding) -/
  | thermalWarning (site : Nat)
  /-- A cone point passes its throttle limit and tiles are held at OP2 or below. (R407; a step of the machine, no encoding) -/
  | thermalThrottle (site : Nat)
  /-- A critical temperature or out-of-range input raises a module-class error. (R407; a step of the machine, no encoding) -/
  | thermalCritical (site : Nat)
  /-- The damper table answers a tile's request for lent budget. (R265; a step of the machine, no encoding) -/
  | damperGrant (tile : Nat)
  /-- A tile without work for 20 µs is gated to OP0 and returns its budget. (R263; a step of the machine, no encoding) -/
  | tileGate (tile : Nat)
  /-- A gated tile receives work and recalls its share. (R265; a step of the machine, no encoding) -/
  | tileWake (tile : Nat)
  /-- A tile's divider switches to a new operating point. (R266; a step of the machine, no encoding) -/
  | pointSwitch (tile : Nat)
  /-- An ATS Translation Completion arrives and is cached. (R317; a step of the machine, no encoding) -/
  | atsCompletion (k hpa rights : Nat)
  /-- A Page Request Group Response arrives, retrying or failing the waiting accesses. (R318; a step of the machine, no encoding) -/
  | priResponse (k code : Nat)
  /-- No page-request response within 100 ms ends the waiters with PGHOST. (R318; a step of the machine, no encoding) -/
  | priTimeout (k : Nat)
  /-- An ATS Invalidation Request from the host drops cached host translations. (R319; a step of the machine, no encoding) -/
  | atsInvalidation (port pasid va bytes : Nat)
  /-- Once pins are released and accesses have performed, the Invalidation Completion is sent. (R319; a step of the machine, no encoding) -/
  | invalidationCompletion (k : Nat)
  /-- An L2 slice answers a host snoop or pool back-invalidation. (R350; a step of the machine, no encoding) -/
  | hostSnoop (port addr : Nat)
  /-- A host CXL.mem access is performed at the line's L2 home. (R351; a step of the machine, no encoding) -/
  | hostMemAccess (port pa write data : Nat)
  /-- A home admits a waiting pre-translation pinning request. (R313; a step of the machine, no encoding) -/
  | pinAdmit (site : Nat)
  /-- A held translation entry's hotness record is written back every 10 ms. (R315; a step of the machine, no encoding) -/
  | hotnessWriteback (site k : Nat)
  /-- A movement request migrates a page to a new frame. (R321; a step of the machine, no encoding) -/
  | moveMigrate (site : Nat)
  /-- A movement request replicates a page to four site copies. (R321; a step of the machine, no encoding) -/
  | moveReplicate (site : Nat)
  /-- A movement request collapses a replicated page to one frame. (R321; a step of the machine, no encoding) -/
  | moveCollapse (site : Nat)
  /-- A movement request resets a page's hotness counts. (R320; a step of the machine, no encoding) -/
  | moveResetHotness (site : Nat)
  /-- A wedger command checks the lists, loads forwarding entries and flips the colour. (R342; a step of the machine, no encoding) -/
  | flip
  /-- A wedger command copies every pending object of the cycle. (R344; a step of the machine, no encoding) -/
  | copy
  /-- A wedger command frees the non-retained set pages. (R345; a step of the machine, no encoding) -/
  | free
  /-- When error log space returns, a records-lost record is written. (R380; a step of the machine, no encoding) -/
  | errorLogSpace
  /-- The pool confirms that a flushed line of a persistent page is durable, letting a waiting PSYNC or context switch go on. (R356; a step of the machine, no encoding) -/
  | persistConfirmation (k : Nat)
  /-- Another module's node-qualified copy reaches this module over Ultra Ethernet, and this module's homes translate and perform its remote side. (R359; a step of the machine, no encoding) -/
  | nodeQualifiedRemoteAccess (asid va write data : Nat)
  /-- A host port trains its PCIe or CXL link and comes up, independently of the other ports. (R348; a step of the machine, no encoding) -/
  | hostPortUp (port : Nat)
  /-- A failed Ultra Ethernet port comes back up and packets are again sprayed across it. (R358; a step of the machine, no encoding) -/
  | fabricPortUp (port : Nat)
  /-- A cone point falls back below its warning or throttle limit, lifting the OP3 grant block or the OP2 hold on its site. (R407; a step of the machine, no encoding) -/
  | conePointRecovery (site : Nat)
  /-- No operation. (R97; layout N, major 0x00, SUB 0) -/
  | nop
  /-- Stalls until every pending persist is durable. (R118; layout N, major 0x16, SUB 4) -/
  | psync
  /-- Waits until the three vector queues are empty. (R140; layout N, major 0x20, SUB 4) -/
  | qsync
  /-- Disbands the gang and releases the followers. (R141; layout N, major 0x20, SUB 6) -/
  | ungang
  /-- Waits until earlier matrix instructions complete. (R170; layout N, major 0x31, SUB 1) -/
  | mwait
  /-- Parks the strand when another strand is ready. (R190; layout N, major 0x39, SUB 3) -/
  | yield
  /-- Ends the running handler and frees its mailbox slot. (R196; layout N, major 0x3A, SUB 2) -/
  | hend
deriving DecidableEq, Repr

end Sys2Proof
end

