-- ==== Sys2Proof/Machine/Checks.lean ====
section
/-! DEFINITION. The encoding checks of R80 step 2 on the fields of an instruction: zero and unused fields (R73), register
ranges (R74), masks (R75), scopes (R78) and chain bits. -/

namespace Sys2Proof.Machine

/-- Why an encoding is ILLINS; the numbers of R80 step 2 are those of `Ill.code`. -/
inductive Ill where
  | unlisted   -- major or SUB not in the opcode map
  | tail       -- TL names no layout the map allows
  | field      -- nonzero zero-field or unused field, or a value that names nothing
  | register   -- register number out of range
  | scope      -- reserved MK or SC value
  | chain      -- chain bit on a non-vector source
deriving DecidableEq, Repr

/-- SINFO[19:16] of ILLINS (R80, R324). -/
def Ill.code : Ill → Nat
  | .unlisted => 1
  | .tail => 2
  | .field => 3
  | .register => 4
  | .scope => 5
  | .chain => 6

/-- How an instruction's entry uses a 5-bit register field: a zero field, a number that is no register, or a register of a file.
`xPair` is an x register n whose partner n + 1 is used too. -/
inductive Use where
  | zero
  | any
  | x
  | xPair
  | v
  | m
  | q
  | ac
deriving DecidableEq, Repr

/-- R73: an unused field holds zero. -/
def zeroOk (u : Use) (f : BitVec 5) : Bool :=
  match u with
  | .zero => f == 0
  | _ => true

/-- R74: a register field names a register of its file. -/
def rangeOk (u : Use) (f : BitVec 5) : Bool :=
  match u with
  | .m => f.toNat < 12
  | .q => f.toNat < 16
  | .ac => f.toNat < 4
  | .xPair => f.toNat < 31
  | _ => true

/-- R73: may a chain bit stand on this source (unused sources are refused with reason 3, x sources with reason 6) (log 19, DEDUCED). -/
def chainZeroOk (u : Use) (c : BitVec 1) : Bool :=
  match u with
  | .zero => c == 0
  | _ => true

/-- R80 reason 6: a chain bit on a used source that is no vector and no accumulator (log 19, DEDUCED). -/
def chainOk (u : Use) (c : BitVec 1) : Bool :=
  match u with
  | .v => true
  | .ac => true
  | .zero => true
  | _ => c == 0

/-- R80: of the failing encoding checks of one instruction, the lowest reason applies. -/
def firstIll (fields registers scopes chains : Bool) : Option Ill :=
  if !fields then some .field
  else if !registers then some .register
  else if !scopes then some .scope
  else if !chains then some .chain
  else none

def ckN (d : Use) (o : LN) : Option Ill :=
  firstIll (zeroOk d o.d) (rangeOk d o.d) true true

def ckH (d a b : Use) (fOk : Bool) (o : LH) : Option Ill :=
  firstIll (zeroOk d o.d && zeroOk a o.a && zeroOk b o.b && fOk)
    (rangeOk d o.d && rangeOk a o.a && rangeOk b o.b) true true

def ckI16 (d : Use) (iOk : Bool) (o : LI16) : Option Ill :=
  firstIll (zeroOk d o.d && iOk) (rangeOk d o.d) true true

def ckWI (d a : Use) (iOk : Bool) (o : LWI) : Option Ill :=
  firstIll (zeroOk d o.d && zeroOk a o.a && iOk) true true true

def ckXI (d a : Use) (iOk : Bool) (o : LXI) : Option Ill :=
  firstIll (zeroOk d o.d && zeroOk a o.a && iOk) true true true

/-- R78: SC is 0 to 4 where it is used and a zero field elsewhere. -/
def scZeroOk (used : Bool) (sc : BitVec 3) : Bool := used || sc == 0

def scOk (used : Bool) (sc : BitVec 3) : Bool := !used || sc.toNat < 5

def ckM (d a : Use) (useSc : Bool) (o : LM) : Option Ill :=
  firstIll (zeroOk d o.d && zeroOk a o.a && scZeroOk useSc o.sc)
    (rangeOk d o.d && rangeOk a o.a) (scOk useSc o.sc) true

def ckB (d b : Use) (o : LB) : Option Ill :=
  firstIll true (rangeOk d o.d && rangeOk b o.b) true true

/-- No chain bit of a W-layout instruction is set: zero fields of AMO and FMA (R102, R114), and bits on sources that are no vectors in
CAS (R73). -/
def noChainW (o : LW) : Bool := o.cA == 0 && o.cB == 0 && o.cC == 0

/-- AMO (R114): F[6:3] below 9, C and the chain bits zero, SC used. -/
def ckAmo (o : LW) : Option Ill :=
  firstIll (o.f.toNat / 8 < 9 && o.c == 0 && noChainW o) true (scOk true o.sc) true

/-- CAS (R115): F[6:3] zero, SC used; a chain bit stands on no vector source (R73). -/
def ckCas (o : LW) : Option Ill :=
  firstIll (o.f.toNat / 8 == 0) true (scOk true o.sc) (noChainW o)

/-- FMA (R102): F[6:4], OC, SC and the chain bits zero. -/
def ckFma (o : LW) : Option Ill :=
  firstIll (o.f.toNat < 16 && o.oc == 0 && o.sc == 0 && noChainW o) true true true

/-- FENCE (R117): D[4:3] zero, scope D[2:0] 0 to 4 (reason 5). -/
def ckFence (o : LI16) : Option Ill :=
  firstIll (o.d.toNat < 8) true (o.d.toNat % 8 < 5) true

/-- MDROP (R170): D[4:2] zero. -/
def ckMdrop (o : LN) : Option Ill := firstIll (o.d.toNat < 4) true true true

/-- SRET (R182): D[4:1] zero. -/
def ckSret (o : LN) : Option Ill := firstIll (o.d.toNat < 2) true true true

/-- CREWINFO (R182): B and F[5:1] zero, A zero when F[0] = 0. -/
def ckCrewinfo (o : LH) : Option Ill :=
  firstIll (o.b == 0 && o.f.toNat < 2 && (o.f == 1 || o.a == 0)) true true true

def noChainX (o : LX) : Bool := o.cA == 0 && o.cB == 0 && o.cC == 0

/-- Major 18 (R119): MK, L and the chain bits zero; SC used except by ACANCEL (R128). -/
def ckEngine (a b c : Use) (fOk useSc : Bool) (o : LX) : Option Ill :=
  firstIll (zeroOk a o.a && zeroOk b o.b && zeroOk c o.c && fOk && o.msk == 0 && o.l == 0 && noChainX o
      && scZeroOk useSc o.sc)
    (rangeOk a o.a && rangeOk b o.b && rangeOk c o.c) (scOk useSc o.sc) true

/-- R75: MK names no mask or m0 to m11. -/
def mkOk (k : BitVec 4) : Bool := k.toNat < 13

/-- The use of B in the V layout: F[6] = 1 makes B an x register (R81). -/
def vB (b : Use) (o : LV) : Use := if o.f.toNat / 64 = 1 then .x else b

/-- The V layout with all its operands (R81, R142): the zero field [24:21], the F options, MK, and the chain bits. -/
def ckV (d a b : Use) (fOk : Bool) (o : LV) : Option Ill :=
  firstIll (o.z == 0 && fOk) (rangeOk d o.d && rangeOk a o.a) (mkOk o.msk)
    (chainOk a o.cA && chainOk (vB b o) o.cB)

/-- The V layout without B: B, cB and F[6] are zero fields. -/
def ckVNoB (d a : Use) (fOk : Bool) (o : LV) : Option Ill :=
  firstIll (o.z == 0 && fOk && o.f.toNat < 64 && o.b == 0 && o.cB == 0 && zeroOk a o.a && chainZeroOk a o.cA)
    (rangeOk d o.d) (mkOk o.msk) (chainOk a o.cA)

/-- F options of the V layout with no condition: F[5:3] zero and F[2:0] at most k. -/
def fLow (o : LV) (k : Nat) : Bool := o.f.toNat % 64 ≤ k

/-- VCMP and VFCMP (R81): F[2:0] zero and the condition F[5:3] at most k. -/
def fCond (o : LV) (k : Nat) : Bool := o.f.toNat % 8 == 0 && o.f.toNat % 64 / 8 ≤ k

/-- Reductions (R144): with F[0] = 0, B, cB and F[6] are zero fields. -/
def ckRed (fOk : Bool) (o : LV) : Option Ill :=
  firstIll (o.z == 0 && fOk && (o.f.toNat % 2 == 1 || (o.b == 0 && o.cB == 0 && o.f.toNat < 64))) true (mkOk o.msk)
    (chainOk (vB .v o) o.cB)

/-- VMOVX (R145): L, MK, F[6:1] and the chain bits zero. -/
def ckMovx (o : LV) : Option Ill :=
  firstIll (o.z == 0 && o.f.toNat < 2 && o.l == 0 && o.msk == 0 && o.cA == 0 && o.cB == 0) true true true

/-- VINS (R145): L, MK, F and the chain bits zero. -/
def ckIns (o : LV) : Option Ill :=
  firstIll (o.z == 0 && o.f == 0 && o.l == 0 && o.msk == 0 && o.cA == 0 && o.cB == 0) true true true

/-- F16[2] of major 24 makes B an x register (R143). -/
def x24B (o : LX) : Use := if o.f16.toNat / 4 % 2 = 1 then .x else .v

/-- Major 24 (R143): OC, SC and the chain bits of unused sources zero. -/
def ckX24 (d a b c : Use) (fOk : Bool) (o : LX) : Option Ill :=
  firstIll (fOk && o.oc == 0 && o.sc == 0 && zeroOk b o.b && zeroOk c o.c && chainZeroOk b o.cB && chainZeroOk c o.cC)
    (rangeOk d o.d) (mkOk o.msk) (chainOk a o.cA && chainOk b o.cB && chainOk c o.cC)

/-- A code of the binary8 family (R37). -/
def isB8 (fc : Nat) : Bool := 8 ≤ fc && fc ≤ 28

/-- FCVT (R103): the saturate option F[5], when neither side is FC 0, is allowed only with a binary8 target. -/
def fcvtSatOk (o : LH) : Bool :=
  o.f.toNat < 32 || o.f.toNat % 32 == 0 || o.b == 0 || isB8 o.b.toNat

/-- VFCVT (R143): F16[15:14] zero; the width and unsigned bits only with an FC 0 side; saturate only with a binary8 target. -/
def vfcvtOk (o : LX) : Bool :=
  let n := o.f16.toNat
  let intSide := n % 32 == 0 || n / 32 % 32 == 0
  n < 0x4000 && (intSide || n / 1024 % 8 == 0) && (n / 8192 % 2 == 0 || isB8 (n / 32 % 32))

/-- What B of a vector memory instruction is (R147, R149, R151). -/
inductive VMemB where
  | str    -- the stride register, when F16[0] = 1
  | idx    -- the index vector
  | scale  -- the scale-plane pointer
deriving DecidableEq, Repr

def vMemBUse (k : VMemB) (o : LX) : Use :=
  match k with
  | .str => if o.f16.toNat % 2 = 1 then .x else .zero
  | .idx => .v
  | .scale => .x

/-- C of a vector memory instruction names the notify address when NTF = 1 (R147). -/
def vMemCUse (o : LX) : Use := if o.f16.toNat / 2 % 2 = 1 then .x else .zero

/-- Majors 28 with a vector register (R147): F16 within `allowed`, SC zero, B and C as used. -/
def ckVMem (d : Use) (k : VMemB) (allowed : BitVec 16) (o : LX) : Option Ill :=
  firstIll (((o.f16 &&& ~~~allowed) == 0) && o.sc == 0 && zeroOk (vMemBUse k o) o.b && zeroOk (vMemCUse o) o.c
      && chainZeroOk (vMemBUse k o) o.cB && chainZeroOk (vMemCUse o) o.cC)
    (rangeOk d o.d) (mkOk o.msk) (o.cA == 0 && chainOk (vMemBUse k o) o.cB && chainOk (vMemCUse o) o.cC)

/-- MLD, MST (R149): F16, SC, MK, B and C zero. -/
def ckMMem (o : LX) : Option Ill :=
  firstIll (o.f16 == 0 && o.sc == 0 && o.msk == 0 && o.b == 0 && o.c == 0 && o.cB == 0 && o.cC == 0)
    (rangeOk .m o.d) true (o.cA == 0)

/-- VLDL, VSTL (R153): F16[15:1], OC, SC and C zero; B is an index vector when F16[0] = 1. The offset then needs neither A nor imm14, and
the spec does not say whether they must be zero: any value of them is accepted (log 62, DESIGN CHOICE). -/
def ckLane (o : LX) : Option Ill :=
  let b : Use := if o.f16 = 1 then .v else .zero
  firstIll (o.f16.toNat < 2 && o.oc == 0 && o.sc == 0 && o.c == 0 && o.cC == 0 && zeroOk b o.b && chainZeroOk b o.cB)
    true (mkOk o.msk) (o.cA == 0 && chainOk b o.cB)

/-- F16 of the matrix instructions (R157): [15:14] and [7] zero, AF below 3, OF and the integer options as the entry uses
them, and of SUBT, MC and SAT only those in `opts`. The integer options, UNS among them, are zero fields with floating operands (log 67, DEDUCED). -/
def matF16Ok (opts : BitVec 16) (useOf : Bool) (f : BitVec 16) : Bool :=
  let n := f.toNat
  let ofc := n / 4 % 32
  n < 0x4000 && n / 128 % 2 == 0 && n % 4 < 3 && ((f &&& 0x0E00#16 &&& ~~~opts) == 0)
    && (if useOf && ofc == 0 then n / 4096 < 3 else n / 4096 == 0 && n / 256 % 2 == 0)
    && (useOf || ofc == 0)

/-- Matrix instructions of the X layout (R155, R157): MK, L and SC zero, OC zero unless used, fields as the entry uses them. -/
def ckMat (d a b c : Use) (opts : BitVec 16) (useOf useOc iOk : Bool) (o : LX) : Option Ill :=
  firstIll (matF16Ok opts useOf o.f16 && iOk && o.msk == 0 && o.l == 0 && o.sc == 0 && (useOc || o.oc == 0)
      && zeroOk a o.a && zeroOk b o.b && zeroOk c o.c && chainZeroOk a o.cA && chainZeroOk b o.cB && chainZeroOk c o.cC)
    (rangeOk d o.d && rangeOk a o.a && rangeOk b o.b && rangeOk c o.c) true
    (chainOk a o.cA && chainOk b o.cB && chainOk c o.cC)

/-- MZERO (R157): it uses no field but D. -/
def ckMzero (o : LX) : Option Ill :=
  firstIll (o.f16 == 0 && o.imm == 0 && o.a == 0 && o.b == 0 && o.c == 0 && o.oc == 0 && o.sc == 0 && o.l == 0
      && o.msk == 0 && noChainX o) (rangeOk .ac o.d) true true

/-- SPAWN (R182): L, MK, the chain bits, OC, SC, imm14 and F16 zero. -/
def ckSpawn (o : LX) : Option Ill :=
  firstIll (o.f16 == 0 && o.imm == 0 && o.oc == 0 && o.sc == 0 && o.l == 0 && o.msk == 0 && noChainX o) true true true

/-- The CSR numbers of R21 and R22. -/
def csrListed (n : Nat) : Bool :=
  n ≤ 0x010 || (0x100 ≤ n && n ≤ 0x107) || (0x110 ≤ n && n ≤ 0x11F) || (0x120 ≤ n && n ≤ 0x122)

/-- Major 0F (R94, R20 check 1): imm16[15:12] zero, and the number names a CSR or is at or above 0x300. -/
def csrFieldOk (imm : BitVec 16) : Bool :=
  imm.toNat < 0x1000 && (csrListed imm.toNat || 0x300 ≤ imm.toNat)

/-- The encoding checks of each instruction (R73 to R75, R78, R80 step 2, and the zero fields of its own entry). A step of the
machine has no encoding to check. -/
def illForm : Instr → Option Ill
  | .brk o => ckI16 .zero true o
  | .add o => ckH .x .x .x (o.f == 0) o
  | .sub o => ckH .x .x .x (o.f == 0) o
  | .and o => ckH .x .x .x (o.f == 0) o
  | .or o => ckH .x .x .x (o.f == 0) o
  | .xor o => ckH .x .x .x (o.f == 0) o
  | .andn o => ckH .x .x .x (o.f == 0) o
  | .orn o => ckH .x .x .x (o.f == 0) o
  | .xnor o => ckH .x .x .x (o.f == 0) o
  | .sll o => ckH .x .x .x (o.f == 0) o
  | .srl o => ckH .x .x .x (o.f == 0) o
  | .sra o => ckH .x .x .x (o.f == 0) o
  | .rol o => ckH .x .x .x (o.f == 0) o
  | .ror o => ckH .x .x .x (o.f == 0) o
  | .slt o => ckH .x .x .x (o.f == 0) o
  | .sltu o => ckH .x .x .x (o.f == 0) o
  | .seq o => ckH .x .x .x (o.f == 0) o
  | .min o => ckH .x .x .x (o.f == 0) o
  | .max o => ckH .x .x .x (o.f == 0) o
  | .minu o => ckH .x .x .x (o.f == 0) o
  | .maxu o => ckH .x .x .x (o.f == 0) o
  | .mul o => ckH .x .x .x (o.f == 0) o
  | .mulh o => ckH .x .x .x (o.f == 0) o
  | .mulhu o => ckH .x .x .x (o.f == 0) o
  | .mulhsu o => ckH .x .x .x (o.f == 0) o
  | .div o => ckH .x .x .x (o.f == 0) o
  | .divu o => ckH .x .x .x (o.f == 0) o
  | .rem o => ckH .x .x .x (o.f == 0) o
  | .remu o => ckH .x .x .x (o.f == 0) o
  | .clz o => ckH .x .x .zero (o.f == 0) o
  | .ctz o => ckH .x .x .zero (o.f == 0) o
  | .popc o => ckH .x .x .zero (o.f == 0) o
  | .bswap o => ckH .x .x .zero (o.f == 0) o
  | .sext o => ckH .x .x .zero (o.f.toNat < 3) o
  | .zext o => ckH .x .x .zero (o.f.toNat < 3) o
  | .addw o => ckH .x .x .x (o.f == 0) o
  | .subw o => ckH .x .x .x (o.f == 0) o
  | .mulw o => ckH .x .x .x (o.f == 0) o
  | .cmovz o => ckH .x .x .x (o.f == 0) o
  | .cmovnz o => ckH .x .x .x (o.f == 0) o
  | .addiI16 o => ckI16 .x true o
  | .addiWi o => ckWI .x .x true o
  | .addiXi o => ckXI .x .x true o
  | .andiI16 o => ckI16 .x true o
  | .andiWi o => ckWI .x .x true o
  | .andiXi o => ckXI .x .x true o
  | .oriI16 o => ckI16 .x true o
  | .oriWi o => ckWI .x .x true o
  | .oriXi o => ckXI .x .x true o
  | .xoriI16 o => ckI16 .x true o
  | .xoriWi o => ckWI .x .x true o
  | .xoriXi o => ckXI .x .x true o
  | .sltiI16 o => ckI16 .x true o
  | .sltiWi o => ckWI .x .x true o
  | .sltiXi o => ckXI .x .x true o
  | .sltiuI16 o => ckI16 .x true o
  | .sltiuWi o => ckWI .x .x true o
  | .sltiuXi o => ckXI .x .x true o
  | .shiI16 o => ckI16 .x (o.imm.toNat < 256) o
  | .shiWi o => ckWI .x .x (o.imm.toNat < 256) o
  | .shiXi o => ckXI .x .x (o.imm.toNat < 256) o
  | .muliI16 o => ckI16 .x true o
  | .muliWi o => ckWI .x .x true o
  | .muliXi o => ckXI .x .x true o
  | .adda o => ckH .x .x .x (o.f == 0) o
  | .addiaWi o => ckWI .x .x true o
  | .addiaXi o => ckXI .x .x true o
  | .scalea o => ckH .x .x .x (o.f.toNat < 8) o
  | .pfmt o => ckI16 .x (o.imm.toNat < 256) o
  | .gfmt o => ckH .x .x .zero (o.f == 0) o
  | .clrfmt o => ckH .x .x .zero (o.f == 0) o
  | .suba o => ckH .x .x .x (o.f == 0) o
  | .liI16 o => ckI16 .x true o
  | .liI32 _ => none
  | .liL64 _ => none
  | .lpc o => ckWI .x .x true o
  | .mov o => ckH .x .x .zero (o.f == 0) o
  | .csrr o => ckI16 .x (csrFieldOk o.imm) o
  | .csrw o => ckI16 .x (csrFieldOk o.imm) o
  | .csrs o => ckI16 .x (csrFieldOk o.imm) o
  | .csrc o => ckI16 .x (csrFieldOk o.imm) o
  | .csrx o => ckI16 .x (csrFieldOk o.imm) o
  | .j o => ckWI .zero .x true o
  | .jal o => ckWI .x .x true o
  | .jalr o => ckH .x .x .zero (o.f == 0) o
  | .beq o => ckB .x .x o
  | .bne o => ckB .x .x o
  | .blt o => ckB .x .x o
  | .bge o => ckB .x .x o
  | .bltu o => ckB .x .x o
  | .bgeu o => ckB .x .x o
  | .bms o => ckB .m .x o
  | .bmc o => ckB .m .x o
  | .fadd o => ckH .x .x .x (o.f.toNat < 4) o
  | .fsub o => ckH .x .x .x (o.f.toNat < 4) o
  | .fmul o => ckH .x .x .x (o.f.toNat < 4) o
  | .fdiv o => ckH .x .x .x (o.f.toNat < 4) o
  | .fsqrt o => ckH .x .x .zero (o.f.toNat < 4) o
  | .fmin o => ckH .x .x .x (o.f.toNat < 4) o
  | .fmax o => ckH .x .x .x (o.f.toNat < 4) o
  | .fcmp o => ckH .x .x .x (o.f.toNat < 16) o
  | .fma o => ckFma o
  | .fcvt o => ckH .x .x .any (fcvtSatOk o) o
  | .fclass o => ckH .x .x .zero (o.f.toNat < 32) o
  | .ldb o => ckM .x .x false o
  | .ldbu o => ckM .x .x false o
  | .ldh o => ckM .x .x false o
  | .ldhu o => ckM .x .x false o
  | .ldw o => ckM .x .x false o
  | .ldwu o => ckM .x .x false o
  | .ldd o => ckM .x .x false o
  | .ldaq o => ckM .x .x true o
  | .stb o => ckM .x .x false o
  | .sth o => ckM .x .x false o
  | .stw o => ckM .x .x false o
  | .std o => ckM .x .x false o
  | .strl o => ckM .x .x true o
  | .strlw o => ckM .x .x true o
  | .ldaqw o => ckM .x .x true o
  | .mstd o => ckM .x .x false o
  | .amo o => ckAmo o
  | .cas o => ckCas o
  | .fence o => ckFence o
  | .pflush o => ckM .zero .x false o
  | .clwb o => ckM .zero .x false o
  | .acopy o => ckEngine .x .x .x (o.f16.toNat < 2 && o.imm == 0) true o
  | .acopy2d o => ckEngine .xPair .xPair .x (o.f16 == 0 && o.imm == 0) true o
  | .agather o => ckEngine .x .x .xPair (o.f16.toNat % 8 < 7 && o.f16.toNat < 16 && o.imm == 0) true o
  | .acoll o => ckEngine .x .x .x (o.f16.toNat % 16 < 3 && o.f16.toNat / 16 % 4 < 3 && o.f16.toNat < 2048) true o
  | .glaze o => ckEngine .x .zero .zero (o.f16 == 0 && o.imm == 0) true o
  | .wbind o => ckEngine .x .x .zero (o.f16 == 0 && o.imm == 0) true o
  | .wread o => ckEngine .x .zero .zero (o.f16 == 0 && o.imm == 0) true o
  | .acancel o => ckEngine .zero .zero .zero (o.f16 == 0 && o.imm == 0) false o
  | .setvl o => ckH .x .x .zero (o.f == 0) o
  | .vsett o => ckI16 .x true o
  | .vsettx o => ckH .x .x .x (o.f == 0) o
  | .slip o => ckI16 .zero true o
  | .gang o => ckH .x .zero .zero (o.f.toNat < 4 && o.f.toNat != 0) o
  | .vadd o => ckV .v .v .v (fLow o 0) o
  | .vsub o => ckV .v .v .v (fLow o 0) o
  | .vand o => ckV .v .v .v (fLow o 0) o
  | .vor o => ckV .v .v .v (fLow o 0) o
  | .vxor o => ckV .v .v .v (fLow o 0) o
  | .vsll o => ckV .v .v .v (fLow o 0) o
  | .vsrl o => ckV .v .v .v (fLow o 0) o
  | .vsra o => ckV .v .v .v (fLow o 0) o
  | .vmul o => ckV .v .v .v (fLow o 0) o
  | .vmulh o => ckV .v .v .v (fLow o 2) o
  | .vmin o => ckV .v .v .v (fLow o 1) o
  | .vmax o => ckV .v .v .v (fLow o 1) o
  | .vsadd o => ckV .v .v .v (fLow o 1) o
  | .vssub o => ckV .v .v .v (fLow o 1) o
  | .vcmp o => ckV .m .v .v (fCond o 5) o
  | .vmerge o => ckV .v .v .v (fLow o 0) o
  | .vfadd o => ckV .v .v .v (fLow o 1) o
  | .vfsub o => ckV .v .v .v (fLow o 1) o
  | .vfmul o => ckV .v .v .v (fLow o 1) o
  | .vfdiv o => ckV .v .v .v (fLow o 1) o
  | .vfmin o => ckV .v .v .v (fLow o 0) o
  | .vfmax o => ckV .v .v .v (fLow o 0) o
  | .vfcmp o => ckV .m .v .v (fCond o 4) o
  | .vfsqrt o => ckVNoB .v .v (o.f.toNat < 2) o
  | .vfma o => ckX24 .v .v (x24B o) .v (o.f16.toNat < 8 && o.imm == 0) o
  | .vfnma o => ckX24 .v .v (x24B o) .v (o.f16.toNat < 8 && o.imm == 0) o
  | .vfcvt o => ckX24 .v .v .zero .zero (vfcvtOk o && o.imm == 0) o
  | .vfclass o => ckX24 .m .v .zero .zero (o.f16 == 0 && o.imm.toNat < 4096) o
  | .vfscale o => ckX24 .v .v (x24B o) .zero ((o.f16 &&& 0xFFFA#16) == 0 && o.imm == 0) o
  | .vfsgn o => ckX24 .v .v (x24B o) .zero (o.f16.toNat < 8 && o.f16.toNat % 4 < 3 && o.imm == 0) o
  | .vredsum o => ckRed (o.f.toNat % 64 < 2) o
  | .vfredsum o => ckRed (o.f.toNat % 64 < 2) o
  | .vredmax o => ckRed (o.f.toNat % 64 < 8) o
  | .vfredmax o => ckRed (o.f.toNat % 64 < 8 && o.f.toNat / 2 % 2 == 0) o
  | .vslide o => ckV .v .v .v (o.f.toNat / 64 == 1 && o.f.toNat % 64 < 2) o
  | .vperm o => ckV .v .v .v (fLow o 0) o
  | .vcompress o => ckVNoB .v .v (o.f == 0) o
  | .vexpand o => ckVNoB .v .v (o.f == 0) o
  | .vmovx o => ckMovx o
  | .vins o => ckIns o
  | .vsplat o => ckVNoB .v .x (o.f == 0) o
  | .viota o => ckVNoB .v .zero (o.f == 0) o
  | .vmov o => ckVNoB .v .v (o.f == 0) o
  | .mand o => ckH .m .m .m (o.f.toNat < 32) o
  | .mor o => ckH .m .m .m (o.f.toNat < 32) o
  | .mxor o => ckH .m .m .m (o.f.toNat < 32) o
  | .mandn o => ckH .m .m .m (o.f.toNat < 32) o
  | .mnot o => ckH .m .m .zero (o.f.toNat < 32) o
  | .mpop o => ckH .x .m .zero (o.f.toNat < 32) o
  | .mfirst o => ckH .x .m .zero (o.f.toNat < 32) o
  | .msbf o => ckH .m .m .zero (o.f.toNat < 32) o
  | .vld o => ckVMem .v .str 3#16 o
  | .vldx o => ckVMem .v .idx 0x3A#16 o
  | .vst o => ckVMem .v .str 7#16 o
  | .vstx o => ckVMem .v .idx 0x3E#16 o
  | .vlds o => ckVMem .v .scale 2#16 o
  | .vsts o => ckVMem .v .scale 6#16 o
  | .mld o => ckMMem o
  | .mst o => ckMMem o
  | .vldl o => ckLane o
  | .vstl o => ckLane o
  | .ranka o => ckMat .ac .v .v .zero 0#16 true false (o.imm == 0) o
  | .ranks o => ckMat .ac .v .v .zero 0#16 true false (o.imm == 0) o
  | .mopak o => ckMat .ac .x .x .x 0x0C00#16 true true (o.imm == 0) o
  | .mzero o => ckMzero o
  | .mrd o => ckMat .v .ac .xPair .zero 0x0200#16 true false (o.imm == 0) o
  | .mwr o => ckMat .ac .v .x .zero 0#16 true false (o.imm == 0) o
  | .mrowacc o => ckMat .ac .v .x .x 0x0800#16 true false (o.imm == 0) o
  | .msta o => ckMat .ac .x .x .x 0x0200#16 false true true o
  | .mstat o => ckH .x .zero .zero (o.f == 0) o
  | .mlda o => ckMat .ac .x .x .x 0#16 false true true o
  | .mdrop o => ckMdrop o
  | .ldref o => ckM .q .x false o
  | .stref o => ckM .q .x false o
  | .ldf o => ckM .x .q false o
  | .stf o => ckM .x .q false o
  | .pin o => ckH .x .q .zero (o.f == 0) o
  | .unpin o => ckH .zero .q .zero (o.f == 0) o
  | .qmov o => ckH .q .q .zero (o.f == 0) o
  | .qcvtToRef o => ckH .q .x .zero (o.f == 0) o
  | .qcvtFromRef o => ckH .x .q .zero (o.f == 1) o
  | .refeq o => ckH .x .q .q (o.f == 0) o
  | .spawn o => ckSpawn o
  | .join o => ckH .x .x .zero (o.f.toNat < 2) o
  | .exit o => ckH .zero .zero .zero (o.f.toNat < 2) o
  | .migrate o => ckH .x .x .zero (o.f == 0) o
  | .bar o => ckI16 .zero (o.imm.toNat < 16) o
  | .crewinfo o => ckCrewinfo o
  | .self o => ckH .x .zero .zero (o.f == 0) o
  | .msend o => ckH .x .x .x (o.f.toNat < 2) o
  | .msenda o => ckH .x .x .x (o.f.toNat < 2) o
  | .enqt o => ckH .x .x .x (o.f == 0) o
  | .tdone o => ckH .x .x .zero (o.f.toNat < 2) o
  | .grun o => ckH .x .x .x (o.f == 0) o
  | .cbinv o => ckH .zero .x .x (o.f == 0) o
  | .sysc o => ckH .x .x .zero (o.f == 0) o
  | .sret o => ckSret o
  | .wait o => ckH .x .x .x (o.f.toNat < 32) o
  | .xinv o => ckH .zero .x .x (o.f == 0) o
  | .opreq o => ckI16 .zero (o.imm.toNat < 8) o
  | .preempt o => ckH .x .x .zero (o.f == 0) o
  | .ctxstream o => ckH .x .x .x (o.f == 0) o
  | .serviceEntry _ => none
  | .handlerStart _ => none
  | .messageAnswer _ => none
  | .msendaCompletion _ => none
  | .vectorEntryExecute _ _ => none
  | .matrixEntryExecute _ => none
  | .enginePiece _ => none
  | .tokenCompletion _ => none
  | .windowExchange _ => none
  | .collectiveTimeout _ => none
  | .remoteCopyTimeout _ => none
  | .liveMoveAck _ => none
  | .measuredMigration _ => none
  | .aging _ => none
  | .parkedWaitCheck _ _ => none
  | .waitTimeout _ _ => none
  | .overflowAdmit _ => none
  | .occupantZeroingDone _ => none
  | .schedulerPreempt _ => none
  | .watchdogT1 _ _ => none
  | .watchdogT2 _ _ => none
  | .watchdogT3 _ _ => none
  | .jobTake _ _ => none
  | .recordReady _ _ => none
  | .dispatch _ => none
  | .crewReservation _ => none
  | .eprioRaise _ _ => none
  | .clusterTaskDispatch _ => none
  | .clusterTaskRecheck _ _ => none
  | .queueCancel _ _ => none
  | .eventsLostReport _ => none
  | .syscRingRetry _ => none
  | .syscResult _ _ => none
  | .asbindBind _ _ => none
  | .asbindUnbind _ _ => none
  | .powerOnReset => none
  | .modctlCold _ => none
  | .modctlWarm _ => none
  | .attestRequest _ _ => none
  | .captureModeOff _ => none
  | .captureModeOn _ _ _ => none
  | .replayModeOn _ _ _ => none
  | .captureRingSpace => none
  | .replayForceTimeout _ _ _ => none
  | .registerWrite _ _ _ => none
  | .errorCorrected _ _ _ _ => none
  | .poisonCreated _ _ _ => none
  | .laneRetire _ _ => none
  | .matrixStepCheckFail _ => none
  | .coreFence _ => none
  | .opLimitLower _ => none
  | .pseudoChannelFailing _ => none
  | .linkDegrade _ => none
  | .moduleError => none
  | .hostPortDown _ => none
  | .hostDeath _ _ _ => none
  | .poolFailure _ _ _ => none
  | .cxlEngineFailure _ => none
  | .fabricPortDown _ => none
  | .thermalWarning _ => none
  | .thermalThrottle _ => none
  | .thermalCritical _ => none
  | .damperGrant _ => none
  | .tileGate _ => none
  | .tileWake _ => none
  | .pointSwitch _ => none
  | .atsCompletion _ _ _ => none
  | .priResponse _ _ => none
  | .priTimeout _ => none
  | .atsInvalidation _ _ _ _ => none
  | .invalidationCompletion _ => none
  | .hostSnoop _ _ => none
  | .hostMemAccess _ _ _ _ => none
  | .pinAdmit _ => none
  | .hotnessWriteback _ _ => none
  | .moveMigrate _ => none
  | .moveReplicate _ => none
  | .moveCollapse _ => none
  | .moveResetHotness _ => none
  | .flip => none
  | .copy => none
  | .free => none
  | .errorLogSpace => none
  | .persistConfirmation _ => none
  | .nodeQualifiedRemoteAccess _ _ _ _ => none
  | .hostPortUp _ => none
  | .fabricPortUp _ => none
  | .conePointRecovery _ => none
  | .nop => none
  | .psync => none
  | .qsync => none
  | .ungang => none
  | .mwait => none
  | .yield => none
  | .hend => none

/-- The x registers that an instruction reads or writes, for the scoreboard of R119 (x0 is never pending). -/
def xUses : Instr → List (BitVec 5)
  | .brk _ => []
  | .add o => [o.d, o.a, o.b]
  | .sub o => [o.d, o.a, o.b]
  | .and o => [o.d, o.a, o.b]
  | .or o => [o.d, o.a, o.b]
  | .xor o => [o.d, o.a, o.b]
  | .andn o => [o.d, o.a, o.b]
  | .orn o => [o.d, o.a, o.b]
  | .xnor o => [o.d, o.a, o.b]
  | .sll o => [o.d, o.a, o.b]
  | .srl o => [o.d, o.a, o.b]
  | .sra o => [o.d, o.a, o.b]
  | .rol o => [o.d, o.a, o.b]
  | .ror o => [o.d, o.a, o.b]
  | .slt o => [o.d, o.a, o.b]
  | .sltu o => [o.d, o.a, o.b]
  | .seq o => [o.d, o.a, o.b]
  | .min o => [o.d, o.a, o.b]
  | .max o => [o.d, o.a, o.b]
  | .minu o => [o.d, o.a, o.b]
  | .maxu o => [o.d, o.a, o.b]
  | .mul o => [o.d, o.a, o.b]
  | .mulh o => [o.d, o.a, o.b]
  | .mulhu o => [o.d, o.a, o.b]
  | .mulhsu o => [o.d, o.a, o.b]
  | .div o => [o.d, o.a, o.b]
  | .divu o => [o.d, o.a, o.b]
  | .rem o => [o.d, o.a, o.b]
  | .remu o => [o.d, o.a, o.b]
  | .clz o => [o.d, o.a]
  | .ctz o => [o.d, o.a]
  | .popc o => [o.d, o.a]
  | .bswap o => [o.d, o.a]
  | .sext o => [o.d, o.a]
  | .zext o => [o.d, o.a]
  | .addw o => [o.d, o.a, o.b]
  | .subw o => [o.d, o.a, o.b]
  | .mulw o => [o.d, o.a, o.b]
  | .cmovz o => [o.d, o.a, o.b]
  | .cmovnz o => [o.d, o.a, o.b]
  | .addiI16 o => [o.d]
  | .addiWi o => [o.d, o.a]
  | .addiXi o => [o.d, o.a]
  | .andiI16 o => [o.d]
  | .andiWi o => [o.d, o.a]
  | .andiXi o => [o.d, o.a]
  | .oriI16 o => [o.d]
  | .oriWi o => [o.d, o.a]
  | .oriXi o => [o.d, o.a]
  | .xoriI16 o => [o.d]
  | .xoriWi o => [o.d, o.a]
  | .xoriXi o => [o.d, o.a]
  | .sltiI16 o => [o.d]
  | .sltiWi o => [o.d, o.a]
  | .sltiXi o => [o.d, o.a]
  | .sltiuI16 o => [o.d]
  | .sltiuWi o => [o.d, o.a]
  | .sltiuXi o => [o.d, o.a]
  | .shiI16 o => [o.d]
  | .shiWi o => [o.d, o.a]
  | .shiXi o => [o.d, o.a]
  | .muliI16 o => [o.d]
  | .muliWi o => [o.d, o.a]
  | .muliXi o => [o.d, o.a]
  | .adda o => [o.d, o.a, o.b]
  | .addiaWi o => [o.d, o.a]
  | .addiaXi o => [o.d, o.a]
  | .scalea o => [o.d, o.a, o.b]
  | .pfmt o => [o.d]
  | .gfmt o => [o.d, o.a]
  | .clrfmt o => [o.d, o.a]
  | .suba o => [o.d, o.a, o.b]
  | .liI16 o => [o.d]
  | .liI32 o => [o.d]
  | .liL64 o => [o.d]
  | .lpc o => [o.d]
  | .mov o => [o.d, o.a]
  | .csrr o => [o.d]
  | .csrw o => [o.d]
  | .csrs o => [o.d]
  | .csrc o => [o.d]
  | .csrx o => [o.d]
  | .j _ => []
  | .jal o => [o.d]
  | .jalr o => [o.d, o.a]
  | .beq o => [o.d, o.b]
  | .bne o => [o.d, o.b]
  | .blt o => [o.d, o.b]
  | .bge o => [o.d, o.b]
  | .bltu o => [o.d, o.b]
  | .bgeu o => [o.d, o.b]
  | .bms o => [o.b]
  | .bmc o => [o.b]
  | .fadd o => [o.d, o.a, o.b]
  | .fsub o => [o.d, o.a, o.b]
  | .fmul o => [o.d, o.a, o.b]
  | .fdiv o => [o.d, o.a, o.b]
  | .fsqrt o => [o.d, o.a]
  | .fmin o => [o.d, o.a, o.b]
  | .fmax o => [o.d, o.a, o.b]
  | .fcmp o => [o.d, o.a, o.b]
  | .fma o => [o.d, o.a, o.b, o.c]
  | .fcvt o => [o.d, o.a]
  | .fclass o => [o.d, o.a]
  | .ldb o => [o.d, o.a]
  | .ldbu o => [o.d, o.a]
  | .ldh o => [o.d, o.a]
  | .ldhu o => [o.d, o.a]
  | .ldw o => [o.d, o.a]
  | .ldwu o => [o.d, o.a]
  | .ldd o => [o.d, o.a]
  | .ldaq o => [o.d, o.a]
  | .stb o => [o.d, o.a]
  | .sth o => [o.d, o.a]
  | .stw o => [o.d, o.a]
  | .std o => [o.d, o.a]
  | .strl o => [o.d, o.a]
  | .strlw o => [o.d, o.a]
  | .ldaqw o => [o.d, o.a]
  | .mstd o => [o.d, o.a]
  | .amo o => [o.d, o.a, o.b]
  | .cas o => [o.d, o.a, o.b, o.c]
  | .fence _ => []
  | .pflush o => [o.a]
  | .clwb o => [o.a]
  | .acopy o => [o.d, o.a, o.b, o.c]
  | .acopy2d o => [o.d, o.a, o.a + 1, o.b, o.b + 1, o.c]
  | .agather o => [o.d, o.a, o.b, o.c, o.c + 1]
  | .acoll o => [o.d, o.a, o.b, o.c]
  | .glaze o => [o.d, o.a]
  | .wbind o => [o.d, o.a, o.b]
  | .wread o => [o.d, o.a]
  | .acancel _ => []
  | .setvl o => [o.d, o.a]
  | .vsett o => [o.d]
  | .vsettx o => [o.d, o.a, o.b]
  | .slip _ => []
  | .gang o => [o.d]
  | .vadd o => [o.l] ++ (if o.f.toNat / 64 = 1 then [o.b] else [])
  | .vsub o => [o.l] ++ (if o.f.toNat / 64 = 1 then [o.b] else [])
  | .vand o => [o.l] ++ (if o.f.toNat / 64 = 1 then [o.b] else [])
  | .vor o => [o.l] ++ (if o.f.toNat / 64 = 1 then [o.b] else [])
  | .vxor o => [o.l] ++ (if o.f.toNat / 64 = 1 then [o.b] else [])
  | .vsll o => [o.l] ++ (if o.f.toNat / 64 = 1 then [o.b] else [])
  | .vsrl o => [o.l] ++ (if o.f.toNat / 64 = 1 then [o.b] else [])
  | .vsra o => [o.l] ++ (if o.f.toNat / 64 = 1 then [o.b] else [])
  | .vmul o => [o.l] ++ (if o.f.toNat / 64 = 1 then [o.b] else [])
  | .vmulh o => [o.l] ++ (if o.f.toNat / 64 = 1 then [o.b] else [])
  | .vmin o => [o.l] ++ (if o.f.toNat / 64 = 1 then [o.b] else [])
  | .vmax o => [o.l] ++ (if o.f.toNat / 64 = 1 then [o.b] else [])
  | .vsadd o => [o.l] ++ (if o.f.toNat / 64 = 1 then [o.b] else [])
  | .vssub o => [o.l] ++ (if o.f.toNat / 64 = 1 then [o.b] else [])
  | .vcmp o => [o.l] ++ (if o.f.toNat / 64 = 1 then [o.b] else [])
  | .vmerge o => [o.l] ++ (if o.f.toNat / 64 = 1 then [o.b] else [])
  | .vfadd o => [o.l] ++ (if o.f.toNat / 64 = 1 then [o.b] else [])
  | .vfsub o => [o.l] ++ (if o.f.toNat / 64 = 1 then [o.b] else [])
  | .vfmul o => [o.l] ++ (if o.f.toNat / 64 = 1 then [o.b] else [])
  | .vfdiv o => [o.l] ++ (if o.f.toNat / 64 = 1 then [o.b] else [])
  | .vfmin o => [o.l] ++ (if o.f.toNat / 64 = 1 then [o.b] else [])
  | .vfmax o => [o.l] ++ (if o.f.toNat / 64 = 1 then [o.b] else [])
  | .vfcmp o => [o.l] ++ (if o.f.toNat / 64 = 1 then [o.b] else [])
  | .vfsqrt o => [o.l]
  | .vfma o => [o.l] ++ (if o.f16.toNat / 4 % 2 = 1 then [o.b] else [])
  | .vfnma o => [o.l] ++ (if o.f16.toNat / 4 % 2 = 1 then [o.b] else [])
  | .vfcvt o => [o.l]
  | .vfclass o => [o.l]
  | .vfscale o => [o.l] ++ (if o.f16.toNat / 4 % 2 = 1 then [o.b] else [])
  | .vfsgn o => [o.l] ++ (if o.f16.toNat / 4 % 2 = 1 then [o.b] else [])
  | .vredsum o => [o.l] ++ (if o.f.toNat / 64 = 1 then [o.b] else [])
  | .vfredsum o => [o.l] ++ (if o.f.toNat / 64 = 1 then [o.b] else [])
  | .vredmax o => [o.l] ++ (if o.f.toNat / 64 = 1 then [o.b] else [])
  | .vfredmax o => [o.l] ++ (if o.f.toNat / 64 = 1 then [o.b] else [])
  | .vslide o => [o.l] ++ (if o.f.toNat / 64 = 1 then [o.b] else [])
  | .vperm o => [o.l] ++ (if o.f.toNat / 64 = 1 then [o.b] else [])
  | .vcompress o => [o.l]
  | .vexpand o => [o.l]
  | .vmovx o => [o.d, o.b]
  | .vins o => [o.a, o.b]
  | .vsplat o => [o.l, o.a]
  | .viota o => [o.l]
  | .vmov o => [o.l]
  | .mand o => [o.f.setWidth 5]
  | .mor o => [o.f.setWidth 5]
  | .mxor o => [o.f.setWidth 5]
  | .mandn o => [o.f.setWidth 5]
  | .mnot o => [o.f.setWidth 5]
  | .mpop o => [o.d, o.f.setWidth 5]
  | .mfirst o => [o.d, o.f.setWidth 5]
  | .msbf o => [o.f.setWidth 5]
  | .vld o => [o.a, o.l] ++ (if vMemBUse .str o = .x then [o.b] else []) ++ (if vMemCUse o = .x then [o.c] else [])
  | .vldx o => [o.a, o.l] ++ (if vMemBUse .idx o = .x then [o.b] else []) ++ (if vMemCUse o = .x then [o.c] else [])
  | .vst o => [o.a, o.l] ++ (if vMemBUse .str o = .x then [o.b] else []) ++ (if vMemCUse o = .x then [o.c] else [])
  | .vstx o => [o.a, o.l] ++ (if vMemBUse .idx o = .x then [o.b] else []) ++ (if vMemCUse o = .x then [o.c] else [])
  | .vlds o => [o.a, o.l] ++ (if vMemBUse .scale o = .x then [o.b] else []) ++ (if vMemCUse o = .x then [o.c] else [])
  | .vsts o => [o.a, o.l] ++ (if vMemBUse .scale o = .x then [o.b] else []) ++ (if vMemCUse o = .x then [o.c] else [])
  | .mld o => [o.a, o.l]
  | .mst o => [o.a, o.l]
  | .vldl o => [o.a, o.l]
  | .vstl o => [o.a, o.l]
  | .ranka _ => []
  | .ranks _ => []
  | .mopak o => [o.a, o.b, o.c]
  | .mzero _ => []
  | .mrd o => [o.b, o.b + 1]
  | .mwr o => [o.b]
  | .mrowacc o => [o.b, o.c]
  | .msta o => [o.a, o.b, o.c]
  | .mstat o => [o.d]
  | .mlda o => [o.a, o.b, o.c]
  | .mdrop _ => []
  | .ldref o => [o.a]
  | .stref o => [o.a]
  | .ldf o => [o.d]
  | .stf o => [o.d]
  | .pin o => [o.d]
  | .unpin _ => []
  | .qmov _ => []
  | .qcvtToRef o => [o.a]
  | .qcvtFromRef o => [o.d]
  | .refeq o => [o.d]
  | .spawn o => [o.d, o.a, o.b, o.c, 2, 4, 5, 6, 7]
  | .join o => [o.d, o.a]
  | .exit _ => []
  | .migrate o => [o.d, o.a]
  | .bar _ => []
  | .crewinfo o => [o.d, o.a]
  | .self o => [o.d]
  | .msend o => [o.d, o.a, o.b, 4, 5, 6, 7]
  | .msenda o => [o.d, o.a, o.b, 4, 5, 6, 7]
  | .enqt o => [o.d, o.a, o.b]
  | .tdone o => [o.d, o.a]
  | .grun o => [o.d, o.a, o.b]
  | .cbinv o => [o.a, o.b]
  | .sysc o => [o.d, o.a, 4, 5, 6, 7]
  | .sret _ => []
  | .wait o => [o.d, o.a, o.b]
  | .xinv o => [o.a, o.b]
  | .opreq _ => []
  | .preempt o => [o.d, o.a]
  | .ctxstream o => [o.d, o.a, o.b]
  | .serviceEntry _ => []
  | .handlerStart _ => []
  | .messageAnswer _ => []
  | .msendaCompletion _ => []
  | .vectorEntryExecute _ _ => []
  | .matrixEntryExecute _ => []
  | .enginePiece _ => []
  | .tokenCompletion _ => []
  | .windowExchange _ => []
  | .collectiveTimeout _ => []
  | .remoteCopyTimeout _ => []
  | .liveMoveAck _ => []
  | .measuredMigration _ => []
  | .aging _ => []
  | .parkedWaitCheck _ _ => []
  | .waitTimeout _ _ => []
  | .overflowAdmit _ => []
  | .occupantZeroingDone _ => []
  | .schedulerPreempt _ => []
  | .watchdogT1 _ _ => []
  | .watchdogT2 _ _ => []
  | .watchdogT3 _ _ => []
  | .jobTake _ _ => []
  | .recordReady _ _ => []
  | .dispatch _ => []
  | .crewReservation _ => []
  | .eprioRaise _ _ => []
  | .clusterTaskDispatch _ => []
  | .clusterTaskRecheck _ _ => []
  | .queueCancel _ _ => []
  | .eventsLostReport _ => []
  | .syscRingRetry _ => []
  | .syscResult _ _ => []
  | .asbindBind _ _ => []
  | .asbindUnbind _ _ => []
  | .powerOnReset => []
  | .modctlCold _ => []
  | .modctlWarm _ => []
  | .attestRequest _ _ => []
  | .captureModeOff _ => []
  | .captureModeOn _ _ _ => []
  | .replayModeOn _ _ _ => []
  | .captureRingSpace => []
  | .replayForceTimeout _ _ _ => []
  | .registerWrite _ _ _ => []
  | .errorCorrected _ _ _ _ => []
  | .poisonCreated _ _ _ => []
  | .laneRetire _ _ => []
  | .matrixStepCheckFail _ => []
  | .coreFence _ => []
  | .opLimitLower _ => []
  | .pseudoChannelFailing _ => []
  | .linkDegrade _ => []
  | .moduleError => []
  | .hostPortDown _ => []
  | .hostDeath _ _ _ => []
  | .poolFailure _ _ _ => []
  | .cxlEngineFailure _ => []
  | .fabricPortDown _ => []
  | .thermalWarning _ => []
  | .thermalThrottle _ => []
  | .thermalCritical _ => []
  | .damperGrant _ => []
  | .tileGate _ => []
  | .tileWake _ => []
  | .pointSwitch _ => []
  | .atsCompletion _ _ _ => []
  | .priResponse _ _ => []
  | .priTimeout _ => []
  | .atsInvalidation _ _ _ _ => []
  | .invalidationCompletion _ => []
  | .hostSnoop _ _ => []
  | .hostMemAccess _ _ _ _ => []
  | .pinAdmit _ => []
  | .hotnessWriteback _ _ => []
  | .moveMigrate _ => []
  | .moveReplicate _ => []
  | .moveCollapse _ => []
  | .moveResetHotness _ => []
  | .flip => []
  | .copy => []
  | .free => []
  | .errorLogSpace => []
  | .persistConfirmation _ => []
  | .nodeQualifiedRemoteAccess _ _ _ _ => []
  | .hostPortUp _ => []
  | .fabricPortUp _ => []
  | .conePointRecovery _ => []
  | .nop => []
  | .psync => []
  | .qsync => []
  | .ungang => []
  | .mwait => []
  | .yield => []
  | .hend => []

end Sys2Proof.Machine
end

