-- ==== Sys2Proof/WellFormed.lean ====
section
/-! DEFINITION. Well-formed instructions: those that pass the encoding checks of R80 step 2, and steps of the machine whose
operands name units that exist. -/

namespace Sys2Proof

/-- Passes every encoding check of R73 to R75, R78 and its own entry. -/
abbrev Instr.WellFormed (i : Instr) : Prop := Machine.illForm i = none

end Sys2Proof
end

