-- ==== Sys2Proof/Machine/State.lean ====
section
/-! DEFINITION. The state of one K4 module as plain data: contexts, cores, memory, homes, engines, address spaces, the launch
scheduler, host ports and the management registers; and the state right after reset. -/

namespace Sys2Proof.Machine

/-! ### Names -/

/-- The three core classes (R1). -/
inductive Cls where
  | control
  | vector
  | tensor
deriving DecidableEq, Repr

/-- The three grades (R1). -/
inductive Grade where
  | k4x
  | k4t
  | k4g
deriving DecidableEq, Repr

/-- The two hardware contexts of a core (R17). -/
inductive CtxName where
  | u
  | a
deriving DecidableEq, Repr

/-- Status of a unit in the enumeration table (R395). -/
inductive UnitStatus where
  | live
  | retired
  | fenced
deriving DecidableEq, Repr

/-- The trap causes of R324. -/
inductive Cause where
  | illine
  | illins
  | priv
  | migclass
  | brk
  | align
  | addrovf
  | fmtbad
  | prot
  | pgnp
  | pgprot
  | pghost
  | mhraw
  | mhref
  | poison
  | sysc
  | watchdog
  | preempt
  | gangbrk
  | qfault
  | msgfault
  | tokbad
  | cbfmt
  | spillfail
  | remote
deriving DecidableEq, Repr

/-! ### Memory -/

/-- All memory of the module and of the hosts it reaches, as one sparse list of bytes. The key of a byte is `Loc.key` of its
place; an unlisted byte reads as zero (log 3, DESIGN CHOICE). `poison` lists the numbers (key / 32) of the poisoned atoms (R245, R381), rising. -/
structure Memory where
  cells : List Host.Cell
  poison : List Nat
deriving DecidableEq, Repr

/-- A byte's place: device physical memory (HBM4E and the CXL ranges, R349), a core scratchpad, a core's lane slices, a site
scratchpad (R234), or host memory reached through a port by host physical address (R317). -/
inductive Loc where
  | phys (pa : Nat)
  | spad (core off : Nat)
  | slice (core off : Nat)
  | site (site off : Nat)
  | host (port hpa : Nat)
deriving DecidableEq, Repr

/-- The regions of the key space do not meet: physical addresses lie below 2^47, scratchpad offsets below 2^21, slice offsets of
16 lanes of 8 KiB below 2^17, site offsets below 2^26, and host physical addresses below 2^64. -/
def Loc.key : Loc → Nat
  | .phys pa => pa
  | .spad c o => 2 ^ 48 + c * 2 ^ 21 + o
  | .slice c o => 2 ^ 49 + c * 2 ^ 17 + o
  | .site s o => 2 ^ 50 + s * 2 ^ 26 + o
  | .host p a => 2 ^ 64 * (p + 1) + a

/-! ### Contexts -/

/-- What a context waits for between two executions of one instruction (R184, R202). -/
inductive Waiting where
  | no
  /-- An access that waits on a host page request and could not park (R318, R408). -/
  | host (req : Nat)
  /-- The page request that its access waited on has failed (R318): the 4 KiB page, and the PGHOST reason that the access meets. -/
  | hostFail (page reason : Nat)
  /-- CTXSTREAM with the live move that it has begun (R209, R331). -/
  | move (id : Nat)
  /-- PREEMPT or CTXSTREAM directed at a strand that it is still to stop (R208, R209, R326, R327): the core, the strand, and the number that
  orders such requests by arrival. -/
  | stop (core asid sid at_ : Nat)
  /-- The strand is to move as soon as it may leave its core (R331 step 1). -/
  | leave
deriving DecidableEq, Repr

/-- The state that a context has of its own (R17), and what R32 carries with it. `pc` is the 64-bit value last transferred to
(R16). `line` is the line in which execution stays (R71). `pend` and `tokErr` are the pending-token list (R32, R119). `scause`,
`saddr` and `sinfo` are those recorded in the context's image (R32). -/
structure Ctx where
  pc : Word
  x : Vector Word 32
  q : Vector Word 16
  fflags : BitVec 5
  frm : BitVec 3
  inldepth : BitVec 8
  vtype : BitVec 16
  mstart : Word
  slipcfg : BitVec 16
  mcgroup : BitVec 16
  strandId : BitVec 48
  asid : BitVec 16
  /-- Privilege: false U, true S (R18). -/
  priv : Bool
  scause : BitVec 8
  saddr : Word
  sinfo : Word
  pend : BitVec 32
  tokErr : BitVec 32
  line : Option (Nat × BitVec 512)
  waiting : Waiting
  /-- The TIME value at which the timeout of the WAIT that it is in expires (R202). -/
  deadline : Option Nat
deriving DecidableEq, Repr

/-- An entry of the vector queues (R132, R135, R139): the instruction, its PC and context, the captured VTYPE, VL, LSKEW, SLIPCFG (R95) and
x operands. `done` is bit 48 of an image entry: the entry has completed before an older one. `replay` marks an entry that came with a
loaded image: it executes before any instruction at the resume PC (R138). -/
structure VEntry where
  instr : Instr
  pc : Word
  ctx : CtxName
  vtype : BitVec 16
  vl : Nat
  lskew : BitVec 3
  slip : BitVec 16
  op1 : Word
  op2 : Word
  op3 : Word
  done : Bool
  replay : Bool
  /-- The host page request that its access waits on, or that has failed (R318). -/
  wait : Waiting := .no
deriving DecidableEq, Repr

/-- A vector entry whose memory check failed (R138): its position in the queue, the cause, the element and its address, and how
many older entries were queued when the fault was detected. -/
structure VFault where
  idx : Nat
  cause : Cause
  saddr : Word
  elem : Nat
  older : Nat
deriving DecidableEq, Repr

/-- A short entry of MQ (R155) with its context, captured FRM and x operands. -/
structure MEntry where
  instr : Instr
  ctx : CtxName
  op1 : Word
  op2 : Word
deriving DecidableEq, Repr

/-- The long matrix instruction that owns an accumulator (R156): kind as MSTART.KIND, accumulator, next step or row, what a MOPAK with
MC must share with others of its cluster for a multicast group (R162; empty when it asks for none), and the cores whose scratchpads hold
the panels that it has been let read (R161, R236). -/
structure LongOp where
  kind : Nat
  acc : Nat
  next : Nat
  mcKey : List Nat
  panels : List Nat
deriving DecidableEq, Repr

/-- A context image (R32, R33) held as data while the strand lies in an arrival queue or is being streamed: the base part, the
class of origin, and the optional parts (log 10, DESIGN CHOICE). -/
structure Image where
  ctx : Ctx
  cls : Cls
  v : Option (Vector (BitVec 4096) 32)
  m : Option (Vector (BitVec 512) 12)
  queue : List VEntry
  acc : List (Nat × BitVec 131072)
  /-- Poison carried by the parts: register elements (file, register, element) as in `Core.regPoison` (R381). -/
  poison : List (Nat × Nat × Nat)
deriving DecidableEq, Repr

/-- A slot of an arrival queue (R226): ready since a TIME; waiting for its word in JOIN (until OUT is 0) or in WAIT (until it differs
from `expect`); waiting for ring space; or waiting on a host page request (R318). -/
inductive ParkState where
  | ready (since : Nat)
  | waitJoin (va : Nat)
  | waitWord (va expect : Nat)
  | waitRing
  | waitHost (req : Nat)
deriving DecidableEq, Repr

/-- `parts` is the format word of the whole image when its optional parts lie in the strand's piece of the spill area (R226); `img` is then
the base part alone. -/
structure Parked where
  img : Image
  state : ParkState
  parts : Option Nat := none
deriving DecidableEq, Repr

/-- A message slot (R31). -/
structure Msg where
  handler : Word
  seqNo : Nat
  asid : Nat
  sender : Nat
  payload : Vector Word 4
  /-- Its core has lost the owner of its ASID: it goes on to the core that FWDCFG then named (R225). -/
  onto : Option Nat := none
deriving DecidableEq, Repr

/-- A service entry waiting for the A context (R205, R409). `held` is the strand whose image lies at `image`; an engine entry
holds no strand and names its operation. -/
structure SvcEntry where
  cause : Cause
  sepc : Word
  saddr : Word
  sinfo : Word
  sqimg : Word
  pprv : Bool
  actx : Bool
  gangw : Bool
  image : Word
  asid : Nat
  sid : Nat
  held : Bool
  engineOp : Option Nat
deriving DecidableEq, Repr

/-- What the A context runs (R17, R223). A service entry keeps the entry it serves; `killed` is set when the held
strand was ended while its service code runs: the piece of the spill area that the image keeps until SRET (R327). -/
inductive AWork where
  | idle
  | handler (msg : Msg)
  | service (entry : SvcEntry) (killed : Option (Nat × Nat))
deriving DecidableEq, Repr

/-- What the U context is used for. A strand held in the registers is that of R329 (SPILLFAIL); `reserved` is kept for a held
crew member (R328). -/
inductive UWork where
  | empty
  | strand
  | heldInRegs
  | reserved (sid : Nat)
deriving DecidableEq, Repr

/-- The states of a cached sector (R239, R243): modified, owned, exclusive, shared, invalid. -/
inductive Moesi where
  | m
  | o
  | e
  | s
  | i
deriving DecidableEq, Repr

/-- An L1 line (R239): its alias, the translation and the rights checked at its fill, and its MOESI state. Its bytes are those of `mem`:
a store into the line performs there at once, each location having one value (R252; log 7, DESIGN CHOICE). -/
structure L1Line where
  asid : Nat
  va : Nat
  key : Nat
  r : Bool
  w : Bool
  so : Bool
  typ : Nat
  state : Moesi
deriving DecidableEq, Repr

/-- What the directory holds of one 32-byte sector (R243): the L1 state, the recorded alias (ASID and VA[55:5], R240), the owning core of a
sector in M, O or E, and the clusters that hold copies. -/
structure DirSector where
  state : Moesi
  tag : Option (Nat × Nat)
  owner : Option Nat
  sharers : BitVec 128
deriving DecidableEq, Repr

/-- A directory entry: the number of its 256-byte line, and its eight sectors. -/
structure DirEntry where
  line : Nat
  sectors : Vector DirSector 8
deriving DecidableEq, Repr

/-- An L2 line (R242): its number, and the valid and dirty bits of its eight sectors. -/
structure L2Line where
  line : Nat
  valid : BitVec 8
  dirty : BitVec 8
deriving DecidableEq, Repr

/-- An L2 slice with its directory; lines and entries stand in order of allocation, the latest first. -/
structure L2Slice where
  lines : List L2Line
  dir : List DirEntry
deriving DecidableEq, Repr

/-- Gang membership of a core (R141, R217). -/
inductive Gang where
  | none
  | leader (n : Nat)
  | follower (leader : Nat)
deriving DecidableEq, Repr

/-- Counts of R233 in the present window of 4,096 issued instructions, and the class to which the window before it asks the strand to move at
its next instruction boundary. -/
structure Mix where
  issued : Nat
  control : Nat
  vector : Nat
  tensor : Nat
  due : Option Cls := none
deriving DecidableEq, Repr

/-- One core: its two contexts, the state they share (R17), its CSRs (R21 to R24), queues, mailbox, arrival queue and unit state. -/
structure Core where
  u : Ctx
  a : Ctx
  uWork : UWork
  aWork : AWork
  /-- Vector registers, pooled over the gang at its leader (R12): a core of its own uses the lowest 4,096 bits. -/
  v : Vector (BitVec 32768) 32
  /-- Mask registers, pooled likewise (R13). -/
  m : Vector (BitVec 4096) 12
  ac : Vector (BitVec 131072) 4
  acLive : BitVec 4
  /-- Poisoned 32-bit elements of v (file 0) and ac (file 2) and of m (file 1) as (file, register, element) (R381). -/
  regPoison : List (Nat × Nat × Nat)
  queue : List VEntry
  vfault : Option VFault
  mq : List MEntry
  long : Option LongOp
  lastJoined : Bool
  scause : Word
  sepc : Word
  saddr : Word
  sinfo : Word
  svec : Word
  sstatus : Word
  sscratch : Word
  sqimg : Word
  protb : Vector Word 8
  protl : Vector Word 8
  mboxcfg : Word
  /-- MBOXSTAT[63:16]: RFULL, RABS and ACC (R222). -/
  rfull : BitVec 16
  rabs : BitVec 16
  accepted : BitVec 16
  fwdcfg : Word
  cycle : Word
  lskew : BitVec 3
  opreq : BitVec 3
  heapphase : Bool
  /-- Accepted messages whose handlers have not started, in acceptance order (R223). -/
  slots : List Msg
  /-- The arrival queue, in order of arrival (R226). -/
  arrival : List Parked
  /-- ASID of the previous U occupant (R28), and of the mailbox owner (R220). -/
  prevAsid : Nat
  owner : Option Nat
  /-- How many occupant changes the core has had: what an engine operation captures of its destination (R121). -/
  changes : Nat
  /-- Pending persists, as line VA and PA, of an A context that runs for no strand (R118). -/
  aPersists : List (Nat × Nat)
  /-- An occupant change is being zeroed (R28, R247). -/
  zeroing : Bool
  gang : Gang
  l1d : List L1Line
  l1i : List L1Line
  status : UnitStatus
  /-- The retired lane and whether the core has been remapped to 15 lanes (R382). -/
  retLane : Option Nat
  remapped : Bool
  entries : List SvcEntry
  /-- Promoted handlers whose images could not be written, kept until SRET (R329). -/
  keptA : List Image
  mix : Mix
  /-- Consecutive ready cycles of the U context in which it was not issued (R213). -/
  uStreak : Nat
  /-- TIME of the last pre-emption for priority (R332), when there was one. -/
  lastPreempt : Option Nat
  /-- Matrix-step residue failures in a row (R378). -/
  residue : Nat
  /-- A retired lane breaks the gang that the core leads (R218), or a matrix-step failure retires the core (R384), as soon as its U strand may be
  stopped. -/
  breakDue : Bool
  retireDue : Bool
deriving DecidableEq, Repr

/-! ### Homes (R306 to R323) -/

/-- An entry of a home translation cache (R312): the leaf, its level, the place of the leaf, the hotness record, the home's clock at its last
use, and the mark of a page that is being moved (R321). -/
structure HomeEntry where
  asid : Nat
  page : Nat
  big : Bool
  leaf : Word
  leafPa : Nat
  hot : Word
  stamp : Nat
  moving : Bool
deriving DecidableEq, Repr

/-- A pointer held by a home's walk cache (R312): the level (1 to 3) of the entry it was read from, the VA bits that select that entry, and
the table that it names. -/
structure WalkPtr where
  asid : Nat
  level : Nat
  bits : Nat
  table : Nat
deriving DecidableEq, Repr

/-- A cached host translation of 4 KiB (R312, R317), with its home's clock at its last use. -/
structure Ats where
  site : Nat
  asid : Nat
  port : Nat
  pasid : Nat
  page : Nat
  hpa : Nat
  r : Bool
  w : Bool
  stamp : Nat
deriving DecidableEq, Repr

/-- Who holds translation pins (R313): a core's executing vector load or store entry (each of the two queues runs one at a time), a core's
matrix row, or an engine operation's piece. -/
inductive Holder where
  | entry (core : Nat) (stores : Bool)
  | row (core : Nat)
  | piece (op : Nat)
deriving DecidableEq, Repr

/-- A pinning request admitted or waiting at a home (R313): its holder, the pages named, and the host translations under which the access
goes on although they are dropped meanwhile (R319). -/
structure PinReq where
  holder : Holder
  asid : Nat
  pages : List (Nat × Bool)
  ats : List Ats
deriving DecidableEq, Repr

/-- One turn of the machine: a core context issues, or an event of the opcode table comes about. -/
inductive Turn where
  | issue (core : Nat) (ctx : CtxName)
  | event (i : Instr)
  /-- The vector entry at a place of a core's queue. -/
  | entry (core index : Nat)
  /-- The next piece of an engine operation. -/
  | piece (op : Nat)
deriving DecidableEq, Repr

/-- A page movement under way (R321): its OP, the page, what remains to be done (the frame that is copied, where to, and the new leaf), and the
turns of the accesses that it stalls, in order of arrival. -/
structure Movement where
  op : Nat
  asid : Nat
  page : Nat
  big : Bool
  src : Nat
  dsts : List Nat
  leaf : Nat
  stalled : List Turn := []
deriving DecidableEq, Repr

/-- A size hint (R307): the ASID and the 64 MiB page whose entry another site owns, with the home's clock at its last use. -/
structure SizeHint where
  asid : Nat
  page : Nat
  stamp : Nat
deriving DecidableEq, Repr

structure Home where
  cache : List HomeEntry
  /-- The walk cache, the latest pointer first (R312). -/
  walks : List WalkPtr
  /-- Size hints that this site keeps as a first home (R307). -/
  hints : List SizeHint
  /-- Counts uses, so that the least recently used entry of a set is known (R312). -/
  clock : Nat
  /-- TIME at which every held hotness record was last written back (R315). -/
  wroteBack : Nat
  pins : List PinReq
  waiting : List PinReq
  /-- Movement requests (R320): the ASID that posted, and the VA of the request block. -/
  moves : List (Nat × Nat)
  /-- The movement of the oldest request, once its page is marked (R321). -/
  moving : Option Movement
deriving DecidableEq, Repr

/-- A bound window (R126, R127), with the owner home of its base, which holds the binding (R311). -/
structure Window where
  asid : Nat
  va : Nat
  len : Nat
  buf0 : Nat
  buf1 : Nat
  /-- Buffer 1 is the published one. -/
  swapped : Bool
  version : Nat
  home : Nat := 0
deriving DecidableEq, Repr

/-! ### Engines (R119 to R128, R246) -/

inductive OpKind where
  | copy (dst src n : Nat)
  | copy2d (dst src : Nat) (ds ss : Int) (row rows : Nat)
  | gather (dst base idx n size iw : Nat)
  | coll (dst src n op red fmt group call : Nat)
  | glaze (va : Nat)
  | wbind (va desc : Nat)
  | wread (va : Nat)
  /-- A node-qualified copy (R123): the remote node and which side is remote. -/
  | remote (dst src n node : Nat) (remoteSrc : Bool)
deriving DecidableEq, Repr

/-- An engine operation: the cluster that runs it, the strand and register of its token, its ASID at issue, where the next piece
begins, the bytes written, and its final status once it ends (VAL and STATUS of R119). -/
structure EngineOp where
  id : Nat
  cluster : Nat
  core : Nat
  asid : Nat
  sid : Nat
  priv : Bool
  ctx : CtxName
  reg : Nat
  pc : Word
  issuedAt : Nat
  sc : Nat
  kind : OpKind
  next : Nat
  written : Nat
  ended : Option (Nat × Nat)
  /-- The piece waits for service code (R409), or on a host page request (R318). -/
  waitSvc : Bool
  hostReq : Option Nat
  /-- The occupant changes of the cores of its cluster at issue, to which a local destination belongs (R121). -/
  dstOwners : List (Nat × Nat)
  /-- What a collective has read of its own source so far (R124, R246). -/
  buf : List Byte
deriving DecidableEq, Repr

/-- A completed or outstanding SYSC request (R353, R354): ring position, strand and token register; `cancelled` after a kill. -/
structure SysReq where
  asid : Nat
  pos : Nat
  sid : Nat
  reg : Nat
  cancelled : Bool
deriving DecidableEq, Repr

/-- A completion kept by the device because it could not be written into the image (R121, R336). -/
structure KeptToken where
  asid : Nat
  sid : Nat
  reg : Nat
  val : Word
  err : Bool
deriving DecidableEq, Repr

/-- A group table entry (R360): the member nodes, in rank order (log 26, DESIGN CHOICE). -/
structure Group where
  handle : Nat
  nodes : List Nat
deriving DecidableEq, Repr

/-- The call of another member of a collective, as it arrives over the fabric (R124): rank, call number, parameters, data (log 26, DESIGN CHOICE). -/
structure PeerCall where
  group : Nat
  rank : Nat
  call : Nat
  op : Nat
  red : Nat
  fmt : Nat
  count : Nat
  data : List Byte
deriving DecidableEq, Repr

/-! ### Messages in flight (R194, R195) and live moves (R331) -/

structure Flight where
  id : Nat
  core : Nat
  ctx : CtxName
  asid : Nat
  sid : Nat
  reg : Nat
  target : Nat
  /-- The core that has to answer, after `hops` forwardings. -/
  place : Nat
  msg : Msg
  hops : Nat
  answer : Option Word
deriving DecidableEq, Repr

/-- Why an image is being streamed (R331): what the move's end writes depends on it. -/
inductive MoveKind where
  | stream
  | migclass
  | migrate
  | measured
  | priority
deriving DecidableEq, Repr

structure Move where
  id : Nat
  img : Image
  src : Nat
  dst : Nat
  kind : MoveKind
  /-- Only an empty U context of the target takes the image (R216). -/
  toU : Bool
  /-- The mask that the overflow list would ask of a core (R229). -/
  needed : Nat
deriving DecidableEq, Repr

/-! ### Strands, crews, records and queues -/

/-- The strand table (R186) with what the device keeps for each strand: spawn link, origin queue (R293), task record (R26, R188),
crew, TIME of dispatch (R301), and pending persists as line VA and PA (R118). -/
structure Strand where
  asid : Nat
  sid : Nat
  join : Nat
  ord : Nat
  origin : Nat
  record : Nat
  crew : Option Nat
  dispatched : Option Nat
  t1Done : Bool
  t3Done : Bool := false
  /-- T1 has expired and the strand is to be stopped when it next may be (R301), with the number that orders requests by arrival (R326). -/
  stopDue : Option Nat
  /-- A pre-emption reached the strand while it was held: SRET places it on the overflow list (R327). -/
  preempted : Bool
  /-- The strand is being ended as killed: it issues nothing, and ends once its queued entries and pending persists are done (R188). -/
  dying : Bool
  persists : List (Nat × Nat)
  /-- A promoted handler (R196): it has no spawn link and HEND ends it. -/
  promoted : Bool
  /-- Core that last held it (R229), and on which it last issued (R409). -/
  lastCore : Nat
  issuedAt : Nat
  /-- Strand states outside a core: the held image's address, when held (R205, R329). -/
  heldAt : Option Nat
  /-- Piece of the spill area that its image occupies. -/
  spill : Option (Nat × Nat)
  /-- Windows that cause no measured migration after one (R233). -/
  quiet : Nat
deriving DecidableEq, Repr

/-- A crew (R215): members in index order with their strand numbers; which have exited; the arrivals at each barrier and the
members released from a completed phase (R192); the abnormal ends (R188). -/
structure Crew where
  id : Nat
  asid : Nat
  site : Nat
  record : Nat
  members : List Nat
  exited : List Nat
  arrived : List (Nat × Nat)
  released : List (Nat × Nat)
  abnormal : Bool
  clsMask : Nat
  /-- The members still resident are to be stopped as pre-empted ones, with this SINFO (R216). -/
  stop : Option Nat := none
deriving DecidableEq, Repr

/-- An entry of a site overflow list (R229). -/
structure Overflow where
  asid : Nat
  sid : Nat
  image : Nat
  needed : Nat
  only : Option Nat
  cls : Nat
deriving DecidableEq, Repr

/-- A record that is ready in its origin queue (R292) since a TIME. -/
structure ReadyRec where
  record : Nat
  since : Nat
deriving DecidableEq, Repr

/-- A launch queue (R290): the fixed part as read at bind, and what the scheduler keeps (R294, R295). -/
structure LQueue where
  ring : Nat
  prio : Nat
  weight : Nat
  slots : Nat
  t1 : Nat
  t2 : Nat
  t3 : Nat
  bad : Bool
  ready : List ReadyRec
  lastCore : Nat
  lastDispatch : Nat
  /-- Effective priority, and TIME of its last rise (R294). -/
  eprio : Nat
  raisedAt : Nat
  /-- FAULT holds a fault of the present freeze (R290). -/
  frozen : Bool := false
deriving DecidableEq, Repr

/-- An event of R300 that waits for ring space. -/
structure Event where
  cause : Nat
  queue : Nat
  va : Nat
  detail : Nat
deriving DecidableEq, Repr

/-- A bound address space (R289): the record as read at bind, the ring state of events and system calls, and its colour. -/
structure Space where
  asid : Nat
  recPa : Nat
  nomig : Bool
  root : Nat
  spillVa : Nat
  spillLen : Nat
  queuesVa : Nat
  eventVa : Nat
  eventSlots : Nat
  notifyVa : Nat
  sysVa : Nat
  sysSlots : Nat
  msix : Option Nat
  /-- TIME at which its last MSI-X was sent (R354). -/
  msixAt : Option Nat := none
  sysPort : Nat
  eventPos : Nat
  held : List Event
  lost : Nat
  sysPos : Nat
  /-- Strands that wait on a full ring, in the order in which they began to, and those of them that have been given a position (R305). -/
  sysWait : List Nat
  sysGrant : List Nat
  colour : Bool
  queues : List LQueue
  nextSid : Nat
  /-- The buffer digests of the address space have been taken (R404, R405). -/
  digested : Bool
deriving DecidableEq, Repr

/-- A job that has been taken (R291) and not ended: the record or the run it made, or the template and patch list of a run that waits for a
free run slot (log 33, DESIGN CHOICE). -/
structure Job where
  asid : Nat
  queue : Nat
  pos : Nat
  record : Nat
  isRun : Bool
  completion : Nat
  waits : Option (Nat × Nat) := none
deriving DecidableEq, Repr

/-- A run of a graph template (R303): its number, template, handle, record count, origin queue, sink, the number of the previous run
it waits for, whether its records have been released, the status in which its sink ended (0 before that), how many of its records have not
ended, and whether one ended faulted or cancelled. -/
structure Run where
  id : Nat
  asid : Nat
  template : Nat
  handle : Nat
  n : Nat
  origin : Nat
  sink : Nat
  serial : Option Nat
  released : Bool
  sinkEnd : Nat
  left : Nat
  bad : Bool
deriving DecidableEq, Repr

/-- A dispatched record that no end has completed: its origin queue, and its dependents pointer and count as read at dispatch (R292, R304). -/
structure Active where
  asid : Nat
  record : Nat
  origin : Nat
  deps : Nat
  count : Nat
deriving DecidableEq, Repr

/-- An entry of a cluster task queue (R297), with the TIME since when its record is ready. -/
structure ClEntry where
  asid : Nat
  record : Nat
  origin : Nat
  since : Option Nat := none
deriving DecidableEq, Repr

/-- A cluster: its task queue (R297), the core it last dispatched to, and the core whose engine operation last had a piece (R246). -/
structure Cluster where
  tasks : List ClEntry
  lastCore : Nat
  lastServed : Nat
deriving DecidableEq, Repr

/-- A reservation of a site by a crew (R296): its record and its class mask, and the cluster that a cluster task queue's crew is placed
in (R297). -/
structure Reservation where
  asid : Nat
  queue : Nat
  record : Nat
  cls : Nat
  cluster : Option Nat := none
deriving DecidableEq, Repr

/-- The place of a site's launch scheduler in the round of one priority (R294): the queue visited last, and its dispatches in this
visit. -/
structure Visit where
  prio : Nat
  asid : Nat
  queue : Nat
  taken : Nat
deriving DecidableEq, Repr

/-! ### The managed heap (R339 to R347) -/

inductive FwdState where
  | pending
  | copied
  | skipped
deriving DecidableEq, Repr

inductive Stage where
  | flipped
  | copied
deriving DecidableEq, Repr

/-- A relocation cycle of one address space (R341): the set pages with the VA of each one's list entry, and the forwarding table. -/
structure Cycle where
  asid : Nat
  /-- The address space in which the lists of its FLIP lie (R340). -/
  poster : Nat
  stage : Stage
  set : List (Nat × Nat)
  retained : List Nat
  fwd : List (Nat × Nat × FwdState)
deriving DecidableEq, Repr

/-! ### Tiles (R262 to R269) -/

/-- A tile's operating point, and what the damper table keeps of it. -/
structure Tile where
  /-- The point whose clock the tile runs (R266). -/
  point : Nat
  gated : Bool
  /-- A gated tile that has work waits for its share (R265). -/
  waking : Bool
  /-- The highest permitted point (R269). -/
  limit : Nat
  /-- Lent microwatts charged to the damper table, and those of them that it has recalled, freed when the divider switches (R265, R266). -/
  lent : Nat
  called : Nat
  /-- TIME of the request that the table has not answered; and whether it refused the last, the pool not having grown since (R265). -/
  asked : Option Nat
  refused : Bool
  /-- TIME since when no core of the tile has had work, as far as noticed (R263). -/
  idleSince : Option Nat
  /-- TIMEs of the stages repeated within the last 1 ms (R269). -/
  retakes : List Nat
deriving DecidableEq, Repr

structure Site where
  /-- Free microwatts of the damper table's pool (R265). -/
  pool : Nat
  /-- Grants, oldest first: tile and microwatts. -/
  grants : List (Nat × Nat)
  overflow : List Overflow
  warn : Bool
  throttle : Bool
  home : Home
  reserve : Option Reservation
  visits : List Visit
deriving DecidableEq, Repr

/-! ### Host ports, flash and management (R348 to R407) -/

structure Port where
  up : Bool
  cxl : Bool
  cxlDown : Bool
  /-- Outstanding page requests allowed by the PRI capability (R318). -/
  priMax : Nat
deriving DecidableEq, Repr

/-- An outstanding ATS Translation Request or PRI Page Request (R317, R318). -/
structure HostReq where
  id : Nat
  site : Nat
  asid : Nat
  port : Nat
  pasid : Nat
  page : Nat
  needW : Bool
  pri : Bool
  since : Nat
deriving DecidableEq, Repr

/-- An invalidation whose completion is owed (R319). -/
structure HostInval where
  port : Nat
  pasid : Nat
  va : Nat
  len : Nat
deriving DecidableEq, Repr

/-- A firmware image in one flash bank (R399): the header's version, security version and length, the body, the digest of both, and the two
signatures over the digest. -/
structure FwImage where
  version : Nat
  security : Nat
  length : Nat
  body : List Byte
  digest : BitVec 384
  edSig : BitVec 512
  mlSig : BitVec 26472
deriving DecidableEq, Repr

/-- What training finds for one DQ lane (R391): read delay, write delay and reference voltage. -/
structure LaneTrain where
  readDelay : Nat
  writeDelay : Nat
  vref : Nat
deriving DecidableEq, Repr

/-- A pseudo-channel's entry of the firing record (R391): its 32 lanes, and the temperature in °C at training. -/
structure FiringEntry where
  lanes : List LaneTrain
  temp : Nat
deriving DecidableEq, Repr

/-- The firing record (R391): an entry per pseudo-channel, the module serial and firmware version that it is of, and its digest. -/
structure FiringRecord where
  entries : List FiringEntry
  serial : BitVec 128
  version : Nat
  digest : BitVec 384
deriving DecidableEq, Repr

/-- Module flash and fuses (R379, R384, R385, R391, R399, R401): what resets keep. `counter` is the fused security version, `edFuse` and `mlFuse` the
fused digests of the public keys; `pcPend` lists the pseudo-channels to remap at the reset in progress; `certs` holds the certificates of the
identity keys. -/
structure Flash where
  bank0 : FwImage
  bank1 : FwImage
  counter : Nat
  edKey : List Byte
  mlKey : List Byte
  edFuse : BitVec 384
  mlFuse : BitVec 384
  certs : List Byte
  pcPend : List Nat
  serial : BitVec 128
  firing : Option FiringRecord
  replace : Bool
  spares : Nat
  retCores : List Nat
  retLanes : List (Nat × Nat)
  /-- Die links at reduced width, with their live lanes; and those with a failed lane, which train to it at the next reset (R385). -/
  linkDeg : List (Nat × Nat)
  linkPend : List Nat
  /-- Logical banks moved to another pseudo-channel, and frames retired (R385). -/
  remap : List (Nat × Nat)
  frames : List Nat
  codeDigest : BitVec 384
  mgmtDigest : BitVec 384
deriving DecidableEq, Repr

/-- The management registers of BAR 0 (R352, R379, R380, R389, R397, R401 to R403) and the saggar's measurement registers (R400).
`booted`: step 1 of bring-up has ended or failed, and the saggar answers (R388). `asbindCmd` is the ASBIND command in progress:
whether it binds, and the record's PA (R352), and `asbindRec` the record as a bind has read it (R304). `capSince` is the TIME of the last forced choice of a replay (R406). -/
structure Mgmt where
  ready : Bool
  phase : Nat
  booted : Bool
  lastCold : Bool
  retrain : Bool
  /-- Quadrant mode is in force (R393). -/
  quadrant : Bool := false
  asbindCmd : Option (Bool × Nat)
  asbindRec : Option (List Nat) := none
  asbindResult : Nat
  resetReq : Bool
  stopped : Bool
  pcFail : List Nat
  retCore : Nat
  retLane : Nat
  opLim : Nat
  logReg : Word
  logPos : Nat
  logLost : Nat
  /-- The attestation request in progress (R401): whether it uses the report window, the area, and the nonce. -/
  attReq : Option (Bool × Nat × List Byte)
  attResult : Nat
  attArea : Nat
  capMode : Nat
  capStall : Bool
  capResult : Nat
  capRing : Nat
  capLogn : Nat
  capPos : Nat
  capSince : Nat
  measure : Vector (BitVec 384) 8
  window : List Byte
  fabricUp : List Bool
  node : Nat
  nodeTable : List (Nat × Nat)
  msix : List (Nat × Nat)
  /-- The buffer table of the capture ring as read at the mode change (R404): VA, length and ASID. -/
  capBufs : List (Nat × Nat × Nat) := []
  /-- Class-1 records of the last 1 ms (R380): unit kind, unit, TIME, and the ring position when it was written. -/
  corrLog : List (Nat × Nat × Nat × Option Nat) := []
deriving DecidableEq, Repr

/-- Compute dies of a class that a module of a grade has (R1, R394). -/
def Grade.dies : Grade → Cls → Nat
  | .k4x, .control => 2
  | .k4x, .vector => 4
  | .k4x, .tensor => 10
  | .k4t, .control => 1
  | .k4t, .vector => 2
  | .k4t, .tensor => 13
  | .k4g, .control => 2
  | .k4g, .vector => 10
  | .k4g, .tensor => 4

/-- What is fixed for one module at manufacture (R1, R394) and by the system builder (R348), and the addresses that its firmware
publishes in the capability list (R397). No step changes it. `places` gives the site and the position of each compute die; its class follows
from the grade. -/
structure ModuleCfg where
  grade : Grade
  places : Vector (Nat × Nat) 16
  capPtr : Nat
  moveDoor : List Nat
  heapDoor : List Nat
  healthVa : Nat
  nodeVa : Nat
  nodeTableVa : Nat
  groupTableVa : Nat
deriving DecidableEq, Repr

/-- What a pseudo-channel's controller has counted (R385): uncorrectable atoms since reset, and corrected errors of the last hour, with the
TIME of each count. -/
structure PcErr where
  pc : Nat
  lost : Nat
  recent : List (Nat × Nat)
deriving DecidableEq, Repr

/-- The whole machine. `agenda` says what the next turns are; when it is empty, the core `cur` takes its default turn (log 1, DESIGN CHOICE).
`cur` and `curCtx` are the core and context whose instruction executes. `free` is the MODEL'S OWN counter that makes each free
value fresh (log 21, DESIGN CHOICE). -/
structure State where
  cfg : ModuleCfg
  agenda : List Turn
  cur : Nat
  curCtx : CtxName
  free : Nat
  time : Word
  mem : Memory
  cores : List (Nat × Core)
  siteTags : List (Nat × Nat)
  /-- L2 slices by site · 512 + slice (R242, R243). -/
  l2 : List (Nat × L2Slice)
  sites : Vector Site 4
  tiles : List (Nat × Tile)
  clusters : List (Nat × Cluster)
  windows : List Window
  ops : List EngineOp
  kept : List KeptToken
  groups : List Group
  peers : List PeerCall
  collCalls : List (Nat × Nat)
  sysReqs : List SysReq
  flights : List Flight
  seqNos : List (Nat × Nat)
  moves : List Move
  nextId : Nat
  strands : List Strand
  crews : List Crew
  spaces : List Space
  jobs : List Job
  runs : List Run
  active : List Active
  cycles : List Cycle
  heapCmds : List (Nat × Nat)
  ports : Vector Port 4
  ats : List Ats
  hostReqs : List HostReq
  /-- Page requests of the device's own accesses that have failed since its last turn (R318): ASID, 4 KiB page, reason. -/
  devFails : List (Nat × Nat × Nat)
  /-- What the last read of a host completed with: data, or poison (R351, R388). -/
  hostRead : Option (Option Word)
  /-- The MODEL'S OWN mark of an attempt of the device that has met a page which it cannot reach yet; false between steps (log 70, DESIGN CHOICE). -/
  blocked : Bool
  invals : List HostInval
  /-- Ranges of the pool that have failed (R357), as PA and length. -/
  poolDead : List (Nat × Nat)
  flash : Flash
  mgmt : Mgmt
  /-- Error counts of pseudo-channels (R385). -/
  pcErrors : List PcErr
deriving DecidableEq, Repr

/-! ### Stops -/

/-- Where the machine stops because the spec gives no effect. -/
inductive Fault where
  /-- A host CXL.mem access beyond the end of HBM4E: R351 lays out only PA 0 up to that end, so no such access exists. Raised by
  HOST_MEM_ACCESS; safe: the device is never reached. -/
  | hostRange
deriving DecidableEq, Repr

/-- Why a step has no meaning. -/
inductive Refusal where
  /-- The instruction is not modelled yet. Raised by an arm of `exec` only; safe: no statement is made about it. -/
  | notModelled (mnemonic : String)
deriving DecidableEq, Repr

/-! ### Reset -/

/-- A context that holds nothing: every register zero (R21; log 2, DESIGN CHOICE for the registers without a reset value). -/
def Ctx.reset : Ctx :=
  { pc := 0, x := .replicate 32 0, q := .replicate 16 0, fflags := 0, frm := 0, inldepth := 0, vtype := 0, mstart := 0,
    slipcfg := 0, mcgroup := 0, strandId := 0, asid := 0, priv := false, scause := 0, saddr := 0, sinfo := 0, pend := 0,
    tokErr := 0, line := none, waiting := .no, deadline := none }

/-- A core after reset (R21 to R24, R28, R203, R220): no occupant, all CSRs zero but MBOXCFG.SLOTS = 32, request 3. -/
def Core.reset : Core :=
  { u := .reset, a := .reset, uWork := .empty, aWork := .idle, v := .replicate 32 0, m := .replicate 12 0,
    ac := .replicate 4 0, acLive := 0, regPoison := [], queue := [], vfault := none, mq := [], long := none,
    lastJoined := false, scause := 0, sepc := 0, saddr := 0, sinfo := 0, svec := 0, sstatus := 0, sscratch := 0, sqimg := 0,
    protb := .replicate 8 0, protl := .replicate 8 0, mboxcfg := 32, rfull := 0, rabs := 0, accepted := 0, fwdcfg := 0,
    cycle := 0, lskew := 0, opreq := 3, heapphase := false, slots := [], arrival := [], prevAsid := 0, owner := none, changes := 0, aPersists := [],
    zeroing := false, gang := .none, l1d := [], l1i := [], status := .live, retLane := none, remapped := false, entries := [], keptA := [],
    mix := { issued := 0, control := 0, vector := 0, tensor := 0 }, uStreak := 0,
    lastPreempt := none, residue := 0, breakDue := false, retireDue := false }

/-- A tile after reset runs at OP3 (R21, OPPOINT), with no lent budget and no lowered limit (R269). -/
def Tile.reset : Tile :=
  { point := 3, gated := false, waking := false, limit := 7, lent := 0, called := 0, asked := none, refused := false, idleSince := none,
    retakes := [] }

def Home.reset : Home :=
  { cache := [], walks := [], hints := [], clock := 0, wroteBack := 0, pins := [], waiting := [], moves := [], moving := none }

/-- A site after reset; its damper pool holds a quarter of the 290 W of module headroom (R265; log 30, DESIGN CHOICE). -/
def Site.reset : Site :=
  { pool := 72500000, grants := [], overflow := [], warn := false, throttle := false, home := .reset, reserve := none,
    visits := [] }

def Cluster.reset : Cluster := { tasks := [], lastCore := 0, lastServed := 0 }

/-- A slice that holds nothing. -/
def L2Slice.reset : L2Slice := { lines := [], dir := [] }

/-- The module of the manual's examples (R394): a K4X whose control cores 16 to 31 and vector cores 288 to 415 lie on site 2, and
control cores 0 to 15 on site 1 (log 6, DESIGN CHOICE). -/
def ModuleCfg.default : ModuleCfg :=
  { grade := .k4x,
    places := #v[(1, 0), (2, 0), (1, 1), (3, 0), (2, 1), (0, 0), (0, 1), (0, 2), (0, 3), (1, 2), (2, 2), (2, 3), (3, 1), (1, 3), (3, 2), (3, 3)],
    capPtr := 0xFF_3FF0_0000,
    moveDoor := [0x00FE_0000_0000_0000, 0x00FE_0000_0001_0000, 0x00FE_0000_0002_0000, 0x00FE_0000_0003_0000],
    heapDoor := [0x00FE_0000_0004_0000, 0x00FE_0000_0005_0000, 0x00FE_0000_0006_0000, 0x00FE_0000_0007_0000],
    healthVa := 0x00FE_0000_0008_0000,
    nodeVa := 0x00FE_0000_0009_0000,
    nodeTableVa := 0x00FE_0000_000A_0000,
    groupTableVa := 0x00FE_0000_0100_0000 }

def Port.reset : Port := { up := true, cxl := true, cxlDown := false, priMax := 32 }

/-- The digest of an image's header and body (R399; log 31, DESIGN CHOICE for the header's layout, three doublewords). -/
def imageDigest (version security length : Nat) (body : List Byte) : BitVec 384 :=
  let dw (n : Nat) : List Byte := (List.range 8).map (fun i => BitVec.ofNat 8 (n / 2 ^ (8 * i)))
  Config.sha3 (dw version ++ dw security ++ dw length ++ body)

/-- Flash of a module as it leaves manufacture (R2): nothing retired, three spares, valid firmware, no firing record (log 31, DESIGN CHOICE). -/
def Flash.default : Flash :=
  let d := imageDigest 0 0 0 []
  let image : FwImage :=
    { version := 0, security := 0, length := 0, body := [], digest := d, edSig := Config.imageEd [] d, mlSig := Config.imageMl [] d }
  { bank0 := image, bank1 := image, counter := 0, edKey := [], mlKey := [], edFuse := Config.sha3 [], mlFuse := Config.sha3 [], certs := [],
    pcPend := [], serial := 0, firing := none, replace := false,
    spares := 3, retCores := [], retLanes := [], linkDeg := [], linkPend := [], remap := [], frames := [], codeDigest := 0,
    mgmtDigest := 0 }

/-- The management registers at their reset values (R352, R379, R380, R389, R400, R402, R403). -/
def Mgmt.reset : Mgmt :=
  { ready := false, phase := 0, booted := false, lastCold := false, retrain := false, asbindCmd := none, asbindResult := 0, resetReq := false,
    stopped := false, pcFail := [], retCore := 0, retLane := 0, opLim := 0, logReg := 0, logPos := 0, logLost := 0,
    attReq := none, attResult := 0, attArea := 0, capMode := 0, capStall := false, capResult := 0, capRing := 0,
    capLogn := 0, capPos := 0, capSince := 0, measure := .replicate 8 0, window := [], fabricUp := .replicate 8 true, node := 0,
    nodeTable := [], msix := [] }

/-- The machine right after power-on: READY = 0, no step of bring-up begun (R388 to R390), no strand, no binding, every CSR at its
reset value (R21, R22), memory with nothing listed. -/
def State.reset : State :=
  { cfg := .default, agenda := [], cur := 0, curCtx := .u, free := 0, time := 0, mem := { cells := [], poison := [] },
    cores := [], siteTags := [], l2 := [], sites := .replicate 4 .reset, tiles := [], clusters := [], windows := [], ops := [],
    kept := [], groups := [], peers := [], collCalls := [], sysReqs := [], flights := [], seqNos := [], moves := [],
    nextId := 1, strands := [], crews := [], spaces := [], jobs := [], runs := [], active := [], cycles := [], heapCmds := [],
    ports := .replicate 4 .reset, ats := [], hostReqs := [], devFails := [], hostRead := none, blocked := false, invals := [], poolDead := [], flash := .default,
    mgmt := .reset, pcErrors := [] }

end Sys2Proof.Machine
end

