-- ==== Sys2Proof/Machine/Bits.lean ====
section
/-! DEFINITION. Bit-field, sign-extension, saturation and byte-order helpers (R6, R9). -/

namespace Sys2Proof.Machine

/-- The value of w low bits read as a signed integer: sext of R9. -/
def sInt (w n : Nat) : Int :=
  let m := n % 2 ^ w
  if w ≠ 0 ∧ m ≥ 2 ^ (w - 1) then (m : Int) - 2 ^ w else (m : Int)

/-- wrap(v, w) of R9, as a natural number below 2^w. -/
def wrapN (w : Nat) (v : Int) : Nat := (v % (2 ^ w : Int)).toNat

/-- sat_s(v, w) of R9. -/
def satS (w : Nat) (v : Int) : Int :=
  if v < -(2 ^ (w - 1) : Int) then -(2 ^ (w - 1) : Int)
  else if v > (2 ^ (w - 1) : Int) - 1 then (2 ^ (w - 1) : Int) - 1 else v

/-- sat_u(v, w) of R9. -/
def satU (w : Nat) (v : Int) : Int :=
  if v < 0 then 0 else if v > (2 ^ w : Int) - 1 then (2 ^ w : Int) - 1 else v

/-- Bits [lo + len - 1 : lo] of a natural number. -/
def bitsOf (n lo len : Nat) : Nat := n / 2 ^ lo % 2 ^ len

/-- n with bits [lo + len - 1 : lo] replaced. -/
def setBits (n lo len v : Nat) : Nat :=
  n - bitsOf n lo len * 2 ^ lo + v % 2 ^ len * 2 ^ lo

/-- Bit k of a natural number. -/
def bitOf (n k : Nat) : Bool := n / 2 ^ k % 2 == 1

/-- The bytes of the low 8·k bits of n, the least significant at the lowest address (R6). -/
def toBytes : Nat → Nat → List Byte
  | 0, _ => []
  | k + 1, n => BitVec.ofNat 8 n :: toBytes k (n / 256)

/-- The value of bytes in little-endian order (R6). -/
def ofBytes : List Byte → Nat
  | [] => 0
  | b :: bs => b.toNat + 256 * ofBytes bs

/-- The indices 0 to n - 1. -/
def upTo (n : Nat) : List Nat := List.range' 0 n

/-- Set bits of a natural number below bit k. -/
def popBelow (n : Nat) : Nat → Nat
  | 0 => 0
  | k + 1 => popBelow n k + (if bitOf n k then 1 else 0)

/-- The lowest set bit of n below k, or k when there is none. -/
def lowestBit (n : Nat) (k : Nat) : Nat := (upTo k).find? (fun i => bitOf n i) |>.getD k

/-- floor(log2 n), 0 for n = 0, by halving with fuel. -/
def log2Fuel : Nat → Nat → Nat
  | 0, _ => 0
  | f + 1, n => if n < 2 then 0 else 1 + log2Fuel f (n / 2)

/-! ### Sparse tables keyed by a number -/

/-- The value listed under a key. -/
def kvGet {α : Type} (k : Nat) : List (Nat × α) → Option α
  | [] => none
  | (j, v) :: t => if j = k then some v else kvGet k t

/-- The table with one key's value set, keys kept rising. -/
def kvSet {α : Type} (k : Nat) (v : α) : List (Nat × α) → List (Nat × α)
  | [] => [(k, v)]
  | (j, w) :: t => if k < j then (k, v) :: (j, w) :: t else if k = j then (k, v) :: t else (j, w) :: kvSet k v t

theorem kvGet_set_self {α : Type} (k : Nat) (v : α) (l : List (Nat × α)) : kvGet k (kvSet k v l) = some v := by
  induction l with
  | nil => simp [kvSet, kvGet]
  | cons p t ih =>
    obtain ⟨j, w⟩ := p
    simp only [kvSet]
    split
    · simp [kvGet]
    · split
      · simp [kvGet]
      · rename_i _ hne; simp [kvGet, Ne.symm hne, ih]

theorem kvGet_set_ne {α : Type} {k j : Nat} (h : j ≠ k) (v : α) (l : List (Nat × α)) : kvGet j (kvSet k v l) = kvGet j l := by
  induction l with
  | nil => simp [kvSet, kvGet, Ne.symm h]
  | cons p t ih =>
    obtain ⟨i, w⟩ := p
    simp only [kvSet]
    split
    · simp [kvGet, Ne.symm h]
    · split
      · rename_i _ hk; subst hk; simp [kvGet, Ne.symm h]
      · simp only [kvGet, ih]

end Sys2Proof.Machine
end

