-- ==== Sys2Proof/Machine/Num.lean ====
section
/-! DEFINITION. Number formats, rounding, conversion and exact arithmetic (R35 to R66). -/

namespace Sys2Proof.Machine

/-! ### Values (R35) -/

/-- A decoded number. `fin neg m e st` is (-1)^neg · m · 2^e with m > 0; with `st` the magnitude lies strictly between m and m + 1
units of 2^e, which only quotients and roots need. `nan true` came from a signalling IEEE NaN. -/
inductive Val where
  | zero (neg : Bool)
  | fin (neg : Bool) (m : Nat) (e : Int) (st : Bool)
  | inf (neg : Bool)
  | nan (sig : Bool)
  | nar
deriving DecidableEq, Repr

/-- A code or value with the FFLAGS bits raised: [4] NV, [3] DZ, [2] OF, [1] UF, [0] NX (R21). -/
abbrev Flagged (α : Type) := α × BitVec 5

def fNV : BitVec 5 := 16
def fDZ : BitVec 5 := 8
def fOF : BitVec 5 := 4
def fUF : BitVec 5 := 2
def fNX : BitVec 5 := 1

def flagIf (b : Bool) (f : BitVec 5) : BitVec 5 := if b then f else 0

/-- floor(log2 m) for m > 0. -/
def ilog2 (m : Nat) : Nat := log2Fuel 8192 m

/-- An exact integer times a power of two, zero taking the given sign. -/
def mkVal (v : Int) (e : Int) (zneg : Bool) : Val :=
  if v = 0 then .zero zneg else .fin (v < 0) v.natAbs e false

def Val.isNaN : Val → Bool
  | .nan _ => true
  | _ => false

def Val.isSig : Val → Bool
  | .nan s => s
  | _ => false

def Val.isNeg : Val → Bool
  | .zero n => n
  | .fin n _ _ _ => n
  | .inf n => n
  | _ => false

def Val.neg : Val → Val
  | .zero n => .zero (!n)
  | .fin n m e st => .fin (!n) m e st
  | .inf n => .inf (!n)
  | v => v

/-- floor(log2 |x|) of a finite nonzero value. -/
def Val.scale : Val → Int
  | .fin _ m e _ => e + ilog2 m
  | _ => 0

/-! ### Rounding a magnitude (R41) -/

/-- Does a dropped part round the magnitude up: `half` compares it with half a unit, `odd` is the kept part's last bit. 5 is no mode of
R41: it stands for the nearest value with ties to the smaller magnitude, which `b8Ties` needs. -/
def roundsUp (rm : Nat) (neg odd : Bool) (inexact : Bool) (half : Ordering) : Bool :=
  match rm with
  | 0 => half == .gt || (half == .eq && odd)
  | 1 => false
  | 2 => inexact && !neg
  | 3 => inexact && neg
  | 5 => half == .gt
  | _ => half == .gt || half == .eq

/-- A magnitude rounded to a multiple of 2^l: the multiple and whether it is inexact. -/
def roundAt (neg : Bool) (m : Nat) (e : Int) (st : Bool) (l : Int) (rm : Nat) : Nat × Bool :=
  if l ≤ e then
    let q := m * 2 ^ (e - l).toNat
    (if roundsUp rm neg (q % 2 == 1) st .lt then q + 1 else q, st)
  else
    let d := (l - e).toNat
    let q := m / 2 ^ d
    let r := m % 2 ^ d
    let inexact := r != 0 || st
    let half := if 2 * r > 2 ^ d || (2 * r == 2 ^ d && st) then Ordering.gt else if 2 * r == 2 ^ d then .eq else .lt
    (if roundsUp rm neg (q % 2 == 1) inexact half then q + 1 else q, inexact)

/-- Rounding to p significant bits, with no exponent of the last bit below lmin: the multiple, its exponent, and inexactness. -/
def roundPrec (neg : Bool) (m : Nat) (e : Int) (st : Bool) (p : Nat) (lmin : Option Int) (rm : Nat) : Nat × Int × Bool :=
  let l0 := e + ilog2 m - p + 1
  let l := match lmin with
    | some k => max l0 k
    | none => l0
  let (q, ix) := roundAt neg m e st l rm
  (q, l, ix)

/-- The rounded result, exponent unbounded below, lies below 2^k: the tininess of R42 and R53. -/
def tinyBelow (neg : Bool) (m : Nat) (e : Int) (st : Bool) (p : Nat) (rm : Nat) (k : Int) : Bool :=
  let (q, l, _) := roundPrec neg m e st p none rm
  q != 0 && l + ilog2 q < k

/-! ### IEEE formats (R38 to R42) -/

/-- Trailing bits, bias and width of an IEEE format code. -/
structure IeeeFmt where
  t : Nat
  bias : Nat
  width : Nat
deriving DecidableEq, Repr

def ieeeFmt (fc : Nat) : IeeeFmt :=
  match fc with
  | 1 => ⟨23, 127, 32⟩
  | 2 => ⟨10, 15, 16⟩
  | 3 => ⟨7, 127, 16⟩
  | _ => ⟨52, 1023, 64⟩

def isIeee (fc : Nat) : Bool := 1 ≤ fc && fc ≤ 4
def isTapered (fc : Nat) : Bool := 5 ≤ fc && fc ≤ 7
def isFloating (fc : Nat) : Bool := 1 ≤ fc && fc ≤ 28 && fc ≠ 4

/-- Bits per element of a format code (R37); FC 0 has none of its own. -/
def fmtWidth (fc : Nat) : Nat :=
  if fc = 1 || fc = 5 then 32 else if fc = 4 then 64 else if fc = 2 || fc = 3 || fc = 6 then 16
  else if fc = 0 || fc = 31 then 0 else if fc = 30 then 4 else 8

/-- The canonical NaN (R38, R40). -/
def canonNaN (fc : Nat) : Nat :=
  let f := ieeeFmt fc
  (2 ^ (f.width - 1 - f.t) - 1) * 2 ^ f.t + 2 ^ (f.t - 1)

def ieeeInf (fc : Nat) (neg : Bool) : Nat :=
  let f := ieeeFmt fc
  (2 ^ (f.width - 1 - f.t) - 1) * 2 ^ f.t + (if neg then 2 ^ (f.width - 1) else 0)

/-- decode_ieee (R39). -/
def decodeIeee (c fc : Nat) : Val :=
  let f := ieeeFmt fc
  let ew := f.width - 1 - f.t
  let neg := bitOf c (f.width - 1)
  let e := bitsOf c f.t ew
  let t := bitsOf c 0 f.t
  if e = 0 then (if t = 0 then .zero neg else .fin neg t (1 - (f.bias : Int) - f.t) false)
  else if e = 2 ^ ew - 1 then (if t = 0 then .inf neg else .nan (!bitOf t (f.t - 1)))
  else .fin neg (2 ^ f.t + t) ((e : Int) - f.bias - f.t) false

/-- round_ieee (R42), with the specials of R40 and R57. -/
def roundIeee (x : Val) (fc rm : Nat) : Flagged Nat :=
  let f := ieeeFmt fc
  let ew := f.width - 1 - f.t
  let sb (n : Bool) := if n then 2 ^ (f.width - 1) else 0
  match x with
  | .zero n => (sb n, 0)
  | .inf n => (ieeeInf fc n, 0)
  | .nan sig => (canonNaN fc, flagIf sig fNV)
  | .nar => (canonNaN fc, fNV)
  | .fin n m e st =>
    let emin : Int := 1 - f.bias
    let (q, l, ix) := roundPrec n m e st (f.t + 1) (some (emin - f.t)) rm
    let code := if q < 2 ^ f.t then q else ((l + f.t + f.bias).toNat) * 2 ^ f.t + (q - 2 ^ f.t)
    let maxCode := (2 ^ ew - 1) * 2 ^ f.t - 1
    if code > maxCode then
      let toInf := rm = 0 || rm = 4 || (rm = 2 && !n) || (rm = 3 && n)
      (sb n + (if toInf then maxCode + 1 else maxCode), fOF ||| fNX)
    else (sb n + code, flagIf ix fNX ||| flagIf (ix && tinyBelow n m e st (f.t + 1) rm emin) fUF)

/-! ### Tapered formats (R44 to R48) -/

/-- n and es of a tapered format code (R46). -/
def tapN (fc : Nat) : Nat := if fc = 5 then 32 else if fc = 6 then 16 else 8
def tapEs (fc : Nat) : Nat := if fc = 5 then 2 else 1

/-- Length of the run of bits equal to `b` from bit i down. -/
def runLen (c : Nat) (b : Bool) : Nat → Nat
  | 0 => 0
  | i + 1 => if bitOf c i = b then 1 + runLen c b i else 0

/-- decode_T (R45). -/
def decodeT (c fc : Nat) : Val :=
  let n := tapN fc
  let es := tapEs fc
  if c = 0 then .zero false
  else if c = 2 ^ (n - 1) then .nar
  else
    let neg := bitOf c (n - 1)
    let a := if neg then 2 ^ n - c else c
    let rb := bitOf a (n - 2)
    let run := runLen a rb (n - 1)
    let k : Int := if rb then (run : Int) - 1 else -(run : Int)
    -- bits left below the terminator
    let left := n - 1 - run - 1
    let eb := min es left
    let fb := left - eb
    let ex := bitsOf a fb eb * 2 ^ (es - eb)
    .fin neg (2 ^ fb + bitsOf a 0 fb) (k * 2 ^ es + ex - fb) false

/-- round_T (R47) of a real or NaR, without flags. NaN and infinities, which only conversions bring, become NaR (R57). -/
def roundT (x : Val) (fc : Nat) : Nat :=
  let n := tapN fc
  let es := tapEs fc
  let bound : Int := (n - 2) * 2 ^ es
  match x with
  | .zero _ => 0
  | .inf _ | .nan _ | .nar => 2 ^ (n - 1)
  | .fin neg m e st =>
    let sc := e + ilog2 m
    let c :=
      if sc ≥ bound then 2 ^ (n - 1) - 1
      else if sc < -bound || (sc = -bound && m = 2 ^ ilog2 m && !st) then 1
      else
        let k := sc / 2 ^ es
        let ex := (sc - k * 2 ^ es).toNat
        let fb := ilog2 m
        -- regime ‖ exponent ‖ fraction, as one number of `len` bits
        let (reg, rl) := if k ≥ 0 then ((2 ^ (k.toNat + 1) - 1) * 2, k.toNat + 2) else (1, (-k).toNat + 1)
        let bits := (reg * 2 ^ es + ex) * 2 ^ fb + (m - 2 ^ fb)
        let len := rl + es + fb
        -- at least n bits
        let bits := bits * 2 ^ n
        let drop := len + n - (n - 1)
        let c := bits / 2 ^ drop
        let g := bitOf bits (drop - 1)
        let sticky := bits % 2 ^ (drop - 1) != 0 || st
        if g && (sticky || c % 2 == 1) then c + 1 else c
    if neg then 2 ^ n - c else c

/-- Flags of a conversion from IEEE or binary8 into a tapered format (R57). -/
def tapFlags (x : Val) (fc : Nat) : BitVec 5 :=
  let bound : Int := (tapN fc - 2) * 2 ^ tapEs fc
  match x with
  | .inf _ | .nan _ => fNV
  | .fin _ m e st =>
    let sc := e + ilog2 m
    if sc > bound || (sc = bound && (m ≠ 2 ^ ilog2 m || st)) then fOF else if sc < -bound then fUF else 0
  | _ => 0

/-! ### binary8 (R49 to R53) -/

/-- Precision, bias, signedness and the largest finite magnitude code. -/
structure B8Fmt where
  p : Nat
  bias : Nat
  signed : Bool
  ext : Bool
  maxM : Nat
deriving DecidableEq, Repr

def b8Fmt (fc : Nat) : B8Fmt :=
  if fc ≤ 14 then ⟨fc - 7, 2 ^ (7 - (fc - 7)), true, true, 0x7E⟩
  else if fc ≤ 21 then ⟨fc - 14, 2 ^ (7 - (fc - 14)), true, false, 0x7F⟩
  else ⟨fc - 21, 2 ^ (8 - (fc - 21)), false, false, 0xFE⟩

/-- decode_b8 (R51). -/
def decodeB8 (c fc : Nat) : Val :=
  let f := b8Fmt fc
  let t := f.p - 1
  if f.signed && c = 0x80 || !f.signed && c = 0xFF then .nan false
  else if f.ext && c = 0x7F then .inf false
  else if f.ext && c = 0xFF then .inf true
  else
    let neg := f.signed && bitOf c 7
    let m := if f.signed then c % 128 else c
    let e := m / 2 ^ t
    let tr := m % 2 ^ t
    if e = 0 then (if tr = 0 then .zero false else .fin neg tr (1 - (f.bias : Int) - t) false)
    else .fin neg (2 ^ t + tr) ((e : Int) - f.bias - t) false

/-- The mode in which a binary8 format rounds: in nearest-even a format of one significant bit has no trailing field that could be even, so
its ties go up or down freely (R41, R49; log 59, DESIGN CHOICE). -/
def b8Ties (fc : Nat) (neg : Bool) (scale : Int) (rm : Nat) : Nat :=
  if (b8Fmt fc).p = 1 && rm = 0 then (if Config.tieUp fc neg scale then 4 else 5) else rm

/-- round_b8 (R53). An integer meets the same steps: R57's row for it lists OF and NX alone, and steps 3 and 4 of R53 set NV for a
negative value into an unsigned format and for an overflow of a finite variant, which the model follows (log 20, DEDUCED). -/
def roundB8 (x : Val) (fc : Nat) (sat : Bool) (rm : Nat) : Flagged Nat :=
  let f := b8Fmt fc
  let t := f.p - 1
  let nanC := if f.signed then 0x80 else 0xFF
  let sgn (n : Bool) (m : Nat) := if m = 0 then 0 else if n && f.signed then 0x80 + m else m
  match x with
  | .nan sig => (nanC, flagIf sig fNV)
  | .nar => (nanC, fNV)
  | .zero _ => (0, 0)
  | .inf n =>
    if f.ext then (if n then 0xFF else 0x7F, 0)
    else if sat then (if n && !f.signed then 0 else sgn n f.maxM, fOF ||| fNX)
    else (nanC, fNV)
  | .fin n m e st =>
    if n && !f.signed then (if sat then (0, fNX) else (nanC, fNV))
    else
      let emin : Int := 1 - (f.bias : Int)
      let rt := b8Ties fc n (e + ilog2 m) rm
      let (q, l, ix) := roundPrec n m e st f.p (some (emin - t)) rt
      let code := if q < 2 ^ t then q else ((l + t + f.bias).toNat) * 2 ^ t + (q - 2 ^ t)
      if q = 0 then (0, fUF ||| fNX)
      else if code > f.maxM then
        if sat then (sgn n f.maxM, fOF ||| fNX)
        else if f.ext then
          let toInf := rm = 0 || rm = 4 || (rm = 2 && !n) || (rm = 3 && n)
          (if toInf then (if n then 0xFF else 0x7F) else sgn n f.maxM, fOF ||| fNX)
        else (nanC, fOF ||| fNX ||| fNV)
      else (sgn n code, flagIf ix fNX ||| flagIf (ix && tinyBelow n m e st f.p rt emin) fUF)

/-! ### E8M0 (R54) -/

def decodeE8 (c : Nat) : Val := if c = 0xFF then .nan false else .fin false 1 ((c : Int) - 127) false

def roundE8 (x : Val) : Flagged Nat :=
  match x with
  | .nan _ | .nar | .inf _ => (0xFF, fNV)
  | .zero _ => (0, fUF)
  | .fin n m e st =>
    let k := e + ilog2 m + 127
    let nx := flagIf (m ≠ 2 ^ ilog2 m || st || n) fNX
    if k > 254 then (254, fOF ||| nx) else if k < 0 then (0, fUF ||| nx) else (k.toNat, nx)

/-! ### Dispatch by format code (R35, R37) -/

def decodeFc (c fc : Nat) : Val :=
  if isIeee fc then decodeIeee (c % 2 ^ fmtWidth fc) fc
  else if isTapered fc then decodeT (c % 2 ^ fmtWidth fc) fc
  else if fc = 29 then decodeE8 (c % 256)
  else decodeB8 (c % 256) fc

/-- Rounding of an arithmetic result into a format: tapered results set no flag (R48). -/
def roundFc (x : Val) (fc : Nat) (sat : Bool) (rm : Nat) : Flagged Nat :=
  if isIeee fc then roundIeee x fc rm
  else if isTapered fc then (roundT x fc, 0)
  else if fc = 29 then roundE8 x
  else roundB8 x fc sat rm

/-- Rounding of a converted value, with the flags of R57: a tapered or integer source sets none into a tapered target. -/
def convertTo (x : Val) (tapSrc : Bool) (fc : Nat) (sat : Bool) (rm : Nat) : Flagged Nat :=
  if isTapered fc then (roundT x fc, if tapSrc then 0 else tapFlags x fc) else roundFc x fc sat rm

/-- A conversion between two floating formats (R57). -/
def convertFc (c src tgt : Nat) (sat : Bool) (rm : Nat) : Flagged Nat :=
  convertTo (decodeFc c src) (isTapered src) tgt sat rm

/-- Is the exact value an integer within [lo, hi] after rounding; the integer and the flags of R57 (log 20, DEDUCED). -/
def toInt (x : Val) (tap : Bool) (lo hi : Int) (rm : Nat) : Int × BitVec 5 :=
  match x with
  | .nan _ | .nar => (0, fNV)
  | .inf n => (if n then lo else hi, fNV)
  | .zero _ => (0, 0)
  | .fin n m e st =>
    let (q, ix) := roundAt n m e st 0 rm
    let v : Int := if n then -(q : Int) else q
    if v < lo then (lo, fNV) else if v > hi then (hi, fNV) else (v, flagIf (ix && !tap) fNX)

/-- An integer as a value. -/
def ofInt (v : Int) : Val := mkVal v 0 false

/-! ### Exact arithmetic (R40, R42, R48) -/

/-- The exact sum of values (R42, R64): invalid sums give NaN with NV, an exact zero takes the sign of R42 for the mode. -/
def sumVals (rm : Nat) (vs : List Val) : Val × BitVec 5 :=
  if vs.any (· == .nar) then (.nar, 0)
  else
    let nan := vs.any (·.isNaN)
    let sig := vs.any (·.isSig)
    let pinf := vs.any (· == .inf false)
    let ninf := vs.any (· == .inf true)
    if nan then (.nan false, flagIf (sig || (pinf && ninf)) fNV)
    else if pinf && ninf then (.nan false, fNV)
    else if pinf then (.inf false, 0)
    else if ninf then (.inf true, 0)
    else
      let emin := vs.foldl (fun acc v => match v with | .fin _ _ e _ => min acc e | _ => acc) (0 : Int)
      let tot := vs.foldl (fun acc v => match v with
        | .fin n m e _ => let k : Int := (m * 2 ^ (e - emin).toNat : Nat); if n then acc - k else acc + k
        | _ => acc) (0 : Int)
      let allZero := vs.all (fun v => match v with | .zero _ => true | _ => false)
      let zneg := if allZero && vs.all (·.isNeg) then true else if allZero && vs.all (fun v => !v.isNeg) then false else rm == 3
      (mkVal tot emin zneg, 0)

/-- The exact product (R40): 0 · ∞ is invalid. -/
def mulVals (a b : Val) : Val × BitVec 5 :=
  match a, b with
  | .nar, _ => (.nar, 0)
  | _, .nar => (.nar, 0)
  | .nan s, y => (.nan false, flagIf (s || y.isSig) fNV)
  | x, .nan s => (.nan false, flagIf (s || x.isSig) fNV)
  | .inf _, .zero _ => (.nan false, fNV)
  | .zero _, .inf _ => (.nan false, fNV)
  | .inf n, y => (.inf (n != y.isNeg), 0)
  | x, .inf n => (.inf (n != x.isNeg), 0)
  | .zero n, y => (.zero (n != y.isNeg), 0)
  | x, .zero n => (.zero (n != x.isNeg), 0)
  | .fin n m e _, .fin n' m' e' _ => (.fin (n != n') (m * m') (e + e') false, 0)

/-- a·b + c with one exact sum (R60, R102). -/
def fmaVals (rm : Nat) (a b c : Val) : Val × BitVec 5 :=
  let (p, f1) := mulVals a b
  let (r, f2) := sumVals rm [p, c]
  (r, f1 ||| f2)

/-- The quotient with 128 significant bits and a sticky bit (R40, R48): `tap` gives NaR for a division by zero. -/
def divVals (tap : Bool) (a b : Val) : Val × BitVec 5 :=
  match a, b with
  | .nar, _ => (.nar, 0)
  | _, .nar => (.nar, 0)
  | .nan s, y => (.nan false, flagIf (s || y.isSig) fNV)
  | x, .nan s => (.nan false, flagIf (s || x.isSig) fNV)
  | .inf _, .inf _ => (.nan false, fNV)
  | .inf n, y => (.inf (n != y.isNeg), 0)
  | x, .inf n => (.zero (n != x.isNeg), 0)
  | x, .zero n =>
    if tap then (.nar, 0)
    else match x with
      | .zero _ => (.nan false, fNV)
      | _ => (.inf (n != x.isNeg), fDZ)
  | .zero n, y => (.zero (n != y.isNeg), 0)
  | .fin n m e _, .fin n' m' e' _ =>
    let k := 130 + ilog2 m'
    let q := m * 2 ^ k / m'
    (.fin (n != n') q (e - e' - k) (m * 2 ^ k % m' != 0), 0)

/-- floor(sqrt n) for n < 4^b, bit by bit. -/
def isqrtBits (n : Nat) : Nat → Nat → Nat
  | 0, r => r
  | b + 1, r => isqrtBits n b (if (r + 2 ^ b) * (r + 2 ^ b) ≤ n then r + 2 ^ b else r)

/-- The square root with more than 100 significant bits and a sticky bit (R40, R48). -/
def sqrtVal (tap : Bool) (a : Val) : Val × BitVec 5 :=
  match a with
  | .nar => (.nar, 0)
  | .nan s => (.nan false, flagIf s fNV)
  | .zero n => (.zero n, 0)
  | .inf false => (.inf false, 0)
  | .inf true => (.nan false, fNV)
  | .fin true _ _ _ => if tap then (.nar, 0) else (.nan false, fNV)
  | .fin false m e _ =>
    let k := 220 + (e % 2).toNat
    let n := m * 2 ^ k
    let r := isqrtBits n (ilog2 n / 2 + 1) 0
    (.fin false r ((e - k) / 2) (r * r != n), 0)

/-- a · 2^k exactly (R143). -/
def scaleVal (a : Val) (k : Int) : Val × BitVec 5 :=
  match a with
  | .fin n m e st => (.fin n m (e + k) st, 0)
  | .nan s => (.nan false, flagIf s fNV)
  | v => (v, 0)

/-! ### Comparison (R43, R48) -/

/-- The order of two values that are neither NaN nor NaR; -0 = +0. -/
def cmpVals (a b : Val) : Ordering :=
  let rank : Val → Int := fun v => match v with
    | .inf true => -2
    | .fin true .. => -1
    | .zero _ => 0
    | .fin false .. => 1
    | .inf false => 2
    | _ => 0
  match a, b with
  | .fin n m e _, .fin n' m' e' _ =>
    if n ≠ n' then (if n then .lt else .gt)
    else
      let k := min e e'
      let o := compare (m * 2 ^ (e - k).toNat) (m' * 2 ^ (e' - k).toNat)
      if n then o.swap else o
  | x, y => compare (rank x) (rank y)

/-- FMIN and FMAX on codes (R43, R48, R62): `mx` for the maximum. IEEE and binary8 return the other operand of a NaN. -/
def minMaxCode (mx : Bool) (fc a b : Nat) : Flagged Nat :=
  if isTapered fc then
    let w := fmtWidth fc
    let lt := sInt w a < sInt w b
    (if lt == mx then b else a, 0)
  else
    let x := decodeFc a fc
    let y := decodeFc b fc
    let f := flagIf (x.isSig || y.isSig) fNV
    let canon := if isIeee fc then canonNaN fc else (roundB8 (.nan false) fc false 0).1
    match x.isNaN, y.isNaN with
    | true, true => (canon, f)
    | true, false => (b, f)
    | false, true => (a, f)
    | false, false =>
      let o := cmpVals x y
      let lt := o == .lt || (o == .eq && x.isNeg && !y.isNeg)
      let gt := o == .gt || (o == .eq && !x.isNeg && y.isNeg)
      (if mx then (if lt then b else a) else (if gt then b else a), f)

/-- FCMP (R101): condition 0 EQ, 1 LT, 2 LE, 3 UN; binary8 compares by value with a quiet NaN. -/
def cmpCode (cond fc a b : Nat) : Bool × BitVec 5 :=
  if isTapered fc then
    let w := fmtWidth fc
    let x := sInt w a
    let y := sInt w b
    (match cond with | 0 => x == y | 1 => x < y | 2 => x ≤ y | _ => false, 0)
  else
    let x := decodeFc a fc
    let y := decodeFc b fc
    let un := x.isNaN || y.isNaN
    let sig := x.isSig || y.isSig
    let o := cmpVals x y
    match cond with
    | 0 => (!un && o == .eq, flagIf sig fNV)
    | 1 => (!un && o == .lt, flagIf un fNV)
    | 2 => (!un && (o == .lt || o == .eq), flagIf un fNV)
    | _ => (un, flagIf sig fNV)

/-- The class mask of FCLASS (R104). -/
def classMask (c fc : Nat) : Nat :=
  let w := fmtWidth fc
  let code := c % 2 ^ w
  let v := decodeFc code fc
  let sub : Bool :=
    if isIeee fc then bitsOf code (ieeeFmt fc).t (w - 1 - (ieeeFmt fc).t) == 0
    else if isTapered fc || fc = 29 then false
    else (let f := b8Fmt fc; (if f.signed then code % 128 else code) / 2 ^ (f.p - 1) == 0)
  let ext : Nat :=
    if isTapered fc && (code == 1 || code == 2 ^ (w - 1) - 1 || code == 2 ^ (w - 1) + 1 || code == 2 ^ w - 1) then 0x800 else 0
  match v with
  | .inf true => 0x001
  | .fin true .. => if sub then 0x004 else 0x002 + ext
  | .zero true => 0x008
  | .zero false => 0x010
  | .fin false .. => if sub then 0x020 else 0x040 + ext
  | .inf false => 0x080
  | .nan true => 0x100
  | .nan false => 0x200
  | .nar => 0x400

/-! ### Arithmetic in a format: decode, compute exactly, round once (R60) -/

inductive FOp where
  | add
  | sub
  | mul
  | div
deriving DecidableEq, Repr

/-- One operation of two codes. Invalid operations and a division by zero give the value and the flag of R40 in every IEEE and binary8 format, and
`round_b8` then gives the binary8 code; the tapered formats set no flag (log 20, DEDUCED). -/
def arith (op : FOp) (fc a b : Nat) (sat : Bool) (rm : Nat) : Flagged Nat :=
  let x := decodeFc a fc
  let y := decodeFc b fc
  let (v, f) := match op with
    | .add => sumVals rm [x, y]
    | .sub => sumVals rm [x, y.neg]
    | .mul => mulVals x y
    | .div => divVals (isTapered fc) x y
  let (c, g) := roundFc v fc sat rm
  (c, if isTapered fc then 0 else f ||| g)

def sqrtCode (fc a : Nat) (sat : Bool) (rm : Nat) : Flagged Nat :=
  let (v, f) := sqrtVal (isTapered fc) (decodeFc a fc)
  let (c, g) := roundFc v fc sat rm
  (c, if isTapered fc then 0 else f ||| g)

/-- ±(a·b) ± c rounded once (R102, R143). -/
def fmaCode (fc a b c : Nat) (negP negC sat : Bool) (rm : Nat) : Flagged Nat :=
  let x := decodeFc a fc
  let z := decodeFc c fc
  let (v, f) := fmaVals rm (if negP then x.neg else x) (decodeFc b fc) (if negC then z.neg else z)
  let (r, g) := roundFc v fc sat rm
  (r, if isTapered fc then 0 else f ||| g)

/-- A code with every NaN of an IEEE format made canonical (R40): what a sum passed up untouched is written as (R61, R125). -/
def canonCode (fc code : Nat) : Nat := if isIeee fc && (decodeFc code fc).isNaN then canonNaN fc else code

/-! ### Accumulator rounding (R66, R159) -/

/-- A format's sign-extension into an x register (R100, R103): tapered codes are sign-extended, all others zero-extended. -/
def extendCode (fc code : Nat) : Nat := if isTapered fc then wrapN 64 (sInt (fmtWidth fc) code) else code

/-- acc_dec (R159) for the floating accumulator formats: AF 0 binary32, AF 1 T32. -/
def accDec (c af : Nat) : Val := if af = 0 then decodeIeee c 1 else decodeT c 5

/-- An operand value as an accumulator format reads it (R66): NaR as a NaN with NV into binary32, NaN and ∞ as NaR with NV into T32. -/
def accOperand (v : Val) (af : Nat) : Val × BitVec 5 :=
  if af = 0 then (match v with | .nar => (.nan false, fNV) | .nan true => (.nan false, fNV) | o => (o, 0))
  else (match v with | .nan _ | .inf _ => (.nar, fNV) | o => (o, 0))

/-- round_acc of acc + Σ s·aᵢ·bᵢ with one rounding (R63, R64, R65, R66), floating accumulators. -/
def accStep (af : Nat) (acc : Nat) (negate : Bool) (ps : List (Val × Val)) : Flagged Nat :=
  let prods := ps.map (fun (a, b) =>
    let (x, f1) := accOperand a af
    let (y, f2) := accOperand b af
    let (p, f3) := mulVals x y
    (if negate then p.neg else p, f1 ||| f2 ||| f3))
  let fl := prods.foldl (fun g p => g ||| p.2) (0 : BitVec 5)
  let (v, f) := sumVals 0 (accDec acc af :: prods.map (·.1))
  if af = 0 then
    let (c, g) := roundIeee v 1 0
    (c, fl ||| f ||| g)
  else (roundT v 5, fl &&& fNV)

/-- round_acc of one operand value (R167, R169), floating accumulators. -/
def accRound (af : Nat) (v : Val) : Flagged Nat :=
  let (x, f) := accOperand v af
  if af = 0 then
    let (c, g) := roundIeee x 1 0
    (c, f ||| g)
  else (roundT x 5, f &&& fNV)

end Sys2Proof.Machine
end

