-- ==== Sys2Proof/Machine/Mem.lean ====
section
/-! DEFINITION. The named operations over memory: reading and writing bytes, and poison by atoms of 32 bytes (R245, R381). -/

namespace Sys2Proof.Machine

/-- Canonical form: addresses strictly rising, and no entry equal to the zero that an unlisted byte reads as (log 3, DESIGN CHOICE); poisoned
atoms strictly rising. -/
def Memory.wf (m : Memory) : Bool :=
  decide (m.cells.Pairwise (fun p q => p.1 < q.1)) && m.cells.all (fun c => c.2 != 0) &&
    decide (m.poison.Pairwise (· < ·))

/-- The byte listed under a key. -/
def lookupCell (a : Nat) : List Host.Cell → Byte
  | [] => 0
  | (k, b) :: t => if k = a then b else lookupCell a t

/-- The read of one byte. -/
def Memory.byte (m : Memory) (a : Nat) : Byte := lookupCell a m.cells

/-- The read of n bytes from a. -/
def Memory.bytes (m : Memory) (a : Nat) : Nat → List Byte
  | 0 => []
  | n + 1 => m.byte a :: m.bytes (a + 1) n

/-- A little-endian read of n bytes (R6). -/
def Memory.read (m : Memory) (a n : Nat) : Nat := ofBytes (m.bytes a n)

/-- The cells of bytes placed from a, zeros left out. -/
def cellsOf (a : Nat) : List Byte → List Host.Cell
  | [] => []
  | b :: bs => if b = 0 then cellsOf (a + 1) bs else (a, b) :: cellsOf (a + 1) bs

/-- The cells below a, the new ones, and the cells at or above a + len. -/
def spliceCells (cells : List Host.Cell) (a : Nat) (bs : List Byte) : List Host.Cell :=
  cells.filter (fun c => c.1 < a) ++ cellsOf a bs ++ cells.filter (fun c => a + bs.length ≤ c.1)

/-- Atoms of [a, a + n) that the range covers whole lose their poison (R108, R381) (log 24, DEDUCED). -/
def clearPoison (ps : List Nat) (a n : Nat) : List Nat :=
  ps.filter (fun p => !(a ≤ 32 * p && 32 * p + 32 ≤ a + n))

/-- The write of bytes from a: an atom written whole loses its poison. -/
def Memory.writeBytes (m : Memory) (a : Nat) (bs : List Byte) : Memory :=
  { cells := spliceCells m.cells a bs, poison := clearPoison m.poison a bs.length }

/-- A little-endian write of the low n bytes of v. -/
def Memory.write (m : Memory) (a n v : Nat) : Memory := m.writeBytes a (toBytes n v)

/-- Zero the range [a, a + n) and clear its poison (R28, R236, R310). -/
def Memory.zero (m : Memory) (a n : Nat) : Memory :=
  { cells := m.cells.filter (fun c => !(a ≤ c.1 && c.1 < a + n)), poison := clearPoison m.poison a n }

/-- Some byte of [a, a + n) lies in a poisoned atom. -/
def Memory.poisoned (m : Memory) (a n : Nat) : Bool :=
  m.poison.any (fun p => a < 32 * p + 32 && 32 * p < a + n)

/-- The bytes of atom p all lie in some of the ranges. -/
def atomCovered (ranges : List (Nat × Nat)) (p : Nat) : Bool :=
  (upTo 32).all (fun i => ranges.any (fun r => r.1 ≤ 32 * p + i && 32 * p + i < r.1 + r.2))

/-- One access that wrote several ranges wrote the atoms whole that they cover together: these lose their poison (R108, R381). -/
def Memory.clearCovered (m : Memory) (ranges : List (Nat × Nat)) : Memory :=
  { m with poison := m.poison.filter (fun p => !atomCovered ranges p) }

/-- Insertion into a rising list. -/
def insertRising (p : Nat) : List Nat → List Nat
  | [] => [p]
  | q :: t => if p < q then p :: q :: t else if p = q then q :: t else q :: insertRising p t

/-- Poison one atom (R381). -/
def Memory.setPoison (m : Memory) (atom : Nat) : Memory := { m with poison := insertRising atom m.poison }

/-- Copy n bytes, a poisoned atom arriving poisoned (R321, R344, R381): every atom that takes bytes of it is poisoned. -/
def Memory.copy (m : Memory) (src dst n : Nat) : Memory :=
  let w := m.writeBytes dst (m.bytes src n)
  let ps := m.poison.filter (fun p => src < 32 * p + 32 && 32 * p < src + n)
  ps.foldl (fun acc p =>
    (acc.setPoison ((max src (32 * p) + dst - src) / 32)).setPoison ((min (src + n) (32 * p + 32) - 1 + dst - src) / 32)) w

end Sys2Proof.Machine
end

