-- ==== Sys2Proof/Machine/Topo.lean ====
section
/-! DEFINITION. The units of a module and their numbers (R1, R2, R19, R394, R396), and the accessors of cores, contexts and
tables. -/

namespace Sys2Proof.Machine

/-- The code of a cause (R324). -/
def Cause.code : Cause → Nat
  | .illine => 0x01
  | .illins => 0x02
  | .priv => 0x03
  | .migclass => 0x04
  | .brk => 0x05
  | .align => 0x06
  | .addrovf => 0x07
  | .fmtbad => 0x08
  | .prot => 0x09
  | .pgnp => 0x0A
  | .pgprot => 0x0B
  | .pghost => 0x0C
  | .mhraw => 0x0D
  | .mhref => 0x0E
  | .poison => 0x0F
  | .sysc => 0x11
  | .watchdog => 0x12
  | .preempt => 0x13
  | .gangbrk => 0x15
  | .qfault => 0x16
  | .msgfault => 0x17
  | .tokbad => 0x18
  | .cbfmt => 0x19
  | .spillfail => 0x1A
  | .remote => 0x1B

/-! ### Numbers (R1, R394) -/

/-- Compute dies of a class: the count of the module's grade. -/
def State.dieCount (s : State) (k : Cls) : Nat := s.cfg.grade.dies k

def State.controls (s : State) : Nat := 16 * s.dieCount .control
def State.vectors (s : State) : Nat := 128 * s.dieCount .vector
def State.tensors (s : State) : Nat := 128 * s.dieCount .tensor

/-- One more than the highest logical core number: M of R230. -/
def State.coreCount (s : State) : Nat := s.controls + s.vectors + s.tensors

/-- The class of a logical core: control, then vector, then tensor (R394). -/
def State.cls (s : State) (c : Nat) : Cls :=
  if c < s.controls then .control else if c < s.controls + s.vectors then .vector else .tensor

/-- The compute die of a core: 16 cores to a C-die, 128 to a V- or M-die, in die order (R1, R394). -/
def State.dieOf (s : State) (c : Nat) : Nat :=
  if c < s.controls then c / 16 else s.dieCount .control + (c - s.controls) / 128

/-- The site and the position of a compute die. -/
def State.place (s : State) (d : Nat) : Nat × Nat := (s.cfg.places[d]?).getD (0, 0)

def State.siteOf (s : State) (c : Nat) : Nat := (s.place (s.dieOf c)).1

/-- The full lanes of a die link, 1 to 255, and those that are live (R385, R395). -/
def fullLanes (link : Nat) : Nat := 1 + Config.linkLanes link % 255
def State.liveLanes (s : State) (link : Nat) : Nat := ((s.flash.linkDeg.find? (fun p => p.1 == link)).map (·.2)).getD (fullLanes link)

/-- Clusters of 16 and tiles of 4 consecutive cores (R1, R394). -/
def clusterOf (c : Nat) : Nat := c / 16
def tileOf (c : Nat) : Nat := c / 4

/-- Die boundaries between two sites of the ring (R396). -/
def boundaries (a b : Nat) : Nat := if a = b then 0 else if (a + b) % 2 = 0 then 2 else 1

/-- The latency class between two cores (R396). -/
def State.latencyClass (s : State) (c t : Nat) : Nat :=
  if s.dieOf c = s.dieOf t then 0 else 1 + boundaries (s.siteOf c) (s.siteOf t)

/-- CLASSCAP (R19). -/
def capOf : Cls → Nat
  | .control => 0x060F
  | .vector => 0x07B7
  | .tensor => 0x0651

/-- The class number of R32 and R193. -/
def clsCode : Cls → Nat
  | .control => 0
  | .vector => 1
  | .tensor => 2

/-- Scratchpad bytes by class (R234). -/
def spadSize : Cls → Nat
  | .control => 0x4_0000
  | .vector => 0xC_0000
  | .tensor => 0x20_0000

/-- Arrival-queue slots by class (R226). -/
def arrivalSlots : Cls → Nat
  | .control => 64
  | _ => 16

/-- The end of HBM4E (R245). -/
def State.hbmEnd (s : State) : Nat := match s.cfg.grade with
  | .k4g => 1021 * 0x3000_0000
  | _ => 1021 * 0x4000_0000

/-! ### Accessors -/

/-- A core; one that the table does not list is as after reset. -/
def State.core (s : State) (c : Nat) : Core := (kvGet c s.cores).getD Core.reset

def State.setCore (s : State) (c : Nat) (k : Core) : State := { s with cores := kvSet c k s.cores }

/-- A core changed in place. -/
def State.modCore (s : State) (c : Nat) (f : Core → Core) : State := s.setCore c (f (s.core c))

/-- Live in the enumeration table (R2, R395). -/
def State.live (s : State) (c : Nat) : Bool := c < s.coreCount && (s.core c).status == .live

def Core.ctx (k : Core) : CtxName → Ctx
  | .u => k.u
  | .a => k.a

def Core.setCtx (k : Core) (n : CtxName) (x : Ctx) : Core := match n with
  | .u => { k with u := x }
  | .a => { k with a := x }

/-- The core whose instruction executes. -/
def State.me (s : State) : Core := s.core s.cur

/-- The context whose instruction executes. -/
def State.cx (s : State) : Ctx := s.me.ctx s.curCtx

def State.setCx (s : State) (x : Ctx) : State := s.modCore s.cur (·.setCtx s.curCtx x)

def State.modCx (s : State) (f : Ctx → Ctx) : State := s.setCx (f s.cx)

def State.site (s : State) (i : Nat) : Site := s.sites[i % 4]'(Nat.mod_lt _ (by decide))

def State.modSite (s : State) (i : Nat) (f : Site → Site) : State :=
  { s with sites := s.sites.set (i % 4) (f (s.site i)) (Nat.mod_lt _ (by decide)) }

def State.port (s : State) (i : Nat) : Port := s.ports[i % 4]'(Nat.mod_lt _ (by decide))

def State.modPort (s : State) (i : Nat) (f : Port → Port) : State :=
  { s with ports := s.ports.set (i % 4) (f (s.port i)) (Nat.mod_lt _ (by decide)) }

def State.tile (s : State) (t : Nat) : Tile := (kvGet t s.tiles).getD Tile.reset
def State.modTile (s : State) (t : Nat) (f : Tile → Tile) : State := { s with tiles := kvSet t (f (s.tile t)) s.tiles }

def State.cluster (s : State) (k : Nat) : Cluster := (kvGet k s.clusters).getD Cluster.reset
def State.modCluster (s : State) (k : Nat) (f : Cluster → Cluster) : State :=
  { s with clusters := kvSet k (f (s.cluster k)) s.clusters }

def State.space (s : State) (asid : Nat) : Option Space := s.spaces.find? (fun p => p.asid == asid)
def State.modSpace (s : State) (asid : Nat) (f : Space → Space) : State :=
  { s with spaces := s.spaces.map (fun p => if p.asid = asid then f p else p) }

def State.strand (s : State) (asid sid : Nat) : Option Strand := s.strands.find? (fun p => p.asid == asid && p.sid == sid)
def State.modStrand (s : State) (asid sid : Nat) (f : Strand → Strand) : State :=
  { s with strands := s.strands.map (fun p => if p.asid = asid ∧ p.sid = sid then f p else p) }

def State.crew (s : State) (id : Nat) : Option Crew := s.crews.find? (fun p => p.id == id)
def State.modCrew (s : State) (id : Nat) (f : Crew → Crew) : State :=
  { s with crews := s.crews.map (fun p => if p.id = id then f p else p) }

def State.op (s : State) (id : Nat) : Option EngineOp := s.ops.find? (fun p => p.id == id)
def State.modOp (s : State) (id : Nat) (f : EngineOp → EngineOp) : State :=
  { s with ops := s.ops.map (fun p => if p.id = id then f p else p) }

/-- A fresh value that the spec leaves open (log 21, DESIGN CHOICE), and the state with the counter advanced. -/
def State.freshWord (s : State) : Word × State := (Config.freeWord s.free, { s with free := s.free + 1 })

/-- A fresh number for an operation, flight, move or crew. -/
def State.freshId (s : State) : Nat × State := (s.nextId, { s with nextId := s.nextId + 1 })

/-! ### Registers (R11, R14) -/

/-- x[r]: x0 reads as zero (R11). -/
def Ctx.getX (k : Ctx) (r : BitVec 5) : Word := if r = 0 then 0 else k.x[r.toNat]'r.isLt

/-- x[r] := v: a write to x0 is discarded (R11). -/
def Ctx.setX (k : Ctx) (r : BitVec 5) (v : Word) : Ctx := if r = 0 then k else { k with x := k.x.set r.toNat v r.isLt }

def Ctx.getQ (k : Ctx) (r : BitVec 5) : Word := k.q[r.toNat % 16]'(Nat.mod_lt _ (by decide))
def Ctx.setQ (k : Ctx) (r : BitVec 5) (v : Word) : Ctx :=
  { k with q := k.q.set (r.toNat % 16) v (Nat.mod_lt _ (by decide)) }

def State.getX (s : State) (r : BitVec 5) : Word := s.cx.getX r
def State.setX (s : State) (r : BitVec 5) (v : Word) : State := s.setCx (s.cx.setX r v)

/-- zext(x[r][55:0], 56) (R105). -/
def State.addr (s : State) (r : BitVec 5) : Nat := (s.getX r).toNat % 2 ^ 56

def Ctx.pcNat (k : Ctx) : Nat := k.pc.toNat

/-! ### VTYPE (R25) and vector lengths (R12, R76, R130) -/

def vtEw (t : BitVec 16) : Nat := bitsOf t.toNat 5 3
def vtEf (t : BitVec 16) : Nat := bitsOf t.toNat 0 5
def vtBl (t : BitVec 16) : Nat := bitsOf t.toNat 8 3
def vtVrm (t : BitVec 16) : Nat := bitsOf t.toNat 11 3

/-- Element width in bits of EW 1 to 4; 0 for dead vector state. -/
def ewBits : Nat → Nat
  | 1 => 8
  | 2 => 16
  | 3 => 32
  | 4 => 64
  | _ => 0

/-- Cores whose registers the core pools (R141). -/
def Core.gangSize (k : Core) : Nat := match k.gang with
  | .leader n => n
  | _ => 1

/-- VLMAXB (R21, R382): zero on a control core, else 512 bytes, or 480 once remapped, for each core of the gang. -/
def State.vlmaxb (s : State) (c : Nat) : Nat :=
  if s.cls c = .control then 0
  else ((if (s.core c).remapped then 480 else 512) * (s.core c).gangSize)

/-- VLMAX at a width (R130). -/
def State.vlmaxAt (s : State) (c w : Nat) : Nat := if w = 0 then 0 else s.vlmaxb c * 8 / w

/-- A length cut to whole blocks when BL ≠ 0 (R76). -/
def cutBlocks (t : BitVec 16) (n : Nat) : Nat :=
  if vtBl t = 0 then n else n / 2 ^ (vtBl t + 2) * 2 ^ (vtBl t + 2)

/-- The V or M registers' context is U's in both contexts (R17); its VTYPE says whether vector state lives (R12, R224). -/
def State.vtype (s : State) : BitVec 16 := s.cx.vtype

/-- vl_of(L) at a width (R76). -/
def State.vlOfAt (s : State) (l : BitVec 5) (w : Nat) : Nat :=
  let vm := s.vlmaxAt s.cur w
  cutBlocks s.vtype (if l = 0 then vm else min (s.getX l).toNat vm)

def State.vlOf (s : State) (l : BitVec 5) : Nat := s.vlOfAt l (ewBits (vtEw s.vtype))

/-! ### Strand identity -/

def Ctx.sid (k : Ctx) : Nat := k.strandId.toNat
def Ctx.as (k : Ctx) : Nat := k.asid.toNat

/-- The strand table's entry for the issuing context. -/
def State.myStrand (s : State) : Option Strand := s.strand s.cx.as s.cx.sid

/-- HEAPPHASE (R339): the colour of the context's ASID; the core keeps a copy of that of its U occupant. -/
def State.phase (s : State) : Bool :=
  if s.curCtx == .u || s.cx.asid == s.me.u.asid then s.me.heapphase else ((s.space s.cx.as).map (·.colour)).getD false

end Sys2Proof.Machine
end

