-- ==== Sys2Proof/Machine/Accum.lean ====
section
/-! DEFINITION. The matrix unit beside its instructions: element access, formats, accumulators, and what the short entries of MQ do (R12,
R13, R15, R155 to R160, R164, R167, R168, R170). -/

namespace Sys2Proof.Machine

/-! ### Elements and MSTART -/

/-- Bit i of mask register r. -/
def Core.mBit (k : Core) (r : Nat) (i : Nat) : Bool := (k.m[r % 12]'(Nat.mod_lt _ (by decide))).getLsbD i

/-- Element i of width w of vector register r (R12). -/
def Core.vElem (k : Core) (r w i : Nat) : Nat := ((k.v[r % 32]'(Nat.mod_lt _ (by decide))).extractLsb' (i * w) w).toNat

/-- A long instruction's restart state in MSTART (R164). -/
def mstartPend (m : Word) : Bool := bitOf m.toNat 63
def mstartKind (m : Word) : Nat := bitsOf m.toNat 61 2
def mstartAcc (m : Word) : Nat := bitsOf m.toNat 59 2
def mstartNext (m : Word) : Nat := m.toNat % 2 ^ 32

/-! ### Formats (R157 to R159) -/

/-- The fields of F16: operand format, accumulator format, operand width, and the option bits. -/
structure MFmt where
  of : Nat
  af : Nat
  w : Nat
  uns : Bool
  sat : Bool
  mc : Bool
  subt : Bool
deriving DecidableEq, Repr

def mfmt (f16 : BitVec 16) : MFmt :=
  let f := f16.toNat
  let of := bitsOf f 2 5
  { of, af := f % 4, w := if of = 0 then 8 * 2 ^ bitsOf f 12 2 else fmtWidth of, uns := bitOf f 8, sat := bitOf f 9, mc := bitOf f 10,
    subt := bitOf f 11 }

/-- The format code of an accumulator format (R159). -/
def afFc (af : Nat) : Nat := if af = 0 then 1 else 5

/-- An integer operand (R159). -/
def MFmt.opInt (m : MFmt) (c : Nat) : Int := if m.uns then (c % 2 ^ m.w : Nat) else sInt m.w c

/-- round_acc of the element plus or minus the exact sum of products (R63 to R66, R168). -/
def MFmt.mac (m : MFmt) (old : Nat) (negate : Bool) (ps : List (Nat × Nat)) : Flagged Nat :=
  if m.af = 2 then
    let p := (ps.map (fun (a, b) => m.opInt a * m.opInt b)).sum
    (wrapN 32 (if negate then sInt 32 old - p else sInt 32 old + p), 0)
  else accStep m.af old negate (ps.map (fun (a, b) => (decodeFc a m.of, decodeFc b m.of)))

/-- round_acc of one operand (R167). -/
def MFmt.load (m : MFmt) (c : Nat) : Flagged Nat :=
  if m.af = 2 then (wrapN 32 (m.opInt c), 0) else accRound m.af (decodeFc c m.of)

/-- An accumulator element converted for MRD (R166): int32 wraps or saturates into a narrower integer and is unchanged in 32 bits (log 20, DEDUCED),
floating formats convert under R57. SAT = 1 says nothing of a target that is neither binary8 nor an integer, and is not refused for it (log 67,
DEDUCED). -/
def MFmt.read (m : MFmt) (rm c : Nat) : Flagged Nat :=
  if m.af = 2 then
    let v := sInt 32 c
    (wrapN m.w (if m.sat && m.w < 32 then (if m.uns then satU m.w v else satS m.w v) else v), 0)
  else if afFc m.af = m.of && isTapered m.of then (c, 0)
  else convertFc c (afFc m.af) m.of m.sat rm

/-! ### Accumulators -/

/-- Element (r, j). -/
def accWord (a : BitVec 131072) (r j : Nat) : Nat := (a.extractLsb' ((64 * r + j) * 32) 32).toNat

/-- Words joined, the first lowest. -/
def joinWords (ws : List Nat) : Nat := ws.foldr (fun c acc => c % 2 ^ 32 + 2 ^ 32 * acc) 0

/-- Every element replaced by f of its row, column and old value; flags collected. -/
def accAll (a : BitVec 131072) (f : Nat → Nat → Nat → Flagged Nat) : BitVec 131072 × BitVec 5 :=
  let l := (upTo 64).flatMap (fun i => (upTo 64).map (fun j => f i j (accWord a i j)))
  (BitVec.ofNat _ (joinWords (l.map (·.1))), l.foldl (fun g c => g ||| c.2) 0)

/-- Row r replaced likewise. -/
def accRow (a : BitVec 131072) (r : Nat) (f : Nat → Nat → Flagged Nat) : BitVec 131072 × BitVec 5 :=
  let l := (upTo 64).map (fun j => f j (accWord a r j))
  (BitVec.ofNat _ (setBits a.toNat (2048 * r) 2048 (joinWords (l.map (·.1)))), l.foldl (fun g c => g ||| c.2) 0)

def Core.acc (k : Core) (d : Nat) : BitVec 131072 := k.ac[d % 4]'(Nat.mod_lt _ (by decide))

/-- ac[d] written over elements lo to lo + n - 1: it is live, and they hold no poison. -/
def Core.setAcc (k : Core) (d lo n : Nat) (a : BitVec 131072) : Core :=
  { k with ac := k.ac.set (d % 4) a (Nat.mod_lt _ (by decide)), acLive := k.acLive ||| (1#4 <<< (d % 4)),
           regPoison := k.regPoison.filter (fun p => !(p.1 == 2 && p.2.1 == d && lo ≤ p.2.2 && p.2.2 < lo + n)) }

/-- The end of liveness (R15, R170). -/
def Core.dropAcc (k : Core) (d : Nat) : Core :=
  { k with ac := k.ac.set (d % 4) 0 (Nat.mod_lt _ (by decide)), acLive := k.acLive &&& ~~~(1#4 <<< (d % 4)),
           regPoison := k.regPoison.filter (fun p => !(p.1 == 2 && p.2.1 == d)) }

/-- The lowest poisoned element of ac[d] in elements lo to lo + n - 1. -/
def Core.accPoison (k : Core) (d lo n : Nat) : Option Nat :=
  if k.regPoison.isEmpty then none
  else (upTo n).find? (fun j => k.regPoison.any (fun p => p.1 == 2 && p.2.1 == d && p.2.2 == lo + j))

/-- The accumulator owned by a long instruction. -/
def Core.owns (k : Core) (d : Nat) : Bool := (k.long.map (fun l => l.acc == d)).getD false

/-! ### MATRIX_ENTRY_EXECUTE -/

/-- The product pairs of element (i, j) of a rank-one step (R160). -/
def rankPairs (m : MFmt) (a b : Nat → Nat) (i j : Nat) : List (Nat × Nat) :=
  if m.w = 8 then [(a (2 * i), b (2 * j)), (a (2 * i + 1), b (2 * j + 1))] else [(a i, b j)]

/-- One rank-one step. -/
def Core.rankStep (k : Core) (d : Nat) (m : MFmt) (negate : Bool) (a b : Nat → Nat) : Core × BitVec 5 :=
  let r := accAll (k.acc d) (fun i j old => m.mac old negate (rankPairs m a b i j))
  (k.setAcc d 0 4096 r.1, r.2)

/-- What a short entry does; none while it waits for an accumulator's owner (R156). -/
def shortEntry (k : Core) (e : MEntry) : Option (Core × BitVec 5) :=
  let el (m : MFmt) (r : BitVec 5) (i : Nat) := k.vElem r.toNat m.w i
  match e.instr with
  | .ranka o => let m := mfmt o.f16; some (k.rankStep o.d.toNat m false (el m o.a) (el m o.b))
  | .ranks o => let m := mfmt o.f16; some (k.rankStep o.d.toNat m true (el m o.a) (el m o.b))
  | .mzero o => some (k.setAcc o.d.toNat 0 4096 0, 0)
  | .mwr o =>
    let m := mfmt o.f16
    let r := e.op1.toNat % 64
    let x := accRow (k.acc o.d.toNat) r (fun j _ => m.load (el m o.a j))
    some (k.setAcc o.d.toNat (64 * r) 64 x.1, x.2)
  | .mrowacc o =>
    let m := mfmt o.f16
    let r := e.op1.toNat % 64
    let x := accRow (k.acc o.d.toNat) r (fun j old => m.mac old m.subt [(e.op2.toNat % 2 ^ m.w, el m o.a j)])
    some (k.setAcc o.d.toNat (64 * r) 64 x.1, x.2)
  | .mdrop o =>
    let d := o.d.toNat % 4
    if k.owns d then none
    else
      let k1 := k.dropAcc d
      some (if mstartPend k.u.mstart && mstartAcc k.u.mstart == d then { k1 with u := { k1.u with mstart := 0 } } else k1, 0)
  | _ => some (k, 0)

/-- The oldest short entry executes and completes (R155) (log 42, DEDUCED). -/
def matrixEntry (c : Nat) (s : State) : State :=
  let k := s.core c
  match k.mq with
  | [] => s
  | e :: t =>
    match shortEntry k e with
    | none => s
    | some (k1, f) =>
      let x := k1.ctx e.ctx
      s.setCore c ({ k1 with mq := t, residue := 0 }.setCtx e.ctx { x with fflags := x.fflags ||| f })

/-- Every short entry in MQ completes, oldest first (R155 rule 4); `fuel` bounds them, MQ having 8 entries. -/
def State.finishMq (s : State) (c : Nat) : Nat → State
  | 0 => s
  | fuel + 1 => if (s.core c).mq.isEmpty then s else (matrixEntry c s).finishMq c fuel

end Sys2Proof.Machine
end

