-- ==== Sys2Proof/Decode.lean ====
section
/-! DEFINITION. The decoder of Ataith, total on every head and tail (R68 to R75, R78, R80, R81), and the encoder written from the
same tables. -/

namespace Sys2Proof

open Sys2Proof.Machine (Ill illForm)

/-! ### Tail layouts (R72) -/

def unpackH (d : BitVec 5) (t : BitVec 64) : LH :=
  { d, f := t.extractLsb' 10 6, b := t.extractLsb' 5 5, a := t.extractLsb' 0 5 }

def unpackI16 (d : BitVec 5) (t : BitVec 64) : LI16 := { d, imm := t.extractLsb' 0 16 }

def unpackI32 (d : BitVec 5) (t : BitVec 64) : LI32 := { d, imm := t.extractLsb' 0 32 }

def unpackW (d : BitVec 5) (t : BitVec 64) : LW :=
  { d, f := t.extractLsb' 25 7, sc := t.extractLsb' 22 3, oc := t.extractLsb' 18 4, cC := t.extractLsb' 17 1,
    cB := t.extractLsb' 16 1, cA := t.extractLsb' 15 1, c := t.extractLsb' 10 5, b := t.extractLsb' 5 5,
    a := t.extractLsb' 0 5 }

def unpackWI (d : BitVec 5) (t : BitVec 64) : LWI := { d, imm := t.extractLsb' 5 27, a := t.extractLsb' 0 5 }

def unpackM (d : BitVec 5) (t : BitVec 64) : LM :=
  { d, imm := t.extractLsb' 12 20, sc := t.extractLsb' 9 3, oc := t.extractLsb' 5 4, a := t.extractLsb' 0 5 }

def unpackB (d : BitVec 5) (t : BitVec 64) : LB :=
  { d, imm := t.extractLsb' 10 22, t := t.extractLsb' 5 5, b := t.extractLsb' 0 5 }

def unpackV (d : BitVec 5) (t : BitVec 64) : LV :=
  { d, f := t.extractLsb' 25 7, z := t.extractLsb' 21 4, msk := t.extractLsb' 17 4, cB := t.extractLsb' 16 1,
    cA := t.extractLsb' 15 1, l := t.extractLsb' 10 5, b := t.extractLsb' 5 5, a := t.extractLsb' 0 5 }

def unpackXI (d : BitVec 5) (t : BitVec 64) : LXI := { d, imm := t.extractLsb' 5 59, a := t.extractLsb' 0 5 }

def unpack64 (d : BitVec 5) (t : BitVec 64) : L64 := { d, imm := t }

def unpackX (d : BitVec 5) (t : BitVec 64) : LX :=
  { d, f16 := t.extractLsb' 48 16, imm := t.extractLsb' 34 14, sc := t.extractLsb' 31 3, oc := t.extractLsb' 27 4,
    msk := t.extractLsb' 23 4, cC := t.extractLsb' 22 1, cB := t.extractLsb' 21 1, cA := t.extractLsb' 20 1,
    l := t.extractLsb' 15 5, c := t.extractLsb' 10 5, b := t.extractLsb' 5 5, a := t.extractLsb' 0 5 }

/-! ### The TL each layout needs (R72, R73); any other is ILLINS with reason 2 -/

/-- An instruction without fields: TL 0, and D a zero field (R72, R73). -/
def k0 (tl : Nat) (d : BitVec 5) (i : Instr) : Except Ill Instr :=
  if tl = 0 then (if d = 0 then .ok i else .error .field) else .error .tail

def kN (tl : Nat) (d : BitVec 5) (_t : BitVec 64) (k : LN → Instr) : Except Ill Instr :=
  if tl = 0 then .ok (k { d }) else .error .tail

def kH (tl : Nat) (d : BitVec 5) (t : BitVec 64) (k : LH → Instr) : Except Ill Instr :=
  if tl = 1 then .ok (k (unpackH d t)) else .error .tail

def kI16 (tl : Nat) (d : BitVec 5) (t : BitVec 64) (k : LI16 → Instr) : Except Ill Instr :=
  if tl = 1 then .ok (k (unpackI16 d t)) else .error .tail

def kI32 (tl : Nat) (d : BitVec 5) (t : BitVec 64) (k : LI32 → Instr) : Except Ill Instr :=
  if tl = 2 then .ok (k (unpackI32 d t)) else .error .tail

def kW (tl : Nat) (d : BitVec 5) (t : BitVec 64) (k : LW → Instr) : Except Ill Instr :=
  if tl = 2 then .ok (k (unpackW d t)) else .error .tail

def kWI (tl : Nat) (d : BitVec 5) (t : BitVec 64) (k : LWI → Instr) : Except Ill Instr :=
  if tl = 2 then .ok (k (unpackWI d t)) else .error .tail

def kM (tl : Nat) (d : BitVec 5) (t : BitVec 64) (k : LM → Instr) : Except Ill Instr :=
  if tl = 2 then .ok (k (unpackM d t)) else .error .tail

def kB (tl : Nat) (d : BitVec 5) (t : BitVec 64) (k : LB → Instr) : Except Ill Instr :=
  if tl = 2 then .ok (k (unpackB d t)) else .error .tail

def kV (tl : Nat) (d : BitVec 5) (t : BitVec 64) (k : LV → Instr) : Except Ill Instr :=
  if tl = 2 then .ok (k (unpackV d t)) else .error .tail

def kXI (tl : Nat) (d : BitVec 5) (t : BitVec 64) (k : LXI → Instr) : Except Ill Instr :=
  if tl = 3 then .ok (k (unpackXI d t)) else .error .tail

def k64 (tl : Nat) (d : BitVec 5) (t : BitVec 64) (k : L64 → Instr) : Except Ill Instr :=
  if tl = 3 then .ok (k (unpack64 d t)) else .error .tail

def kX (tl : Nat) (d : BitVec 5) (t : BitVec 64) (k : LX → Instr) : Except Ill Instr :=
  if tl = 3 then .ok (k (unpackX d t)) else .error .tail

/-- Major 00 of the opcode map (R81): SUB and TL name the instruction and its layout. -/
def decodeMajor00 (d : BitVec 5) (tl sub : Nat) (t : BitVec 64) : Except Ill Instr :=
  match sub with
  | 0 => k0 tl d .nop
  | 1 => kI16 tl d t .brk
  | _ => .error .unlisted

/-- Major 01 of the opcode map (R81): SUB and TL name the instruction and its layout. -/
def decodeMajor01 (d : BitVec 5) (tl sub : Nat) (t : BitVec 64) : Except Ill Instr :=
  match sub with
  | 0 => kH tl d t .add
  | 1 => kH tl d t .sub
  | 2 => kH tl d t .and
  | 3 => kH tl d t .or
  | 4 => kH tl d t .xor
  | 5 => kH tl d t .andn
  | 6 => kH tl d t .orn
  | 7 => kH tl d t .xnor
  | _ => .error .unlisted

/-- Major 02 of the opcode map (R81): SUB and TL name the instruction and its layout. -/
def decodeMajor02 (d : BitVec 5) (tl sub : Nat) (t : BitVec 64) : Except Ill Instr :=
  match sub with
  | 0 => kH tl d t .sll
  | 1 => kH tl d t .srl
  | 2 => kH tl d t .sra
  | 3 => kH tl d t .rol
  | 4 => kH tl d t .ror
  | 5 => kH tl d t .slt
  | 6 => kH tl d t .sltu
  | 7 => kH tl d t .seq
  | _ => .error .unlisted

/-- Major 03 of the opcode map (R81): SUB and TL name the instruction and its layout. -/
def decodeMajor03 (d : BitVec 5) (tl sub : Nat) (t : BitVec 64) : Except Ill Instr :=
  match sub with
  | 0 => kH tl d t .min
  | 1 => kH tl d t .max
  | 2 => kH tl d t .minu
  | 3 => kH tl d t .maxu
  | 4 => kH tl d t .mul
  | 5 => kH tl d t .mulh
  | 6 => kH tl d t .mulhu
  | 7 => kH tl d t .mulhsu
  | _ => .error .unlisted

/-- Major 04 of the opcode map (R81): SUB and TL name the instruction and its layout. -/
def decodeMajor04 (d : BitVec 5) (tl sub : Nat) (t : BitVec 64) : Except Ill Instr :=
  match sub with
  | 0 => kH tl d t .div
  | 1 => kH tl d t .divu
  | 2 => kH tl d t .rem
  | 3 => kH tl d t .remu
  | 4 => kH tl d t .clz
  | 5 => kH tl d t .ctz
  | 6 => kH tl d t .popc
  | 7 => kH tl d t .bswap
  | _ => .error .unlisted

/-- Major 05 of the opcode map (R81): SUB and TL name the instruction and its layout. -/
def decodeMajor05 (d : BitVec 5) (tl sub : Nat) (t : BitVec 64) : Except Ill Instr :=
  match sub with
  | 0 => kH tl d t .sext
  | 1 => kH tl d t .zext
  | 2 => kH tl d t .addw
  | 3 => kH tl d t .subw
  | 4 => kH tl d t .mulw
  | 5 => kH tl d t .cmovz
  | 6 => kH tl d t .cmovnz
  | _ => .error .unlisted

/-- Major 08 of the opcode map (R81): SUB and TL name the instruction and its layout. -/
def decodeMajor08 (d : BitVec 5) (tl sub : Nat) (t : BitVec 64) : Except Ill Instr :=
  match sub with
  | 0 => match tl with
    | 1 => kI16 tl d t .addiI16
    | 2 => kWI tl d t .addiWi
    | 3 => kXI tl d t .addiXi
    | _ => .error .tail
  | 1 => match tl with
    | 1 => kI16 tl d t .andiI16
    | 2 => kWI tl d t .andiWi
    | 3 => kXI tl d t .andiXi
    | _ => .error .tail
  | 2 => match tl with
    | 1 => kI16 tl d t .oriI16
    | 2 => kWI tl d t .oriWi
    | 3 => kXI tl d t .oriXi
    | _ => .error .tail
  | 3 => match tl with
    | 1 => kI16 tl d t .xoriI16
    | 2 => kWI tl d t .xoriWi
    | 3 => kXI tl d t .xoriXi
    | _ => .error .tail
  | 4 => match tl with
    | 1 => kI16 tl d t .sltiI16
    | 2 => kWI tl d t .sltiWi
    | 3 => kXI tl d t .sltiXi
    | _ => .error .tail
  | 5 => match tl with
    | 1 => kI16 tl d t .sltiuI16
    | 2 => kWI tl d t .sltiuWi
    | 3 => kXI tl d t .sltiuXi
    | _ => .error .tail
  | 6 => match tl with
    | 1 => kI16 tl d t .shiI16
    | 2 => kWI tl d t .shiWi
    | 3 => kXI tl d t .shiXi
    | _ => .error .tail
  | 7 => match tl with
    | 1 => kI16 tl d t .muliI16
    | 2 => kWI tl d t .muliWi
    | 3 => kXI tl d t .muliXi
    | _ => .error .tail
  | _ => .error .unlisted

/-- Major 0C of the opcode map (R81): SUB and TL name the instruction and its layout. -/
def decodeMajor0C (d : BitVec 5) (tl sub : Nat) (t : BitVec 64) : Except Ill Instr :=
  match sub with
  | 0 => kH tl d t .adda
  | 1 => match tl with
    | 2 => kWI tl d t .addiaWi
    | 3 => kXI tl d t .addiaXi
    | _ => .error .tail
  | 2 => kH tl d t .scalea
  | 3 => kI16 tl d t .pfmt
  | 4 => kH tl d t .gfmt
  | 5 => kH tl d t .clrfmt
  | 6 => kH tl d t .suba
  | _ => .error .unlisted

/-- Major 0E of the opcode map (R81): SUB and TL name the instruction and its layout. -/
def decodeMajor0E (d : BitVec 5) (tl sub : Nat) (t : BitVec 64) : Except Ill Instr :=
  match sub with
  | 0 => match tl with
    | 1 => kI16 tl d t .liI16
    | 2 => kI32 tl d t .liI32
    | 3 => k64 tl d t .liL64
    | _ => .error .tail
  | 1 => kWI tl d t .lpc
  | 2 => kH tl d t .mov
  | _ => .error .unlisted

/-- Major 0F of the opcode map (R81): SUB and TL name the instruction and its layout. -/
def decodeMajor0F (d : BitVec 5) (tl sub : Nat) (t : BitVec 64) : Except Ill Instr :=
  match sub with
  | 0 => kI16 tl d t .csrr
  | 1 => kI16 tl d t .csrw
  | 2 => kI16 tl d t .csrs
  | 3 => kI16 tl d t .csrc
  | 4 => kI16 tl d t .csrx
  | _ => .error .unlisted

/-- Major 10 of the opcode map (R81): SUB and TL name the instruction and its layout. -/
def decodeMajor10 (d : BitVec 5) (tl sub : Nat) (t : BitVec 64) : Except Ill Instr :=
  match sub with
  | 0 => kWI tl d t .j
  | 1 => kWI tl d t .jal
  | 2 => kH tl d t .jalr
  | _ => .error .unlisted

/-- Major 11 of the opcode map (R81): SUB and TL name the instruction and its layout. -/
def decodeMajor11 (d : BitVec 5) (tl sub : Nat) (t : BitVec 64) : Except Ill Instr :=
  match sub with
  | 0 => kB tl d t .beq
  | 1 => kB tl d t .bne
  | 2 => kB tl d t .blt
  | 3 => kB tl d t .bge
  | 4 => kB tl d t .bltu
  | 5 => kB tl d t .bgeu
  | 6 => kB tl d t .bms
  | 7 => kB tl d t .bmc
  | _ => .error .unlisted

/-- Major 14 of the opcode map (R81): SUB and TL name the instruction and its layout. -/
def decodeMajor14 (d : BitVec 5) (tl sub : Nat) (t : BitVec 64) : Except Ill Instr :=
  match sub with
  | 0 => kM tl d t .ldb
  | 1 => kM tl d t .ldbu
  | 2 => kM tl d t .ldh
  | 3 => kM tl d t .ldhu
  | 4 => kM tl d t .ldw
  | 5 => kM tl d t .ldwu
  | 6 => kM tl d t .ldd
  | 7 => kM tl d t .ldaq
  | _ => .error .unlisted

/-- Major 15 of the opcode map (R81): SUB and TL name the instruction and its layout. -/
def decodeMajor15 (d : BitVec 5) (tl sub : Nat) (t : BitVec 64) : Except Ill Instr :=
  match sub with
  | 0 => kM tl d t .stb
  | 1 => kM tl d t .sth
  | 2 => kM tl d t .stw
  | 3 => kM tl d t .std
  | 4 => kM tl d t .strl
  | 5 => kM tl d t .strlw
  | 6 => kM tl d t .ldaqw
  | 7 => kM tl d t .mstd
  | _ => .error .unlisted

/-- Major 16 of the opcode map (R81): SUB and TL name the instruction and its layout. -/
def decodeMajor16 (d : BitVec 5) (tl sub : Nat) (t : BitVec 64) : Except Ill Instr :=
  match sub with
  | 0 => kW tl d t .amo
  | 1 => kW tl d t .cas
  | 2 => kI16 tl d t .fence
  | 3 => kM tl d t .pflush
  | 4 => k0 tl d .psync
  | 5 => kM tl d t .clwb
  | _ => .error .unlisted

/-- Major 18 of the opcode map (R81): SUB and TL name the instruction and its layout. -/
def decodeMajor18 (d : BitVec 5) (tl sub : Nat) (t : BitVec 64) : Except Ill Instr :=
  match sub with
  | 0 => kX tl d t .acopy
  | 1 => kX tl d t .acopy2d
  | 2 => kX tl d t .agather
  | 3 => kX tl d t .acoll
  | 4 => kX tl d t .glaze
  | 5 => kX tl d t .wbind
  | 6 => kX tl d t .wread
  | 7 => kX tl d t .acancel
  | _ => .error .unlisted

/-- Major 1C of the opcode map (R81): SUB and TL name the instruction and its layout. -/
def decodeMajor1C (d : BitVec 5) (tl sub : Nat) (t : BitVec 64) : Except Ill Instr :=
  match sub with
  | 0 => kH tl d t .fadd
  | 1 => kH tl d t .fsub
  | 2 => kH tl d t .fmul
  | 3 => kH tl d t .fdiv
  | 4 => kH tl d t .fsqrt
  | 5 => kH tl d t .fmin
  | 6 => kH tl d t .fmax
  | 7 => kH tl d t .fcmp
  | _ => .error .unlisted

/-- Major 1D of the opcode map (R81): SUB and TL name the instruction and its layout. -/
def decodeMajor1D (d : BitVec 5) (tl sub : Nat) (t : BitVec 64) : Except Ill Instr :=
  match sub with
  | 0 => kW tl d t .fma
  | 1 => kH tl d t .fcvt
  | 2 => kH tl d t .fclass
  | _ => .error .unlisted

/-- Major 20 of the opcode map (R81): SUB and TL name the instruction and its layout. -/
def decodeMajor20 (d : BitVec 5) (tl sub : Nat) (t : BitVec 64) : Except Ill Instr :=
  match sub with
  | 0 => kH tl d t .setvl
  | 1 => kI16 tl d t .vsett
  | 2 => kH tl d t .vsettx
  | 3 => kI16 tl d t .slip
  | 4 => k0 tl d .qsync
  | 5 => kH tl d t .gang
  | 6 => k0 tl d .ungang
  | _ => .error .unlisted

/-- Major 21 of the opcode map (R81): SUB and TL name the instruction and its layout. -/
def decodeMajor21 (d : BitVec 5) (tl sub : Nat) (t : BitVec 64) : Except Ill Instr :=
  match sub with
  | 0 => kV tl d t .vadd
  | 1 => kV tl d t .vsub
  | 2 => kV tl d t .vand
  | 3 => kV tl d t .vor
  | 4 => kV tl d t .vxor
  | 5 => kV tl d t .vsll
  | 6 => kV tl d t .vsrl
  | 7 => kV tl d t .vsra
  | _ => .error .unlisted

/-- Major 22 of the opcode map (R81): SUB and TL name the instruction and its layout. -/
def decodeMajor22 (d : BitVec 5) (tl sub : Nat) (t : BitVec 64) : Except Ill Instr :=
  match sub with
  | 0 => kV tl d t .vmul
  | 1 => kV tl d t .vmulh
  | 2 => kV tl d t .vmin
  | 3 => kV tl d t .vmax
  | 4 => kV tl d t .vsadd
  | 5 => kV tl d t .vssub
  | 6 => kV tl d t .vcmp
  | 7 => kV tl d t .vmerge
  | _ => .error .unlisted

/-- Major 23 of the opcode map (R81): SUB and TL name the instruction and its layout. -/
def decodeMajor23 (d : BitVec 5) (tl sub : Nat) (t : BitVec 64) : Except Ill Instr :=
  match sub with
  | 0 => kV tl d t .vfadd
  | 1 => kV tl d t .vfsub
  | 2 => kV tl d t .vfmul
  | 3 => kV tl d t .vfdiv
  | 4 => kV tl d t .vfmin
  | 5 => kV tl d t .vfmax
  | 6 => kV tl d t .vfcmp
  | 7 => kV tl d t .vfsqrt
  | _ => .error .unlisted

/-- Major 24 of the opcode map (R81): SUB and TL name the instruction and its layout. -/
def decodeMajor24 (d : BitVec 5) (tl sub : Nat) (t : BitVec 64) : Except Ill Instr :=
  match sub with
  | 0 => kX tl d t .vfma
  | 1 => kX tl d t .vfnma
  | 2 => kX tl d t .vfcvt
  | 3 => kX tl d t .vfclass
  | 4 => kX tl d t .vfscale
  | 5 => kX tl d t .vfsgn
  | _ => .error .unlisted

/-- Major 25 of the opcode map (R81): SUB and TL name the instruction and its layout. -/
def decodeMajor25 (d : BitVec 5) (tl sub : Nat) (t : BitVec 64) : Except Ill Instr :=
  match sub with
  | 0 => kV tl d t .vredsum
  | 1 => kV tl d t .vfredsum
  | 2 => kV tl d t .vredmax
  | 3 => kV tl d t .vfredmax
  | 4 => kV tl d t .vslide
  | 5 => kV tl d t .vperm
  | 6 => kV tl d t .vcompress
  | 7 => kV tl d t .vexpand
  | _ => .error .unlisted

/-- Major 26 of the opcode map (R81): SUB and TL name the instruction and its layout. -/
def decodeMajor26 (d : BitVec 5) (tl sub : Nat) (t : BitVec 64) : Except Ill Instr :=
  match sub with
  | 0 => kV tl d t .vmovx
  | 1 => kV tl d t .vins
  | 2 => kV tl d t .vsplat
  | 3 => kV tl d t .viota
  | 4 => kV tl d t .vmov
  | _ => .error .unlisted

/-- Major 27 of the opcode map (R81): SUB and TL name the instruction and its layout. -/
def decodeMajor27 (d : BitVec 5) (tl sub : Nat) (t : BitVec 64) : Except Ill Instr :=
  match sub with
  | 0 => kH tl d t .mand
  | 1 => kH tl d t .mor
  | 2 => kH tl d t .mxor
  | 3 => kH tl d t .mandn
  | 4 => kH tl d t .mnot
  | 5 => kH tl d t .mpop
  | 6 => kH tl d t .mfirst
  | 7 => kH tl d t .msbf
  | _ => .error .unlisted

/-- Major 28 of the opcode map (R81): SUB and TL name the instruction and its layout. -/
def decodeMajor28 (d : BitVec 5) (tl sub : Nat) (t : BitVec 64) : Except Ill Instr :=
  match sub with
  | 0 => kX tl d t .vld
  | 1 => kX tl d t .vldx
  | 2 => kX tl d t .vst
  | 3 => kX tl d t .vstx
  | 4 => kX tl d t .vlds
  | 5 => kX tl d t .vsts
  | 6 => kX tl d t .mld
  | 7 => kX tl d t .mst
  | _ => .error .unlisted

/-- Major 29 of the opcode map (R81): SUB and TL name the instruction and its layout. -/
def decodeMajor29 (d : BitVec 5) (tl sub : Nat) (t : BitVec 64) : Except Ill Instr :=
  match sub with
  | 0 => kX tl d t .vldl
  | 1 => kX tl d t .vstl
  | _ => .error .unlisted

/-- Major 30 of the opcode map (R81): SUB and TL name the instruction and its layout. -/
def decodeMajor30 (d : BitVec 5) (tl sub : Nat) (t : BitVec 64) : Except Ill Instr :=
  match sub with
  | 0 => kX tl d t .ranka
  | 1 => kX tl d t .ranks
  | 2 => kX tl d t .mopak
  | 3 => kX tl d t .mzero
  | 4 => kX tl d t .mrd
  | 5 => kX tl d t .mwr
  | 6 => kX tl d t .mrowacc
  | 7 => kX tl d t .msta
  | _ => .error .unlisted

/-- Major 31 of the opcode map (R81): SUB and TL name the instruction and its layout. -/
def decodeMajor31 (d : BitVec 5) (tl sub : Nat) (t : BitVec 64) : Except Ill Instr :=
  match sub with
  | 0 => kH tl d t .mstat
  | 1 => k0 tl d .mwait
  | 2 => kX tl d t .mlda
  | 3 => kN tl d t .mdrop
  | _ => .error .unlisted

/-- Major 36 of the opcode map (R81): SUB and TL name the instruction and its layout. -/
def decodeMajor36 (d : BitVec 5) (tl sub : Nat) (t : BitVec 64) : Except Ill Instr :=
  match sub with
  | 0 => kM tl d t .ldref
  | 1 => kM tl d t .stref
  | 2 => kM tl d t .ldf
  | 3 => kM tl d t .stf
  | 4 => kH tl d t .pin
  | 5 => kH tl d t .unpin
  | 6 => kH tl d t .qmov
  | 7 => kH tl d t (fun o => if o.f.toNat % 2 = 1 then .qcvtFromRef o else .qcvtToRef o)
  | _ => .error .unlisted

/-- Major 37 of the opcode map (R81): SUB and TL name the instruction and its layout. -/
def decodeMajor37 (d : BitVec 5) (tl sub : Nat) (t : BitVec 64) : Except Ill Instr :=
  match sub with
  | 0 => kH tl d t .refeq
  | _ => .error .unlisted

/-- Major 39 of the opcode map (R81): SUB and TL name the instruction and its layout. -/
def decodeMajor39 (d : BitVec 5) (tl sub : Nat) (t : BitVec 64) : Except Ill Instr :=
  match sub with
  | 0 => kX tl d t .spawn
  | 1 => kH tl d t .join
  | 2 => kH tl d t .exit
  | 3 => k0 tl d .yield
  | 4 => kH tl d t .migrate
  | 5 => kI16 tl d t .bar
  | 6 => kH tl d t .crewinfo
  | 7 => kH tl d t .self
  | _ => .error .unlisted

/-- Major 3A of the opcode map (R81): SUB and TL name the instruction and its layout. -/
def decodeMajor3A (d : BitVec 5) (tl sub : Nat) (t : BitVec 64) : Except Ill Instr :=
  match sub with
  | 0 => kH tl d t .msend
  | 1 => kH tl d t .msenda
  | 2 => k0 tl d .hend
  | _ => .error .unlisted

/-- Major 3B of the opcode map (R81): SUB and TL name the instruction and its layout. -/
def decodeMajor3B (d : BitVec 5) (tl sub : Nat) (t : BitVec 64) : Except Ill Instr :=
  match sub with
  | 0 => kH tl d t .enqt
  | 1 => kH tl d t .tdone
  | 2 => kH tl d t .grun
  | 3 => kH tl d t .cbinv
  | _ => .error .unlisted

/-- Major 3C of the opcode map (R81): SUB and TL name the instruction and its layout. -/
def decodeMajor3C (d : BitVec 5) (tl sub : Nat) (t : BitVec 64) : Except Ill Instr :=
  match sub with
  | 0 => kH tl d t .sysc
  | 1 => kN tl d t .sret
  | 2 => kH tl d t .wait
  | 3 => kH tl d t .xinv
  | 4 => kI16 tl d t .opreq
  | 5 => kH tl d t .preempt
  | 6 => kH tl d t .ctxstream
  | _ => .error .unlisted

/-- The opcode map (R81) before the field checks. -/
def decodeMap (maj : Nat) (d : BitVec 5) (tl sub : Nat) (t : BitVec 64) : Except Ill Instr :=
  match maj with
  | 0x00 => decodeMajor00 d tl sub t
  | 0x01 => decodeMajor01 d tl sub t
  | 0x02 => decodeMajor02 d tl sub t
  | 0x03 => decodeMajor03 d tl sub t
  | 0x04 => decodeMajor04 d tl sub t
  | 0x05 => decodeMajor05 d tl sub t
  | 0x08 => decodeMajor08 d tl sub t
  | 0x0C => decodeMajor0C d tl sub t
  | 0x0E => decodeMajor0E d tl sub t
  | 0x0F => decodeMajor0F d tl sub t
  | 0x10 => decodeMajor10 d tl sub t
  | 0x11 => decodeMajor11 d tl sub t
  | 0x14 => decodeMajor14 d tl sub t
  | 0x15 => decodeMajor15 d tl sub t
  | 0x16 => decodeMajor16 d tl sub t
  | 0x18 => decodeMajor18 d tl sub t
  | 0x1C => decodeMajor1C d tl sub t
  | 0x1D => decodeMajor1D d tl sub t
  | 0x20 => decodeMajor20 d tl sub t
  | 0x21 => decodeMajor21 d tl sub t
  | 0x22 => decodeMajor22 d tl sub t
  | 0x23 => decodeMajor23 d tl sub t
  | 0x24 => decodeMajor24 d tl sub t
  | 0x25 => decodeMajor25 d tl sub t
  | 0x26 => decodeMajor26 d tl sub t
  | 0x27 => decodeMajor27 d tl sub t
  | 0x28 => decodeMajor28 d tl sub t
  | 0x29 => decodeMajor29 d tl sub t
  | 0x30 => decodeMajor30 d tl sub t
  | 0x31 => decodeMajor31 d tl sub t
  | 0x36 => decodeMajor36 d tl sub t
  | 0x37 => decodeMajor37 d tl sub t
  | 0x39 => decodeMajor39 d tl sub t
  | 0x3A => decodeMajor3A d tl sub t
  | 0x3B => decodeMajor3B d tl sub t
  | 0x3C => decodeMajor3C d tl sub t
  | _ => .error .unlisted

/-- R80 step 2 on a whole head and tail: the opcode map, then the field checks; the lowest reason applies. A tail longer than the
layout's width never reaches here: the head's TL fixes it (R70). -/
def decode (head : BitVec 16) (tail : BitVec 64) : Except Ill Instr :=
  match decodeMap (head.extractLsb' 10 6).toNat (head.extractLsb' 3 5) (head.extractLsb' 8 2).toNat
      (head.extractLsb' 0 3).toNat tail with
  | .error e => .error e
  | .ok i =>
    match illForm i with
    | some e => .error e
    | none => .ok i

/-! ### The encoder -/

/-- The fields of a head (R69) and the tail as a 64-bit value, the tail's own width being that of its TL. -/
structure Enc where
  maj : BitVec 6
  tl : BitVec 2
  d : BitVec 5
  sub : BitVec 3
  tail : BitVec 64
deriving DecidableEq, Repr

/-- The head of R69: MAJOR, TL, D, SUB. -/
def Enc.head (e : Enc) : BitVec 16 := e.maj ++ e.tl ++ e.d ++ e.sub

def packH (o : LH) : BitVec 16 := o.f ++ o.b ++ o.a
def packW (o : LW) : BitVec 32 := o.f ++ o.sc ++ o.oc ++ o.cC ++ o.cB ++ o.cA ++ o.c ++ o.b ++ o.a
def packWI (o : LWI) : BitVec 32 := o.imm ++ o.a
def packM (o : LM) : BitVec 32 := o.imm ++ o.sc ++ o.oc ++ o.a
def packB (o : LB) : BitVec 32 := o.imm ++ o.t ++ o.b
def packV (o : LV) : BitVec 32 := o.f ++ o.z ++ o.msk ++ o.cB ++ o.cA ++ o.l ++ o.b ++ o.a
def packXI (o : LXI) : BitVec 64 := o.imm ++ o.a
def packX (o : LX) : BitVec 64 :=
  o.f16 ++ o.imm ++ o.sc ++ o.oc ++ o.msk ++ o.cC ++ o.cB ++ o.cA ++ o.l ++ o.c ++ o.b ++ o.a

def e0 (maj : BitVec 6) (sub : BitVec 3) : Enc := { maj, tl := 0, d := 0, sub, tail := 0 }
def eN (maj : BitVec 6) (sub : BitVec 3) (o : LN) : Enc := { maj, tl := 0, d := o.d, sub, tail := 0 }
def eH (maj : BitVec 6) (sub : BitVec 3) (o : LH) : Enc := { maj, tl := 1, d := o.d, sub, tail := (packH o).setWidth 64 }
def eI16 (maj : BitVec 6) (sub : BitVec 3) (o : LI16) : Enc := { maj, tl := 1, d := o.d, sub, tail := o.imm.setWidth 64 }
def eI32 (maj : BitVec 6) (sub : BitVec 3) (o : LI32) : Enc := { maj, tl := 2, d := o.d, sub, tail := o.imm.setWidth 64 }
def eW (maj : BitVec 6) (sub : BitVec 3) (o : LW) : Enc := { maj, tl := 2, d := o.d, sub, tail := (packW o).setWidth 64 }
def eWI (maj : BitVec 6) (sub : BitVec 3) (o : LWI) : Enc := { maj, tl := 2, d := o.d, sub, tail := (packWI o).setWidth 64 }
def eM (maj : BitVec 6) (sub : BitVec 3) (o : LM) : Enc := { maj, tl := 2, d := o.d, sub, tail := (packM o).setWidth 64 }
def eB (maj : BitVec 6) (sub : BitVec 3) (o : LB) : Enc := { maj, tl := 2, d := o.d, sub, tail := (packB o).setWidth 64 }
def eV (maj : BitVec 6) (sub : BitVec 3) (o : LV) : Enc := { maj, tl := 2, d := o.d, sub, tail := (packV o).setWidth 64 }
def eXI (maj : BitVec 6) (sub : BitVec 3) (o : LXI) : Enc := { maj, tl := 3, d := o.d, sub, tail := packXI o }
def e64 (maj : BitVec 6) (sub : BitVec 3) (o : L64) : Enc := { maj, tl := 3, d := o.d, sub, tail := o.imm }
def eX (maj : BitVec 6) (sub : BitVec 3) (o : LX) : Enc := { maj, tl := 3, d := o.d, sub, tail := packX o }

/-- The encoder: the fields of the head and the tail of each instruction (R69, R72, R81); a step of the machine has none. -/
def encode : Instr → Option Enc
  | .nop => some (e0 0x00 0)
  | .psync => some (e0 0x16 4)
  | .qsync => some (e0 0x20 4)
  | .ungang => some (e0 0x20 6)
  | .mwait => some (e0 0x31 1)
  | .yield => some (e0 0x39 3)
  | .hend => some (e0 0x3A 2)
  | .brk o => some (eI16 0x00 1 o)
  | .add o => some (eH 0x01 0 o)
  | .sub o => some (eH 0x01 1 o)
  | .and o => some (eH 0x01 2 o)
  | .or o => some (eH 0x01 3 o)
  | .xor o => some (eH 0x01 4 o)
  | .andn o => some (eH 0x01 5 o)
  | .orn o => some (eH 0x01 6 o)
  | .xnor o => some (eH 0x01 7 o)
  | .sll o => some (eH 0x02 0 o)
  | .srl o => some (eH 0x02 1 o)
  | .sra o => some (eH 0x02 2 o)
  | .rol o => some (eH 0x02 3 o)
  | .ror o => some (eH 0x02 4 o)
  | .slt o => some (eH 0x02 5 o)
  | .sltu o => some (eH 0x02 6 o)
  | .seq o => some (eH 0x02 7 o)
  | .min o => some (eH 0x03 0 o)
  | .max o => some (eH 0x03 1 o)
  | .minu o => some (eH 0x03 2 o)
  | .maxu o => some (eH 0x03 3 o)
  | .mul o => some (eH 0x03 4 o)
  | .mulh o => some (eH 0x03 5 o)
  | .mulhu o => some (eH 0x03 6 o)
  | .mulhsu o => some (eH 0x03 7 o)
  | .div o => some (eH 0x04 0 o)
  | .divu o => some (eH 0x04 1 o)
  | .rem o => some (eH 0x04 2 o)
  | .remu o => some (eH 0x04 3 o)
  | .clz o => some (eH 0x04 4 o)
  | .ctz o => some (eH 0x04 5 o)
  | .popc o => some (eH 0x04 6 o)
  | .bswap o => some (eH 0x04 7 o)
  | .sext o => some (eH 0x05 0 o)
  | .zext o => some (eH 0x05 1 o)
  | .addw o => some (eH 0x05 2 o)
  | .subw o => some (eH 0x05 3 o)
  | .mulw o => some (eH 0x05 4 o)
  | .cmovz o => some (eH 0x05 5 o)
  | .cmovnz o => some (eH 0x05 6 o)
  | .addiI16 o => some (eI16 0x08 0 o)
  | .addiWi o => some (eWI 0x08 0 o)
  | .addiXi o => some (eXI 0x08 0 o)
  | .andiI16 o => some (eI16 0x08 1 o)
  | .andiWi o => some (eWI 0x08 1 o)
  | .andiXi o => some (eXI 0x08 1 o)
  | .oriI16 o => some (eI16 0x08 2 o)
  | .oriWi o => some (eWI 0x08 2 o)
  | .oriXi o => some (eXI 0x08 2 o)
  | .xoriI16 o => some (eI16 0x08 3 o)
  | .xoriWi o => some (eWI 0x08 3 o)
  | .xoriXi o => some (eXI 0x08 3 o)
  | .sltiI16 o => some (eI16 0x08 4 o)
  | .sltiWi o => some (eWI 0x08 4 o)
  | .sltiXi o => some (eXI 0x08 4 o)
  | .sltiuI16 o => some (eI16 0x08 5 o)
  | .sltiuWi o => some (eWI 0x08 5 o)
  | .sltiuXi o => some (eXI 0x08 5 o)
  | .shiI16 o => some (eI16 0x08 6 o)
  | .shiWi o => some (eWI 0x08 6 o)
  | .shiXi o => some (eXI 0x08 6 o)
  | .muliI16 o => some (eI16 0x08 7 o)
  | .muliWi o => some (eWI 0x08 7 o)
  | .muliXi o => some (eXI 0x08 7 o)
  | .adda o => some (eH 0x0C 0 o)
  | .addiaWi o => some (eWI 0x0C 1 o)
  | .addiaXi o => some (eXI 0x0C 1 o)
  | .scalea o => some (eH 0x0C 2 o)
  | .pfmt o => some (eI16 0x0C 3 o)
  | .gfmt o => some (eH 0x0C 4 o)
  | .clrfmt o => some (eH 0x0C 5 o)
  | .suba o => some (eH 0x0C 6 o)
  | .liI16 o => some (eI16 0x0E 0 o)
  | .liI32 o => some (eI32 0x0E 0 o)
  | .liL64 o => some (e64 0x0E 0 o)
  | .lpc o => some (eWI 0x0E 1 o)
  | .mov o => some (eH 0x0E 2 o)
  | .csrr o => some (eI16 0x0F 0 o)
  | .csrw o => some (eI16 0x0F 1 o)
  | .csrs o => some (eI16 0x0F 2 o)
  | .csrc o => some (eI16 0x0F 3 o)
  | .csrx o => some (eI16 0x0F 4 o)
  | .j o => some (eWI 0x10 0 o)
  | .jal o => some (eWI 0x10 1 o)
  | .jalr o => some (eH 0x10 2 o)
  | .beq o => some (eB 0x11 0 o)
  | .bne o => some (eB 0x11 1 o)
  | .blt o => some (eB 0x11 2 o)
  | .bge o => some (eB 0x11 3 o)
  | .bltu o => some (eB 0x11 4 o)
  | .bgeu o => some (eB 0x11 5 o)
  | .bms o => some (eB 0x11 6 o)
  | .bmc o => some (eB 0x11 7 o)
  | .fadd o => some (eH 0x1C 0 o)
  | .fsub o => some (eH 0x1C 1 o)
  | .fmul o => some (eH 0x1C 2 o)
  | .fdiv o => some (eH 0x1C 3 o)
  | .fsqrt o => some (eH 0x1C 4 o)
  | .fmin o => some (eH 0x1C 5 o)
  | .fmax o => some (eH 0x1C 6 o)
  | .fcmp o => some (eH 0x1C 7 o)
  | .fma o => some (eW 0x1D 0 o)
  | .fcvt o => some (eH 0x1D 1 o)
  | .fclass o => some (eH 0x1D 2 o)
  | .ldb o => some (eM 0x14 0 o)
  | .ldbu o => some (eM 0x14 1 o)
  | .ldh o => some (eM 0x14 2 o)
  | .ldhu o => some (eM 0x14 3 o)
  | .ldw o => some (eM 0x14 4 o)
  | .ldwu o => some (eM 0x14 5 o)
  | .ldd o => some (eM 0x14 6 o)
  | .ldaq o => some (eM 0x14 7 o)
  | .stb o => some (eM 0x15 0 o)
  | .sth o => some (eM 0x15 1 o)
  | .stw o => some (eM 0x15 2 o)
  | .std o => some (eM 0x15 3 o)
  | .strl o => some (eM 0x15 4 o)
  | .strlw o => some (eM 0x15 5 o)
  | .ldaqw o => some (eM 0x15 6 o)
  | .mstd o => some (eM 0x15 7 o)
  | .amo o => some (eW 0x16 0 o)
  | .cas o => some (eW 0x16 1 o)
  | .fence o => some (eI16 0x16 2 o)
  | .pflush o => some (eM 0x16 3 o)
  | .clwb o => some (eM 0x16 5 o)
  | .acopy o => some (eX 0x18 0 o)
  | .acopy2d o => some (eX 0x18 1 o)
  | .agather o => some (eX 0x18 2 o)
  | .acoll o => some (eX 0x18 3 o)
  | .glaze o => some (eX 0x18 4 o)
  | .wbind o => some (eX 0x18 5 o)
  | .wread o => some (eX 0x18 6 o)
  | .acancel o => some (eX 0x18 7 o)
  | .setvl o => some (eH 0x20 0 o)
  | .vsett o => some (eI16 0x20 1 o)
  | .vsettx o => some (eH 0x20 2 o)
  | .slip o => some (eI16 0x20 3 o)
  | .gang o => some (eH 0x20 5 o)
  | .vadd o => some (eV 0x21 0 o)
  | .vsub o => some (eV 0x21 1 o)
  | .vand o => some (eV 0x21 2 o)
  | .vor o => some (eV 0x21 3 o)
  | .vxor o => some (eV 0x21 4 o)
  | .vsll o => some (eV 0x21 5 o)
  | .vsrl o => some (eV 0x21 6 o)
  | .vsra o => some (eV 0x21 7 o)
  | .vmul o => some (eV 0x22 0 o)
  | .vmulh o => some (eV 0x22 1 o)
  | .vmin o => some (eV 0x22 2 o)
  | .vmax o => some (eV 0x22 3 o)
  | .vsadd o => some (eV 0x22 4 o)
  | .vssub o => some (eV 0x22 5 o)
  | .vcmp o => some (eV 0x22 6 o)
  | .vmerge o => some (eV 0x22 7 o)
  | .vfadd o => some (eV 0x23 0 o)
  | .vfsub o => some (eV 0x23 1 o)
  | .vfmul o => some (eV 0x23 2 o)
  | .vfdiv o => some (eV 0x23 3 o)
  | .vfmin o => some (eV 0x23 4 o)
  | .vfmax o => some (eV 0x23 5 o)
  | .vfcmp o => some (eV 0x23 6 o)
  | .vfsqrt o => some (eV 0x23 7 o)
  | .vfma o => some (eX 0x24 0 o)
  | .vfnma o => some (eX 0x24 1 o)
  | .vfcvt o => some (eX 0x24 2 o)
  | .vfclass o => some (eX 0x24 3 o)
  | .vfscale o => some (eX 0x24 4 o)
  | .vfsgn o => some (eX 0x24 5 o)
  | .vredsum o => some (eV 0x25 0 o)
  | .vfredsum o => some (eV 0x25 1 o)
  | .vredmax o => some (eV 0x25 2 o)
  | .vfredmax o => some (eV 0x25 3 o)
  | .vslide o => some (eV 0x25 4 o)
  | .vperm o => some (eV 0x25 5 o)
  | .vcompress o => some (eV 0x25 6 o)
  | .vexpand o => some (eV 0x25 7 o)
  | .vmovx o => some (eV 0x26 0 o)
  | .vins o => some (eV 0x26 1 o)
  | .vsplat o => some (eV 0x26 2 o)
  | .viota o => some (eV 0x26 3 o)
  | .vmov o => some (eV 0x26 4 o)
  | .mand o => some (eH 0x27 0 o)
  | .mor o => some (eH 0x27 1 o)
  | .mxor o => some (eH 0x27 2 o)
  | .mandn o => some (eH 0x27 3 o)
  | .mnot o => some (eH 0x27 4 o)
  | .mpop o => some (eH 0x27 5 o)
  | .mfirst o => some (eH 0x27 6 o)
  | .msbf o => some (eH 0x27 7 o)
  | .vld o => some (eX 0x28 0 o)
  | .vldx o => some (eX 0x28 1 o)
  | .vst o => some (eX 0x28 2 o)
  | .vstx o => some (eX 0x28 3 o)
  | .vlds o => some (eX 0x28 4 o)
  | .vsts o => some (eX 0x28 5 o)
  | .mld o => some (eX 0x28 6 o)
  | .mst o => some (eX 0x28 7 o)
  | .vldl o => some (eX 0x29 0 o)
  | .vstl o => some (eX 0x29 1 o)
  | .ranka o => some (eX 0x30 0 o)
  | .ranks o => some (eX 0x30 1 o)
  | .mopak o => some (eX 0x30 2 o)
  | .mzero o => some (eX 0x30 3 o)
  | .mrd o => some (eX 0x30 4 o)
  | .mwr o => some (eX 0x30 5 o)
  | .mrowacc o => some (eX 0x30 6 o)
  | .msta o => some (eX 0x30 7 o)
  | .mstat o => some (eH 0x31 0 o)
  | .mlda o => some (eX 0x31 2 o)
  | .mdrop o => some (eN 0x31 3 o)
  | .ldref o => some (eM 0x36 0 o)
  | .stref o => some (eM 0x36 1 o)
  | .ldf o => some (eM 0x36 2 o)
  | .stf o => some (eM 0x36 3 o)
  | .pin o => some (eH 0x36 4 o)
  | .unpin o => some (eH 0x36 5 o)
  | .qmov o => some (eH 0x36 6 o)
  | .qcvtToRef o => some (eH 0x36 7 o)
  | .qcvtFromRef o => some (eH 0x36 7 o)
  | .refeq o => some (eH 0x37 0 o)
  | .spawn o => some (eX 0x39 0 o)
  | .join o => some (eH 0x39 1 o)
  | .exit o => some (eH 0x39 2 o)
  | .migrate o => some (eH 0x39 4 o)
  | .bar o => some (eI16 0x39 5 o)
  | .crewinfo o => some (eH 0x39 6 o)
  | .self o => some (eH 0x39 7 o)
  | .msend o => some (eH 0x3A 0 o)
  | .msenda o => some (eH 0x3A 1 o)
  | .enqt o => some (eH 0x3B 0 o)
  | .tdone o => some (eH 0x3B 1 o)
  | .grun o => some (eH 0x3B 2 o)
  | .cbinv o => some (eH 0x3B 3 o)
  | .sysc o => some (eH 0x3C 0 o)
  | .sret o => some (eN 0x3C 1 o)
  | .wait o => some (eH 0x3C 2 o)
  | .xinv o => some (eH 0x3C 3 o)
  | .opreq o => some (eI16 0x3C 4 o)
  | .preempt o => some (eH 0x3C 5 o)
  | .ctxstream o => some (eH 0x3C 6 o)
  | .serviceEntry _ => none
  | .handlerStart _ => none
  | .messageAnswer _ => none
  | .msendaCompletion _ => none
  | .vectorEntryExecute _ _ => none
  | .matrixEntryExecute _ => none
  | .enginePiece _ => none
  | .tokenCompletion _ => none
  | .windowExchange _ => none
  | .collectiveTimeout _ => none
  | .remoteCopyTimeout _ => none
  | .liveMoveAck _ => none
  | .measuredMigration _ => none
  | .aging _ => none
  | .parkedWaitCheck _ _ => none
  | .waitTimeout _ _ => none
  | .overflowAdmit _ => none
  | .occupantZeroingDone _ => none
  | .schedulerPreempt _ => none
  | .watchdogT1 _ _ => none
  | .watchdogT2 _ _ => none
  | .watchdogT3 _ _ => none
  | .jobTake _ _ => none
  | .recordReady _ _ => none
  | .dispatch _ => none
  | .crewReservation _ => none
  | .eprioRaise _ _ => none
  | .clusterTaskDispatch _ => none
  | .clusterTaskRecheck _ _ => none
  | .queueCancel _ _ => none
  | .eventsLostReport _ => none
  | .syscRingRetry _ => none
  | .syscResult _ _ => none
  | .asbindBind _ _ => none
  | .asbindUnbind _ _ => none
  | .powerOnReset => none
  | .modctlCold _ => none
  | .modctlWarm _ => none
  | .attestRequest _ _ => none
  | .captureModeOff _ => none
  | .captureModeOn _ _ _ => none
  | .replayModeOn _ _ _ => none
  | .captureRingSpace => none
  | .replayForceTimeout _ _ _ => none
  | .registerWrite _ _ _ => none
  | .errorCorrected _ _ _ _ => none
  | .poisonCreated _ _ _ => none
  | .laneRetire _ _ => none
  | .matrixStepCheckFail _ => none
  | .coreFence _ => none
  | .opLimitLower _ => none
  | .pseudoChannelFailing _ => none
  | .linkDegrade _ => none
  | .moduleError => none
  | .hostPortDown _ => none
  | .hostDeath _ _ _ => none
  | .poolFailure _ _ _ => none
  | .cxlEngineFailure _ => none
  | .fabricPortDown _ => none
  | .thermalWarning _ => none
  | .thermalThrottle _ => none
  | .thermalCritical _ => none
  | .damperGrant _ => none
  | .tileGate _ => none
  | .tileWake _ => none
  | .pointSwitch _ => none
  | .atsCompletion _ _ _ => none
  | .priResponse _ _ => none
  | .priTimeout _ => none
  | .atsInvalidation _ _ _ _ => none
  | .invalidationCompletion _ => none
  | .hostSnoop _ _ => none
  | .hostMemAccess _ _ _ _ => none
  | .pinAdmit _ => none
  | .hotnessWriteback _ _ => none
  | .moveMigrate _ => none
  | .moveReplicate _ => none
  | .moveCollapse _ => none
  | .moveResetHotness _ => none
  | .flip => none
  | .copy => none
  | .free => none
  | .errorLogSpace => none
  | .persistConfirmation _ => none
  | .nodeQualifiedRemoteAccess _ _ _ _ => none
  | .hostPortUp _ => none
  | .fabricPortUp _ => none
  | .conePointRecovery _ => none

/-- The head of an instruction as SINFO[15:0] reports it (R324); zero for a step of the machine. -/
def headOf (i : Instr) : BitVec 16 :=
  match encode i with
  | some e => e.head
  | none => 0

/-- The tail of an instruction, zero-extended to 64 bits, as a queue-image entry holds it (R139). -/
def tailOf (i : Instr) : BitVec 64 :=
  match encode i with
  | some e => e.tail
  | none => 0

/-! ### Instruction lines (R68, R70) -/

/-- The tail length in halfwords of a TL code (R69). -/
def tlLen (tl : Nat) : Nat :=
  match tl with
  | 0 => 0
  | 1 => 1
  | 2 => 2
  | _ => 4

/-- Halfword k of a line, h0 at the lowest address (R68). -/
def lineHalf (line : BitVec 512) (k : Nat) : BitVec 16 := line.extractLsb' (16 * k) 16

/-- N of a line's descriptor (R68). -/
def lineN (line : BitVec 512) : Nat := (lineHalf line 0).toNat % 32

/-- Tail length of the head of slot s (R70). -/
def slotTail (line : BitVec 512) (s : Nat) : Nat := tlLen ((lineHalf line (s + 1)).extractLsb' 8 2).toNat

/-- Tail lengths of slots 0 to n-1 together. -/
def tailSum (line : BitVec 512) : Nat → Nat
  | 0 => 0
  | n + 1 => tailSum line n + slotTail line n

/-- The ill-formed lines of R68, with the lowest reason; `slot` is the entry slot (reason 4 is R16's) (log 58, DEDUCED). -/
def lineReason (line : BitVec 512) (slot : Nat) : Option Nat :=
  if lineN line = 0 then some 1
  else if (lineHalf line 0).toNat / 32 ≠ 0 then some 2
  else if 1 + lineN line + tailSum line (lineN line) > 32 then some 3
  else if lineN line ≤ slot then some 4
  else none

/-- The tail of slot s, allocated downward from h31 (R70), zero-extended to 64 bits. -/
def lineTail (line : BitVec 512) (s : Nat) : BitVec 64 :=
  let len := slotTail line s
  let top := 32 - tailSum line (s + 1)
  BitVec.ofNat 64 ((line.extractLsb' (16 * top) 64).toNat % 2 ^ (16 * len))

/-- The instruction of slot s of a line. -/
def decodeSlot (line : BitVec 512) (s : Nat) : Except Ill Instr := decode (lineHalf line (s + 1)) (lineTail line s)

/-- A line that holds one instruction: N = 1, the head at h1, the tail at the top (R68, R70). -/
def oneLine (head : BitVec 16) (tail : BitVec 64) : BitVec 512 :=
  let len := tlLen (head.extractLsb' 8 2).toNat
  BitVec.ofNat 512 (1 + head.toNat * 2 ^ 16 + tail.toNat % 2 ^ (16 * len) * 2 ^ (16 * (32 - len)))

/-- The head of a row's bits: spec/opcode_table.json numbers a row with the head above the tail, so bit 0 is the least
significant bit of the tail (of the head, for a row of one halfword) (log 14, DEDUCED). -/
def tableHead (nbits w : Nat) : BitVec 16 := BitVec.ofNat 16 (w / 2 ^ (nbits - 16))

def tableTail (nbits w : Nat) : BitVec 64 := BitVec.ofNat 64 (w % 2 ^ (nbits - 16))

/-- The instruction the decoder reads from the bits w of a row of nbits bits, laid out as a line that holds it alone (log 14, DEDUCED). -/
def decodeTableWord (nbits w : Nat) : Option Instr :=
  match decodeSlot (oneLine (tableHead nbits w) (tableTail nbits w)) 0 with
  | .ok i => some i
  | .error _ => none

end Sys2Proof
end

