-- ==== Sys2Proof/Machine/Cache.lean ====
section
/-! DEFINITION. The caches of global memory (R239 to R243): the L2 home slice of a line, the L2 lines, the directory, and the L1 copies that it
tracks. The bytes of every copy are those of `mem`, each location having one value (R252; log 7). -/

namespace Sys2Proof.Machine

/-! ### The home slice of a line (R242, R245) -/

/-- The pseudo-channel that holds a logical bank: its own number until it is remapped (R245, R385; log 6, DESIGN CHOICE). -/
def State.bankHolder (s : State) (b : Nat) : Nat := ((s.flash.remap.reverse.find? (fun r => r.1 == b)).map (·.2)).getD b

/-- The logical bank that a pseudo-channel holds. -/
def State.bankIn (s : State) (p : Nat) : Option Nat := (upTo 1021).find? (fun b => s.bankHolder b == p)

/-- The logical bank of a PA (R245). -/
def bankOf (pa : Nat) : Nat := pa / 256 % 1021

/-- The pseudo-channel that a PA lies in. -/
def State.pcOf (s : State) (pa : Nat) : Nat := s.bankHolder (bankOf pa)

/-- The L2 home slice of the line of a PA, numbered site · 512 + slice (R242): the site of the pseudo-channel, 64 to a stack and four stacks to
a site (R245), and slice n mod 512 (log 7, DESIGN CHOICE for the lines of the CXL ranges, which no bank holds). -/
def State.sliceAt (s : State) (pa : Nat) : Nat := s.pcOf pa / 256 * 512 + pa / 256 % 512

def State.l2Slice (s : State) (i : Nat) : L2Slice := (kvGet i s.l2).getD L2Slice.reset
def State.modL2 (s : State) (i : Nat) (f : L2Slice → L2Slice) : State := { s with l2 := kvSet i (f (s.l2Slice i)) s.l2 }

/-! ### L2 lines (R242) -/

/-- Lines of a slice: 2,048 slices hold 1 GiB. -/
def l2Lines : Nat := 2048

/-- Sector k of a line becomes valid, and dirty when it is written; a line that the slice does not hold takes the place of the one allocated
first when the slice is full (log 7, DESIGN CHOICE), whose dirty sectors go to memory. -/
def L2Slice.touch (t : L2Slice) (line k : Nat) (dirty : Bool) : L2Slice :=
  let bit : BitVec 8 := 1#8 <<< (k % 8)
  let d : BitVec 8 := if dirty then bit else 0
  if t.lines.any (fun l => l.line == line) then
    { t with lines := t.lines.map (fun l => if l.line = line then { l with valid := l.valid ||| bit, dirty := l.dirty ||| d } else l) }
  else { t with lines := ({ line, valid := bit, dirty := d } :: t.lines).take l2Lines }

/-- The sectors, as their numbers key / 32, that [key, key + n) meets. -/
def sectorsOf (key n : Nat) : List Nat := List.range' (key / 32) ((key + n + 31) / 32 - key / 32)

/-- Sectors of a range pass through their home slices. -/
def State.l2Touch (s : State) (key n : Nat) (dirty : Bool) : State :=
  (sectorsOf key n).foldl (fun t c => t.modL2 (t.sliceAt (32 * c)) (fun l => l.touch (c / 8) (c % 8) dirty)) s

/-! ### The directory (R243) -/

/-- Entries of a slice's directory. -/
def dirEntries : Nat := 8192

/-- A sector of which no L1 holds a copy. -/
def DirSector.empty : DirSector := { state := .i, tag := none, owner := none, sharers := 0 }

def DirEntry.blank (line : Nat) : DirEntry := { line, sectors := .replicate 8 .empty }

/-- The sector of an entry that a sector number selects. -/
def DirEntry.sector (e : DirEntry) (c : Nat) : DirSector := e.sectors[c % 8]'(Nat.mod_lt _ (by decide))

/-- What the directory holds of a sector. -/
def State.dirSector (s : State) (c : Nat) : DirSector :=
  (((s.l2Slice (s.sliceAt (32 * c))).dir.find? (fun e => e.line == c / 8)).map (·.sector c)).getD .empty

/-- The sector is one that an L1 may have modified. -/
def DirSector.modified (d : DirSector) : Bool := d.state == .m || d.state == .o

def DirEntry.mod (e : DirEntry) (c : Nat) (f : DirSector → DirSector) : DirEntry :=
  { e with sectors := e.sectors.set (c % 8) (f (e.sector c)) (Nat.mod_lt _ (by decide)) }

/-- A sector of an entry that the directory holds is changed. -/
def State.modSector (s : State) (c : Nat) (f : DirSector → DirSector) : State :=
  s.modL2 (s.sliceAt (32 * c)) (fun t => { t with dir := t.dir.map (fun e => if e.line = c / 8 then e.mod c f else e) })

/-- Every listed core changed in place. -/
def State.mapCores (s : State) (f : Core → Core) : State := { s with cores := s.cores.map (fun p => (p.1, f p.2)) }

/-- The L1 copies of one sector leave every L1, instruction caches included, but the data copy of core `keep`. -/
def State.dropCopies (s : State) (c : Nat) (keep : Option Nat) : State :=
  { s with cores := s.cores.map (fun p => (p.1, { p.2 with
      l1d := if keep = some p.1 then p.2.l1d else p.2.l1d.filter (fun l => l.key / 32 != c),
      l1i := p.2.l1i.filter (fun l => l.key / 64 != c / 2) })) }

/-- A sector's copies are invalidated: dirty data goes back to L2, and the directory forgets them; `keep` names a core whose data copy
stays, as the owner (R107, R241, R243). -/
def State.invalidate (s : State) (c : Nat) (keep : Option Nat) : State :=
  let d := s.dirSector c
  if d.state = .i then s
  else
    let s1 := if d.modified && keep.isNone then s.modL2 (s.sliceAt (32 * c)) (fun t => t.touch (c / 8) (c % 8) true) else s
    (s1.dropCopies c keep).modSector c (fun d => match keep with
      | some k => { d with state := .m, owner := some k, sharers := 1#128 <<< clusterOf k }
      | none => .empty)

/-- The sectors that p names are forgotten by a slice's directory, dirty data going back to its lines. -/
def L2Slice.clear (t : L2Slice) (p : Nat → DirSector → Bool) : L2Slice :=
  let gone (e : DirEntry) (k : Nat) : Bool := p (e.line * 8 + k) (e.sector k)
  let t1 := t.dir.foldl (fun u e => (upTo 8).foldl (fun v k =>
    if gone e k && (e.sector k).modified then v.touch e.line k true else v) u) t
  { t1 with dir := t.dir.map (fun e =>
      { e with sectors := Vector.ofFn (fun k : Fin 8 => if gone e k.val then .empty else e.sectors[k.val]'k.isLt) }) }

/-- Every L1 copy of the lines that [lo, hi) meets leaves every L1 (R241). -/
def State.dropL1Keys (s : State) (lo hi : Nat) : State :=
  let s1 := s.mapCores (fun k => { k with
    l1d := k.l1d.filter (fun l => !(lo < l.key + 32 && l.key < hi)),
    l1i := k.l1i.filter (fun l => !(lo < l.key + 64 && l.key < hi)) })
  { s1 with l2 := s1.l2.map (fun q => (q.1, q.2.clear (fun c _ => lo < 32 * c + 32 && 32 * c < hi))) }

/-- Every L1 line of an address space that meets a range of addresses leaves its L1, dirty data going back to L2 (R207, R241). -/
def State.dropL1Alias (s : State) (asid lo hi : Nat) : State :=
  let s1 := s.mapCores (fun k => { k with
    l1d := k.l1d.filter (fun l => !(l.asid == asid && lo < l.va * 32 + 32 && l.va * 32 < hi)),
    l1i := k.l1i.filter (fun l => !(l.asid == asid && lo < l.va * 64 + 64 && l.va * 64 < hi)) })
  { s1 with l2 := s1.l2.map (fun q => (q.1, q.2.clear (fun _ d => match d.tag with
      | some (a, v) => a == asid && lo < v * 32 + 32 && v * 32 < hi
      | none => false))) }

/-- A copy whose owner is recalled for a read. -/
def Moesi.recalled : Moesi → Moesi
  | .m => .o
  | .e => .s
  | x => x

/-- The owner of a sector in M or E is recalled before another agent reads it (R107): its copy stays as O or S. -/
def State.downgrade (s : State) (c : Nat) : State :=
  let d := s.dirSector c
  if d.state ≠ .m ∧ d.state ≠ .e then s
  else (s.mapCores (fun k => { k with l1d := k.l1d.map (fun l => if l.key / 32 = c then { l with state := l.state.recalled } else l) })).modSector c
    (fun d => { d with state := d.state.recalled, owner := if d.state = .m then d.owner else none })

/-- An access that performs at the home slices of its sectors (R107, R116, R242): a read recalls the owner, a write invalidates every copy. -/
def State.performHome (s : State) (key n : Nat) (write : Bool) : State :=
  ((sectorsOf key n).foldl (fun t c => if write then t.invalidate c none else t.downgrade c) s).l2Touch key n write

/-- A copy whose data has been written back stays valid and clean (R118). -/
def Moesi.cleaned : Moesi → Moesi
  | .m => .e
  | .o => .s
  | x => x

/-- The 256-byte line of a key, with the modified L1 sectors of it, is written back to its backing memory; every copy stays (R118). -/
def State.cleanLine (s : State) (key : Nat) : State :=
  let n := key / 256
  let s1 := s.mapCores (fun k => { k with l1d := k.l1d.map (fun l => if l.key / 256 = n then { l with state := l.state.cleaned } else l) })
  s1.modL2 (s.sliceAt (256 * n)) (fun t => { t with
    lines := t.lines.map (fun l => if l.line = n then { l with dirty := 0 } else l),
    dir := t.dir.map (fun e => if e.line = n then { e with sectors := e.sectors.map (fun d => { d with state := d.state.cleaned }) } else e) })

/-! ### Fills, hits and evictions (R239, R240, R243) -/

/-- Lines of an L1 data cache: 2048 KiB of 32 bytes. -/
def l1dLines : Nat := 65536

/-- Entries of an instruction cache of 64 bytes: 256 KiB on a control core, else 64 KiB. -/
def l1iLines : Cls → Nat
  | .control => 4096
  | _ => 1024

/-- Core k's data copy of a sector is evicted: an owner's dirty data goes back to L2, and the sector has no owner (log 7, DESIGN CHOICE for
the sharers, which stay as they are recorded). -/
def State.evictData (s : State) (k c : Nat) : State :=
  let d := s.dirSector c
  let s1 := s.modCore k (fun x => { x with l1d := x.l1d.filter (fun l => l.key / 32 != c) })
  if d.owner ≠ some k then s1
  else (if d.modified then s1.modL2 (s.sliceAt (32 * c)) (fun t => t.touch (c / 8) (c % 8) true) else s1).modSector c
    (fun d => { d with state := .s, owner := none })

/-- The directory has an entry for a line: of a full directory the entry allocated first goes, once every copy that it tracks has been
invalidated (R243; log 7, DESIGN CHOICE for the sets, a slice being one). -/
def State.dirAlloc (s : State) (line : Nat) : State :=
  let i := s.sliceAt (256 * line)
  let t := s.l2Slice i
  if t.dir.any (fun e => e.line == line) then s
  else
    let s1 := match (if t.dir.length < dirEntries then none else t.dir.getLast?) with
      | none => s
      | some v => (((upTo 8).map (v.line * 8 + ·)).foldl (fun (u : State) c => u.invalidate c none) s).modL2 i
          (fun t => { t with dir := t.dir.filter (fun e => e.line != v.line) })
    s1.modL2 i (fun t => { t with dir := .blank line :: t.dir })

/-- What the directory records when core k takes a copy of a sector: the sole copy of a load is exclusive, a store's is modified. -/
def DirSector.grant (d : DirSector) (tag : Nat × Nat) (k : Nat) (store instr : Bool) : DirSector :=
  let me := 1#128 <<< clusterOf k
  if store then { state := .m, tag := some tag, owner := some k, sharers := me }
  else if d.state = .i then { state := if instr then .s else .e, tag := some tag, owner := if instr then none else some k, sharers := me }
  else { d with tag := some tag, sharers := d.sharers ||| me }

/-- Core k is granted a copy of a sector under an alias (ASID, VA[55:5]): copies under another alias go first, and for a store every other
one; the owner that a load finds is recalled (R107, R240, R243). -/
def State.grantSector (s : State) (k c : Nat) (tag : Nat × Nat) (store instr : Bool) : State :=
  let s0 := (s.dirAlloc (c / 8)).l2Touch (32 * c) 1 false
  let d := s0.dirSector c
  let s1 := if store || (d.tag.map (· != tag)).getD false then s0.invalidate c none else s0.downgrade c
  s1.modSector c (fun d => d.grant tag k store instr)

/-- A data line filled into the L1 of core k (R239); a full cache gives up the line filled first (log 7, DESIGN CHOICE). -/
def State.fillData (s : State) (k : Nat) (line : L1Line) (store : Bool) : State :=
  let c := line.key / 32
  let s0 := if (s.core k).l1d.any (fun l => l.key / 32 == c) then s.evictData k c else s
  let s1 := match (if (s0.core k).l1d.length < l1dLines then none else (s0.core k).l1d.getLast?) with
    | some v => s0.evictData k (v.key / 32)
    | none => s0
  let s2 := s1.grantSector k c (line.asid, line.va) store false
  let st : Moesi := if store then .m else if (s2.dirSector c).state = .e then .e else .s
  s2.modCore k (fun x => { x with l1d := { line with state := st } :: x.l1d })

/-- An instruction entry of 64 bytes, two sectors, filled under the same directory. -/
def State.fillInstr (s : State) (k : Nat) (line : L1Line) : State :=
  let c := line.key / 32
  let s1 := (s.grantSector k c (line.asid, 2 * line.va) false true).grantSector k (c + 1) (line.asid, 2 * line.va + 1) false true
  s1.modCore k (fun x => { x with l1i := (line :: x.l1i.filter (fun l => l.key != line.key)).take (l1iLines (s.cls k)) })

/-- A store that hits a data line of core k: into a copy in M or E it is written there; else the other copies go first (R107). -/
def State.storeHit (s : State) (k c : Nat) : State :=
  let s1 := if (s.dirSector c).owner = some k ∧ ((s.dirSector c).state = .m ∨ (s.dirSector c).state = .e) then
      s.modSector c (fun d => { d with state := .m })
    else s.invalidate c (some k)
  s1.modCore k (fun x => { x with l1d := x.l1d.map (fun l => if l.key / 32 = c then { l with state := .m } else l) })

end Sys2Proof.Machine
end

