-- ==== Sys2Proof/Machine/ErrorLog.lean ====
section
/-! DEFINITION. The error log (R380): how the device writes a record. -/

namespace Sys2Proof.Machine

/-! ### Rings at physical addresses (R261) -/

/-- Publish a record at position p of a ring of C slots, at the home slices of the slot (R242); none while the slot is not free for p. -/
def State.putRing (s : State) (pa slots p : Nat) (dws : List Nat) : Option State :=
  let slot := pa + p % slots * 64
  if s.mem.read slot 8 ≠ p then none
  else
    let s1 := s.performHome slot 64 true
    some { s1 with mem := s1.mem.writeBytes slot (((p + 1) :: dws).flatMap (toBytes 8)) }

/-! ### The error log (R379, R380) -/

/-- The log's PA and slot count, when one is set. -/
def State.logRing (s : State) : Option (Nat × Nat) :=
  let r := s.mgmt.logReg.toNat
  let n := r % 64
  if 6 ≤ n ∧ n ≤ 16 then some (bitsOf r 6 42 * 64, 2 ^ n) else none

/-- Doublewords 1 to 7 of a record. -/
def logWords (cls unitKind unit pa time detail : Nat) : List Nat :=
  [cls * 2 ^ 40 + unitKind * 2 ^ 32 + unit % 2 ^ 16, pa, time, detail, 0, 0, 0]

/-- One record per error event: written, or counted while no log is set or the ring is full (R380). -/
def State.logRecord (s : State) (cls unitKind unit pa detail : Nat) : State :=
  let lost := { s with mgmt := { s.mgmt with logLost := s.mgmt.logLost + 1 } }
  if s.mgmt.logLost ≠ 0 then lost
  else match s.logRing with
    | none => lost
    | some (a, n) =>
      match s.putRing a n s.mgmt.logPos (logWords cls unitKind unit pa s.time.toNat detail) with
      | none => lost
      | some s1 => { s1 with mgmt := { s1.mgmt with logPos := s1.mgmt.logPos + 1 } }

/-- TIME counts of 1 ms. -/
def logWindow : Nat := 100000

/-- A class-1 record of its own, remembered for 1 ms. -/
def State.newCorrected (s : State) (unitKind unit pa count : Nat) : State :=
  let s1 := s.logRecord 1 unitKind unit pa count
  let pos := if s1.mgmt.logPos = s.mgmt.logPos then none else some s.mgmt.logPos
  let old := s.mgmt.corrLog.filter (fun e => s.time.toNat < e.2.2.1 + logWindow && !(e.1 == unitKind && e.2.1 == unit))
  { s1 with mgmt := { s1.mgmt with corrLog := old ++ [(unitKind, unit, s.time.toNat, pos)] } }

/-- Corrected errors of a unit (R380): those within 1 ms share one record, whose detail counts them while its slot is still published. -/
def State.logCorrected (s : State) (unitKind unit pa count : Nat) : State :=
  match s.mgmt.corrLog.find? (fun e => e.1 == unitKind && e.2.1 == unit && s.time.toNat < e.2.2.1 + logWindow), s.logRing with
  | some (_, _, _, some p), some (a, n) =>
    let slot := a + p % n * 64
    if s.mem.read slot 8 = p + 1 then { s with mem := s.mem.write (slot + 0x20) 8 (s.mem.read (slot + 0x20) 8 + count) }
    else s.newCorrected unitKind unit pa count
  | some (_, _, _, none), _ => s
  | _, _ => s.newCorrected unitKind unit pa count

end Sys2Proof.Machine
end

