-- ==== Sys2Proof/Machine/Trans.lean ====
section
/-! DEFINITION. Reaching memory: the local window and its protection (R234 to R237), translation at the home (R306 to R323), host
translation (R317, R318), L1 residency (R239 to R241), and reads and writes of the place an access reaches. -/

namespace Sys2Proof.Machine

/-! ### Stops -/

/-- A trap as its raiser reports it (R324). -/
structure Trap where
  cause : Cause
  saddr : Nat := 0
  sinfo : Nat := 0
  /-- SEPC when it is not the instruction's own PC. -/
  sepc : Option Word := none
deriving DecidableEq, Repr

/-- How an operation ends without its result: a trap that changes nothing but the trap registers (R80), a trap that keeps the
changes made before it, a wait that changes nothing, a wait that keeps what it has begun, or a fault. -/
inductive Stop where
  | trap (t : Trap)
  | trapIn (t : Trap) (s : State)
  | stall
  | stallIn (s : State)
  /-- The access waits on a host page request: a strand parks (R318, R408). -/
  | parkHost (req : Nat) (s : State)
  | fault (f : Fault)

/-- Access kinds with the codes of R323. -/
inductive AKind where
  | none
  | load
  | store
  | atomic
  | fetch
  | engine
  | vector
  | heal
deriving DecidableEq, Repr

def AKind.code : AKind → Nat
  | .none => 0
  | .load => 1
  | .store => 2
  | .atomic => 3
  | .fetch => 4
  | .engine => 5
  | .vector => 6
  | .heal => 7

/-- What an access needs of a page or protection entry. `either` is CLWB and PFLUSH, for which R or W suffices (R118). -/
inductive Need where
  | r
  | w
  | rw
  | x
  | either
  /-- A lookup that needs no right (heal, QCVT, MSTD's page type). -/
  | look
deriving DecidableEq, Repr

/-- Who makes an access: address space, core, privilege, and how it is reported. `barrier` is a barriered access to a managed page
(R177, R181); `eng` an engine write, which may reach a window's bisque buffer (R127); `row` an element of a matrix row, whose hotness counts when
the row completes (R316); `mstd` a multicast store, which performs at the home (R113); `pinBy` the holder of the pins under which the access
translates (R313, R319); `fail` the page request that the access waited on and that has failed (R318): its page, and the reason; `dev` an access
of the device itself; `late` one whose maker counts its hotness once it has performed (R316). -/
structure Who where
  asid : Nat
  core : Nat
  priv : Bool
  kind : AKind
  need : Need
  barrier : Bool := false
  eng : Bool := false
  row : Bool := false
  mstd : Bool := false
  pinBy : Option Holder := none
  fail : Option (Nat × Nat) := none
  dev : Bool := false
  late : Bool := false
deriving DecidableEq, Repr

/-- The access waits for admission with its pages pinned first (R313). -/
def Who.pins (w : Who) : Bool := w.kind == .vector || w.kind == .engine || w.row

/-- The place an access reaches: the key of its first byte, the page type (8 for a local place), the block of a site scratchpad
whose tag decides what is read (R236), and the owner home and page of a global access; whether it was reached through a window (R311), whether
the core's own L1 copy serves it (R107, R239), and whether its maker has still to count it (R316). -/
structure Place where
  key : Nat
  typ : Nat
  siteOff : Option (Nat × Nat)
  home : Nat
  page : Nat
  big : Bool
  win : Bool := false
  inL1 : Bool := false
  due : Bool := false
deriving DecidableEq, Repr

/-! ### The local window (R234 to R236) -/

def isLocal (va : Nat) : Bool := bitsOf va 48 8 == 0xFF

/-- SINFO of PROT (R235). -/
def protInfo (k : AKind) (reason : Nat) : Nat := (match k with | .vector => 1 | o => o.code) * 16 + reason

def entryGrants (need : Need) (l : Nat) : Bool :=
  match need with
  | .r => bitOf l 60
  | .w => bitOf l 61
  | .rw => bitOf l 60 && bitOf l 61
  | .x => bitOf l 62
  | .either => bitOf l 60 || bitOf l 61
  | .look => true

/-- Protection entry n of a core grants [va, va + size) to an address space (R24, R235). -/
def entryPasses (k : Core) (w : Who) (va size : Nat) (n : Fin 8) : Bool :=
  let b := (k.protb[n.val]'n.isLt).toNat
  let l := (k.protl[n.val]'n.isLt).toNat
  let off := va % 2 ^ 48
  bitOf l 63 && bitsOf b 48 16 == w.asid && entryGrants w.need l
    && bitsOf b 6 42 * 64 ≤ off && off + size ≤ bitsOf l 6 42 * 64

def anyEntry (k : Core) (w : Who) (va size : Nat) : Bool := (List.finRange 8).any (entryPasses k w va size)

/-- The owner core or site of a local address, with the offset in it (R234). -/
inductive LocalPlace where
  | spad (core off : Nat)
  | site (site off : Nat)
  | outside
deriving DecidableEq, Repr

def localPlace (core va : Nat) : LocalPlace :=
  let o := va % 2 ^ 40
  match bitsOf va 40 8 with
  | 0 => .spad core o
  | 1 => if o < 16 * 0x40_0000 then .spad (clusterOf core * 16 + o / 0x40_0000) (o % 0x40_0000) else .outside
  | 2 => if o / 2 ^ 32 < 4 then .site (o / 2 ^ 32) (o % 2 ^ 32) else .outside
  | _ => .outside

/-- The reason of R235 for a range of `size` bytes, or none when it lies in a usable range (log 24, DEDUCED). -/
def State.localReason (s : State) (w : Who) (va size : Nat) : Option Nat :=
  if !anyEntry (s.core w.core) w va size then some 1
  else match localPlace w.core va with
    | .outside => some 2
    | .site _ o => if o + size ≤ 0x400_0000 then none else some 2
    | .spad c o =>
      let sz := spadSize (s.cls c)
      if !s.live c || o + size > sz then some 2
      else if o + size > sz - 0x2000 then some 3
      else none

/-- A local access (R235, R236): the place, PROT, or a wait while the target zeroes. -/
def State.localAccess (s : State) (w : Who) (va size : Nat) : Except Stop Place :=
  match s.localReason w va size with
  | some r => .error (.trap { cause := .prot, saddr := va, sinfo := protInfo w.kind r })
  | none =>
    match localPlace w.core va with
    | .outside => .error (.trap { cause := .prot, saddr := va, sinfo := protInfo w.kind 2 })
    | .site t o => .ok { key := (Loc.site t o).key, typ := 8, siteOff := some (t, o), home := 0, page := 0, big := false }
    | .spad c o =>
      if c ≠ w.core ∧ (s.core c).zeroing then .error .stall
      else if c ≠ w.core ∧ (s.core c).owner ≠ some w.asid then
        .error (.trap { cause := .prot, saddr := va, sinfo := protInfo w.kind 4 })
      else .ok { key := (Loc.spad c o).key, typ := 8, siteOff := none, home := 0, page := 0, big := false }

/-! ### The pool (R348, R357) -/

/-- Where poison was found (R324): 1 HBM4E, 3 local memory, 4 host memory or the CXL pool. -/
def poisonWhere (key : Nat) : Nat :=
  if key < 2 ^ 46 then 1 else if key < 2 ^ 47 then 4 else if key < 2 ^ 64 then 3 else 4

/-- The pool behind a port can be reached: the port is in CXL mode, up, and its range is not marked down (R348, R357; log 55). -/
def Port.pool (p : Port) : Bool := p.cxl && p.up && !p.cxlDown

/-- Some byte of [key, key + n) lies in a CXL range that cannot be reached or that has failed: it reads as poison and takes no store (R348,
R357). -/
def State.cxlDeadIn (s : State) (key n : Nat) : Bool :=
  2 ^ 46 ≤ key && key < 2 ^ 47 && (!(s.port ((key - 2 ^ 46) / 2 ^ 44)).pool
    || s.poolDead.any (fun r => key < r.1 + r.2 && r.1 < key + n))

def State.cxlDead (s : State) (key : Nat) : Bool := s.cxlDeadIn key 1

/-- The byte lies in a CXL range that is marked down: every access to it raises POISON (R357). -/
def State.cxlDown (s : State) (key : Nat) : Bool := 2 ^ 46 ≤ key && key < 2 ^ 47 && (s.port ((key - 2 ^ 46) / 2 ^ 44)).cxlDown

/-- [pa, pa + n) reads as poison. -/
def State.badRange (s : State) (pa n : Nat) : Bool := s.mem.poisoned pa n || s.cxlDeadIn pa n

/-- The first atom of [key, key + n) that reads as poison: one that is poisoned, or one of a dead CXL range. -/
def State.badAtom (s : State) (key n : Nat) : Nat :=
  ((sectorsOf key n).find? (fun a => s.mem.poison.contains a || s.cxlDeadIn (32 * a) 32)).getD (key / 32)

/-- The POISON trap of an access (R108, R357), SADDR being the poisoned atom's address (R324). -/
def poisonTrap (s : State) (w : Who) (p : Place) (n va : Nat) : Trap :=
  { cause := .poison, saddr := va + 32 * s.badAtom p.key n - p.key,
    sinfo := (match w.kind with | .vector => 1 | k => k.code) * 16 + poisonWhere p.key }

/-! ### Page tables (R308 to R311) -/

def homeOf (va : Nat) (big : Bool) : Nat := if big then bitsOf va 26 2 else bitsOf va 16 2

def pageOf (va : Nat) (big : Bool) : Nat := if big then va / 2 ^ 26 else va / 2 ^ 16

def leafType (l : Nat) : Nat := bitsOf l 59 3
def leafAddr (l : Nat) : Nat := bitsOf l 0 48

/-- A PA that a leaf may name: HBM4E, or the CXL ranges (R309, R349). -/
def State.goodPa (s : State) (pa : Nat) : Bool := (pa < s.hbmEnd && !s.mgmt.quadrant) || (2 ^ 46 ≤ pa && pa < 2 ^ 47)

/-- The frames that a replica descriptor names, in the order of the sites (R311). -/
def State.replicas (s : State) (pa : Nat) : List Nat := (upTo 4).map (fun k => s.mem.read (pa + 8 * k) 8)

/-- A replica descriptor names four frames of HBM4E (R245, R311, R355). -/
def State.replicasOk (s : State) (pa : Nat) : Bool := (s.replicas pa).all (fun f => f % 2 ^ 16 == 0 && f < s.hbmEnd)

/-- A leaf obeys R309, R311 and R355 at its level. -/
def State.leafOk (s : State) (l : Nat) (big : Bool) : Bool :=
  let a := leafAddr l
  let zf := bitOf l 54
  let frame := a % 2 ^ 16 == 0 && (!big || a % 2 ^ 26 == 0) && s.goodPa a
  let cxl := 2 ^ 46 ≤ a
  bitsOf l 48 6 == 0 && (match leafType l with
    | 0 => frame && (!big || !cxl)
    | 1 => a < 2 ^ 22 && !zf
    | 2 => a % 32 == 0 && !big && a < s.hbmEnd && s.replicasOk a
    | 3 => frame && !cxl
    | 4 => a == 0 && !zf
    | 5 => frame && cxl && !zf && !big
    | _ => false)

/-- A pointer obeys R309 at its level. -/
def pointerOk (e : Nat) (level : Nat) : Bool :=
  bitsOf e 48 14 == 0 && e % 2 ^ 13 == 0 && (level < 2 || !bitOf e 13)

/-- How a walk ends (R310): the leaf, its PA and its size; or a PGNP reason and the level. -/
inductive Walk where
  | leaf (l : Nat) (pa : Nat) (big : Bool) (level : Nat)
  | np (reason level : Nat)
deriving DecidableEq, Repr

/-- One level of a walk from the table at `tbl`; `fuel` counts the levels left. -/
def State.walkFrom (s : State) (va : Nat) : Nat → Nat → Walk
  | 0, _ => .np 2 4
  | fuel + 1, tbl =>
    let level := 4 - fuel
    let pa := tbl + bitsOf va (16 + 10 * fuel) 10 * 8
    let e := s.mem.read pa 8
    if s.badRange pa 8 then .np 4 level
    else if !bitOf e 63 then .np 1 level
    else if bitOf e 62 then
      if level < 3 || !s.leafOk e (level == 3) then .np 2 level else .leaf e pa (level == 3) level
    else if level = 4 || !pointerOk e level then .np 2 level
    else s.walkFrom va fuel (leafAddr e)

/-- The walk of R308 to R310; an address space that is not bound has no table. -/
def State.walk (s : State) (asid va : Nat) : Walk :=
  match s.space asid with
  | none => .np 1 1
  | some sp => s.walkFrom va 4 sp.root

/-- The PA of the poisoned table entry that ends a walk from the table at `tbl` (R310). -/
def State.poisonedEntry (s : State) (va : Nat) : Nat → Nat → Option Nat
  | 0, _ => none
  | fuel + 1, tbl =>
    let pa := tbl + bitsOf va (16 + 10 * fuel) 10 * 8
    let e := s.mem.read pa 8
    if s.badRange pa 8 then some pa
    else if !bitOf e 63 || bitOf e 62 then none
    else s.poisonedEntry va fuel (leafAddr e)

/-- The poisoned table entry that the walk of an address meets. -/
def State.walkPoison (s : State) (asid va : Nat) : Option Nat := (s.space asid).bind (fun sp => s.poisonedEntry va 4 sp.root)

/-- A walk for core c that ended with a PGNP reason: the home reports a poisoned entry, as a class-3 record under the code of PGNP (R310, R381;
log 44, DEDUCED). -/
def State.logWalk (s : State) (asid c va reason : Nat) : State :=
  if reason ≠ 4 then s else s.logRecord 3 1 c ((s.walkPoison asid va).getD 0 / 32 * 32) Cause.pgnp.code

/-- The place of the hotness record of a leaf: the upper half of its table, at the same index (R308, R315). -/
def hotPa (leafPa : Nat) : Nat := leafPa + 0x2000

/-- Frames of a leaf that zero-fill writes (R310). -/
def State.leafFrames (s : State) (l : Nat) : List Nat :=
  if leafType l = 2 then s.replicas (leafAddr l) else [leafAddr l]

def pageBytes (big : Bool) : Nat := if big then 2 ^ 26 else 2 ^ 16

/-! ### The home translation cache (R307, R312, R315) -/

/-- The home's cached entry of a page, if it holds one (R312). -/
def State.cached (s : State) (asid va : Nat) : Option HomeEntry :=
  let f (big : Bool) := (s.site (homeOf va big)).home.cache.find?
    (fun e => e.asid == asid && e.big == big && e.page == pageOf va big)
  (f false).or (f true)

def State.modHome (s : State) (i : Nat) (f : Home → Home) : State := s.modSite i (fun t => { t with home := f t.home })

/-- Zero-fill of a leaf with ZF (R310): every frame is zeroed, then ZF clears in the entry. -/
def State.zeroFill (s : State) (l pa : Nat) (big : Bool) : State × Nat :=
  if bitOf l 54 then
    let l' := l - 2 ^ 54
    let m := (s.leafFrames l).foldl (fun (m : Memory) f => m.zero f (pageBytes big)) s.mem
    ({ s with mem := m.write pa 8 l' }, l')
  else (s, l)

/-- Two entries are of one page. -/
def HomeEntry.same (e o : HomeEntry) : Bool := o.asid == e.asid && o.page == e.page && o.big == e.big

/-- The site of an entry's owner home. -/
def HomeEntry.site (e : HomeEntry) : Nat := homeOf (e.page * pageBytes e.big) e.big

/-- Change a cached entry in place. -/
def State.modEntry (s : State) (e : HomeEntry) (f : HomeEntry → HomeEntry) : State :=
  s.modHome e.site (fun h => { h with cache := h.cache.map (fun o => if e.same o then f o else o) })

/-- Write an entry's hotness record to its table (R315). -/
def State.hotBack (s : State) (e : HomeEntry) : State := { s with mem := s.mem.write (hotPa e.leafPa) 8 e.hot.toNat }

/-- An entry leaves its home: its hotness is written back, and the hints that describe it go (R307, R315). -/
def State.dropEntry (s : State) (e : HomeEntry) : State :=
  let s1 := (s.hotBack e).modHome e.site (fun h => { h with cache := h.cache.filter (fun o => !e.same o) })
  if e.big then { s1 with sites := s1.sites.map (fun t => { t with home := { t.home with
      hints := t.home.hints.filter (fun h => !(h.asid == e.asid && h.page == e.page)) } }) }
  else s1

/-- A translation pin is held on a page of a home. -/
def Home.pagePinned (h : Home) (asid page : Nat) (big : Bool) : Bool :=
  h.pins.any (fun q => q.asid == asid && q.pages.contains (page, big))

/-- The set of a home's cache that a page's entry stands in: 65,536 entries in 16-way sets (R312), the page number modulo 4,096 choosing one
(log 8, DESIGN CHOICE). -/
def homeSet (page : Nat) : Nat := page % 4096

/-- A 4 KiB entry lies on a page that a pin names. -/
def Ats.pinned (a : Ats) (h : Home) : Bool :=
  h.pagePinned a.asid (a.page / 16) false || h.pagePinned a.asid (a.page / 2 ^ 14) true

/-- The set has room for one more entry, the least recently used entry that holds no pin and whose page is not moving having left it if need
be; none while there is no such entry (R312). -/
def State.makeRoom (s : State) (site page : Nat) : Option State :=
  let h := (s.site site).home
  let es := h.cache.filter (fun e => homeSet e.page == homeSet page)
  let hs := s.ats.filter (fun a => a.site == site % 4 && homeSet a.page == homeSet page)
  let zs := h.hints.filter (fun z => homeSet z.page == homeSet page)
  if es.length + hs.length + zs.length < 16 then some s
  else
    let ve := es.filter (fun e => !e.moving && !h.pagePinned e.asid e.page e.big)
    let va := hs.filter (fun a => !a.pinned h)
    match (ve.map (·.stamp) ++ va.map (·.stamp) ++ zs.map (·.stamp)).min? with
    | none => none
    | some m => match ve.find? (fun e => e.stamp == m), va.find? (fun a => a.stamp == m) with
      | some e, _ => some (s.dropEntry e)
      | none, some a => some { s with ats := s.ats.filter (fun o => o != a) }
      | none, none => some (s.modHome site (fun h => { h with hints := h.hints.filter (fun z => !(zs.contains z && z.stamp == m)) }))

/-- An entry has been used (R312). -/
def State.useEntry (s : State) (e : HomeEntry) : State :=
  s.modHome e.site (fun h => { h with clock := h.clock + 1, cache := h.cache.map (fun o => if e.same o then { o with stamp := h.clock } else o) })

/-- The pointers that a walk from the table at `tbl` passes, with the level of the entry and the table named. -/
def State.walkPtrs (s : State) (asid va : Nat) : Nat → Nat → List WalkPtr
  | 0, _ => []
  | fuel + 1, tbl =>
    let level := 4 - fuel
    let pa := tbl + bitsOf va (16 + 10 * fuel) 10 * 8
    let e := s.mem.read pa 8
    if s.badRange pa 8 || !bitOf e 63 || bitOf e 62 || level == 4 || !pointerOk e level then []
    else { asid, level, bits := va / 2 ^ (16 + 10 * fuel), table := leafAddr e } :: s.walkPtrs asid va fuel (leafAddr e)

/-- The deepest pointer of the walk cache that a walk can start from (R312). -/
def Home.walkStart (h : Home) (asid va : Nat) : Option WalkPtr :=
  [3, 2, 1].findSome? (fun l => h.walks.find? (fun p => p.asid == asid && p.level == l && p.bits == va / 2 ^ (16 + 10 * (4 - l))))

/-- The walk of a home: from its walk cache as far as that goes, else from the root (R310, R312). -/
def State.homeWalk (s : State) (site asid va : Nat) : State × Walk :=
  match (s.site site).home.walkStart asid va with
  | some p => (s.modHome site (fun h => { h with walks :=
      ((s.walkPtrs asid va (4 - p.level) p.table).reverse ++ h.walks).take 4096 }), s.walkFrom va (4 - p.level) p.table)
  | none => match s.space asid with
    | none => (s, .np 1 1)
    | some sp => (s.modHome site (fun h => { h with walks := ((s.walkPtrs asid va 4 sp.root).reverse ++ h.walks).take 4096 }),
        s.walkFrom va 4 sp.root)

/-- Why a home has no entry for a request: a PGNP reason and level, or a set in which no entry can be freed (R312). -/
inductive HomeErr where
  | np (reason level : Nat)
  | full
deriving DecidableEq, Repr

/-- A site keeps the size hint of a 64 MiB page. -/
def Home.hinted (h : Home) (asid page : Nat) : Bool := h.hints.any (fun z => z.asid == asid && z.page == page)

/-- The entry that a first home finds without a walk: its own, or the one to which a size hint forwards the request (R307). -/
def State.known (s : State) (asid va : Nat) : Option HomeEntry :=
  let first := homeOf va false
  (s.cached asid va).filter (fun e => e.site == first || (s.site first).home.hinted asid e.page)

/-- A hint has been used, and is kept as the latest. -/
def State.useHint (s : State) (first : Nat) (e : HomeEntry) : State :=
  if e.site = first then s
  else s.modHome first (fun h => { h with
    clock := h.clock + 1, hints := { asid := e.asid, page := e.page, stamp := h.clock } :: h.hints.filter (fun z => !(z.asid == e.asid && z.page == e.page)) })

/-- The first home keeps a size hint of a page that another site owns, in its translation cache (R307); none while its set has no room. -/
def State.keepHint (s : State) (first : Nat) (e : HomeEntry) : Option State :=
  if e.site = first || (s.site first).home.hinted e.asid e.page then some (s.useHint first e)
  else (s.makeRoom first e.page).map (fun t => t.useHint first e)

/-- The entry of a leaf that a walk has found, with zero-fill and its hotness record (R310, R315). -/
def State.newEntry (s : State) (asid va l pa : Nat) (big : Bool) : State × HomeEntry :=
  let (s1, l1) := s.zeroFill l pa big
  (s1, { asid, page := pageOf va big, big, leaf := BitVec.ofNat 64 l1, leafPa := pa, hot := BitVec.ofNat 64 (s1.mem.read (hotPa pa) 8),
         stamp := (s1.site (homeOf va big)).home.clock, moving := false })

/-- An entry joins its home's cache, where the set has room for it. -/
def State.bringIn (s : State) (asid va l pa : Nat) (big : Bool) : Option (State × HomeEntry) :=
  (s.makeRoom (homeOf va big) (pageOf va big)).map (fun s1 =>
    let (s2, e) := s1.newEntry asid va l pa big
    (s2.modHome e.site (fun h => { h with cache := e :: h.cache, clock := h.clock + 1 }), e))

/-- The home's entry for a page: known to the first home, or found by a walk at the first home's site, and then the owner's cached entry or one
that is brought in; the first home of a 64 MiB page that another site owns keeps a size hint (R307, R310, R312, R315) (log 8, DESIGN CHOICE). -/
def State.homeEntry (s : State) (asid va : Nat) : Except HomeErr (State × HomeEntry × Nat) :=
  let first := homeOf va false
  match s.known asid va with
  | some e => .ok ((s.useEntry e).useHint first e, e, 0)
  | none =>
    match s.homeWalk first asid va with
    | (_, .np reason level) => .error (.np reason level)
    | (s0, .leaf l pa big level) =>
      let got := match (s0.cached asid va).filter (fun e => e.big == big) with
        | some e => some (s0.useEntry e, e, 0)
        | none => (s0.bringIn asid va l pa big).map (fun (r : State × HomeEntry) => (r.1, r.2, level))
      match got with
      | none => .error .full
      | some (s1, e, lv) => match s1.keepHint first e with
        | none => .error .full
        | some s2 => .ok (s2, e, lv)

/-- The entry by which an access of the device goes on although its set has no room: it is served from the walk itself (log 8, DESIGN CHOICE). -/
def State.uncached (s : State) (asid va : Nat) : Except HomeErr (State × HomeEntry × Nat) :=
  match s.homeWalk (homeOf va false) asid va with
  | (_, .np reason level) => .error (.np reason level)
  | (s0, .leaf l pa big level) => let (s1, e) := s0.newEntry asid va l pa big; .ok (s1, e, level)

/-- The entry that serves an access. -/
def State.entryFor (s : State) (w : Who) (va : Nat) : Except HomeErr (State × HomeEntry × Nat) :=
  match s.homeEntry w.asid va with
  | .error .full => if w.dev then s.uncached w.asid va else .error .full
  | r => r

/-- Saturating addition to a 16-bit field of a hotness record (R315). -/
def hotAdd (hot : Word) (lo n : Nat) : Word :=
  BitVec.ofNat 64 (setBits hot.toNat lo 16 (min 0xFFFF (bitsOf hot.toNat lo 16 + n)))

/-- HPIN of an entry (R315). -/
def HomeEntry.hpin (e : HomeEntry) : Nat := bitsOf e.hot.toNat 48 16

/-- Count n elements in a field (0 UNIT, 16 STR, 32 IDX) of the page of a place (R316). -/
def State.countHot (s : State) (asid : Nat) (p : Place) (lo n : Nat) : State :=
  if p.typ = 8 then s
  else s.modHome p.home (fun h => { h with cache := h.cache.map (fun o =>
    if o.asid = asid ∧ o.page = p.page ∧ o.big = p.big then { o with hot := hotAdd o.hot lo n } else o) })

/-- SINFO of the page causes (R323). -/
def pageInfo (k : AKind) (level : Nat) (big : Bool) (site reason : Nat) : Nat :=
  level * 2 ^ 19 + (if big then 2 ^ 18 else 0) + site * 2 ^ 16 + k.code * 16 + reason

/-- The PGPROT reason of an access to a leaf, lowest first (R323). -/
def protReason (w : Who) (l : Nat) : Option Nat :=
  let r := bitOf l 58
  let wr := bitOf l 57
  if (w.need == .r || w.need == .rw) && !r then some 1
  else if w.need == .either && !r && !wr then some 1
  else if (w.need == .w || w.need == .rw) && !wr then some 2
  else if w.need == .x && (!bitOf l 56 || leafType l == 1) then some 3
  else if bitOf l 55 && !w.priv then some 4
  else if leafType l == 4 && !w.eng && (w.need == .w || w.need == .rw) then some 5
  else none

/-- The window of an address space that holds an address (R126). -/
def State.windowAt (s : State) (asid va : Nat) : Option Window :=
  s.windows.find? (fun w => w.asid == asid && w.va ≤ va && va < w.va + w.len)

/-- The buffer address that a window access reaches: the bisque buffer for an engine write, else the published one (R127). -/
def Window.buffer (w : Window) (va : Nat) (write : Bool) : Nat :=
  (if w.swapped == write then w.buf0 else w.buf1) + (va - w.va)

/-- The rights of a host-backed page: those of its leaf, intersected with the host's (R317). CLWB and PFLUSH need one of them (R118). -/
def Ats.grants (a : Ats) (l : Nat) : Need → Bool
  | .r => a.r
  | .w => a.w
  | .rw => a.r && a.w
  | .either => (bitOf l 58 && a.r) || (bitOf l 57 && a.w)
  | .x | .look => true

/-- The host translation that an access uses: one that its pins keep although it has been dropped (R319), else the home's. -/
def State.atsFor (s : State) (w : Who) (port pg : Nat) : Option Ats :=
  let fits (a : Ats) : Bool := a.asid == w.asid && a.port == port && a.page == pg
  let kept := match w.pinBy with
    | none => []
    | some h => s.sites.toList.flatMap (fun t => ((t.home.pins ++ t.home.waiting).filter (fun q => q.holder == h)).flatMap (·.ats))
  (kept ++ s.ats).find? fits

/-- A host translation has been used (R312). -/
def State.useAts (s : State) (a : Ats) : State :=
  let t := (s.site a.site).home.clock
  { s.modHome a.site (fun h => { h with clock := h.clock + 1 }) with
    ats := s.ats.map (fun o => if o = a then { o with stamp := t } else o) }

/-- A host-backed page (R317, R318): the cached translation with the needed right, PGHOST for the waiter of a failed request, or a wait with
the request posted. `rep` is the address reported. -/
def State.hostPlace (s : State) (w : Who) (rep va : Nat) (e : HomeEntry) (level : Nat) : Except Stop (State × Place) :=
  let l := e.leaf.toNat
  let site := homeOf va e.big
  let port := bitsOf l 20 2
  let pasid := bitsOf l 0 20
  let pg := va / 4096
  let fail (r : Nat) : Except Stop (State × Place) :=
    .error (.trapIn { cause := .pghost, saddr := rep, sinfo := pageInfo w.kind level e.big site r } s)
  let post (pri : Bool) : State := { s with
    hostReqs := s.hostReqs ++ [{ id := s.nextId, site, asid := w.asid, port, pasid, page := pg, needW := w.need == .w || w.need == .rw, pri,
                                 since := s.time.toNat }], nextId := s.nextId + 1 }
  if !(s.port port).up then fail 3
  else match w.fail.or (if w.dev then (s.devFails.find? (fun f => f.1 == w.asid && f.2.1 == pg)).map (·.2) else none) with
    | some (p, r) => if p = pg then fail r else go port pg post
    | none => go port pg post
where go (port pg : Nat) (post : Bool → State) : Except Stop (State × Place) :=
  let mine := s.hostReqs.find? (fun q => q.asid == w.asid && q.page == pg && q.port == port)
  match s.atsFor w port pg with
  | some a =>
    if a.grants e.leaf.toNat w.need then
      .ok (s.useAts a, { key := (Loc.host port (a.hpa * 4096 + va % 4096)).key, typ := 1, siteOff := none, home := homeOf va e.big,
                         page := e.page, big := e.big })
    else match mine with
    | some q => if q.pri then .error (.parkHost q.id s) else .error .stall
    | none => if (s.hostReqs.filter (fun q => q.pri && q.port == port)).length < (s.port port).priMax then
        .error (.parkHost s.nextId (post true))
      else .error .stall
  | none => if mine.isSome then .error .stall else .error (.stallIn (post false))

/-- The place of a translated ordinary, managed, persistent or replicated page: the requester's site copy of a replica (R258). -/
def State.framePlace (s : State) (w : Who) (va : Nat) (e : HomeEntry) : Place :=
  let l := e.leaf.toNat
  let off := va % pageBytes e.big
  let frame := if leafType l = 2 then s.mem.read (leafAddr l + 8 * s.siteOf w.core) 8 else leafAddr l
  { key := frame + off, typ := leafType l, siteOff := none, home := homeOf va e.big, page := e.page, big := e.big }

/-- A page fault before a place is found. -/
def npTrap (w : Who) (va reason level : Nat) (big : Bool) : Stop :=
  .trap { cause := .pgnp, saddr := va, sinfo := pageInfo w.kind level big (homeOf va big) reason }

/-- A home that has no entry for a request: PGNP, with the report of a poisoned entry, or a wait for the set (R310, R312). -/
def homeStop (s : State) (w : Who) (rep va : Nat) : HomeErr → Stop
  | .np reason level =>
    let t : Trap := { cause := .pgnp, saddr := rep, sinfo := pageInfo w.kind level false (homeOf va false) reason }
    if reason = 4 then .trapIn t (s.logWalk w.asid w.core va reason) else .trap t
  | .full => .stall

/-- An access that a moving page stalls (R321): one that writes, unless its pages are pinned first; that one is admitted, and waits then
(R322). The device's own writes to its control blocks are none of those that R321 names, and go to the old frame, which is copied later. -/
def Who.stallsMoving (w : Who) : Bool := (w.need == .w || w.need == .rw) && !w.pins && w.kind != .none

/-- An access waits for the movement of its page, in order of arrival: its turn is noted, that of the context that issues it (R321). -/
def State.noteStalled (s : State) (site : Nat) (t : Turn) : State :=
  s.modHome site (fun h => { h with moving := h.moving.map (fun m => if m.stalled.contains t then m else { m with stalled := m.stalled ++ [t] }) })

/-- An access served from the entry of its page, any page but a window: PGPROT, PGHOST, MHRAW, and the stall of a moving page (R106, R321).
`rep` is the address reported: the element's own, where the page is a window's buffer (R311, R323). -/
def State.serve (s : State) (w : Who) (rep va : Nat) (e : HomeEntry) (level : Nat) : Except Stop (State × Place) :=
  let l := e.leaf.toNat
  let trap (c : Cause) (r : Nat) : Except Stop (State × Place) :=
    .error (.trapIn { cause := c, saddr := rep, sinfo := pageInfo w.kind level e.big (homeOf va e.big) r } s)
  match protReason w l with
  | some r => trap .pgprot r
  | none =>
    if leafType l = 4 then trap .pgnp 3
    else if leafType l = 1 then s.hostPlace w rep va e level
    else if leafType l = 3 && !w.barrier && w.need ≠ .look && e.hpin == 0 then trap .mhraw 1
    else if leafType l = 2 && !s.replicasOk (leafAddr l) then trap .pgnp 2
    else if e.moving && w.stallsMoving then .error (.stallIn (if w.dev then s else s.noteStalled e.site (.issue s.cur s.curCtx)))
    else .ok (s, s.framePlace w va e)

/-- Translation of a global address at its owner home, with every check of R106 after PROT: PGNP, PGPROT, PGHOST, MHRAW. A window
address goes on to its buffer, which its own owner home translates (R311). -/
def State.translate (s : State) (w : Who) (va : Nat) : Except Stop (State × Place) :=
  match s.entryFor w va with
  | .error x => .error (homeStop s w va va x)
  | .ok (s1, e, level) =>
    let l := e.leaf.toNat
    let unbound : Except Stop (State × Place) :=
      .error (.trapIn { cause := .pgnp, saddr := va, sinfo := pageInfo w.kind level e.big (homeOf va e.big) 3 } s1)
    if leafType l ≠ 4 then s1.serve w va va e level
    else match s1.windowAt w.asid va with
      | none => if !w.eng && (w.need == .r || w.need == .x) then unbound
        else match protReason w l with
          | some r => .error (.trapIn { cause := .pgprot, saddr := va, sinfo := pageInfo w.kind level e.big (homeOf va e.big) r } s1)
          | none => unbound
      | some win => match protReason w l with
        | some r => .error (.trapIn { cause := .pgprot, saddr := va, sinfo := pageInfo w.kind level e.big (homeOf va e.big) r } s1)
        | none =>
          let bva := win.buffer va (w.need == .w || w.need == .rw)
          match s1.entryFor w bva with
          | .error x => .error (homeStop s1 w va bva x)
          | .ok (s2, be, lv) => match s2.serve w va bva be lv with
            | .error x => .error x
            | .ok (s3, p) => .ok (s3, { p with win := true })

/-! ### L1 (R239 to R241) -/

/-- A data-cache hit serves the access with the rights of its fill (R239); atomics, multicast stores and engine accesses perform at the home,
and vector elements are translated there (R113, R306, R313). -/
def Core.l1Hit (k : Core) (w : Who) (va : Nat) : Option L1Line :=
  if w.mstd then none
  else match w.kind with
  | .load | .store => k.l1d.find? (fun c => c.asid == w.asid && c.va == va / 32)
  | .fetch => k.l1i.find? (fun c => c.asid == w.asid && c.va == va / 64)
  | _ => none

/-- Does a hit serve the access: its rights grant it, and it is no barriered access to a managed page, which performs at the home (R181). -/
def L1Line.serves (c : L1Line) (w : Who) : Bool :=
  (match w.need with
    | .r => c.r
    | .w => c.w
    | .rw => c.r && c.w
    | .x => true
    | _ => false) && (!c.so || w.priv) && !(w.barrier && c.typ == 3)

/-- The access counts 1 at its page when it reaches the home (R316): scalar accesses, atomics and fetches; vector elements, rows and engine
pieces count by themselves, and lookups nothing. -/
def Who.counts (w : Who) : Bool :=
  !w.pins && w.kind != .heal && w.kind != .none && w.need != .look && w.need != .either

/-- An access that reaches the home leaves a copy in the core's L1 (R239): loads and stores on control and vector cores, and fetches; never
one to a window, to a host-backed page or to a page that is being moved, a barriered access to a managed page, or a multicast store. Pages of the
pool are filled as R239 and R311 say (log 69, DEDUCED). -/
def State.fills (s : State) (w : Who) (p : Place) (moving : Bool) : Bool :=
  !w.pins && !w.mstd && !moving && !(w.barrier && p.typ == 3) && !p.win && p.typ != 1 && p.typ != 8 &&
    (w.kind == .fetch || ((w.kind == .load || w.kind == .store) && w.need != .either && w.need != .look && s.cls w.core != .tensor))

/-- The line that an access fills into its core's L1, of 32 bytes, or 64 for a fetch. -/
def fillLine (w : Who) (va : Nat) (p : Place) (leaf g : Nat) : L1Line :=
  { asid := w.asid, va := va / g, key := p.key / g * g, r := bitOf leaf 58, w := bitOf leaf 57, so := bitOf leaf 55, typ := p.typ, state := .s }

/-- A global access of `size` bytes: an L1 hit (R239), or translation at the home with the hotness of R316, and a fill or an access at the home
slice. A store into a CXL range that is marked down raises POISON (R357), and an access that ends with POISON counts nothing (R316). -/
def State.globalAccess (s : State) (w : Who) (va size : Nat) : Except Stop (State × Place) :=
  match ((s.core w.core).l1Hit w va).filter (·.serves w) with
  | some c =>
    let g := if w.kind == .fetch then 64 else 32
    let p : Place := { key := c.key + va % g, typ := c.typ, siteOff := none, home := homeOf va false, page := pageOf va false, big := false,
                       inL1 := true }
    if w.need == .w && s.cxlDown p.key then .error (.trapIn (poisonTrap s w p size va) s)
    else .ok (if w.kind == .store then s.storeHit w.core (c.key / 32) else s, p)
  | none =>
    match s.translate w va with
    | .error e => .error e
    | .ok (s1, p0) =>
      let bad := w.need != .w && s1.badRange p0.key size
      let p := { p0 with due := w.late && w.counts }
      let s2 := if w.counts && !w.late && !bad then s1.countHot w.asid p 0 1 else s1
      if w.need == .w && s1.cxlDown p.key then .error (.trapIn (poisonTrap s1 w p size va) s1)
      else match s2.cached w.asid va with
      | some e =>
        if s2.fills w p e.moving then
          if w.kind == .fetch then .ok (s2.fillInstr w.core (fillLine w va p e.leaf.toNat 64), p)
          else .ok (s2.fillData w.core (fillLine w va p e.leaf.toNat 32) (w.kind == .store), { p with inL1 := true })
        else .ok (if p.typ = 1 || w.need == .look || w.need == .w then s2 else s2.performHome p.key size false, p)
      | none => .ok (s2, p)

/-- An access to [va, va + size), which lies within one page or one protection entry. -/
def State.access (s : State) (w : Who) (va size : Nat) : Except Stop (State × Place) :=
  if isLocal va then
    match s.localAccess w va size with
    | .error e => .error e
    | .ok p => .ok (s, p)
  else s.globalAccess w va size

/-! ### Reading and writing a place -/

/-- The owner tag of a 64 KiB block of a site scratchpad (R236). -/
def State.tag (s : State) (site block : Nat) : Nat := (kvGet (site * 1024 + block) s.siteTags).getD 0

/-- Bytes written one by one where the range is alive. -/
def State.writeAlive (s : State) : Nat → List Byte → State
  | _, [] => s
  | k, b :: bs => (if s.cxlDead k then s else { s with mem := s.mem.writeBytes k [b] }).writeAlive (k + 1) bs

/-- Poison met by a read of n bytes; a block of another owner reads zero and shows none (R236) (log 25, DEDUCED). -/
def State.placePoisoned (s : State) (asid : Nat) (p : Place) (n : Nat) : Bool :=
  match p.siteOff with
  | some (t, o) => s.tag t (o / 0x1_0000) == asid && s.mem.poisoned p.key n
  | none => s.mem.poisoned p.key n || s.cxlDeadIn p.key n

/-- Bytes read at a place; bytes in a site-scratchpad block with another tag read as zero (R236). -/
def State.placeBytes (s : State) (asid : Nat) (p : Place) (n : Nat) : List Byte :=
  match p.siteOff with
  | some (t, o) => (upTo n).map (fun i => if s.tag t ((o + i) / 0x1_0000) = asid then s.mem.byte (p.key + i) else 0)
  | none => s.mem.bytes p.key n

def State.placeRead (s : State) (asid : Nat) (p : Place) (n : Nat) : Nat := ofBytes (s.placeBytes asid p n)

/-- Take over one block of a site scratchpad: zero it and set its tag, when the tag differs (R236). -/
def State.claimBlock (s : State) (asid t block : Nat) : State :=
  if s.tag t block = asid then s
  else { s with mem := s.mem.zero (Loc.site t (block * 0x1_0000)).key 0x1_0000,
                siteTags := kvSet (t * 1024 + block) asid s.siteTags }

/-- Bytes written at a place: into the core's own L1 copy, at the L2 home slice (R107, R242), at the owning core or site, or at the host. -/
def State.placeWrite (s : State) (asid : Nat) (p : Place) (bs : List Byte) : State :=
  let s1 := match p.siteOff with
    | some (t, o) => (s.claimBlock asid t (o / 0x1_0000)).claimBlock asid t ((o + bs.length - 1) / 0x1_0000)
    | none => s
  let s2 := if p.typ = 8 || p.typ = 1 || p.inL1 then s1 else s1.performHome p.key bs.length true
  if s2.cxlDeadIn p.key bs.length then s2.writeAlive p.key bs else { s2 with mem := s2.mem.writeBytes p.key bs }

/-- One access wrote these ranges: the atoms that they cover together were written whole, and lose their poison, where the range is alive
(R108, R381). -/
def State.wroteWhole (s : State) (ranges : List (Nat × Nat)) : State :=
  { s with mem := s.mem.clearCovered (ranges.filter (fun r => !s.cxlDeadIn r.1 r.2)) }

/-! ### Accesses of the device by virtual address (control blocks, rings, images) -/

def deviceWho (asid core : Nat) (need : Need) : Who :=
  { asid := asid, core := core, priv := true, kind := .none, need := need, dev := true }

/-- The place of an access by the device within one 64 KiB granule. -/
def State.devPlace (s : State) (asid va n : Nat) (need : Need) : Except Stop (State × Place) :=
  if isLocal va || va + n > 2 ^ 56 then .error (.trap { cause := .prot, saddr := va }) else s.translate (deviceWho asid 0 need) va

/-- The access that stopped waits, and the state in which it does: for a host translation, or for room in its home. -/
def Stop.waits (s : State) : Stop → Option State
  | .stall => some s
  | .stallIn t => some t
  | .parkHost _ t => some t
  | _ => none

/-- What a stop that is no wait leaves: the walk that it made, and the report of a poisoned entry. -/
def Stop.left (s : State) : Stop → State
  | .trapIn _ t => t
  | _ => s

/-- A read by the device within one page of 4 KiB: none when translation, a right or poison forbids it. Where the page cannot be reached yet the
attempt that makes the read is blocked, and the value given is of no use. -/
def State.devRead (s : State) (asid va n : Nat) : Option (State × Nat) :=
  if s.blocked then some (s, 0)
  else match s.devPlace asid va n .r with
  | .error x => (x.waits s).map (fun s1 => ({ s1 with blocked := true }, 0))
  | .ok (s1, p) => if s1.placePoisoned asid p n then none else some (s1, s1.placeRead asid p n)

/-- A write by the device within one page of 4 KiB. -/
def State.devWrite (s : State) (asid va n v : Nat) : Option State :=
  if s.blocked then some s
  else match s.devPlace asid va n .w with
  | .error x => (x.waits s).map (fun s1 => { s1 with blocked := true })
  | .ok (s1, p) => some (s1.placeWrite asid p (toBytes n v))

/-- The state before an attempt, with the host requests that the attempt has posted. -/
def State.askedBy (s t : State) : State :=
  { s with hostReqs := s.hostReqs ++ t.hostReqs.filter (fun q => s.nextId ≤ q.id), nextId := max s.nextId t.nextId }

/-- What an attempt that ended in state t leaves of state s: all that it did; or, where it met a page that the device cannot reach yet, because its
host translation is outstanding or the page is being moved, the requests that it posted, and it is made again (R312, R317, R321; log 70, DESIGN
CHOICE). -/
def State.orAsk (s t : State) : State := if t.blocked then s.askedBy t else t

/-- A piece of work of the device, done whole or not yet. -/
def State.attempt (s : State) (f : State → State) : State := s.orAsk (f s)

/-- The state that an attempt has made, or the wait of the instruction that it belongs to. -/
def State.whole (s t : State) : Except Stop State := if t.blocked then .error (.stallIn (s.askedBy t)) else .ok t

/-- The same for an instruction's work through the device: it waits. -/
def attempt (body : State → Except Stop State) (s : State) : Except Stop State :=
  match body s with
  | .ok t => s.whole t
  | .error (.trapIn x t) => .error (if t.blocked then .stallIn (s.askedBy t) else .trapIn x t)
  | .error (.stallIn t) => .error (.stallIn (s.orAsk t))
  | .error e => .error e

/-- The page of an address that the device is about to read is reached, or the attempt is blocked; a poisoned table entry on the way is reported
(R310). -/
def State.devTouch (s : State) (asid va : Nat) : State :=
  if s.blocked then s
  else match s.devPlace asid va 1 .r with
  | .ok (s1, _) => s1
  | .error x => match x.waits s with
    | some s1 => { s1 with blocked := true }
    | none => x.left s

/-- A read of k doublewords by the device. -/
def State.devReads (s : State) (asid va : Nat) : Nat → Option (State × List Nat)
  | 0 => some (s, [])
  | k + 1 => do
    let (s1, v) ← s.devRead asid va 8
    let (s2, vs) ← s1.devReads asid (va + 8) k
    return (s2, v :: vs)

/-- What a read of k doublewords that has failed leaves: the walks that it made, and the report of a poisoned table entry (R310). -/
def State.devLeft (s : State) (asid va : Nat) : Nat → State
  | 0 => s
  | k + 1 => match s.devRead asid va 8 with
    | some (s1, _) => s1.devLeft asid (va + 8) k
    | none => s.devTouch asid va

/-- Writes of doublewords by the device; those it cannot make are dropped. -/
def State.devWrites (s : State) (asid va : Nat) : List Nat → State
  | [] => s
  | v :: vs => ((s.devWrite asid va 8 v).getD s).devWrites asid (va + 8) vs

end Sys2Proof.Machine
end

