-- ==== Sys2Proof/Machine/Image.lean ====
section
/-! DEFINITION. Needed capability masks (R89, R129, R154, R174, R182), and the context image as bytes: its
layout and the checks on load (R32 to R34, R138, R139). -/

namespace Sys2Proof.Machine

/-! ### Needed masks -/

/-- The capability mask of an encoding (R81, R89, R129, R154, R174, R182): major, SUB and the format fields of the tail. -/
def maskOf (maj sub tail : Nat) : Nat :=
  let f := bitsOf tail 10 6
  match maj with
  | 0x04 => if sub < 4 then 0x0003 else 0x0001
  | 0x11 => if sub < 6 then 0x0001 else 0x0011
  | 0x1C => if f % 4 = 1 then 0x000D else 0x0005
  | 0x1D => match sub with
    | 0 => if bitsOf tail 25 2 = 1 then 0x000D else 0x0005
    | 1 => if f % 32 = 4 || bitsOf tail 5 5 = 4 then 0x000D else 0x0005
    | _ => if f % 32 = 4 then 0x000D else 0x0005
  | 0x20 => if sub = 5 || sub = 6 then 0x0091 else 0x0011
  | 0x21 | 0x22 | 0x23 | 0x25 => 0x0031
  | 0x24 => if sub = 2 then 0x0011 else 0x0031
  | 0x26 | 0x27 | 0x28 => 0x0011
  | 0x29 => 0x0111
  | 0x30 => if sub = 2 || sub = 3 || sub = 7 then 0x0041 else 0x0051
  | 0x31 => 0x0041
  | 0x36 | 0x37 => 0x0201
  | 0x39 => if sub = 2 || sub = 3 || sub = 4 || sub = 7 then 0x0001 else 0x0401
  | 0x3A | 0x3B => 0x0401
  | _ => 0x0001

/-- The needed mask of an instruction; a step of the machine needs none. -/
def neededMask (i : Instr) : Nat :=
  match encode i with
  | some e => maskOf e.maj.toNat e.sub.toNat e.tail.toNat
  | none => 0

/-- CLASSCAP holds a mask. -/
def capHolds (k : Cls) (mask : Nat) : Bool := mask &&& capOf k == mask

/-- A vector instruction that waits in a queue (R135): majors 21 to 29, VMOVX, MPOP and MFIRST apart, whose scalar half stalls the
pipe until they are done. -/
def isQueued (i : Instr) : Bool :=
  match encode i with
  | none => false
  | some e =>
    let m := e.maj.toNat
    let b := e.sub.toNat
    0x21 ≤ m && m ≤ 0x29 && !(m == 0x26 && b == 0) && !(m == 0x27 && (b == 5 || b == 6))

/-- An entry captures three x operands (R139): a strided VLD or VST, or a VLDS or VSTS, with NTF = 1. -/
def threeOps (i : Instr) : Bool :=
  match i with
  | .vld o | .vst o => o.f16.toNat % 4 == 3
  | .vlds o | .vsts o => o.f16.toNat / 2 % 2 == 1
  | _ => false

/-- An entry captures a second x operand (R139): a stride or scale-plane pointer, a notify address, or the index of VINS. -/
def twoOps (i : Instr) : Bool :=
  match i with
  | .vld o | .vst o => o.f16.toNat % 4 != 0
  | .vldx o | .vstx o => bitOf o.f16.toNat 1
  | .vlds _ | .vsts _ | .vins _ => true
  | _ => false

/-- The masks an image needs: its parts and its queue entries (R34, R138, R230). -/
def Image.partMask (g : Image) : Nat :=
  (if g.v.isSome || g.m.isSome || !g.queue.isEmpty then 0x0010 else 0) ||| (if g.acc.isEmpty then 0 else 0x0040)

def Image.mask (g : Image) : Nat := g.queue.foldl (fun a e => a ||| neededMask e.instr) g.partMask

/-! ### Writing an image (R32, R33, R139) -/

/-- Doublewords of a wide register of n doublewords. -/
def dwords {w : Nat} (v : BitVec w) (n : Nat) : List Nat := (upTo n).map (fun k => (v.extractLsb' (64 * k) 64).toNat)

def slotsOf (e : VEntry) : Nat := if threeOps e.instr then 2 else 1

def Image.slots (g : Image) : Nat := (g.queue.map slotsOf).sum

/-- One queue entry as its slots (R139). -/
def entryDwords (e : VEntry) : List Nat :=
  let three := threeOps e.instr
  let w0 := (headOf e.instr).toNat + e.vtype.toNat * 2 ^ 16 + e.vl % 2 ^ 16 * 2 ^ 32 + (if e.done then 2 ^ 48 else 0)
    + (if three then 2 ^ 49 else 0)
  [w0, (tailOf e.instr).toNat, e.op1.toNat, e.op2.toNat] ++ (if three then [e.op3.toNat, 0, 0, 0] else [])

/-- The format word (R32). -/
def Image.format (g : Image) : Nat :=
  2 + clsCode g.cls * 2 ^ 8 + (if g.v.isSome then 2 ^ 16 else 0) + (if g.m.isSome then 2 ^ 17 else 0)
    + (if g.queue.isEmpty then 0 else 2 ^ 18) + (g.acc.map (fun p => 2 ^ (19 + p.1))).sum + g.slots * 2 ^ 32

def b2n (b : Bool) : Nat := if b then 1 else 0

/-- The 64 doublewords of the base part (R32). Offset 0x008 is the PC with the bits [63:56] that a control transfer has given it, so that a strand
stopped before the fetch at its target still meets ILLINE there (R16; log 39, DEDUCED). -/
def Image.base (g : Image) : List Nat :=
  let k := g.ctx
  [g.format, k.pc.toNat, k.strandId.toNat, k.asid.toNat + b2n k.priv * 2 ^ 16, k.scause.toNat, k.saddr.toNat,
    k.vtype.toNat, k.fflags.toNat + k.frm.toNat * 2 ^ 8 + k.slipcfg.toNat * 2 ^ 32]
  ++ (k.x.toList.drop 1).map (·.toNat) ++ k.q.toList.map (·.toNat)
  ++ [k.mstart.toNat, k.inldepth.toNat, k.pend.toNat + k.tokErr.toNat * 2 ^ 32, k.sinfo.toNat, 0, 0, 0, 0, 0]

/-- Byte offset of the queue part, when there is one (R33, SQIMG of R22). -/
def Image.queueOffset (g : Image) : Nat := 512 + (if g.v.isSome then 16384 else 0) + (if g.m.isSome then 768 else 0)

/-- The optional parts in the order of R33. -/
def Image.parts (g : Image) : List Nat :=
  (match g.v with | some v => v.toList.flatMap (fun r => dwords r 64) | none => [])
  ++ (match g.m with | some m => m.toList.flatMap (fun r => dwords r 8) | none => [])
  ++ g.queue.flatMap entryDwords ++ g.acc.flatMap (fun p => dwords p.2 2048)

def Image.bytes (g : Image) : Nat := 8 * (64 + g.parts.length)

/-! ### Reading an image (R34, R139) -/

/-- A refused image: the block kind of CBFMT (5 context image, 6 queue-image entry) and the first offending doubleword (R324). -/
structure BadImage where
  kind : Nat
  index : Nat
deriving DecidableEq, Repr

/-- Register-wide value of doublewords. -/
def fromDwords (w : Nat) (ds : List Nat) : BitVec w := BitVec.ofNat w (ds.foldr (fun d a => d + 2 ^ 64 * a) 0)

/-- Split a list into pieces of k. -/
def pieces (k : Nat) : Nat → List Nat → List (List Nat)
  | 0, _ => []
  | n + 1, l => l.take k :: pieces k n (l.drop k)

/-- The base part's zero fields, those of STRANDID (R21), VTYPE (R25), SLIPCFG (R137), q registers (R14, R171) and MSTART (R164) among them,
version and privilege (R32, R34): the index of the first doubleword that breaks them (log 39, DEDUCED). -/
def badBase (d : List Nat) : Option Nat :=
  let g (i : Nat) := d.getD i 0
  let f := g 0
  let ok : List (Nat × Bool) :=
    [(0, f % 256 == 2 && bitsOf f 10 6 == 0 && bitsOf f 23 9 == 0 && f < 2 ^ 40 && bitsOf f 32 8 ≤ 192
        && (bitOf f 18 || bitsOf f 32 8 == 0)),
     (2, g 2 < 2 ^ 48), (3, g 3 < 2 ^ 18 && bitsOf (g 3) 16 2 < 2), (4, g 4 < 256), (6, g 6 < 2 ^ 14),
     (7, g 7 < 2 ^ 48 && bitsOf (g 7) 11 21 == 0 && bitsOf (g 7) 5 3 == 0 && bitsOf (g 7) 46 2 == 0 && bitsOf (g 7) 38 2 == 0)]
    ++ (upTo 16).map (fun k => (39 + k, bitsOf (g (39 + k)) 56 6 == 0))
    ++ [(55, bitsOf (g 55) 32 27 == 0), (56, g 56 < 256), (58, g 58 == 0 || g 4 != 0)]
    ++ (upTo 5).map (fun k => (59 + k, g (59 + k) == 0))
  (ok.find? (fun p => !p.2)).map (·.1)

/-- The class cannot hold a part that a present bit names (R34). Parts that disagree with VTYPE.EW are no ground of refusal: parts of an
image with EW = 0 are not used, and registers without a part are zero (R12; log 41, DEDUCED) (log 39, DEDUCED). -/
def badParts (cls : Cls) (f : Nat) : Bool :=
  (cls == .control && (bitOf f 16 || bitOf f 17 || bitOf f 18)) || (cls != .tensor && bitsOf f 19 4 != 0)

/-- The head of an entry that decode refuses is at fault, or else its tail (R139): an unlisted head, a TL that the map does not allow, and a D that
its entry does not take lie in the head. -/
def headBreach (h : BitVec 16) (t : BitVec 64) : Bool :=
  let ok (h : BitVec 16) (t : BitVec 64) : Bool := match decode h t with | .ok _ => true | .error _ => false
  let h0 := h &&& 0xFF07
  match decode h t with
  | .ok _ => false
  | .error .unlisted | .error .tail => true
  | .error _ => ok h0 t || (!ok h 0 && ok h0 0)

/-- The queue entries of an image from its slots (R139); `i` is the doubleword index from the image start, `pcs` the value that
an entry's PC takes, which no image holds (log 23, DESIGN CHOICE); the captured SLIPCFG is the strand's, as the base part carries it. -/
def parseEntries (cls : Cls) (pcv : Word) (lskew : BitVec 3) (slip : BitVec 16) : Nat → Nat → List Nat → Except BadImage (List VEntry)
  | 0, _, _ => .ok []
  | n + 1, i, d => do
    let g (k : Nat) := d.getD k 0
    if g 0 ≥ 2 ^ 50 || bitsOf (g 0) 30 2 ≠ 0 then .error ⟨6, i⟩
    match decode (BitVec.ofNat 16 (g 0)) (BitVec.ofNat 64 (g 1)) with
    | .error _ => .error ⟨6, if headBreach (BitVec.ofNat 16 (g 0)) (BitVec.ofNat 64 (g 1)) then i else i + 1⟩
    | .ok ins =>
      if !isQueued ins then .error ⟨6, i⟩
      if !capHolds cls (neededMask ins) then .error ⟨6, i⟩
      let three := threeOps ins
      if bitOf (g 0) 49 != three || (three && n == 0) then .error ⟨6, i⟩
      if g 1 ≥ 2 ^ (16 * tlLen (bitsOf (g 0) 8 2)) then .error ⟨6, i + 1⟩
      if !twoOps ins && g 3 ≠ 0 then .error ⟨6, i + 3⟩
      let e : VEntry := { instr := ins, pc := pcv, ctx := .u, vtype := BitVec.ofNat 16 (bitsOf (g 0) 16 16),
                          vl := bitsOf (g 0) 32 16, lskew, slip, op1 := BitVec.ofNat 64 (g 2), op2 := BitVec.ofNat 64 (g 3),
                          op3 := if three then BitVec.ofNat 64 (g 4) else 0, done := bitOf (g 0) 48, replay := false }
      if three then
        match n with
        | 0 => .error ⟨6, i⟩
        | m + 1 =>
          match [5, 6, 7].find? (fun k => g k != 0) with
          | some k => .error ⟨6, i + k⟩
          | none => do
            let es ← parseEntries cls pcv lskew slip m (i + 8) (d.drop 8)
            return e :: es
      else do
        let es ← parseEntries cls pcv lskew slip n (i + 4) (d.drop 4)
        return e :: es

/-- The context of a base part. MCGROUP reads zero (R32). -/
def baseCtx (d : List Nat) : Ctx :=
  let g (i : Nat) := d.getD i 0
  let w (i : Nat) : Word := BitVec.ofNat 64 (g i)
  { pc := w 1, x := Vector.ofFn (fun i : Fin 32 => if i.val = 0 then 0 else w (7 + i.val)),
    q := Vector.ofFn (fun i : Fin 16 => w (39 + i.val)), fflags := BitVec.ofNat 5 (g 7), frm := BitVec.ofNat 3 (g 7 / 256),
    inldepth := BitVec.ofNat 8 (g 56), vtype := BitVec.ofNat 16 (g 6), mstart := w 55,
    slipcfg := BitVec.ofNat 16 (g 7 / 2 ^ 32), mcgroup := 0, strandId := BitVec.ofNat 48 (g 2), asid := BitVec.ofNat 16 (g 3),
    priv := bitOf (g 3) 16, scause := BitVec.ofNat 8 (g 4), saddr := w 5, sinfo := w 58, pend := BitVec.ofNat 32 (g 57),
    tokErr := BitVec.ofNat 32 (g 57 / 2 ^ 32), line := none, waiting := .no, deadline := none }

/-- How many doublewords the image whose format word is f has. -/
def imageDwords (f : Nat) : Nat :=
  64 + (if bitOf f 16 then 2048 else 0) + (if bitOf f 17 then 96 else 0) + 4 * bitsOf f 32 8 + 2048 * popBelow (bitsOf f 19 4) 4

/-- An image read from its doublewords, with the checks of R34 and R139 for the class that loads it (log 39, DEDUCED). -/
def parseImage (cls : Cls) (pcv : Word) (lskew : BitVec 3) (d : List Nat) : Except BadImage Image := do
  let f := d.getD 0 0
  match badBase d with
  | some i => .error ⟨5, i⟩
  | none =>
    if badParts cls f then .error ⟨5, 0⟩
    let d1 := d.drop 64
    let nv := if bitOf f 16 then 2048 else 0
    let nm := if bitOf f 17 then 96 else 0
    let slots := bitsOf f 32 8
    let d2 := d1.drop nv
    let d3 := d2.drop nm
    let q ← parseEntries cls pcv lskew (baseCtx d).slipcfg slots (64 + nv + nm) d3
    let accs := (upTo 4).filter (fun k => bitOf f (19 + k))
    let ad := pieces 2048 accs.length (d3.drop (4 * slots))
    let vs := pieces 64 32 d1
    let ms := pieces 8 12 d2
    let origin : Cls := match bitsOf f 8 2 with | 0 => .control | 1 => .vector | _ => .tensor
    return { ctx := baseCtx d, cls := origin,
             v := if bitOf f 16 then some (Vector.ofFn (fun i : Fin 32 => fromDwords 4096 (vs.getD i.val []))) else none,
             m := if bitOf f 17 then some (Vector.ofFn (fun i : Fin 12 => fromDwords 512 (ms.getD i.val []))) else none,
             queue := q, acc := accs.zip (ad.map (fromDwords 131072)), poison := [] }

end Sys2Proof.Machine
end

