-- ==== Sys2Proof/Machine/Log.lean ====
section
/-! DEFINITION. The capture ring (R404 to R406): how the device writes a record, and how a replay reads the next recorded choice; and the address
that an error record names (R380). -/

namespace Sys2Proof.Machine

/-! ### Addresses that a record names -/

/-- The device PA that a virtual address reaches, 0 when it reaches none. -/
def State.paOf (s : State) (asid va : Nat) : Nat :=
  if isLocal va || va ≥ 2 ^ 56 || va = 0 then 0
  else match s.translate { deviceWho asid 0 .look with barrier := true } va with
    | .ok (_, p) => if p.key < 2 ^ 47 then p.key else 0
    | .error _ => 0

/-! ### The capture ring (R404 to R406; log 32, DESIGN CHOICE for the places of the fields) -/

def State.capSlot (s : State) (p : Nat) : Nat := s.mgmt.capRing + 0x4000 + p % 2 ^ s.mgmt.capLogn * 64

/-- Capture has room for n more records; work that would need more is held (R405). -/
def State.capRoom (s : State) (n : Nat) : Bool :=
  s.mgmt.capMode ≠ 1 || (n ≤ 2 ^ s.mgmt.capLogn && (upTo n).all (fun i => s.mem.read (s.capSlot (s.mgmt.capPos + i)) 8 == s.mgmt.capPos + i))

/-- Work is held for ring space: STALL (R403). -/
def State.capHold (s : State) : State := { s with mgmt := { s.mgmt with capStall := true } }

/-- Doubleword 1 of a record (log 32, DESIGN CHOICE). -/
def capHead (kind b h w : Nat) : Nat := kind + b % 2 ^ 8 * 2 ^ 8 + h % 2 ^ 16 * 2 ^ 16 + w % 2 ^ 32 * 2 ^ 32

/-- Write a record in capture mode; nothing in any other mode. -/
def State.capture (s : State) (head : Nat) (dws : List Nat) : State :=
  if s.mgmt.capMode ≠ 1 then s
  else match s.putRing (s.mgmt.capRing + 0x4000) (2 ^ s.mgmt.capLogn) s.mgmt.capPos (head :: s.time.toNat :: dws) with
    | none => s
    | some s1 => { s1 with mgmt := { s1.mgmt with capPos := s1.mgmt.capPos + 1 } }

/-- Doublewords 1 to 7 of the recorded choice at a ring position, when one is published there. -/
def State.replayAt (s : State) (p : Nat) : Option (List Nat) :=
  let a := s.capSlot p
  if s.mem.read a 8 = p + 1 then some ((upTo 7).map (fun i => s.mem.read (a + 8 + 8 * i) 8)) else none

/-- The next recorded choice in replay mode. -/
def State.replayNext (s : State) : Option (List Nat) := s.replayAt s.mgmt.capPos

/-- A recorded choice has been made: its slot is freed (R261). -/
def State.replayTake (s : State) : State :=
  { s with mem := s.mem.write (s.capSlot s.mgmt.capPos) 8 (s.mgmt.capPos + 2 ^ s.mgmt.capLogn),
           mgmt := { s.mgmt with capPos := s.mgmt.capPos + 1, capSince := s.time.toNat } }

/-- The measurement register i becomes SHA3-384(M ‖ d) (R400). -/
def State.extend (s : State) (i : Nat) (d : List Byte) : State :=
  let m := s.mgmt.measure[i % 8]'(Nat.mod_lt _ (by decide))
  { s with mgmt := { s.mgmt with
      measure := s.mgmt.measure.set (i % 8) (Config.sha3 (toBytes 48 m.toNat ++ d)) (Nat.mod_lt _ (by decide)) } }

/-- CAPCTL.MODE changes, which extends register 5 with the new mode (R400, R403). -/
def State.setCapMode (s : State) (mode : Nat) : State :=
  if s.mgmt.capMode = mode then s
  else ({ s with mgmt := { s.mgmt with capMode := mode, capStall := false } }).extend 5 (toBytes 1 mode)

/-- Replay ends with a result (R406). -/
def State.endReplay (s : State) (result : Nat) : State :=
  let s1 := s.setCapMode 0
  { s1 with mgmt := { s1.mgmt with capResult := result } }

/-! ### Buffer digests (R404, R405) -/

/-- Bytes of a virtual range as the device reads them, page by page of 4 KiB; `fuel` bounds the pages (log 32, DESIGN CHOICE). -/
def State.devBytes (s : State) (asid : Nat) : Nat → Nat → Nat → State × Option (List Byte)
  | 0, _, _ => (s, some [])
  | fuel + 1, va, n =>
    if n = 0 then (s, some [])
    else
      let m := min n (4096 - va % 4096)
      match s.devRead asid va m with
      | none => (s, none)
      | some (s1, v) =>
        let (s2, t) := s1.devBytes asid fuel (va + m) (n - m)
        (s2, t.map (toBytes m v ++ ·))

/-- VA of a buffer entry of the ring header. -/
def State.capEntry (s : State) (e : Nat) : Nat := s.mgmt.capRing + 0x100 + 128 * e

/-- The buffer table that a ring header holds (R404). -/
def State.readBufs (s : State) (ring : Nat) : List (Nat × Nat × Nat) :=
  (upTo (s.mem.read ring 8)).map (fun e => let b := ring + 0x100 + 128 * e
    (s.mem.read b 8, s.mem.read (b + 8) 8, s.mem.read (b + 0x10) 8))

/-- Indices of the buffer entries of an address space. -/
def State.capEntries (s : State) (asid : Nat) : List Nat :=
  (upTo s.mgmt.capBufs.length).filter (fun e => (s.mgmt.capBufs[e]?).any (fun b => b.2.2 == asid))

/-- The digest of a buffer. -/
def State.capDigest (s : State) (asid e : Nat) : State × BitVec 384 :=
  let (va, n, _) := (s.mgmt.capBufs[e]?).getD (0, 0, 0)
  let (s1, bs) := s.devBytes asid (n / 4096 + 2) va n
  match bs with
  | some bs => (s1, Config.sha3 bs)
  | none => ({ s1 with free := s1.free + 1 }, Config.freeDigest s1.free)

/-- The first take of a job of an address space in capture mode: its buffers' digests are written, and the record of kind 2. -/
def State.capDigests (s : State) (asid : Nat) : State :=
  let es := s.capEntries asid
  let s1 := es.foldl (fun (t : State) e =>
    let (u, d) := t.capDigest asid e
    { u with mem := u.mem.write (u.capEntry e + 0x20) 48 d.toNat }) s
  s1.capture (capHead 2 0 asid es.length) []

/-- The digests of an address space agree with those that the capture wrote (R406). -/
def State.capAgree (s : State) (asid : Nat) : State × Bool :=
  (s.capEntries asid).foldl (fun (acc : State × Bool) e =>
    let (u, d) := acc.1.capDigest asid e
    (u, acc.2 && u.mem.read (u.capEntry e + 0x20) 48 == d.toNat)) (s, true)

end Sys2Proof.Machine
end

