-- ==== Sys2Proof/Machine/Pins.lean ====
section
/-! DEFINITION. Translation pins at the homes (R313, R314). -/

namespace Sys2Proof.Machine

/-- Pins held at a home. -/
def Home.pinned (h : Home) : Nat := (h.pins.map (·.pages.length)).sum

/-- Distinct pages of the places owned by a site. -/
def pagesAt (site : Nat) (pls : List Place) : List (Nat × Bool) :=
  (pls.filter (fun p => p.typ != 8 && p.home == site)).foldl
    (fun acc p => if acc.contains (p.page, p.big) then acc else acc ++ [(p.page, p.big)]) []

/-- What a holder asks of a home: the pages, and the host translations of those that are host-backed (R313, R319). -/
def State.pinReq (s : State) (h : Holder) (asid site : Nat) (pages : List (Nat × Bool)) : PinReq :=
  { holder := h, asid, pages, ats := s.ats.filter (fun a => a.site == site % 4 && a.asid == asid &&
      (pages.contains (a.page / 16, false) || pages.contains (a.page / 2 ^ 14, true))) }

/-- Pinning at one site: granted already, admitted at once when nobody waits and the table has room, else waiting. -/
def State.pinSite (s : State) (h : Holder) (asid site : Nat) (pages : List (Nat × Bool)) : State × Bool :=
  let hm := (s.site site).home
  if pages.isEmpty || hm.pins.any (fun q => q.holder == h) then (s, true)
  else if hm.waiting.any (fun q => q.holder == h) then (s, false)
  else
    let q := s.pinReq h asid site pages
    if hm.waiting.isEmpty && hm.pinned + pages.length ≤ 4096 then (s.modHome site (fun t => { t with pins := t.pins ++ [q] }), true)
    else (s.modHome site (fun t => { t with waiting := t.waiting ++ [q] }), false)

/-- A holder has a pin or a request at some home. -/
def State.hasPins (s : State) (h : Holder) : Bool :=
  s.sites.any (fun t => t.home.pins.any (fun q => q.holder == h) || t.home.waiting.any (fun q => q.holder == h))

/-- Release every pin and request of a holder. -/
def State.unpin (s : State) (h : Holder) : State :=
  if !s.hasPins h then s
  else { s with sites := s.sites.map (fun t => { t with home := { t.home with
      pins := t.home.pins.filter (fun q => q.holder != h), waiting := t.home.waiting.filter (fun q => q.holder != h) } }) }

/-- What a holder has pinned or asked for is what its places now name: a page owned elsewhere, its size having changed since sizing, refuses
the request (R314). -/
def State.pinsFit (s : State) (h : Holder) (pls : List Place) : Bool :=
  [0, 1, 2, 3].all (fun site => ((s.site site).home.pins ++ (s.site site).home.waiting).all
    (fun q => q.holder != h || q.pages == pagesAt site pls))

/-- Pinning at the owner sites in rising order, each only after the one before it has been admitted (R313); pins that no longer fit are
released first, and the access starts again from sizing (R314). -/
def State.pinAll (s : State) (h : Holder) (asid : Nat) (pls : List Place) : State × Bool :=
  let s0 := if s.pinsFit h pls then s else s.unpin h
  [0, 1, 2, 3].foldl (fun (acc : State × Bool) site =>
    if acc.2 then acc.1.pinSite h asid site (pagesAt site pls) else acc) (s0, true)

/-- The page of a place is being moved (R321). -/
def State.placeMoving (s : State) (asid : Nat) (p : Place) : Bool :=
  p.typ != 8 && (s.site p.home).home.cache.any (fun e => e.asid == asid && e.page == p.page && e.big == p.big && e.moving)

def State.anyMoving (s : State) (asid : Nat) (pls : List Place) : Bool := pls.any (s.placeMoving asid)

/-- A piece of work waits for those of its pages that are being moved: its turn is noted, in order of arrival (R321). -/
def State.noteMoving (s : State) (asid : Nat) (pls : List Place) (t : Turn) : State :=
  (pls.filter (s.placeMoving asid)).foldl (fun (u : State) p => u.noteStalled p.home t) s

end Sys2Proof.Machine
end

