-- ==== Sys2Proof/Machine/Sched.lean ====
section
/-! DEFINITION. Placing strands: events (R300), join words (R188), occupants and arrival queues (R28, R220, R226 to R231), the spill
area and overflow lists (R229, R329), and the completion of records, runs and jobs (R198, R291, R298 to R303). -/

namespace Sys2Proof.Machine

def State.now (s : State) : Nat := s.time.toNat

/-! ### Event rings (R300) -/

/-- Write one event at the next ring position when its slot is free; none when the ring is full or cannot be reached. -/
def State.putEvent (s0 : State) (sp : Space) (e : Event) : Option State := do
  let slot := sp.eventVa + sp.eventPos % sp.eventSlots * 64
  let s := s0.devTouch sp.asid slot
  let (s1, q) ← s.devRead sp.asid slot 8
  if q ≠ sp.eventPos then none
  let s2 := s1.devWrites sp.asid (slot + 8) [e.queue * 2 ^ 16 + e.cause, e.va, e.detail, 0, 0, 0, 0]
  let s3 ← s2.devWrite sp.asid slot 8 (sp.eventPos + 1)
  let (s4, n) ← s3.devRead sp.asid sp.notifyVa 8
  let s5 ← s4.devWrite sp.asid sp.notifyVa 8 ((n + 1) % 2 ^ 64)
  return s5.modSpace sp.asid (fun p => { p with eventPos := p.eventPos + 1 })

/-- Report an event: written at once, held while the ring is full or cannot be reached yet, counted beyond 64 held ones (R300). -/
def State.event (s : State) (asid cause queue va detail : Nat) : State :=
  match s.space asid with
  | none => s
  | some sp =>
    let e : Event := { cause, queue, va, detail }
    let hold (t : State) := t.modSpace asid (fun p =>
      if p.held.length < 64 then { p with held := p.held ++ [e] } else { p with lost := p.lost + 1 })
    if sp.held.isEmpty && sp.lost == 0 then match s.putEvent sp e with
      | none => hold s
      | some t => if t.blocked then hold (s.askedBy t) else t
    else hold s

/-- CBFMT as an event to a queue's service code (R30, R198, R291): detail is the block kind. -/
def State.cbfmtEvent (s : State) (asid queue va kind : Nat) : State := s.event asid 2 queue va kind

/-! ### Join words (R29, R188) -/

/-- The join-word update of R188 on a value. -/
def joinStep (w : Nat) (abnormal : Bool) (ord : Nat) : Nat :=
  let out := bitsOf w 0 32
  let abn := bitsOf w 32 16
  let first := bitsOf w 48 16
  (out - 1) + (if abnormal then min (abn + 1) 0xFFFF else abn) * 2 ^ 32
    + (if abnormal && first == 0 then ord else first) * 2 ^ 48

def UWork.holds : UWork → Bool
  | .empty => false
  | _ => true

/-- A strand of an address space is in the core's U context or arrival queue. -/
def Core.hasStrandOf (k : Core) (asid : Nat) : Bool :=
  (k.uWork.holds && k.u.as == asid) || k.arrival.any (fun p => p.img.ctx.as == asid)

/-- The zeroing of an occupant change ends (R28, R220, R247): the scratchpad below the arrival-queue region and the lane slices read zero,
and the new occupant owns the mailbox. -/
def State.endZeroing (s : State) (c : Nat) : State :=
  let m := (s.mem.zero (Loc.spad c 0).key (spadSize (s.cls c) - 0x2000)).zero (Loc.slice c 0).key (2 ^ 17)
  ({ s with mem := m }).modCore c (fun k => { k with
    zeroing := false, owner := if k.hasStrandOf k.prevAsid then some k.prevAsid else none })

/-- Another core's MOPAK that has been let read panels in the scratchpad of core c is still under way (R161, R236). -/
def State.panelsRead (s : State) (c : Nat) : Bool :=
  s.cores.any (fun p => p.1 != c && (p.2.long.map (fun l => l.panels.contains c)).getD false)

/-- An access to another core's scratchpad that arrives while it zeroes is made once the zeroing has ended (R236), which reads of panels there
hold back: none until then. -/
def State.awaitZeroing (s : State) (core va : Nat) : Option State := match localPlace core va with
  | .spad c _ => if c ≠ core ∧ (s.core c).zeroing then (if s.panelsRead c then none else some (s.endZeroing c)) else some s
  | _ => some s

/-- The place of a join word as the device reaches it, a local-window address being that of a core. -/
def State.joinPlace (s : State) (asid core va : Nat) : Except Stop (State × Place) :=
  let w : Who := { deviceWho asid core .rw with kind := .atomic }
  if va % 8 ≠ 0 then .error (.trap { cause := .align, saddr := va })
  else if isLocal va then
    match s.awaitZeroing core va with
    | none => .error .stall
    | some s1 => (s1.localAccess w va 8).map (fun p => (s1, p))
  else s.translate w va

/-- One atomic read-modify-write of a join word or completion word by the device, the attempt being blocked while the word is to be waited for;
`fail` follows a word that cannot be updated. -/
def State.updateWord (s : State) (asid core va : Nat) (f : Nat → Nat) (fail : State → State) : State :=
  if s.blocked then s
  else match s.joinPlace asid core (va % 2 ^ 56) with
  | .error x => match x.waits s with
    | some s1 => { s1 with blocked := true }
    | none => fail (x.left s)
  | .ok (s1, p) =>
    if s1.placePoisoned asid p 8 then fail s1 else s1.placeWrite asid p (toBytes 8 (f (s1.placeRead asid p 8)))

/-- The join-word update of R188; one that cannot be made is reported to the origin queue with block kind 8. -/
def State.joinUpdateAt (s : State) (asid core va : Nat) (abnormal : Bool) (ord origin : Nat) : State :=
  s.updateWord asid core va (fun w => joinStep w abnormal ord) (fun t => t.cbfmtEvent asid origin (va % 2 ^ 56) 8)

/-- The same for a word that no core names, a completion word or a run's join word: one that cannot be updated is left. -/
def State.joinUpdate (s : State) (asid va : Nat) (abnormal : Bool) (ord : Nat) : State :=
  if isLocal (va % 2 ^ 56) then s else s.updateWord asid 0 va (fun w => joinStep w abnormal ord) id

/-! ### Owners and mailboxes (R220, R225) -/

def fwdValid (f : Word) : Bool := bitOf f.toNat 63
def fwdAsid (f : Word) : Nat := bitsOf f.toNat 32 16
def fwdCore (f : Word) : Nat := bitsOf f.toNat 0 16

/-- Occupied mailbox slots: accepted messages that wait, and the running handler (R220, R222). -/
def Core.occupied (k : Core) : Nat := k.slots.length + (match k.aWork with | .handler _ => 1 | _ => 0)

/-- Messages that are to go on do so in acceptance order, each as far as the 32 slots of the core that it goes to reach; the others follow as
slots become free there (R225). -/
def State.sendOn (s : State) (c : Nat) : State :=
  (s.core c).slots.foldl (fun (t : State) m => match m.onto with
    | none => t
    | some d => if d = c || (t.core d).occupied ≥ 32 then t
      else (t.modCore c (fun k => { k with slots := k.slots.erase m })).modCore d (fun k => { k with slots := k.slots ++ [{ m with onto := none }] })) s

/-- Waiting messages of an address space of which the core holds no strand any more are to go to the core named by FWDCFG, and go as far as its
slots reach; with no valid FWDCFG they are discarded and counted (R225) (log 47, DEDUCED). -/
def State.flushSlots (s : State) (c : Nat) : State :=
  let k := s.core c
  let gone (m : Msg) : Bool := m.onto.isNone && !k.hasStrandOf m.asid
  let fwd (m : Msg) : Bool := fwdValid k.fwdcfg && fwdAsid k.fwdcfg == m.asid
  let lost := (k.slots.filter (fun m => gone m && !fwd m)).length
  (s.modCore c (fun k => { k with
    slots := (k.slots.filter (fun m => !gone m || fwd m)).map (fun m => if gone m then { m with onto := some (fwdCore k.fwdcfg) } else m),
    rabs := BitVec.ofNat 16 (min 0xFFFF (k.rabs.toNat + lost)) })).sendOn c

/-- The owner is lost when neither the U context nor the arrival queue holds a strand of it (R220). -/
def State.refreshOwner (s : State) (c : Nat) : State :=
  match (s.core c).owner with
  | none => s
  | some a => if (s.core c).hasStrandOf a then s else (s.modCore c (fun k => { k with owner := none })).flushSlots c

/-! ### Images of resident contexts -/

/-- The image of the U strand of a core (R32, R33): one core's vector width, the masks and the live accumulators. SCAUSE, SADDR and SINFO of
an image made without a trap are those that the context last recorded (log 63, DESIGN CHOICE: R32 does not say). -/
def State.imageU (s : State) (c : Nat) : Image :=
  let k := s.core c
  let live := vtEw k.u.vtype != 0
  { ctx := { k.u with line := none, waiting := .no, deadline := none }, cls := s.cls c,
    v := if live then some (k.v.map (fun r => r.setWidth 4096)) else none,
    m := if live then some (k.m.map (fun r => r.setWidth 512)) else none,
    queue := k.queue.filter (fun e => e.ctx == .u),
    acc := ((List.finRange 4).filter (fun i => k.acLive.getLsbD i.val)).map (fun i => (i.val, k.ac[i.val]'i.isLt)),
    poison := if live then k.regPoison else k.regPoison.filter (fun p => p.1 == 2) }

/-- The image that a park puts into a slot: a WAIT keeps the deadline of its timeout (R228), and an access the page request that failed (R318). -/
def State.imagePark (s : State) (c : Nat) : Image :=
  let g := s.imageU c
  let x := (s.core c).u
  { g with ctx := { g.ctx with deadline := x.deadline, waiting := match x.waiting with | .hostFail p r => .hostFail p r | _ => .no } }

/-- The image of a promoted handler (R205): the A context, with the registers that it shares when its VTYPE.EW is not 0. -/
def State.imageA (s : State) (c : Nat) (sid : Nat) : Image :=
  let k := s.core c
  let live := vtEw k.a.vtype != 0
  { ctx := { k.a with line := none, waiting := .no, deadline := none, strandId := BitVec.ofNat 48 sid, mstart := k.u.mstart, slipcfg := k.u.slipcfg },
    cls := s.cls c,
    v := if live then some (k.v.map (fun r => r.setWidth 4096)) else none,
    m := if live then some (k.m.map (fun r => r.setWidth 512)) else none,
    queue := k.queue.filter (fun e => e.ctx == .a), acc := [],
    poison := if live then k.regPoison.filter (fun p => p.1 != 2) else [] }

/-- A new strand's image (R26): all zero but the entry PC, its identity, and x4 to x7. Its class of origin is control, whatever core made it
(log 63, DESIGN CHOICE: R32 states none for a strand that has never run). -/
def newImage (entry : Word) (asid sid : Nat) (a : Vector Word 4) : Image :=
  let k0 := { Ctx.reset with pc := entry, strandId := BitVec.ofNat 48 sid, asid := BitVec.ofNat 16 asid }
  { ctx := (((k0.setX 4 a[0]).setX 5 a[1]).setX 6 a[2]).setX 7 a[3], cls := .control, v := none, m := none, queue := [],
    acc := [], poison := [] }

/-! ### The spill area (R226, R229, R329) -/

/-- Why a spill failed: the reason of SPILLFAIL, the page cause, and the address. -/
structure SpillErr where
  reason : Nat
  cause : Nat
  va : Nat
deriving DecidableEq, Repr

/-- Pieces of the spill area in use by other strands, or kept for service code whose strand has ended (R327). -/
def State.spillUsed (s : State) (asid sid : Nat) : List (Nat × Nat) :=
  s.strands.filterMap (fun t => if t.asid == asid && t.sid != sid then t.spill else none)
  ++ s.cores.filterMap (fun p => match p.2.aWork with | .service e killed => if e.asid = asid then killed else none | _ => none)

/-- The lowest 64-byte-aligned free piece of a length (log 9, DESIGN CHOICE). -/
def State.spillAlloc (s : State) (sp : Space) (sid len : Nat) : Option Nat :=
  let used := s.spillUsed sp.asid sid
  let cands := sp.spillVa :: used.map (fun p => (p.1 + p.2 + 63) / 64 * 64)
  let good := cands.filter (fun a => sp.spillVa ≤ a && a + len ≤ sp.spillVa + sp.spillLen &&
    used.all (fun p => a + len ≤ p.1 || p.1 + p.2 ≤ a))
  good.foldl (fun best a => match best with | none => some a | some b => some (min a b)) none

/-- Doublewords written by the device in one access, with the reason why it fails: a page cause, or poison, which a dead range gives (R324, R357);
where the page has to be waited for, the attempt is blocked. -/
def State.spillWrite (s : State) (asid va : Nat) (vs : List Nat) : Except SpillErr State :=
  if s.blocked then .ok s
  else match s.translate (deviceWho asid 0 .w) va with
  | .error x => match x with
    | .trap t | .trapIn t _ => .error ⟨2, t.cause.code, va⟩
    | _ => .ok { (x.waits s).getD s with blocked := true }
  | .ok (s1, p) => if s1.cxlDeadIn p.key (8 * vs.length) then .error ⟨3, 0, va⟩ else .ok (s1.placeWrite asid p (vs.flatMap (toBytes 8)))

/-- Doublewords written by the device, with the reason of the first that fails: a page cause, or poison, which a dead range gives (R324, R357).
They are written by atoms of 32 bytes as far as those are whole, which lose their poison (R381). -/
def State.spillWrites (s : State) (asid va : Nat) : List Nat → Except SpillErr State
  | [] => .ok s
  | v0 :: v1 :: v2 :: v3 :: vs =>
    if va % 32 ≠ 0 then match s.spillWrite asid va [v0] with
      | .error e => .error e
      | .ok s1 => s1.spillWrites asid (va + 8) (v1 :: v2 :: v3 :: vs)
    else match s.spillWrite asid va [v0, v1, v2, v3] with
      | .error e => .error e
      | .ok s1 => s1.spillWrites asid (va + 32) vs
  | v :: vs => match s.spillWrite asid va [v] with
    | .error e => .error e
    | .ok s1 => s1.spillWrites asid (va + 8) vs

/-- Byte offset in an image of a poisoned register element: file, register, 32-bit element (R33, R381). -/
def Image.poisonOffset (g : Image) (p : Nat × Nat × Nat) : Nat := match p.1 with
  | 0 => 512 + 512 * p.2.1 + 4 * p.2.2
  | 1 => 512 + (if g.v.isSome then 16384 else 0) + 64 * p.2.1 + 4 * p.2.2
  | _ => g.queueOffset + 32 * g.slots + 16384 * (g.acc.map (·.1)).idxOf p.2.1 + 4 * p.2.2

/-- The atoms that hold poisoned register elements arrive poisoned (R381). -/
def State.spillPoison (s : State) (g : Image) (a : Nat) : State :=
  g.poison.foldl (fun (t : State) q =>
    match t.translate (deviceWho g.ctx.as 0 .look) (a + g.poisonOffset q) with
    | .ok (t1, p) => { t1 with mem := t1.mem.setPoison (p.key / 32) }
    | .error _ => t) s

/-- A piece of the spill area for a strand's image, with the doublewords of the image from number `lo` on written there. -/
def State.spillFrom (s : State) (g : Image) (lo : Nat) : Except SpillErr (State × Nat) :=
  match s.space g.ctx.as with
  | none => .error ⟨1, 0, 0⟩
  | some sp =>
    match s.spillAlloc sp g.ctx.sid g.bytes with
    | none => .error ⟨1, 0, sp.spillVa⟩
    | some a =>
      match s.spillWrites sp.asid (a + 8 * lo) ((g.base ++ g.parts).drop lo) with
      | .error e => .error e
      | .ok s1 => .ok ((s1.spillPoison g a).modStrand g.ctx.as g.ctx.sid (fun t => { t with spill := some (a, g.bytes) }), a)

/-- Write a whole image to the spill area of its address space. -/
def State.spillImage (s : State) (g : Image) : Except SpillErr (State × Nat) := s.spillFrom g 0

/-- Spill a strand and append it to a site's overflow list (R229). -/
def State.overflow (s : State) (g : Image) (site needed : Nat) (only : Option Nat) (cls : Nat) : Except SpillErr State :=
  match s.spillImage g with
  | .error e => .error e
  | .ok (s1, a) => .ok (s1.modSite site (fun t => { t with
      overflow := t.overflow ++ [{ asid := g.ctx.as, sid := g.ctx.sid, image := a, needed, only, cls }] }))

/-- Why an image is not resumed (R34, R333): a refused image, or poison; or it cannot be reached yet. -/
inductive LoadErr where
  | bad (b : BadImage)
  | poison
  | wait (s : State)
deriving DecidableEq, Repr

/-- An image from its doublewords, for a core. -/
def State.parseFor (s : State) (c : Nat) (d : List Nat) : Except LoadErr (State × Image) :=
  let (pcv, s1) := s.freshWord
  match parseImage (s1.cls c) pcv (s1.core c).lskew d with
  | .error b => .error (.bad b)
  | .ok g => .ok (s1, g)

/-- Read an image of the spill area for a core. -/
def State.loadImage (s : State) (asid va c : Nat) : Except LoadErr (State × Image) :=
  match s.devRead asid va 8 with
  | none => .error .poison
  | some (s1, f) =>
    match s1.devReads asid va (imageDwords f) with
    | none => .error .poison
    | some (s2, d) => if s2.blocked then .error (.wait s2) else s2.parseFor c d

/-! ### Service entries for an image that is not resumed (R34, R139, R333) -/

/-- A PC as SEPC holds it, bits [63:56] cleared (R16). -/
def pcMask (w : Word) : Word := w &&& 0x00FFFFFFFFFFFFFF

def State.pushEntry (s : State) (c : Nat) (e : SvcEntry) : State := s.modCore c (fun k => { k with entries := k.entries ++ [e] })

/-- A refused image reaches service code as CBFMT with SADDR the image address (R34, R139, R324). -/
def badImageEntry (e : SvcEntry) (b : BadImage) : SvcEntry :=
  { e with cause := .cbfmt, saddr := e.image, sinfo := BitVec.ofNat 64 (b.kind + b.index * 16), sqimg := 0 }

/-- Poison in a held image (R333 reason 1). -/
def remoteEntry (e : SvcEntry) : SvcEntry := { e with cause := .remote, saddr := e.image, sinfo := 1, sqimg := 0 }

/-- An empty U context is kept for a held crew member (R328): the core takes its address space and that space's phase colour (R339). -/
def State.reserveFor (s : State) (c asid sid : Nat) : State :=
  s.modCore c (fun k => { k with
    uWork := .reserved sid, u := { k.u with asid := BitVec.ofNat 16 asid }, heapphase := ((s.space asid).map (·.colour)).getD false })

/-- The U context of a crew member that is held stays reserved for it, and its register files are no strand's (R328). -/
def State.reserveU (s : State) (c sid : Nat) : State :=
  s.modCore c (fun k => { k with
    uWork := .reserved sid, u := { Ctx.reset with asid := k.u.asid }, queue := k.queue.filter (fun q => q.ctx == .a), vfault := none,
    long := none, acLive := 0 })

/-- A strand whose image at `image` is not resumed is held there, and service code of core c is told (R333). -/
def State.refuseImage (s : State) (c asid sid image : Nat) (pc : Word) : LoadErr → State
  | .wait t => t
  | .bad b => refused (fun e => badImageEntry e b)
  | .poison => refused remoteEntry
where refused (why : SvcEntry → SvcEntry) : State :=
  let base : SvcEntry :=
    { cause := .remote, sepc := pcMask pc, saddr := 0, sinfo := 0, sqimg := 0, pprv := false, actx := false,
      gangw := false, image := BitVec.ofNat 64 image, asid, sid, held := true, engineOp := none }
  let s1 := (s.modStrand asid sid (fun x => { x with heldAt := some image, lastCore := c })).pushEntry c (why base)
  -- a crew member keeps the U context that it was to enter (R328)
  if ((s.strand asid sid).bind (·.crew)).isSome && !(s.core c).uWork.holds then
    s1.reserveFor c asid sid
  else s1

/-! ### Arrival queues (R226) -/

/-- What an arrival queue takes: the base image in the slot, and the optional parts in the strand's piece of the spill area, behind the room of
the base part (R226; log 9, DESIGN CHOICE for their place in it). -/
def State.parkImage (s : State) (g : Image) (st : ParkState) : Except SpillErr (State × Parked) :=
  if g.parts.isEmpty then .ok (s, { img := g, state := st })
  else match s.spillFrom g 64 with
    | .error e => .error e
    | .ok (s1, _) => .ok (s1, { img := { g with v := none, m := none, queue := [], acc := [], poison := [] }, state := st,
                                parts := some g.format })

/-- The whole image of a slot, its optional parts read back for core c. -/
def State.unpark (s : State) (c : Nat) (p : Parked) : Except LoadErr (State × Image) :=
  match p.parts, (s.strand p.img.ctx.as p.img.ctx.sid).bind (·.spill) with
  | some f, some (a, _) =>
    match s.devReads p.img.ctx.as (a + 512) (imageDwords f - 64) with
    | none => .error .poison
    | some (s1, d) => if s1.blocked then .error (.wait s1) else match s1.parseFor c (f :: p.img.base.tail ++ d) with
      | .error e => .error e
      | .ok (s2, g) => .ok (s2.modStrand p.img.ctx.as p.img.ctx.sid (fun t => { t with spill := none }), { g with ctx := p.img.ctx })
  | _, _ => .ok (s, p.img)

/-- A slot whose parts cannot be resumed: the image is whole in the spill area, and its strand is held there (R333). -/
def State.refusePark (s : State) (c : Nat) (p : Parked) (err : LoadErr) : State :=
  match err, p.parts, (s.strand p.img.ctx.as p.img.ctx.sid).bind (·.spill) with
  | .wait t, _, _ => t
  | _, some f, some (a, _) =>
    (s.devWrites p.img.ctx.as a (f :: p.img.base.tail)).refuseImage c p.img.ctx.as p.img.ctx.sid a p.img.ctx.pc err
  | _, _, _ => s

/-! ### Entering and leaving the U context -/

/-- Completions that the device kept for a strand reach its scoreboard before its first instruction (R121). -/
def deliverKept (k : Ctx) (l : List KeptToken) : Ctx :=
  l.foldl (fun k t =>
    let r : BitVec 5 := BitVec.ofNat 5 t.reg
    let k1 := { k.setX r t.val with pend := k.pend &&& ~~~(1#32 <<< t.reg) }
    { k1 with tokErr := if t.err then k1.tokErr ||| (1#32 <<< t.reg) else k1.tokErr }) k

/-- Completed entries leave the front of the queue; how many, beyond n. -/
def popDone : List VEntry → Nat → List VEntry × Nat
  | [], n => ([], n)
  | e :: t, n => if e.done then popDone t (n + 1) else (e :: t, n)

/-- The queue that a loaded image gives a core: entries marked done are skipped (R138, R139), and the others run with the core's present
skew, before any instruction at the resume PC. -/
def replayQueue (lskew : BitVec 3) (q : List VEntry) : List VEntry := (popDone (q.map (fun e => { e with lskew, replay := true })) 0).1

/-- Accumulators from an image's parts. -/
def accOf (l : List (Nat × BitVec 131072)) (i : Nat) : BitVec 131072 := (kvGet i l).getD 0

/-- A strand's image becomes the U occupant of a core (R28, R203, R210, R231, R339): the register files are loaded, a stale FWDCFG
entry clears, the operating-point request returns to 3 unless the strand comes back into the context that was reserved for it, and a change of
address space starts zeroing (log 41, DEDUCED). -/
def State.enterU (s : State) (c : Nat) (g : Image) : State :=
  let asid := g.ctx.as
  let change := (s.core c).prevAsid ≠ asid
  let back := (s.core c).uWork == .reserved g.ctx.sid
  let kept := s.kept.filter (fun t => t.asid == asid && t.sid == g.ctx.sid)
  let ctx := { deliverKept g.ctx kept with tokErr := 0, line := none }
  let colour := ((s.space asid).map (·.colour)).getD false
  let s0 := { s with kept := s.kept.filter (fun t => !(t.asid == asid && t.sid == g.ctx.sid)) }
  let s1 := s0.modCore c (fun k => { k with
    u := { ctx with mcgroup := 0 }, uWork := .strand,
    v := (match g.v with | some v => v.map (fun r => r.setWidth 32768) | none => .replicate 32 0),
    m := (match g.m with | some m => m.map (fun r => r.setWidth 4096) | none => .replicate 12 0),
    ac := Vector.ofFn (fun i : Fin 4 => accOf g.acc i.val),
    acLive := BitVec.ofNat 4 ((g.acc.map (fun p => 2 ^ p.1)).sum),
    regPoison := g.poison, queue := replayQueue k.lskew g.queue ++ k.queue, vfault := none,
    long := none, lastJoined := false, opreq := if back then k.opreq else 3, heapphase := colour, prevAsid := asid,
    owner := if change then none else some asid, zeroing := change, changes := k.changes + b2n change, uStreak := 0,
    mix := { issued := 0, control := 0, vector := 0, tensor := 0 }, residue := 0,
    fwdcfg := if fwdValid k.fwdcfg && fwdAsid k.fwdcfg == asid then k.fwdcfg &&& 0x7FFFFFFFFFFFFFFF else k.fwdcfg })
  (s1.flushSlots c).modStrand asid g.ctx.sid (fun t => { t with lastCore := c })

def Parked.isReady : ParkState → Option Nat
  | .ready t => some t
  | _ => none

/-- The parked strand that became ready earliest (R227). -/
def oldestReady (l : List Parked) : Option (Nat × Nat) :=
  ((upTo l.length).zip l).foldl (fun best (i, p) =>
    match Parked.isReady p.state, best with
    | some t, some (_, u) => if t < u then some (i, t) else best
    | some t, none => some (i, t)
    | none, b => b) none

/-- The crew that reserves the core's site could use the core (R296, R297). -/
def State.resvAt (s : State) (c : Nat) : Bool :=
  match (s.site (s.siteOf c)).reserve with
  | some r => (r.cls % 8 == 0 || bitOf r.cls (clsCode (s.cls c))) && (r.cluster.map (· == clusterOf c)).getD true
  | none => false

/-- The core is held for a crew: its U context is empty (R296). -/
def State.heldFor (s : State) (c : Nat) : Bool := s.resvAt c && !(s.core c).uWork.holds

/-- The core may take a strand into its empty U context: live, no gang follower, not held for a crew (R141, R296), and with no entry left that its
A context issued on the registers of the strand before (R224, R328). -/
def State.mayEnter (s : State) (c : Nat) : Bool :=
  let k := s.core c
  s.live c && !k.uWork.holds && !s.resvAt c && !k.zeroing && k.queue.all (fun e => e.ctx == .u) &&
    (match k.gang with | .follower _ => false | _ => true)

/-- The U context takes the next ready strand of the arrival queue (R227). -/
def State.nextU (s : State) (c : Nat) : State :=
  if !s.mayEnter c then s
  else match oldestReady (s.core c).arrival with
    | none => s
    | some (i, _) =>
      match (s.core c).arrival[i]? with
      | none => s
      | some p =>
        let s1 := s.modCore c (fun k => { k with arrival := k.arrival.eraseIdx i })
        match s1.unpark c p with
        | .ok (s2, g) => s2.enterU c g
        | .error e => s1.refusePark c p e

/-- The U context becomes free: its register files are no strand's, and the next ready strand enters (R188, R205). -/
def State.leaveU (s : State) (c : Nat) : State :=
  let s1 := s.modCore c (fun k => { k with uWork := .empty, u := { Ctx.reset with asid := k.u.asid }, acLive := 0,
                                           queue := k.queue.filter (fun e => e.ctx == .a), vfault := none, long := none,
                                           opreq := 3 })
  (s1.nextU c).refreshOwner c

def State.freeSlot (s : State) (c : Nat) : Bool := (s.core c).arrival.length < arrivalSlots (s.cls c)

/-- A strand enters the arrival queue at its tail (R226) (log 10, DESIGN CHOICE). -/
def State.park (s : State) (c : Nat) (g : Image) (st : ParkState) : Except SpillErr State :=
  match s.parkImage g st with
  | .error e => .error e
  | .ok (s1, p) => .ok (s1.modCore c (fun k => { k with arrival := k.arrival ++ [p] }))

/-- A strand arrives at a core: into its U context when that is empty, else as a ready strand at the tail; none when the queue is full, or
when its optional parts cannot be written. -/
def State.arrive (s : State) (c : Nat) (g : Image) : Option State :=
  if s.mayEnter c && (oldestReady (s.core c).arrival).isNone then some (s.enterU c g)
  else if s.live c && s.freeSlot c then match s.park c g (.ready s.now) with
    | .ok s1 => some (s1.nextU c)
    | .error _ => none
  else none

/-- The same for a crew member, which takes an empty U context whatever waits in the queue (R215, R216). -/
def State.seat (s : State) (c : Nat) (g : Image) (crew : Bool) : Option State := if crew then some (s.enterU c g) else s.arrive c g

/-! ### Choosing a core (R230) -/

/-- Occupancy bucket of used arrival-queue slots. -/
def bucket (n : Nat) : Nat := if n = 0 then 0 else if n < 4 then 1 else if n < 16 then 2 else 3

/-- The streamer's order from core c, as one number: latency class, bucket, forward distance. -/
def State.rank (s : State) (c t : Nat) : Nat :=
  let m := s.coreCount
  (s.latencyClass c t * 4 + bucket (s.core t).arrival.length) * m + (t + m - c % m) % m

/-- The candidate that comes first in the order. -/
def State.firstRanked (s : State) (c : Nat) (cands : List Nat) : Option Nat :=
  cands.foldl (fun best t => match best with
    | none => some t
    | some b => if s.rank c t < s.rank c b then some t else some b) none

/-- Cores that can hold a mask and have a free slot, other than the present one (R230). -/
def State.candidates (s : State) (c mask : Nat) : List Nat :=
  (upTo s.coreCount).filter (fun t => t ≠ c && s.live t && capHolds (s.cls t) mask && s.freeSlot t && !s.heldFor t)

def inClsMask (mask : Nat) (k : Cls) : Bool := mask % 8 == 0 || bitOf mask (clsCode k)

/-! ### Records, runs and jobs -/

/-- VA of the descriptor of a launch queue (R289, R290). -/
def Space.descVa (sp : Space) (q : Nat) : Nat := sp.queuesVa + 64 * q

def State.queueState (s : State) (asid q : Nat) : Option (State × Nat) := do
  let sp ← s.space asid
  let (s1, v) ← s.devRead asid (sp.descVa q + 0x28) 8
  return (s1, v % 4)

def Space.queue (sp : Space) (q : Nat) : Option LQueue := sp.queues[q % 64]?

def State.modQueue (s : State) (asid q : Nat) (f : LQueue → LQueue) : State :=
  s.modSpace asid (fun p => { p with queues := p.queues.modify (q % 64) f })

/-- The run, not ended, that a record belongs to (R303). -/
def State.runOf (s : State) (asid va : Nat) : Option Run :=
  s.runs.find? (fun r => r.asid == asid && r.left ≠ 0 && r.handle + 64 ≤ va && va < r.handle + 64 + 64 * r.n)

/-- Status and wait count of a record (R30); none when the record cannot be read. -/
def State.recordStatus (s : State) (asid va : Nat) : Option (State × Nat) := do
  let (s1, v) ← s.devRead asid (va + 0x18) 8
  return (s1, v % 256)

def State.recordWait (s : State) (asid va : Nat) : Option (State × Nat) := do
  let (s1, v) ← s.devRead asid (va + 0x08) 8
  return (s1, v % 2 ^ 32)

/-- Change a record's status from one value to another by one atomic; none when it holds another (R292), but an attempt that the read has blocked
stays blocked. -/
def State.casStatus (s : State) (asid va old new : Nat) : Option State := do
  let (s1, v) ← s.devRead asid (va + 0x18) 8
  if v % 256 ≠ old ∧ s1.blocked = false then none
  s1.devWrite asid (va + 0x18) 8 (v - v % 256 + new)

/-- A record with status 0 and wait count 0 becomes ready in its origin queue (R292). -/
def State.makeReady (s : State) (asid va origin : Nat) : State :=
  match s.recordWait asid va with
  | none => s
  | some (s1, w) =>
    if w ≠ 0 then s1
    else match s1.casStatus asid va 0 1 with
      | none => s1
      | some s2 => s2.modQueue asid origin (fun q => { q with ready := q.ready ++ [{ record := va, since := s2.now }] })

/-- VA of record i of a run (R303). -/
def Run.recordVa (r : Run) (i : Nat) : Nat := r.handle + 64 + 64 * i

def State.modRun (s : State) (id : Nat) (f : Run → Run) : State :=
  { s with runs := s.runs.map (fun o => if o.id = id then f o else o) }

/-- Every record of a run whose wait count is 0 becomes ready (R303 step 6). -/
def State.releaseRun (s : State) (r : Run) : State :=
  (upTo r.n).foldl (fun acc i => acc.makeReady r.asid (r.recordVa i) r.origin) (s.modRun r.id (fun o => { o with released := true }))

/-- A job's completion word is updated as EXIT does (R291). -/
def State.completeJob (s : State) (j : Job) (abnormal : Bool) : State :=
  if j.completion = 0 then s else s.joinUpdate j.asid j.completion abnormal (1 + j.pos % 0xFFFF)

/-- The job whose record or run is given ends (R291). -/
def State.endJob (s : State) (asid va : Nat) (abnormal : Bool) : State :=
  let mine (j : Job) : Bool := j.asid == asid && j.record == va && j.waits.isNone
  match s.jobs.find? mine with
  | none => s
  | some j => { s with jobs := s.jobs.filter (fun o => !mine o) }.completeJob j abnormal

/-- How a record ended. -/
inductive RecEnd where
  | done
  | faulted
  | cancelled
deriving DecidableEq, Repr

/-- The record status of an end (R30). -/
def RecEnd.code : RecEnd → Nat
  | .done => 3
  | .faulted => 4
  | .cancelled => 5

/-- One of a run's records ends: one fewer is left, and the sink's end is kept. -/
def Run.ended (r : Run) (idx : Nat) (how : RecEnd) : Run :=
  { r with left := r.left - 1, bad := r.bad || how != .done, sinkEnd := if idx = r.sink then how.code else r.sinkEnd }

/-- One of a run's records ended (R303): the header's join word, and, with the last, the job, abnormally when any record was faulted or
cancelled (R291). -/
def State.runRecordEnd (s : State) (r : Run) (va : Nat) (how : RecEnd) : State :=
  let idx := (va - r.handle - 64) / 64
  let s1 := s.modRun r.id (fun o => o.ended idx how)
  let s2 := s1.joinUpdate r.asid (r.handle + 8) (how == .faulted) (idx + 1)
  if (r.ended idx how).left = 0 then s2.endJob r.asid r.handle (r.ended idx how).bad else s2

/-- The site that a crew has reserved (R296). -/
def State.reservedSite (s : State) (asid va : Nat) : Option Nat :=
  (upTo 4).find? (fun i => ((s.site i).reserve.map (fun r => decide (r.asid = asid ∧ r.record = va))).getD false)

/-- The state as the crew that holds a reservation of a site sees it. -/
def State.asReserved (s : State) (asid va : Nat) : State :=
  { s with sites := s.sites.map (fun (t : Site) =>
      if (t.reserve.map (fun r => decide (r.asid = asid ∧ r.record = va))).getD false then { t with reserve := none } else t) }

/-- A crew's reservation ends: the cores that it held take their parked strands again (R296). -/
def State.unreserve (s : State) (asid va : Nat) : State :=
  match s.reservedSite asid va with
  | none => s
  | some i => ((s.cores.map (·.1)).filter (fun c => s.siteOf c == i)).foldl State.nextU (s.asReserved asid va)

/-- A record leaves the ready lists of its address space. -/
def State.unlist (s : State) (asid va : Nat) : State :=
  s.modSpace asid (fun p => { p with queues := p.queues.map (fun q => { q with ready := q.ready.filter (fun r => r.record != va) }) })

/-- A record is cancelled (R299): status 0 or 1 becomes 5, and it leaves the ready list. The answer says whether it was. -/
def State.cancelOne (s : State) (asid va : Nat) : State × Bool :=
  match (s.casStatus asid va 0 5).or (s.casStatus asid va 1 5) with
  | none => (s, false)
  | some s1 =>
    let s2 := (s1.unlist asid va).unreserve asid va
    match s2.runOf asid va with
    | some r => (s2.runRecordEnd r va .cancelled, true)
    | none => (s2.endJob asid va true, true)

/-- The dispatch of a record that no end has completed. -/
def State.activeOf (s : State) (asid va : Nat) : Option Active := s.active.find? (fun a => a.asid == asid && a.record == va)

def State.unactive (s : State) (asid va : Nat) : State :=
  { s with active := s.active.filter (fun a => !(a.asid == asid && a.record == va)) }

/-- Where the dependents of a record lie and how many they are: as read at dispatch, or from a record that was not dispatched (R292). -/
def State.dependentsAt (s : State) (asid va : Nat) : Option (State × Nat × Nat) :=
  match s.activeOf asid va with
  | some a => some (s, a.deps, a.count)
  | none => do
    let (s1, arr) ← s.devRead asid (va + 0x10) 8
    let (s2, v) ← s1.devRead asid (va + 0x18) 8
    return (s2, arr, v / 2 ^ 32)

/-- The dependents of a record (R30), as far as they can be read. -/
def State.dependents (s : State) (asid va : Nat) : State × List Nat :=
  match s.dependentsAt asid va with
  | none => (s, [])
  | some (s1, arr, n) => (s1.devReads asid arr n).getD (s1, [])

/-- Runs made SERIAL that wait for the run whose sink record is given (R303). -/
def State.serialWaiters (s : State) (asid va : Nat) : List Run :=
  match s.runOf asid va with
  | none => []
  | some r => if va ≠ r.recordVa r.sink then []
    else s.runs.filter (fun o => o.asid == asid && !o.released && o.serial == some r.id)

def runRecords (l : List Run) : List Nat := l.flatMap (fun r => (upTo r.n).map r.recordVa)

/-- The walk of R299: the dependents of a faulted record, and theirs in turn, are cancelled; a record already running or ended
stops the walk there. A cancelled sink cancels the runs that wait for it (R303). `fuel` bounds the walk, each record being
cancelled at most once. -/
def State.cancelWalk (s : State) (asid : Nat) : Nat → List Nat → State
  | 0, _ => s
  | _ + 1, [] => s
  | fuel + 1, va :: rest =>
    let next := runRecords (s.serialWaiters asid va)
    let (s1, did) := s.cancelOne asid va
    if did then
      let (s2, deps) := s1.dependents asid va
      s2.cancelWalk asid fuel (rest ++ deps ++ next)
    else s1.cancelWalk asid fuel rest

/-- Bound on the steps of one walk: each record is cancelled at most once and has below 2^32 dependents, so no walk is longer. -/
def walkFuel : Nat := 2 ^ 100

/-- The sink of a run has ended by TDONE or EXIT: the runs that waited for it are released, or cancelled (R303). -/
def State.serialNext (s : State) (asid : Nat) (w : List Run) (how : RecEnd) : State :=
  if how == .done then w.foldl State.releaseRun s else s.cancelWalk asid walkFuel (runRecords w)

/-- FAULT and STATE of a queue when a record of it ends faulted: a freeze begins with FAULT set anew, for FAULT is the first fault since the
last thaw; in a queue that does not run FAULT is set if it is 0 (R290, R299). -/
def State.freeze (s : State) (asid va origin : Nat) : State :=
  match s.space asid with
  | none => s
  | some sp =>
    let d := sp.descVa origin
    let s1 := s.modQueue asid origin (fun k => { k with frozen := true })
    match s1.devRead asid (d + 0x28) 8, s1.devRead asid (d + 0x30) 8 with
    | some (t, v), some (_, f) =>
      let t1 := if v % 4 = 0 then (t.devWrite asid (d + 0x28) 8 (v + 1)).getD t else t
      if v % 4 = 0 || f = 0 then (t1.devWrite asid (d + 0x30) 8 va).getD t1 else t1
    | _, _ => s1

/-- Service code has ended a freeze: FAULT is 0 until the next fault (R290). -/
def State.thaw (s : State) (asid q : Nat) : State :=
  match s.space asid with
  | none => s
  | some sp => match sp.queue q with
    | some k => if k.frozen && (s.queueState asid q).map (·.2) == some 0 then
        (((s.modQueue asid q (fun k => { k with frozen := false })).devWrite asid (sp.descVa q + 0x30) 8 0)).getD s else s
    | none => s

/-- A record has ended faulted: its origin queue freezes, event 1 is reported, and its dependents are cancelled (R299). -/
def State.faultQueue (s : State) (asid va origin : Nat) : State :=
  let (s1, deps) := ((s.freeze asid va origin).event asid 1 (origin % 64) va 0).dependents asid va
  s1.cancelWalk asid walkFuel deps

/-- Count down the dependents of a done record (R198, R298): how many reached wait count 0. -/
def State.countDown (s : State) (asid origin : Nat) : List Nat → State × Nat
  | [] => (s, 0)
  | d :: ds =>
    if d % 64 ≠ 0 then
      let (s1, n) := (s.cbfmtEvent asid origin d 3).countDown asid origin ds
      (s1, n)
    else match s.devRead asid (d + 8) 8 with
      | none => s.countDown asid origin ds
      | some (s1, v) =>
        let w := v % 2 ^ 32
        let s2 := (s1.devWrite asid (d + 8) 8 (v - w + (w - 1))).getD s1
        let zero := w == 1
        let s3 := match zero, s2.runOf asid d with
          | true, some r => if r.released then s2.makeReady asid d r.origin else s2
          | _, _ => s2
        let (s4, n) := s3.countDown asid origin ds
        (s4, n + b2n zero)

/-- The origin queue of a record: the queue it was dispatched from, else its run's, else the one given (R293). -/
def State.recOrigin (s : State) (asid va origin : Nat) : Nat :=
  (((s.activeOf asid va).map (·.origin)).or ((s.runOf asid va).map (·.origin))).getD origin

/-- Complete a record whose status is 2 (R198, R298, R299): none, with nothing changed, when it is not. `issuer` is the origin of the strand
that completes it, which stands for that of a record never dispatched. -/
def State.completeRecord (s : State) (asid va issuer : Nat) (faulted : Bool) : Option (State × Nat) :=
  match s.casStatus asid va 2 (if faulted then 4 else 3) with
  | none => none
  | some s1 =>
    let how : RecEnd := if faulted then .faulted else .done
    let origin := s1.recOrigin asid va issuer
    let next := s1.serialWaiters asid va
    let (s2, n) :=
      if faulted then (s1.faultQueue asid va origin, 0)
      else
        let (t, deps) := s1.dependents asid va
        t.countDown asid origin deps
    let s3 := s2.unactive asid va
    let s4 := match s3.runOf asid va with
      | some r => (s3.runRecordEnd r va how).serialNext asid next how
      | none => s3.endJob asid va faulted
    some (s4, n)

/-! ### Crews (R192, R215) -/

/-- Phases of barriers that every member not exited has reached are complete: their members are released (R192). -/
def Crew.settle (w : Crew) : Crew :=
  (upTo 16).foldl (fun w n =>
    let here := (w.arrived.filter (fun p => p.1 == n)).map (·.2)
    let all := (upTo w.members.length).all (fun i => w.exited.contains i || here.contains i)
    if all && !here.isEmpty then
      { w with arrived := w.arrived.filter (fun p => p.1 != n), released := w.released ++ here.map (fun i => (n, i)) }
    else w) w

/-- The index of a strand in its crew. -/
def Crew.index (w : Crew) (sid : Nat) : Nat := w.members.idxOf sid

/-- A member leaves its crew (R188, R192): the barrier counts fall, and the last member's end says how the record ends. -/
def State.leaveCrew (s : State) (id sid : Nat) (abnormal : Bool) : State × Bool × Bool :=
  match s.crew id with
  | none => (s, true, abnormal)
  | some w =>
    let i := w.index sid
    let w1 := { w with exited := i :: w.exited, abnormal := w.abnormal || abnormal,
                       arrived := w.arrived.filter (fun p => p.2 != i) }.settle
    let last := w1.exited.length ≥ w1.members.length
    if last then ({ s with crews := s.crews.filter (fun o => o.id != id) }, true, w1.abnormal)
    else (s.modCrew id (fun _ => w1), false, w1.abnormal)

/-! ### The end of a strand (R188) -/

/-- Release a gang's followers (R141, R219): they are empty, their slices zero; one whose arrival queue still holds a strand of its last
occupant's address space owns its mailbox again (R220). -/
def State.disband (s : State) (c : Nat) : State :=
  match (s.core c).gang with
  | .leader n =>
    let followers := ((upTo n).map (fun i => c / n * n + i)).filter (· ≠ c)
    let free (k : Core) : Core := { k with gang := .none, owner := if k.hasStrandOf k.prevAsid then some k.prevAsid else none }
    let s1 := followers.foldl (fun t f => { (t.modCore f free) with mem := t.mem.zero (Loc.slice f 0).key (2 ^ 17) }) s
    let s2 := s1.modCore c (fun k => { k with
      gang := .none, v := k.v.map (fun r => (r.setWidth 4096).setWidth 32768),
      m := k.m.map (fun r => (r.setWidth 512).setWidth 4096),
      regPoison := k.regPoison.filter (fun p => p.1 == 2 || p.2.2 < (if p.1 = 0 then 128 else 16)) })
    followers.foldl (fun t f => t.nextU f) s2
  | _ => s

/-- Engine operations end at once; pins that their pieces hold or wait for are released. -/
def State.dropOps (s : State) (p : EngineOp → Bool) : State :=
  (s.ops.filter p).foldl (fun (t : State) o => t.unpin (.piece o.id)) { s with ops := s.ops.filter (fun o => !p o) }

/-- Cancel the engine operations and outstanding requests of a strand (R128, R188, R354). -/
def State.cancelTokens (s : State) (asid sid : Nat) : State :=
  let s1 := s.dropOps (fun o => o.asid == asid && o.sid == sid && o.ctx == .u)
  { s1 with kept := s.kept.filter (fun t => !(t.asid == asid && t.sid == sid)),
            flights := s.flights.filter (fun f => !(f.asid == asid && f.sid == sid && f.ctx == .u)),
            sysReqs := s.sysReqs.map (fun r => if r.asid = asid ∧ r.sid = sid then { r with cancelled := true } else r) }

/-- Steps 2 to 4 of R188 for a strand wherever it lies: its record, its crew, its join word, and its entry in the strand table.
The join word that cannot be updated is reported with block kind 8. -/
def State.finishStrand (s : State) (asid sid : Nat) (abnormal : Bool) : State :=
  match s.strand asid sid with
  | none => s
  | some t =>
    let (s1, last, ab) := match t.crew with
      | some id => s.leaveCrew id sid abnormal
      | none => (s, true, abnormal)
    let s2 := if t.record ≠ 0 && last then ((s1.completeRecord asid t.record t.origin ab).map (·.1)).getD s1 else s1
    let s3 := if t.join = 0 then s2 else s2.joinUpdateAt asid t.lastCore t.join abnormal t.ord t.origin
    { s3 with strands := s3.strands.filter (fun o => !(o.asid == asid && o.sid == sid)) }

/-- The four doublewords of an inline frame, as the device reads them for a core. -/
def State.frameAt (s : State) (asid core va : Nat) : Option (State × List Nat) :=
  if isLocal va then
    match s.awaitZeroing core va with
    | none => some ({ s with blocked := true }, [])
    | some s1 => match s1.localAccess (deviceWho asid core .r) va 32 with
      | .ok p => if s1.placePoisoned asid p 32 then none
        else some (s1, (upTo 4).map (fun i => s1.placeRead asid { p with key := p.key + 8 * i } 8))
      | .error _ => none
  else s.devReads asid va 4

/-- A frame that R188 accepts: its own address in word 3, and the zero fields of word 2. -/
def frameBad (x2 : Nat) (d : List Nat) : Option Nat :=
  if d.getD 2 0 ≥ 2 ^ 21 then some 2 else if d.getD 3 0 ≠ x2 then some 3 else none

/-- Unwinding of inline frames of a killed strand, innermost first (R337): x2 is walked up through the frames. Its check is of the
address in word 3 alone. -/
def State.unwind (s : State) (asid core origin : Nat) : Nat → Nat → State
  | 0, _ => s
  | depth + 1, x2 =>
    match s.frameAt asid core (x2 % 2 ^ 56) with
    | none => s.cbfmtEvent asid origin (x2 % 2 ^ 56) 7
    | some (s1, d) =>
      let w (i : Nat) := d.getD i 0
      if s1.blocked then s1
      else if w 3 ≠ x2 then s1.cbfmtEvent asid origin (x2 % 2 ^ 56) 7
      else
        let s2 := if w 1 = 0 then s1 else s1.joinUpdateAt asid core (w 1) true (w 2 % 2 ^ 16) origin
        s2.unwind asid core origin depth ((x2 + 32) % 2 ^ 64)

/-- A strand that is killed ends abnormally (R188, R337): tokens cancelled, inline frames unwound from the context given. -/
def State.killStrand (s : State) (asid sid : Nat) (k : Ctx) : State :=
  let origin := ((s.strand asid sid).map (·.origin)).getD 0
  let core := ((s.strand asid sid).map (·.lastCore)).getD 0
  let s1 := s.cancelTokens asid sid
  let s2 := s1.unwind asid core origin k.inldepth.toNat (k.getX 2).toNat
  s2.finishStrand asid sid true

/-- The strand number after n: 48 bits, 0 being no strand's (R21). -/
def sidAfter (n : Nat) : Nat := if n + 1 < 2 ^ 48 then n + 1 else 1

/-- The first number from n on that is in no list of live strands; `fuel` is the length of the list. -/
def unusedSid (used : List Nat) : Nat → Nat → Nat
  | 0, n => n
  | fuel + 1, n => if used.contains n then unusedSid used fuel (sidAfter n) else n

/-- A fresh strand in the table of its address space (R21, R186), with the next number after the one given out last that no live strand has
(log 11, DESIGN CHOICE). -/
def State.newStrand (s : State) (asid : Nat) (t : Nat → Strand) : State × Nat :=
  let used := (s.strands.filter (fun x => x.asid == asid)).map (·.sid)
  let sid := unusedSid used used.length (((s.space asid).map (·.nextSid)).getD 1)
  let s1 := s.modSpace asid (fun p => { p with nextSid := sidAfter sid })
  ({ s1 with strands := s1.strands ++ [t sid] }, sid)

/-- A strand table entry with nothing special. -/
def blankStrand (asid sid : Nat) : Strand :=
  { asid, sid, join := 0, ord := 0, origin := 0, record := 0, crew := none, dispatched := none, t1Done := false,
    stopDue := none, preempted := false, dying := false, persists := [], promoted := false, lastCore := 0, issuedAt := 0, heldAt := none,
    spill := none, quiet := 0 }

end Sys2Proof.Machine
end

