-- ==== Sys2Proof/Machine/VecParts.lean ====
section
/-! DEFINITION. What a queued vector entry is to the rest of its strand: the registers it reads and writes, its queue (R135), and the memory parts
that it accesses (R147 to R152), by which later accesses are ordered behind it (R111, R136, R250). -/

namespace Sys2Proof.Machine

/-- FC and BL of a pointer's top byte (R82). -/
def ptrFc (p : Word) : Nat := bitsOf p.toNat 59 5
def ptrBl (p : Word) : Nat := bitsOf p.toNat 56 3

/-! ### Registers read and written, as (file, number): file 0 is v, file 1 is m -/

abbrev RegName := Nat × Nat

def vReg (r : BitVec 5) : RegName := (0, r.toNat)
def mReg (r : BitVec 5) : RegName := (1, r.toNat)

/-- The mask that MK names (R75). -/
def mkRegs (mk : BitVec 4) : List RegName := if mk = 0 then [] else [(1, mk.toNat - 1)]

/-- F[6] of the V layout: B is an x register. -/
def lvBX (o : LV) : Bool := bitOf o.f.toNat 6

/-- F16[2] of major 24: B is an x register. -/
def lxBX (o : LX) : Bool := bitOf o.f16.toNat 2

def binReads (o : LV) : List RegName := vReg o.a :: (if lvBX o then [] else [vReg o.b]) ++ mkRegs o.msk
def redReads (o : LV) : List RegName :=
  vReg o.a :: (if bitOf o.f.toNat 0 && !lvBX o then [vReg o.b] else []) ++ mkRegs o.msk
def x24Reads (o : LX) : List RegName := vReg o.a :: (if lxBX o then [] else [vReg o.b]) ++ mkRegs o.msk

/-- The v and m registers that a queued instruction reads. -/
def entryReads : Instr → List RegName
  | .vadd o | .vsub o | .vand o | .vor o | .vxor o | .vsll o | .vsrl o | .vsra o => binReads o
  | .vmul o | .vmulh o | .vmin o | .vmax o | .vsadd o | .vssub o | .vcmp o | .vmerge o => binReads o
  | .vfadd o | .vfsub o | .vfmul o | .vfdiv o | .vfmin o | .vfmax o | .vfcmp o => binReads o
  | .vfsqrt o => vReg o.a :: mkRegs o.msk
  | .vfma o | .vfnma o => vReg o.c :: x24Reads o
  | .vfcvt o | .vfclass o => vReg o.a :: mkRegs o.msk
  | .vfscale o | .vfsgn o => x24Reads o
  | .vredsum o | .vfredsum o | .vredmax o | .vfredmax o => redReads o
  | .vslide o | .vcompress o | .vexpand o => vReg o.a :: mkRegs o.msk
  | .vperm o => binReads o
  | .vsplat o | .viota o => mkRegs o.msk
  | .vmov o => vReg o.a :: mkRegs o.msk
  | .mand o | .mor o | .mxor o | .mandn o => [mReg o.a, mReg o.b]
  | .mnot o | .msbf o => [mReg o.a]
  | .vld o | .vlds o => mkRegs o.msk
  | .vldx o => vReg o.b :: mkRegs o.msk
  | .vst o | .vsts o => vReg o.d :: mkRegs o.msk
  | .vstx o => vReg o.d :: vReg o.b :: mkRegs o.msk
  | .mst o => [mReg o.d]
  | .vldl o => (if bitOf o.f16.toNat 0 then [vReg o.b] else []) ++ mkRegs o.msk
  | .vstl o => vReg o.d :: (if bitOf o.f16.toNat 0 then [vReg o.b] else []) ++ mkRegs o.msk
  | _ => []

/-- The v or m register that a queued instruction writes. -/
def entryWrites : Instr → List RegName
  | .vadd o | .vsub o | .vand o | .vor o | .vxor o | .vsll o | .vsrl o | .vsra o => [vReg o.d]
  | .vmul o | .vmulh o | .vmin o | .vmax o | .vsadd o | .vssub o | .vmerge o => [vReg o.d]
  | .vcmp o | .vfcmp o => [mReg o.d]
  | .vfadd o | .vfsub o | .vfmul o | .vfdiv o | .vfmin o | .vfmax o | .vfsqrt o => [vReg o.d]
  | .vfma o | .vfnma o | .vfcvt o | .vfscale o | .vfsgn o => [vReg o.d]
  | .vfclass o => [mReg o.d]
  | .vredsum o | .vfredsum o | .vredmax o | .vfredmax o => [vReg o.d]
  | .vslide o | .vperm o | .vcompress o | .vexpand o | .vins o | .vsplat o | .viota o | .vmov o => [vReg o.d]
  | .mand o | .mor o | .mxor o | .mandn o | .mnot o | .msbf o => [mReg o.d]
  | .vld o | .vldx o | .vlds o | .vldl o => [vReg o.d]
  | .mld o => [mReg o.d]
  | _ => []

/-- v registers that a short matrix entry reads (R155). -/
def mqReads : Instr → List RegName
  | .ranka o | .ranks o => [vReg o.a, vReg o.b]
  | .mwr o | .mrowacc o => [vReg o.a]
  | _ => []

def meets (a b : List RegName) : Bool := a.any (fun r => b.contains r)

/-! ### The three queues (R135) -/

inductive QName where
  | vlq
  | vsq
  | vaq
deriving DecidableEq, Repr

def queueOf : Instr → QName
  | .vld _ | .vldx _ | .vlds _ | .mld _ | .vldl _ => .vlq
  | .vst _ | .vstx _ | .vsts _ | .mst _ | .vstl _ => .vsq
  | _ => .vaq

/-! ### Memory formats and blocks (R148, R151) -/

/-- Bytes per memory element of a pointer format at register width w, 1 for the int4 pair. -/
def memBytes (fc w : Nat) : Nat := if fc = 0 then w / 8 else if fc = 30 then 1 else fmtWidth fc / 8

def blockLen (vt : BitVec 16) : Nat := 2 ^ (vtBl vt + 2)

/-! ### Active elements and indices (R130, R149) -/

/-- Element i is active when its mask bit allows it (R130). -/
def Core.active (k : Core) (mk : BitVec 4) (i : Nat) : Bool := mk = 0 || k.mBit (mk.toNat - 1) i

/-- The width of the indexes of an indexed access (R149). -/
def indexWidth (f16 w : Nat) : Nat := match bitsOf f16 3 2 with
  | 0 => w
  | 1 => 16
  | 2 => 32
  | _ => 64

/-! ### Elements of an entry -/

/-- One memory part of an entry: the element that it belongs to, its exact address, its bytes, the alignment it needs, the active
elements that it counts in the page's hotness (R316), and the block when it is a scale (R151). -/
structure Part where
  elem : Nat
  addr : Int
  size : Nat
  align : Nat
  count : Nat
  scale : Option Nat := none
deriving DecidableEq, Repr

/-- The exact base address of an entry. -/
def entryBase (o : LX) (e : VEntry) : Int := (e.op1.toNat % 2 ^ 56 : Nat) + o.imm.toInt

/-- The address of element i of VLD or VST. -/
def plainAddr (o : LX) (e : VEntry) (size i : Nat) : Int :=
  let ea := entryBase o e
  if bitOf o.f16.toNat 0 then ea + i * e.op2.toInt
  else if ptrFc e.op1 = 30 then ea + (i / 2 : Nat) else ea + (i * size : Nat)

/-- The address of element i of VLDX or VSTX. -/
def indexedAddr (k : Core) (o : LX) (e : VEntry) (w size i : Nat) : Int :=
  let idx := k.vElem o.b.toNat (indexWidth o.f16.toNat w) i
  entryBase o e + (idx * (if bitOf o.f16.toNat 5 then size else 1) : Nat)

/-- The address of element i of a block-scaled plane. -/
def scaledAddr (o : LX) (e : VEntry) (size i : Nat) : Int :=
  if ptrFc e.op1 = 30 then entryBase o e + (i / 2 : Nat) else entryBase o e + (i * size : Nat)

/-- Active elements of an entry below VL, in order. -/
def activeList (k : Core) (msk : BitVec 4) (vl : Nat) : List Nat := (upTo vl).filter (k.active msk)

/-- Active elements of block b. -/
def blockActive (k : Core) (o : LX) (e : VEntry) (b : Nat) : List Nat :=
  let l := blockLen e.vtype
  (activeList k o.msk e.vl).filter (fun i => i / l == b)

/-- Blocks of VLDS and VSTS that hold an active element. -/
def activeBlocks (k : Core) (o : LX) (e : VEntry) : List Nat :=
  let l := blockLen e.vtype
  (upTo ((e.vl + l - 1) / l)).filter (fun b => !(blockActive k o e b).isEmpty)

def scaleAddr (e : VEntry) (b : Nat) : Int := ((e.op2.toNat % 2 ^ 56 + b : Nat) : Int)

/-- The parts of VLDS and VSTS, block by block; a scale belongs to the first active element of its block. -/
def scaledParts (k : Core) (o : LX) (e : VEntry) (store : Bool) : List Part :=
  let size := memBytes (ptrFc e.op1) 8
  let l := blockLen e.vtype
  (activeBlocks k o e).flatMap (fun b =>
    let act := blockActive k o e b
    let elems := if store then (upTo l).map (b * l + ·) else act
    { elem := act.headD 0, addr := scaleAddr e b, size := 1, align := 1, count := 0, scale := some b } ::
      elems.map (fun i => { elem := i, addr := scaledAddr o e size i, size, align := 1,
                            count := if act.contains i then 1 else 0 }))

/-- The parts of an entry in element order. -/
def entryParts (k : Core) (e : VEntry) : List Part :=
  let w := ewBits (vtEw e.vtype)
  match e.instr with
  | .vld o | .vst o =>
    let size := memBytes (ptrFc e.op1) w
    (activeList k o.msk e.vl).map (fun i => { elem := i, addr := plainAddr o e size i, size, align := 1, count := 1 })
  | .vldx o | .vstx o =>
    let size := memBytes (ptrFc e.op1) w
    (activeList k o.msk e.vl).map (fun i => { elem := i, addr := indexedAddr k o e w size i, size, align := size, count := 1 })
  | .vlds o => scaledParts k o e false
  | .vsts o => scaledParts k o e true
  | .mld o | .mst o =>
    (upTo ((e.vl + 7) / 8)).map (fun j =>
      { elem := 8 * j, addr := entryBase o e + j, size := 1, align := 1, count := min 8 (e.vl - 8 * j) })
  | _ => []

/-- The notify address of an entry, if it has one (R139, R152). -/
def notifyOf (e : VEntry) : Option Nat :=
  let ntf (o : LX) := bitOf o.f16.toNat 1
  match e.instr with
  | .vld o | .vst o => if ntf o then some ((if bitOf o.f16.toNat 0 then e.op3 else e.op2).toNat % 2 ^ 56) else none
  | .vldx o | .vstx o => if ntf o then some (e.op2.toNat % 2 ^ 56) else none
  | .vlds o | .vsts o => if ntf o then some (e.op3.toNat % 2 ^ 56) else none
  | _ => none

/-- Loads read their parts; stores only write them. -/
def loadsParts : Instr → Bool
  | .vld _ | .vldx _ | .vlds _ | .mld _ => true
  | _ => false

/-! ### Order against queued accesses (R111, R136, R250, R252) -/

/-- The class of the element accesses of a queued vector memory instruction (R147); none for one that makes no such access. -/
def entryClass : Instr → Option Nat
  | .vld o | .vldx o | .vst o | .vstx o | .vlds o | .vsts o | .mld o | .mst o => some o.oc.toNat
  | _ => none

/-- Queued entries that store to memory. -/
def storesMem : Instr → Bool
  | .vst _ | .vstx _ | .vsts _ | .mst _ => true
  | .vld o | .vldx o | .vlds o => bitOf o.f16.toNat 1
  | _ => false


/-- The registers by which an entry's addresses are formed: its mask and its indices. -/
def addrRegs : Instr → List RegName
  | .vld o | .vst o | .vlds o | .vsts o => mkRegs o.msk
  | .vldx o | .vstx o => vReg o.b :: mkRegs o.msk
  | _ => []

/-- The ranges that an entry accesses, its notify word among them. -/
def entryRanges (k : Core) (e : VEntry) : List (Int × Nat) :=
  (entryParts k e).map (fun p => (p.addr, p.size)) ++ ((notifyOf e).map (fun va => ((va : Int), 8))).toList

/-- Two ranges of addresses, or of keys, meet. -/
def rangesMeet (a : Int) (n : Nat) (b : Int) (m : Nat) : Bool := a < b + m && b < a + n

/-- The place that an access would reach, as a key: a lookup that changes nothing. -/
def State.peekKey (s : State) (k : Ctx) (core va size : Nat) : Option Nat :=
  match s.access { asid := k.as, core, priv := k.priv, kind := .vector, need := .look } va size with
  | .ok (_, p) => some p.key
  | .error _ => none

/-- An entry's accesses and a new one of [va, va + size) overlap in bytes, under one address or under two (R240, R250, R252), or are of one window,
whose versions a context reads in program order (R257). -/
def State.entryTouches (s : State) (c : Nat) (e : VEntry) (va : Int) (size : Nat) : Bool :=
  let k := s.core c
  let x := k.ctx e.ctx
  let key := s.peekKey x c va.toNat size
  let win := s.windowAt x.as va.toNat
  (entryRanges k e).any (fun r => rangesMeet r.1 r.2 va size || (win.isSome && s.windowAt x.as r.1.toNat == win) ||
    (match key, s.peekKey x c r.1.toNat r.2 with
      | some a, some b => rangesMeet b r.2 a size
      | _, _ => false))

/-- Entries of the executing context that have not completed and make element accesses. -/
def State.queuedAccesses (s : State) : List VEntry :=
  s.me.queue.filter (fun e => !e.done && e.ctx == s.curCtx && (entryClass e.instr).isSome)

/-- An older queued entry of the context makes accesses of a class for which p holds. -/
def State.classQueued (s : State) (p : Nat → Bool) : Bool := s.queuedAccesses.any (fun e => ((entryClass e.instr).map p).getD false)

/-- An older queued entry may access a byte of [va, va + size): its addresses meet the range, or are not known while a still older entry
writes a register that they come from. -/
def State.conflictQueued (s : State) (va : Int) (size : Nat) : Bool :=
  s.queuedAccesses.any (fun e => s.me.queue.any (fun o => !o.done && meets (entryWrites o.instr) (addrRegs e.instr))
    || s.entryTouches s.cur e va size)

/-- A WREAD of the context has not performed: it is an acquire, and every later access follows it (R128, R255). -/
def State.wreadPending (s : State) : Bool :=
  s.ops.any (fun o => (match o.kind with | .wread _ => true | _ => false) && o.ended.isNone && o.ctx == s.curCtx && o.asid == s.cx.as
    && o.sid == s.cx.sid && (o.ctx == .u || o.core == s.cur))

/-- An access of class oc to the ranges given waits for older queued accesses of its class, for those that may meet its bytes, and for a
pending acquire; a release waits for all of them (R111, R136, R250) (log 5, DEDUCED). -/
def orderWait (oc : BitVec 4) (release : Bool) (ranges : List (Int × Nat)) (s : State) : Except Stop Unit :=
  if s.classQueued (fun c => release || c == oc.toNat) || s.wreadPending || ranges.any (fun r => s.conflictQueued r.1 r.2)
  then .error .stall else .ok ()

/-! ### Poisoned register elements (R381) -/

/-- A register element, as register, width and index, holds poison in one of the 32-bit elements that it meets. -/
def Core.elemPoisoned (k : Core) (r : RegName × Nat × Nat) : Bool :=
  k.regPoison.any (fun p => p.1 == r.1.1 && p.2.1 == r.1.2 &&
    p.2.2 * 32 < (r.2.2 + 1) * r.2.1 && r.2.2 * r.2.1 < (p.2.2 + 1) * 32)

/-- The lowest of the first n bits of a mask that is poisoned. -/
def Core.maskPoison (k : Core) (d : BitVec 5) (n : Nat) : Option Nat :=
  if k.regPoison.isEmpty then none else (upTo n).find? (fun j => k.elemPoisoned (mReg d, 1, j))

/-- QFAULT for a poisoned register element that an instruction reads. -/
def poisonQfault (elem : Nat) : Stop := .trap { cause := .qfault, sinfo := Cause.poison.code * 2 ^ 8 + elem * 2 ^ 16 }

end Sys2Proof.Machine
end

