-- ==== Sys2Proof/Machine/Ops.lean ====
section
/-! DEFINITION. The shared operations of every instruction: taking a trap (R204, R205, R219, R328, R329), streaming a strand (R230 to
R232, R331), returning from service code (R206), the checks of R80, the PC and fetching (R16, R71, R79), and tokens (R119). -/

namespace Sys2Proof.Machine

/-! ### Preconditions for capturing a strand -/

/-- Queued vector work of either context must end before a precise trap (R131, R205 step 1); short matrix entries complete as the
context is captured (R155 rule 4). -/
def Core.drained (k : Core) : Bool := k.queue.isEmpty

/-- No entry that the A context issued waits or executes: such entries act on the registers of the U strand of their issue (R224). -/
def Core.aQuiet (k : Core) : Bool := k.queue.all (fun e => e.ctx == .u)

/-- The older entries of the A context have completed, as a precise trap of it asks (R131, R155). -/
def Core.aDrained (k : Core) : Bool := k.aQuiet && k.mq.all (fun e => e.ctx == .u)

/-- No MSENDA of a context of core c waits for its answer (R195). -/
def State.sendsAnswered (s : State) (c : Nat) (n : CtxName) : Bool :=
  let x := (s.core c).ctx n
  s.flights.all (fun f => !(f.asid == x.as && f.sid == x.sid && f.ctx == n && (n == .u || f.core == c) && f.answer.isNone))

/-- A line of the persistence domain that can no longer be confirmed: its part of the pool cannot be reached (R356, R357) (log 55, DESIGN CHOICE). -/
def State.lineLost (s : State) (pa : Nat) : Bool := s.cxlDead pa

/-- The pending persists of a context of core c: its strand's, or those of an A context that runs for no strand (R118). -/
def State.persists (s : State) (c : Nat) (n : CtxName) : List (Nat × Nat) :=
  let x := (s.core c).ctx n
  match s.strand x.as x.sid with
  | some t => t.persists
  | none => (s.core c).aPersists

/-- The pending persists of the executing context are changed. -/
def State.modPersists (s : State) (f : List (Nat × Nat) → List (Nat × Nat)) : State := match s.myStrand with
  | some t => s.modStrand t.asid t.sid (fun t => { t with persists := f t.persists })
  | none => s.modCore s.cur (fun k => { k with aPersists := f k.aPersists })

/-- They are durable, as far as they still can be. -/
def State.persisted (s : State) (c : Nat) (n : CtxName) : Bool := (s.persists c n).all (fun l => s.lineLost l.2)

/-- The U context has come to an EXIT, an SRET, or the HEND of a promoted handler, at which no pre-emption or migration is taken (R184; log 45, DEDUCED). -/
def Core.ending (k : Core) : Bool := match k.u.line with
  | some (_, l) => (match decodeSlot l (k.u.pcNat % 32) with
    | .ok (.exit _) | .ok .hend | .ok (.sret _) => true
    | _ => false)
  | none => false

/-- The strand of core c's U context is being ended as killed (R188). -/
def State.dyingAt (s : State) (c : Nat) : Bool := ((s.strand (s.core c).u.as (s.core c).u.sid).map (·.dying)).getD false

/-! ### Trap entry (R204) -/

/-- The PC at which cause c enters service code (R204): BASE·64, plus 64·c when VEC is set. -/
def svecEntry (svec : Word) (c : Nat) : Word :=
  let base := bitsOf svec.toNat 6 50 * 64
  BitVec.ofNat 64 ((base + (if bitOf svec.toNat 0 then 64 * c else 0)) % 2 ^ 56)

/-- The nested entry, cause index 0x1F whatever VEC holds (R204). -/
def nestedEntry (svec : Word) : Word := BitVec.ofNat 64 ((bitsOf svec.toNat 6 50 * 64 + 64 * 0x1F) % 2 ^ 56)

/-- SSTATUS with PPRIV, ACTX and GANGW written, MIGINT kept (R23, R205). -/
def sstatusWith (old : Word) (pprv : Nat) (actx gangw : Bool) : Word :=
  BitVec.ofNat 64 (old.toNat % 2 + pprv * 2 + b2n actx * 8 + b2n gangw * 16)

/-- The poisoned atom that a trap consumed, with the SCAUSE code under which it did (R381). A PSYNC that cannot be confirmed reads none, and a
poisoned table entry has been reported by its home (R310). -/
def State.consumed (s : State) (asid : Nat) (t : Trap) : Option (Nat × Nat) :=
  let atom (code : Nat) : Option (Nat × Nat) := some (code, s.paOf asid t.saddr / 32 * 32)
  match t.cause with
  | .poison => if bitsOf t.sinfo 4 4 != 2 then atom t.cause.code else none
  | .qfault => if bitsOf t.sinfo 8 8 == Cause.poison.code then atom t.cause.code else none
  | _ => none

/-- A trap that consumed poison adds a class-3 record (R381) (log 44, DEDUCED). -/
def State.logConsumed (s : State) (asid c : Nat) (t : Trap) : State :=
  match s.consumed asid t with
  | none => s
  | some (code, pa) => s.logRecord 3 1 c pa code

/-- Which causes are page traps, reported as MSGFAULT for a handler (R205). -/
def isPageCause : Cause → Bool
  | .pgnp | .pgprot | .pghost | .mhraw => true
  | _ => false

/-- SEPC of a trap: the instruction's own PC unless the raiser names another (R16, R106). -/
def trapPc (t : Trap) (k : Ctx) : Word := pcMask (t.sepc.getD k.pc)

/-- A context with the trap recorded in what its image carries (R32, R205): cause, address, information, and resume PC. -/
def recorded (k : Ctx) (t : Trap) (resume : Word) : Ctx :=
  { k with pc := resume, scause := BitVec.ofNat 8 t.cause.code, saddr := BitVec.ofNat 64 t.saddr,
           sinfo := BitVec.ofNat 64 t.sinfo, line := none, waiting := .no, deadline := none }

/-- The image of core c's U strand stopped before its next instruction for a cause; its resume point is the PC as it stands, where a control
transfer whose target has not been fetched still meets R16's check. -/
def State.stoppedImage (s : State) (c : Nat) (t : Trap) : Image :=
  let g := s.imageU c
  { g with ctx := recorded g.ctx t g.ctx.pc }

/-- The service entry of a held strand whose image lies at `a` (R205 step 4). -/
def heldEntry (g : Image) (a : Nat) (t : Trap) (sepc : Word) (actx gangw : Bool) : SvcEntry :=
  { cause := t.cause, sepc, saddr := BitVec.ofNat 64 t.saddr, sinfo := BitVec.ofNat 64 t.sinfo,
    sqimg := if g.queue.isEmpty then 0 else BitVec.ofNat 64 (a + g.queueOffset), pprv := g.ctx.priv, actx, gangw,
    image := BitVec.ofNat 64 a, asid := g.ctx.as, sid := g.ctx.sid, held := true, engineOp := none }

/-- The entry that reports SPILLFAIL in place of a trap whose image could not be written (R329). -/
def spillFailEntry (g : Image) (t : Trap) (sepc : Word) (actx gangw : Bool) (e : SpillErr) : SvcEntry :=
  { cause := .spillfail, sepc, saddr := BitVec.ofNat 64 e.va,
    sinfo := BitVec.ofNat 64 (e.reason + e.cause * 2 ^ 8 + t.cause.code * 2 ^ 56),
    sqimg := 0, pprv := g.ctx.priv, actx, gangw, image := 0, asid := g.ctx.as, sid := g.ctx.sid, held := true, engineOp := none }

/-- A strand gives up its place among those that wait on a full syscall ring (R305). -/
def State.leaveRing (s : State) (asid sid : Nat) : State :=
  if (s.space asid).any (fun p => p.sysWait.contains sid || p.sysGrant.contains sid) then
    s.modSpace asid (fun p => { p with sysWait := p.sysWait.filter (· != sid), sysGrant := p.sysGrant.filter (· != sid) })
  else s

/-- A strand has become held: a due stop of the watchdog makes no second entry (R327), one of its crew sends it to the overflow list at its
SRET (R216), and its place at a full syscall ring goes to the next (R305; log 66, DESIGN CHOICE). -/
def State.onHold (s : State) (asid sid : Nat) : State :=
  let crew := ((s.strand asid sid).bind (·.crew)).bind s.crew
  (s.modStrand asid sid (fun x => { x with stopDue := none, preempted := x.preempted || (crew.bind (·.stop)).isSome })).leaveRing asid sid

/-- Hold the U strand of a core (R205 steps 2 and 3, R328, R329): its image goes to the spill area and a service entry is queued; the
U context is left, reserved for a crew member, or keeps a strand whose image could not be written. -/
def State.holdU (s : State) (c : Nat) (g : Image) (t : Trap) (sepc : Word) (gangw : Bool) : State :=
  let asid := g.ctx.as
  let sid := g.ctx.sid
  match s.spillImage g with
  | .error e => ((s.modCore c (fun k => { k with uWork := .heldInRegs, u := { g.ctx with line := none },
                                                 queue := k.queue.filter (fun q => q.ctx == .a) ++ g.queue, vfault := none })).pushEntry c
      (spillFailEntry g t sepc false gangw e)).onHold asid sid
  | .ok (s1, a) =>
    let s2 := ((s1.modStrand asid sid (fun x => { x with heldAt := some a, lastCore := c })).pushEntry c
      (heldEntry g a t sepc false gangw)).onHold asid sid
    if ((s.strand asid sid).bind (·.crew)).isSome then s2.reserveU c sid else s2.leaveU c

/-- MSTART when a long matrix instruction is interrupted (R165) (log 42, DEDUCED). -/
def interruptedMstart (l : LongOp) : Word := BitVec.ofNat 64 (2 ^ 63 + l.kind * 2 ^ 61 + l.acc * 2 ^ 59 + l.next)

/-- The U strand is stopped: pins of an access that it abandons are released (R314); a long instruction that it is in records its next step or
row in MSTART (R165), and every issued short matrix entry then completes before the context is captured, an MDROP that waited for the long
instruction among them (R155 rule 4, R156). -/
def State.interruptLong (s : State) (c : Nat) : State :=
  let s := ((s.unpin (.entry c false)).unpin (.entry c true)).unpin (.row c)
  match (s.core c).long with
  | none => s.finishMq c 8
  | some l => (s.modCore c (fun k => { k with long := none, residue := 0, u := { k.u with mstart := interruptedMstart l } })).finishMq c 8

/-- A trap of a gang leader as GANGBRK (R219): the original cause, SINFO and gang size; the gang disbands. -/
def gangTrap (t : Trap) (n : Nat) : Trap :=
  { cause := .gangbrk, saddr := t.saddr, sinfo := t.sinfo % 2 ^ 32 * 2 ^ 32 + t.cause.code * 2 ^ 8 + n, sepc := t.sepc }

/-! ### Streaming (R230 to R232, R331) -/

/-- The hold mask of an image for a needed mask (R230). -/
def holdMask (needed : Nat) (g : Image) : Nat := needed ||| g.mask

/-- FWDCFG as a CTXSTREAM to core t writes it (R209, R210, R331). -/
def fwdWord (asid t : Nat) : Word := BitVec.ofNat 64 (2 ^ 63 + asid % 2 ^ 16 * 2 ^ 32 + t % 2 ^ 16)

/-- The accepted messages that core c must send on once its U strand has left find free slots at the core that `fwd` names (R225). -/
def State.mailFits (s : State) (c : Nat) (fwd : Word) : Bool :=
  let k := s.core c
  let go := k.slots.filter (fun m => m.asid == k.u.as)
  go.isEmpty || k.arrival.any (fun p => p.img.ctx.as == k.u.as) || !(fwdValid fwd && fwdAsid fwd == k.u.as)
    || go.length ≤ 32 - (s.core (fwdCore fwd)).occupied

/-- The strand of core c may be stopped now (R118, R184, R195, R224): no handler runs, no entry that the A context issued on its registers is
queued, sends are answered, persists are durable, and it is not about to end; the queued entries of a gang have drained (R219). -/
def State.mayStop (s : State) (c : Nat) : Bool :=
  let k := s.core c
  (match k.aWork with | .handler _ => false | _ => true) && k.aQuiet && s.sendsAnswered c .u && s.persisted c .u && !k.ending
    && !s.dyingAt c && (k.gang == .none || k.drained)

/-- It may leave the core, whose waiting messages find their place (R225). -/
def State.mayLeave (s : State) (c : Nat) : Bool := s.mayStop c && s.mailFits c (s.core c).fwdcfg

/-- Start streaming the U strand of core c (R331 steps 1 to 3): the source keeps its U context until the acknowledgement. -/
def State.startMove (s : State) (c dst : Nat) (g : Image) (kind : MoveKind) (toU : Bool) (needed : Nat) : State :=
  let (id, s1) := s.freshId
  let s2 := s1.modCore c (fun k => { k with uWork := .reserved g.ctx.sid, queue := k.queue.filter (fun q => q.ctx == .a),
                                            vfault := none, long := none, acLive := 0,
                                            u := { k.u with waiting := .no, deadline := none } })
  { s2 with moves := s2.moves ++ [{ id, img := g, src := c, dst, kind, toU, needed }] }

/-- The member of a crew that may move only within its site (R216). -/
def State.crewSite (s : State) (asid sid : Nat) : Option Nat :=
  ((s.strand asid sid).bind (·.crew)).bind (fun id => (s.crew id).map (·.site))

/-- Stop a resident strand without holding it: its image goes to the site overflow list (R208, R229, R232). -/
def State.spillU (s : State) (c : Nat) (g : Image) (needed site : Nat) : Except SpillErr State :=
  match s.overflow g site needed none 0 with
  | .error e => .error e
  | .ok s1 => .ok (s1.leaveU c)

/-- A pre-empted gang leader is held with GANGBRK (R219), and goes to the overflow list at its SRET (R327) (log 45, DEDUCED). -/
def State.holdGang (s : State) (c n info : Nat) : State :=
  let t := gangTrap { cause := .preempt, sinfo := info } n
  let s1 := s.disband c
  let g := s1.stoppedImage c t
  let s2 := s1.holdU c g t (pcMask g.ctx.pc) true
  s2.modStrand g.ctx.as g.ctx.sid (fun x => { x with preempted := true })

/-- Stop the U strand of core c as PREEMPT does (R208, R219): its image goes to the overflow list of a site. -/
def State.stopOne (s : State) (c info extra site cls : Nat) : Except SpillErr State :=
  let s1 := s.interruptLong c
  match (s1.core c).gang with
  | .leader n => .ok (s1.holdGang c n info)
  | _ =>
    let g := s1.stoppedImage c { cause := .preempt, sinfo := info }
    match s1.overflow g site (g.mask ||| extra) none cls with
    | .error e => .error e
    | .ok s2 => .ok (s2.leaveU c)

/-- A held strand whose image could not be written stands in the registers of a core (R329). -/
def State.keptInRegs (s : State) (asid sid : Nat) : Bool :=
  s.cores.any (fun p => p.2.uWork == .heldInRegs && p.2.u.as == asid && p.2.u.sid == sid)

/-- A member of a crew is being streamed (R331). -/
def State.crewMoving (s : State) (w : Crew) : Bool :=
  s.moves.any (fun m => m.img.ctx.as == w.asid && w.members.contains m.img.ctx.sid)

/-- Cores whose U context holds a member of a crew. -/
def State.crewCores (s : State) (w : Crew) : List Nat :=
  (s.cores.filter (fun p => p.2.uWork == .strand && p.2.u.as == w.asid && w.members.contains p.2.u.sid)).map (·.1)

/-- Stop a whole crew (R192, R208, R216): arrivals of incomplete phases are discarded, each resident member's image goes to the site
overflow list, and a held member, in the spill area or in the registers of its core, goes there at its SRET. SINFO[16] marks those that were not the target (R324) (log 45, DEDUCED). -/
def State.stopCrew (s : State) (w : Crew) (target info extra : Nat) : Except SpillErr State :=
  let s0 := s.modCrew w.id (fun w => { w with arrived := [] })
  let s1 := { s0 with strands := s0.strands.map (fun (t : Strand) =>
    if t.crew = some w.id ∧ (t.heldAt.isSome ∨ s.keptInRegs t.asid t.sid) then { t with preempted := true } else t) }
  (s1.crewCores w).foldlM (fun t c =>
    let own := (t.core c).u.sid == target
    t.stopOne c (if own then info else info + 2 ^ 16) (if own then extra else 0) w.site w.clsMask) s1

/-- Every member of a crew may leave its core; a member that is being streamed arrives first. -/
def State.crewReady (s : State) (w : Crew) : Bool := (s.crewCores w).all s.mayLeave && !s.crewMoving w

/-- The crew of a strand. -/
def State.crewOf (s : State) (asid sid : Nat) : Option Crew := ((s.strand asid sid).bind (·.crew)).bind s.crew

/-- Every strand that a stop of core c's U strand stops may leave its core. -/
def State.stopReady (s : State) (c : Nat) : Bool :=
  match ((s.strand (s.core c).u.as (s.core c).u.sid).bind (·.crew)).bind s.crew with
  | none => s.mayLeave c
  | some w => s.crewReady w

/-- Contexts that wait in a PREEMPT or CTXSTREAM for a strand to be stopped, by their numbers of arrival (R326, R327). -/
def State.asks (s : State) (asid sid : Nat) : List Nat :=
  (s.cores.flatMap (fun p => (if p.2.uWork == .strand then [p.2.u] else []) ++ (if p.2.aWork == .idle then [] else [p.2.a]))).filterMap
    (fun k => match k.waiting with
      | .stop _ a d n => if a = asid ∧ d = sid then some n else none
      | _ => none)

/-- A request or watchdog step that reached the strand before number n is still to be met (R326). -/
def State.askedBefore (s : State) (asid sid n : Nat) : Bool :=
  (s.asks asid sid).any (· < n) || (((s.strand asid sid).bind (·.stopDue)).map (fun k => decide (k < n))).getD false

/-- A stop of core c's U strand is due: a request, a watchdog step, the stop of its crew, or the end of its gang or core. -/
def State.asked (s : State) (c : Nat) : Bool :=
  let k := s.core c
  let sid := k.u.sid
  let crew := s.crewOf k.u.as sid
  k.uWork == .strand && (((s.strand k.u.as sid).bind (·.stopDue)).isSome || !(s.asks k.u.as sid).isEmpty || k.breakDue || k.retireDue
    || ((crew.map (fun w => w.stop.isSome || w.members.any (fun m => !(s.asks w.asid m).isEmpty))).getD false))

/-- The U strand issues nothing more on this core but the instruction that ends it (R184, R326, R331 step 1); one that waits in a PREEMPT or
CTXSTREAM directed at itself goes on with that. -/
def State.stopping (s : State) (c : Nat) : Bool :=
  let k := s.core c
  let own := match k.u.waiting with | .stop _ a d _ => a == k.u.as && d == k.u.sid | _ => false
  (s.asked c || (k.uWork == .strand && k.mix.due.isSome && k.long.isNone)) && !k.ending && !own

/-- The strand is leaving its core, whose A context starts no handler of its address space meanwhile (R331 step 1). -/
def State.leaving (s : State) (c : Nat) : Bool := s.stopping c || ((s.core c).uWork == .strand && (s.core c).u.waiting == .leave)

/-- Stop the U strand of core c, and its whole crew, for a requester (R208). -/
def State.stopU (s : State) (c info : Nat) : Except SpillErr State :=
  let k := s.core c
  match ((s.strand k.u.as k.u.sid).bind (·.crew)).bind s.crew with
  | some w => s.stopCrew w k.u.sid info 0
  | none => s.stopOne c info 0 (s.siteOf c) 0

/-- MIGCLASS with SSTATUS.MIGINT = 0 outside a gang (R230 to R232): stream to the first candidate, for a crew member an empty U context of its
site, and the whole crew is pre-empted without one (R216); spill when every queue is full; none when no live core holds the hold mask, and the
trap then goes to service code. -/
def State.streamMigclass (s : State) (c needed : Nat) : Option (Except SpillErr State) :=
  let g0 := s.imageU c
  let g := { g0 with ctx := recorded g0.ctx { cause := .migclass, sinfo := needed } g0.ctx.pc }
  let mask := holdMask needed g
  let asid := g.ctx.as
  let sid := g.ctx.sid
  let able := (upTo s.coreCount).filter (fun t => t ≠ c && s.live t && capHolds (s.cls t) mask)
  if able.isEmpty then none
  else match s.crewSite asid sid with
  | some site =>
    let cands := able.filter (fun t => s.mayEnter t && s.freeSlot t && s.siteOf t == site)
    match s.firstRanked c cands with
    | some t => some (.ok (s.startMove c t g .migclass true mask))
    | none =>
      match ((s.strand asid sid).bind (·.crew)).bind s.crew with
      | some w => if s.stopReady c then some (s.stopCrew w sid c mask) else some (.ok s)
      | none => none
  | none =>
    match s.firstRanked c (s.candidates c mask) with
    | some t => some (.ok (s.startMove c t g .migclass false mask))
    | none =>
      match s.firstRanked c able with
      | some t => some (s.spillU c g mask (s.siteOf t))
      | none => none

/-! ### Taking a trap -/

/-- The trap streams its strand instead of entering service code (R230): MIGCLASS with MIGINT = 0 outside a gang. -/
def State.streams (s : State) (t : Trap) : Bool := t.cause == .migclass && !bitOf s.me.sstatus.toNat 0 && s.me.gang == .none

/-- The U strand is held for a trap, a gang disbanding first (R205, R219). -/
def holdTrap (t : Trap) (s : State) : State :=
  let c := s.cur
  let k := s.core c
  let s1 := (s.interruptLong c).logConsumed k.u.as c t
  let (t1, s2, gw) := match k.gang with
    | .leader n => (gangTrap t n, s1.disband c, true)
    | _ => (t, s1, false)
  let g := s2.imageU c
  let pc := trapPc t k.u
  s2.holdU c { g with ctx := recorded g.ctx t1 pc } t1 pc gw

/-- A trap of the U strand (R205, R219, R328). -/
def takeTrapU (t : Trap) (s : State) : State :=
  if s.streams t then
    match (s.interruptLong s.cur).streamMigclass s.cur (t.sinfo % 2 ^ 16) with
    | some (.ok s1) => s1
    | some (.error e) => holdTrap { cause := .spillfail, saddr := e.va, sinfo := e.reason + e.cause * 2 ^ 8 } s
    | none => holdTrap { t with sinfo := t.sinfo + 2 ^ 32 } s
  else holdTrap t s

/-- A handler becomes a strand of its own (R205): its entry in the strand table, with the pending persists of a handler that ran for no strand. -/
def State.promoteStrand (s : State) (c : Nat) : State × Nat :=
  let k := s.core c
  let origin := ((s.strand k.u.as k.u.sid).map (·.origin)).getD 0
  let own := if (s.strand k.a.as k.a.sid).isNone then k.aPersists else []
  (s.modCore c (fun k => { k with aPersists := [] })).newStrand k.a.as
    (fun n => { blankStrand k.a.as n with origin, promoted := true, lastCore := c, issuedAt := c, persists := own })

/-- The A context is left by a handler that has become strand `sid`: its tokens belong to the strand. -/
def State.endHandler (s : State) (c sid : Nat) : State :=
  let s2 := s.modCore c (fun k => { k with aWork := .idle, queue := k.queue.filter (fun q => q.ctx == .u),
                                           a := { Ctx.reset with asid := k.a.asid } })
  { s2 with ops := s2.ops.map (fun (o : EngineOp) =>
              if o.core = c ∧ o.ctx = .a then { o with ctx := .u, sid := sid } else o),
            flights := s2.flights.map (fun (f : Flight) =>
              if f.core = c ∧ f.ctx = .a then { f with ctx := .u, sid := sid } else f) }

/-- A trap of a handler (R205): the handler becomes a held strand of its own, its mailbox slot is free, and the entry carries
ACTX = 1; a page cause is reported as MSGFAULT. A handler whose image cannot be written is kept as it is (R329; log 66, DESIGN CHOICE). -/
def promote (t : Trap) (s : State) (resume : Word) : State :=
  let c := s.cur
  let k := s.core c
  let t1 : Trap := if isPageCause t.cause then { t with cause := .msgfault, sinfo := t.sinfo + t.cause.code * 2 ^ 8 } else t
  let (s1, sid) := (s.logConsumed k.a.as c t).promoteStrand c
  let g := s1.imageA c sid
  let g := { g with ctx := recorded g.ctx t1 resume }
  let pc := trapPc t k.a
  let s2 := s1.endHandler c sid
  match s2.spillImage g with
  | .error e => (s2.modCore c (fun k => { k with keptA := k.keptA ++ [g] })).pushEntry c (spillFailEntry g t1 pc true false e)
  | .ok (s3, a) => (s3.modStrand g.ctx.as sid (fun x => { x with heldAt := some a })).pushEntry c (heldEntry g a t1 pc true false)

/-- A trap raised by service code (R205): the S CSRs are overwritten, PPRIV := 1, ACTX := 1, and the nested entry starts (log 44, DEDUCED). -/
def takeNested (t : Trap) (s : State) : State :=
  let pc := trapPc t s.cx
  (s.logConsumed s.cx.as s.cur t).modCore s.cur (fun k => { k with
    scause := BitVec.ofNat 64 t.cause.code, sepc := pc, saddr := BitVec.ofNat 64 t.saddr, sinfo := BitVec.ofNat 64 t.sinfo,
    sstatus := sstatusWith k.sstatus 1 true false,
    a := { k.a with pc := nestedEntry k.svec, line := none, waiting := .no, deadline := none } })

/-- A trap waits, and the instruction is met again (log 44, DEDUCED): while older queued work of its context has not completed (R131, R328), while a
set of persists completes (R118) or an MSENDA is unanswered (R195), and, before a strand is streamed, while it may not leave its core (R331).
Service code keeps its context, and waits for its entries alone. -/
def State.trapHeld (s : State) (t : Trap) : Bool :=
  match s.curCtx with
  | .u => !s.me.drained || !s.persisted s.cur .u || !s.sendsAnswered s.cur .u || (s.streams t && !s.mayLeave s.cur)
  | .a => match s.me.aWork with
    | .service _ _ => !s.me.aDrained
    | .handler _ => !s.me.aDrained || !s.persisted s.cur .a || !s.sendsAnswered s.cur .a
    | .idle => true

/-- The trap as it is taken. -/
def trapNow (t : Trap) (s : State) : State := match s.curCtx with
  | .u => takeTrapU t s
  | .a => match s.me.aWork with
    | .service _ _ => takeNested t s
    | .handler _ => promote t s (trapPc t s.cx)
    | .idle => s

/-- It waits too while the spill area that it writes cannot be reached yet (log 70, DESIGN CHOICE). -/
def State.trapWaits (s : State) (t : Trap) : Bool := s.trapHeld t || (trapNow t s).blocked

/-- What a wait leaves: a strand that is to be streamed has stopped fetching, so that no handler of its address space starts (R331 step 1); and the
host translation of the spill area is asked for. -/
def State.readied (s : State) (t : Trap) : State :=
  if s.trapHeld t then (if s.curCtx == .u && s.streams t then s.modCx (fun k => { k with waiting := .leave }) else s)
  else s.askedBy (trapNow t s)

/-- TAKING A TRAP in the executing context (R204, R205, R328), once it may be taken. -/
def takeTrap (t : Trap) (s : State) : State := if s.trapWaits t then s.readied t else trapNow t s

/-- QFAULT of the faulting entry at position i of a core's queue (R138, R150, R328): every older entry has completed; the entry and
the younger ones of its context form the queue image; the resume PC is where the scalar pipe has got to. Service code has no image: its faulting
entry and its younger ones are dropped at the nested entry (log 66, DESIGN CHOICE: the spec gives them no place). -/
def takeQfault (s : State) (c : Nat) (f : VFault) (e : VEntry) : State :=
  let info := f.older % 128 + f.cause.code * 2 ^ 8 + f.elem * 2 ^ 16
  let t : Trap := { cause := .qfault, saddr := f.saddr.toNat, sinfo := info, sepc := some e.pc }
  let s0 := { s with cur := c, curCtx := e.ctx }
  let s1 := s0.modCore c (fun k => { k with vfault := none })
  match e.ctx with
  | .u =>
    let k := s1.core c
    let s2 := (s1.interruptLong c).logConsumed k.u.as c t
    let (t1, s3, gw) := match k.gang with
      | .leader n => (gangTrap t n, s2.disband c, true)
      | _ => (t, s2, false)
    let g := s3.imageU c
    s3.holdU c { g with ctx := recorded g.ctx t1 k.u.pc } t1 (pcMask e.pc) gw
  | .a =>
    match (s1.core c).aWork with
    | .service _ _ => takeNested t (s1.modCore c (fun k => { k with queue := k.queue.filter (fun q => q.ctx == .u) }))
    | _ => promote t s1 (s1.core c).a.pc

/-! ### Fencing a core (R384) -/

/-- Another live core of a core's site. -/
def State.siteMate (s : State) (c : Nat) : Option Nat := (upTo s.coreCount).find? (fun t => t ≠ c && s.live t && s.siteOf t == s.siteOf c)

/-! ### Health (R379, R386) -/

/-- Cores of a class that are retired or fenced. -/
def State.lostCores (s : State) (k : Cls) : Nat :=
  ((upTo s.coreCount).filter (fun c => s.cls c == k && (s.core c).status != .live)).length

/-- A threshold of R386 is crossed. -/
def State.replaceDue (s : State) : Bool :=
  (s.flash.spares == 0 && !s.mgmt.pcFail.isEmpty)
    || s.lostCores .control * 100 > 2 * s.controls || s.lostCores .vector * 100 > 2 * s.vectors
    || s.lostCores .tensor * 100 > 2 * s.tensors
    || ((upTo s.coreCount).filter (fun c => s.cls c == .vector && (s.core c).retLane.isSome)).length * 100 > 8 * s.vectors
    || s.flash.linkDeg.any (fun p => decide (2 * p.2 < fullLanes p.1))

/-- REPLACE is set once a threshold is crossed. -/
def State.reassess (s : State) : State :=
  if s.replaceDue then { s with flash := { s.flash with replace := true } } else s

/-- The place of a core's entry in the enumeration record of the capability list: behind the list's first header, and the entries of the sites, dies,
clusters and tiles (R395, R397). -/
def State.coreEntryPa (s : State) (c : Nat) : Nat := s.cfg.capPtr + 16 + 16 * (4 + 16 + s.coreCount / 16 + s.coreCount / 4 + c)

/-- The enumeration table shows a core as fenced (R384), the one change of the list while READY = 1 (log 73, DESIGN CHOICE: R397 names none). -/
def State.showFenced (s : State) (c : Nat) : State :=
  if !s.mgmt.ready then s
  else
    let a := s.coreEntryPa c
    { s.performHome a 8 true with mem := s.mem.write a 8 (setBits (s.mem.read a 8) 58 2 2) }

/-! ### Fencing a core (R333, R384) -/

/-- The report of a strand whose image is lost (R333, reasons 2 and 3). -/
def lostEntry (x : Ctx) (reason : Nat) : SvcEntry :=
  { cause := .remote, sepc := pcMask x.pc, saddr := 0, sinfo := BitVec.ofNat 64 reason, sqimg := 0, pprv := x.priv, actx := false,
    gangw := false, image := 0, asid := x.as, sid := x.sid, held := true, engineOp := none }

/-- A move has lost its source and its target together (R333 reason 3): told to service code of another live core of the target's site. -/
def State.moveLost (s : State) (m : Move) : State := match s.siteMate m.dst with
  | some t => s.pushEntry t (lostEntry m.img.ctx 3)
  | none => s

/-- The spill pieces of the parked strands of a fenced core are free: their base images are lost, so that nothing there is an image. -/
def State.dropPieces (s : State) (k : Core) : State :=
  k.arrival.foldl (fun (t : State) p => t.modStrand p.img.ctx.as p.img.ctx.sid (fun x => { x with spill := none })) s

/-- Every strand that stood on the core is reported as REMOTE, reason 2, at another live core of the site, and cannot be recovered
(R333, R384); messages, engine work and handlers of the core are abandoned (log 44, DEDUCED). A move whose other end is not live either is lost.
REPLACE follows (R386). -/
def State.fence (s : State) (c : Nat) : State :=
  let k := s.core c
  let other := (s.siteMate c).getD c
  let lost := (if k.uWork == .strand || k.uWork == .heldInRegs then [k.u] else []) ++ k.arrival.map (·.img.ctx)
    ++ k.keptA.map (·.ctx)
  let both (m : Move) : Bool := (m.src == c && !s.live m.dst) || (m.dst == c && !s.live m.src)
  let gone := s.moves.filter both
  let s1 := ((((s.disband c).unpin (.entry c false)).unpin (.entry c true)).unpin (.row c)).dropPieces k
  let s2 := s1.modCore c (fun k => { Core.reset with
    status := .fenced, cycle := k.cycle, prevAsid := k.prevAsid, retLane := k.retLane, remapped := k.remapped })
  let s2 := s2.dropOps (fun o => o.core == c)
  let s3 := { s2 with flights := s2.flights.filter (fun f => f.core ≠ c), moves := s2.moves.filter (fun m => !both m),
                      mgmt := { s2.mgmt with retCore := s2.mgmt.retCore + 1 } }
  let s3 := gone.foldl State.moveLost (s3.logRecord 6 1 c 0 0)
  let s4 := if other = c then s3 else s3.modCore other (fun k => { k with entries := k.entries ++ lost.map (lostEntry · 2) ++ (s.core c).entries })
  (s4.showFenced c).reassess

/-! ### Service entry and return (R205, R206, R409) -/

/-- A pending service entry starts in the free A context (R17, R205 step 4). -/
def startService (s : State) (c : Nat) (e : SvcEntry) : State :=
  s.modCore c (fun k => { k with
    entries := k.entries.tail, aWork := .service e none,
    scause := BitVec.ofNat 64 e.cause.code, sepc := e.sepc, saddr := e.saddr, sinfo := e.sinfo, sqimg := e.sqimg,
    sstatus := sstatusWith k.sstatus (b2n e.pprv) e.actx e.gangw,
    a := { (k.a.setX 3 e.image) with
      pc := svecEntry k.svec e.cause.code, fflags := 0, frm := 0, inldepth := 0, vtype := k.u.vtype, priv := true,
      asid := BitVec.ofNat 16 e.asid, strandId := BitVec.ofNat 48 e.sid, line := none, waiting := .no, deadline := none, pend := 0,
      tokErr := 0 } })

/-- The A context becomes free (R196, R206). A token that service code leaves pending at its SRET is delivered to no register, and its pending
persists are forgotten (log 63, DESIGN CHOICE: R119 and R118 do not say). -/
def State.freeA (s : State) (c : Nat) : State :=
  let s1 := s.modCore c (fun k => { k with
    aWork := .idle, aPersists := [], a := { k.a with priv := false, line := none, pend := 0, tokErr := 0, waiting := .no, deadline := none } })
  { s1 with ops := s1.ops.map (fun (o : EngineOp) => if o.core = c ∧ o.ctx = .a then { o with reg := 0 } else o),
            flights := s1.flights.map (fun (f : Flight) => if f.core = c ∧ f.ctx = .a then { f with reg := 0 } else f) }

/-- A promoted handler kept because its image could not be written, and its core (R329). -/
def State.keptImage (s : State) (asid sid : Nat) : Option (Nat × Image) :=
  s.cores.findSome? (fun p => (p.2.keptA.find? (fun g => g.ctx.as == asid && g.ctx.sid == sid)).map (fun g => (p.1, g)))

/-- The core whose U context is reserved for a held strand (R328), or keeps it in its registers (R329). -/
def State.reservedAt (s : State) (asid sid : Nat) : Option Nat :=
  (s.cores.find? (fun p => p.2.u.as == asid && (p.2.uWork == .reserved sid || (p.2.uWork == .heldInRegs && p.2.u.sid == sid)))).map (·.1)

/-- A strand goes to the overflow list of the site of the core that last held it, or of its crew (R229, R327). -/
def State.listStrand (s : State) (g : Image) (c : Nat) : Except SpillErr State :=
  let crew := ((s.strand g.ctx.as g.ctx.sid).bind (·.crew)).bind s.crew
  s.overflow g ((crew.map (·.site)).getD (s.siteOf c)) g.mask none ((crew.map (·.clsMask)).getD 0)

/-- A strand whose image could not be written resumes from the registers (R329), or leaves when a pre-emption reached it (R327). -/
def State.releaseRegs (s : State) (r : Nat) (e : SvcEntry) (priv : Bool) : State :=
  let s1 := s.modCore r (fun k => { k with uWork := .strand, u := { k.u with priv } })
  if !((s.strand e.asid e.sid).map (·.preempted)).getD false then s1
  else
    let g := s1.imageU r
    match s1.listStrand g r with
    | .ok s2 => (s2.modStrand e.asid e.sid (fun x => { x with preempted := false })).leaveU r
    | .error err => s.pushEntry r (spillFailEntry g { cause := .spillfail } (pcMask g.ctx.pc) false false err)

/-- A promoted handler whose image could not be written goes on (R329): into the core's U context or queue, or the overflow list when a pre-emption
reached it or the queue is full. -/
def State.releaseKept (s : State) (c : Nat) (e : SvcEntry) (g0 : Image) (priv : Bool) : State :=
  let g := { g0 with ctx := { g0.ctx with priv } }
  let s1 := s.modCore c (fun k => { k with keptA := k.keptA.filter (fun x => !(x.ctx.as == e.asid && x.ctx.sid == e.sid)) })
  let go : Except SpillErr State :=
    if ((s.strand e.asid e.sid).map (·.preempted)).getD false then
      (s1.listStrand g c).map (·.modStrand e.asid e.sid (fun x => { x with preempted := false }))
    else if s1.mayEnter c && (oldestReady (s1.core c).arrival).isNone then .ok (s1.enterU c g)
    else if s1.freeSlot c then (s1.park c g (.ready s1.now)).map (·.nextU c)
    else s1.listStrand g c
  match go with
  | .ok s2 => s2
  | .error err => s.pushEntry c (spillFailEntry g { cause := .spillfail } (pcMask g.ctx.pc) true false err)

/-- The held strand is released (R206, R327, R328): it joins its core's arrival queue, its reserved U context, or the overflow
list when the queue is full or a pre-emption reached it while held. -/
def State.releaseHeld (s : State) (c : Nat) (e : SvcEntry) : State :=
  let priv := bitOf (s.core c).sstatus.toNat 1
  let r := s.reservedAt e.asid e.sid
  if ((r.map (fun r => (s.core r).uWork == .heldInRegs)).getD false) then s.releaseRegs (r.getD c) e priv
  else match s.keptImage e.asid e.sid with
  | some (q, g) => s.releaseKept q e g priv
  | none => match s.strand e.asid e.sid with
    | none => s
    | some t =>
      match t.heldAt with
      | none => s
      | some a =>
        match s.loadImage e.asid a (r.getD c) with
        | .error (.bad b) => s.pushEntry c (badImageEntry { e with image := BitVec.ofNat 64 a } b)
        | .error .poison => s.pushEntry c (remoteEntry { e with image := BitVec.ofNat 64 a })
        | .error (.wait t) => t
        | .ok (s1, g) =>
          let g1 := { g with ctx := { g.ctx with priv } }
          let s2 := s1.modStrand e.asid e.sid (fun x => { x with heldAt := none, preempted := false, spill := none })
          let toList (s2 : State) : State :=
            match s2.listStrand g1 c with
            | .ok s3 => s3
            | .error err => s.pushEntry c (spillFailEntry g1 { cause := .spillfail } (pcMask g1.ctx.pc) false false err)
          match r with
          | some q => if t.preempted then (toList (s2.modCore q (fun k => { k with uWork := .empty }))).leaveU q else s2.enterU q g1
          | none =>
            if t.preempted || !(s2.freeSlot c) then toList s2
            else match s2.park c g1 (.ready s2.now) with
              | .ok s3 => s3.nextU c
              | .error err => s.pushEntry c (spillFailEntry g1 { cause := .spillfail } (pcMask g1.ctx.pc) false false err)

/-- The context in an image of the spill area; nothing where it cannot be read. -/
def State.spillCtx (s : State) (asid a : Nat) : State × Ctx := match s.devReads asid a 64 with
  | some (s1, d) => (s1, baseCtx d)
  | none => (s, Ctx.reset)

/-- The context of a held strand, from its image or the registers. -/
def State.heldCtx (s : State) (asid sid : Nat) : State × Ctx :=
  match s.strand asid sid with
  | some { heldAt := some a, .. } => s.spillCtx asid a
  | _ => match s.reservedAt asid sid with
    | some r => (s, if (s.core r).uWork == .heldInRegs then (s.core r).u else Ctx.reset)
    | none => (s, Ctx.reset)

/-- The entries of an ended strand are withdrawn; service code that has started for it runs on (R327). -/
def State.withdraw (s : State) (asid sid : Nat) : State :=
  s.mapCores (fun k => { k with
    entries := k.entries.filter (fun e => !(e.held && e.asid == asid && e.sid == sid)),
    aWork := match k.aWork with
      | .service e killed => .service e
          (if e.held && e.asid == asid && e.sid == sid then some (((s.strand asid sid).bind (·.spill)).getD (0, 0)) else killed)
      | w => w })

/-- The context that a strand in no core has: in an arrival queue, in flight, or in an image of the spill area. -/
def State.awayCtx (s : State) (asid sid : Nat) : State × Ctx :=
  let mine (g : Image) : Bool := g.ctx.as == asid && g.ctx.sid == sid
  match ((s.cores.flatMap (fun p => p.2.arrival.map (·.img) ++ p.2.keptA)) ++ s.moves.map (·.img)).find? mine with
  | some g => (s, g.ctx)
  | none => match (s.strand asid sid).bind (·.spill) with
    | some (a, _) => s.spillCtx asid a
    | none => (s, Ctx.reset)

/-- Every trace of a strand outside the U contexts goes: arrival slots, moves, overflow entries, ring waits, service entries. -/
def State.forget (s : State) (asid sid : Nat) : State :=
  let mine (g : Image) : Bool := g.ctx.as == asid && g.ctx.sid == sid
  let s1 := (s.withdraw asid sid).mapCores (fun k => { k with
    arrival := k.arrival.filter (fun p => !mine p.img), keptA := k.keptA.filter (fun g => !mine g) })
  let s2 := { s1 with
    moves := s1.moves.filter (fun m => !mine m.img),
    sites := s1.sites.map (fun (t : Site) => { t with overflow := t.overflow.filter (fun e => !(e.asid == asid && e.sid == sid)) }) }
  s2.leaveRing asid sid

/-- What a killed strand's end waits for (R188 step 1): every queued entry of it has completed, or stands behind one that faulted, and its
pending persists are durable; its short matrix entries completed when it was stopped. -/
def State.killDone (s : State) (c : Nat) : Bool :=
  let k := s.core c
  let upto : List VEntry := match k.vfault with
    | some f => if (k.queue[f.idx]?).any (fun e => e.ctx == .u) then k.queue.take f.idx else k.queue
    | none => k.queue
  upto.all (fun e => e.ctx != .u || e.done) && k.aQuiet && s.persisted c .u

/-- The end of the killed strand that core c's U context holds. -/
def State.endKilled (s : State) (c : Nat) : State :=
  let x := (s.core c).u
  (((s.forget x.as x.sid).killStrand x.as x.sid x).disband c).leaveU c

/-- Kill a strand wherever it is (R188, R301, R352). One that stands in a U context issues nothing more, and ends when the waits of R188 are
over; entries of a queue image are not executed (log 44, DEDUCED). -/
def State.killOne (s : State) (asid sid : Nat) : State :=
  match s.cores.find? (fun p => p.2.uWork == .strand && p.2.u.as == asid && p.2.u.sid == sid) with
  | some (c, _) =>
    let s1 := s.interruptLong c
    if s1.killDone c then s1.endKilled c else s1.modStrand asid sid (fun t => { t with dying := true })
  | none =>
    let held := ((s.strand asid sid).bind (·.heldAt)).isSome || (s.reservedAt asid sid).isSome
    let (s0, ctx) := if held && !s.moves.any (fun m => m.img.ctx.as == asid && m.img.ctx.sid == sid) then s.heldCtx asid sid
      else s.awayCtx asid sid
    let s1 := (s0.forget asid sid).killStrand asid sid ctx
    match s.reservedAt asid sid with
    | some q => (s1.modCore q (fun k => { k with uWork := .empty })).leaveU q
    | none => (s.cores.map (·.1)).foldl (fun t c => t.refreshOwner c) s1

/-- Kill a strand with every other member of its crew (R188, R216). -/
def State.killAll (s : State) (asid sid : Nat) : State :=
  match ((s.strand asid sid).bind (·.crew)).bind s.crew with
  | some w => w.members.foldl (fun t m => if (t.strand asid m).isSome then t.killOne asid m else t) s
  | none => s.killOne asid sid

/-- The SRET of a service entry that holds no strand (R409): the piece retries, or the operation ends with status 10. -/
def State.releaseOp (s : State) (id : Nat) (kill : Bool) : State :=
  s.modOp id (fun o => if !o.waitSvc then o
    else if kill then { o with waitSvc := false, ended := some (o.written, 10) } else { o with waitSvc := false, issuedAt := s.now })

/-- SRET in the A context (R206, R327, R409) (log 44, DEDUCED). -/
def serviceReturn (s : State) (c : Nat) (kill : Bool) : State :=
  match (s.core c).aWork with
  | .service e killed =>
    let s1 := s.freeA c
    match e.engineOp with
    | some id => s1.releaseOp id kill
    | none => if killed.isSome || !e.held then s1 else if kill then s1.killAll e.asid e.sid else s1.releaseHeld c e
  | _ => s

/-! ### Program counter (R16, R71, R79) -/

def lineBase (pc : Nat) : Nat := pc % 2 ^ 56 / 64 * 64

/-- N of the line that execution is in. -/
def Ctx.lineCount (k : Ctx) : Nat := match k.line with
  | some (a, l) => if a = lineBase k.pcNat then lineN l else 0
  | none => 0

/-- next_pc (R79). -/
def Ctx.nextPc (k : Ctx) : Word :=
  if k.pcNat % 32 + 1 < k.lineCount then BitVec.ofNat 64 (k.pcNat % 2 ^ 56 + 1)
  else BitVec.ofNat 64 ((lineBase k.pcNat + 64) % 2 ^ 56)

/-- Execution passes to next_pc; leaving the line ends its use (R71). -/
def Ctx.advance (k : Ctx) : Ctx :=
  { k with pc := k.nextPc, line := if k.pcNat % 32 + 1 < k.lineCount then k.line else none, waiting := .no, deadline := none }

/-- A control transfer ends execution of the line (R71, R79). -/
def Ctx.jump (k : Ctx) (t : Word) : Ctx := { k with pc := t, line := none, waiting := .no, deadline := none }

def State.advance (s : State) : State := s.modCx (·.advance)
def State.jump (s : State) (t : Word) : State := s.modCx (·.jump t)

/-- target_B and target_WI (R79): line offset and slot. -/
def targetLine (pc : Nat) (off : Int) (slot : Nat) : Word :=
  BitVec.ofNat 64 ((((lineBase pc : Int) + off * 64) % (2 ^ 56 : Int)).toNat + slot)

/-- A result in x[D], then next_pc. -/
def State.retX (s : State) (d : BitVec 5) (v : Word) : State := s.modCx (fun k => (k.setX d v).advance)

/-! ### Fetch (R16, R68, R71) -/

/-- The failed page request that an access has still to meet (R318): its 4 KiB page and the reason. -/
def Waiting.failed : Waiting → Option (Nat × Nat)
  | .hostFail page reason => some (page, reason)
  | _ => none

def Ctx.hostFail (k : Ctx) : Option (Nat × Nat) := k.waiting.failed

/-- The issuing context as an accessor. -/
def State.who (s : State) (kind : AKind) (need : Need) : Who :=
  { asid := s.cx.as, core := s.cur, priv := s.cx.priv, kind, need, fail := s.cx.hostFail }

/-- Entries that came with the context's image execute before any instruction at its resume PC (R138, R259). -/
def State.replaying (s : State) : Bool := s.me.queue.any (fun e => e.replay && !e.done && e.ctx == s.curCtx)

/-- Enter the line of the PC, unless execution is already in it (R71). The read is a load of class 15, which waits for older queued accesses
as such a load does. A line that is read while a store into it has not met every condition of R71 holds the bytes that memory then has (log 58,
DEDUCED: the rule allows the line before or after that store). -/
def State.fetch (s : State) : Except Stop State :=
  let pc := s.cx.pcNat
  let va := lineBase pc
  let ill (r : Nat) (s : State) : Except Stop State := .error (.trapIn { cause := .illine, saddr := va, sinfo := r } s)
  if s.replaying then .error .stall
  else if bitOf pc 5 || pc ≥ 2 ^ 56 then ill 5 s
  else match s.cx.line with
    | some (a, l) => if a = va then (match lineReason l (pc % 32) with | some r => ill r s | none => .ok s) else .error .stall
    | none =>
      match orderWait 15 false [(va, 64)] s with
      | .error e => .error e
      | .ok () =>
      match s.access (s.who .fetch .x) va 64 with
      | .error (.trap t) => .error (.trap { t with saddr := if t.cause == .prot then va else t.saddr })
      | .error e => .error e
      | .ok (s1, p) =>
        if s1.placePoisoned s.cx.as p 64 then .error (.trapIn (poisonTrap s1 (s1.who .fetch .x) p 64 va) s1)
        else
          let l := BitVec.ofNat 512 (s1.placeRead s.cx.as p 64)
          match lineReason l (pc % 32) with
          | some r => ill r s1
          | none => .ok (s1.modCx (fun k => { k with line := some (va, l) }))

/-! ### The checks of R80 before an instruction's own entry -/

/-- Instructions marked S (R81, R182). -/
def isS : Instr → Bool
  | .sret _ | .xinv _ | .preempt _ | .ctxstream _ => true
  | _ => false

/-- Instructions that may wait or park, ILLINS with reason 8 in the A context (R156, R183) (log 46, DEDUCED). -/
def isWaiting : Instr → Bool
  | .join o => o.f.toNat % 2 == 0
  | .exit _ | .yield | .migrate _ | .bar _ | .wait _ | .sysc _ | .opreq _ | .mopak _ | .msta _ | .mlda _ => true
  | _ => false

/-- Reason 9: HEND outside a handler, SRET with D[0] = 1 in the U context (R183). A promoted handler may execute HEND (R196) (log 19, DEDUCED). -/
def misused (s : State) : Instr → Bool
  | .hend => match s.curCtx with
    | .a => (match s.me.aWork with | .handler _ => false | _ => true)
    | .u => !((s.myStrand.map (·.promoted)).getD false)
  | .sret o => s.curCtx == .u && o.d.toNat % 2 == 1
  | _ => false

/-- ILLINS with a reason (R324). -/
def illins (i : Instr) (reason : Nat) : Trap := { cause := .illins, sinfo := (headOf i).toNat + reason * 2 ^ 16 }

/-- SINFO of PRIV (R324): the head, the CSR number for major 0F, and the level at the trap. -/
def privTrap (s : State) (i : Instr) (csr : Nat) : Trap :=
  { cause := .priv, sinfo := (headOf i).toNat + csr * 2 ^ 16 + b2n s.cx.priv * 2 ^ 28 }

/-- A register that the instruction reads or writes waits for its token (R119). -/
def tokenWait (s : State) (i : Instr) : Bool :=
  s.cx.pend != 0 && (xUses i).any (fun r => r != 0 && s.cx.pend.getLsbD r.toNat)

/-- The trap or wait that stands before the instruction's own entry, in the order of R80 (log 19, DEDUCED). -/
def guard (i : Instr) (s : State) : Option Stop :=
  match illForm i with
  | some e => some (.trap (illins i e.code))
  | none =>
    if isWaiting i && s.curCtx == .a then some (.trap (illins i 8))
    else if misused s i then some (.trap (illins i 9))
    else if isS i && !s.cx.priv then some (.trap (privTrap s i 0))
    else if !capHolds (s.cls s.cur) (neededMask i) then some (.trap { cause := .migclass, sinfo := neededMask i })
    else if tokenWait s i then some .stall
    else none

/-- A strand that waits on a host page request parks when a slot is free (R318, R408), and a handler is promoted into a strand that
does; a crew member, a gang leader and service code wait where they are (log 46, DEDUCED). -/
def parkHost (req : Nat) (s : State) : State :=
  let k := s.me
  let crew := (s.myStrand.bind (·.crew)).isSome
  let stay := if s.cx.waiting = .no then s.modCx (fun x => { x with waiting := .host req }) else s
  match s.curCtx with
  | .u =>
    if k.uWork == .strand && k.gang == .none && !crew && !s.dyingAt s.cur && s.freeSlot s.cur && s.persisted s.cur .u && k.aQuiet then
      let s1 := s.interruptLong s.cur
      match s1.park s.cur (s1.imagePark s.cur) (.waitHost req) with
      | .ok s2 => if s2.blocked then stay.askedBy s2 else s2.leaveU s.cur
      | .error _ => stay
    else stay
  | .a =>
    match k.aWork with
    | .handler _ =>
      if k.mq.all (fun q => q.ctx == .u) && s.freeSlot s.cur && s.persisted s.cur .a then
        let (s1, sid) := s.promoteStrand s.cur
        match s1.park s.cur (s1.imageA s.cur sid) (.waitHost req) with
        | .ok s2 => if s2.blocked then stay.askedBy s2 else s2.endHandler s.cur sid
        | .error _ => stay
      else stay
    | _ => stay

/-- The outcome of a stop (log 18, DESIGN CHOICE). A trap that waits leaves the state as it was, since the instruction is met again. -/
def finish (s : State) : Stop → Host.Outcome State Fault Refusal
  | .trap t => .next (takeTrap t s)
  | .trapIn t s1 => .next (if s1.trapWaits t then s.readied t else takeTrap t s1)
  | .stall => .next s
  | .stallIn s1 => .next s1
  | .parkHost req s1 => .next (parkHost req s1)
  | .fault f => .fault f

/-- An instruction: the checks of R80, then its own effect. -/
def run (i : Instr) (s : State) (body : State → Except Stop State) : Host.Outcome State Fault Refusal :=
  match guard i s with
  | some e => finish s e
  | none =>
    match body s with
    | .ok s1 => .next s1
    | .error e => finish s e

/-! ### Tokens (R119) -/

def popCount32 (b : BitVec 32) : Nat := popBelow b.toNat 32

/-- x[D] becomes pending at issue (R119). -/
def State.setPending (s : State) (d : BitVec 5) : State := s.modCx (fun k => { k with pend := k.pend ||| (1#32 <<< d.toNat) })

/-- TOKBAD for D = 0 or 2, and the limit of 16 pending tokens (R119, R195, R201, R324). -/
def tokenCheck (s : State) (d : BitVec 5) : Option Stop :=
  if d = 0 then some (.trap { cause := .tokbad, sinfo := 1 * 32 })
  else if d = 2 then some (.trap { cause := .tokbad, sinfo := d.toNat + 2 * 32 })
  else if popCount32 s.cx.pend ≥ 16 then some .stall
  else none

/-- A context with a token completed (R119). -/
def Ctx.complete (k : Ctx) (r : Nat) (v : Word) : Ctx :=
  { (k.setX (BitVec.ofNat 5 r) v) with pend := k.pend &&& ~~~(1#32 <<< r) }

/-- The core whose U context runs a strand. -/
def State.residentAt (s : State) (asid sid : Nat) : Option Nat :=
  (s.cores.find? (fun p => p.2.uWork == .strand && p.2.u.as == asid && p.2.u.sid == sid)).map (·.1)

/-- A token is delivered (R121, R336): to the scoreboard of the context that holds the strand, into the image in an arrival queue
or in flight, into a spilled or held image, or kept by the device until the strand is next loaded. -/
def State.deliver (s : State) (core asid sid : Nat) (ctx : CtxName) (reg : Nat) (v : Word) (err : Bool) : State :=
  let setErr (k : Ctx) : Ctx := { k.complete reg v with tokErr := if err then k.tokErr ||| (1#32 <<< reg) else k.tokErr }
  match ctx with
  | .a => if (s.core core).a.pend.getLsbD reg then s.modCore core (fun k => { k with a := k.a.complete reg v }) else s
  | .u =>
    match s.cores.find? (fun p => (p.2.uWork == .strand || p.2.uWork == .heldInRegs) && p.2.u.as == asid && p.2.u.sid == sid) with
    | some (c, _) => s.modCore c (fun k => { k with u := k.u.complete reg v })
    | none =>
      match s.cores.find? (fun p => p.2.arrival.any (fun q => q.img.ctx.as == asid && q.img.ctx.sid == sid)) with
      | some (c, _) => s.modCore c (fun k => { k with arrival := k.arrival.map (fun q =>
          if q.img.ctx.as = asid ∧ q.img.ctx.sid = sid then { q with img := { q.img with ctx := setErr q.img.ctx } } else q) })
      | none =>
        if s.cores.any (fun p => p.2.keptA.any (fun g => g.ctx.as == asid && g.ctx.sid == sid)) then
          s.mapCores (fun k => { k with keptA := k.keptA.map (fun g =>
            if g.ctx.as = asid ∧ g.ctx.sid = sid then { g with ctx := setErr g.ctx } else g) })
        else if s.moves.any (fun m => m.img.ctx.as == asid && m.img.ctx.sid == sid) then
          { s with moves := s.moves.map (fun m => if m.img.ctx.as = asid ∧ m.img.ctx.sid = sid
            then { m with img := { m.img with ctx := setErr m.img.ctx } } else m) }
        else
          match s.strand asid sid with
          | none => s
          | some t =>
            let kept := { s with kept := s.kept ++ [{ asid, sid, reg, val := v, err }] }
            match t.spill with
            | none => kept
            | some (a, _) =>
              match (do
                let (s1, p) ← s.devRead asid (a + 0x1C8) 8
                let s2 ← s1.devWrite asid (a + 0x40 + 8 * (reg - 1)) 8 v.toNat
                s2.devWrite asid (a + 0x1C8) 8 ((if bitOf p reg then p - 2 ^ reg else p) |||
                  (if err then 2 ^ (32 + reg) else 0))) with
              | some s3 => if s3.blocked then kept else s3
              | none => kept

end Sys2Proof.Machine
end

