-- ==== Sys2Proof/Machine/Flags.lean ====
section
/-! DEFINITION. Flags and rounding modes: FFLAGS (R21, R58), FRM and VRM (R25, R41, R100), and the FMTBAD report (R324). -/

namespace Sys2Proof.Machine

/-- Flags are ORed into the FFLAGS of the executing context (R58, R100). -/
def State.orFlags (s : State) (f : BitVec 5) : State := s.modCx (fun k => { k with fflags := k.fflags ||| f })

/-- A result of a scalar floating operation (R100): extended as its format says, with its flags ORed. -/
def State.retF (s : State) (d : BitVec 5) (fc : Nat) (r : Flagged Nat) : State :=
  (s.orFlags r.2).retX d (BitVec.ofNat 64 (extendCode fc r.1))

/-- The scalar formats of F[1:0] (R101): binary32, binary64, T32, T16. -/
def scalarFc (f : Nat) : Nat := match f % 4 with
  | 0 => 1
  | 1 => 4
  | 2 => 5
  | _ => 6

/-- A rounding into a format takes a mode for IEEE and binary8 formats only (R41). -/
def takesMode (fc : Nat) : Bool := isIeee fc || isB8 fc

/-- ILLINS with reason 7 when a rounding takes a mode of 5 to 7 (R41, R80). -/
def checkMode (i : Instr) (takes : Bool) (rm : Nat) : Except Stop Unit :=
  if takes && rm ≥ 5 then .error (.trap (illins i 7)) else .ok ()

/-- FRM of the executing context. -/
def State.frm (s : State) : Nat := s.cx.frm.toNat

/-- The VRM that an issued vector instruction captures: VRM 0 becomes FRM + 1, FRM 5 is captured as 6, 6 and 7 as 7 (R132). -/
def resolvedVrm (vrm frm : Nat) : Nat := if vrm = 0 then min 7 (frm + 1) else vrm

/-- The mode of a captured VRM (R25): 1 to 5 are the modes 0 to 4. -/
def vrmMode (vrm : Nat) : Nat := vrm - 1

/-- VTYPE as a vector entry captures it (R132). -/
def capturedVtype (t : BitVec 16) (frm : Nat) : BitVec 16 :=
  BitVec.ofNat 16 (setBits t.toNat 11 3 (resolvedVrm (vtVrm t) frm))

/-- FMTBAD (R324): the head, the offending format code, and its source (1 VTYPE, 2 pointer, 3 instruction field, 4 scale pointer). -/
def fmtbad (i : Instr) (code source : Nat) : Trap :=
  { cause := .fmtbad, sinfo := (headOf i).toNat + code % 32 * 2 ^ 16 + source * 2 ^ 21 }

/-- The width that a format code has as a register element format (R37), 0 for none. -/
def registerWidth (fc : Nat) : Nat := if (1 ≤ fc && fc ≤ 3) || (5 ≤ fc && fc ≤ 28) then fmtWidth fc else 0

/-- The checks of R25 on a VTYPE value. -/
def vtypeOk (t : BitVec 16) : Bool :=
  vtEw t < 5 && (vtEf t == 0 || (registerWidth (vtEf t) != 0 && registerWidth (vtEf t) == ewBits (vtEw t)))

end Sys2Proof.Machine
end

