-- ==== Sys2Proof/Machine/Operands.lean ====
section
/-! DEFINITION. Operand forms: immediates (R73, R91), effective addresses (R82, R105, R106), fat pointers (R92), vector lengths and
masks (R75, R76, R130), and the checks that an instruction of the A context meets when it names vector state (R17, R224). -/

namespace Sys2Proof.Machine

/-! ### Immediates -/

def imm16 (v : BitVec 16) : Word := v.signExtend 64
def imm27 (v : BitVec 27) : Word := v.signExtend 64
def imm59 (v : BitVec 59) : Word := v.signExtend 64

/-! ### Addresses -/

/-- The exact effective address of an M-layout access (R82). -/
def State.eaM (s : State) (a : BitVec 5) (imm : BitVec 20) : Int := (s.addr a : Int) + imm.toInt

/-- The exact effective address of a vector or matrix access with imm14 (R147, R169). -/
def State.eaX (s : State) (a : BitVec 5) (imm : BitVec 14) : Int := (s.addr a : Int) + imm.toInt

/-- An exact address wrapped to 64 bits, as SADDR reports it (R324). -/
def wrapAddr (ea : Int) : Nat := wrapN 64 ea

/-- log2 of an access size of 1, 2, 4, 8, … bytes. -/
def sizeLog (n : Nat) : Nat := log2Fuel 8 n

/-- ALIGN on the exact address (R106, R324). -/
def checkAlign (kind : AKind) (ea : Int) (size : Nat) : Except Stop Unit :=
  if ea % size = 0 then .ok ()
  else .error (.trap { cause := .align, saddr := wrapAddr ea, sinfo := kind.code * 16 + sizeLog size })

/-- ADDROVF of an exact address (R106): the address itself when it lies in 0 to 2^56 - 1. -/
def checkRange (kind : AKind) (ea : Int) : Except Stop Nat :=
  if 0 ≤ ea ∧ ea < 2 ^ 56 then .ok ea.toNat
  else .error (.trap { cause := .addrovf, saddr := wrapAddr ea, sinfo := kind.code * 16 })

/-- The checks of R106 on the exact address of an aligned access. -/
def checkAddr (kind : AKind) (ea : Int) (size : Nat) : Except Stop Nat :=
  match checkAlign kind ea size with
  | .error e => .error e
  | .ok () => checkRange kind ea

/-- The end of an address computation of R92: the address in range beside the top byte of p, or ADDROVF with nothing reported. -/
def fatPointer (p : Word) (n : Int) : Except Stop Word :=
  if 0 ≤ n ∧ n < 2 ^ 56 then .ok ((p &&& 0xFF00000000000000) ||| BitVec.ofNat 64 n.toNat)
  else .error (.trap { cause := .addrovf })

/-! ### Vector state as the issuing context meets it -/

/-- The U context holds a strand's registers. -/
def Core.uHolds (k : Core) : Bool := k.uWork == .strand || k.uWork == .heldInRegs

/-- R224: in the A context, vector and matrix work needs a U strand, and naming v or m needs its VTYPE.EW to be nonzero. -/
def vectorAllowed (i : Instr) (names : Bool) (s : State) : Except Stop Unit :=
  let k := s.me
  if s.curCtx == .a && (!k.uHolds || (names && vtEw k.u.vtype == 0)) then .error (.trap (illins i 10)) else .ok ()

/-- FMTBAD when the issuing context's VTYPE.EW is 0 (R99, R130, R154) (log 19, DEDUCED). -/
def ewLive (i : Instr) (s : State) : Except Stop Unit :=
  if vtEw s.vtype = 0 then .error (.trap (fmtbad i (vtEf s.vtype) 1)) else .ok ()

/-- Where a long instruction begins (R161, R165, R169): NEXT when MSTART names it, else 0. -/
def startIndex (m : Word) (kind acc : Nat) : Nat :=
  if mstartPend m && mstartKind m == kind && mstartAcc m == acc then mstartNext m else 0

/-- Change the U context of the current core, whose MSTART, SLIPCFG and MCGROUP both contexts use (R17). -/
def State.modU (s : State) (f : Ctx → Ctx) : State := s.modCore s.cur (fun k => { k with u := f k.u })

end Sys2Proof.Machine
end

