-- ==== Sys2Proof/Machine/Csr.lean ====
section
/-! DEFINITION. The CSR map (R20 to R25, R164, R204, R221, R222) and meanings of CSRR, CSRW, CSRS, CSRC and CSRX (R94, R95). -/

namespace Sys2Proof.Machine

/-- A CSR of the S map (R22). -/
def isSCsr (n : Nat) : Bool := 0x100 ≤ n && n < 0x300

/-- Read-only at a level (R21, R22). -/
def csrRo (n : Nat) (priv : Bool) : Bool :=
  match n with
  | 0x000 | 0x001 | 0x002 | 0x004 | 0x006 | 0x00A | 0x00B | 0x00F => true
  | 0x003 | 0x00E | 0x010 => !priv
  | _ => false

/-- The value of a CSR as the executing context reads it (R17, R21, R22). -/
def State.csr (s : State) (n : Nat) : Word :=
  let k := s.me
  let x := s.cx
  match n with
  | 0x000 => x.strandId.setWidth 64
  | 0x001 => BitVec.ofNat 64 s.cur
  | 0x002 => BitVec.ofNat 64 (capOf (s.cls s.cur))
  | 0x003 => k.cycle
  | 0x004 => s.time
  | 0x005 => x.vtype.setWidth 64
  | 0x006 => BitVec.ofNat 64 (s.vlmaxb s.cur)
  | 0x007 => k.u.slipcfg.setWidth 64
  | 0x008 => k.u.mstart
  | 0x009 => k.u.mcgroup.setWidth 64
  | 0x00A => x.asid.setWidth 64
  | 0x00B => boolW s.phase
  | 0x00C => x.fflags.setWidth 64
  | 0x00D => x.frm.setWidth 64
  | 0x00E => k.lskew.setWidth 64
  | 0x00F => BitVec.ofNat 64 (s.tile (tileOf s.cur)).point
  | 0x010 => x.inldepth.setWidth 64
  | 0x100 => k.scause
  | 0x101 => k.sepc
  | 0x102 => k.saddr
  | 0x103 => k.sinfo
  | 0x104 => k.svec
  | 0x105 => k.sstatus
  | 0x106 => k.sscratch
  | 0x107 => k.sqimg
  | 0x120 => k.mboxcfg
  | 0x121 => BitVec.ofNat 64 (k.rfull.toNat * 2 ^ 48 + k.rabs.toNat * 2 ^ 32 + k.accepted.toNat * 2 ^ 16 + k.occupied % 64)
  | 0x122 => k.fwdcfg
  | _ =>
    if 0x110 ≤ n ∧ n < 0x118 then k.protb[n % 8]'(Nat.mod_lt _ (by decide))
    else if 0x118 ≤ n ∧ n < 0x120 then k.protl[n % 8]'(Nat.mod_lt _ (by decide)) else 0
where boolW (b : Bool) : Word := if b then 1 else 0

/-- MBOXCFG as stored (R221): SLOTS of 0 or above 32 stores 32. -/
def mboxcfgValue (v : Word) : Word :=
  let n := v.toNat % 64
  BitVec.ofNat 64 ((if n = 0 || n > 32 then 32 else n) + bitsOf v.toNat 15 1 * 2 ^ 15)

/-- Zero v and m and their poison (R12, R25). -/
def Core.zeroVectors (k : Core) : Core :=
  { k with v := .replicate 32 0, m := .replicate 12 0, regPoison := k.regPoison.filter (fun p => p.1 == 2) }

/-- A VTYPE write of the executing context that has passed R25: in the U context a change of EW to or from 0 zeroes or discards v
and m (R12, R25); in the A context neither happens (R17). -/
def State.setVtype (s : State) (t : BitVec 16) : State :=
  let t := t &&& 0x3FFF
  let flips := (vtEw s.vtype == 0) != (vtEw t == 0)
  let s1 := s.modCx (fun k => { k with vtype := t })
  if s.curCtx == .u && flips then s1.modCore s.cur Core.zeroVectors else s1

/-- A U-context VTYPE write that changes EW to or from 0 first waits as QSYNC does (R140). -/
def vtypeWaits (t : BitVec 16) (s : State) : Bool :=
  s.curCtx == .u && ((vtEw s.vtype == 0) != (vtEw t == 0)) && !s.me.queue.isEmpty

/-- A VTYPE write with the checks of R25. -/
def writeVtype (i : Instr) (t : BitVec 16) (s : State) : Except Stop State :=
  if !vtypeOk t then .error (.trap (fmtbad i (vtEf t) 1))
  else if vtypeWaits t s then .error .stall else .ok (s.setVtype t)

/-- The write of a CSR that access control has passed; bits marked zero keep zero (R94) (log 57, DEDUCED). -/
def State.writeCsr (s : State) (i : Instr) (n : Nat) (v : Word) : Except Stop State :=
  match n with
  | 0x005 => writeVtype i (v.setWidth 16) s
  | _ => .ok (match n with
    | 0x003 => s.modCore s.cur (fun k => { k with cycle := v })
    | 0x007 => s.modU (fun k => { k with slipcfg := v.setWidth 16 &&& 0x3F3F })
    | 0x008 => s.modU (fun k => { k with mstart := v &&& 0xF8000000FFFFFFFF })
    | 0x009 => s.modU (fun k => { k with mcgroup := v.setWidth 16 })
    | 0x00C => s.modCx (fun k => { k with fflags := v.setWidth 5 })
    | 0x00D => s.modCx (fun k => { k with frm := v.setWidth 3 })
    | 0x00E => s.modCore s.cur (fun k => { k with lskew := v.setWidth 3 })
    | 0x010 => s.modCx (fun k => { k with inldepth := v.setWidth 8 })
    | 0x100 => s.modCore s.cur (fun k => { k with scause := v &&& 0xFF })
    | 0x101 => s.modCore s.cur (fun k => { k with sepc := v })
    | 0x102 => s.modCore s.cur (fun k => { k with saddr := v })
    | 0x103 => s.modCore s.cur (fun k => { k with sinfo := v })
    | 0x104 => s.modCore s.cur (fun k => { k with svec := v &&& 0x00FFFFFFFFFFFFC1 })
    | 0x105 => s.modCore s.cur (fun k => { k with sstatus := (k.sstatus &&& 0x18) ||| (v &&& 7) })
    | 0x106 => s.modCore s.cur (fun k => { k with sscratch := v })
    | 0x107 => s.modCore s.cur (fun k => { k with sqimg := v })
    | 0x120 => s.modCore s.cur (fun k => { k with mboxcfg := mboxcfgValue v })
    | 0x121 => s.modCore s.cur (fun k => { k with rfull := v.extractLsb' 48 16, rabs := v.extractLsb' 32 16,
                                                  accepted := v.extractLsb' 16 16 })
    | 0x122 => s.modCore s.cur (fun k => { k with fwdcfg := v &&& 0x8000FFFF0000FFFF })
    | _ =>
      if 0x110 ≤ n ∧ n < 0x118 then
        s.modCore s.cur (fun k => { k with protb := k.protb.set (n % 8) v (Nat.mod_lt _ (by decide)) })
      else if 0x118 ≤ n ∧ n < 0x120 then
        s.modCore s.cur (fun k => { k with protl := k.protl.set (n % 8) (v &&& 0xF000FFFFFFFFFFFF) (Nat.mod_lt _ (by decide)) })
      else s)

/-- The rights checks of R20; a number below 0x300 that names no CSR is an encoding check. -/
def csrAccess (i : Instr) (n : Nat) (writes : Bool) (s : State) : Except Stop Unit :=
  if n ≥ 0x300 || (isSCsr n && !s.cx.priv) || (writes && csrRo n s.cx.priv) then .error (.trap (privTrap s i n)) else .ok ()

/-- The waits of R95: FFLAGS after every earlier vector instruction of the context, MSTART after every matrix instruction. -/
def csrWaits (n : Nat) (s : State) : Bool :=
  (n == 0x00C && (s.me.queue.any (fun e => e.ctx == s.curCtx) || s.me.mq.any (fun e => e.ctx == s.curCtx)))
    || (n == 0x008 && (!s.me.mq.isEmpty || s.me.long.isSome))

/-- One CSR instruction (R94): what is written, if anything, and what x[D] becomes, if anything. -/
def csrOp (i : Instr) (o : LI16) (write : Option (Word → Word → Word)) (reads : Bool) (s : State) : Except Stop State :=
  let n := o.imm.toNat % 4096
  match csrAccess i n write.isSome s with
  | .error e => .error e
  | .ok () =>
    if csrWaits n s then .error .stall
    else
      let c := s.csr n
      match write with
      | none => .ok (s.retX o.d c)
      | some f =>
        match s.writeCsr i n (f c (s.getX o.d)) with
        | .error e => .error e
        | .ok s1 => .ok (if reads then s1.retX o.d c else s1.advance)

def execCsrr (o : LI16) (s : State) := run (.csrr o) s (csrOp (.csrr o) o none true)
def execCsrw (o : LI16) (s : State) := run (.csrw o) s (csrOp (.csrw o) o (some (fun _ x => x)) false)
def execCsrs (o : LI16) (s : State) := run (.csrs o) s (csrOp (.csrs o) o (some (fun c x => c ||| x)) false)
def execCsrc (o : LI16) (s : State) := run (.csrc o) s (csrOp (.csrc o) o (some (fun c x => c &&& ~~~x)) false)
def execCsrx (o : LI16) (s : State) := run (.csrx o) s (csrOp (.csrx o) o (some (fun _ x => x)) true)

end Sys2Proof.Machine
end

