-- ==== Sys2Proof/Machine/Scalar.lean ====
section
/-! DEFINITION. Meanings of the scalar integer, address and constant instructions (R90 to R93). -/

namespace Sys2Proof.Machine

/-! ### Integer register operations (R90) -/

/-- x[D] := f(x[A], x[B]). -/
def aluH (o : LH) (f : Word → Word → Word) (s : State) : Except Stop State := .ok (s.retX o.d (f (s.getX o.a) (s.getX o.b)))

/-- The amount of a register shift: x[B][5:0]. -/
def shAmt (b : Word) : Nat := b.toNat % 64

def boolWord (b : Bool) : Word := if b then 1 else 0

def wMin (a b : Word) : Word := if a.slt b then a else b
def wMax (a b : Word) : Word := if a.slt b then b else a
def wMinu (a b : Word) : Word := if a.ult b then a else b
def wMaxu (a b : Word) : Word := if a.ult b then b else a

/-- Bits [127:64] of an exact product. -/
def highWord (p : Int) : Word := BitVec.ofInt 64 (p / 2 ^ 64)

/-- Quotient and remainder of R36. -/
def wDiv (a b : Word) : Word := if b = 0 then BitVec.allOnes 64 else a.sdiv b
def wDivu (a b : Word) : Word := if b = 0 then BitVec.allOnes 64 else a / b
def wRem (a b : Word) : Word := if b = 0 then a else a.srem b
def wRemu (a b : Word) : Word := if b = 0 then a else a % b

def wClz (a : Word) : Word := BitVec.ofNat 64 (if a = 0 then 64 else 63 - log2Fuel 64 a.toNat)
def wCtz (a : Word) : Word := BitVec.ofNat 64 (lowestBit a.toNat 64)
def wPopc (a : Word) : Word := BitVec.ofNat 64 (popBelow a.toNat 64)
def wBswap (a : Word) : Word := BitVec.ofNat 64 (ofBytes (toBytes 8 a.toNat).reverse)

/-- The width that F[1:0] of SEXT and ZEXT names. -/
def extWidth (f : BitVec 6) : Nat := 8 * 2 ^ (f.toNat % 4)

/-- A 32-bit operation, its result sign-extended. -/
def narrow (r : Word) : Word := (r.setWidth 32).signExtend 64

def execAdd (o : LH) (s : State) := run (.add o) s (aluH o (· + ·))
def execSub (o : LH) (s : State) := run (.sub o) s (aluH o (· - ·))
def execAnd (o : LH) (s : State) := run (.and o) s (aluH o (· &&& ·))
def execOr (o : LH) (s : State) := run (.or o) s (aluH o (· ||| ·))
def execXor (o : LH) (s : State) := run (.xor o) s (aluH o (· ^^^ ·))
def execAndn (o : LH) (s : State) := run (.andn o) s (aluH o (fun a b => a &&& ~~~b))
def execOrn (o : LH) (s : State) := run (.orn o) s (aluH o (fun a b => a ||| ~~~b))
def execXnor (o : LH) (s : State) := run (.xnor o) s (aluH o (fun a b => ~~~(a ^^^ b)))
def execSll (o : LH) (s : State) := run (.sll o) s (aluH o (fun a b => a <<< shAmt b))
def execSrl (o : LH) (s : State) := run (.srl o) s (aluH o (fun a b => a >>> shAmt b))
def execSra (o : LH) (s : State) := run (.sra o) s (aluH o (fun a b => a.sshiftRight (shAmt b)))
def execRol (o : LH) (s : State) := run (.rol o) s (aluH o (fun a b => a.rotateLeft (shAmt b)))
def execRor (o : LH) (s : State) := run (.ror o) s (aluH o (fun a b => a.rotateRight (shAmt b)))
def execSlt (o : LH) (s : State) := run (.slt o) s (aluH o (fun a b => boolWord (a.slt b)))
def execSltu (o : LH) (s : State) := run (.sltu o) s (aluH o (fun a b => boolWord (a.ult b)))
def execSeq (o : LH) (s : State) := run (.seq o) s (aluH o (fun a b => boolWord (a == b)))
def execMin (o : LH) (s : State) := run (.min o) s (aluH o wMin)
def execMax (o : LH) (s : State) := run (.max o) s (aluH o wMax)
def execMinu (o : LH) (s : State) := run (.minu o) s (aluH o wMinu)
def execMaxu (o : LH) (s : State) := run (.maxu o) s (aluH o wMaxu)
def execMul (o : LH) (s : State) := run (.mul o) s (aluH o (· * ·))
def execMulh (o : LH) (s : State) := run (.mulh o) s (aluH o (fun a b => highWord (a.toInt * b.toInt)))
def execMulhu (o : LH) (s : State) := run (.mulhu o) s (aluH o (fun a b => highWord ((a.toNat : Int) * b.toNat)))
def execMulhsu (o : LH) (s : State) := run (.mulhsu o) s (aluH o (fun a b => highWord (a.toInt * b.toNat)))
def execDiv (o : LH) (s : State) := run (.div o) s (aluH o wDiv)
def execDivu (o : LH) (s : State) := run (.divu o) s (aluH o wDivu)
def execRem (o : LH) (s : State) := run (.rem o) s (aluH o wRem)
def execRemu (o : LH) (s : State) := run (.remu o) s (aluH o wRemu)
def execClz (o : LH) (s : State) := run (.clz o) s (aluH o (fun a _ => wClz a))
def execCtz (o : LH) (s : State) := run (.ctz o) s (aluH o (fun a _ => wCtz a))
def execPopc (o : LH) (s : State) := run (.popc o) s (aluH o (fun a _ => wPopc a))
def execBswap (o : LH) (s : State) := run (.bswap o) s (aluH o (fun a _ => wBswap a))
def execSext (o : LH) (s : State) := run (.sext o) s (aluH o (fun a _ => BitVec.ofInt 64 (sInt (extWidth o.f) a.toNat)))
def execZext (o : LH) (s : State) := run (.zext o) s (aluH o (fun a _ => BitVec.ofNat 64 (a.toNat % 2 ^ extWidth o.f)))
def execAddw (o : LH) (s : State) := run (.addw o) s (aluH o (fun a b => narrow (a + b)))
def execSubw (o : LH) (s : State) := run (.subw o) s (aluH o (fun a b => narrow (a - b)))
def execMulw (o : LH) (s : State) := run (.mulw o) s (aluH o (fun a b => narrow (a * b)))
def execCmovz (o : LH) (s : State) :=
  run (.cmovz o) s (fun s => .ok (s.retX o.d (if s.getX o.b = 0 then s.getX o.a else s.getX o.d)))
def execCmovnz (o : LH) (s : State) :=
  run (.cmovnz o) s (fun s => .ok (s.retX o.d (if s.getX o.b = 0 then s.getX o.d else s.getX o.a)))

/-! ### Immediate operations (R91): the three forms of each -/

/-- I16: the single register is source and destination. -/
def immForm16 (o : LI16) (f : Word → Word → Word) (s : State) : Except Stop State :=
  .ok (s.retX o.d (f (s.getX o.d) (imm16 o.imm)))
def immForm27 (o : LWI) (f : Word → Word → Word) (s : State) : Except Stop State :=
  .ok (s.retX o.d (f (s.getX o.a) (imm27 o.imm)))
def immForm59 (o : LXI) (f : Word → Word → Word) (s : State) : Except Stop State :=
  .ok (s.retX o.d (f (s.getX o.a) (imm59 o.imm)))

/-- SHI: kind in imm[7:6], amount in imm[5:0]. -/
def shiOp (a imm : Word) : Word :=
  let n := imm.toNat % 64
  match bitsOf imm.toNat 6 2 with
  | 0 => a <<< n
  | 1 => a >>> n
  | 2 => a.sshiftRight n
  | _ => a.rotateRight n

def execAddiI16 (o : LI16) (s : State) := run (.addiI16 o) s (immForm16 o (· + ·))
def execAddiWi (o : LWI) (s : State) := run (.addiWi o) s (immForm27 o (· + ·))
def execAddiXi (o : LXI) (s : State) := run (.addiXi o) s (immForm59 o (· + ·))
def execAndiI16 (o : LI16) (s : State) := run (.andiI16 o) s (immForm16 o (· &&& ·))
def execAndiWi (o : LWI) (s : State) := run (.andiWi o) s (immForm27 o (· &&& ·))
def execAndiXi (o : LXI) (s : State) := run (.andiXi o) s (immForm59 o (· &&& ·))
def execOriI16 (o : LI16) (s : State) := run (.oriI16 o) s (immForm16 o (· ||| ·))
def execOriWi (o : LWI) (s : State) := run (.oriWi o) s (immForm27 o (· ||| ·))
def execOriXi (o : LXI) (s : State) := run (.oriXi o) s (immForm59 o (· ||| ·))
def execXoriI16 (o : LI16) (s : State) := run (.xoriI16 o) s (immForm16 o (· ^^^ ·))
def execXoriWi (o : LWI) (s : State) := run (.xoriWi o) s (immForm27 o (· ^^^ ·))
def execXoriXi (o : LXI) (s : State) := run (.xoriXi o) s (immForm59 o (· ^^^ ·))
def execSltiI16 (o : LI16) (s : State) := run (.sltiI16 o) s (immForm16 o (fun a b => boolWord (a.slt b)))
def execSltiWi (o : LWI) (s : State) := run (.sltiWi o) s (immForm27 o (fun a b => boolWord (a.slt b)))
def execSltiXi (o : LXI) (s : State) := run (.sltiXi o) s (immForm59 o (fun a b => boolWord (a.slt b)))
def execSltiuI16 (o : LI16) (s : State) := run (.sltiuI16 o) s (immForm16 o (fun a b => boolWord (a.ult b)))
def execSltiuWi (o : LWI) (s : State) := run (.sltiuWi o) s (immForm27 o (fun a b => boolWord (a.ult b)))
def execSltiuXi (o : LXI) (s : State) := run (.sltiuXi o) s (immForm59 o (fun a b => boolWord (a.ult b)))
def execShiI16 (o : LI16) (s : State) := run (.shiI16 o) s (immForm16 o shiOp)
def execShiWi (o : LWI) (s : State) := run (.shiWi o) s (immForm27 o shiOp)
def execShiXi (o : LXI) (s : State) := run (.shiXi o) s (immForm59 o shiOp)
def execMuliI16 (o : LI16) (s : State) := run (.muliI16 o) s (immForm16 o (· * ·))
def execMuliWi (o : LWI) (s : State) := run (.muliWi o) s (immForm27 o (· * ·))
def execMuliXi (o : LXI) (s : State) := run (.muliXi o) s (immForm59 o (· * ·))

/-! ### Address arithmetic (R92) -/

/-- zext(p[55:0], 56). -/
def addrOf (p : Word) : Nat := p.toNat % 2 ^ 56

/-- x[D] := the pointer p moved to address n, or ADDROVF. -/
def retPointer (s : State) (d : BitVec 5) (p : Word) (n : Int) : Except Stop State :=
  match fatPointer p n with
  | .ok v => .ok (s.retX d v)
  | .error e => .error e

def execAdda (o : LH) (s : State) :=
  run (.adda o) s (fun s => retPointer s o.d (s.getX o.a) (addrOf (s.getX o.a) + (s.getX o.b).toInt))
def execAddiaWi (o : LWI) (s : State) :=
  run (.addiaWi o) s (fun s => retPointer s o.d (s.getX o.a) (addrOf (s.getX o.a) + o.imm.toInt))
def execAddiaXi (o : LXI) (s : State) :=
  run (.addiaXi o) s (fun s => retPointer s o.d (s.getX o.a) (addrOf (s.getX o.a) + o.imm.toInt))
def execScalea (o : LH) (s : State) :=
  run (.scalea o) s (fun s => retPointer s o.d (s.getX o.a) (addrOf (s.getX o.a) + (s.getX o.b).toInt * 2 ^ (o.f.toNat % 8)))

/-- PFMT: FMTBAD when imm16[7:3] is 31. -/
def execPfmt (o : LI16) (s : State) :=
  run (.pfmt o) s (fun s =>
    if bitsOf o.imm.toNat 3 5 = 31 then .error (.trap (fmtbad (.pfmt o) 31 3))
    else .ok (s.retX o.d (BitVec.ofNat 64 (o.imm.toNat % 256 * 2 ^ 56 + addrOf (s.getX o.d)))))
def execGfmt (o : LH) (s : State) := run (.gfmt o) s (fun s => .ok (s.retX o.d ((s.getX o.a) >>> 56)))
def execClrfmt (o : LH) (s : State) := run (.clrfmt o) s (fun s => .ok (s.retX o.d (BitVec.ofNat 64 (addrOf (s.getX o.a)))))
def execSuba (o : LH) (s : State) :=
  run (.suba o) s (fun s => .ok (s.retX o.d (BitVec.ofNat 64 (addrOf (s.getX o.a)) - BitVec.ofNat 64 (addrOf (s.getX o.b)))))

/-! ### Constants and moves (R93) -/

def execLiI16 (o : LI16) (s : State) := run (.liI16 o) s (fun s => .ok (s.retX o.d (o.imm.signExtend 64)))
def execLiI32 (o : LI32) (s : State) := run (.liI32 o) s (fun s => .ok (s.retX o.d (o.imm.signExtend 64)))
def execLiL64 (o : L64) (s : State) := run (.liL64 o) s (fun s => .ok (s.retX o.d o.imm))
def execLpc (o : LWI) (s : State) :=
  run (.lpc o) s (fun s => .ok (s.retX o.d (targetLine s.cx.pcNat o.imm.toInt o.a.toNat)))
def execMov (o : LH) (s : State) := run (.mov o) s (fun s => .ok (s.retX o.d (s.getX o.a)))

end Sys2Proof.Machine
end

