-- ==== Sys2Proof/Machine/Control.lean ====
section
/-! DEFINITION. Meanings of NOP, BRK, jumps and branches (R97 to R99). -/

namespace Sys2Proof.Machine

def execNop (s : State) := run .nop s (fun s => .ok s.advance)

/-- BRK raises BRK with imm16 (R97). -/
def execBrk (o : LI16) (s : State) := run (.brk o) s (fun _ => .error (.trap { cause := .brk, sinfo := o.imm.toNat }))

/-- x[D] := next_pc, then the transfer to t (R98). -/
def linkTo (d : BitVec 5) (t : Word) (s : State) : Except Stop State :=
  .ok (s.modCx (fun k => (k.setX d k.nextPc).jump t))

def execJ (o : LWI) (s : State) :=
  run (.j o) s (fun s => .ok (s.jump (targetLine s.cx.pcNat o.imm.toInt o.a.toNat)))
def execJal (o : LWI) (s : State) :=
  run (.jal o) s (fun s => linkTo o.d (targetLine s.cx.pcNat o.imm.toInt o.a.toNat) s)
def execJalr (o : LH) (s : State) := run (.jalr o) s (fun s => linkTo o.d (s.getX o.a) s)

/-- A branch (R99): target_B when taken, else next_pc. -/
def branch (o : LB) (taken : Bool) (s : State) : Except Stop State :=
  .ok (if taken then s.jump (targetLine s.cx.pcNat o.imm.toInt o.t.toNat) else s.advance)

def execBeq (o : LB) (s : State) := run (.beq o) s (fun s => branch o (s.getX o.d == s.getX o.b) s)
def execBne (o : LB) (s : State) := run (.bne o) s (fun s => branch o (s.getX o.d != s.getX o.b) s)
def execBlt (o : LB) (s : State) := run (.blt o) s (fun s => branch o ((s.getX o.d).slt (s.getX o.b)) s)
def execBge (o : LB) (s : State) := run (.bge o) s (fun s => branch o (!(s.getX o.d).slt (s.getX o.b)) s)
def execBltu (o : LB) (s : State) := run (.bltu o) s (fun s => branch o ((s.getX o.d).ult (s.getX o.b)) s)
def execBgeu (o : LB) (s : State) := run (.bgeu o) s (fun s => branch o (!(s.getX o.d).ult (s.getX o.b)) s)

/-- Mask register d is written by a queued entry. -/
def Core.maskQueued (k : Core) (d : Nat) : Bool := k.queue.any (fun e => writesMask e.instr d)
where writesMask (i : Instr) (d : Nat) : Bool :=
  match i with
  | .vcmp o | .vfcmp o => o.d.toNat == d
  | .vfclass o | .mld o => o.d.toNat == d
  | .mand o | .mor o | .mxor o | .mandn o | .mnot o | .msbf o => o.d.toNat == d
  | _ => false

/-- Some bit below n of mask register d is set. -/
def anyBit (k : Core) (d n : Nat) : Bool := (upTo n).any (fun i => k.mBit d i)

/-- BMS and BMC (R99): the branch waits for a mask that a queued entry writes, and a poisoned bit of it raises QFAULT (R381). -/
def maskBranch (i : Instr) (o : LB) (sense : Bool) (s : State) : Except Stop State := do
  vectorAllowed i true s
  ewLive i s
  if s.me.maskQueued o.d.toNat then .error .stall
  if let some j := s.me.maskPoison o.d (s.vlOf o.b) then .error (poisonQfault j)
  branch o (anyBit s.me o.d.toNat (s.vlOf o.b) == sense) s

def execBms (o : LB) (s : State) := run (.bms o) s (maskBranch (.bms o) o true)
def execBmc (o : LB) (s : State) := run (.bmc o) s (maskBranch (.bmc o) o false)

end Sys2Proof.Machine
end

