-- ==== Sys2Proof/Machine/Devices.lean ====
section
/-! DEFINITION. Device words that service code reaches by virtual address: the movement and heap doorbells (R320, R340), the HEALTH
copy (R379), the node number and node table of the fabric record (R358, R397), and the group table (R360). -/

namespace Sys2Proof.Machine

/-- HEALTH (R379). -/
def State.health (s : State) : Nat :=
  let g := s.mgmt
  b2n s.flash.replace * 2 ^ 63 + b2n g.resetReq * 2 ^ 62
    + (b2n (s.port 0).cxlDown + b2n (s.port 1).cxlDown * 2 + b2n (s.port 2).cxlDown * 4 + b2n (s.port 3).cxlDown * 8) * 2 ^ 58
    + s.flash.spares % 4 * 2 ^ 56 + g.pcFail.length % 256 * 2 ^ 48 + g.retCore % 2 ^ 16 * 2 ^ 32 + g.retLane % 2 ^ 16 * 2 ^ 16
    + min 255 g.opLim * 2 ^ 8 + s.flash.linkDeg.length % 256

/-- The word of the group table at an address: the handle and the rank that it stands for (R360; log 26, DESIGN CHOICE). -/
def State.groupWord (s : State) (va : Nat) : Option (Nat × Nat) :=
  let off := va - s.cfg.groupTableVa
  if s.cfg.groupTableVa ≤ va ∧ off < 4096 * 2 ^ 14 ∧ va % 8 = 0 then some (off / 4096, off % 4096 / 8) else none

/-- What a word of the group table reads as: bit 63, and the node of the member of that rank; zero beyond the last member. -/
def State.groupRead (s : State) (h rank : Nat) : Nat :=
  match s.groups.find? (fun g => g.handle == h) with
  | none => 0
  | some g => match g.nodes[rank]? with | some n => 2 ^ 63 + n % 8192 | none => 0

/-- A word of the group table is written: with bit 63 it names the member of that rank, at most the next after the last; without it the entry
ends below that rank, and is none without a member (R360; log 26, DESIGN CHOICE). -/
def State.groupWrite (s : State) (h rank v : Nat) : State :=
  let nodes := ((s.groups.find? (fun g => g.handle == h)).map (·.nodes)).getD []
  let next := if bitOf v 63 then if rank < nodes.length then nodes.set rank (v % 8192) else if rank = nodes.length then nodes ++ [v % 8192] else nodes
    else nodes.take rank
  { s with groups := s.groups.filter (fun g => g.handle != h) ++ (if next.isEmpty then [] else [{ handle := h, nodes := next }]) }

/-- A doubleword that service code loads from a device word, if the address is one (log 52, DEDUCED). -/
def State.deviceLoad (s : State) (va : Nat) : Option Nat :=
  if !s.cx.priv then none
  else if va = s.cfg.healthVa then some s.health
  else if va = s.cfg.nodeVa then some s.mgmt.node
  else if s.cfg.nodeTableVa ≤ va ∧ va < s.cfg.nodeTableVa + 8 * 8192 ∧ va % 8 = 0 then
    some ((kvGet ((va - s.cfg.nodeTableVa) / 8) s.mgmt.nodeTable).getD 0)
  else (s.groupWord va).map (fun g => s.groupRead g.1 g.2)

/-- STATUS of a control block, written by the device; one that cannot be written is left. -/
def State.blockStatus (s : State) (asid va off v : Nat) : State := (s.devWrite asid (va + off) 8 v).getD s

/-- The page that a movement request names is being moved by home h (R322). -/
def State.pageBusy (s : State) (h asid va : Nat) : Bool :=
  match (s.site h).home.moving, s.devReads asid va 2 with
  | some m, some (_, [w, page]) => m.asid == bitsOf w 16 16 && m.page * pageBytes m.big == page
  | _, _ => false

/-- A movement request posted at the doorbell of home h (R320, R322): STATUS 5 for a page that is being moved, else queued, or STATUS 6
beyond 64. -/
def State.postMove (s : State) (h asid va : Nat) : State :=
  if s.pageBusy h asid va then s.blockStatus asid va 0x20 5
  else if (s.site h).home.moves.length < 64 then s.modHome h (fun t => { t with moves := t.moves ++ [(asid, va)] })
  else s.blockStatus asid va 0x20 6

/-- A heap command posted at any wedger (R340): queued, or STATUS 7 beyond 16. -/
def State.postHeap (s : State) (asid va : Nat) : State :=
  if s.heapCmds.length < 16 then { s with heapCmds := s.heapCmds ++ [(asid, va)] } else s.blockStatus asid va 0x30 7

/-- A doubleword that service code stores to a device word, if the address is one; HEALTH ignores writes (log 52, DEDUCED). -/
def State.deviceStore (s : State) (va v : Nat) : Option State :=
  if !s.cx.priv then none
  else if s.cfg.moveDoor.contains va then some (s.postMove (s.cfg.moveDoor.idxOf va) s.cx.as (v % 2 ^ 56))
  else if s.cfg.heapDoor.contains va then some (s.postHeap s.cx.as (v % 2 ^ 56))
  else if va = s.cfg.healthVa then some s
  else if va = s.cfg.nodeVa then some { s with mgmt := { s.mgmt with node := v % 8192 } }
  else if s.cfg.nodeTableVa ≤ va ∧ va < s.cfg.nodeTableVa + 8 * 8192 ∧ va % 8 = 0 then
    some { s with mgmt := { s.mgmt with nodeTable := kvSet ((va - s.cfg.nodeTableVa) / 8) v s.mgmt.nodeTable } }
  else (s.groupWord va).map (fun g => s.groupWrite g.1 g.2 v)

end Sys2Proof.Machine
end

