-- ==== Sys2Proof/Machine/MemInstr.lean ====
section
/-! DEFINITION. Meanings of the load, store, atomic, fence and write-back instructions (R105 to R118). -/

namespace Sys2Proof.Machine

/-! ### One scalar access (R106 to R108) -/

/-- The read of `size` bytes at an address that has passed ALIGN and ADDROVF. -/
def State.loadAt (s : State) (kind : AKind) (need : Need) (va size : Nat) : Except Stop (State × Place × Nat) := do
  let w := s.who kind need
  let (s1, p) ← s.access w va size
  if s1.placePoisoned w.asid p size then .error (.trapIn (poisonTrap s1 w p size va) s1)
  return (s1, p, s1.placeRead w.asid p size)

/-- A load of the M layout: the value is handed to `ext` before it reaches x[D]. -/
def loadM (o : LM) (size : Nat) (ext : Nat → Word) (s : State) : Except Stop State := do
  orderWait o.oc false [(s.eaM o.a o.imm, size)] s
  let va ← checkAddr .load (s.eaM o.a o.imm) size
  match if size = 8 then s.deviceLoad va else none with
  | some v => return s.retX o.d (ext v)
  | none =>
    let (s1, _, v) ← s.loadAt .load .r va size
    return s1.retX o.d (ext v)

/-- A store of the M layout: x[D][8·size-1:0]. -/
def storeM (o : LM) (size : Nat) (release : Bool) (s : State) : Except Stop State := do
  orderWait o.oc release [(s.eaM o.a o.imm, size)] s
  let va ← checkAddr .store (s.eaM o.a o.imm) size
  match if size = 8 then s.deviceStore va (s.getX o.d).toNat else none with
  | some s1 => (s.whole s1).map (·.advance)
  | none =>
    let (s1, p) ← s.access (s.who .store .w) va size
    return (s1.placeWrite s.cx.as p (toBytes size (s.getX o.d).toNat)).advance

/-- Sign- and zero-extension of the bytes loaded. -/
def sextBytes (size v : Nat) : Word := BitVec.ofInt 64 (sInt (8 * size) v)
def zextBytes (v : Nat) : Word := BitVec.ofNat 64 v

def execLdb (o : LM) (s : State) := run (.ldb o) s (loadM o 1 (sextBytes 1))
def execLdbu (o : LM) (s : State) := run (.ldbu o) s (loadM o 1 zextBytes)
def execLdh (o : LM) (s : State) := run (.ldh o) s (loadM o 2 (sextBytes 2))
def execLdhu (o : LM) (s : State) := run (.ldhu o) s (loadM o 2 zextBytes)
def execLdw (o : LM) (s : State) := run (.ldw o) s (loadM o 4 (sextBytes 4))
def execLdwu (o : LM) (s : State) := run (.ldwu o) s (loadM o 4 zextBytes)
def execLdd (o : LM) (s : State) := run (.ldd o) s (loadM o 8 zextBytes)
def execLdaq (o : LM) (s : State) := run (.ldaq o) s (loadM o 8 zextBytes)
def execLdaqw (o : LM) (s : State) := run (.ldaqw o) s (loadM o 4 zextBytes)
def execStb (o : LM) (s : State) := run (.stb o) s (storeM o 1 false)
def execSth (o : LM) (s : State) := run (.sth o) s (storeM o 2 false)
def execStw (o : LM) (s : State) := run (.stw o) s (storeM o 4 false)
def execStd (o : LM) (s : State) := run (.std o) s (storeM o 8 false)
def execStrl (o : LM) (s : State) := run (.strl o) s (storeM o 8 true)
def execStrlw (o : LM) (s : State) := run (.strlw o) s (storeM o 4 true)

/-- Bytes written to every copy of the replicated page of a place, in home order, at the home slices, the written sectors leaving every L1 (R113,
R123, R241, R242). -/
def State.writeCopies (s : State) (asid : Nat) (p : Place) (bs : List Byte) : State :=
  match s.homeEntry asid (p.page * 2 ^ 16) with
  | .error _ => s
  | .ok (s1, e, _) =>
    (s1.leafFrames e.leaf.toNat).foldl (fun (t : State) f =>
      let k := f + p.key % 2 ^ 16
      { t.performHome k bs.length true with mem := t.mem.writeBytes k bs }) s1

/-- MSTD (R113): every copy of a replicated page, else as STD. -/
def execMstd (o : LM) (s : State) := run (.mstd o) s (fun s => do
  orderWait o.oc false [(s.eaM o.a o.imm, 8)] s
  let va ← checkAddr .store (s.eaM o.a o.imm) 8
  match s.deviceStore va (s.getX o.d).toNat with
  | some s1 => (s.whole s1).map (·.advance)
  | none =>
    let bs := toBytes 8 (s.getX o.d).toNat
    let (s1, p) ← s.access { s.who .store .w with mstd := true } va 8
    if p.typ = 2 then return (s1.writeCopies s.cx.as p bs).advance
    else return (s1.placeWrite s.cx.as p bs).advance)

/-! ### Atomics (R114 to R116) -/

/-- The operation of F[6:3] at width w. -/
def amoOp (op w old b : Nat) : Nat :=
  match op with
  | 0 => b
  | 1 => (old + b) % 2 ^ w
  | 2 => old &&& b
  | 3 => old ||| b
  | 4 => old ^^^ b
  | 5 => if sInt w old ≤ sInt w b then old else b
  | 6 => if sInt w old ≥ sInt w b then old else b
  | 7 => if old ≤ b then old else b
  | _ => if old ≥ b then old else b

/-- An atomic at zext(x[A][55:0]): `f` gives the value written, if any. -/
def atomicW (o : LW) (f : Nat → Nat → Option Nat) (s : State) : Except Stop State := do
  let size := if bitOf o.f.toNat 2 then 8 else 4
  let w := 8 * size
  orderWait o.oc (bitOf o.f.toNat 1) [(s.addr o.a, size)] s
  let va ← checkAddr .atomic (s.addr o.a) size
  let (s1, p, old) ← s.loadAt .atomic .rw va size
  let s2 := match f w old with
    | some v => s1.placeWrite s.cx.as p (toBytes size v)
    | none => s1
  return s2.retX o.d (BitVec.ofInt 64 (sInt w old))

def execAmo (o : LW) (s : State) :=
  run (.amo o) s (atomicW o (fun w old => some (amoOp (bitsOf o.f.toNat 3 4) w old ((s.getX o.b).toNat % 2 ^ w))))

def execCas (o : LW) (s : State) :=
  run (.cas o) s (atomicW o (fun w old =>
    if old = (s.getX o.b).toNat % 2 ^ w then some ((s.getX o.c).toNat % 2 ^ w) else none))

/-! ### Fences, write-back and persistence (R117, R118, R356) -/

/-- FENCE (R117): earlier queued accesses of the classes in the mask perform before any later access of them (log 5, DEDUCED). -/
def execFence (o : LI16) (s : State) := run (.fence o) s (fun s =>
  if s.classQueued (fun c => bitOf o.imm.toNat c) then .error .stall else .ok s.advance)

/-- The address check of CLWB and PFLUSH (R118): as R106 without ALIGN, R or W sufficing; a local address reaches no backing
memory. -/
def flushCheck (o : LM) (s : State) : Except Stop (State × Nat × Option Place) := do
  orderWait o.oc false [(s.eaM o.a o.imm / 256 * 256, 256)] s
  let va ← checkRange .load (s.eaM o.a o.imm)
  let w := s.who .load .either
  if isLocal va then
    let _ ← s.localAccess w va 1
    return (s, va, none)
  else
    let (s1, p) ← s.translate w va
    return (s1, va, some p)

/-- The line of a global place is written back; a host-backed page has no cached line (R240, R317). -/
def State.writeBack (s : State) : Option Place → State
  | some p => if p.typ = 1 then s else s.cleanLine p.key
  | none => s

def execClwb (o : LM) (s : State) := run (.clwb o) s (fun s => do
  let (s1, _, p) ← flushCheck o s
  return (s1.writeBack p).advance)

/-- PFLUSH does as CLWB, and adds the 256-byte line of a persistent page to the pending persists. -/
def execPflush (o : LM) (s : State) := run (.pflush o) s (fun s => do
  let (s1, va, p) ← flushCheck o s
  match p with
  | some q =>
    if q.typ = 5 then
      let line := (va / 256 * 256, q.key / 256 * 256)
      return ((s1.writeBack p).modPersists (fun l => if l.contains line then l else l ++ [line])).advance
    else return (s1.writeBack p).advance
  | none => return s1.advance)

/-- PSYNC (R118, R356): waits until every pending line is durable; a line that cannot be confirmed raises POISON and empties the
set. -/
def execPsync (s : State) := run .psync s (fun s =>
  match (s.persists s.cur s.curCtx).find? (fun l => s.lineLost l.2) with
  | some l => .error (.trapIn { cause := .poison, saddr := l.1, sinfo := 2 * 16 + 4 } (s.modPersists (fun _ => [])))
  | none => if (s.persists s.cur s.curCtx).isEmpty then .ok s.advance else .error .stall)

end Sys2Proof.Machine
end

