-- ==== Sys2Proof/Machine/Engine.lean ====
section
/-! DEFINITION. The cluster copy engines: meanings of ACOPY to ACANCEL (R119 to R128) and of the engine's events ENGINE_PIECE,
TOKEN_COMPLETION, WINDOW_EXCHANGE, COLLECTIVE_TIMEOUT and REMOTE_COPY_TIMEOUT (R121, R124 to R128, R246, R359, R360, R409). -/

namespace Sys2Proof.Machine

/-! ### Issue (R119, R122, R235) -/

/-- Descriptors queued at a cluster's engine (R119, R246). -/
def State.queuedOps (s : State) (cluster : Nat) : Nat :=
  (s.ops.filter (fun o => o.cluster == cluster && o.ended.isNone)).length

/-- TOKBAD, then the waits of R119, then the order of R120. -/
def engineChecks (d : BitVec 5) (oc : BitVec 4) (release : Bool) (s : State) : Except Stop Unit :=
  match tokenCheck s d with
  | some e => .error e
  | none =>
    if s.cx.pend.getLsbD d.toNat || s.queuedOps (clusterOf s.cur) ≥ 64 then .error .stall
    else orderWait oc release [] s

/-- A token that ends at issue (R122): x[D] takes VAL and STATUS at once. -/
def endNow (s : State) (d : BitVec 5) (val st : Nat) : Except Stop State :=
  .ok (s.retX d (BitVec.ofNat 64 (min val (2 ^ 48 - 1) * 2 ^ 16 + st)))

/-- The base of the local window (R234). -/
def localBase : Nat := 0xFF * 2 ^ 48

/-- The check of R235 on the local part of a range that an engine instruction names. -/
def engineRange (s : State) (need : Need) (va n : Nat) : Except Stop Unit :=
  let lo := max va localBase
  if va + n ≤ lo then .ok ()
  else match s.localReason (s.who .engine need) lo (va + n - lo) with
    | some r => .error (.trap { cause := .prot, saddr := lo, sinfo := protInfo .engine r })
    | none => .ok ()

/-- x[D] becomes pending and the operation joins the cluster's queue (R119), with the occupant changes that each core of the cluster, whose
scratchpads a local destination can lie in, has had (R121). -/
def queueOp (s : State) (d : BitVec 5) (sc : BitVec 3) (kind : OpKind) : Except Stop State :=
  let (id, s1) := s.freshId
  let k := s.cx
  let op : EngineOp :=
    { id, cluster := clusterOf s.cur, core := s.cur, asid := k.as, sid := k.sid, priv := k.priv, ctx := s.curCtx,
      reg := d.toNat, pc := k.pc, issuedAt := s.now, sc := sc.toNat, kind, next := 0, written := 0, ended := none,
      waitSvc := false, hostReq := none, buf := [],
      dstOwners := (upTo 16).map (fun i => (16 * clusterOf s.cur + i, (s.core (16 * clusterOf s.cur + i)).changes)) }
  .ok (({ s1 with ops := s1.ops ++ [op] }.setPending d).advance)

/-- A range passes 2^56. -/
def crosses (va n : Nat) : Bool := va + n > 2 ^ 56

def execAcopy (o : LX) (s : State) := run (.acopy o) s (fun s => do
  engineChecks o.d o.oc false s
  let dst := s.addr o.a
  let src := s.addr o.b
  let c := (s.getX o.c).toNat
  let n := c % 2 ^ 48
  let node := bitsOf c 48 15
  let qualified := bitOf c 63
  let remote := qualified && node ≠ s.mgmt.node
  let remoteSrc := bitOf o.f16.toNat 0
  if crosses dst n || crosses src n || node > 8191 || (qualified && o.sc.toNat ≠ 4) then endNow s o.d 0 6
  else if n = 0 then endNow s o.d 0 0
  else
    if !(remote && !remoteSrc) then engineRange s .w dst n
    if !(remote && remoteSrc) then engineRange s .r src n
    if remote then queueOp s o.d o.sc (.remote dst src n node remoteSrc)
    else queueOp s o.d o.sc (.copy dst src n))

/-- The lowest address and the length of the rows of a two-dimensional operand. -/
def rowExtent (va : Nat) (stride : Int) (row rows : Nat) : Int × Int :=
  let last := (va : Int) + stride * (rows - 1 : Nat)
  (min (va : Int) last, max (va : Int) last + row)

def execAcopy2d (o : LX) (s : State) := run (.acopy2d o) s (fun s => do
  engineChecks o.d o.oc false s
  let dst := s.addr o.a
  let src := s.addr o.b
  let ds := (s.getX (o.a + 1)).toInt
  let ss := (s.getX (o.b + 1)).toInt
  let c := (s.getX o.c).toNat
  let row := c % 2 ^ 24
  let rows := bitsOf c 24 24
  if bitsOf c 48 16 ≠ 0 then endNow s o.d 0 6
  else if row = 0 || rows = 0 then endNow s o.d 0 0
  else
    let (dlo, dhi) := rowExtent dst ds row rows
    let (slo, shi) := rowExtent src ss row rows
    if dlo < 0 || slo < 0 || dhi > 2 ^ 56 || shi > 2 ^ 56 then endNow s o.d 0 6
    else
      engineRange s .w dlo.toNat (dhi - dlo).toNat
      engineRange s .r slo.toNat (shi - slo).toNat
      queueOp s o.d o.sc (.copy2d dst src ds ss row rows))

def execAgather (o : LX) (s : State) := run (.agather o) s (fun s => do
  engineChecks o.d o.oc false s
  let dst := s.addr o.a
  let base := s.addr o.b
  let idx := s.addr o.c
  let n := (s.getX (o.c + 1)).toNat
  let size := 2 ^ (o.f16.toNat % 8)
  let iw := if bitOf o.f16.toNat 3 then 8 else 4
  if crosses dst (n * size) || crosses idx (n * iw) then endNow s o.d 0 6
  else if n = 0 then endNow s o.d 0 0
  else
    engineRange s .w dst (n * size)
    engineRange s .r idx (n * iw)
    queueOp s o.d o.sc (.gather dst base idx n size iw))

/-- Element bytes of a collective's format: FC 0 is int32 in a reduction and a byte in an all-gather (R124). -/
def collSize (op fmt : Nat) : Nat := if op = 1 then 1 else if fmt = 0 then 4 else fmtWidth fmt / 8

/-- The formats that ACOLL takes (R124). An all-gather with another format than FC 0 raises FMTBAD as a reduction does (log 64, DESIGN CHOICE: R124
states the trap for reductions only). -/
def collFmtOk (op fmt : Nat) : Bool := if op = 1 then fmt == 0 else fmt ≤ 3 || (5 ≤ fmt && fmt ≤ 7)

def State.group (s : State) (h : Nat) : Option Group := s.groups.find? (fun g => g.handle == h)

/-- Ranks of a group, and this module's rank in it (R360). -/
def State.ranks (s : State) (h : Nat) : Nat := ((s.group h).map (·.nodes.length)).getD 0
def State.myRank (s : State) (h : Nat) : Nat := ((s.group h).map (·.nodes.idxOf s.mgmt.node)).getD 0

/-- Bytes that a collective writes at this member. -/
def collOutBytes (op size n ranks : Nat) : Nat := match op with
  | 0 => n * size
  | 1 => n * size * ranks
  | _ => n / (max 1 ranks) * size

/-- ACOLL (R124). A handle with no group entry, or whose group does not hold this module, ends at issue with status 6 and uses no call number
(log 64, DESIGN CHOICE: R124 and R360 do not say). -/
def execAcoll (o : LX) (s : State) := run (.acoll o) s (fun s => do
  let f := o.f16.toNat
  let op := f % 16
  let red := bitsOf f 4 2
  let fmt := bitsOf f 6 5
  if !collFmtOk op fmt then .error (.trap (fmtbad (.acoll o) fmt 3))
  engineChecks o.d o.oc false s
  let h := o.imm.toNat
  let dst := s.addr o.a
  let src := s.addr o.b
  let n := (s.getX o.c).toNat
  let r := s.ranks h
  let size := collSize op fmt
  let call := (kvGet h s.collCalls).getD 0
  let s1 := { s with collCalls := kvSet h (call + 1) s.collCalls }
  if r = 0 || s.myRank h ≥ r then endNow s o.d 0 6
  else if crosses src (n * size) || crosses dst (collOutBytes op size n r) || (op = 2 && n % r ≠ 0) then endNow s1 o.d 0 6
  else
    engineRange s .w dst (collOutBytes op size n r)
    engineRange s .r src (n * size)
    queueOp s1 o.d o.sc (.coll dst src n op red fmt h call))

/-- GLAZE (R127). A window that a pending WBIND is about to bind is judged at issue, as not bound: status 6 (log 64, DESIGN CHOICE: the spec does not
order the two). -/
def execGlaze (o : LX) (s : State) := run (.glaze o) s (fun s => do
  engineChecks o.d o.oc true s
  match s.windowAt s.cx.as (s.addr o.a) with
  | none => endNow s o.d 0 6
  | some _ => queueOp s o.d o.sc (.glaze (s.addr o.a)))

def execWbind (o : LX) (s : State) := run (.wbind o) s (fun s => do
  engineChecks o.d o.oc false s
  if s.getX o.b = 0 then queueOp s o.d o.sc (.wbind (s.addr o.a) 0)
  else if crosses (s.addr o.b) 64 then endNow s o.d 0 6
  else
    engineRange s .r (s.addr o.b) 64
    queueOp s o.d o.sc (.wbind (s.addr o.a) (s.addr o.b)))

/-- WREAD (R128). A window that a pending WBIND is about to bind is judged at issue, as not bound: status 6 (log 64, DESIGN CHOICE: the spec does not
order the two). -/
def execWread (o : LX) (s : State) := run (.wread o) s (fun s => do
  engineChecks o.d o.oc false s
  match s.windowAt s.cx.as (s.addr o.a) with
  | none => endNow s o.d 0 6
  | some _ => queueOp s o.d o.sc (.wread (s.addr o.a)))

/-- An operation ends with VAL and STATUS; pins that its piece holds or waits for are released (R119, R314). -/
def State.endOp (s : State) (id val st : Nat) : State :=
  (s.modOp id (fun o => { o with ended := some (val, st), waitSvc := false })).unpin (.piece id)

/-- The pending operation is one of the executing context: of its strand, on whatever core that issued it, or of this A context. -/
def State.ownOp (s : State) (e : EngineOp) : Bool :=
  e.ctx == s.curCtx && e.asid == s.cx.as && e.sid == s.cx.sid && (s.curCtx == .u || e.core == s.cur) && e.ended.isNone

/-- ACANCEL (R128, R336): the pending engine operation of x[D] ends with status 3; a register with no pending operation is left unchanged. So is
one whose pending token is that of an MSENDA or a SYSC (log 64, DESIGN CHOICE: R128 names engine operations only). -/
def execAcancel (o : LX) (s : State) := run (.acancel o) s (fun s =>
  if o.d = 0 || o.d = 2 then .error (.trap { cause := .tokbad, sinfo := if o.d = 0 then 32 else 2 + 64 })
  else .ok (((s.ops.filter (fun e => s.ownOp e && e.reg == o.d.toNat)).foldl (fun (t : State) e => t.endOp e.id e.written 3) s).advance))

/-! ### Engine accesses (R121, R123) -/

def EngineOp.who (o : EngineOp) (need : Need) : Who :=
  { asid := o.asid, core := o.core, priv := o.priv, kind := .engine, need, eng := need == .w, pinBy := some (.piece o.id) }

/-- Why an engine access does not go on. -/
inductive EngStop where
  /-- The operation ends with a token status. -/
  | status (n : Nat) (s : State)
  /-- A page is not present: service code is asked (R409). -/
  | service (t : Trap) (s : State)
  /-- The access waits. -/
  | wait (s : State)
  /-- The access waits on a host page request (R318). -/
  | waitHost (req : Nat) (s : State)

/-- The token status of a failed access (R119, R121). -/
def engStop (s : State) : Stop → EngStop
  | .trap t => byCause t s
  | .trapIn t s1 => byCause t s1
  | .stall => .wait s
  | .stallIn s1 => .wait s1
  | .parkHost req s1 => .waitHost req s1
  | .fault _ => .wait s
where byCause (t : Trap) (s : State) : EngStop :=
  match t.cause with
  | .pgnp => .service t s
  | .pghost => .status 4 s
  | .mhraw => .status 5 s
  | .poison => .status 2 s
  | _ => .status 1 s

/-- The place of an engine access of n bytes within one granule. A local range was checked at issue; here the target's owner decides (R121,
R236, R247). -/
def EngineOp.place (o : EngineOp) (need : Need) (va n : Nat) (s : State) : Except EngStop (State × Place) :=
  if isLocal va then
    match localPlace o.core va with
    | .spad c off =>
      let k := s.core c
      if need == .w && (k.zeroing || o.dstOwners.any (fun p => p.1 == c && p.2 != k.changes)) then .error (.status 9 s)
      else if k.zeroing then .error (.wait s)
      else if k.owner ≠ some o.asid then .error (.status 1 s)
      else .ok (s, { key := (Loc.spad c off).key, typ := 8, siteOff := none, home := 0, page := 0, big := false })
    | .site t off => .ok (s, { key := (Loc.site t off).key, typ := 8, siteOff := some (t, off), home := 0, page := 0, big := false })
    | .outside => .error (.status 1 s)
  else match s.globalAccess (o.who need) va n with
    | .ok r => .ok r
    | .error e => .error (engStop s e)

/-- Bytes left in the granule of an address: the 4 KiB for which a host translation stands (R317), which no page boundary divides. -/
def granuleLeft (va : Nat) : Nat := 4096 - va % 4096

/-- 32-byte atoms that a piece of a range touches, but one that the piece before it has counted already (R316). -/
def atomsOf (goesOn : Bool) (va n : Nat) : Nat := (va + n + 31) / 32 - (if goesOn then (va + 31) / 32 else va / 32)

/-- An engine read within one granule; poison ends the operation. -/
def EngineOp.read1 (o : EngineOp) (va n : Nat) (s : State) : Except EngStop (State × Place × List Byte) :=
  match o.place .r va n s with
  | .error e => .error e
  | .ok (s1, p) => if s1.placePoisoned o.asid p n then .error (.status 2 s1) else .ok (s1, p, s1.placeBytes o.asid p n)

/-- An engine read of n bytes, granule by granule; `fuel` bounds the granules. -/
def EngineOp.reads (o : EngineOp) : Nat → Nat → Nat → State → Except EngStop (State × List Byte)
  | 0, _, _, s => .ok (s, [])
  | fuel + 1, va, n, s =>
    if n = 0 then .ok (s, [])
    else
      let m := min n (granuleLeft va)
      match o.read1 va m s with
      | .error e => .error e
      | .ok (s1, _, bs) =>
        match o.reads fuel (va + m) (n - m) s1 with
        | .error e => .error e
        | .ok (s2, cs) => .ok (s2, bs ++ cs)

/-- An engine write within one granule: all four copies of a replicated page (R123). -/
def EngineOp.write1 (o : EngineOp) (va : Nat) (bs : List Byte) (s : State) : Except EngStop (State × Place) :=
  match o.place .w va bs.length s with
  | .error e => .error e
  | .ok (s1, p) => .ok (if p.typ = 2 then s1.writeCopies o.asid p bs else s1.placeWrite o.asid p bs, p)

/-- An engine write of a list of bytes, granule by granule. -/
def EngineOp.writes (o : EngineOp) : Nat → Nat → List Byte → State → Except EngStop State
  | 0, _, _, s => .ok s
  | fuel + 1, va, bs, s =>
    if bs.isEmpty then .ok s
    else
      let m := min bs.length (granuleLeft va)
      match o.write1 va (bs.take m) s with
      | .error e => .error e
      | .ok (s1, _) => o.writes fuel (va + m) (bs.drop m) s1

/-! ### One piece (R246) -/

/-- What a piece leaves: the state and the operation as it then stands. -/
abbrev PieceResult := Except EngStop (State × EngineOp)

def EngineOp.done (o : EngineOp) (total : Nat) : EngineOp :=
  if o.next ≥ total then { o with ended := some (o.written, 0) } else o

/-- A copied piece of m bytes with the hotness of R316 in field `lo` at each end; `goesOn` says that it follows a piece of the same range. -/
def EngineOp.move (o : EngineOp) (goesOn : Bool) (dst src m lo total : Nat) (s : State) : PieceResult :=
  match o.read1 src m s with
  | .error e => .error e
  | .ok (s1, sp, bs) =>
    match o.write1 dst bs s1 with
    | .error e => .error e
    | .ok (s2, dp) =>
      let s3 := (s2.countHot o.asid sp lo (atomsOf goesOn src m)).countHot o.asid dp lo (atomsOf goesOn dst m)
      .ok (s3, { o with next := o.next + m, written := o.written + m }.done total)

def copyPiece (o : EngineOp) (dst src n : Nat) (s : State) : PieceResult :=
  let d := dst + o.next
  let c := src + o.next
  o.move (o.next != 0) d c (min (min 4096 (n - o.next)) (min (granuleLeft d) (granuleLeft c))) 0 n s

def copy2dPiece (o : EngineOp) (dst src : Nat) (ds ss : Int) (row rows : Nat) (s : State) : PieceResult :=
  let r := o.next / row
  let c := o.next % row
  let d := ((dst : Int) + ds * r).toNat + c
  let f := ((src : Int) + ss * r).toNat + c
  o.move (c != 0) d f (min (min 4096 (row - c)) (min (granuleLeft d) (granuleLeft f))) 16 (row * rows) s

/-- The address of the element that a gather reads next; the index counts memory elements, unsigned. -/
def EngineOp.gatherFrom (o : EngineOp) (base idx size iw : Nat) (s : State) : Except EngStop (State × Nat) :=
  match o.reads 2 (idx + o.next * iw) iw s with
  | .error e => .error e
  | .ok (s1, ib) => .ok (s1, base + ofBytes ib * size)

/-- An element of a gather that lies in the local window meets the check of R235, which no issue could make: status 1 (log 24, DEDUCED). -/
def EngineOp.sourceRefused (o : EngineOp) (a size : Nat) (s : State) : Bool :=
  let lo := max a localBase
  lo < a + size && (s.localReason (o.who .r) lo (a + size - lo)).isSome

/-- Places of a range, granule by granule, each with the address and length of its part; `fuel` bounds the granules. -/
def EngineOp.rangePlaces (o : EngineOp) (need : Need) : Nat → Nat → Nat → State → Except EngStop (State × List (Place × Nat × Nat))
  | 0, _, _, s => .ok (s, [])
  | fuel + 1, va, n, s =>
    if n = 0 then .ok (s, [])
    else
      let m := min n (granuleLeft va)
      match o.place need va m s with
      | .error e => .error e
      | .ok (s1, p) =>
        match o.rangePlaces need fuel (va + m) (n - m) s1 with
        | .error e => .error e
        | .ok (s2, ps) => .ok (s2, (p, va, m) :: ps)

/-- An element counts 1 at each page that it lies on (R316). -/
def State.countPages (s : State) (asid lo : Nat) (ps : List Place) : State :=
  (ps.foldl (fun (acc : State × List (Nat × Nat × Bool)) p =>
    if acc.2.contains (p.home, p.page, p.big) then acc else (acc.1.countHot asid p lo 1, (p.home, p.page, p.big) :: acc.2)) (s, [])).1

/-- The atoms of a range count at the page that each lies on (R316). -/
def State.countAtoms (s : State) (asid lo : Nat) (goesOn : Bool) (ps : List (Place × Nat × Nat)) : State :=
  ps.foldl (fun (t : State) p => t.countHot asid p.1 lo (atomsOf goesOn p.2.1 p.2.2)) s

/-- One element of a gather (R122). -/
def gatherPiece (o : EngineOp) (dst base idx n size iw : Nat) (s : State) : PieceResult :=
  match o.gatherFrom base idx size iw s with
  | .error e => .error e
  | .ok (s1, a) =>
    if crosses a size then .error (.status 6 s1)
    else if o.sourceRefused a size s1 then .error (.status 1 s1)
    else match o.reads 2 a size s1 with
      | .error e => .error e
      | .ok (s2, bs) =>
        match o.writes 2 (dst + o.next * size) bs s2 with
        | .error e => .error e
        | .ok s3 =>
          let s4 := match o.rangePlaces .r 2 a size s3 with
            | .ok (t, ps) => t.countPages o.asid 32 (ps.map (·.1))
            | .error _ => s3
          let s5 := match o.rangePlaces .w 2 (dst + o.next * size) size s4 with
            | .ok (t, ps) => t.countAtoms o.asid 0 (o.next != 0) ps
            | .error _ => s4
          .ok (s5, { o with next := o.next + 1, written := o.written + size }.done n)

/-! ### Collectives (R124, R125, R360) -/

/-- tree_sum of R61 over a list of codes, with a rounded addition `f`. -/
def treeSum (f : Nat → Nat → Nat) : Nat → List (Option Nat) → Option Nat
  | 0, l => (l.head?).getD none
  | fuel + 1, l => match l with
    | [] => none
    | [x] => x
    | _ => treeSum f fuel (pairs l)
where pairs : List (Option Nat) → List (Option Nat)
  | a :: b :: t => (match a, b with | some x, some y => some (f x y) | none, y => y | x, none => x) :: pairs t
  | l => l

/-- Reduction of one element over the ranks, in mode 0 (R125): sum, maximum or minimum; a NaN result is canonical (R40). -/
def reduceCodes (red fmt : Nat) (cs : List Nat) : Nat :=
  let f (a b : Nat) : Nat := match red with
    | 0 => if fmt = 0 then (a + b) % 2 ^ 32 else (arith .add fmt a b false 0).1
    | 1 => if fmt = 0 then (if sInt 32 a < sInt 32 b then b else a) else (minMaxCode true fmt a b).1
    | _ => if fmt = 0 then (if sInt 32 a > sInt 32 b then b else a) else (minMaxCode false fmt a b).1
  let r := (treeSum f 64 (cs.map some)).getD 0
  if fmt = 0 then r else canonCode fmt r

/-- Elements k, k + 1, … of `size` bytes. -/
def elemAt (bs : List Byte) (size k : Nat) : Nat := ofBytes ((bs.drop (k * size)).take size)

/-- The result of a matched collective at one member, from the members' data in rank order. -/
def collResult (op red fmt size n rank : Nat) (data : List (List Byte)) : List Byte :=
  let r := data.length
  match op with
  | 1 => data.flatten
  | _ =>
    let lo := if op = 2 then rank * n / r else 0
    let cnt := if op = 2 then n / r else n
    (upTo cnt).flatMap (fun k => toBytes size (reduceCodes red fmt (data.map (fun d => elemAt d size (lo + k)))))

/-- A piece of a collective, whose VAL is zero (R119, R124, R246): first of its own source, then, once every member's call has arrived, of its result; a call that
differs ends it with status 8. -/
def collPiece (o : EngineOp) (dst src n op red fmt h call : Nat) (s : State) : PieceResult :=
  let r := s.ranks h
  let me := s.myRank h
  let find (k : Nat) := s.peers.find? (fun p => p.group == h && p.rank == k && p.call == call)
  let others := (upTo r).filter (· ≠ me)
  let size := collSize op fmt
  let total := n * size
  if others.any (fun k => match find k with
      | some p => p.op ≠ op || p.red ≠ red || p.fmt ≠ fmt || p.count ≠ n
      | none => false) then .error (.status 8 s)
  else if o.next < total then
    let m := min (min 4096 (total - o.next)) (granuleLeft (src + o.next))
    match o.read1 (src + o.next) m s with
    | .error e => .error e
    | .ok (s1, _, bs) => .ok (s1, { o with next := o.next + m, buf := o.buf ++ bs })
  else if others.any (fun k => (find k).isNone) then .error (.wait s)
  else
    let data := (upTo r).map (fun k => if k = me then o.buf else ((find k).map (·.data)).getD [])
    let out := collResult op red fmt size n me data
    let at_ := o.next - total
    let part := (out.drop at_).take (min 4096 (granuleLeft (dst + at_)))
    let closed (t : State) : State := { t with peers := t.peers.filter (fun p => !(p.group == h && p.call == call)) }
    if part.isEmpty then .ok (closed s, { o with ended := some (0, 0) })
    else match o.write1 (dst + at_) part s with
      | .error e => .error e
      | .ok (s1, _) =>
        let o1 := { o with next := o.next + part.length }
        if at_ + part.length ≥ out.length then .ok (closed s1, { o1 with ended := some (0, 0) }) else .ok (s1, o1)

/-! ### Windows (R126 to R128, R311) -/

def overlaps (a n b m : Nat) : Bool := a < b + m && b < a + n

/-- Every page of a range has a leaf of a type; a page that is not present is a fault of the descriptor's check. -/
def State.pagesOfType (s : State) (asid va len typ : Nat) : Bool :=
  (upTo (len / 0x1_0000)).all (fun k => match s.walk asid (va + k * 0x1_0000) with
    | .leaf l _ _ _ => leafType l == typ
    | .np _ _ => false)

/-- The owner home of a page that a walk finds (R306, R311). -/
def State.ownerHome (s : State) (asid va : Nat) : Nat := match s.walk asid va with
  | .leaf _ _ big _ => homeOf va big
  | .np _ _ => homeOf va false

/-- The binding that a descriptor describes, if it obeys R126 and R311. A length of zero, and a window that only overlaps a bound one, are refused
as well (log 64, DESIGN CHOICE: R126 does not name them). -/
def State.descriptorWindow (s : State) (asid va : Nat) (d : List Nat) : Option Window :=
  let g (i : Nat) := d.getD i 0
  let len := g 1
  let ok := g 0 == va && va % 0x1_0000 == 0 && len % 0x1_0000 == 0 && len != 0 && g 2 % 0x1_0000 == 0 && g 3 % 0x1_0000 == 0
    && !crosses va len && !crosses (g 2) len && !crosses (g 3) len
    && g 4 < 2 ^ 32 && g 5 == 0 && g 6 == 0 && g 7 == 0
    && !overlaps (g 2) len (g 3) len && !overlaps va len (g 2) len && !overlaps va len (g 3) len
    && !isLocal va && !isLocal (g 2) && !isLocal (g 3)
    && s.windows.all (fun w => w.asid != asid || !overlaps va len w.va w.len)
    && (s.windows.filter (fun w => w.home == s.ownerHome asid va)).length < 256
    && s.pagesOfType asid va len 4 && s.pagesOfType asid (g 2) len 0 && s.pagesOfType asid (g 3) len 0
  if ok then some { asid, va, len, buf0 := g 2, buf1 := g 3, swapped := false, version := g 4, home := s.ownerHome asid va } else none

/-- WBIND's binding or unbinding (R126). The unbinding form names the window by its base: an x[A] inside a bound window but not at its base names
none, and ends with status 6 (log 64, DESIGN CHOICE: R126 does not say). An x[B] whose low 56 bits are zero is the unbinding form, whatever its top byte, which is ignored as that of
every address (log 64, DESIGN CHOICE: R126 says x[B] = 0). -/
def wbindPiece (o : EngineOp) (va desc : Nat) (s : State) : PieceResult :=
  if desc = 0 then
    if s.windows.any (fun w => w.asid == o.asid && w.va == va) then
      .ok ({ s with windows := s.windows.filter (fun w => !(w.asid == o.asid && w.va == va)) }, { o with ended := some (0, 0) })
    else .error (.status 6 s)
  else
    match o.reads 2 desc 64 s with
    | .error e => .error e
    | .ok (s1, bs) =>
      match s1.descriptorWindow o.asid va ((upTo 8).map (elemAt bs 8)) with
      | some w => .ok ({ s1 with windows := s1.windows ++ [w] }, { o with ended := some (0, 0) })
      | none => .error (.status 6 s1)

def wreadPiece (o : EngineOp) (va : Nat) (s : State) : PieceResult :=
  match s.windowAt o.asid va with
  | some w => .ok (s, { o with ended := some (w.version, 0) })
  | none => .error (.status 6 s)

/-! ### Node-qualified copies (R123, R359) -/

/-- n bytes of another module's memory: free values. -/
def State.freshBytes (s : State) (n : Nat) : List Byte × State :=
  let k := (n + 7) / 8
  (((upTo k).flatMap (fun i => toBytes 8 (Config.freeWord (s.free + i)).toNat)).take n, { s with free := s.free + k })

/-- How the other module answers a part of a copy (R359): it is served, refused (1), or not reached (7), a free value (log 26, DESIGN CHOICE). -/
def State.remoteAnswer (s : State) : Nat × State :=
  let (v, s1) := s.freshWord
  (match v.toNat % 3 with | 0 => 0 | 1 => 1 | _ => 7, s1)

/-- The next bytes of a copy whose other side is another module, which may refuse any part of it: what that module's memory holds, how it answers,
and how much it reports as written with an answer other than 0, are free values (log 26, DESIGN CHOICE). An unknown node gives status 7. -/
def remotePiece (o : EngineOp) (dst src n node : Nat) (remoteSrc : Bool) (s : State) : PieceResult :=
  if (kvGet node s.mgmt.nodeTable).isNone || !s.mgmt.fabricUp.any id then .error (.status 7 s)
  else if remoteSrc && o.next ≥ n then .ok (s, { o with ended := some (o.written, 0) })
  else
    let (st, s0) := s.remoteAnswer
    if st ≠ 0 then
      let (u, s1) := s0.freshWord
      .ok (s1, { o with ended := some (if remoteSrc then o.written else u.toNat % (n + 1), st) })
    else if o.next ≥ n then .ok (s0, { o with ended := some (n, 0) })
    else if remoteSrc then
      let d := dst + o.next
      let m := min (min 4096 (n - o.next)) (granuleLeft d)
      let (bs, s1) := s0.freshBytes m
      match o.write1 d bs s1 with
      | .error e => .error e
      | .ok (s2, p) => .ok (s2.countHot o.asid p 0 (atomsOf (o.next != 0) d m), { o with next := o.next + m, written := o.written + m })
    else
      let c := src + o.next
      let m := min (min 4096 (n - o.next)) (granuleLeft c)
      match o.read1 c m s0 with
      | .error e => .error e
      | .ok (s1, p, _) => .ok (s1.countHot o.asid p 0 (atomsOf (o.next != 0) c m), { o with next := o.next + m })

/-! ### Events -/

/-- A service entry for a page that is not present (R409), at the core where the issuing strand last issued. -/
def State.engineFault (s : State) (o : EngineOp) (t : Trap) : State :=
  let c := match o.ctx with
    | .u => ((s.strand o.asid o.sid).map (·.issuedAt)).getD o.core
    | .a => o.core
  let e : SvcEntry :=
    { cause := .pgnp, sepc := pcMask o.pc, saddr := BitVec.ofNat 64 t.saddr,
      sinfo := BitVec.ofNat 64 (t.sinfo + 2 ^ 22), sqimg := 0, pprv := false, actx := false, gangw := false, image := 0,
      asid := o.asid, sid := o.sid, held := false, engineOp := some o.id }
  ((s.unpin (.piece o.id)).modOp o.id (fun o => { o with waitSvc := true })).pushEntry c e

/-- The piece of an operation that is due: one that has neither ended nor waits for service code; a GLAZE has none (log 29, DEDUCED). -/
def EngineOp.piece (o : EngineOp) (s : State) : PieceResult :=
  match o.kind with
  | .copy dst src n => copyPiece o dst src n s
  | .copy2d dst src ds ss row rows => copy2dPiece o dst src ds ss row rows s
  | .gather dst base idx n size iw => gatherPiece o dst base idx n size iw s
  | .coll dst src n op red fmt group call => collPiece o dst src n op red fmt group call s
  | .glaze _ => .error (.wait s)
  | .wbind va desc => wbindPiece o va desc s
  | .wread va => wreadPiece o va s
  | .remote dst src n node remoteSrc => remotePiece o dst src n node remoteSrc s

/-- The operand ranges that the next piece covers, as need, address and length (R313). -/
def EngineOp.ranges (o : EngineOp) (s : State) : List (Need × Nat × Nat) :=
  match o.kind with
  | .copy dst src n =>
    let m := min 4096 (n - o.next)
    [(.r, src + o.next, min m (granuleLeft (src + o.next))), (.w, dst + o.next, min m (granuleLeft (dst + o.next)))]
  | .copy2d dst src ds ss row _ =>
    let m := row - o.next % row
    let d := ((dst : Int) + ds * (o.next / row : Nat)).toNat + o.next % row
    let f := ((src : Int) + ss * (o.next / row : Nat)).toNat + o.next % row
    [(.r, f, min m (granuleLeft f)), (.w, d, min m (granuleLeft d))]
  | .gather dst base idx _ size iw => [(.r, idx + o.next * iw, iw), (.w, dst + o.next * size, size)] ++
      (match o.gatherFrom base idx size iw s with
        | .ok (s1, a) => if crosses a size || o.sourceRefused a size s1 then [] else [(.r, a, size)]
        | .error _ => [])
  | .coll dst src n op _ fmt h _ =>
    let total := n * collSize op fmt
    if o.next < total then [(.r, src + o.next, min (min 4096 (total - o.next)) (granuleLeft (src + o.next)))]
    else
      let at_ := o.next - total
      let left := collOutBytes op (collSize op fmt) n (s.ranks h) - at_
      if left = 0 then [] else [(.w, dst + at_, min (min 4096 left) (granuleLeft (dst + at_)))]
  | .wbind _ desc => if desc = 0 then [] else [(.r, desc, 64)]
  | .remote dst src n _ remoteSrc =>
    let va := (if remoteSrc then dst else src) + o.next
    if o.next ≥ n then [] else [(if remoteSrc then .w else .r, va, min (min 4096 (n - o.next)) (granuleLeft va))]
  | _ => []

/-- Places of all operand ranges of a piece, each with what the piece needs there. -/
def EngineOp.operandPlaces (o : EngineOp) : List (Need × Nat × Nat) → State → Except EngStop (State × List (Need × Place))
  | [], s => .ok (s, [])
  | (need, va, n) :: t, s =>
    match o.rangePlaces need (n / 4096 + 2) va n s with
    | .error e => .error e
    | .ok (s1, ps) =>
      match o.operandPlaces t s1 with
      | .error e => .error e
      | .ok (s2, qs) => .ok (s2, ps.map (fun p => (need, p.1)) ++ qs)

/-- A piece whose operand pages are pinned first (R313, R314); one that writes waits while a page is being moved (R321). -/
def EngineOp.pinnedPiece (o : EngineOp) (s : State) : PieceResult :=
  match o.operandPlaces (o.ranges s) s with
  | .error e => .error e
  | .ok (s1, ps) =>
    let (s2, pinned) := s1.pinAll (.piece o.id) o.asid (ps.map (·.2))
    let writes := (ps.filter (fun p => p.1 == .w)).map (·.2)
    if !pinned || s2.anyMoving o.asid writes then .error (.wait (s2.noteMoving o.asid writes (.piece o.id)))
    else match o.piece s2 with
      | .ok (s3, o1) => .ok (s3.unpin (.piece o.id), o1)
      | .error e => .error e

/-- An operation that the engine has to serve: it has not ended, and waits neither for service code nor, being a GLAZE, for earlier writes. -/
def EngineOp.active (o : EngineOp) : Bool :=
  o.ended.isNone && !o.waitSvc && (match o.kind with | .glaze _ => false | _ => true)

/-- The core whose operations a cluster's engine serves next: round-robin by issuing core (R246). -/
def State.engineTurn (s : State) (cluster : Nat) : Option Nat :=
  let last := (s.cluster cluster).lastServed
  let ahead (c : Nat) : Nat := (c % 16 + 31 - last % 16) % 16
  (s.ops.filter (fun o => o.cluster == cluster && o.active)).foldl (fun best o => match best with
    | none => some o.core
    | some b => if ahead o.core < ahead b then some o.core else some b) none

/-- ENGINE_PIECE: the engine serves the operation when it is its core's turn, which then passes on (R246; log 29, DEDUCED). -/
def enginePiece (id : Nat) (s : State) : State :=
  match s.op id with
  | none => s
  | some o =>
    if !o.active || s.engineTurn o.cluster != some o.core then s
    else
      let s0 := s.modCluster o.cluster (fun k => { k with lastServed := o.core })
      match o.pinnedPiece s0 with
      | .ok (s1, o1) => s1.modOp id (fun _ => o1)
      | .error (.status n s1) => s1.endOp id o.written n
      | .error (.service t s1) => s1.engineFault o t
      | .error (.wait s1) => s1
      | .error (.waitHost req s1) => s1.modOp id (fun o => { o with hostReq := some req })

def execEnginePiece (op : Nat) (s : State) : Host.Outcome State Fault Refusal := .next (enginePiece op s)

/-- TOKEN_COMPLETION (R119, R121): the token of an operation that has ended reaches its register. -/
def tokenCompletion (id : Nat) (s : State) : State :=
  match s.op id with
  | none => s
  | some o =>
    match o.ended with
    | none => s
    | some (val, st) =>
      let s1 := { s with ops := s.ops.filter (fun e => e.id != id) }
      s1.deliver o.core o.asid o.sid o.ctx o.reg (BitVec.ofNat 64 (min val (2 ^ 48 - 1) * 2 ^ 16 + st)) (st != 0)

def execTokenCompletion (op : Nat) (s : State) : Host.Outcome State Fault Refusal := .next (tokenCompletion op s)

/-- WINDOW_EXCHANGE (R127): once every earlier engine write of the strand has performed, the buffers exchange and the version
rises. -/
def windowExchange (id : Nat) (s : State) : State :=
  match s.op id with
  | none => s
  | some o =>
    match o.kind, o.ended with
    | .glaze va, none =>
      let earlier := s.ops.any (fun e => e.id < id && e.asid == o.asid && e.sid == o.sid && e.ctx == o.ctx && e.ended.isNone)
      if earlier then s
      else match s.windowAt o.asid va with
        | none => s.endOp id 0 6
        | some w =>
          let s1 : State := { s with windows := s.windows.map (fun (v : Window) => if v.asid = w.asid ∧ v.va = w.va
            then { v with swapped := !v.swapped, version := v.version + 1 } else v) }
          s1.modOp id (fun o => { o with ended := some (w.version + 1, 0) })
    | _, _ => s

def execWindowExchange (op : Nat) (s : State) : Host.Outcome State Fault Refusal := .next (windowExchange op s)

/-- One second of TIME (R21). -/
def oneSecond : Nat := 100000000

/-- The call of some other member of a collective has not arrived. -/
def State.callMissing (s : State) (h call : Nat) : Bool :=
  ((upTo (s.ranks h)).filter (· ≠ s.myRank h)).any (fun k => !s.peers.any (fun p => p.group == h && p.rank == k && p.call == call))

/-- COLLECTIVE_TIMEOUT (R360): 1 s after its issue, a collective that still waits for a member ends with status 7. -/
def collectiveTimeout (id : Nat) (s : State) : State :=
  match s.op id with
  | some o => (match o.kind, o.ended with
    | .coll _ _ _ _ _ _ h call, none => if !o.waitSvc && s.now ≥ o.issuedAt + oneSecond && s.callMissing h call then s.endOp id 0 7 else s
    | _, _ => s)
  | none => s

def execCollectiveTimeout (op : Nat) (s : State) : Host.Outcome State Fault Refusal := .next (collectiveTimeout op s)

/-- REMOTE_COPY_TIMEOUT (R359): 1 s without an answer, no part of it waiting for service code, ends a node-qualified copy with status 7. -/
def remoteTimeout (id : Nat) (s : State) : State :=
  match s.op id with
  | some o => (match o.kind, o.ended with
    | .remote .., none => if !o.waitSvc && s.now ≥ o.issuedAt + oneSecond then s.endOp id o.written 7 else s
    | _, _ => s)
  | none => s

def execRemoteCopyTimeout (op : Nat) (s : State) : Host.Outcome State Fault Refusal := .next (remoteTimeout op s)

end Sys2Proof.Machine
end

