-- ==== Sys2Proof/Machine/Homes.lean ====
section
/-! DEFINITION. The home translation units beside single accesses: dropping translations (R207, R312), PIN_ADMIT (R313),
HOTNESS_WRITEBACK (R315) and page movement (R320 to R322). -/

namespace Sys2Proof.Machine

/-! ### Dropping translations (R207, R315, R345) -/

/-- A page of a given size overlaps [lo, hi). -/
def pageMeets (page : Nat) (big : Bool) (lo hi : Nat) : Bool :=
  lo < (page + 1) * pageBytes big && page * pageBytes big < hi

/-- A walk pointer serves walks of addresses in [lo, hi). -/
def WalkPtr.meets (p : WalkPtr) (lo hi : Nat) : Bool :=
  let span := 2 ^ (16 + 10 * (4 - p.level))
  lo < (p.bits + 1) * span && p.bits * span < hi

/-- Drop every translation of an address space for pages that meet a range: the homes' entries with their hotness written back, the pointers
of their walk caches, host translations, and the L1 lines of the range. -/
def State.dropRange (s : State) (asid lo hi : Nat) : State :=
  let gone := s.sites.toList.flatMap (fun t => t.home.cache.filter (fun e => e.asid == asid && pageMeets e.page e.big lo hi))
  let s1 := gone.foldl State.dropEntry s
  let s2 : State := { s1 with
    sites := s1.sites.map (fun t => { t with home := { t.home with walks := t.home.walks.filter (fun p => !(p.asid == asid && p.meets lo hi)) } }),
    ats := s1.ats.filter (fun a => !(a.asid == asid && lo < (a.page + 1) * 4096 && a.page * 4096 < hi)) }
  s2.dropL1Alias asid lo hi

/-- A pin held on a page of a range (R207, R319). -/
def State.rangePinned (s : State) (asid lo hi : Nat) : Bool :=
  s.sites.any (fun t => t.home.pins.any (fun q => q.asid == asid && q.pages.any (fun p => pageMeets p.1 p.2 lo hi)))

/-- A page of a range is being moved (R322). -/
def State.rangeMoving (s : State) (asid lo hi : Nat) : Bool :=
  s.sites.any (fun t => t.home.cache.any (fun e => e.asid == asid && e.moving && pageMeets e.page e.big lo hi))

/-! ### Events of a home -/

/-- PIN_ADMIT: the oldest waiting request is admitted when the table has room for all of it. -/
def pinAdmit (site : Nat) (s : State) : State :=
  match (s.site site).home.waiting with
  | [] => s
  | q :: t =>
    if (s.site site).home.pinned + q.pages.length ≤ 4096 then
      s.modHome site (fun h => { h with pins := h.pins ++ [q], waiting := t })
    else s

def execPinAdmit (site : Nat) (s : State) : Host.Outcome State Fault Refusal := .next (pinAdmit site s)

/-- HOTNESS_WRITEBACK of the k-th held entry of a home. -/
def execHotnessWriteback (site k : Nat) (s : State) : Host.Outcome State Fault Refusal :=
  .next (match (s.site site).home.cache[k]? with
    | some e => s.hotBack e
    | none => s)

/-- TIME counts of 10 ms. -/
def tenMs : Nat := 1000000

/-- Every hotness record held by a home is written back once 10 ms have passed since that was last done (R315). -/
def hotnessDue (site : Nat) (s : State) : State :=
  let h := (s.site site).home
  if s.now < h.wroteBack + tenMs then s
  else (h.cache.foldl State.hotBack s).modHome site (fun h => { h with wroteBack := s.now })

/-! ### Page movement (R320 to R322) -/

/-- A leaf with another type and address. -/
def leafWith (l typ addr : Nat) : Nat := setBits (setBits l 59 3 typ) 0 48 addr

/-- The zero fields and the OP of a movement request. -/
def moveShape (va : Nat) (d : List Nat) : Bool :=
  let g (i : Nat) := d.getD i 0
  let op := g 0 % 8
  va % 64 == 0 && g 0 < 2 ^ 32 && bitsOf (g 0) 3 13 == 0 && 1 ≤ op && op ≤ 4 && (op != 4 || g 2 == 0)
    && g 3 < (if op = 3 then 4 else 1) && g 5 == 0 && g 6 == 0 && g 7 == 0

/-- A frame copied to another: atoms of a dead CXL range arrive poisoned, and none is written there (R321, R357). -/
def State.copyFrame (s : State) (src n dst : Nat) (m : Memory) : Memory :=
  if dst = src || s.cxlDeadIn dst n then m
  else
    let m1 := m.copy src dst n
    if s.cxlDeadIn src n then (upTo (n / 32)).foldl (fun (m : Memory) i =>
      if s.cxlDeadIn (src + 32 * i) 32 then m.setPoison (dst / 32 + i) else m) m1
    else m1

/-- Copy a frame into others; one that is the source itself is left. -/
def State.copyFrames (s : State) (src n : Nat) (dsts : List Nat) : State :=
  { s with mem := dsts.foldl (fun (m : Memory) f => s.copyFrame src n f m) s.mem }

/-- What an OP 1 to 3 on a page does: the movement, or the status 2 or 3 that turns it away (R311, R320). -/
def State.moveTarget (s : State) (op : Nat) (e : HomeEntry) (pa kept : Nat) : Except Nat Movement :=
  let l := e.leaf.toNat
  let typ := leafType l
  let plan (src : Nat) (dsts : List Nat) (leaf : Nat) : Movement := { op, asid := e.asid, page := e.page, big := e.big, src, dsts, leaf }
  match op with
  | 1 =>
    if typ ≠ 0 ∧ typ ≠ 3 then .error 3
    else if pa ≥ 2 ^ 48 || !s.leafOk (leafWith l typ pa) e.big then .error 2
    else .ok (plan (leafAddr l) [pa] (leafWith l typ pa))
  | 2 =>
    if typ ≠ 0 ∨ e.big then .error 3
    else if pa ≥ 2 ^ 48 || !s.leafOk (leafWith l 2 pa) false then .error 2
    else .ok (plan (leafAddr l) (s.replicas pa) (leafWith l 2 pa))
  | _ =>
    if typ ≠ 2 then .error 3
    else if pa ≥ 2 ^ 48 || !s.leafOk (leafWith l 0 pa) false then .error 2
    else .ok (plan (s.mem.read (leafAddr l + 8 * kept) 8) [pa] (leafWith l 0 pa))

/-- The entry of a movement's page. -/
def Movement.entry (m : Movement) (h : Home) : Option HomeEntry :=
  h.cache.find? (fun e => e.asid == m.asid && e.page == m.page && e.big == m.big)

/-- Steps 1 and 2 of R321: the page is marked moving, and its L1 lines leave under every alias. -/
def State.beginMove (s : State) (site : Nat) (e : HomeEntry) (m : Movement) : State :=
  let s1 := (s.leafFrames e.leaf.toNat).foldl (fun (t : State) f => t.dropL1Keys f (f + pageBytes e.big)) s
  (s1.modEntry e (fun o => { o with moving := true })).modHome site (fun h => { h with moving := some m })

/-- Steps 3 to 6 of R321 but STATUS: the atoms are copied, the leaf and the entry are written, the stalled accesses take the next turns in order of
arrival, and the hotness record is written back (log 28, DEDUCED). -/
def State.endMove (s : State) (site : Nat) (m : Movement) : State :=
  let s1 := { s.modHome site (fun h => { h with moving := none }) with agenda := m.stalled ++ s.agenda }
  match m.entry (s1.site site).home with
  | none => s1
  | some e =>
    let s2 := s1.copyFrames m.src (pageBytes e.big) m.dsts
    let s3 := { s2 with mem := s2.mem.write e.leafPa 8 m.leaf }
    (s3.modEntry e (fun o => { o with leaf := BitVec.ofNat 64 m.leaf, moving := false })).hotBack e

/-- OP 4: every count of the record but HPIN becomes 0 (R315). -/
def State.resetHot (s : State) (e : HomeEntry) : State :=
  let h := BitVec.ofNat 64 (e.hot.toNat / 2 ^ 48 * 2 ^ 48)
  (s.modEntry e (fun o => { o with hot := h })).hotBack { e with hot := h }

/-- The oldest request leaves the queue with its STATUS. -/
def State.moveDone (s : State) (site poster va st : Nat) : State :=
  (s.modHome site (fun h => { h with moves := h.moves.drop 1 })).blockStatus poster va 0x20 st

/-- A request whose block has been read: it is turned away with a status, OP 4 is done at once, and another begins its movement; a home without
room for the page's entry keeps it waiting. -/
def State.moveStart (s : State) (site poster va : Nat) (d : List Nat) : State :=
  let op := d.getD 0 0 % 8
  let asid := bitsOf (d.getD 0 0) 16 16
  let page := d.getD 1 0
  if page ≥ 2 ^ 56 || page % 2 ^ 16 ≠ 0 || isLocal page then s.moveDone site poster va 2
  else match s.homeEntry asid page with
    | .error .full => s
    | .error (.np r _) => (s.logWalk asid 0 page r).moveDone site poster va 4
    | .ok (s1, e, _) =>
      if page % pageBytes e.big ≠ 0 || homeOf page e.big ≠ site % 4 then s1.moveDone site poster va 2
      else if op = 4 then (s1.resetHot e).moveDone site poster va 1
      else match s1.moveTarget op e (d.getD 2 0) (d.getD 3 0 % 4) with
        | .error st => s1.moveDone site poster va st
        | .ok m => s1.beginMove site e m

/-- The home goes on with its oldest request when its OP is `op`: the page is marked at one event, and the movement completes at the next. A
malformed request is served by any of the four events; one whose block cannot be read is dropped (log 28, DEDUCED). -/
def moveServe (site op : Nat) (s : State) : State := s.attempt fun s =>
  match (s.site site).home.moves with
  | [] => s
  | (poster, va) :: _ =>
    match (s.site site).home.moving with
    | some m => if m.op = op then (s.endMove site m).moveDone site poster va 1 else s
    | none =>
      let s := s.devTouch poster va
      match s.devReads poster va 8 with
      | none => s.modHome site (fun h => { h with moves := h.moves.drop 1 })
      | some (s1, d) =>
        if !moveShape va d then s1.moveDone site poster va 2
        else if d.getD 0 0 % 8 = op then s1.moveStart site poster va d
        else s1

def execMoveMigrate (site : Nat) (s : State) : Host.Outcome State Fault Refusal := .next (moveServe site 1 s)
def execMoveReplicate (site : Nat) (s : State) : Host.Outcome State Fault Refusal := .next (moveServe site 2 s)
def execMoveCollapse (site : Nat) (s : State) : Host.Outcome State Fault Refusal := .next (moveServe site 3 s)
def execMoveResetHotness (site : Nat) (s : State) : Host.Outcome State Fault Refusal := .next (moveServe site 4 s)

end Sys2Proof.Machine
end

