-- ==== Sys2Proof/Machine/Strand.lean ====
section
/-! DEFINITION. Meanings of major 39: SPAWN, JOIN, EXIT, YIELD, MIGRATE, BAR, CREWINFO and SELF (R182 to R193), with place words, inline
frames, and parking (R190, R228, R408). -/

namespace Sys2Proof.Machine

/-! ### Place words (R185) -/

def placeOrd (w : Nat) : Nat := bitsOf w 32 16
def placeCls (w : Nat) : Nat := bitsOf w 24 3
def placeMode (w : Nat) : Nat := bitsOf w 16 3
def placeCore (w : Nat) : Nat := w % 2 ^ 16

/-- Zero fields and MODE of a place word; ORD is a zero field of MIGRATE's, CORE of MODE 1's. -/
def placeShape (w : Nat) (migrate : Bool) : Bool :=
  w < 2 ^ 48 && bitsOf w 27 5 == 0 && bitsOf w 19 5 == 0 && placeMode w ≤ 1 && (!migrate || placeOrd w == 0)
    && (placeMode w == 0 || placeCore w == 0)

/-- Live cores of a class in CLS. -/
def State.liveIn (s : State) (cls : Nat) : List Nat := (upTo s.coreCount).filter (fun t => s.live t && inClsMask cls (s.cls t))

/-- The core that a place word names or chooses; none when the word is invalid (R185) (log 46, DEDUCED). -/
def placeTarget (s : State) (w : Nat) (migrate : Bool) : Option Nat :=
  if !placeShape w migrate then none
  else if placeMode w = 0 then
    if s.live (placeCore w) && inClsMask (placeCls w) (s.cls (placeCore w)) then some (placeCore w) else none
  else
    let cands := s.liveIn (placeCls w)
    (s.firstRanked s.cur (cands.filter s.freeSlot)).or (s.firstRanked s.cur cands)

/-- Where a strand that waits for the target of a place word may be taken (R229): the named core, and the classes of CLS. -/
def placeOnly (w : Nat) : Option Nat := if placeMode w = 0 then some (placeCore w) else none
def placeClasses (w : Nat) : Nat := if placeMode w = 0 then 0 else placeCls w

/-- SPILLFAIL of an instruction (R229, R324). -/
def spillTrap (e : SpillErr) : Trap := { cause := .spillfail, saddr := e.va, sinfo := e.reason + e.cause * 2 ^ 8 }

/-- The origin queue that new work inherits (R293): that of the issuing strand, for a handler that of the U occupant, else 0. -/
def State.originOf (s : State) : Nat := (s.myStrand.map (·.origin)).getD 0

/-! ### SPAWN (R186, R187) -/

/-- A join word's check as an 8-byte atomic (R106): its place, none for the word 0. -/
def joinCheck (v : Word) (s : State) : Except Stop (State × Option Place) :=
  if v = 0 then .ok (s, none)
  else do
    let va ← checkAddr .atomic (v.toNat % 2 ^ 56 : Nat) 8
    let (s1, p) ← s.access (s.who .atomic .rw) va 8
    return (s1, some p)

/-- OUT := wrap(OUT + 1, 32). -/
def joinIncrement (w : Nat) : Nat := w - w % 2 ^ 32 + (w + 1) % 2 ^ 32

/-- The increment of a checked join word; poison traps. -/
def countChild (v : Word) (p : Option Place) (s : State) : Except Stop State :=
  match p with
  | none => .ok s
  | some p =>
    let w := s.who .atomic .rw
    if s.placePoisoned w.asid p 8 then .error (.trapIn (poisonTrap s w p 8 (v.toNat % 2 ^ 56)) s)
    else .ok (s.placeWrite w.asid p (toBytes 8 (joinIncrement (s.placeRead w.asid p 8))))

/-- Places of the four stores of an inline frame, all checked before any performs. -/
def framePlaces (base : Nat) : List Nat → State → Except Stop (State × List Place)
  | [], s => .ok (s, [])
  | off :: t, s => do
    let va ← checkAddr .store ((base + off : Nat) : Int) 8
    let (s1, p) ← s.access (s.who .store .w) va 8
    let (s2, ps) ← framePlaces base t s1
    return (s2, p :: ps)

/-- The inline frame's doublewords (R187). -/
def frameWords (retPc joinVa : Word) (d : BitVec 5) (ord : Nat) (x2 : Word) : List Nat :=
  [retPc.toNat, joinVa.toNat, d.toNat * 2 ^ 16 + ord, x2.toNat]

/-- Writes of doublewords at places. -/
def writeWords (asid : Nat) : List Place → List Nat → State → State
  | p :: ps, v :: vs, s => writeWords asid ps vs (s.placeWrite asid p (toBytes 8 v))
  | _, _, s => s

/-- The child runs inline: frame, INLDEPTH, and the entry PC (log 46, DEDUCED). -/
def spawnInline (o : LX) (ord : Nat) (jp : Option Place) (s : State) : Except Stop State := do
  let x2 := s.getX 2 - 32
  let ret := s.cx.nextPc
  -- the frame's stores wait for older queued accesses of the same bytes (R187, R250)
  orderWait 0 false [(x2.toNat % 2 ^ 56, 32)] s
  let (s1, ps) ← framePlaces (x2.toNat % 2 ^ 56) [0, 8, 16, 24] s
  let s2 ← countChild (s.getX o.c) jp s1
  let s3 := writeWords s.cx.as ps (frameWords ret (s.getX o.c) o.d ord x2) s2
  return s3.modCx (fun k => ({ (k.setX 2 x2) with inldepth := k.inldepth + 1 }).jump (s.getX o.b))

def execSpawn (o : LX) (s : State) := run (.spawn o) s (attempt fun s => do
  orderWait 0 false [((s.getX o.c).toNat % 2 ^ 56, 8)] s
  let w := (s.getX o.a).toNat
  let (s1, jp) ← joinCheck (s.getX o.c) s
  match placeTarget s1 w false with
  | none => return s1.retX o.d 3
  | some t =>
    if !s1.freeSlot t && s.curCtx == .u && s.cx.inldepth != 255 then spawnInline o (placeOrd w) jp s1
    else
      let s2 ← countChild (s.getX o.c) jp s1
      let asid := s.cx.as
      let (s3, sid) := s2.newStrand asid (fun n =>
        { blankStrand asid n with join := (s.getX o.c).toNat, ord := placeOrd w, origin := s.originOf, lastCore := t })
      let g := newImage (s.getX o.b) asid sid #v[s.getX 4, s.getX 5, s.getX 6, s.getX 7]
      match if s3.freeSlot t then s3.arrive t g else none with
      | some s4 => return s4.retX o.d 0
      | none =>
        match s3.overflow g (s3.siteOf t) g.mask (placeOnly w) (placeClasses w) with
        | .ok s4 => return s4.retX o.d 2
        | .error e => .error (.trapIn (spillTrap e) s1))

/-! ### Parking (R190, R228, R408) -/

/-- The U strand may be parked behind a ready strand of its core's queue (R190, R216, R228): it belongs to no crew and is not being ended. On
a core that a crew's reservation will hold no strand enters, and the park needs a free slot (R296, R408). -/
def State.yields (s : State) : Bool :=
  let k := s.me
  s.curCtx == .u && k.uWork == .strand && ((s.myStrand.bind (·.crew)).isNone) && !s.dyingAt s.cur
    && (oldestReady k.arrival).isSome && (!s.resvAt s.cur || s.freeSlot s.cur)

/-- A wait, or aging, may park the U strand now: it leads no gang, its pending persists are durable, and no entry of the A context acts on its
registers (R118, R224, R227). -/
def State.mayPark (s : State) : Bool := s.yields && s.me.gang == .none && s.persisted s.cur .u && s.me.aQuiet

/-- The U strand takes a slot at the tail, its short matrix entries having completed, and the oldest ready strand enters (R155, R190, R408).
Where the spill area cannot take its optional parts it is not parked (log 9, DESIGN CHOICE). -/
def State.parkU (s : State) (st : ParkState) : State :=
  let s1 := s.interruptLong s.cur
  match s1.park s.cur (s1.imagePark s.cur) st with
  | .ok s2 => s2.leaveU s.cur
  | .error _ => s

/-- A wait that has not ended: the strand parks when it may, else it waits in its context. -/
def waitOrPark (st : ParkState) (s : State) : Except Stop State :=
  .error (.stallIn (if s.mayPark then s.parkU st else s))

/-! ### JOIN, YIELD -/

def execJoin (o : LH) (s : State) := run (.join o) s (attempt fun s => do
  orderWait 0 false [(s.addr o.a, 8)] s
  let va ← checkAddr .load (s.addr o.a : Int) 8
  let (s1, _, w) ← s.loadAt .load .r va 8
  if w % 2 ^ 32 = 0 then return s1.retX o.d (BitVec.ofNat 64 (w / 2 ^ 32))
  else if bitOf o.f.toNat 0 then return s1.retX o.d (BitVec.ofNat 64 (2 ^ 63 + w % 2 ^ 32))
  else waitOrPark (.waitJoin va) s1)

/-- YIELD waits for the persists of a strand that it parks (R118); the gang of a leader disbands as at UNGANG, once its queues are empty (R219;
log 46, DEDUCED). -/
def execYield (s : State) := run .yield s (attempt fun s =>
  let s1 := s.advance
  if !s1.yields then .ok s1
  else if !s.persisted s.cur .u || !s.me.aQuiet then .error .stall
  else match s.me.gang with
    | .leader _ =>
      if s.me.queue.isEmpty && s.me.mq.isEmpty then .ok ((s1.disband s.cur).parkU (.ready s.now)) else .error .stall
    | _ => .ok (s1.parkU (.ready s.now)))

/-! ### EXIT (R188) -/

/-- The waits of step 1: queued entries of both kinds, those that a handler issued on the strand's registers among them (R224), pending tokens, and
pending persists (R118). -/
def endWaits (s : State) : Bool := s.me.queue.isEmpty && s.me.mq.isEmpty && s.cx.pend == 0 && s.persisted s.cur s.curCtx

/-- CBFMT of an inline frame at x2, with the first offending doubleword (R188, R324). -/
def frameTrap (x2 : Word) (i : Nat) : Trap := { cause := .cbfmt, saddr := x2.toNat, sinfo := 7 + i * 16 }

/-- Reads of doublewords at va, each as an ordinary load. -/
def loadWords (va : Nat) : Nat → State → Except Stop (State × List Nat)
  | 0, s => .ok (s, [])
  | n + 1, s => do
    let a ← checkAddr .load (va : Int) 8
    let (s1, _, v) ← s.loadAt .load .r a 8
    let (s2, vs) ← loadWords (va + 8) n s1
    return (s2, v :: vs)

/-- The return of an inline child. A frame whose D is 2 leaves x2 at the frame's end, as the later of the two writes (log 46, DEDUCED). -/
def exitInline (abnormal : Bool) (s : State) : Except Stop State := do
  orderWait 0 true [] s
  let x2 := s.getX 2
  let (s1, d) ← loadWords (x2.toNat % 2 ^ 56) 4 s
  match frameBad x2.toNat d with
  | some i => .error (.trapIn (frameTrap x2 i) s1)
  | none =>
    let w (i : Nat) := d.getD i 0
    let rd : BitVec 5 := BitVec.ofNat 5 (w 2 / 2 ^ 16)
    if s.cx.pend.getLsbD rd.toNat then .error .stall
    let join := BitVec.ofNat 64 (w 1)
    let (s2, _) ← joinCheck join s1
    let s3 := if join = 0 then s2 else s2.joinUpdateAt s.cx.as s.cur (w 1) abnormal (w 2 % 2 ^ 16) s.originOf
    return s3.modCx (fun k => ({ ((k.setX rd 1).setX 2 (x2 + 32)) with inldepth := k.inldepth - 1 }).jump (BitVec.ofNat 64 (w 0)))

/-- The end of the strand in the U context of the current core: its record, crew and join word, then the context (R188). -/
def endStrand (abnormal : Bool) (s : State) : Except Stop State := do
  if !endWaits s then .error .stall
  let join := ((s.myStrand.map (·.join)).getD 0)
  let (s1, _) ← joinCheck (BitVec.ofNat 64 join) s
  let s2 := s1.modStrand s.cx.as s.cx.sid (fun t => { t with lastCore := s.cur })
  let s3 := s2.finishStrand s.cx.as s.cx.sid abnormal
  return (s3.disband s.cur).leaveU s.cur

def execExit (o : LH) (s : State) := run (.exit o) s (attempt fun s =>
  if s.cx.inldepth ≠ 0 then exitInline (bitOf o.f.toNat 0) s else endStrand (bitOf o.f.toNat 0) s)

/-! ### MIGRATE (R191, R216) -/

/-- Cores of a crew's site into which a member may move: their U context is empty. -/
def State.crewTargets (s : State) (site cls : Nat) : List Nat :=
  (s.liveIn cls).filter (fun t => t ≠ s.cur && s.siteOf t == site && s.mayEnter t)

/-- The target of a MIGRATE; for a crew member an empty U context of the crew's site (R216). -/
def migrateTarget (s : State) (w : Nat) : Option Nat :=
  match s.crewSite s.cx.as s.cx.sid with
  | none => placeTarget s w true
  | some site =>
    if !placeShape w true then none
    else if placeMode w = 0 then
      match placeTarget s w true with
      | none => none
      | some t => if t = s.cur || (s.siteOf t == site && s.mayEnter t) then some t else none
    else
      let cands := s.crewTargets site (placeCls w)
      (s.firstRanked s.cur (cands.filter s.freeSlot)).or (s.firstRanked s.cur cands)

def execMigrate (o : LH) (s : State) := run (.migrate o) s (attempt fun s =>
  let w := (s.getX o.a).toNat
  match migrateTarget s w with
  | none => .ok (s.retX o.d 2)
  | some t =>
    let s0 := s.interruptLong s.cur
    let g := (s0.retX o.d 0).imageU s.cur
    if s.me.gang != .none then .ok (s.retX o.d 3)
    else if t = s.cur then .ok (s.retX o.d 1)
    else if !capHolds (s.cls t) g.mask then .ok (s.retX o.d 2)
    else if !s.mayLeave s.cur then .error (.stallIn (s.modCx (fun k => { k with waiting := .leave })))
    else
      let crew := (s.crewSite s.cx.as s.cx.sid).isSome
      if crew || (s.mayEnter t && (oldestReady (s.core t).arrival).isNone) || (s.freeSlot t && !s.heldFor t) then
        .ok (s0.startMove s.cur t g .migrate crew g.mask)
      else match s0.overflow g (s.siteOf t) g.mask (placeOnly w) (placeClasses w) with
        | .ok s1 => .ok (s1.leaveU s.cur)
        | .error e => .error (.trap (spillTrap e)))

/-! ### BAR, CREWINFO, SELF (R192, R193) -/

def execBar (o : LI16) (s : State) := run (.bar o) s (fun s => do
  orderWait 0 true [] s
  let n := o.imm.toNat % 16
  match (s.myStrand.bind (·.crew)).bind s.crew with
  | none => return s.advance
  | some w =>
    let i := w.index s.cx.sid
    let w1 := if w.released.contains (n, i) || w.arrived.contains (n, i) then w
      else ({ w with arrived := w.arrived ++ [(n, i)] } : Crew).settle
    if w1.released.contains (n, i) then
      return (s.modCrew w.id (fun _ => { w1 with released := w1.released.erase (n, i) })).advance
    else .error (.stallIn (s.modCrew w.id (fun _ => w1))))

/-- The core whose U context holds a strand, or is reserved for it while it is held (R193, R328). -/
def State.homeCore (s : State) (asid sid : Nat) : Option Nat :=
  let held := ((s.strand asid sid).bind (·.heldAt)).isSome
  (s.cores.find? (fun p => p.2.u.as == asid && ((p.2.uHolds && p.2.u.sid == sid) || (held && p.2.uWork == .reserved sid)))).map (·.1)

def execCrewinfo (o : LH) (s : State) := run (.crewinfo o) s (fun s =>
  let crew := (s.myStrand.bind (·.crew)).bind s.crew
  let members := (crew.map (·.members)).getD [s.cx.sid]
  if bitOf o.f.toNat 0 then
    let i := (s.getX o.a).toNat % 2 ^ 16
    let core := match members[i]? with
      | some m => if crew.isNone && s.curCtx == .u then some s.cur else s.homeCore s.cx.as m
      | none => none
    .ok (s.retX o.d (match core with | some c => BitVec.ofNat 64 c | none => BitVec.allOnes 64))
  else .ok (s.retX o.d (BitVec.ofNat 64 (members.length * 2 ^ 16 + ((crew.map (fun w => w.index s.cx.sid)).getD 0)))))

/-- The gang size code of SELF. -/
def gangCode (k : Core) : Nat := match k.gang with
  | .leader n => log2Fuel 4 n
  | _ => 0

def execSelf (o : LH) (s : State) := run (.self o) s (fun s =>
  .ok (s.retX o.d (BitVec.ofNat 64 (gangCode s.me * 2 ^ 20 + b2n (s.curCtx == .a) * 2 ^ 19
    + clsCode (s.cls s.cur) * 2 ^ 16 + s.cur % 2 ^ 16))))

end Sys2Proof.Machine
end

