-- ==== Sys2Proof/Machine/Task.lean ====
section
/-! DEFINITION. Meanings of major 3B: ENQT, TDONE, GRUN and CBINV (R197 to R200), and the instantiation of a graph template (R302,
R303), which a KIND 1 job shares. -/

namespace Sys2Proof.Machine

/-! ### ENQT (R197) -/

/-- A cluster is live while it has a live core. -/
def State.clusterLive (s : State) (k : Nat) : Bool := (upTo 16).any (fun i => s.live (16 * k + i))

/-- The status of ENQT, 3 before 2 before 1 (log 43, DEDUCED). -/
def enqtStatus (s : State) (va sel : Nat) : Nat :=
  let k := if sel = 0xFFFF then clusterOf s.cur else sel
  if isLocal va then 3
  else if !s.clusterLive k || s.cls (16 * k) ≠ .tensor then 2
  else if (s.cluster k).tasks.length ≥ 256 then 1
  else 0

/-- A record of a cluster queue entry with wait count 0 goes from pending to ready, now (R292, R297). -/
def State.clusterReady (s : State) (asid va : Nat) : State :=
  match s.recordWait asid va with
  | some (s1, 0) => match s1.casStatus asid va 0 1 with
    | none => s1
    | some s2 => { s2 with clusters := s2.clusters.map (fun p => (p.1, { p.2 with tasks := p.2.tasks.map (fun e =>
        if e.asid = asid ∧ e.record = va then { e with since := some s2.now } else e) })) }
  | some (s1, _) => s1
  | none => s

def execEnqt (o : LH) (s : State) := run (.enqt o) s (attempt fun s => do
  orderWait 0 true [] s
  let va := s.addr o.a
  if va % 64 ≠ 0 then .error (.trap { cause := .align, saddr := va, sinfo := 6 })
  let sel := (s.getX o.b).toNat % 2 ^ 16
  let st := enqtStatus s va sel
  if st ≠ 0 then return s.retX o.d (BitVec.ofNat 64 st)
  else
    let k := if sel = 0xFFFF then clusterOf s.cur else sel
    let s1 := s.modCluster k (fun q => { q with tasks := q.tasks ++ [{ asid := s.cx.as, record := va, origin := s.originOf }] })
    return (s1.clusterReady s.cx.as va).retX o.d 0)

/-! ### TDONE (R198) -/

def execTdone (o : LH) (s : State) := run (.tdone o) s (attempt fun s => do
  orderWait 0 true [] s
  let va := s.addr o.a
  if va % 64 ≠ 0 then .error (.trap { cause := .align, saddr := va, sinfo := AKind.atomic.code * 16 + 6 })
  let (s1, _, v) ← s.loadAt .atomic .rw (va + 0x18) 8
  if v % 256 ≠ 2 then return s1.retX o.d (BitVec.allOnes 64)
  else match s1.completeRecord s.cx.as va s.originOf (bitOf o.f.toNat 0) with
    | none => return s1.retX o.d (BitVec.allOnes 64)
    | some (s2, n) => return s2.retX o.d (BitVec.ofNat 64 n))

/-! ### Graph templates (R302, R303) -/

/-- A malformed template or patch list (R199, R324): the VA that SADDR holds, and the doubleword index from there. -/
structure BadBlock where
  va : Nat
  index : Nat
deriving DecidableEq, Repr

/-- A template as read at instantiation. -/
structure Template where
  serial : Bool
  n : Nat
  len : Nat
  sink : Nat
  storage : Nat
  slots : Nat
  area : List Nat

/-- The header's first doubleword that breaks R302. -/
def badHeader (h : List Nat) : Option Nat :=
  let g (i : Nat) := h.getD i 0
  let n := bitsOf (g 0) 16 16
  let ok : List (Nat × Bool) :=
    [(0, g 0 < 2 ^ 33 && g 0 % 2 ^ 16 == 1 && 1 ≤ n && n ≤ 4096), (1, g 1 % 64 == 0 && 64 * n ≤ g 1 && g 1 < 2 ^ 56),
     (2, g 2 < n && g 2 < 2 ^ 16), (3, g 3 % 64 == 0), (4, 1 ≤ g 4 && g 4 ≤ 4096), (5, g 5 == 0), (6, g 6 == 0), (7, g 7 == 0)]
  (ok.find? (fun p => !p.2)).map (·.1)

/-- Doubleword offsets, in doublewords of the area, of the dependents array of record i. -/
def depSlots (area : List Nat) (i : Nat) : List Nat :=
  let off := area.getD (8 * i + 2) 0
  let cnt := area.getD (8 * i + 3) 0 / 2 ^ 32
  (upTo cnt).map (fun k => off / 8 + k)

/-- The first doubleword of record i, counted from the template, that breaks R302: its dependents pointer, its status, or one of its
indices. -/
def badRecord (area : List Nat) (n len i : Nat) : Option Nat :=
  let off := area.getD (8 * i + 2) 0
  let w3 := area.getD (8 * i + 3) 0
  let cnt := w3 / 2 ^ 32
  if cnt ≠ 0 && (off % 8 ≠ 0 || off < 64 * n || off + 8 * cnt > len) then some (8 + 8 * i + 2)
  else if w3 % 256 ≠ 0 then some (8 + 8 * i + 3)
  else ((depSlots area i).find? (fun k => area.getD k 0 ≥ n)).map (8 + ·)

/-- What a reading that is blocked gives. -/
def Template.unread : Template := { serial := false, n := 0, len := 0, sink := 0, storage := 0, slots := 0, area := [] }

/-- The template at va, checked whole. -/
def State.readTemplate (s : State) (asid va : Nat) : Except BadBlock (State × Template) :=
  if va % 64 ≠ 0 then .error ⟨va, 0⟩
  else match s.devReads asid va 8 with
    | none => .error ⟨va, 0⟩
    | some (s1, h) =>
      if s1.blocked then .ok (s1, .unread)
      else match badHeader h with
      | some i => .error ⟨va, i⟩
      | none =>
        let g (i : Nat) := h.getD i 0
        let n := bitsOf (g 0) 16 16
        match s1.devReads asid (va + 64) (g 1 / 8) with
        | none => .error ⟨va, 8⟩
        | some (s2, area) =>
          if s2.blocked then .ok (s2, .unread)
          else match (upTo n).findSome? (badRecord area n (g 1)) with
          | some i => .error ⟨va, i⟩
          | none => .ok (s2, { serial := bitOf (g 0) 32, n, len := g 1, sink := g 2, storage := g 3, slots := g 4, area })

/-- The pairs of a patch list, checked whole (R199). -/
def State.readPatches (s : State) (asid va len : Nat) : Except BadBlock (State × List (Nat × Nat)) :=
  if va = 0 then .ok (s, [])
  else if va % 8 ≠ 0 then .error ⟨va, 0⟩
  else match s.devRead asid va 8 with
    | none => .error ⟨va, 0⟩
    | some (s1, n) =>
      if n > 4096 then .error ⟨va, 0⟩
      else match s1.devReads asid (va + 8) (2 * n) with
        | none => .error ⟨va + 8, 0⟩
        | some (s2, d) =>
          match (upTo n).find? (fun i => d.getD (2 * i) 0 % 8 ≠ 0 || d.getD (2 * i) 0 ≥ len) with
          | some i => .error ⟨va + 8 + 16 * i, 0⟩
          | none => .ok (s2, (upTo n).map (fun i => (d.getD (2 * i) 0, d.getD (2 * i + 1) 0)))

def Template.slotBytes (t : Template) : Nat := (64 + t.len + 63) / 64 * 64

/-- The lowest run slot whose first doubleword is 0 (R302). -/
def State.freeRunSlot (s : State) (asid : Nat) : List Nat → State × Option Nat
  | [] => (s, none)
  | a :: rest => match s.devRead asid a 8 with
    | some (s1, 0) => (s1, some a)
    | some (s1, _) => s1.freeRunSlot asid rest
    | none => s.freeRunSlot asid rest

/-- The addresses of a template's run slots. -/
def Template.slotVas (t : Template) : List Nat := (upTo t.slots).map (fun j => t.storage + j * t.slotBytes)

/-- The area with pointers and indices made absolute (R303 step 4). -/
def Template.copied (t : Template) (base : Nat) : List Nat :=
  let idx := (upTo t.n).flatMap (depSlots t.area)
  let ptrs := (upTo t.n).map (fun i => 8 * i + 2)
  let out := (upTo (t.len / 8)).zip t.area
  out.map (fun (k, v) => if ptrs.contains k then (v + base) % 2 ^ 64 else if idx.contains k then base + 64 * v else v)

/-- Steps 2 to 6 of R303 on a checked template and patch list: handle 0 when no slot is free. -/
def State.makeRun (s : State) (asid va origin : Nat) (t : Template) (patches : List (Nat × Nat)) : State × Nat :=
  match s.freeRunSlot asid t.slotVas with
  | (s, none) => (s, 0)
  | (s, some h) =>
    let prev := if t.serial then (s.runs.reverse.find? (fun r => r.asid == asid && r.template == va)) else none
    let base := h + 64
    let s1 := s.devWrites asid h [h, t.n, va, (prev.map (·.handle)).getD 0, 0, 0, 0, 0]
    let s2 := s1.devWrites asid base (t.copied base)
    let s3 := patches.foldl (fun (u : State) p => u.devWrites asid (base + p.1) [p.2]) s2
    let (id, s4) := s3.freshId
    let r : Run := { id, asid, template := va, handle := h, n := t.n, origin, sink := t.sink, serial := prev.map (·.id),
                     released := false, sinkEnd := 0, left := t.n, bad := false }
    -- of the ended runs of a template only the last is of use, to a SERIAL run that follows
    let s5 := { s4 with runs := s4.runs.filter (fun o =>
      !(o.asid == asid && (o.handle == h && o.left ≠ 0 || o.template == va && o.left == 0))) ++ [r] }
    match prev with
    | none => (s5.releaseRun r, h)
    | some p =>
      if p.sinkEnd = 0 then (s5, h)
      else if p.sinkEnd = 3 then (s5.releaseRun r, h)
      else (s5.cancelWalk asid walkFuel (runRecords [r]), h)

/-- GRUN's instantiation: the checks of R199 first, nothing done when one fails. -/
def State.instantiate (s : State) (asid va patch origin : Nat) : Except BadBlock (State × Nat) :=
  match s.readTemplate asid va with
  | .error e => .error e
  | .ok (s1, t) =>
    match s1.readPatches asid patch t.len with
    | .error e => .error e
    | .ok (s2, ps) => .ok (s2.makeRun asid va origin t ps)

/-- Every granule of a range passes the checks of R106 for the strand's own access. -/
def touch (need : Need) : Nat → Nat → Nat → State → Except Stop State
  | 0, _, _, s => .ok s
  | fuel + 1, va, n, s =>
    if n = 0 then .ok s
    else do
      let a ← checkRange (if need == .r then .load else .store) (va : Int)
      let (s1, _) ← s.access (s.who (if need == .r then .load else .store) need) a 1
      touch need fuel (va + min n (0x1_0000 - va % 0x1_0000)) (n - min n (0x1_0000 - va % 0x1_0000)) s1

def cbfmtTrap (kind : Nat) (b : BadBlock) : Trap := { cause := .cbfmt, saddr := b.va, sinfo := kind + b.index % 2 ^ 12 * 16 }

/-- The page checks of GRUN's reads and writes, as far as the header and the list say what they are. -/
def grunTouch (va patch : Nat) (s : State) : Except Stop State := do
  let s1 ← touch .r 2 va 64 s
  match s1.devReads s.cx.as va 8 with
  | none => return s1
  | some (_, h) =>
    if (badHeader h).isSome then return s1
    else
      let len := h.getD 1 0
      let s2 ← touch .r (len / 0x1_0000 + 2) (va + 64) len s1
      if patch = 0 then return s2
      else
        let s3 ← touch .r 2 patch 8 s2
        match s3.devRead s.cx.as patch 8 with
        | none => return s3
        | some (_, n) => if n > 4096 then return s3 else touch .r (n + 2) (patch + 8) (16 * n) s3

/-- The page checks of the run slots from slot 0 on, up to the lowest free one, which is written whole. -/
def claimTouch (t : Template) : List Nat → State → Except Stop State
  | [], s => .ok s
  | a :: rest, s => do
    let s1 ← touch .rw 2 a 8 s
    match s1.devRead s.cx.as a 8 with
    | some (_, 0) => touch .w (t.slotBytes / 0x1_0000 + 2) a t.slotBytes s1
    | _ => claimTouch t rest s1

def execGrun (o : LH) (s : State) := run (.grun o) s (attempt fun s => do
  orderWait 0 true [] s
  let va := s.addr o.a
  let patch := s.addr o.b
  let asid := s.cx.as
  if va % 64 ≠ 0 then .error (.trap (cbfmtTrap 4 ⟨va, 0⟩))
  if patch % 8 ≠ 0 then .error (.trap (cbfmtTrap 4 ⟨patch, 0⟩))
  let s1 ← grunTouch va patch s
  match s1.readTemplate asid va with
  | .error b => .error (.trapIn (cbfmtTrap 4 b) s1)
  | .ok (s2, t) =>
    match s2.readPatches asid patch t.len with
    | .error b => .error (.trapIn (cbfmtTrap 4 b) s2)
    | .ok (s3, ps) =>
      let s4 ← claimTouch t t.slotVas s3
      let (s5, h) := s4.makeRun asid va s.originOf t ps
      return s5.retX o.d (BitVec.ofNat 64 h))

/-! ### CBINV (R200, R304) -/

/-- A range operand: none for length 0, ADDROVF past 2^56 (R200, R207, R324). -/
def rangeOperand (s : State) (a b : BitVec 5) : Except Stop (Option (Nat × Nat)) :=
  let lo := s.addr a
  let n := (s.getX b).toNat
  if n = 0 then .ok none
  else if lo + n > 2 ^ 56 then .error (.trap { cause := .addrovf, saddr := lo })
  else .ok (some (lo, lo + n))

/-- CBINV: every earlier access has performed; the model's device reads a control block at its use and keeps no copy to remove (log 48, DEDUCED). -/
def execCbinv (o : LH) (s : State) := run (.cbinv o) s (fun s => do
  orderWait 0 true [] s
  let _ ← rangeOperand s o.a o.b
  return s.advance)

end Sys2Proof.Machine
end

