-- ==== Sys2Proof/Machine/System.lean ====
section
/-! DEFINITION. Meanings of major 3C: SYSC, SRET, WAIT, XINV, OPREQ, PREEMPT and CTXSTREAM (R201 to R209, R305, R327, R353, R354). -/

namespace Sys2Proof.Machine

/-! ### The syscall ring (R201, R305, R353, R354) -/

/-- VA of the slot of a ring position. -/
def Space.sysSlot (sp : Space) (p : Nat) : Nat := sp.sysVa + 64 + p % max 1 sp.sysSlots * 64

/-- The place of a ring slot, for the device. -/
def State.sysPlace (s : State) (sp : Space) (p : Nat) : Except Stop (State × Place) := s.translate (deviceWho sp.asid s.cur .rw) (sp.sysSlot p)

/-- Who reaches a slot for a SYSC: the issuing context, which waits on a host page as at a store of its own, and meets the page's traps (R318;
log 71, DESIGN CHOICE). -/
def State.sysWho (s : State) : Who := { s.who .store .rw with priv := true }

/-- The slot of position p is free: it holds that position, and the last request there has been read (R354). -/
def State.sysFree (s : State) (sp : Space) (p : Nat) (pl : Place) : Bool :=
  !s.placePoisoned sp.asid pl 8 && s.placeRead sp.asid pl 8 == p
    && !s.sysReqs.any (fun r => r.asid == sp.asid && r.pos + sp.sysSlots == p)

/-- How many positions from p on are free, of `n` at most. -/
def State.sysFreeRun (s : State) (sp : Space) (w : Who) : Nat → Nat → Except Stop (State × Nat)
  | 0, _ => .ok (s, 0)
  | n + 1, p => do
    let (s1, pl) ← s.translate w (sp.sysSlot p)
    if s1.sysFree sp p pl then
      let (s2, k) ← s1.sysFreeRun sp w n (p + 1)
      return (s2, k + 1)
    else return (s1, 0)

/-- A strand waits for ring space, behind those that already do (R201, R305): parked when a slot or a ready strand lets it, else in its context
(R216, R226, R408). -/
def waitRing (s : State) : State :=
  let k := s.me
  let may := k.uWork == .strand && k.gang == .none && !s.dyingAt s.cur && (s.myStrand.bind (·.crew)).isNone && s.persisted s.cur .u
    && k.aQuiet && (s.freeSlot s.cur || ((oldestReady k.arrival).isSome && !s.resvAt s.cur))
  let order := ((s.space s.cx.as).map (·.sysWait)).getD []
  let queued := if order.contains s.cx.sid then order else order ++ [s.cx.sid]
  (if may then s.parkU .waitRing else s).modSpace s.cx.as (fun p => { p with sysWait := queued })

/-- TIME counts of 1 µs. -/
def oneUs : Nat := 100

/-- The message that tells the host (R354): MSI-X, when the ring enables it; requests within 1 µs of one share it. -/
def State.ringMsix (s : State) (sp : Space) : State :=
  match sp.msix with
  | none => s
  | some v =>
    if (sp.msixAt.map (fun t => decide (s.now < t + oneUs))).getD false then s
    else
      let s1 := s.modSpace sp.asid (fun p => { p with msixAt := some s.now })
      { s1 with mgmt := { s1.mgmt with msix := s1.mgmt.msix ++ [(sp.sysPort, v)] } }

/-- A request issued at the next ring position (R201, R354). -/
def issueSysc (sp : Space) (o : LH) (pl : Place) (s : State) : State :=
  let body := [(s.getX o.a).toNat % 2 ^ 31, s.cx.strandId.toNat, s.cur % 2 ^ 16 * 2 ^ 16 + s.cx.as,
               (s.getX 4).toNat, (s.getX 5).toNat, (s.getX 6).toNat, (s.getX 7).toNat]
  let s1 := s.placeWrite sp.asid pl (((sp.sysPos + 1) :: body).flatMap (toBytes 8))
  let s2 := (s1.modSpace sp.asid (fun p => { p with sysPos := p.sysPos + 1 })).ringMsix sp
  let q : SysReq := { asid := sp.asid, pos := sp.sysPos, sid := s.cx.sid, reg := o.d.toNat, cancelled := false }
  (({ s2 with sysReqs := s2.sysReqs ++ [q] }).setPending o.d).advance

def execSysc (o : LH) (s : State) := run (.sysc o) s (attempt fun s => do
  let w := (s.getX o.a).toNat % 2 ^ 32
  let ring := (s.space s.cx.as).filter (fun p => p.sysVa ≠ 0)
  match ring with
  | none => .error (.trap { cause := .sysc, sinfo := w + 2 ^ 32, sepc := some s.cx.nextPc })
  | some sp =>
    if bitOf w 31 then .error (.trap { cause := .sysc, sinfo := w, sepc := some s.cx.nextPc })
    else match tokenCheck s o.d with
      | some e => .error e
      | none =>
        if s.cx.pend.getLsbD o.d.toNat then .error .stall
        orderWait 0 true [] s
        let granted := sp.sysGrant.head? == some s.cx.sid
        let need := if granted then 1 else sp.sysGrant.length + 1
        let (s1, pl) ← s.translate s.sysWho (sp.sysSlot sp.sysPos)
        let (s2, free) ← s1.sysFreeRun sp s.sysWho need sp.sysPos
        if free = need && (granted || sp.sysWait.isEmpty) then return issueSysc sp o pl (s2.leaveRing s.cx.as s.cx.sid)
        else .error (.stallIn (if sp.sysGrant.contains s.cx.sid then s2 else waitRing s2)))

/-- SYSC_RING_RETRY: of the strands that wait, those that have waited longest are each given one of the positions that have become free, and
are retried (R305). -/
def syscRingRetry (asid : Nat) (s : State) : State := s.attempt fun s =>
  match s.space asid with
  | none => s
  | some sp =>
    if sp.sysWait.isEmpty then s
    else match s.sysFreeRun sp (deviceWho sp.asid s.cur .rw) (sp.sysGrant.length + sp.sysWait.length) sp.sysPos with
      | .error x => (x.waits s).getD (x.left s)
      | .ok (s1, free) =>
        let next := sp.sysWait.take (free - sp.sysGrant.length)
        if next.isEmpty then s1
        else
          let s2 := s1.modSpace asid (fun p => { p with sysWait := p.sysWait.drop next.length, sysGrant := p.sysGrant ++ next })
          let s3 := s2.mapCores (fun k => { k with arrival := k.arrival.map (fun q =>
            if q.img.ctx.as = asid ∧ next.contains q.img.ctx.sid ∧ q.state = .waitRing then { q with state := .ready s.now } else q) })
          (s.cores.map (·.1)).foldl (fun t c => t.nextU c) s3

def execSyscRingRetry (asid : Nat) (s : State) : Host.Outcome State Fault Refusal := .next (syscRingRetry asid s)

/-- SYSC_RESULT: the host has freed the slot of a position; its result reaches the token, or is discarded after a kill (R354). -/
def syscResult (asid pos : Nat) (s : State) : State :=
  match s.space asid, s.sysReqs.find? (fun r => r.asid == asid && r.pos == pos) with
  | some sp, some r =>
    match s.sysPlace sp pos with
    | .error x => (x.waits s).getD (x.left s)
    | .ok (s1, pl) =>
      if s1.placePoisoned asid pl 16 || s1.placeRead asid pl 8 ≠ pos + sp.sysSlots then s
      else
        let v := BitVec.ofNat 64 (s1.placeRead asid { pl with key := pl.key + 8 } 8)
        let s2 := { s1 with sysReqs := s1.sysReqs.filter (fun q => !(q.asid == asid && q.pos == pos)) }
        if r.cancelled then s2 else s2.deliver 0 asid r.sid .u r.reg v false
  | _, _ => s

def execSyscResult (asid pos : Nat) (s : State) : Host.Outcome State Fault Refusal := .next (syscResult asid pos s)

/-! ### SRET (R206) -/

def execSret (o : LN) (s : State) := run (.sret o) s (attempt fun s =>
  let p := bitsOf s.me.sstatus.toNat 1 2
  if p ≥ 2 then .error (.trap (illins (.sret o) 11))
  else match s.curCtx with
    | .u => .ok (s.modCx (fun k => ({ k with priv := p == 1 }).jump s.me.sepc))
    | .a =>
      if !(s.me.queue.all (fun e => e.ctx != .a) && s.me.mq.all (fun e => e.ctx != .a)) then .error .stall
      else .ok (serviceReturn s s.cur (bitOf o.d.toNat 0)))

/-! ### WAIT (R202) -/

def execWait (o : LH) (s : State) := run (.wait o) s (attempt fun s => do
  orderWait 0 false [(s.addr o.a, 8)] s
  let va ← checkAddr .load (s.addr o.a : Int) 8
  let (s1, _, v) ← s.loadAt .load .r va 8
  let t := o.f.toNat % 32
  let limit : Option Nat := s.cx.deadline.or (if t = 0 then none else some (s.now + 2 ^ t))
  let late := (limit.map (fun d => decide (s.now ≥ d))).getD false
  if v ≠ (s.getX o.b).toNat || late then return s1.retX o.d (BitVec.ofNat 64 v)
  else
    let s2 := s1.modCx (fun k => { k with waiting := .no, deadline := limit })
    waitOrPark (.waitWord va (s.getX o.b).toNat) s2)

/-! ### XINV, OPREQ (R203, R207) -/

def execXinv (o : LH) (s : State) := run (.xinv o) s (fun s => do
  match ← rangeOperand s o.a o.b with
  | none => return s.advance
  | some (lo, hi) =>
    if isLocal lo then return s.advance
    else if s.rangePinned s.cx.as lo hi || s.rangeMoving s.cx.as lo hi then .error .stall
    else return (s.dropRange s.cx.as lo hi).advance)

def execOpreq (o : LI16) (s : State) := run (.opreq o) s (fun s =>
  .ok (s.modCore s.cur (fun k => { k with opreq := o.imm.setWidth 3 })).advance)

/-! ### PREEMPT, CTXSTREAM (R208, R209, R327) -/

/-- The strand that a request at a core is directed at (R327): the U occupant, or the held crew member that the U context is
reserved for. -/
inductive Aim where
  | none
  | live
  | held (sid : Nat)
  /-- The strand is being streamed away. -/
  | leaving
deriving DecidableEq, Repr

def State.aim (s : State) (c : Nat) : Aim :=
  let k := s.core c
  match k.uWork with
  | .empty => .none
  | .strand => .live
  | .heldInRegs => .held k.u.sid
  | .reserved sid => if ((s.strand k.u.as sid).bind (·.heldAt)).isSome then .held sid else .leaving

/-- Statuses 1 to 3 of PREEMPT (log 43, DEDUCED). -/
def preemptStatus (s : State) (c : Nat) : Nat :=
  if !s.live c then 3
  else if s.aim c = .none then 1
  else if (s.core c).u.as ≠ s.cx.as then 2
  else 0

/-- A request on a held strand (R327): it goes to the overflow list at its SRET, and the whole crew of a member is stopped (R216). -/
def State.stopHeld (s : State) (asid sid info : Nat) : Except SpillErr State :=
  let s1 := s.modStrand asid sid (fun t => { t with preempted := true })
  match s.crewOf asid sid with
  | some w => s1.stopCrew w sid info 0
  | none => .ok s1

/-- Where a strand stands that a request is directed at. -/
inductive Whereabouts where
  | live (core : Nat)
  | held
  | moving
  /-- Parked, or on an overflow list: it has been stopped already. -/
  | away
  | ended
deriving DecidableEq, Repr

def State.whereIs (s : State) (asid sid : Nat) : Whereabouts :=
  match s.residentAt asid sid with
  | some c => .live c
  | none =>
    if s.moves.any (fun m => m.img.ctx.as == asid && m.img.ctx.sid == sid) then .moving
    else match s.strand asid sid with
      | none => .ended
      | some t => if t.heldAt.isSome || s.keptInRegs asid sid || (s.keptImage asid sid).isSome then .held else .away

/-- The strand that a request at core c is directed at (R327). -/
def State.aimSid (s : State) (c : Nat) : Nat := match (s.core c).uWork with
  | .reserved sid => sid
  | _ => (s.core c).u.sid

/-- The request waits for the strand to be stopped, in the order of arrival (R326). -/
def State.askStop (s : State) (c asid sid n : Nat) : State :=
  if n < s.nextId then s
  else { s.modCx (fun k => { k with waiting := .stop c asid sid n }) with nextId := s.nextId + 1 }

/-- The strand, core and number of a request that is being met again, or of one that arrives now. -/
def State.request? (s : State) (c : Nat) : Nat × Nat × Nat × Nat := match s.cx.waiting with
  | .stop c asid sid n => (c, asid, sid, n)
  | _ => (c, (s.core c).u.as, s.aimSid c, s.nextId)

/-- PREEMPT acts on its strand when no earlier request is due and it may be stopped (R208, R327; log 65, DESIGN CHOICE for a strand that has left the
core meanwhile). -/
def preemptAct (o : LH) (s : State) (c asid sid n : Nat) : Except Stop State :=
  let wait : Except Stop State := .error (.stallIn (s.askStop c asid sid n))
  let answer (r : Except SpillErr State) (mine : Bool) : Except Stop State :=
    match r with
    | .ok s1 => .ok (if mine then s1 else s1.retX o.d 0)
    | .error e => .error (.trap (spillTrap e))
  if s.askedBefore asid sid n then wait
  else match s.whereIs asid sid with
    | .live q =>
      if !s.stopReady q then wait
      else if q = s.cur && s.curCtx == .u then answer ((s.retX o.d 0).stopU q s.cur) true
      else answer (s.stopU q s.cur) false
    | .held => if ((s.crewOf asid sid).map s.crewReady).getD true then answer (s.stopHeld asid sid s.cur) false else wait
    | .moving => wait
    | .away => .ok (s.retX o.d 0)
    | .ended => .ok (s.retX o.d 1)

def execPreempt (o : LH) (s : State) := run (.preempt o) s (attempt fun s =>
  let (c, asid, sid, n) := s.request? ((s.getX o.a).toNat % 2 ^ 16)
  let st := if n < s.nextId then 0 else preemptStatus s c
  if st ≠ 0 then .ok (s.retX o.d (BitVec.ofNat 64 st)) else preemptAct o s c asid sid n)

/-- The target can take a strand: its empty U context, or for one that is no crew member a free slot. -/
def State.canLand (s : State) (t : Nat) (crew : Bool) : Bool :=
  (s.mayEnter t && (crew || (oldestReady (s.core t).arrival).isNone)) || (!crew && s.freeSlot t && !s.heldFor t)

/-- The needed mask of a strand aimed at. -/
def State.aimMask (s : State) (a : Nat) : Aim → Nat
  | .held sid => match (s.strand (s.core a).u.as sid).bind (·.heldAt) with
    | some va => match s.devRead (s.core a).u.as va 8 with
      | some (_, f) => (if bitsOf f 16 3 ≠ 0 then 0x10 else 0) ||| (if bitsOf f 19 4 ≠ 0 then 0x40 else 0)
      | none => 0
    | none => (s.imageU a).mask
  | _ => (s.imageU a).mask

/-- The image of a held strand at core a is within reach. -/
def State.touchAim (s : State) (a : Nat) : State := match s.aim a with
  | .held sid => match (s.strand (s.core a).u.as sid).bind (·.heldAt) with
    | some va => s.devTouch (s.core a).u.as va
    | none => s
  | _ => s

/-- Statuses 1 to 5 of CTXSTREAM from core a to core b (log 43, DEDUCED). -/
def streamStatus (s : State) (a b : Nat) : Nat :=
  if !s.live a || !s.live b then 3
  else if s.aim a = .none then 1
  else if (s.core a).u.as ≠ s.cx.as then 2
  else
    let sid := match s.aim a with | .held n => n | _ => (s.core a).u.sid
    let site := s.crewSite s.cx.as sid
    if (site.map (fun t => decide (s.siteOf b ≠ t))).getD false then 3
    else if !capHolds (s.cls b) (s.aimMask a (s.aim a)) then 4
    else if !s.canLand b (site.isSome || (s.core a).uWork == .heldInRegs) then 5
    else 0

/-- FWDCFG of core a names core b for an address space, as a CTXSTREAM writes it (R209, R327). -/
def State.fwdTo (s : State) (a asid b : Nat) : State := s.modCore a (fun k => { k with fwdcfg := fwdWord asid b })

/-- The held strand of core a and its pending service entry move to core b (R327): the U context that is reserved for it, or holds it in its
registers, becomes free at a and is taken at b. -/
def State.moveHeld (s : State) (a b asid sid : Nat) : State :=
  let mine (e : SvcEntry) : Bool := e.held && e.asid == asid && e.sid == sid
  let k := s.core a
  let es := k.entries.filter mine
  let regs := k.uWork == .heldInRegs && k.u.as == asid && k.u.sid == sid
  let reserved := k.uWork == .reserved sid && k.u.as == asid
  let g := s.imageU a
  let s1 := s.modCore a (fun k => { k with entries := k.entries.filter (fun e => !mine e) })
  let s2 := s1.modCore b (fun k => { k with entries := k.entries ++ es })
  let s3 := s2.modStrand asid sid (fun t => { t with lastCore := b })
  let left := (s3.modCore a (fun k => { k with uWork := .empty })).leaveU a
  if regs then (left.enterU b g).modCore b (fun k => { k with uWork := .heldInRegs })
  else if reserved then left.reserveFor b asid sid
  else s3

/-- The held strand may move: its crew may be stopped, its messages find room, and core b has the U context that it needs. -/
def State.heldMayMove (s : State) (a b asid sid : Nat) : Bool :=
  let k := s.core a
  let keeps := (k.uWork == .reserved sid || (k.uWork == .heldInRegs && k.u.sid == sid)) && k.u.as == asid
  ((s.crewOf asid sid).map s.crewReady).getD true && (!keeps || (s.mailFits a (fwdWord asid b) && s.canLand b true))

/-- Barrier arrivals of the crew of a strand are discarded (R192, R216). -/
def State.dropArrivals (s : State) (asid sid : Nat) : State :=
  match (s.strand asid sid).bind (·.crew) with
  | some id => s.modCrew id (fun w => { w with arrived := [] })
  | none => s

/-- The live strand of core a starts for core b: its number as a move, none for a gang leader, which is held with GANGBRK and whose
held image moves (R219, R327) (log 45, DEDUCED). -/
def State.beginStream (s : State) (a b info : Nat) : State × Option Nat :=
  let s1 := s.interruptLong a
  let asid := (s1.core a).u.as
  let sid := (s1.core a).u.sid
  let s1 := s1.dropArrivals asid sid
  match (s1.core a).gang with
  | .leader n =>
    let s2 := (s1.fwdTo a asid b).holdGang a n info
    ((s2.modStrand asid sid (fun x => { x with preempted := false })).moveHeld a b asid sid, none)
  | _ =>
    let g := s1.stoppedImage a { cause := .preempt, sinfo := info }
    (s1.startMove a b g .stream (s1.crewSite asid sid).isSome g.mask, some s1.nextId)

/-- CTXSTREAM acts on its strand when no earlier request is due and it may be stopped (R209, R327). -/
def streamAct (o : LH) (s : State) (b c asid sid n : Nat) : Except Stop State :=
  let wait : Except Stop State := .error (.stallIn (s.askStop c asid sid n))
  if s.askedBefore asid sid n then wait
  else match s.whereIs asid sid with
    | .live q =>
      if !s.stopReady q || ((s.core q).gang != .none && !s.mailFits q (fwdWord asid b)) then wait
      else if q = s.cur && s.curCtx == .u then .ok (((s.retX o.d 0).beginStream q b s.cur).1)
      else match s.beginStream q b s.cur with
        | (s1, some id) => .error (.stallIn (s1.modCx (fun k => { k with waiting := .move id })))
        | (s1, none) => .ok (s1.retX o.d 0)
    | .held =>
      let a := (s.reservedAt asid sid).getD c
      if !s.heldMayMove a b asid sid then wait
      else .ok ((((s.fwdTo a asid b).dropArrivals asid sid).moveHeld a b asid sid).retX o.d 0)
    | .moving => wait
    | .away => .ok (s.retX o.d 0)
    | .ended => .ok (s.retX o.d 1)

def execCtxstream (o : LH) (s : State) := run (.ctxstream o) s (attempt fun s =>
  let b := (s.getX o.b).toNat % 2 ^ 16
  match s.cx.waiting with
  | .move id => if s.moves.any (fun m => m.id == id) then .error .stall else .ok (s.retX o.d 0)
  | _ =>
    let (c, asid, sid, n) := s.request? ((s.getX o.a).toNat % 2 ^ 16)
    let s := s.touchAim c
    let st := if n < s.nextId then 0 else streamStatus s c b
    if st ≠ 0 then .ok (s.retX o.d (BitVec.ofNat 64 st)) else streamAct o s b c asid sid n)

end Sys2Proof.Machine
end

