-- ==== Sys2Proof/Machine/ScalarFp.lean ====
section
/-! DEFINITION. Meanings of the scalar floating-point instructions (R100 to R104). -/

namespace Sys2Proof.Machine

/-- The operand of a format in the low bits of x[r] (R100). -/
def State.getF (s : State) (r : BitVec 5) (fc : Nat) : Nat := (s.getX r).toNat % 2 ^ fmtWidth fc

/-- A rounded two-operand operation (R101). -/
def fpArith (i : Instr) (op : FOp) (o : LH) (s : State) : Except Stop State := do
  let fc := scalarFc o.f.toNat
  checkMode i (takesMode fc) s.frm
  return s.retF o.d fc (arith op fc (s.getF o.a fc) (s.getF o.b fc) false s.frm)

def execFadd (o : LH) (s : State) := run (.fadd o) s (fpArith (.fadd o) .add o)
def execFsub (o : LH) (s : State) := run (.fsub o) s (fpArith (.fsub o) .sub o)
def execFmul (o : LH) (s : State) := run (.fmul o) s (fpArith (.fmul o) .mul o)
def execFdiv (o : LH) (s : State) := run (.fdiv o) s (fpArith (.fdiv o) .div o)

def execFsqrt (o : LH) (s : State) := run (.fsqrt o) s (fun s => do
  let fc := scalarFc o.f.toNat
  checkMode (.fsqrt o) (takesMode fc) s.frm
  return s.retF o.d fc (sqrtCode fc (s.getF o.a fc) false s.frm))

/-- FMIN and FMAX never round (R101). -/
def fpMinMax (mx : Bool) (o : LH) (s : State) : Except Stop State :=
  let fc := scalarFc o.f.toNat
  .ok (s.retF o.d fc (minMaxCode mx fc (s.getF o.a fc) (s.getF o.b fc)))

def execFmin (o : LH) (s : State) := run (.fmin o) s (fpMinMax false o)
def execFmax (o : LH) (s : State) := run (.fmax o) s (fpMinMax true o)

def execFcmp (o : LH) (s : State) := run (.fcmp o) s (fun s =>
  let fc := scalarFc o.f.toNat
  let r := cmpCode (bitsOf o.f.toNat 2 3) fc (s.getF o.a fc) (s.getF o.b fc)
  .ok ((s.orFlags r.2).retX o.d (if r.1 then 1 else 0)))

/-- FMA (R102): F[2] negates the product, F[3] the addend. -/
def execFma (o : LW) (s : State) := run (.fma o) s (fun s => do
  let fc := scalarFc o.f.toNat
  checkMode (.fma o) (takesMode fc) s.frm
  return s.retF o.d fc (fmaCode fc (s.getF o.a fc) (s.getF o.b fc) (s.getF o.c fc) (bitOf o.f.toNat 2) (bitOf o.f.toNat 3)
    false s.frm))

/-- The integer range of FC 0 in FCVT (R103). -/
def intLo (uns : Bool) (w : Nat) : Int := if uns then 0 else -(2 ^ (w - 1))
def intHi (uns : Bool) (w : Nat) : Int := if uns then 2 ^ w - 1 else 2 ^ (w - 1) - 1

/-- A format code that FCVT does not convert (R103): the first offending code of source, then target (log 19, DEDUCED). -/
def fcvtBad (src tgt : Nat) : Option Nat :=
  if src ≥ 30 then some src else if tgt ≥ 30 then some tgt else if src = 0 && tgt = 0 then some 0 else none

/-- The rounding of FCVT takes a mode (R41, R54, R103): an IEEE or binary8 target, or an integer one; the same format rounds nothing
(R103; log 20, DEDUCED). -/
def fcvtMode (src tgt : Nat) : Bool := tgt = 0 || (src ≠ tgt && takesMode tgt)

/-- The value of an FCVT (R57, R103). -/
def fcvtValue (x : Word) (src tgt : Nat) (opt : Bool) (rm : Nat) : Flagged Word :=
  if src = 0 then
    let v : Int := if opt then x.toNat else x.toInt
    let r := convertTo (ofInt v) true tgt false rm
    (BitVec.ofNat 64 (extendCode tgt r.1), r.2)
  else if tgt = 0 then
    let r := toInt (decodeFc x.toNat src) (isTapered src) (intLo opt 64) (intHi opt 64) rm
    (BitVec.ofInt 64 r.1, r.2)
  else
    let r := if src = tgt && isTapered src then (x.toNat % 2 ^ fmtWidth src, 0) else convertFc x.toNat src tgt opt rm
    (BitVec.ofNat 64 (extendCode tgt r.1), r.2)

def execFcvt (o : LH) (s : State) := run (.fcvt o) s (fun s => do
  let src := o.f.toNat % 32
  let tgt := o.b.toNat
  match fcvtBad src tgt with
  | some c => .error (.trap (fmtbad (.fcvt o) c 3))
  | none =>
    checkMode (.fcvt o) (fcvtMode src tgt) s.frm
    let r := fcvtValue (s.getX o.a) src tgt (bitOf o.f.toNat 5) s.frm
    return (s.orFlags r.2).retX o.d r.1)

/-- FCLASS (R104): FC 0, 30 and 31 raise FMTBAD. -/
def execFclass (o : LH) (s : State) := run (.fclass o) s (fun s =>
  let fc := o.f.toNat % 32
  if fc = 0 || fc ≥ 30 then .error (.trap (fmtbad (.fclass o) fc 3))
  else .ok (s.retX o.d (BitVec.ofNat 64 (classMask (s.getF o.a fc) fc))))

end Sys2Proof.Machine
end

