-- ==== Sys2Proof/Machine/VecRegs.lean ====
section
/-! DEFINITION. The issue of a vector entry: the room of its queue (R135), what it captures, and the checks that stand at issue (R130 to
R132, R155). -/

namespace Sys2Proof.Machine

/-- A queue holds at most 32 entries that have not completed; the whole image at most 192 slots (R32, R135). -/
def Core.queueFull (k : Core) (i : Instr) : Bool :=
  (k.queue.filter (fun e => !e.done && queueOf e.instr == queueOf i)).length ≥ 32
    || (k.queue.map slotsOf).sum + (if threeOps i then 2 else 1) > 192

/-! ### Issue -/

/-- The x operands an entry captures (R139). -/
structure Captured where
  op1 : Word := 0
  op2 : Word := 0
  op3 : Word := 0
deriving DecidableEq, Repr

/-- The entry joins its queue with what it captures (R95, R132), and the scalar pipe goes on. It waits for room, for an older short
matrix entry that reads a register it writes (R155 rule 2), and, when it makes element accesses, for a pending acquire (R128, R255). -/
def issueEntry (i : Instr) (vl : Nat) (c : Captured) (s : State) : Except Stop State :=
  if s.me.queueFull i || s.me.mq.any (fun e => meets (mqReads e.instr) (entryWrites i)) || ((entryClass i).isSome && s.wreadPending) then .error .stall
  else
    let e : VEntry := { instr := i, pc := s.cx.pc, ctx := s.curCtx, vtype := capturedVtype s.vtype s.frm, vl,
                        lskew := s.me.lskew, slip := s.me.u.slipcfg, op1 := c.op1, op2 := c.op2, op3 := c.op3, done := false, replay := false }
    .ok (s.modCore s.cur (fun k => { k with queue := k.queue ++ [e] })).advance

/-- The checks that every instruction of majors 21 to 29 makes first (R17, R130, R224). -/
def vectorChecks (i : Instr) (s : State) : Except Stop Unit :=
  match vectorAllowed i true s with
  | .error e => .error e
  | .ok () => ewLive i s

/-- The mode that a vector instruction issued now captures, 5 and above being bad (R41, R132). -/
def State.vrm (s : State) : Nat := vrmMode (resolvedVrm (vtVrm s.vtype) s.frm)

/-- FMTBAD unless EF is a floating code (R142, R143). -/
def needFloat (i : Instr) (s : State) : Except Stop Unit :=
  if isFloating (vtEf s.vtype) then .ok () else .error (.trap (fmtbad i (vtEf s.vtype) 1))

/-- ILLINS, reason 3, for a saturate bit with an EF that is not binary8 (R142). -/
def satAllowed (i : Instr) (sat : Bool) (s : State) : Except Stop Unit :=
  if sat && !isB8 (vtEf s.vtype) then .error (.trap (illins i 3)) else .ok ()

end Sys2Proof.Machine
end

