-- ==== Sys2Proof/Machine/VecArith.lean ====
section
/-! DEFINITION. What a vector entry that makes no memory access computes (R58, R60 to R62, R142 to R146), and poison in register
elements (R381). -/

namespace Sys2Proof.Machine

/-! ### Writing elements -/

def Core.vNat (k : Core) (d : Nat) : Nat := (k.v[d % 32]'(Nat.mod_lt _ (by decide))).toNat

/-- The 32-bit elements of a register that a write covers whole lose their poison (R381). -/
def clearElems (ps : List (Nat × Nat × Nat)) (file d w : Nat) (written : Nat → Bool) : List (Nat × Nat × Nat) :=
  ps.filter (fun p => !(p.1 == file && p.2.1 == d &&
    (if w ≥ 32 then written (p.2.2 * 32 / w) else (upTo (32 / max 1 w)).all (fun j => written (p.2.2 * (32 / w) + j)))))

/-- Elements below n of width w of v[d] for which f gives a value are written; the flags are collected. -/
def Core.putElems (k : Core) (d w n : Nat) (f : Nat → Option (Flagged Nat)) : Core × BitVec 5 :=
  let r := (upTo n).foldl (fun (acc : Nat × BitVec 5) i => match f i with
    | some (v, g) => (setBits acc.1 (i * w) w v, acc.2 ||| g)
    | none => acc) (k.vNat d, (0 : BitVec 5))
  ({ k with v := k.v.set (d % 32) (BitVec.ofNat 32768 r.1) (Nat.mod_lt _ (by decide)),
            regPoison := if k.regPoison.isEmpty then [] else clearElems k.regPoison 0 d w (fun i => i < n && (f i).isSome) }, r.2)

/-- Bits below n of m[d] for which f gives a value are written. -/
def Core.putBits (k : Core) (d n : Nat) (f : Nat → Option Bool) : Core :=
  let r := (upTo n).foldl (fun (acc : Nat) i => match f i with
    | some b => setBits acc i 1 (b2n b)
    | none => acc) (k.m[d % 12]'(Nat.mod_lt _ (by decide))).toNat
  { k with m := k.m.set (d % 12) (BitVec.ofNat 4096 r) (Nat.mod_lt _ (by decide)),
           regPoison := if k.regPoison.isEmpty then [] else clearElems k.regPoison 1 d 1 (fun i => i < n && (f i).isSome) }

/-! ### Element operations -/

/-- The integer operations of majors 21 and 22 on two elements of width w (R142). -/
def intElem (w : Nat) : Instr → Option (Nat → Nat → Nat)
  | .vadd _ => some (fun a b => (a + b) % 2 ^ w)
  | .vsub _ => some (fun a b => wrapN w ((a : Int) - b))
  | .vand _ => some (fun a b => a &&& b)
  | .vor _ => some (fun a b => a ||| b)
  | .vxor _ => some (fun a b => a ^^^ b)
  | .vsll _ => some (fun a b => a * 2 ^ (b % w) % 2 ^ w)
  | .vsrl _ => some (fun a b => a / 2 ^ (b % w))
  | .vsra _ => some (fun a b => wrapN w (sInt w a / 2 ^ (b % w)))
  | .vmul _ => some (fun a b => a * b % 2 ^ w)
  | .vmulh o => some (fun a b => match o.f.toNat % 4 with
    | 0 => wrapN w (sInt w a * sInt w b / 2 ^ w)
    | 1 => a * b / 2 ^ w
    | _ => wrapN w (sInt w a * b / 2 ^ w))
  | .vmin o => some (fun a b => if bitOf o.f.toNat 0 then min a b else if sInt w a ≤ sInt w b then a else b)
  | .vmax o => some (fun a b => if bitOf o.f.toNat 0 then max a b else if sInt w a ≥ sInt w b then a else b)
  | .vsadd o => some (fun a b => if bitOf o.f.toNat 0 then (satU w ((a : Int) + b)).toNat
      else wrapN w (satS w (sInt w a + sInt w b)))
  | .vssub o => some (fun a b => if bitOf o.f.toNat 0 then (satU w ((a : Int) - b)).toNat
      else wrapN w (satS w (sInt w a - sInt w b)))
  | _ => none

/-- The floating operations of major 23 on two elements in format ef (R142). -/
def floatElem (ef rm : Nat) : Instr → Option (Nat → Nat → Flagged Nat)
  | .vfadd o => some (fun a b => arith .add ef a b (bitOf o.f.toNat 0) rm)
  | .vfsub o => some (fun a b => arith .sub ef a b (bitOf o.f.toNat 0) rm)
  | .vfmul o => some (fun a b => arith .mul ef a b (bitOf o.f.toNat 0) rm)
  | .vfdiv o => some (fun a b => arith .div ef a b (bitOf o.f.toNat 0) rm)
  | .vfmin _ => some (fun a b => minMaxCode false ef a b)
  | .vfmax _ => some (fun a b => minMaxCode true ef a b)
  | _ => none

/-- VCMP conditions (R81, R142): 0 EQ, 1 NE, 2 LT, 3 LE, 4 LTU, 5 LEU. -/
def intCond (w c a b : Nat) : Bool := match c with
  | 0 => a == b
  | 1 => a != b
  | 2 => sInt w a < sInt w b
  | 3 => sInt w a ≤ sInt w b
  | 4 => a < b
  | _ => a ≤ b

/-- VFCMP conditions (R81, R142): 0 EQ, 1 NE, 2 LT, 3 LE, 4 unordered. -/
def floatCond (ef c a b : Nat) : Bool × BitVec 5 := match c with
  | 0 => cmpCode 0 ef a b
  | 1 => (!(cmpCode 0 ef a b).1, (cmpCode 0 ef a b).2)
  | 2 => cmpCode 1 ef a b
  | 3 => cmpCode 2 ef a b
  | _ => cmpCode 3 ef a b

/-- VFSGN (R143): option 0 b's sign, 1 its inverse, 2 the exclusive or; a tapered zero or NaR is unchanged. -/
def signElem (ef w opt a b : Nat) : Nat :=
  let top := 2 ^ (w - 1)
  let sa := bitOf a (w - 1)
  let sb := bitOf b (w - 1)
  let s := match opt with | 0 => sb | 1 => !sb | _ => sa != sb
  if isTapered ef then
    if a = 0 || a = top then a else if s == sa then a else 2 ^ w - a
  else a % top + (if s then top else 0)

/-- a · 2^sext(b, w) rounded (R143). Scales beyond every format's exponent range give the same result at the bound used here. -/
def scaleElem (ef rm : Nat) (sat : Bool) (w a b : Nat) : Flagged Nat :=
  let k := max (-20000) (min 20000 (sInt w b))
  let (v, f) := scaleVal (decodeFc a ef) k
  let (c, g) := roundFc v ef sat rm
  (c, if isTapered ef then 0 else f ||| g)

/-- VFCVT of one element (R143): F16 as the table gives. -/
def cvtElem (f16 rm a : Nat) : Flagged Nat :=
  let src := f16 % 32
  let tgt := bitsOf f16 5 5
  let iw := 8 * 2 ^ bitsOf f16 10 2
  let uns := bitOf f16 12
  let sat := bitOf f16 13
  if src = 0 then convertTo (ofInt (if uns then (a : Int) else sInt iw a)) true tgt sat rm
  else if tgt = 0 then
    let r := toInt (decodeFc a src) (isTapered src) (intLo uns iw) (intHi uns iw) rm
    (wrapN iw r.1, r.2)
  else if src = tgt && isTapered src then (a, 0)
  else convertFc a src tgt sat rm

/-- Widths of the two sides of VFCVT. -/
def cvtWidth (f16 fc : Nat) : Nat := if fc = 0 then 8 * 2 ^ bitsOf f16 10 2 else fmtWidth fc
def cvtSrcW (f16 : Nat) : Nat := cvtWidth f16 (f16 % 32)
def cvtTgtW (f16 : Nat) : Nat := cvtWidth f16 (bitsOf f16 5 5)

/-! ### Reductions (R61, R62, R144) -/

/-- tree_sum with flags: an absent partner passes a sum through untouched. -/
def treeFlagged (f : Nat → Nat → Flagged Nat) : Nat → List (Option (Flagged Nat)) → Option (Flagged Nat)
  | 0, l => (l.head?).getD none
  | fuel + 1, l => match l with
    | [] => none
    | [x] => x
    | _ => treeFlagged f fuel (pairUp l)
where pairUp : List (Option (Flagged Nat)) → List (Option (Flagged Nat))
  | a :: b :: t => (match a, b with
      | some (x, g), some (y, h) => (let r := f x y; some (r.1, r.2 ||| g ||| h))
      | none, y => y
      | x, none => x) :: pairUp t
  | l => l

/-- The largest or smallest of a list of codes (R62); an empty list gives the format's zero. -/
def extremeCode (mn : Bool) (ef : Nat) (l : List Nat) : Flagged Nat :=
  match l with
  | [] => (0, 0)
  | x :: t => t.foldl (fun acc y => let r := minMaxCode (!mn) ef acc.1 y; (r.1, acc.2 ||| r.2)) (minMaxCode (!mn) ef x x)

/-! ### One entry -/

/-- The second element of a V-layout operation: v[B], or the captured scalar when F[6] = 1. -/
def lvB (o : LV) (k : Core) (e : VEntry) (w i : Nat) : Nat := if lvBX o then e.op1.toNat % 2 ^ w else k.vElem o.b.toNat w i

def lxB (o : LX) (k : Core) (e : VEntry) (w i : Nat) : Nat := if lxBX o then e.op1.toNat % 2 ^ w else k.vElem o.b.toNat w i

/-- The start value of a reduction, when F[0] = 1. -/
def lvStart (o : LV) (k : Core) (e : VEntry) (w : Nat) : Option Nat :=
  if bitOf o.f.toNat 0 then some (lvB o k e w 0) else none

/-- A reduction writes element 0, and only when VL > 0. -/
def putFirst (k : Core) (d w vl : Nat) (r : Flagged Nat) : Core × BitVec 5 :=
  if vl = 0 then (k, 0) else k.putElems d w 1 (fun _ => some r)

/-- Active elements of v[A] in order. -/
def activeElems (k : Core) (o : LV) (w vl : Nat) : List Nat :=
  ((upTo vl).filter (k.active o.msk)).map (k.vElem o.a.toNat w)

/-- Set bits of a mask below i. -/
def Core.onesBelow (k : Core) (mk : BitVec 4) (i : Nat) : Nat := ((upTo i).filter (k.active mk)).length

/-- Mask operations on bits below VL (R146). -/
def maskOp (k : Core) (o : LH) (vl : Nat) (f : Bool → Bool → Bool) : Core :=
  k.putBits o.d.toNat vl (fun i => some (f (k.mBit o.a.toNat i) (k.mBit o.b.toNat i)))

/-- The lowest set bit below n of a mask. -/
def firstBit (k : Core) (r n : Nat) : Option Nat := (upTo n).find? (fun i => k.mBit r i)

/-- The element a VEXPAND lane takes: active elements below it. -/
def expandIdx (k : Core) (mk : BitVec 4) (i : Nat) : Nat := k.onesBelow mk i

/-- What an entry of VAQ does to the registers, and its flags. `vm` is VLMAX at the captured width. VPERM takes x[B] as every index when
F[6] = 1, as the V layout has it (R72, R142). -/
def arithEntry (k : Core) (vm : Nat) (e : VEntry) : Core × BitVec 5 :=
  let w := ewBits (vtEw e.vtype)
  let ef := vtEf e.vtype
  let rm := vrmMode (vtVrm e.vtype)
  let vl := e.vl
  let unary (o : LV) (f : Nat → Option (Flagged Nat)) := k.putElems o.d.toNat w vl (fun i => if k.active o.msk i then f i else none)
  let binary (o : LV) (f : Nat → Nat → Flagged Nat) := unary o (fun i => some (f (k.vElem o.a.toNat w i) (lvB o k e w i)))
  match e.instr with
  | .vadd o | .vsub o | .vand o | .vor o | .vxor o | .vsll o | .vsrl o | .vsra o
  | .vmul o | .vmulh o | .vmin o | .vmax o | .vsadd o | .vssub o =>
    match intElem w e.instr with
    | some f => binary o (fun a b => (f a b, 0))
    | none => (k, 0)
  | .vfadd o | .vfsub o | .vfmul o | .vfdiv o | .vfmin o | .vfmax o =>
    match floatElem ef rm e.instr with
    | some f => binary o f
    | none => (k, 0)
  | .vcmp o => (k.putBits o.d.toNat vl (fun i => if k.active o.msk i
      then some (intCond w (bitsOf o.f.toNat 3 3) (k.vElem o.a.toNat w i) (lvB o k e w i)) else none), 0)
  | .vfcmp o =>
    let r (i : Nat) := floatCond ef (bitsOf o.f.toNat 3 3) (k.vElem o.a.toNat w i) (lvB o k e w i)
    (k.putBits o.d.toNat vl (fun i => if k.active o.msk i then some (r i).1 else none),
     (upTo vl).foldl (fun g i => if k.active o.msk i then g ||| (r i).2 else g) 0)
  | .vmerge o => k.putElems o.d.toNat w vl (fun i =>
      some (if k.active o.msk i then lvB o k e w i else k.vElem o.a.toNat w i, 0))
  | .vfsqrt o => unary o (fun i => some (sqrtCode ef (k.vElem o.a.toNat w i) (bitOf o.f.toNat 0) rm))
  | .vfma o => k.putElems o.d.toNat w vl (fun i => if k.active o.msk i then
      some (fmaCode ef (k.vElem o.a.toNat w i) (lxB o k e w i) (k.vElem o.c.toNat w i) false (bitOf o.f16.toNat 1)
        (bitOf o.f16.toNat 0) rm) else none)
  | .vfnma o => k.putElems o.d.toNat w vl (fun i => if k.active o.msk i then
      some (fmaCode ef (k.vElem o.a.toNat w i) (lxB o k e w i) (k.vElem o.c.toNat w i) true (bitOf o.f16.toNat 1)
        (bitOf o.f16.toNat 0) rm) else none)
  | .vfcvt o => k.putElems o.d.toNat (cvtTgtW o.f16.toNat) vl (fun i => if k.active o.msk i then
      some (cvtElem o.f16.toNat rm (k.vElem o.a.toNat (cvtSrcW o.f16.toNat) i)) else none)
  | .vfclass o => (k.putBits o.d.toNat vl (fun i => if k.active o.msk i then
      some ((classMask (k.vElem o.a.toNat w i) ef &&& o.imm.toNat % 4096) != 0) else none), 0)
  | .vfscale o => k.putElems o.d.toNat w vl (fun i => if k.active o.msk i then
      some (scaleElem ef rm (bitOf o.f16.toNat 0) w (k.vElem o.a.toNat w i) (lxB o k e w i)) else none)
  | .vfsgn o => k.putElems o.d.toNat w vl (fun i => if k.active o.msk i then
      some (signElem ef w (o.f16.toNat % 4) (k.vElem o.a.toNat w i) (lxB o k e w i), 0) else none)
  | .vredsum o =>
    putFirst k o.d.toNat w vl (((activeElems k o w vl).foldl (· + ·) ((lvStart o k e w).getD 0)) % 2 ^ w, 0)
  | .vfredsum o =>
    let t := treeFlagged (fun a b => arith .add ef a b false rm) 32
      ((upTo vl).map (fun i => if k.active o.msk i then some (k.vElem o.a.toNat w i, 0) else none))
    let r : Flagged Nat := t.getD (0, 0)
    putFirst k o.d.toNat w vl (match lvStart o k e w with
      | some x => let a := arith .add ef r.1 x false rm; (a.1, a.2 ||| r.2)
      | none => (canonCode ef r.1, r.2))
  | .vredmax o =>
    let uns := bitOf o.f.toNat 1
    let mn := bitOf o.f.toNat 2
    let better (a b : Nat) : Bool := if uns then (if mn then a < b else a > b)
      else (if mn then sInt w a < sInt w b else sInt w a > sInt w b)
    let l := activeElems k o w vl ++ (lvStart o k e w).toList
    putFirst k o.d.toNat w vl (match l with
      | [] => (0, 0)
      | x :: t => (t.foldl (fun acc y => if better y acc then y else acc) x, 0))
  | .vfredmax o =>
    putFirst k o.d.toNat w vl (extremeCode (bitOf o.f.toNat 2) ef (activeElems k o w vl ++ (lvStart o k e w).toList))
  | .vslide o =>
    let n := e.op1.toNat
    let up := bitOf o.f.toNat 0
    unary o (fun i => some (if up then (if n ≤ i then k.vElem o.a.toNat w (i - n) else 0)
      else if i + n < vl then k.vElem o.a.toNat w (i + n) else 0, 0))
  | .vperm o => unary o (fun i =>
      let idx := lvB o k e w i
      some (if idx < vl then k.vElem o.a.toNat w idx else 0, 0))
  | .vcompress o =>
    let l := activeElems k o w vl
    k.putElems o.d.toNat w l.length (fun i => some (l.getD i 0, 0))
  | .vexpand o => unary o (fun i => some (k.vElem o.a.toNat w (expandIdx k o.msk i), 0))
  | .vins o =>
    if e.op2.toNat < vm then k.putElems o.d.toNat w vm (fun i => if i = e.op2.toNat then some (e.op1.toNat % 2 ^ w, 0) else none)
    else (k, 0)
  | .vsplat o => unary o (fun _ => some (e.op1.toNat % 2 ^ w, 0))
  | .viota o => k.putElems o.d.toNat w vl (fun i => some ((if o.msk = 0 then i else k.onesBelow o.msk i) % 2 ^ w, 0))
  | .vmov o => unary o (fun i => some (k.vElem o.a.toNat w i, 0))
  | .mand o => (maskOp k o vl (fun a b => a && b), 0)
  | .mor o => (maskOp k o vl (fun a b => a || b), 0)
  | .mxor o => (maskOp k o vl (fun a b => a != b), 0)
  | .mandn o => (maskOp k o vl (fun a b => a && !b), 0)
  | .mnot o => (maskOp k o vl (fun a _ => !a), 0)
  | .msbf o => (k.putBits o.d.toNat vl (fun i => some (match firstBit k o.a.toNat vl with
      | some j => i < j
      | none => true)), 0)
  | _ => (k, 0)

/-! ### Poisoned register elements (R381) -/

/-- The vector register elements that step i of an entry reads, as register, width and index. -/
def elemReads (k : Core) (e : VEntry) (w i : Nat) : List (RegName × Nat × Nat) :=
  let act := (entryReads e.instr).all (fun r => r.1 == 0 || k.mBit r.2 i)
  let masks := ((entryReads e.instr).filter (fun r => r.1 == 1)).map (fun r => (r, 1, i))
  let when (b : Bool) (l : List (RegName × Nat × Nat)) := if b then l else []
  masks ++ match e.instr with
    | .vmerge o => if act then when (!lvBX o) [(vReg o.b, w, i)] else [(vReg o.a, w, i)]
    | .vslide o =>
      let n := e.op1.toNat
      when act (if bitOf o.f.toNat 0 then when (n ≤ i) [(vReg o.a, w, i - n)] else when (i + n < e.vl) [(vReg o.a, w, i + n)])
    | .vperm o =>
      let idx := lvB o k e w i
      when act (when (!lvBX o) [(vReg o.b, w, i)] ++ when (idx < e.vl) [(vReg o.a, w, idx)])
    | .vexpand o => when act [(vReg o.a, w, expandIdx k o.msk i)]
    | .vredsum o | .vfredsum o | .vredmax o | .vfredmax o =>
      when act [(vReg o.a, w, i)] ++ when (i == 0 && bitOf o.f.toNat 0 && !lvBX o) [(vReg o.b, w, 0)]
    | .vfcvt o => when act [(vReg o.a, cvtSrcW o.f16.toNat, i)]
    | .vldx o => when act [(vReg o.b, indexWidth o.f16.toNat w, i)]
    | .vstx o => when act [(vReg o.d, w, i), (vReg o.b, indexWidth o.f16.toNat w, i)]
    | j => when act (((entryReads j).filter (fun r => r.1 == 0)).map (fun r => (r, w, i)))

/-- The lowest step below VL that reads a poisoned register element. -/
def poisonedSource (k : Core) (e : VEntry) : Option Nat :=
  if k.regPoison.isEmpty then none
  else (upTo e.vl).find? (fun i => (elemReads k e (ewBits (vtEw e.vtype)) i).any k.elemPoisoned)

end Sys2Proof.Machine
end

