-- ==== Sys2Proof/Machine/VecMem.lean ====
section
/-! DEFINITION. Vector memory entries: formats, element addresses, checks before any element performs, and the accesses themselves
(R147 to R153, R313 to R316). -/

namespace Sys2Proof.Machine

/-! ### Memory formats (R148, R151) -/

/-- The bits are copied with no conversion (R148). -/
def rawCopy (fc ef w : Nat) : Bool := fc = 0 || fc = ef || (ef = 0 && fc ≠ 30 && fmtWidth fc = w)

/-- A pairing of memory format, register format and width that the table of R148 lists. -/
def pairOk (fc ef w : Nat) : Bool :=
  fc = 0 || (fc = 30 && (ef = 0 || isFloating ef))
    || (isFloating fc && ((ef = 0 && fmtWidth fc = w) || isFloating ef))

/-- The transfer rounds in a mode (R41, R148). -/
def transferMode (store : Bool) (fc ef w : Nat) : Bool :=
  if rawCopy fc ef w then false
  else if fc = 30 then (if ef = 0 then false else if store then true else takesMode ef)
  else if store then takesMode fc else takesMode ef

/-- A loaded memory element as a register element (R148, R56). -/
def loadElem (fc ef w rm c : Nat) : Flagged Nat :=
  if rawCopy fc ef w then (c % 2 ^ w, 0)
  else if fc = 30 then
    if ef = 0 then (wrapN w (sInt 4 c), 0) else convertTo (ofInt (sInt 4 c)) true ef false rm
  else convertFc c fc ef false rm

/-- A register element as the memory element stored (R148, R56). -/
def storeElem (fc ef w rm : Nat) (sat : Bool) (v : Nat) : Flagged Nat :=
  if rawCopy fc ef w then (v, 0)
  else if fc = 30 then
    if ef = 0 then (wrapN 4 (satS 4 (sInt w v)), 0)
    else (let r := toInt (decodeFc v ef) (isTapered ef) (-8) 7 rm; (wrapN 4 r.1, r.2))
  else convertFc v ef fc sat rm

/-! ### Block scales (R55, R151) -/

/-- floor(log2) of a format's largest finite value (R151). -/
def emaxOf (fc : Nat) : Int :=
  match fc with
  | 1 | 3 => 127
  | 2 => 15
  | 5 => 120
  | 6 => 28
  | 7 => 12
  | 30 => 2
  | _ => (decodeB8 (b8Fmt fc).maxM fc).scale

/-- A block-scaled element loaded (R55): scale 0xFF gives the NaN of the register format with NV, and a signalling NaN sets NV (R40, R57). -/
def loadScaled (fc ef rm c scale : Nat) : Flagged Nat :=
  if scale = 0xFF then (let r := roundFc (if isTapered ef then .nar else .nan false) ef false rm; (r.1, fNV))
  else
    let v := if fc = 30 then ofInt (sInt 4 c) else decodeFc c fc
    let (x, f) := scaleVal v ((scale : Int) - 127)
    let r := convertTo x (isTapered fc || fc = 30) ef false rm
    (r.1, r.2 ||| f)

/-- The scale of a block from its active elements (R151). -/
def blockScale (fc : Nat) (vs : List Val) : Nat :=
  if vs.any (fun v => match v with | .nan _ | .nar | .inf _ => true | _ => false) then 0xFF
  else
    let m := vs.foldl (fun (acc : Option Val) v => match v, acc with
      | .fin _ a e st, some b => if cmpVals (.fin false a e st) b == .gt then some (.fin false a e st) else acc
      | .fin _ a e st, none => some (.fin false a e st)
      | _, _ => acc) none
    match m with
    | none => 127
    | some v => (min (max (v.scale - emaxOf fc + 127) 0) 254).toNat

/-- A block-scaled element stored: zero under scale 0xFF. -/
def storeScaled (fc ef rm scale : Nat) (sat : Bool) (v : Val) : Flagged Nat :=
  if scale = 0xFF then (0, 0)
  else
    let x := (scaleVal v (127 - (scale : Int))).1
    if fc = 30 then (let r := toInt x (isTapered ef) (-8) 7 rm; (wrapN 4 r.1, r.2))
    else convertTo x (isTapered ef) fc sat rm

/-! ### Issue checks (R131, R147, R148, R151, R152) -/

/-- FMTBAD of VLD, VST, VLDX and VSTX. -/
def plainFormat (i : Instr) (p : Word) (special : Bool) (s : State) : Except Stop Unit :=
  let fc := ptrFc p
  if fc = 4 || fc = 29 || fc = 31 || ptrBl p ≠ 0 || (fc = 30 && special)
      || !pairOk fc (vtEf s.vtype) (ewBits (vtEw s.vtype)) then .error (.trap (fmtbad i fc 2)) else .ok ()

/-- FMTBAD of VLDS and VSTS, in the order of R151. -/
def scaledFormat (i : Instr) (p q : Word) (s : State) : Except Stop Unit :=
  let fc := ptrFc p
  if fc = 4 || fc = 29 || fc = 31 then .error (.trap (fmtbad i fc 2))
  else if ptrBl p = 0 || ptrBl p ≠ vtBl s.vtype then .error (.trap (fmtbad i fc 2))
  else if q.toNat / 2 ^ 56 ≠ 0xE8 then .error (.trap (fmtbad i (ptrFc q) 4))
  else if !isFloating (vtEf s.vtype) then .error (.trap (fmtbad i (vtEf s.vtype) 1))
  else if fc = 0 then .error (.trap (fmtbad i fc 2)) else .ok ()

/-- ALIGN of the notify address, which the entry meets with an atomic access (R152) (log 24, DEDUCED). -/
def notifyAlign (o : LX) (s : State) : Except Stop Unit :=
  if bitOf o.f16.toNat 1 then checkAlign .atomic (s.addr o.c) 8 else .ok ()

/-- ALIGN of a stride (R148), reported with the base address (log 24, DEDUCED). -/
def strideAlign (stride : Word) (ea : Int) (size : Nat) : Except Stop Unit :=
  if stride.toInt % size = 0 then .ok ()
  else .error (.trap { cause := .align, saddr := wrapAddr ea, sinfo := AKind.vector.code * 16 + sizeLog size })

/-- The captured operands: base, then stride or scale plane, then the notify address (R139). -/
def memOps (o : LX) (second : Bool) (s : State) : Captured :=
  let ntf := bitOf o.f16.toNat 1
  let c := if ntf then s.getX o.c else 0
  if second then { op1 := s.getX o.a, op2 := s.getX o.b, op3 := c } else { op1 := s.getX o.a, op2 := c }

/-- Issue of VLD and VST, strided or not. -/
def issuePlain (i : Instr) (o : LX) (store : Bool) (s : State) : Except Stop State := do
  vectorChecks i s
  let p := s.getX o.a
  let w := ewBits (vtEw s.vtype)
  let strided := bitOf o.f16.toNat 0
  plainFormat i p strided s
  checkMode i (transferMode store (ptrFc p) (vtEf s.vtype) w) s.vrm
  let ea := s.eaX o.a o.imm
  let size := memBytes (ptrFc p) w
  checkAlign .vector ea size
  if strided then strideAlign (s.getX o.b) ea size
  notifyAlign o s
  let _ ← checkRange .vector ea
  issueEntry i (s.vlOf o.l) (memOps o strided s) s

/-- Issue of VLDX and VSTX. -/
def issueIndexed (i : Instr) (o : LX) (store : Bool) (s : State) : Except Stop State := do
  vectorChecks i s
  let p := s.getX o.a
  let w := ewBits (vtEw s.vtype)
  plainFormat i p true s
  checkMode i (transferMode store (ptrFc p) (vtEf s.vtype) w) s.vrm
  let ea := s.eaX o.a o.imm
  checkAlign .vector ea (memBytes (ptrFc p) w)
  notifyAlign o s
  let _ ← checkRange .vector ea
  issueEntry i (min (s.vlOf o.l) (s.vlmaxAt s.cur (indexWidth o.f16.toNat w))) (memOps o false s) s

/-- Issue of VLDS and VSTS. -/
def issueScaled (i : Instr) (o : LX) (store : Bool) (s : State) : Except Stop State := do
  vectorChecks i s
  let p := s.getX o.a
  let fc := ptrFc p
  scaledFormat i p (s.getX o.b) s
  checkMode i (if store then (fc = 30 || takesMode fc) else takesMode (vtEf s.vtype)) s.vrm
  let ea := s.eaX o.a o.imm
  checkAlign .vector ea (memBytes fc 8)
  notifyAlign o s
  let _ ← checkRange .vector ea
  issueEntry i (s.vlOf o.l) (memOps o true s) s

/-- Issue of MLD and MST: no format, no alignment (R149). -/
def issueMaskMem (i : Instr) (o : LX) (s : State) : Except Stop State := do
  vectorChecks i s
  let _ ← checkRange .vector (s.eaX o.a o.imm)
  issueEntry i (s.vlOf o.l) { op1 := s.getX o.a } s

/-- Issue of VLDL and VSTL: the pointer's top byte is ignored (R153), and a base outside 0 to 2^56 - 1 is ADDROVF (R147); the indexed
form names no base (log 62, DESIGN CHOICE). -/
def issueLane (i : Instr) (o : LX) (s : State) : Except Stop State := do
  vectorChecks i s
  if !bitOf o.f16.toNat 0 then
    let _ ← checkRange .vector (s.eaX o.a o.imm)
  issueEntry i (s.vlOf o.l) { op1 := s.getX o.a } s

/-- The field of the hotness record that an entry counts in (R316). -/
def hotField : Instr → Nat
  | .vld o | .vst o => if bitOf o.f16.toNat 0 then 16 else 0
  | .vldx _ | .vstx _ => 32
  | _ => 0

/-! ### Checks before any element performs (R150) -/

/-- How an entry's checks end without success: a fault of an element, or a wait. -/
inductive VStop where
  | fault (cause : Cause) (saddr elem : Nat) (s : State)
  | wait (s : State)
  | park (req : Nat) (s : State)

def vstop (elem : Nat) (s : State) : Stop → VStop
  | .trap t => .fault t.cause t.saddr elem s
  | .trapIn t s1 => .fault t.cause t.saddr elem s1
  | .stall => .wait s
  | .stallIn s1 => .wait s1
  | .parkHost req s1 => .park req s1
  | .fault _ => .wait s

/-- The place of one part, in the order of R106: ALIGN, ADDROVF, PROT, the page causes, POISON. -/
def checkPart (w : Who) (p : Part) (s : State) : Except VStop (State × Place) :=
  if p.addr % p.align ≠ 0 then .error (.fault .align (wrapAddr p.addr) p.elem s)
  else if p.addr < 0 ∨ p.addr + p.size > 2 ^ 56 then .error (.fault .addrovf (wrapAddr p.addr) p.elem s)
  else match s.access w p.addr.toNat p.size with
    | .error e => .error (vstop p.elem s e)
    | .ok (s1, pl) =>
      if w.need ≠ .w && s1.placePoisoned w.asid pl p.size then
        .error (.fault .poison p.addr.toNat p.elem s1)
      else .ok (s1, pl)

/-- A failure found so far: cause, address and element. -/
abbrev Failure := Cause × Nat × Nat

/-- Places of all parts. Of several failures the one of the lowest element index is reported, once every part that could have a
lower one has been checked (R150). -/
def checkParts (w : Who) : List Part → Option Failure → State → Except VStop (State × List (Part × Place))
  | [], none, s => .ok (s, [])
  | [], some (c, a, i), s => .error (.fault c a i s)
  | p :: t, some (c, a, i), s =>
    if p.elem < i then
      match checkPart w p s with
      | .error (.fault c1 a1 i1 s1) => checkParts w t (some (c1, a1, i1)) s1
      | .error e => .error e
      | .ok (s1, _) => checkParts w t (some (c, a, i)) s1
    else checkParts w t (some (c, a, i)) s
  | p :: t, none, s =>
    match checkPart w p s with
    | .error (.fault c a i s1) => checkParts w t (some (c, a, i)) s1
    | .error e => .error e
    | .ok (s1, pl) =>
      match checkParts w t none s1 with
      | .error e => .error e
      | .ok (s2, pls) => .ok (s2, (p, pl) :: pls)

/-! ### Performing an entry -/

def nibble (c i : Nat) : Nat := c / 16 ^ (i % 2) % 16

/-- The memory element of a part as read, a nibble of its byte for the int4 pair. -/
def State.partCode (s : State) (asid fc : Nat) (p : Part × Place) : Nat :=
  let c := s.placeRead asid p.2 p.1.size
  if fc = 30 && p.1.scale.isNone then nibble c p.1.elem else c

/-- A memory element written at a part. -/
def State.putPart (s : State) (asid fc : Nat) (p : Part × Place) (code : Nat) : State :=
  if fc = 30 && p.1.scale.isNone then
    let old := s.placeRead asid p.2 1
    s.placeWrite asid p.2 (toBytes 1 (setBits old (4 * (p.1.elem % 2)) 4 code))
  else s.placeWrite asid p.2 (toBytes p.1.size code)

/-- Elements read, by index. -/
def State.codesRead (s : State) (asid fc : Nat) (l : List (Part × Place)) : List (Nat × Nat) :=
  (l.filter (fun p => p.1.scale.isNone)).map (fun p => (p.1.elem, s.partCode asid fc p))

/-- The scale read for a block. -/
def State.scaleRead (s : State) (asid : Nat) (l : List (Part × Place)) (b : Nat) : Nat :=
  match l.find? (fun p => p.1.scale == some b) with
  | some p => s.placeRead asid p.2 1
  | none => 127

/-- What VSTS writes for a block: its scale, with NV when it is 0xFF, and the code and flags of each element. -/
def vstsBlock (k : Core) (o : LX) (e : VEntry) (b : Nat) : Nat :=
  let ef := vtEf e.vtype
  let w := ewBits (vtEw e.vtype)
  blockScale (ptrFc e.op1) ((blockActive k o e b).map (fun i => decodeFc (k.vElem o.d.toNat w i) ef))

def vstsElem (k : Core) (o : LX) (e : VEntry) (i : Nat) : Flagged Nat :=
  let ef := vtEf e.vtype
  let w := ewBits (vtEw e.vtype)
  if i < e.vl && k.active o.msk i then
    storeScaled (ptrFc e.op1) ef (vrmMode (vtVrm e.vtype)) (vstsBlock k o e (i / blockLen e.vtype)) (bitOf o.f16.toNat 2)
      (decodeFc (k.vElem o.d.toNat w i) ef)
  else (0, 0)

/-- The code and flags that a store writes at a part. -/
def storeCode (k : Core) (e : VEntry) (p : Part) : Flagged Nat :=
  let fc := ptrFc e.op1
  let ef := vtEf e.vtype
  let w := ewBits (vtEw e.vtype)
  match e.instr with
  | .vst o | .vstx o => storeElem fc ef w (vrmMode (vtVrm e.vtype)) (bitOf o.f16.toNat 2) (k.vElem o.d.toNat w p.elem)
  | .vsts o => match p.scale with
    | some b => let sc := vstsBlock k o e b; (sc, if sc = 0xFF then fNV else 0)
    | none => vstsElem k o e p.elem
  | .mst o => ((upTo (min 8 (e.vl - p.elem))).foldl (fun a j => a + b2n (k.mBit o.d.toNat (p.elem + j)) * 2 ^ j) 0, 0)
  | _ => (0, 0)

/-- The memory format that an entry's elements have; the bytes of MLD and MST have none. -/
def entryFc (e : VEntry) : Nat := match e.instr with
  | .mld _ | .mst _ => 0
  | _ => ptrFc e.op1

/-- The registers after a load from the parts read. -/
def loadRegs (k : Core) (asid : Nat) (e : VEntry) (l : List (Part × Place)) (s : State) : Core × BitVec 5 :=
  let fc := ptrFc e.op1
  let ef := vtEf e.vtype
  let w := ewBits (vtEw e.vtype)
  let rm := vrmMode (vtVrm e.vtype)
  let codes := s.codesRead asid (entryFc e) l
  match e.instr with
  | .vld o | .vldx o => k.putElems o.d.toNat w e.vl (fun i => (kvGet i codes).map (loadElem fc ef w rm))
  | .vlds o => k.putElems o.d.toNat w e.vl (fun i =>
      (kvGet i codes).map (fun c => loadScaled fc ef rm c (s.scaleRead asid l (i / blockLen e.vtype))))
  | .mld o => (k.putBits o.d.toNat e.vl (fun i => (kvGet (i / 8 * 8) codes).map (fun c => bitOf c (i % 8))), 0)
  | _ => (k, 0)

/-- Stores in index order, so that of two that write the same bytes the higher index stays (R150). -/
def State.storeParts (s : State) (k : Core) (asid : Nat) (e : VEntry) : List (Part × Place) → State × BitVec 5
  | [] => (s, 0)
  | p :: t =>
    let c := storeCode k e p.1
    let (s1, f) := (s.putPart asid (entryFc e) p c.1).storeParts k asid e t
    (s1, c.2 ||| f)

/-- The bytes that an entry's elements write whole: an int4 element writes a nibble, and a byte both of whose nibbles are written counts
(R108, R148). -/
def storedRanges (e : VEntry) (l : List (Part × Place)) : List (Nat × Nat) :=
  (l.filter (fun p => entryFc e != 30 || p.1.scale.isSome || l.any (fun q => q.1.scale.isNone && q.1.elem != p.1.elem && q.2.key == p.2.key))).map
    (fun p => (p.2.key, p.1.size))

/-- The elements that an entry counts as active in its notify word. -/
def activeCount (k : Core) (e : VEntry) : Nat := match e.instr with
  | .vld o | .vst o | .vldx o | .vstx o | .vlds o | .vsts o => (activeList k o.msk e.vl).length
  | _ => e.vl

/-- The entry stands in the queue of stores. -/
def storesEntry (e : VEntry) : Bool := queueOf e.instr == .vsq

/-- Who makes the accesses of an entry. -/
def entryWho (c : Nat) (k : Core) (e : VEntry) (need : Need) : Who :=
  let x := k.ctx e.ctx
  { asid := x.as, core := c, priv := x.priv, kind := .vector, need, pinBy := some (.entry c (storesEntry e)),
    fail := e.wait.failed.or (if e.replay then x.hostFail else none) }

/-- The notify word's place (R150, R152): checked after every element, reported with element index 0xFFFF (log 24, DEDUCED). -/
def notifyPlace (w : Who) (e : VEntry) (s : State) : Except VStop (State × Option Place) :=
  match notifyOf e with
  | none => .ok (s, none)
  | some va =>
    match checkPart { w with need := .rw } { elem := 0xFFFF, addr := va, size := 8, align := 8, count := 0 } s with
    | .error e => .error e
    | .ok (s1, p) => .ok (s1, some p)

/-- Hotness of a completed entry (R316). -/
def State.countParts (s : State) (asid lo : Nat) (l : List (Part × Place)) : State :=
  l.foldl (fun t p => if p.1.count = 0 then t else t.countHot asid p.2 lo p.1.count) s

/-- A memory entry of major 28: every check, the pins, the elements, their hotness, and the notify word (log 12, DEDUCED). -/
def memEntry (c : Nat) (e : VEntry) (s : State) : Except VStop (State × BitVec 5) :=
  let k := s.core c
  let loads := loadsParts e.instr
  let w := entryWho c k e (if loads then .r else .w)
  match checkParts w (entryParts k e) none s with
  | .error x => .error x
  | .ok (s1, l) =>
    match notifyPlace w e s1 with
    | .error x => .error x
    | .ok (s2, np) =>
      let places := l.map (·.2) ++ np.toList
      let (s3, pinned) := s2.pinAll (.entry c (storesEntry e)) w.asid places
      let writes := if loads then np.toList else places
      if !pinned || s3.anyMoving w.asid writes then
        .error (.wait (s3.noteMoving w.asid writes (.entry c (k.queue.idxOf e))))
      else
        let (s4, flags) :=
          if loads then
            let r := loadRegs (s3.core c) w.asid e l s3
            (s3.setCore c r.1, r.2)
          else
            let r := s3.storeParts (s3.core c) w.asid e l
            (r.1.wroteWhole (storedRanges e l), r.2)
        let s5 := s4.countParts w.asid (hotField e.instr) l
        let s6 := match np with
          | some p => (s5.placeWrite w.asid p (toBytes 8 ((s5.placeRead w.asid p 8 + activeCount k e) % 2 ^ 64))).countHot w.asid p 0 1
          | none => s5
        .ok (s6.unpin (.entry c (storesEntry e)), flags)

/-! ### Lane slices (R153) -/

/-- The members of a core's gang in gang order, the leader first (R12, R217); a core of its own is its only member. -/
def gangMembers (c : Nat) (k : Core) : List Nat := match k.gang with
  | .leader n => c :: ((upTo n).map (fun i => c / n * n + i)).filter (· ≠ c)
  | _ => [c]

/-- The core whose slices serve element i: the gang member that holds it. -/
def sliceCore (c : Nat) (k : Core) (w i : Nat) : Nat := (gangMembers c k).getD (i * w / 4096) c

def laneOf (w i : Nat) : Nat := i * w / 32 % 16

/-- The slice offset of element i: the base without its pointer's top byte (R147, R153). -/
def sliceOff (k : Core) (o : LX) (e : VEntry) (w i : Nat) : Int :=
  if bitOf o.f16.toNat 0 then (k.vElem o.b.toNat w i * (w / 8) : Nat)
  else entryBase o e + (4 * (i * w / 512) + i * w / 8 % 4 : Nat)

/-- The bytes of a lane's slice: half of it for a retired lane and its partner once the core has been remapped (R153, R382). -/
def sliceSize (k : Core) (lane : Nat) : Nat := match k.retLane with
  | some r => if k.remapped && (lane == r || lane == r ^^^ 1) then 4096 else 8192
  | none => 8192

/-- The memory key of element i, or the cause that its offset meets. -/
def sliceKey (s : State) (c : Nat) (k : Core) (o : LX) (e : VEntry) (w i : Nat) : Except Cause Nat :=
  let off := sliceOff k o e w i
  let lane := laneOf w i
  let m := sliceCore c k w i
  if off % (w / 8 : Nat) ≠ 0 then .error .align
  else if off < 0 ∨ off + (w / 8 : Nat) > sliceSize (s.core m) lane then .error .prot
  else .ok (Loc.slice m (lane * 8192 + off.toNat)).key

/-- Keys of the active elements, or the first failure (log 24, DEDUCED). -/
def sliceKeys (s : State) (c : Nat) (k : Core) (o : LX) (e : VEntry) (w : Nat) (load : Bool) :
    List Nat → Except Failure (List (Nat × Nat))
  | [] => .ok []
  | i :: t =>
    match sliceKey s c k o e w i with
    | .error x => .error (x, wrapAddr (sliceOff k o e w i), i)
    | .ok a =>
      if load && s.mem.poisoned a (w / 8) then .error (.poison, wrapAddr (sliceOff k o e w i), i)
      else match sliceKeys s c k o e w load t with
        | .error x => .error x
        | .ok l => .ok ((i, a) :: l)

/-- VLDL and VSTL. -/
def sliceEntry (c : Nat) (o : LX) (load : Bool) (e : VEntry) (s : State) : Except VStop (State × BitVec 5) :=
  let k := s.core c
  let w := ewBits (vtEw e.vtype)
  match sliceKeys s c k o e w load (activeList k o.msk e.vl) with
  | .error (x, a, i) => .error (.fault x a i s)
  | .ok l =>
    if load then .ok (s.setCore c (k.putElems o.d.toNat w e.vl (fun i => (kvGet i l).map (fun a => (s.mem.read a (w / 8), 0)))).1, 0)
    else
      let s1 : State := { s with mem := l.foldl (fun (m : Memory) p => m.write p.2 (w / 8) (k.vElem o.d.toNat w p.1)) s.mem }
      .ok (s1.wroteWhole (l.map (fun p => (p.2, w / 8))), 0)

end Sys2Proof.Machine
end

