-- ==== Sys2Proof/Machine/VecEvent.lean ====
section
/-! DEFINITION. VECTOR_ENTRY_EXECUTE: when a queued vector entry may start (R135 to R137), what it does, its completion, and QFAULT
(R138, R150, R381). -/

namespace Sys2Proof.Machine

/-- An operation of a core's context carried out beside the instruction stream. -/
def atCtx (c : Nat) (n : CtxName) (f : State → State) (s : State) : State :=
  let s1 := f { s with cur := c, curCtx := n }
  { s1 with cur := s.cur, curCtx := s.curCtx }

/-! ### When an entry may start -/

/-- Memory accesses of two entries keep program order (R111, R136, R152, R153): the same class, a store that may meet the other's
location, a notify word's release, or lane slices with a store (log 5, DEDUCED). -/
def memOrdered (old e : VEntry) : Bool :=
  match entryClass old.instr, entryClass e.instr with
  | some a, some b => a == b || storesMem old.instr || storesMem e.instr || (notifyOf e).isSome
  | _, _ =>
    let slice (i : Instr) : Bool := match i with | .vldl _ | .vstl _ => true | _ => false
    let stores (i : Instr) : Bool := match i with | .vstl _ => true | _ => false
    slice old.instr && slice e.instr && (stores old.instr || stores e.instr)

/-- An older entry that has not completed holds a younger one back (R136). -/
def holdsBack (old e : VEntry) : Bool :=
  queueOf old.instr == queueOf e.instr
    || meets (entryWrites old.instr) (entryReads e.instr)
    || meets (entryReads old.instr) (entryWrites e.instr)
    || meets (entryWrites old.instr) (entryWrites e.instr)
    || memOrdered old e

/-- LEAD and LAG: 0 and values above 32 mean 32 (R137). -/
def slipLimit (n : Nat) : Nat := if n = 0 || n > 32 then 32 else n

/-- VLQ entries that started while an older VAQ entry is incomplete. -/
def leadCount : List VEntry → Bool → Nat
  | [], _ => 0
  | e :: t, vaq =>
    (if vaq && e.done && queueOf e.instr == .vlq then 1 else 0) + leadCount t (vaq || (!e.done && queueOf e.instr == .vaq))

/-- The slip limits that an entry captured at issue let it start behind the older ones that have not completed (R95, R137). -/
def slipAllows (k : Core) (older : List VEntry) (e : VEntry) : Bool :=
  let slip := e.slip.toNat
  match queueOf e.instr with
  | .vaq => (older.filter (fun o => queueOf o.instr == .vsq)).length ≤ slipLimit (slip % 64)
  | .vlq => !(older.any (fun o => queueOf o.instr == .vaq)) || leadCount k.queue false < slipLimit (bitsOf slip 8 6)
  | .vsq => true

/-- Entries older than position j that have not completed. -/
def Core.olderThan (k : Core) (j : Nat) : List VEntry := (k.queue.take j).filter (fun e => !e.done)

/-- The entry at position j, when it may start: nothing younger than a detected fault does (R138), nor anything while an occupant change zeroes
(R335). -/
def startable (k : Core) (j : Nat) : Option VEntry :=
  match k.queue[j]? with
  | none => none
  | some e =>
    let older := k.olderThan j
    let past := (k.vfault.map (fun f => decide (f.idx ≤ j))).getD false
    if e.done || k.zeroing || past || older.any (fun o => holdsBack o e) || !slipAllows k older e then none else some e

/-! ### Completion -/

/-- The entry at position j has completed: its flags are ORed into its context's FFLAGS (R58). -/
def completeEntry (c j : Nat) (flags : BitVec 5) (s : State) : State :=
  s.modCore c (fun k =>
    match k.queue[j]? with
    | none => k
    | some e =>
      let (q, n) := popDone (k.queue.set j ({ e with done := true } : VEntry)) 0
      let k1 := { k with queue := q, vfault := k.vfault.map (fun (f : VFault) => { f with idx := f.idx - n }) }
      let x := k1.ctx e.ctx
      k1.setCtx e.ctx { x with fflags := x.fflags ||| flags })

/-- A detected fault is taken once every older entry has completed, the strand's persists are durable and its sends are answered (R138, R195,
R205, R356); for a handler, once the short matrix entries are done too (R155). A strand that is being ended as killed takes none (R188). -/
def settleFault (c : Nat) (s : State) : State :=
  let k := s.core c
  match k.vfault with
  | none => s
  | some f =>
    match k.queue[f.idx]? with
    | none => s
    | some e =>
      if (k.olderThan f.idx).isEmpty && (e.ctx == .u || k.mq.isEmpty) && s.persisted c e.ctx && s.sendsAnswered c e.ctx
          && !(e.ctx == .u && s.dyingAt c) then atCtx c e.ctx (fun t => takeQfault t c f e) s
      else s

/-! ### The event -/

/-- VL bounds what an entry does: with VL = 0 it does nothing (R130). VINS ignores VL (R145). -/
def usesVl : Instr → Bool
  | .vins _ => false
  | _ => true

/-- What an entry does once it starts (log 12, DEDUCED). A replayed entry whose captured VL is above the VLMAX of the core that has loaded it does
all its elements, those beyond the core's own share on register bits that read zero (log 66, DESIGN CHOICE). -/
def performEntry (c : Nat) (e : VEntry) (s : State) : Except VStop (State × BitVec 5) :=
  let k := s.core c
  if e.vl = 0 && usesVl e.instr then .ok (s, 0)
  else match poisonedSource k e with
    | some i => .error (.fault .poison 0 i s)
    | none =>
      match e.instr with
      | .vldl o => sliceEntry c o true e s
      | .vstl o => sliceEntry c o false e s
      | .vld _ | .vldx _ | .vlds _ | .mld _ | .vst _ | .vstx _ | .vsts _ | .mst _ => memEntry c e s
      | _ =>
        let r := arithEntry k (s.vlmaxAt c (ewBits (vtEw e.vtype))) e
        .ok (s.setCore c r.1, r.2)

/-- VECTOR_ENTRY_EXECUTE of the entry at position j of a core's queue. -/
def vectorEntry (c j : Nat) (s : State) : State := s.attempt fun s =>
  match startable (s.core c) j with
  | none => settleFault c s
  | some e =>
    match performEntry c e s with
    | .ok (s1, flags) => settleFault c (completeEntry c j flags s1)
    | .error (.wait s1) => s1
    | .error (.park req s1) => atCtx c e.ctx (parkHost req) (s1.modCore c (fun k => { k with
        queue := k.queue.modify j (fun e => { e with wait := .host req }) }))
    | .error (.fault cause saddr elem s1) =>
      let s2 := s1.unpin (.entry c (storesEntry e))
      settleFault c (s2.modCore c (fun k => { k with
        vfault := some { idx := j, cause, saddr := BitVec.ofNat 64 saddr, elem, older := (k.olderThan j).length } }))

def execVectorEntryExecute (core k : Nat) (s : State) : Host.Outcome State Fault Refusal := .next (vectorEntry core k s)

end Sys2Proof.Machine
end

