-- ==== Sys2Proof/Machine/Moves.lean ====
section
/-! DEFINITION. Events that move strands between contexts, queues and cores: LIVE_MOVE_ACK, MEASURED_MIGRATION, AGING, PARKED_WAIT_CHECK,
WAIT_TIMEOUT, OVERFLOW_ADMIT, OCCUPANT_ZEROING_DONE and the watchdog (R202, R227 to R233, R247, R301, R331). -/

namespace Sys2Proof.Machine

/-! ### Placements under capture and replay (R405, R406) -/

/-- A recorded placement (kind 3) of a record or strand: its core and member index. -/
def placeRecord (what : Nat) (d : List Nat) : Option (Nat × Nat) :=
  if d.getD 0 0 % 256 = 3 ∧ d.getD 2 0 = what then some (bitsOf (d.getD 0 0) 32 32, bitsOf (d.getD 0 0) 8 8) else none

/-- The core on which replay forces the next placement, when it is of this record or strand; none while its turn has not come. -/
def State.replayCore (s : State) (what : Nat) : Option (Nat × Nat) := s.replayNext.bind (placeRecord what)

/-- Replay lets a placement be made: always outside replay mode, else in its turn and on its core. -/
def State.mayPlace (s : State) (what core : Nat) : Bool :=
  s.mgmt.capMode ≠ 2 || ((s.replayCore what).map (fun p => p.1 == core)).getD false

/-- The same for one of the next n placements, which a crew makes together. -/
def State.mayPlaceIn (s : State) (n what core : Nat) : Bool :=
  s.mgmt.capMode ≠ 2 || (upTo n).any (fun i =>
    (((s.replayAt (s.mgmt.capPos + i)).bind (placeRecord what)).map (fun p => p.1 == core)).getD false)

/-- A placement is recorded, and a recorded one is used up. -/
def State.placed (s : State) (what core index : Nat) : State :=
  if s.mgmt.capMode = 2 then (if ((s.replayNext).map (fun d => d.getD 0 0 % 256 == 3)).getD false then s.replayTake else s)
  else s.capture (capHead 3 index 0 core) [what]

/-- The member index of a strand in its crew, 0 for one of no crew. -/
def State.memberIndex (s : State) (asid sid : Nat) : Nat := ((s.crewOf asid sid).map (·.members.idxOf sid)).getD 0

/-! ### LIVE_MOVE_ACK (R331) -/

/-- A strand whose move failed and whose image could not be spilled stands again in the source's registers (R229, R329) (log 50, DESIGN CHOICE). -/
def State.stranded (s : State) (c : Nat) (g : Image) (e : SpillErr) : State :=
  let s1 := (s.modCore c (fun k => { k with uWork := .empty })).enterU c g
  (s1.modCore c (fun k => { k with uWork := .heldInRegs })).pushEntry c
    (spillFailEntry g { cause := .spillfail } (pcMask g.ctx.pc) false false e)

/-- The members of a crew that stand in U contexts are to be stopped as a pre-emption stops them, and the held ones go to the overflow list at their
SRET (R216, R327). -/
def State.stopMates (s : State) (w : Crew) (info : Nat) : State :=
  let s1 := s.modCrew w.id (fun x => { x with arrived := [], stop := some info })
  { s1 with strands := s1.strands.map (fun (t : Strand) =>
      if t.crew = some w.id ∧ (t.heldAt.isSome ∨ s.keptInRegs t.asid t.sid) then { t with preempted := true } else t) }

/-- A resident member of a crew that is being stopped leaves, once it may; it is held in its registers when its image cannot be written (R329). -/
def State.stopMate (s : State) (c : Nat) : State :=
  let k := s.core c
  match (s.crewOf k.u.as k.u.sid).bind (fun w => w.stop.map (fun i => (w, i))) with
  | none => s
  | some (w, info) =>
    if k.uWork != .strand || !s.mayLeave c || s.crewMoving w then s
    else match s.stopOne c (info + 2 ^ 16) 0 w.site w.clsMask with
      | .ok s1 => s1
      | .error e =>
        let s1 := s.interruptLong c
        let g := s1.stoppedImage c { cause := .preempt, sinfo := info + 2 ^ 16 }
        ((s1.modCore c (fun k => { k with uWork := .heldInRegs, u := g.ctx })).modStrand g.ctx.as g.ctx.sid
          (fun x => { x with preempted := true })).pushEntry c (spillFailEntry g { cause := .preempt } (pcMask g.ctx.pc) false false e)

/-- A move whose target cannot take the image: a measured move ends where it began (R233), any other on the overflow list of the source's site, a
crew going whole (R216, R229, R331) (log 50, DESIGN CHOICE). -/
def State.moveFails (s : State) (m : Move) : State :=
  let asid := m.img.ctx.as
  let sid := m.img.ctx.sid
  if m.kind == .measured then s.enterU m.src m.img
  else
    let crew := s.crewOf asid sid
    match s.overflow m.img ((crew.map (·.site)).getD (s.siteOf m.src)) m.needed none ((crew.map (·.clsMask)).getD 0) with
    | .error e => s.stranded m.src m.img e
    | .ok s1 =>
      let s2 := (s1.modCore m.src (fun k => { k with uWork := .empty })).leaveU m.src
      match crew with
      | none => s2
      | some w => s2.stopMates w m.src

/-- FWDCFG of a move's source once the move is made (R331 step 4): for a CTXSTREAM it names the target. -/
def State.moveFwd (s : State) (m : Move) (t : Nat) : Word := if m.kind = .stream then fwdWord m.img.ctx.as t else (s.core m.src).fwdcfg

/-- The image is in place at core t: the source, when it is still live, writes its FWDCFG and releases its copy (step 4). -/
def State.moveLands (s : State) (m : Move) (t : Nat) : State :=
  let s3 := if s.live m.src then
      (s.modCore m.src (fun k => { k with fwdcfg := s.moveFwd m t, uWork := .empty })).leaveU m.src
    else s
  let s4 := s3.modStrand m.img.ctx.as m.img.ctx.sid (fun x => { x with
    lastCore := t, quiet := if m.kind = .measured then 4 else x.quiet })
  s4.placed m.img.ctx.sid t (s.memberIndex m.img.ctx.as m.img.ctx.sid)

/-- The target finds poison in the image (R333 reason 1): the image goes to the spill area, and its strand is held there at the target. -/
def State.movePoisoned (s : State) (m : Move) (t : Nat) : State :=
  match s.spillImage m.img with
  | .error e => s.stranded m.src m.img e
  | .ok (s1, a) => (s1.refuseImage t m.img.ctx.as m.img.ctx.sid a m.img.ctx.pc .poison).moveLands m t

/-- LIVE_MOVE_ACK: it waits while the messages that the source must then send on find no room (R225); a target that cannot take the image
leaves it with the source, and with neither of the two live it is lost (R331, R333). -/
def liveMoveAck (id : Nat) (s : State) : State := s.attempt fun s =>
  match s.moves.find? (fun m => m.id == id) with
  | none => s
  | some m =>
    if !s.capRoom 1 then s.capHold
    else
      let forced := s.replayCore m.img.ctx.sid
      if s.mgmt.capMode = 2 && forced.isNone then s
      else
        let t := if s.mgmt.capMode = 2 then (forced.map (·.1)).getD m.dst else m.dst
        let s1 := { s with moves := s.moves.filter (fun x => x.id != id) }
        if !s.live t || !capHolds (s.cls t) m.img.mask || !s.canLand t m.toU then
          (if s.live m.src then s1.moveFails m else s1.moveLost m)
        else if s.live m.src && !s.mailFits m.src (s.moveFwd m t) then s
        else if !m.img.poison.isEmpty then s1.movePoisoned m t
        else match s1.seat t m.img m.toU with
          | some s2 => s2.moveLands m t
          | none => s1.moveFails m

def execLiveMoveAck (move : Nat) (s : State) : Host.Outcome State Fault Refusal := .next (liveMoveAck move s)

/-! ### MEASURED_MIGRATION (R233) -/

/-- One millisecond of TIME. -/
def oneMs : Nat := 100000

def emptyMix : Mix := { issued := 0, control := 0, vector := 0, tensor := 0 }

/-- The other class with the largest count above 512, ties in the order control, vector, tensor. -/
def mixClass (own : Cls) (m : Mix) : Option Cls :=
  let cands := [(Cls.control, m.control), (Cls.vector, m.vector), (Cls.tensor, m.tensor)].filter (fun p => p.1 != own && p.2 > 512)
  (cands.foldl (fun (best : Option (Cls × Nat)) p => match best with
    | none => some p
    | some b => if p.2 > b.2 then some p else some b) none).map (·.1)

/-- Measured migration may move the U strand of a core (R233). -/
def State.mixMayMove (s : State) (c : Nat) : Bool :=
  let k := s.core c
  let t := s.strand k.u.as k.u.sid
  k.uWork == .strand && k.gang == .none && !k.u.priv && (t.bind (·.crew)).isNone
    && !(((s.space k.u.as).map (·.nomig)).getD false) && ((t.map (·.quiet)).getD 0) == 0

/-- The end of a window: counting restarts, and the strand is to move when a class has the count for it. -/
def State.closeWindow (s : State) (c : Nat) : State :=
  let k := s.core c
  let due := if s.mixMayMove c then mixClass (s.cls c) k.mix else none
  (s.modCore c (fun k => { k with mix := { emptyMix with due } })).modStrand k.u.as k.u.sid (fun x => { x with quiet := x.quiet - 1 })

/-- A strand of the queue has been ready for 1 ms (R227). -/
def State.agingDue (s : State) (c : Nat) : Bool :=
  (s.core c).arrival.any (fun p => ((Parked.isReady p.state).map (fun t => decide (t + oneMs ≤ s.now))).getD false)

/-- The U strand may be aged out: it is no crew member, no gang leader and not at S (R227). -/
def State.mayAge (s : State) (c : Nat) : Bool :=
  let k := s.core c
  k.uWork == .strand && k.gang == .none && !k.u.priv && ((s.strand k.u.as k.u.sid).bind (·.crew)).isNone

/-- MEASURED_MIGRATION, at the first instruction boundary at which the strand may leave, after the events that come before it (R326); no
candidate means no move. -/
def measuredMigration (c : Nat) (s : State) : State :=
  let k := s.core c
  match k.mix.due with
  | none => s
  | some cl =>
    let stay := s.modCore c (fun k => { k with mix := { k.mix with due := none } })
    let s1 := s.interruptLong c
    let g := s1.imageU c
    if !s.mixMayMove c then stay
    else if k.long.isSome || s.asked c || (s.agingDue c && s.mayAge c) then s
    else match s.firstRanked c ((s.candidates c g.mask).filter (fun t => s.cls t == cl)) with
      | none => stay
      | some t =>
        if !s.mayLeave c then s
        else (s1.modCore c (fun k => { k with mix := { k.mix with due := none } })).startMove c t g .measured false g.mask

def execMeasuredMigration (core : Nat) (s : State) : Host.Outcome State Fault Refusal := .next (measuredMigration core s)

/-! ### AGING, PARKED_WAIT_CHECK, WAIT_TIMEOUT (R202, R227, R228) -/

/-- AGING: the U strand parks when a strand of the queue has been ready for 1 ms, unless it is about to end (R184). -/
def aging (c : Nat) (s : State) : State := s.attempt fun s =>
  let k := s.core c
  if !s.agingDue c then s
  else if !k.uWork.holds then s.nextU c
  else if s.asked c || !s.mayAge c then s
  else atCtx c .u (fun t => if t.mayPark && k.long.isNone && !k.ending then t.parkU (.ready t.now) else t) s

def execAging (core : Nat) (s : State) : Host.Outcome State Fault Refusal := .next (aging core s)

/-- A doubleword that a parked strand of core c waits on. -/
def State.waitedWord (s : State) (c asid va : Nat) : Option Nat :=
  if isLocal va then match s.localAccess (deviceWho asid c .r) va 8 with
    | .ok p => if s.placePoisoned asid p 8 then none else some (s.placeRead asid p 8)
    | .error _ => none
  else (s.devRead asid va 8).map (·.2)

/-- The check of a waiting slot would end its wait; a word that cannot be read lets the instruction meet its trap. -/
def waitOver (s : State) (c : Nat) (p : Parked) : Bool :=
  let late := (p.img.ctx.deadline.map (fun d => decide (s.now ≥ d))).getD false
  match p.state with
  | .waitJoin va => ((s.waitedWord c p.img.ctx.as va).map (fun w => w % 2 ^ 32 == 0)).getD true
  | .waitWord va e => late || ((s.waitedWord c p.img.ctx.as va).map (fun w => w != e)).getD true
  | _ => false

/-- The word that a slot waits on is within reach. -/
def State.touchWait (s : State) (p : Parked) : State := match p.state with
  | .waitJoin va | .waitWord va _ => if isLocal va then s else s.devTouch p.img.ctx.as va
  | _ => s

/-- PARKED_WAIT_CHECK of slot j of a core's arrival queue. -/
def parkedCheck (c j : Nat) (s : State) : State := s.attempt fun s =>
  match (s.core c).arrival[j]? with
  | none => s
  | some p =>
    let s := s.touchWait p
    if !waitOver s c p then s
    else (s.modCore c (fun k => { k with arrival := k.arrival.set j { p with state := .ready s.now } })).nextU c

def execParkedWaitCheck (core k : Nat) (s : State) : Host.Outcome State Fault Refusal := .next (parkedCheck core k s)

/-- WAIT_TIMEOUT of a parked strand; one that waits in its U context meets the deadline when its WAIT is next tried. -/
def waitTimeout (asid sid : Nat) (s : State) : State :=
  (s.cores.flatMap (fun p => (upTo p.2.arrival.length).map (fun j => (p.1, j)))).foldl (fun t (c, j) =>
    match (s.core c).arrival[j]? with
    | some p => if p.img.ctx.as = asid ∧ p.img.ctx.sid = sid then parkedCheck c j t else t
    | none => t) s

def execWaitTimeout (asid sid : Nat) (s : State) : Host.Outcome State Fault Refusal := .next (waitTimeout asid sid s)

/-! ### OVERFLOW_ADMIT (R216, R229, R333) -/

/-- Remove an overflow entry of a site. -/
def State.dropOverflow (s : State) (site : Nat) (e : Overflow) : State :=
  s.modSite site (fun t => { t with overflow := t.overflow.filter (fun o => !(o.asid == e.asid && o.sid == e.sid)) })

/-- The image of an overflow entry cannot be resumed (R34, R333): its strand is held, and service code of core c is told. -/
def State.admitBad (s : State) (c : Nat) (e : Overflow) (err : LoadErr) : State :=
  s.refuseImage c e.asid e.sid e.image (BitVec.ofNat 64 (((s.devRead e.asid (e.image + 8) 8).map (·.2)).getD 0)) err

/-- The image of an overflow entry, loaded for core c; its piece of the spill area is free again. -/
def State.admitLoad (s : State) (c : Nat) (e : Overflow) : Except LoadErr (State × Image) :=
  match s.loadImage e.asid e.image c with
  | .error err => .error err
  | .ok (s1, g) => .ok (s1.modStrand e.asid e.sid (fun x => { x with spill := none, preempted := false, lastCore := c }), g)

/-- One entry enters core c. -/
def State.admitOne (s : State) (site c : Nat) (e : Overflow) : State :=
  let s1 := s.dropOverflow site e
  match s1.admitLoad c e with
  | .error err => s1.admitBad c e err
  | .ok (s2, g) => match s2.seat c g (s.crewOf e.asid e.sid).isSome with
    | some s3 => s3.placed e.sid c (s.memberIndex e.asid e.sid)
    | none => s

/-- An overflow entry may stand on a core of the class (R229, R216). -/
def Overflow.takes (e : Overflow) (k : Cls) : Bool := inClsMask e.cls k && capHolds k e.needed

/-- Every entry has a seat of its own in some placement, when `free` counts the empty cores of each class: no set of classes is asked
for by more entries than it has cores. -/
def seatable (l : List Overflow) (free : Cls → Nat) : Bool :=
  let ks : List Cls := [.control, .vector, .tensor]
  ([[], [.control], [.vector], [.tensor], [.control, .vector], [.control, .tensor], [.vector, .tensor], ks] : List (List Cls)).all (fun set => decide ((l.filter (fun e => ks.all (fun k => !e.takes k || set.contains k))).length ≤ (set.map free).sum))

/-- Distinct cores for the entries of a whole crew among empty ones: each the lowest that leaves seats for the members after it (log 50, DESIGN CHOICE). -/
def crewSeats (s : State) (n : Nat) : List Overflow → List Nat → Option (List (Overflow × Nat))
  | [], _ => some []
  | e :: t, empty =>
    let free (k : Cls) : Nat := (empty.filter (fun c => s.cls c == k)).length
    match empty.find? (fun c => e.takes (s.cls c) && s.mayPlaceIn n e.sid c
      && seatable t (fun k => free k - if s.cls c = k then 1 else 0)) with
    | none => none
    | some c => (crewSeats s n t (empty.erase c)).map (fun l => (e, c) :: l)

/-- Every member of a crew that has not ended waits on the list. -/
def crewWaits (w : Crew) (l : List Overflow) : Bool :=
  (upTo w.members.length).all (fun i => w.exited.contains i || l.any (fun e => e.asid == w.asid && e.sid == w.members.getD i 0))

/-- The crew of an entry is placed whole, when every member can be; it is held while capture has no room for its placements (R405). -/
def State.admitCrew (s : State) (site : Nat) (w : Crew) : Option State :=
  let l := (s.site site).overflow.filter (fun e => e.asid == w.asid && w.members.contains e.sid)
  if !crewWaits w l then none
  else if !s.capRoom l.length then some s.capHold
  else (crewSeats s l.length l ((upTo s.coreCount).filter (fun c => s.siteOf c == site && s.mayEnter c))).map
    (fun seats => seats.foldl (fun t (e, c) => t.admitOne site c e) (s.modCrew w.id (fun x => { x with stop := none })))

/-- OVERFLOW_ADMIT: the oldest entry of the site's list that core c can take, or the oldest crew that the site can take whole (log 50, DESIGN CHOICE). -/
def admitFrom (c site : Nat) : List Overflow → State → State
  | [], s => s
  | e :: t, s =>
    match ((s.strand e.asid e.sid).bind (·.crew)).bind s.crew with
    | some w => match if s.mayEnter c && e.takes (s.cls c) then s.admitCrew site w else none with
      | some s1 => s1
      | none => admitFrom c site t s
    | none =>
      if (e.only.map (fun o => decide (o = c))).getD true && e.takes (s.cls c)
          && s.canLand c false && s.mayPlace e.sid c then s.admitOne site c e
      else admitFrom c site t s

def overflowAdmit (c : Nat) (s : State) : State := s.attempt fun s =>
  let site := s.siteOf c
  if !s.live c then s
  else if !s.capRoom 1 then s.capHold
  else admitFrom c site (s.site site).overflow s

def execOverflowAdmit (core : Nat) (s : State) : Host.Outcome State Fault Refusal := .next (overflowAdmit core s)

/-! ### OCCUPANT_ZEROING_DONE (R28, R220, R247) -/

/-- The zeroing of an occupant change ends, and the U context may take its next strand. -/
def zeroingDone (c : Nat) (s : State) : State := s.attempt fun s =>
  if !(s.core c).zeroing || s.panelsRead c then s else (s.endZeroing c).nextU c

def execOccupantZeroingDone (core : Nat) (s : State) : Host.Outcome State Fault Refusal := .next (zeroingDone core s)

/-! ### The watchdog (R301, R327) -/

/-- µs since a strand's dispatch. -/
def State.sinceUs (s : State) (t : Strand) : Nat := (s.now - t.dispatched.getD s.now) / 100

/-- T1, T2 and T3 of a strand's origin queue, in µs (R290). -/
def State.limits (s : State) (t : Strand) : Nat × Nat × Nat :=
  match (s.space t.asid).bind (·.queue t.origin) with
  | some q => (q.t1, q.t2, q.t3)
  | none => (100000, 1000000, 5000000)

/-- Stop a resident strand and hold it with SCAUSE WATCHDOG; a gang leader reports GANGBRK (R219). -/
def State.holdWatchdog (s : State) (c : Nat) (t : Strand) : State :=
  let s1 := s.interruptLong c
  let w : Trap := { cause := .watchdog, saddr := t.record, sinfo := t.origin % 64 + min (s.sinceUs t) (2 ^ 32 - 1) * 2 ^ 32 }
  let (w1, s2, gw) := match (s1.core c).gang with
    | .leader n => (gangTrap w n, s1.disband c, true)
    | _ => (w, s1, false)
  let g := s2.stoppedImage c w1
  s2.holdU c g w1 (pcMask g.ctx.pc) gw

/-- The strands that step T1 stops with this one: its crew, or itself. -/
def State.clockMates (s : State) (t : Strand) : List Strand :=
  match t.crew with
  | some id => s.strands.filter (fun x => x.asid == t.asid && x.crew == some id)
  | none => [t]

/-- The due stop of a strand, when it may be met: it is held in its core (R301, R327). -/
def stopNow (asid sid : Nat) (s : State) : State := s.attempt fun s =>
  match s.strand asid sid, s.residentAt asid sid with
  | some t, some c => match t.stopDue with
    | some n => if s.mayLeave c && !(s.asks asid sid).any (· < n) then s.holdWatchdog c t else s
    | none => s
  | _, _ => s

/-- A strand or crew member at T1: event 3 has been written, and it is to be stopped; one that is held already stays under its trap (R327). -/
def State.markT1 (s : State) (t : Strand) : State :=
  let held := t.heldAt.isSome || s.keptInRegs t.asid t.sid || (s.keptImage t.asid t.sid).isSome
  { s.modStrand t.asid t.sid (fun x => { x with t1Done := true, stopDue := if held then none else some s.nextId }) with nextId := s.nextId + 1 }

/-- WATCHDOG_T1: event 3 once, and the strand or crew is stopped and held, each member as soon as it may be. -/
def watchdogT1 (asid sid : Nat) (s : State) : State :=
  match s.strand asid sid with
  | none => s
  | some t =>
    if t.dispatched.isSome && !t.t1Done && s.sinceUs t ≥ (s.limits t).1 then
      let mates := s.clockMates t
      let s1 := mates.foldl State.markT1 (s.event asid 3 (t.origin % 64) t.record ((s.residentAt asid sid).getD t.lastCore))
      let s2 := match t.crew with | some id => s1.modCrew id (fun w => { w with arrived := [] }) | none => s1
      mates.foldl (fun u x => stopNow x.asid x.sid u) s2
    else stopNow asid sid s

def execWatchdogT1 (asid sid : Nat) (s : State) : Host.Outcome State Fault Refusal := .next (watchdogT1 asid sid s)

/-- WATCHDOG_T2: the strand, with its crew, is killed; its record ends faulted; event 4. A strand that is being ended already ends once the
waits of R188 are over. -/
def watchdogT2 (asid sid : Nat) (s : State) : State := s.attempt fun s =>
  match s.strand asid sid with
  | none => s
  | some t =>
    if t.dispatched.isNone || s.sinceUs t < (s.limits t).2.1 then s
    else if t.dying then s.killAll asid sid
    else (s.killAll asid sid).event asid 4 (t.origin % 64) t.record ((s.residentAt asid sid).getD t.lastCore)

def execWatchdogT2 (asid sid : Nat) (s : State) : Host.Outcome State Fault Refusal := .next (watchdogT2 asid sid s)

/-- WATCHDOG_T3: the kill that T2 began is incomplete, so the core is fenced and the record faulted; event 5, once (R301). -/
def watchdogT3 (asid sid : Nat) (s : State) : State := s.attempt fun s =>
  match s.strand asid sid with
  | none => s
  | some t =>
    if t.dispatched.isNone || !t.dying || t.t3Done || s.sinceUs t < (s.limits t).2.2 then s
    else
      let s := s.modStrand asid sid (fun x => { x with t3Done := true })
      let c := (s.residentAt asid sid).getD t.lastCore
      let s1 := if t.record = 0 then s else ((s.completeRecord asid t.record t.origin true).map (·.1)).getD s
      (s1.fence c).event asid 5 (t.origin % 64) t.record c

def execWatchdogT3 (asid sid : Nat) (s : State) : Host.Outcome State Fault Refusal := .next (watchdogT3 asid sid s)

end Sys2Proof.Machine
end

