-- ==== Sys2Proof/Machine/Errors.lean ====
section
/-! DEFINITION. Errors, retirement and temperature (R378 to R386, R407), and operating points (R262 to R269): the events of ERROR_CORRECTED
to MODULE_ERROR, ERROR_LOG_SPACE, the thermal events, and DAMPER_GRANT, TILE_GATE, TILE_WAKE and POINT_SWITCH. -/

namespace Sys2Proof.Machine

/-! ### Corrected errors and poison (R378, R381, R385) -/

/-- TIME counts of an hour. -/
def oneHour : Nat := 360000000000

def PcErr.within (e : PcErr) (now : Nat) : List (Nat × Nat) := e.recent.filter (fun p => now ≤ p.1 + oneHour)

/-- Corrected errors of the last hour. -/
def PcErr.corrected (e : PcErr) (now : Nat) : Nat := ((e.within now).map (·.2)).sum

/-- What is counted for a pseudo-channel. -/
def State.pcErr (s : State) (pc : Nat) : PcErr := (s.pcErrors.find? (fun e => e.pc == pc)).getD { pc, lost := 0, recent := [] }

/-- Count errors of a pseudo-channel. -/
def State.countPc (s : State) (pc corrected lost : Nat) : State :=
  let e := s.pcErr pc
  let recent := if corrected = 0 then e.within s.now else e.within s.now ++ [(s.now, corrected)]
  { s with pcErrors := s.pcErrors.filter (fun e => e.pc != pc) ++ [{ pc, lost := e.lost + lost, recent }] }

def execErrorCorrected (unitKind unit pa count : Nat) (s : State) : Host.Outcome State Fault Refusal :=
  .next ((if unitKind % 256 = 4 then s.countPc unit count 0 else s).logCorrected (unitKind % 256) unit pa count)

/-- An atom at a memory key becomes poisoned. -/
def State.poisonKey (s : State) (key : Nat) : State := { s with mem := s.mem.setPoison (key / 32) }

/-- Where 32-bit element e of a register of core c is held, file 0 v, 1 m, 2 ac: a follower's v and m lie in its leader's pooled registers,
behind the shares of the members before it, so that the leader meets their poison (R12, R218). -/
def State.elemAt (s : State) (c file e : Nat) : Nat × Nat :=
  let share := match file with | 0 => 128 | 1 => 16 | _ => 4096
  match (s.core c).gang, file with
  | .follower _, 2 => (c, e % share)
  | .follower l, _ => (l, (gangMembers l (s.core l)).idxOf c * share + e % share)
  | _, _ => (c, e % share)

/-- A register element of a core becomes poisoned. -/
def State.poisonReg (s : State) (c file reg elem : Nat) : State :=
  let (l, e) := s.elemAt c file elem
  s.modCore l (fun k => { k with regPoison := (file, reg, e) :: k.regPoison.filter (· != (file, reg, e)) })

/-- POISON_CREATED: place 0 is device memory at PA `addr`, 1 a core's scratchpad, 2 its lane slices, 3 a site scratchpad, 4 to 6 element
`addr` mod 4,096 of register `addr` / 4,096 of the v, m or ac file. An atom of HBM4E names its frame in a class-7 record and in
flash (R385); one of the pool is its port's (log 51, DEDUCED). -/
def poisonCreated (place unit addr : Nat) (s : State) : State :=
  match place with
  | 0 =>
    if !s.goodPa addr then s
    else
      let atom := addr / 32 * 32
      let frame := addr / 2 ^ 16 * 2 ^ 16
      let pc := s.pcOf addr
      if addr ≥ 2 ^ 46 then (s.poisonKey addr).logRecord 2 6 (bitsOf addr 44 2) atom 0
      else
        let s1 := (s.poisonKey addr).logRecord 2 4 pc atom 0
        let s2 := (s1.countPc pc 0 1).logRecord 7 4 pc frame pc
        { s2 with flash := { s2.flash with frames := s2.flash.frames ++ [frame] } }
  | 1 => if addr < spadSize (s.cls unit) then (s.poisonKey (Loc.spad unit addr).key).logRecord 2 1 unit 0 0 else s
  | 2 => if addr < 2 ^ 17 then (s.poisonKey (Loc.slice unit addr).key).logRecord 2 1 unit 0 0 else s
  | 3 => if addr < 2 ^ 26 then (s.poisonKey (Loc.site (unit % 4) addr).key).logRecord 2 7 (unit % 4) 0 0 else s
  | 4 => (s.poisonReg unit 0 (addr / 4096 % 32) (addr % 4096)).logRecord 2 1 unit 0 0
  | 5 => (s.poisonReg unit 1 (addr / 4096 % 12) (addr % 4096)).logRecord 2 1 unit 0 0
  | 6 => (s.poisonReg unit 2 (addr / 4096 % 4) (addr % 4096)).logRecord 2 1 unit 0 0
  | _ => s

def execPoisonCreated (place unit addr : Nat) (s : State) : Host.Outcome State Fault Refusal := .next (poisonCreated place unit addr s)

/-- PSEUDO_CHANNEL_FAILING: more than 64 uncorrectable atoms since reset, or more than 4,096 corrected errors within an hour. -/
def execPseudoChannelFailing (pc : Nat) (s : State) : Host.Outcome State Fault Refusal :=
  .next (if ((s.pcErr pc).lost > 64 || (s.pcErr pc).corrected s.now > 4096) && !s.mgmt.pcFail.contains pc then
    ({ s with mgmt := { s.mgmt with pcFail := s.mgmt.pcFail ++ [pc] } }.logRecord 7 4 pc 0 pc).reassess else s)

/-- LINK_DEGRADE of one of the four die links: it trains to reduced width at the next reset (R385). -/
def execLinkDegrade (link : Nat) (s : State) : Host.Outcome State Fault Refusal :=
  let k := link % 4
  .next ({ s with flash := { s.flash with linkPend := if s.flash.linkPend.contains k then s.flash.linkPend else s.flash.linkPend ++ [k] } }.logRecord
    8 5 k 0 0)

/-! ### Lanes and cores (R218, R219, R378, R382 to R384) -/

def execCoreFence (core : Nat) (s : State) : Host.Outcome State Fault Refusal :=
  .next (if s.live core then s.fence core else s)

/-- The gang led by a core breaks as at a trap of its leader, with original cause LANEERR (R218, R219, R383) (log 45, DEDUCED). -/
def State.breakGang (s : State) (lead : Nat) : State :=
  match (s.core lead).gang with
  | .leader n =>
    let t : Trap := { cause := .gangbrk, sinfo := 0x10 * 2 ^ 8 + n }
    let s1 := (s.interruptLong lead).disband lead
    let g := s1.stoppedImage lead t
    s1.holdU lead g t (pcMask g.ctx.pc) true
  | _ => s

/-- The break that a retired lane makes due, once the leader's queued work, sends and persists are done, as for its own trap (R118, R131, R195). -/
def breakStep (c : Nat) (s : State) : State :=
  let k := s.core c
  let off (s : State) : State := s.modCore c (fun k => { k with breakDue := false })
  match k.gang with
  | .leader _ => if k.drained && s.persisted c .u && s.sendsAnswered c .u && !k.ending && !s.dyingAt c then (off s).breakGang c else s
  | _ => off s

/-- A core that the next reset retires is named in the flash list (R384). -/
def State.listRetired (s : State) (c : Nat) : State := { s with flash := { s.flash with retCores := s.flash.retCores ++ [c] } }

/-- LANE_RETIRE: the first lane error of a core retires the lane, which its partner serves until the core is remapped; a gang that the core is
in breaks; a second error retires the core. -/
def laneRetire (c lane : Nat) (s : State) : State :=
  let k := s.core c
  if !s.live c || s.cls c = .control || lane ≥ 16 then s
  else if k.retLane.isSome then
    (s.fence c).listRetired c
  else
    let s1 := s.modCore c (fun k => { k with retLane := some lane })
    let s2 : State := { s1 with
      flash := { s1.flash with retLanes := s1.flash.retLanes ++ [(c, lane)] },
      mgmt := { s1.mgmt with retLane := s1.mgmt.retLane + 1 } }
    let lead := match k.gang with | .follower l => l | _ => c
    ((s2.logRecord 4 1 c 0 lane).modCore lead (fun k => { k with breakDue := k.gang != .none })).reassess

def execLaneRetire (core lane : Nat) (s : State) : Host.Outcome State Fault Refusal := .next (laneRetire core lane s)

/-- The strand of a core that is to be retired is stopped as by a pre-emption, MSTART naming the failing step, and moves (R384). -/
def State.evacuate (s : State) (c : Nat) : State :=
  let k := s.core c
  let sid := k.u.sid
  if k.uWork != .strand then s
  else if ((s.strand k.u.as sid).bind (·.crew)).isSome || k.gang != .none then
    match s.stopU c c with
    | .ok s1 => s1
    | .error _ => s
  else
    let s1 := s.interruptLong c
    let g := s1.stoppedImage c { cause := .preempt, sinfo := 0xFFFF }
    match s1.firstRanked c (s1.candidates c g.mask) with
    | some t => s1.startMove c t g .priority false g.mask
    | none => match s1.stopOne c 0xFFFF 0 (s1.siteOf c) 0 with
      | .ok s2 => s2
      | .error _ => s1

/-- The core that a matrix-step failure retires is fenced once its strand has been stopped, which waits as a pre-emption does (R118, R384). -/
def retireStep (c : Nat) (s : State) : State :=
  if (s.core c).uWork == .strand && !s.stopReady c then s
  else
    let s1 := (s.evacuate c).fence c
    s1.listRetired c

/-- A matrix array step is under way: of a MOPAK, or of the short instruction at the head of MQ (R160, R161). -/
def Core.arrayStep (k : Core) : Bool :=
  (k.long.map (fun l => l.kind == 0)).getD false
    || (match k.mq.head?.map (fun (e : MEntry) => e.instr) with
      | some (.ranka _) | some (.ranks _) | some (.mrowacc _) => true
      | _ => false)

/-- MATRIX_STEP_CHECK_FAIL: the step repeats once; its second failure retires the core (R378, R384) (log 42, DEDUCED). -/
def matrixFail (c : Nat) (s : State) : State :=
  let k := s.core c
  if !k.arrayStep || k.retireDue || !s.live c then s
  else if k.residue = 0 then s.modCore c (fun k => { k with residue := 1 })
  else retireStep c (s.modCore c (fun k => { k with retireDue := true }))

def execMatrixStepCheckFail (core : Nat) (s : State) : Host.Outcome State Fault Refusal := .next (matrixFail core s)

/-- MODULE_ERROR: the module stops issuing and needs a reset. -/
def State.moduleStop (s : State) : State := { s with mgmt := { s.mgmt with resetReq := true, stopped := true } }

def execModuleError (s : State) : Host.Outcome State Fault Refusal := .next s.moduleStop

/-- ERROR_LOG_SPACE: one class-10 record with the count of those lost. -/
def errorLogSpace (s : State) : State :=
  match s.logRing with
  | none => s
  | some (a, n) =>
    if s.mgmt.logLost = 0 then s
    else match s.putRing a n s.mgmt.logPos (logWords 10 0 0 0 s.now s.mgmt.logLost) with
      | none => s
      | some s1 => { s1 with mgmt := { s1.mgmt with logPos := s1.mgmt.logPos + 1, logLost := 0 } }

def execErrorLogSpace (s : State) : Host.Outcome State Fault Refusal := .next (errorLogSpace s)

/-! ### Operating points (R262 to R266) -/

/-- Power relative to OP3, in hundredths (R262). -/
def relPower : Nat → Nat
  | 0 => 0
  | 1 => 53
  | 2 => 75
  | 3 => 100
  | 4 => 135
  | 5 => 188
  | 6 => 278
  | _ => 395

/-- OP3 power of a tile in microwatts (R262). -/
def op3Power : Cls → Nat
  | .control => 17500000
  | .vector => 1880000
  | .tensor => 2660000

def State.tileCls (s : State) (t : Nat) : Cls := s.cls (4 * t)
def State.tileSite (s : State) (t : Nat) : Nat := s.siteOf (4 * t)

/-- A tile's own share: its OP3 power (R264, R265). -/
def State.share (s : State) (t : Nat) : Nat := op3Power (s.tileCls t)

/-- The cost of a point above OP3, exact in microwatts (R262). -/
def State.pointCost (s : State) (t p : Nat) : Nat := s.share t * (relPower p - 100) / 100

/-- The U context holds a strand. -/
def UWork.isStrand : UWork → Bool
  | .empty | .reserved _ => false
  | _ => true

/-- A core has work (R263). -/
def State.hasWork (s : State) (c : Nat) : Bool :=
  let k := s.core c
  k.uWork.isStrand || k.aWork != .idle || (match k.gang with | .follower _ => true | _ => false) || !k.queue.isEmpty || !k.mq.isEmpty
    || s.ops.any (fun o => o.core == c) || (oldestReady k.arrival).isSome || !k.slots.isEmpty || !k.entries.isEmpty

/-- The point that a core with work asks for (R263). -/
def State.request (s : State) (c : Nat) : Nat := if s.hasWork c then max 1 (s.core c).opreq.toNat else 0

def tileCores (t : Nat) : List Nat := (upTo 4).map (fun i => 4 * t + i)

/-- A core of the tile has work. -/
def State.tileWork (s : State) (t : Nat) : Bool := (tileCores t).any s.hasWork

/-- The tiles that move together: both of a gang of eight, else the one (R141, R264). -/
def State.tileMates (s : State) (t : Nat) : List Nat :=
  let eight := ([2 * (t / 2), 2 * (t / 2) + 1].flatMap tileCores).any (fun c => (s.core c).gang == .leader 8)
  if eight then [2 * (t / 2), 2 * (t / 2) + 1] else [t]

/-- The wanted point (R263), cut to the permitted one (R269). -/
def State.wanted (s : State) (t : Nat) : Nat :=
  let m := s.tileMates t
  min (((m.flatMap tileCores).map s.request).foldl max 0) ((m.map (fun u => (s.tile u).limit)).foldl min 7)

/-- Lent budget that is not recalled. -/
def Tile.keeps (x : Tile) : Nat := x.lent - x.called

/-- The highest point that a budget covers. -/
def State.covered (s : State) (t budget : Nat) : Nat :=
  [4, 5, 6, 7].foldl (fun b p => if s.pointCost t p ≤ budget then p else b) 3

/-- The highest point granted to a tile, or to both of a gang of eight (R264). -/
def State.granted (s : State) (t : Nat) : Nat := ((s.tileMates t).map (fun u => s.covered u (s.tile u).keeps)).foldl min 7

/-- The site's hold on points (R407). -/
def Site.cap (x : Site) : Nat := if x.throttle then 2 else if x.warn then 3 else 7

/-- Budget comes into a site's pool: the tiles that the table refused ask again (R265). -/
def State.growPool (s : State) (site n : Nat) : State :=
  if n = 0 then s
  else
    let s1 := s.modSite site (fun x => { x with pool := x.pool + n })
    { s1 with tiles := s1.tiles.map (fun (t, x) => if s.tileSite t = site then (t, { x with refused := false }) else (t, x)) }

/-- A tile gives back n of its grants, the most recent first; `l` has the newest first (R265). -/
def cutGrants (t : Nat) : Nat → List (Nat × Nat) → List (Nat × Nat)
  | _, [] => []
  | n, g :: older =>
    if g.1 ≠ t || n = 0 then g :: cutGrants t n older
    else if g.2 ≤ n then cutGrants t (n - g.2) older
    else (t, g.2 - n) :: older

/-- A tile keeps at most `keep` of its lent budget; the rest returns to the pool. -/
def State.giveBack (s : State) (t keep : Nat) : State :=
  let x := s.tile t
  if x.lent ≤ keep then s
  else
    let s1 := (s.modTile t (fun x => { x with lent := keep, called := 0 })).modSite (s.tileSite t) (fun y => { y with
      grants := (cutGrants t (x.lent - keep) y.grants.reverse).reverse })
    s1.growPool (s.tileSite t) (x.lent - keep)

/-- Shares of a site that waking tiles wait for (R265). -/
def State.wakingShares (s : State) (site : Nat) : Nat :=
  ((s.tiles.filter (fun p => p.2.waking && s.tileSite p.1 == site)).map (fun p => s.share p.1)).sum

/-- Budget that the pool may lend: none that a waking tile has recalled. -/
def State.lendable (s : State) (site : Nat) : Nat := (s.site site).pool - s.wakingShares site

/-- One tile's grant of point p, recorded beside those that it has (R265). -/
def State.grantPoint (s : State) (t p : Nat) : State :=
  let x := s.tile t
  let more := s.pointCost t p - x.keeps
  (s.modTile t (fun x => { x with lent := x.lent + more, asked := none })).modSite (s.tileSite t) (fun y => { y with
    pool := y.pool - more, grants := if more = 0 then y.grants else y.grants ++ [(t, more)] })

/-- The tile asks for budget: a point above the granted one is wanted, and allowed on its site (R265, R407). -/
def State.asksPoint (s : State) (t : Nat) : Bool :=
  (s.tileMates t).all (fun u => !(s.tile u).gated) && s.granted t < min (s.wanted t) (s.site (s.tileSite t)).cap

/-- Every tile of a request. -/
def State.modMates (s : State) (t : Nat) (f : Tile → Tile) : State := (s.tileMates t).foldl (fun u x => u.modTile x f) s

/-- The tile of a site whose open request is oldest; the lowest of one TIME (log 54, DESIGN CHOICE). -/
def State.oldestAsker (s : State) (site : Nat) : Option Nat :=
  ((s.tiles.filter (fun p => p.2.asked.isSome && s.tileSite p.1 == site && s.asksPoint p.1)).foldl (fun (b : Option (Nat × Nat)) p =>
    let x := (p.2.asked.getD 0, p.1)
    match b with
    | none => some x
    | some y => if x.1 < y.1 ∨ (x.1 = y.1 ∧ x.2 < y.2) then some x else some y) none).map (·.2)

/-- A tile that asks for budget has its request noted, with the TIME, unless the table has refused it and the pool has not grown since (R265). -/
def State.noteAsk (s : State) (t : Nat) : State :=
  let m := s.tileMates t
  if m.any (fun u => (s.tile u).asked.isSome || (s.tile u).refused) || !s.asksPoint t then s
  else s.modMates t (fun x => { x with asked := some s.now })

/-- DAMPER_GRANT: a tile's request, noted before by a turn of its cores or else now, is answered when it is the oldest of its site: the highest point up to the wanted one that the
pool covers, for both tiles of a gang of eight or for neither, or a refusal until the pool grows (R264, R265). -/
def damperGrant (t : Nat) (s : State) : State :=
  let m := s.tileMates t
  let site := s.tileSite t
  if !s.asksPoint t then (if m.any (fun u => (s.tile u).asked.isSome) then s.modMates t (fun x => { x with asked := none }) else s)
  else if m.any (fun u => (s.tile u).refused) then s
  else
    let s1 := s.noteAsk t
    if !((s1.oldestAsker site).map m.contains).getD false then s1
    else
      let need (p : Nat) : Nat := (m.map (fun u => s.pointCost u p - (s.tile u).keeps)).sum
      let top := min (s.wanted t) (s.site site).cap
      let best := [4, 5, 6, 7].foldl (fun b p => if p ≤ top ∧ need p ≤ s.lendable site then p else b) 3
      if best ≤ s.granted t then s1.modMates t (fun x => { x with asked := none, refused := true })
      else m.foldl (fun u x => u.grantPoint x best) s1

def execDamperGrant (tile : Nat) (s : State) : Host.Outcome State Fault Refusal := .next (damperGrant tile s)

/-- TIME counts of 20 µs. -/
def gateTime : Nat := 2000

/-- TILE_GATE: a tile none of whose cores has had work for 20 µs is gated to OP0, and its budget and share join the pool (R263); the time
counts from when the lack of work is first seen (log 54, DESIGN CHOICE). -/
def tileGate (t : Nat) (s : State) : State :=
  let x := s.tile t
  if x.gated then s
  else if s.tileWork t then (if x.idleSince.isSome then s.modTile t (fun x => { x with idleSince := none }) else s)
  else match x.idleSince with
    | none => s.modTile t (fun x => { x with idleSince := some s.now })
    | some a =>
      if s.now < a + gateTime then s
      else
        let s1 := (s.giveBack t 0).modTile t (fun x => { x with
          gated := true, point := 0, called := 0, asked := none, refused := false, idleSince := none })
        s1.growPool (s.tileSite t) (s.share t)

def execTileGate (tile : Nat) (s : State) : Host.Outcome State Fault Refusal := .next (tileGate tile s)

/-- What a site's pool lacks of the shares that waking tiles wait for, beyond what is recalled. -/
def State.lacks (s : State) (site : Nat) : Nat :=
  s.wakingShares site - (s.site site).pool - ((s.site site).grants.map (fun g => (s.tile g.1).called)).sum

/-- Recall what the pool lacks from grants, the most recent first (R265); `gone` says how much of its later grants each tile has lost to recalls
before, which stand at its latest grants. -/
def takeBack (lack : Nat) (gone : List (Nat × Nat)) : List (Nat × Nat) → State → State
  | [], s => s
  | (t, n) :: older, s =>
    if lack = 0 then s
    else
      let before := (kvGet t gone).getD (s.tile t).called
      let cut := min lack (n - before)
      takeBack (lack - cut) (kvSet t (before - n) gone) older (s.modTile t (fun x => { x with called := x.called + cut }))

/-- TILE_WAKE: a gated tile that has work recalls its share, first from the pool, then from the latest grants, and is held at OP0 until the
pool holds it (R265); its first point is that of its POINT_SWITCH. -/
def tileWake (t : Nat) (s : State) : State :=
  let x := s.tile t
  if !x.gated || !(x.waking || s.tileWork t) then s
  else
    let i := s.tileSite t
    let s0 := s.modTile t (fun x => { x with waking := true })
    let s1 := if x.waking then s else takeBack (s0.lacks i) [] (s0.site i).grants.reverse s0
    if (s1.site i).pool < s.share t then s1
    else (s1.modSite i (fun y => { y with pool := y.pool - s.share t })).modTile t (fun x => { x with gated := false, waking := false })

def execTileWake (tile : Nat) (s : State) : Host.Outcome State Fault Refusal := .next (tileWake tile s)

/-- The point that a tile's divider switches to: the highest that is wanted, granted, permitted, and allowed on the site (R264, R407); a tile
that has lost its work keeps its point until it is gated. -/
def State.nextPoint (s : State) (t : Nat) : Nat :=
  let want := if s.wanted t = 0 then (s.tile t).point else s.wanted t
  min (min want (s.granted t)) (min (s.site (s.tileSite t)).cap (s.tile t).limit)

/-- POINT_SWITCH: the divider switches, for both tiles of a gang of eight; budget that a lower point frees, what is recalled of it included,
returns to the pool now (R264, R266; log 54, DESIGN CHOICE). -/
def pointSwitch (t : Nat) (s : State) : State :=
  let p := s.nextPoint t
  if (s.tile t).gated then s
  else (s.tileMates t).foldl (fun u v =>
    if (s.tile v).gated then u else (u.modTile v (fun x => { x with point := p })).giveBack v (s.pointCost v p)) s

def execPointSwitch (tile : Nat) (s : State) : Host.Outcome State Fault Refusal := .next (pointSwitch tile s)

/-- The tile's highest permitted point drops by one, never below OP1, with a class-5 record (R269). -/
def State.lowerLimit (s : State) (t : Nat) : State :=
  let x := s.tile t
  let s1 := s.modTile t (fun x => { x with limit := max 1 (x.limit - 1), retakes := [] })
  let s2 := { s1 with mgmt := { s1.mgmt with opLim := if x.limit = 7 then min 255 (s.mgmt.opLim + 1) else s.mgmt.opLim } }
  s2.logRecord 5 2 t 0 0

/-- OP_LIMIT_LOWER: a stage of the tile is repeated; the tile that has repeated more than 16 within 1 ms loses its highest point (R269; log 54,
DESIGN CHOICE for the event, which is one repeat). -/
def opLimitLower (t : Nat) (s : State) : State :=
  let recent := (s.tile t).retakes.filter (fun a => s.now ≤ a + oneMs) ++ [s.now]
  if recent.length ≤ 16 then s.modTile t (fun x => { x with retakes := recent }) else s.lowerLimit t

def execOpLimitLower (tile : Nat) (s : State) : Host.Outcome State Fault Refusal := .next (opLimitLower tile s)

/-! ### Temperature (R407) -/

/-- Every grant of a site is recalled; its tiles come down to what the site allows with their next POINT_SWITCH. -/
def State.recallAll (s : State) (site : Nat) : State :=
  ((s.site site).grants.map (·.1)).foldl (fun (u : State) t => u.modTile t (fun x => { x with called := x.lent })) s

def execThermalWarning (site : Nat) (s : State) : Host.Outcome State Fault Refusal :=
  .next ((s.modSite site (fun x => { x with warn := true })).recallAll site)

def execThermalThrottle (site : Nat) (s : State) : Host.Outcome State Fault Refusal :=
  .next ((s.modSite site (fun x => { x with throttle := true })).recallAll site)

/-- THERMAL_CRITICAL: a module-class error. -/
def execThermalCritical (site : Nat) (s : State) : Host.Outcome State Fault Refusal :=
  .next ((fun (_ : Nat) => s.moduleStop) site)

/-- CONE_POINT_RECOVERY: the hold at OP2 lifts first, else the block above OP3. -/
def execConePointRecovery (site : Nat) (s : State) : Host.Outcome State Fault Refusal :=
  .next (s.modSite site (fun x => if x.throttle then { x with throttle := false } else { x with warn := false }))

end Sys2Proof.Machine
end

