-- ==== Sys2Proof/Machine/Heap.lean ====
section
/-! DEFINITION. The managed heap: copying one object, heal (R171, R172, R343, R344), and the wedger commands FLIP, COPY and FREE (R339 to
R347). -/

namespace Sys2Proof.Machine

/-! ### References (R14, R171) -/

/-- A nonzero value with bit 63 set and its zero bits zero. -/
def wellFormedRef (r : Word) : Bool :=
  bitOf r.toNat 63 && bitsOf r.toNat 56 6 == 0 && r.toNat % 8 == 0

def refVa (r : Word) : Nat := r.toNat % 2 ^ 56
def refColour (r : Word) : Bool := bitOf r.toNat 62

def mkRef (colour : Bool) (va : Nat) : Word := BitVec.ofNat 64 (2 ^ 63 + b2n colour * 2 ^ 62 + va % 2 ^ 56)

/-- MHREF (R173). -/
def mhref (reason saddr : Nat) : Trap := { cause := .mhref, saddr, sinfo := reason }

/-! ### Pages of an address space -/

/-- The home's entry of a global address, or its PGNP (R172, R310). -/
def State.lookPage (s : State) (w : Who) (va : Nat) : Except Stop (State × HomeEntry) :=
  match s.homeEntry w.asid va with
  | .error x => .error (homeStop s w va va x)
  | .ok (s1, e, level) =>
    match protReason { w with need := .look } e.leaf.toNat with
    | some r => .error (.trapIn { cause := .pgprot, saddr := va, sinfo := pageInfo w.kind level e.big (homeOf va e.big) r } s1)
    | none => .ok (s1, e)

/-- The page of an object or field: MHREF, reason 3, when it is not of managed type. An address in the local window, which has no page, raises the
same (log 68, DESIGN CHOICE: R172 names no trap for it). -/
def State.managedPage (s : State) (w : Who) (va : Nat) : Except Stop (State × HomeEntry) :=
  if isLocal va then .error (.trap (mhref 3 va))
  else match s.lookPage w va with
    | .error e => .error e
    | .ok (s1, e) => if leafType e.leaf.toNat = 3 then .ok (s1, e) else .error (.trapIn (mhref 3 va) s1)

/-! ### Copying one object (R344) -/

def State.cycle (s : State) (asid : Nat) : Option Cycle := s.cycles.find? (fun c => c.asid == asid)

def State.modCycle (s : State) (asid : Nat) (f : Cycle → Cycle) : State :=
  { s with cycles := s.cycles.map (fun c => if c.asid = asid then f c else c) }

/-- The set page that holds an address: its base and the VA of its list entry. -/
def State.setPageOf (s : State) (c : Cycle) (va : Nat) : Option (Nat × Nat) :=
  c.set.find? (fun p => match s.walk c.asid p.1 with
    | .leaf _ _ big _ => p.1 ≤ va && va < p.1 + pageBytes big
    | .np _ _ => p.1 ≤ va && va < p.1 + 2 ^ 16)

/-- The length of the object whose header lies at a key (R171). -/
def objLength (m : Memory) (key : Nat) : Nat := max 8 (m.read key 8 % 2 ^ 32)

/-- Every page that [va, va + n) reaches is a valid type 3 leaf outside the set; `fuel` bounds the 64 KiB granules. -/
def State.freshRange (s : State) (c : Cycle) : Nat → Nat → Nat → Bool
  | 0, _, _ => true
  | fuel + 1, va, n =>
    if n = 0 then true
    else
      let m := min n (0x1_0000 - va % 0x1_0000)
      (match s.walk c.asid va with
        | .leaf l _ _ _ => leafType l == 3 && (s.setPageOf c va).isNone
        | .np _ _ => false) && s.freshRange c fuel (va + m) (n - m)

/-- Copy [old, old + n) to new, piece by piece within both granules; none while a home has no room for an entry (log 28, DEDUCED). -/
def State.copyObject (s : State) (w : Who) : Nat → Nat → Nat → Nat → Option State
  | 0, _, _, _ => some s
  | fuel + 1, old, new, n =>
    if n = 0 then some s
    else
      let m := min n (min (0x1_0000 - old % 0x1_0000) (0x1_0000 - new % 0x1_0000))
      match s.homeEntry w.asid old with
      | .error .full => none
      | .error (.np _ _) => some s
      | .ok (s1, e, _) =>
        match s1.homeEntry w.asid new with
        | .error .full => none
        | .error (.np _ _) => some s1
        | .ok (s2, f, _) =>
          let a := (s2.framePlace w old e).key
          let b := (s2.framePlace w new f).key
          let s3 := s2.performHome b m true
          ({ s3 with mem := s3.mem.copy a b m }).copyObject w fuel (old + m) (new + m) (n - m)

/-- The entry of an old header in a cycle's table is set. -/
def Cycle.mark (c : Cycle) (old : Nat) (f : FwdState) : Cycle :=
  { c with fwd := c.fwd.map (fun e => if e.1 = old then (e.1, e.2.1, f) else e) }

/-- A skipped entry retains its page: bit 0 of the page's list entry, which FLIP read in the poster's address space, is set (R344). -/
def State.retain (s : State) (c : Cycle) (old : Nat) : State :=
  match s.setPageOf c old with
  | none => s.modCycle c.asid (fun c => c.mark old .skipped)
  | some (page, entry) =>
    let s1 := match s.devRead c.poster entry 8 with
      | some (t, v) => (t.devWrite c.poster entry 8 (v / 2 * 2 + 1)).getD t
      | none => s
    s1.modCycle c.asid (fun c => { (c.mark old .skipped) with retained := if c.retained.contains page then c.retained else c.retained ++ [page] })

/-- L1 lines of every set page leave before the cycle's first copy (R241, R344). -/
def State.clearSetL1 (s : State) (c : Cycle) : State :=
  if c.fwd.any (fun e => e.2.2 != .pending) then s
  else c.set.foldl (fun (t : State) p => match t.walk c.asid p.1 with
    | .leaf l _ big _ => t.dropL1Keys (leafAddr l) (leafAddr l + pageBytes big)
    | .np _ _ => t) s

/-- Steps 1 to 5 of R344 for one pending entry; none while the copy waits for the movement of a page (R322), or for room in a home. -/
def State.relocate (s : State) (c : Cycle) (old new : Nat) : Option State :=
  let w := deviceWho c.asid 0 .look
  let s0 := s.clearSetL1 c
  match s0.homeEntry c.asid old with
  | .error .full => none
  | .error (.np _ _) => some (s0.retain c old)
  | .ok (s1, e, _) =>
    if e.hpin > 0 then some (s1.retain c old)
    else
      let n := (objLength s1.mem (s1.framePlace w old e).key + 7) / 8 * 8
      if !s1.freshRange c (n / 0x1_0000 + 2) new n then some (s1.retain c old)
      else if s1.rangeMoving c.asid old (old + n) || s1.rangeMoving c.asid new (new + n) then none
      else (s1.copyObject w (n / 0x8000 + 4) old new n).map (fun t => t.modCycle c.asid (fun c => c.mark old .copied))

/-- The forwarding entry of a header. -/
def State.fwdOf (s : State) (asid va : Nat) : Option (Cycle × Nat × FwdState) :=
  match s.cycle asid with
  | none => none
  | some c => (c.fwd.find? (fun e => e.1 == va)).map (fun e => (c, e.2.1, e.2.2))

/-- Where heal sends a header (R343): a pending object is copied at once; none while the copy waits. -/
def State.forward (s : State) (asid va : Nat) : Option (State × Nat) :=
  match s.fwdOf asid va with
  | none => some (s, va)
  | some (_, n, .copied) => some (s, n)
  | some (_, _, .skipped) => some (s, va)
  | some (c, n, .pending) => (s.relocate c va n).map (fun s1 => match s1.fwdOf asid va with
    | some (_, _, .copied) => (s1, n)
    | _ => (s1, va))

/-- heal (R172) of a nonzero well-formed reference (log 53, DEDUCED). -/
def heal (s : State) (r : Word) : Except Stop (State × Word) :=
  if refColour r == s.phase then .ok (s, r)
  else match s.forward s.cx.as (refVa r) with
    | none => .error .stall
    | some (s1, n) => match s.whole s1 with
      | .error e => .error e
      | .ok s1 => match s1.managedPage (s.who .heal .look) n with
        | .error (.trap t) => .error (.trapIn t s1)
        | .error e => .error e
        | .ok (s2, _) => .ok (s2, mkRef s.phase n)

/-- A derived address into an object that has been copied reaches the new copy (R177, R181) (log 24, DEDUCED). -/
def State.derived (s : State) (asid va : Nat) : Nat :=
  match s.cycle asid with
  | none => va
  | some c =>
    match c.fwd.find? (fun e => e.2.2 == .copied && e.1 ≤ va && (match s.walk asid e.1 with
        | .leaf l _ big _ => va < e.1 + objLength s.mem (leafAddr l + e.1 % pageBytes big)
        | .np _ _ => false)) with
    | some e => e.2.1 + (va - e.1)
    | none => va

/-! ### Wedger commands (R340 to R345) -/

/-- STATUS and RESULT of a command, which leaves the queue. -/
def State.heapDone (s : State) (poster va st result : Nat) : State :=
  let s1 := { s with heapCmds := s.heapCmds.drop 1 }
  (s1.blockStatus poster va 0x38 result).blockStatus poster va 0x30 st

/-- The oldest command's block, or none when it cannot be read. -/
def State.heapHead (s : State) : Option (State × Nat × Nat × List Nat) :=
  match s.heapCmds with
  | [] => none
  | (asid, va) :: _ => (s.devReads asid va 8).map (fun (s1, d) => (s1, asid, va, d))

/-- The fields of a command block obey R340. -/
def heapShape (va : Nat) (d : List Nat) : Bool :=
  let g (i : Nat) := d.getD i 0
  let op := g 0 % 4
  va % 64 == 0 && g 0 < 2 ^ 32 && bitsOf (g 0) 2 14 == 0 && op != 0
    && (if op = 1 then g 1 % 8 == 0 && 1 ≤ g 2 && g 2 ≤ 65536 && g 3 % 16 == 0 && g 4 ≤ 1048576 && g 5 % 0x1_0000 == 0
        else g 1 == 0 && g 2 == 0 && g 3 == 0 && g 4 == 0 && g 5 == 0)

/-- Take the oldest command when its OP is `op`; a malformed block ends with status 2 whichever event serves it. -/
def heapServe (op : Nat) (serve : Nat → Nat → List Nat → State → State) (s : State) : State := s.attempt fun s =>
  match s.heapHead with
  | none => match s.heapCmds with
    | [] => s
    | (asid, va) :: rest => { s.devLeft asid va 8 with heapCmds := rest }
  | some (s1, poster, va, d) =>
    if !heapShape va d then s1.heapDone poster va 2 0
    else if d.getD 0 0 % 4 ≠ op then s1
    else serve poster va d s1

/-- Pairs of a list of doublewords. -/
def pairsOf : List Nat → List (Nat × Nat)
  | a :: b :: t => (a, b) :: pairsOf t
  | _ => []

def noRepeat : List Nat → Bool
  | [] => true
  | a :: t => !t.contains a && noRepeat t

/-- The leaf of a type 3 page at an address. -/
def State.type3 (s : State) (asid va : Nat) : Bool :=
  !isLocal va && (match s.walk asid va with | .leaf l _ _ _ => leafType l == 3 | .np _ _ => false)

/-- The lists of a FLIP obey R342. -/
def State.flipOk (s : State) (c : Cycle) : Bool :=
  c.set.all (fun p => s.type3 c.asid p.1 && (match s.walk c.asid p.1 with
      | .leaf _ _ big _ => p.1 % pageBytes big == 0
      | .np _ _ => false))
    && noRepeat (c.set.map (·.1)) && noRepeat (c.fwd.map (·.1))
    && c.fwd.all (fun e => e.1 % 8 == 0 && e.1 < 2 ^ 56 && (s.setPageOf c e.1).isSome
        && e.2.1 % 8 == 0 && e.2.1 < 2 ^ 56 && (s.setPageOf c e.2.1).isNone && s.type3 c.asid e.2.1)

/-- FLIP (R342): the checks, the forwarding entries, the new colour on every core that runs the ASID, STATUS (log 53, DEDUCED). -/
def flipServe (poster va : Nat) (d : List Nat) (s : State) : State :=
  let g (i : Nat) := d.getD i 0
  let asid := bitsOf (g 0) 16 16
  if (s.cycle asid).isSome then s.heapDone poster va 3 0
  else if s.cycles.length ≥ 8 then s.heapDone poster va 6 0
  else match s.devReads poster (g 1) (g 2) with
    | none => (s.devLeft poster (g 1) (g 2)).heapDone poster va 5 0
    | some (s1, sl) =>
      match s1.devReads poster (g 3) (2 * g 4) with
      | none => (s1.devLeft poster (g 3) (2 * g 4)).heapDone poster va 5 0
      | some (s2, cl) =>
        let c : Cycle := { asid, poster, stage := .flipped, set := (sl.map (fun e => e / 2 * 2)).zip ((upTo (g 2)).map (fun i => g 1 + 8 * i)),
                           retained := [], fwd := (pairsOf cl).map (fun p => (p.1, p.2, .pending)) }
        let shape := sl.all (fun e => e / 2 * 2 % 2 ^ 16 == 0 && e < 2 ^ 56)
        if !shape || !s2.flipOk c then s2.heapDone poster va 4 0
        else
          let colour := !(((s2.space asid).map (·.colour)).getD false)
          let s3 := { s2.modSpace asid (fun p => { p with colour }) with cycles := s2.cycles ++ [c] }
          (s3.mapCores (fun k => if k.u.as = asid then { k with heapphase := colour } else k)).heapDone poster va 1 0

def execFlip (s : State) : Host.Outcome State Fault Refusal := .next (heapServe 1 flipServe s)

/-- Entries of the copy list in order, up to the first that has to wait (R344). -/
def State.copyRun (asid : Nat) : List (Nat × Nat × FwdState) → State → State
  | [], s => s
  | e :: rest, s => match s.forward asid e.1 with
    | none => s
    | some (s1, _) => if s1.blocked then s1 else s1.copyRun asid rest

/-- COPY (R344): every pending entry in list order, then RESULT counts objects copied and skipped and pages retained; while an object waits for a
page movement the command goes on later (R322; log 53, DEDUCED). -/
def copyServe (poster va : Nat) (d : List Nat) (s : State) : State :=
  let asid := bitsOf (d.getD 0 0) 16 16
  match s.cycle asid with
  | none => s.heapDone poster va 3 0
  | some c =>
    if c.stage ≠ .flipped then s.heapDone poster va 3 0
    else
      let s1 := s.copyRun asid c.fwd
      match s1.cycle asid with
      | none => s1
      | some c1 =>
        let n (f : FwdState) := (c1.fwd.filter (fun e => e.2.2 == f)).length
        if n .pending ≠ 0 then s1
        else (s1.modCycle asid (fun c => { c with stage := .copied })).heapDone poster va 1
          (n .copied + min 0xFFFF (n .skipped) * 2 ^ 32 + min 0xFFFF c1.retained.length * 2 ^ 48)

def execCopy (s : State) : Host.Outcome State Fault Refusal := .next (heapServe 2 copyServe s)

/-- A stale reference whose header lies on a set page that is to be freed. -/
def State.staleInSet (s : State) (c : Cycle) (r : Word) : Bool :=
  r != 0 && refColour r != ((s.space c.asid).map (·.colour)).getD false &&
    (match s.setPageOf c (refVa r) with
      | some (p, _) => !c.retained.contains p
      | none => false)

def staleCtx (s : State) (c : Cycle) (k : Ctx) : Bool := k.as == c.asid && k.q.toList.any (s.staleInSet c)

/-- The pages of the q registers of every spilled image of the address space are reached first. -/
def State.touchSpills (s : State) (asid : Nat) : State :=
  s.strands.foldl (fun (t : State) x => match x.spill with
    | some (a, _) => if x.asid = asid then (t.devTouch asid (a + 0x138)).devTouch asid (a + 0x1B0) else t
    | none => t) s

/-- A context whose q registers are live: it runs a strand, or holds one in the registers (R329). A context reserved for a held crew member holds
none: that member's are in its image. -/
def UWork.live (w : UWork) : Bool := w == .strand || w == .heldInRegs

/-- Some q register of the address space holds a stale reference into the set (R345): resident, parked, streamed, held or spilled. A spilled image
that cannot be read may hold one (log 53, DEDUCED). -/
def State.freeWaits (s : State) (c : Cycle) : Bool :=
  s.cores.any (fun p => (p.2.uWork.live && staleCtx s c p.2.u) || (p.2.aWork != .idle && staleCtx s c p.2.a)
      || p.2.arrival.any (fun q => staleCtx s c q.img.ctx))
    || s.moves.any (fun m => staleCtx s c m.img.ctx)
    || s.strands.any (fun t => t.asid == c.asid && (match t.spill with
        | some (a, _) => (match s.devReads c.asid (a + 0x138) 16 with
          | some (_, q) => q.any (fun v => s.staleInSet c (BitVec.ofNat 64 v))
          | none => true)
        | none => false))

/-- FREE (R345): it waits for the q registers and, as XINV does, for pins and movements of the pages; then the leaves of the pages that are not retained lose V (log 53, DEDUCED). -/
def freeServe (poster va : Nat) (d : List Nat) (s : State) : State :=
  let asid := bitsOf (d.getD 0 0) 16 16
  match s.cycle asid with
  | none => s.heapDone poster va 3 0
  | some c =>
    if c.stage ≠ .copied then s.heapDone poster va 3 0
    else
      let s := s.touchSpills asid
      let pages := (c.set.map (·.1)).filter (fun p => !c.retained.contains p)
      let held (p : Nat) : Bool := match s.walk asid p with
        | .leaf _ _ big _ => s.rangePinned asid p (p + pageBytes big) || s.rangeMoving asid p (p + pageBytes big)
        | .np _ _ => false
      if s.freeWaits c || pages.any held then s
      else
        let s1 := pages.foldl (fun (t : State) p => match t.walk asid p with
          | .leaf l pa big _ =>
            let t1 := t.dropRange asid p (p + pageBytes big)
            { t1 with mem := t1.mem.write pa 8 (l % 2 ^ 63) }
          | .np _ _ => t) s
        { s1 with cycles := s1.cycles.filter (fun o => o.asid != asid) }.heapDone poster va 1 pages.length

def execFree (s : State) : Host.Outcome State Fault Refusal := .next (heapServe 3 freeServe s)

end Sys2Proof.Machine
end

