-- ==== Sys2Proof/Machine/HostEvents.lean ====
section
/-! DEFINITION. What hosts, the memory pool and other modules do to the machine: ATS and PRI (R317 to R319), host and remote accesses
(R350, R351, R359), port, pool and fabric failures and recoveries (R348, R356 to R358). -/

namespace Sys2Proof.Machine

/-! ### ATS and PRI (R317, R318) -/

/-- ATS_COMPLETION of outstanding request k: a 4 KiB entry with the completion's rights (bit 0 R, bit 1 W) is cached; it waits while its set
has no room (R312). -/
def atsCompletion (k hpa rights : Nat) (s : State) : State :=
  match s.hostReqs[k]? with
  | none => s
  | some q =>
    if q.pri then s
    else match s.makeRoom q.site q.page with
      | none => s
      | some s1 =>
        let a : Ats := { site := q.site, asid := q.asid, port := q.port, pasid := q.pasid, page := q.page, hpa := hpa % 2 ^ 64 / 4096,
                         r := bitOf rights 0, w := bitOf rights 1, stamp := (s1.site q.site).home.clock }
        let s2 := s1.modHome q.site (fun h => { h with clock := h.clock + 1 })
        { s2 with hostReqs := s2.hostReqs.eraseIdx k,
                  ats := a :: s2.ats.filter (fun o => !(o.asid == q.asid && o.port == q.port && o.page == q.page)) }

def execAtsCompletion (k hpa rights : Nat) (s : State) : Host.Outcome State Fault Refusal := .next (atsCompletion k hpa rights s)

/-- A wait on a page request turns into another. -/
def Waiting.turn (w : Waiting) (req : Nat) (next : Waiting) : Waiting := if w = .host req then next else w

/-- Everything that waits on a page request goes on: parked strands become ready, and contexts, queued entries and the parked strands' own
contexts find `next` in place of their wait. -/
def State.wakeHost (s : State) (req : Nat) (next : Waiting) : State :=
  let ctx (x : Ctx) : Ctx := { x with waiting := x.waiting.turn req next }
  let entry (e : VEntry) : VEntry := { e with wait := e.wait.turn req next }
  let s1 := s.mapCores (fun k => { k with
    u := ctx k.u, a := ctx k.a, queue := k.queue.map entry,
    arrival := k.arrival.map (fun p => if p.state = .waitHost req then
      { p with state := .ready s.now, img := { p.img with ctx := { p.img.ctx with
          waiting := if next = .no then p.img.ctx.waiting else next } } } else p) })
  (s.cores.map (·.1)).foldl (fun t c => t.nextU c) s1

/-- The home drops the entry that granted no right. -/
def State.dropAts (s : State) (q : HostReq) : State :=
  { s with ats := s.ats.filter (fun o => !(o.asid == q.asid && o.port == q.port && o.page == q.page)) }

/-- The engine operations that wait on a page request. -/
def State.opsOn (s : State) (req : Nat) : List EngineOp := s.ops.filter (fun o => o.hostReq == some req)

/-- A page request that failed: every access that waits on it meets PGHOST with the reason, and an engine operation ends with status 4. The
answer itself is not kept; the device's own accesses, which wait by being made again, meet it until the device has been once round (log 70, DESIGN
CHOICE). -/
def State.failHost (s : State) (k : Nat) (q : HostReq) (reason : Nat) : State :=
  let s1 : State := { s.dropAts q with hostReqs := s.hostReqs.eraseIdx k, devFails := (q.asid, q.page, reason) :: s.devFails }
  ((s.opsOn q.id).foldl (fun (t : State) o => t.endOp o.id o.written 4) s1).wakeHost q.id (.hostFail q.page reason)

/-- PRI_RESPONSE of request k: Success sends a new ATS request; Invalid Request (1) and Response Failure end the waiters. -/
def priResponse (k code : Nat) (s : State) : State :=
  match s.hostReqs[k]? with
  | none => s
  | some q =>
    if !q.pri then s
    else if code = 0 then
      let s1 : State := { s.dropAts q with
        hostReqs := s.hostReqs.eraseIdx k ++ [{ q with id := s.nextId, pri := false, since := s.now }], nextId := s.nextId + 1 }
      ((s.opsOn q.id).foldl (fun (t : State) o => t.modOp o.id (fun o => { o with hostReq := none })) s1).wakeHost q.id .no
    else s.failHost k q (if code = 1 then 1 else 2)

def execPriResponse (k code : Nat) (s : State) : Host.Outcome State Fault Refusal := .next (priResponse k code s)

/-- PRI_TIMEOUT: 100 ms without a response. -/
def priTimeout (k : Nat) (s : State) : State :=
  match s.hostReqs[k]? with
  | none => s
  | some q => if q.pri && s.now ≥ q.since + 10000000 then s.failHost k q 3 else s

def execPriTimeout (k : Nat) (s : State) : Host.Outcome State Fault Refusal := .next (priTimeout k s)

/-! ### Invalidation (R319) -/

/-- ATS_INVALIDATION: cached entries of the PASID and range are dropped, and a completion is owed. -/
def atsInvalidation (port pasid va bytes : Nat) (s : State) : State :=
  let hit (a : Ats) : Bool := a.port == port % 4 && a.pasid == pasid && a.page * 4096 < va + bytes && va < (a.page + 1) * 4096
  { s with ats := s.ats.filter (fun a => !hit a), invals := s.invals ++ [{ port := port % 4, pasid, va, len := bytes }] }

def execAtsInvalidation (port pasid va bytes : Nat) (s : State) : Host.Outcome State Fault Refusal :=
  .next (atsInvalidation port pasid va bytes s)

/-- An access keeps a dropped translation of the range, or pins a page of it (R319). -/
def State.invalHeld (s : State) (v : HostInval) : Bool :=
  let meets (page : Nat) (big : Bool) : Bool := pageMeets page big v.va (v.va + v.len)
  let host (q : PinReq) (p : Nat × Bool) : Bool := match s.cached q.asid (p.1 * pageBytes p.2) with
    | some e => leafType e.leaf.toNat == 1 && bitsOf e.leaf.toNat 20 2 == v.port && bitsOf e.leaf.toNat 0 20 == v.pasid
    | none => false
  s.sites.any (fun t => t.home.pins.any (fun q => q.pages.any (fun p => meets p.1 p.2 && host q p))
    || (t.home.pins ++ t.home.waiting).any (fun q => q.ats.any (fun a => a.port == v.port && a.pasid == v.pasid
        && a.page * 4096 < v.va + v.len && v.va < (a.page + 1) * 4096)))

/-- INVALIDATION_COMPLETION: sent once every access that translated under a dropped entry has performed, and no translation pin on the range
is held. -/
def invalidationCompletion (k : Nat) (s : State) : State :=
  match s.invals[k]? with
  | none => s
  | some v => if s.invalHeld v then s else { s with invals := s.invals.eraseIdx k }

def execInvalidationCompletion (k : Nat) (s : State) : Host.Outcome State Fault Refusal := .next (invalidationCompletion k s)

/-! ### Accesses from outside (R350, R351, R359, R388) -/

/-- The line of a key leaves the L2 slice that holds it. -/
def State.dropL2 (s : State) (key : Nat) : State :=
  s.modL2 (s.sliceAt (key / 256 * 256)) (fun t => { t with lines := t.lines.filter (fun l => l.line ≠ key / 256) })

/-- HOST_SNOOP of a line of the memory of a port's host, or with bit 2 of the port number of the pool behind it (R350): the L2 slice and the L1
copies answer before any later device access. A host, or another user of the pool, snoops a line that it is about to read or write: whether it
writes the doubleword at the address, and what, is a free value, nothing else in the opcode table being a host's store to that memory (log 72,
DESIGN CHOICE). A port that is down, and a pool that is not there or dead, send none (R348, R357). -/
def hostSnoop (port addr : Nat) (s : State) : State :=
  let p := port % 4
  let pool := bitOf port 2
  let key := if pool then 2 ^ 46 + p * 2 ^ 44 + addr % 2 ^ 44 / 8 * 8 else (Loc.host p (addr % 2 ^ 52 / 8 * 8)).key
  if !(s.port p).up || (pool && (!(s.port p).pool || s.cxlDeadIn key 8)) then s
  else
    let (v, s1) := s.freshWord
    let (d, s2) := s1.freshWord
    if v.toNat % 2 = 0 then s1
    else if pool then { (s2.invalidate (key / 32) none).dropL2 key with mem := s2.mem.write key 8 d.toNat }
    else { s2 with mem := s2.mem.write key 8 d.toNat }

def execHostSnoop (port addr : Nat) (s : State) : Host.Outcome State Fault Refusal := .next (hostSnoop port addr s)

/-- What a host's read of a doubleword completes with: the data, or poison (R351, R380). -/
def State.hostData (s : State) (a : Nat) : Option Word := if s.mem.poisoned a 8 then none else some (BitVec.ofNat 64 (s.mem.read a 8))

/-- HOST_MEM_ACCESS of one doubleword through the CXL.mem range of a port: before READY writes are dropped, and reads complete with poison (R388).
The access performs at the home slice, which recalls conflicting L1 copies. A port that is down, or in PCIe mode, carries none (R348). Beyond the
end of HBM4E there is no such range (log 55, DESIGN CHOICE). -/
def execHostMemAccess (port pa write data : Nat) (s : State) : Host.Outcome State Fault Refusal :=
  let a := pa / 8 * 8
  if a ≥ s.hbmEnd then .fault .hostRange
  else if !(s.port port).up || !(s.port port).cxl then .next s
  else if !s.mgmt.ready then .next (if write % 2 = 1 then s else { s with hostRead := some none })
  else
    let s1 := s.performHome a 8 (write % 2 == 1)
    if write % 2 = 1 then .next { s1 with mem := s1.mem.write a 8 data } else .next { s1 with hostRead := some (s1.hostData a) }

/-- NODE_QUALIFIED_REMOTE_ACCESS of one doubleword: translated and performed here as an engine access of the ASID; a page that is not
present is reported to service code on the lowest core that the ASID owns (R359; log 34, DESIGN CHOICE). A write to a page that is being moved
does not perform yet, and is to come again (R321). -/
def remoteAccess (asid va write data : Nat) (s : State) : State :=
  let need : Need := if write % 2 = 1 then .w else .r
  let w : Who := { asid, core := 0, priv := false, kind := .engine, need, eng := write % 2 == 1 }
  if (s.space asid).isNone || isLocal va || va % 8 ≠ 0 || va ≥ 2 ^ 56 then s
  else
    let fault (t : Trap) (s : State) : State :=
      if t.cause ≠ .pgnp then s
      else match s.cores.find? (fun p => p.2.owner == some asid && s.live p.1) with
        | none => s
        | some (c, k) =>
          let (pc, s1) := s.freshWord
          s1.pushEntry c { cause := .pgnp, sepc := pc &&& 0x00FFFFFFFFFFFFFF, saddr := BitVec.ofNat 64 t.saddr,
                           sinfo := BitVec.ofNat 64 (t.sinfo + 2 ^ 22), sqimg := 0, pprv := false, actx := false, gangw := false,
                           image := 0, asid, sid := k.u.sid, held := false, engineOp := none }
    match s.globalAccess w va 8 with
    | .error (.trap t) => fault t s
    | .error (.trapIn t s1) => fault t s1
    | .error (.stallIn s1) => s1
    | .error (.parkHost _ s1) => s1
    | .error _ => s
    | .ok (s1, p) =>
      if write % 2 = 0 || s1.anyMoving asid [p] then s1
      else if p.typ = 2 then s1.writeCopies asid p (toBytes 8 data)
      else s1.placeWrite asid p (toBytes 8 data)

def execNodeQualifiedRemoteAccess (asid va write data : Nat) (s : State) : Host.Outcome State Fault Refusal :=
  .next (remoteAccess asid va write data s)

/-- The pending persists: the strands', and those of handlers that run for no strand. -/
def State.pendingPersists (s : State) : List (Nat × Nat) := s.strands.flatMap (·.persists) ++ s.cores.flatMap (·.2.aPersists)

/-- PERSIST_CONFIRMATION of the k-th pending line: it is durable for every strand that waits for it (R118, R356). -/
def persistConfirmation (k : Nat) (s : State) : State :=
  match s.pendingPersists[k]? with
  | none => s
  | some l =>
    if s.lineLost l.2 then s
    else
      let s1 : State := { s with strands := s.strands.map (fun (t : Strand) => { t with persists := t.persists.filter (· != l) }) }
      s1.mapCores (fun k => { k with aPersists := k.aPersists.filter (· != l) })

def execPersistConfirmation (k : Nat) (s : State) : Host.Outcome State Fault Refusal := .next (persistConfirmation k s)

/-! ### Failures (R357) and recoveries (R348, R358) -/

/-- A page of the syscall ring of an address space lies in the memory of a port's host. -/
def State.ringOn (s : State) (port : Nat) (sp : Space) : Bool :=
  (upTo ((sp.sysVa % 0x1_0000 + 64 + 64 * sp.sysSlots + 0xFFFF) / 0x1_0000)).any (fun k => match s.walk sp.asid (sp.sysVa + k * 0x1_0000) with
    | .leaf l _ _ _ => leafType l == 1 && bitsOf l 20 2 == port
    | .np _ _ => false)

/-- Outstanding SYSC tokens on rings of a dead host complete with all ones. -/
def State.failRings (s : State) (port : Nat) : State :=
  let dead := (s.spaces.filter (fun sp => sp.sysVa ≠ 0 && s.ringOn port sp)).map (·.asid)
  let gone := s.sysReqs.filter (fun r => dead.contains r.asid)
  gone.foldl (fun (t : State) r => if r.cancelled then t else t.deliver 0 r.asid r.sid .u r.reg (BitVec.allOnes 64) false)
    { s with sysReqs := s.sysReqs.filter (fun r => !dead.contains r.asid) }

/-- HOST_PORT_DOWN: ATS entries and requests of the port go, and those that waited on it meet PGHOST reason 3. -/
def hostPortDown (port : Nat) (s : State) : State :=
  let p := port % 4
  let gone := s.hostReqs.filter (fun q => q.port == p)
  let s1 : State := { (s.modPort p (fun t => { t with up := false })) with
    ats := s.ats.filter (fun (a : Ats) => a.port != p), hostReqs := s.hostReqs.filter (fun (q : HostReq) => q.port != p) }
  (gone.foldl (fun (t : State) q => t.wakeHost q.id .no) s1).failRings p

def execHostPortDown (port : Nat) (s : State) : Host.Outcome State Fault Refusal := .next (hostPortDown port s)

/-- Atoms of [a, a + n) are poisoned (log 51, DEDUCED). -/
def State.poisonRange (s : State) (a n : Nat) : State :=
  { s with mem := (upTo (atomsOf false a n)).foldl (fun m i => m.setPoison (a / 32 + i)) s.mem }

/-- PA of an offset in a port's CXL range. -/
def cxlPa (port offset : Nat) : Nat := 2 ^ 46 + port % 4 * 2 ^ 44 + offset % 2 ^ 44

/-- HOST_DEATH: what the dead host held modified becomes poisoned; `lines` counts the 32-byte atoms of one such run of lines. -/
def execHostDeath (port offset lines : Nat) (s : State) : Host.Outcome State Fault Refusal :=
  .next (s.poisonRange (cxlPa port offset / 32 * 32) (32 * lines))

/-- POOL_FAILURE: the range returns poison and drops stores from now on. -/
def execPoolFailure (port offset bytes : Nat) (s : State) : Host.Outcome State Fault Refusal :=
  .next { s with poolDead := s.poolDead ++ [(cxlPa port offset, bytes)] }

/-- CXL_ENGINE_FAILURE: the port's CXL range is marked down, with a class-9 record. -/
def execCxlEngineFailure (port : Nat) (s : State) : Host.Outcome State Fault Refusal :=
  .next ((s.modPort port (fun t => { t with cxlDown := true })).logRecord 9 6 (port % 4) 0 0)

def execHostPortUp (port : Nat) (s : State) : Host.Outcome State Fault Refusal :=
  .next (s.modPort port (fun t => { t with up := true }))

/-- The state of a fabric port, which changes bandwidth and no status (R358). -/
def State.setFabric (s : State) (port : Nat) (up : Bool) : State :=
  { s with mgmt := { s.mgmt with fabricUp := s.mgmt.fabricUp.set (port % 8) up } }

def execFabricPortDown (port : Nat) (s : State) : Host.Outcome State Fault Refusal := .next (s.setFabric port false)
def execFabricPortUp (port : Nat) (s : State) : Host.Outcome State Fault Refusal := .next (s.setFabric port true)

end Sys2Proof.Machine
end

