-- ==== Sys2Proof/Machine/Launch.lean ====
section
/-! DEFINITION. The launch schedulers and cluster task schedulers: JOB_TAKE, RECORD_READY, DISPATCH, CREW_RESERVATION, EPRIO_RAISE,
CLUSTER_TASK_DISPATCH, CLUSTER_TASK_RECHECK, QUEUE_CANCEL, EVENTS_LOST_REPORT and SCHEDULER_PREEMPT (R290 to R300, R332). -/

namespace Sys2Proof.Machine

/-! ### Records as read at dispatch (R30, R292) -/

structure Rec where
  entry : Nat
  size : Nat
  cls : Nat
  status : Nat
  wait : Nat
  deps : Nat
  count : Nat
  args : List Nat
deriving DecidableEq, Repr

/-- Reserved bits and the status range of a record (R30) (log 48, DEDUCED). -/
def badRec (d : List Nat) : Bool :=
  let w1 := d.getD 1 0
  let w3 := d.getD 3 0
  bitsOf w1 32 8 ≠ 0 || bitsOf w1 43 5 ≠ 0 || bitsOf w3 8 24 ≠ 0 || w3 % 256 > 5

/-- The record at va; none when it cannot be read or breaks R30. -/
def State.readRec (s : State) (asid va : Nat) : Option Rec :=
  match s.devReads asid va 8 with
  | none => none
  | some (t, d) =>
    if t.blocked || badRec d || va % 64 ≠ 0 then none
    else some { entry := d.getD 0 0, size := bitsOf (d.getD 1 0) 48 16, cls := bitsOf (d.getD 1 0) 40 3, status := d.getD 3 0 % 256,
                wait := d.getD 1 0 % 2 ^ 32, deps := d.getD 2 0, count := d.getD 3 0 / 2 ^ 32, args := d.drop 4 }

/-- The registers x4 to x7 of a dispatched strand (R26): the arguments, or the record address before arguments 1 to 3. -/
def recArgs (r : Rec) (va : Nat) (cluster : Bool) : Vector Word 4 :=
  let a (i : Nat) : Word := BitVec.ofNat 64 (r.args.getD i 0)
  #v[if cluster then BitVec.ofNat 64 va else a 0, a 1, a 2, a 3]

/-- Members of a record's crew: 1 for a single strand. -/
def Rec.members (r : Rec) : Nat := max 1 r.size

/-! ### Choosing cores (R295, R296) -/

/-- Distance forward from a core among the cores of the module (log 46, DEDUCED). -/
def State.ahead (s : State) (last t : Nat) : Nat := let m := max 1 s.coreCount; (t + m - last % m) % m

/-- The candidate with the least bucket, then the least forward distance from the last core served (log 49, DESIGN CHOICE). -/
def State.bySlots (s : State) (last : Nat) (l : List Nat) : Option Nat :=
  let key (t : Nat) : Nat := bucket (s.core t).arrival.length * (s.coreCount + 1) + s.ahead last t
  l.foldl (fun best t => match best with | none => some t | some b => if key t < key b then some t else some b) none

/-- An empty U context that a strand enters at once: no ready strand waits for it. -/
def State.emptySeat (s : State) (t : Nat) : Bool := s.mayEnter t && (oldestReady (s.core t).arrival).isNone

/-- The core for a single strand among the eligible: an empty U context first, else a free arrival-queue slot (R295). -/
def State.seatOne (s : State) (last : Nat) (l : List Nat) : Option Nat :=
  (s.bySlots last (l.filter s.emptySeat)).or (s.bySlots last (l.filter (fun t => s.freeSlot t && !s.heldFor t)))

/-- Cores of a site or cluster into which a crew could go: eligible, with empty U contexts. -/
def State.emptySeats (s : State) (l : List Nat) : List Nat := l.filter s.mayEnter

/-- The cores for a crew of n: the site with the most empty eligible cores, the lowest site first, members in logical-core order (log 49, DESIGN CHOICE). -/
def State.seatCrew (s : State) (l : List Nat) (n : Nat) : Option (List Nat) :=
  let seats (site : Nat) : List Nat := s.emptySeats (l.filter (fun c => s.siteOf c == site))
  let best := [1, 2, 3].foldl (fun b site => if (seats site).length > (seats b).length then site else b) 0
  if (seats best).length < n then none else some ((seats best).take n)

/-- The sites of a module with the number of live eligible cores of each. -/
def State.siteRoom (s : State) (cls site : Nat) : Nat := ((s.liveIn cls).filter (fun c => s.siteOf c == site)).length

/-! ### Placing a record -/

/-- One strand of a record starts on a core: in its empty U context when `direct` says so, as every crew member does, so that the members are
co-resident (R211, R216), else as a strand that arrives. -/
def State.startStrand (s : State) (c asid : Nat) (r : Rec) (t : Nat → Strand) (args : Vector Word 4) (direct : Bool) : State × Nat :=
  let (s1, sid) := s.newStrand asid t
  let g := newImage (BitVec.ofNat 64 r.entry) asid sid args
  ((s1.seat c g direct).getD s1, sid)

/-- The fixed part of a record has been read at its dispatch (R292, R304). -/
def State.noteActive (s : State) (asid va origin : Nat) (r : Rec) : State :=
  let t := s.unactive asid va
  { t with active := t.active ++ [{ asid, record := va, origin, deps := r.deps, count := r.count }] }

/-- A record's strands start on the cores given, their clock running from now (R301). `mark` records each placement (R405). -/
def State.startRecord (s : State) (asid va origin : Nat) (r : Rec) (cores : List Nat) (cluster direct : Bool)
    (mark : Nat → Nat → State → State) : State :=
  let (id, s0) := (s.noteActive asid va origin r).freshId
  let crew := if r.size ≥ 2 then some id else none
  let site := s.siteOf (cores.headD 0)
  let base (c sid : Nat) : Strand :=
    { blankStrand asid sid with origin, record := va, crew, dispatched := some s.now, lastCore := c }
  let (s1, sids, _) := cores.foldl (fun (acc : State × List Nat × Nat) c =>
    let (u, sid) := acc.1.startStrand c asid r (base c) (recArgs r va cluster) (direct || r.size ≥ 2)
    (mark c acc.2.2 u, acc.2.1 ++ [sid], acc.2.2 + 1)) (s0, [], 0)
  if r.size ≥ 2 then
    { s1 with crews := s1.crews ++ [{ id, asid, site, record := va, members := sids, exited := [], arrived := [], released := [],
                                      abnormal := false, clsMask := r.cls }] }
  else s1

/-- Dispatch's CAS of the status from 1 to 2 (R292): false when the record is dropped, with a CBFMT event unless it was cancelled. -/
def State.claimRec (s : State) (asid va origin : Nat) : State × Bool :=
  match s.casStatus asid va 1 2 with
  | some s1 => (s1, true)
  | none => match s.recordStatus asid va with
    | some (s1, 5) => (s1, false)
    | _ => (s.cbfmtEvent asid origin va 3, false)

/-! ### The queues (R290, R294) -/

/-- Queue q of an address space runs: its descriptor is good and STATE is 0. -/
def State.queueRuns (s : State) (asid q : Nat) : Bool :=
  match s.space asid with
  | none => false
  | some sp => !((sp.queue q).map (·.bad)).getD true && (match s.queueState asid q with | some (t, 0) => !t.blocked | _ => false)

/-- The descriptor of a queue is within reach. -/
def State.touchQueue (s : State) (asid q : Nat) : State := match s.space asid with
  | some sp => s.devTouch asid (sp.descVa q)
  | none => s

/-- A record is within reach: it may lie in no more than one page of 4 KiB. -/
def State.touchRecs (s : State) (asid : Nat) (l : List Nat) : State := l.foldl (fun (t : State) va => t.devTouch asid va) s

/-- Write EPRIO where the descriptor shows it. -/
def State.setEprio (s : State) (asid q p : Nat) : State :=
  let s1 := s.modQueue asid q (fun k => { k with eprio := p })
  match s1.space asid with
  | none => s1
  | some sp => (s1.devWrite asid (sp.descVa q + 0x38) 8 p).getD s1

/-- A queue with its address space and number. -/
abbrev QRef := Nat × Nat × LQueue

/-- The queues that a site's scheduler serves, ordered by (ASID, queue number). -/
def State.siteQueues (s : State) (site : Nat) : List QRef :=
  let ids := (s.spaces.map (·.asid)).mergeSort (fun a b => decide (a ≤ b))
  ids.flatMap (fun a => match s.space a with
    | none => []
    | some sp => ((upTo 64).filter (fun q => q % 4 == site % 4)).filterMap (fun q => (sp.queue q).map (fun k => (a, q, k))))

/-- How a ready record stands at a scheduling decision. -/
inductive Seat where
  /-- It breaks R30. -/
  | bad
  /-- It can never be placed (R296). -/
  | never
  /-- It cannot be placed now. -/
  | wait
  | on (r : Rec) (cores : List Nat)
deriving DecidableEq, Repr

/-- Cores that replay records for the next n placements of a record. -/
def State.replayCores (s : State) (va n : Nat) : Option (List Nat) :=
  (upTo n).mapM (fun i => ((s.replayAt (s.mgmt.capPos + i)).bind (placeRecord va)).map (·.1))

/-- A record may start on the cores that replay names: members in empty U contexts, a single strand in an arrival queue too. -/
def State.canStart (s : State) (r : Rec) (l : List Nat) : Bool := l.all (fun c => s.mayEnter c || (r.size < 2 && s.freeSlot c))

/-- Where a ready record of a queue goes (R295, R296), or in replay the recorded cores (R406). -/
def State.seatRec (s : State) (asid va last : Nat) : Seat :=
  match s.readRec asid va with
  | none => .bad
  | some r =>
    let elig := s.liveIn r.cls
    if r.size > 128 || (r.size ≥ 2 && (upTo 4).all (fun i => s.siteRoom r.cls i < r.size)) then .never
    else if s.mgmt.capMode = 2 then
      match s.replayCores va r.members with
      | some l => if (s.asReserved asid va).canStart r l then .on r l else .wait
      | none => .wait
    else if r.size < 2 then
      match s.seatOne last elig with
      | some c => .on r [c]
      | none => .wait
    else
      let u := s.asReserved asid va
      let l := match s.reservedSite asid va with
        | some site => elig.filter (fun c => s.siteOf c == site)
        | none => elig
      match u.seatCrew l r.size with
      | some cs => .on r cs
      | none => .wait

/-- The first record of a queue that a decision acts on; records that cannot be placed now are passed over, but for a crew that holds a
reservation, behind which its queue waits (R294) (log 49, DESIGN CHOICE). -/
def State.pickRec (s : State) (asid last : Nat) : List ReadyRec → Option (ReadyRec × Seat)
  | [] => none
  | r :: t => match s.seatRec asid r.record last with
    | .wait => if (s.reservedSite asid r.record).isSome then none else s.pickRec asid last t
    | x => some (r, x)

/-- The visit of a priority's round. -/
def Site.visit (t : Site) (prio : Nat) : Option Visit := t.visits.find? (fun v => v.prio == prio)

/-- The queue that a round serves next: the one visited, while its visit has dispatches left, else the next in the order. -/
def nextInRound (v : Option Visit) (l : List QRef) : Option QRef :=
  match v with
  | none => l.head?
  | some v =>
    let same := l.find? (fun (a, q, _) => a == v.asid && q == v.queue)
    match same.filter (fun (_, _, k) => v.taken < k.weight) with
    | some x => some x
    | none => (l.find? (fun (a, q, _) => a > v.asid || (a == v.asid && q > v.queue))).or l.head?

/-- The visit after one more dispatch from a queue. -/
def Site.noteVisit (t : Site) (prio asid queue weight : Nat) : Site :=
  let taken := match t.visit prio with
    | some v => if v.asid = asid ∧ v.queue = queue ∧ v.taken < weight then v.taken + 1 else 1
    | none => 1
  { t with visits := t.visits.filter (fun v => v.prio != prio) ++ [{ prio, asid, queue, taken }] }

/-- The record leaves its queue's ready list. -/
def State.unready (s : State) (asid q va : Nat) : State :=
  s.modQueue asid q (fun k => { k with ready := k.ready.filter (fun r => r.record != va) })

/-- The record leaves its queue's ready list without a dispatch, and a reservation that its crew holds ends. -/
def State.dropReady (s : State) (asid q va : Nat) : State := (s.unready asid q va).unreserve asid va

/-- A crew that can never be placed completes faulted with event 6, as a record of a queue (R296) or of a cluster's (R297). -/
def State.failCrew (s : State) (asid q va : Nat) : State :=
  match (s.event asid 6 (q % 64) va 0).claimRec asid va q with
  | (s1, true) => ((s1.completeRecord asid va q true).map (·.1)).getD s1
  | (s1, false) => s1

def State.unplaceable (s : State) (asid q va : Nat) : State := (s.dropReady asid q va).failCrew asid q va

/-- A seated record is dispatched (R292, R294). The cores that its crew held and does not take are free again. -/
def State.dispatchOn (s : State) (site asid q : Nat) (k : LQueue) (va : Nat) (r : Rec) (cores : List Nat) (direct : Bool) : State :=
  match (s.unready asid q va).claimRec asid va q with
  | (s1, false) => s1.unreserve asid va
  | (s1, true) =>
    let s2 := s1.modSite site (fun t => t.noteVisit k.eprio asid q (max 1 k.weight))
    let s3 := (s2.startRecord asid va q r cores false direct (fun c i u => u.placed va c i)).unreserve asid va
    (s3.modQueue asid q (fun k => { k with lastCore := cores.getLastD 0, lastDispatch := s.now, raisedAt := s.now })).setEprio asid q k.prio

/-- The queues with a record to act on, with that record. -/
def State.dispatchable (s : State) (site : Nat) : List (QRef × ReadyRec × Seat) :=
  (s.siteQueues site).filterMap (fun (a, q, k) =>
    if s.queueRuns a q then (s.pickRec a k.lastCore k.ready).map (fun (r, x) => ((a, q, k), r, x)) else none)

/-- The queues of a site that have ready records, and those records, are within reach. -/
def State.touchReady (s : State) (site : Nat) : State :=
  (s.siteQueues site).foldl (fun (t : State) (a, q, k) =>
    if k.ready.isEmpty then t else (t.touchQueue a q).touchRecs a (k.ready.map (·.record))) s

/-- DISPATCH: one scheduling decision of a site (log 49, DESIGN CHOICE). -/
def dispatchSite (site : Nat) (s : State) : State := s.attempt fun s =>
  let s := s.touchReady site
  let l := s.dispatchable site
  let top := (l.map (fun (x, _) => x.2.2.eprio)).foldl max 0
  let round := l.filter (fun (x, _) => x.2.2.eprio == top)
  match nextInRound ((s.site site).visit top) (round.map (·.1)) with
  | none => s
  | some (a, q, k) =>
    match round.find? (fun (x, _) => x.1 == a && x.2.1 == q) with
    | none => s
    | some (_, r, .bad) => ((s.dropReady a q r.record).cbfmtEvent a q r.record 3).endJob a r.record true
    | some (_, r, .never) => s.unplaceable a q r.record
    | some (_, r, .on x cores) => if s.capRoom x.members then s.dispatchOn site a q k r.record x cores false else s.capHold
    | some (_, _, .wait) => s

def execDispatch (site : Nat) (s : State) : Host.Outcome State Fault Refusal := .next (dispatchSite site s)

/-! ### JOB_TAKE (R291, R405, R406) -/

/-- The first zero field or alignment of a job record that R291 does not allow. -/
def badJob (d : List Nat) : Bool :=
  let g (i : Nat) := d.getD i 0
  g 1 > 1 || g 2 % 64 ≠ 0 || (g 1 = 0 && g 3 ≠ 0) || g 5 ≠ 0 || g 6 ≠ 0 || g 7 ≠ 0

/-- A job that is skipped: a CBFMT event, and the abnormal update of its completion word (R291). -/
def State.skipJob (s : State) (asid q va kind completion p : Nat) : State :=
  let s1 := s.cbfmtEvent asid (q % 64) va kind
  if completion = 0 then s1 else s1.joinUpdate asid completion true (1 + p % 0xFFFF)

/-- A KIND 1 job makes its run (R291, R303), and ends at once when that has been cancelled whole as it was made; with no run slot free it waits for one (log 33, DESIGN CHOICE). The event of a template or patch
list that GRUN's checks refuse names the template (R300). -/
def State.startRun (s : State) (j : Job) (template patch : Nat) : State :=
  match s.instantiate j.asid template patch j.queue with
  | .error _ => s.skipJob j.asid j.queue template 4 j.completion j.pos
  | .ok (s1, 0) => { s1 with jobs := s1.jobs ++ [{ j with waits := some (template, patch) }] }
  | .ok (s1, h) =>
    let s2 : State := { s1 with jobs := s1.jobs ++ [{ j with record := h }] }
    match s2.runs.reverse.find? (fun r => r.asid == j.asid && r.handle == h) with
    | some r => if r.left = 0 then s2.endJob j.asid h r.bad else s2
    | none => s2

/-- What a job does once taken (R291). -/
def State.startJob (s : State) (asid q slot p : Nat) (d : List Nat) : State :=
  let g (i : Nat) := d.getD i 0
  let j : Job := { asid, queue := q, pos := p, record := g 2, isRun := g 1 == 1, completion := g 4 }
  if badJob d then s.skipJob asid q slot 2 (g 4) p
  else if g 1 = 0 then
    let s := s.devTouch asid (g 2)
    match s.recordStatus asid (g 2), s.recordWait asid (g 2) with
    | some (_, 0), some (_, 0) => ({ s with jobs := s.jobs ++ [j] }).makeReady asid (g 2) q
    | _, _ => s.skipJob asid q slot 2 (g 4) p
  else s.startRun j (g 2) (g 3)

/-- The jobs of a queue that wait for a run slot try again, oldest first, while the queue runs (log 33, DESIGN CHOICE). -/
def State.retryRuns (s : State) (asid q : Nat) : State :=
  let mine := s.jobs.filter (fun j => j.asid == asid && j.queue == q && j.waits.isSome)
  mine.foldl (fun (t : State) j => match j.waits with
    | some (template, patch) => { t with jobs := t.jobs.erase j }.startRun { j with waits := none } template patch
    | none => t) s

/-- Kind 1 of a capture record: ASID, queue, position, and the record. -/
def jobHead (asid q p : Nat) : Nat := capHead 1 q asid p

/-- The next recorded choice is the first take of an address space. -/
def State.replayFirst (s : State) (asid : Nat) : Bool :=
  match s.replayNext with
  | some d => d.getD 0 0 % 256 == 2 && bitsOf (d.getD 0 0) 16 16 == asid
  | none => false

/-- The buffers of an address space are still to be digested, or compared in replay: no job of it has been taken in this mode. -/
def State.firstDue (s : State) (asid : Nat) : Bool := s.mgmt.capMode ≠ 0 && !((s.space asid).map (·.digested)).getD true

/-- The first take of an address space: its buffers are digested, or compared in replay in the turn of that record (R404 to R406). -/
def State.firstTake (s : State) (asid : Nat) : State :=
  let s1 := s.modSpace asid (fun p => { p with digested := true })
  if !s.firstDue asid then s
  else if s.mgmt.capMode = 1 then s1.capDigests asid
  else if !s.replayFirst asid then s
  else
    let (s2, same) := s1.capAgree asid
    if same then s2.replayTake else s2.endReplay 5

/-- The next position of a queue's ring is taken when its job is there. -/
def takeNext (asid q : Nat) (s : State) : State :=
  match s.space asid with
  | none => s
  | some sp =>
    match sp.queue q, s.devRead asid (sp.descVa q + 0x20) 8 with
    | some k, some (s1, p) =>
      if !s.queueRuns asid q || k.slots = 0 then s
      else
        let slot := k.ring + p % k.slots * 64
        match s1.devReads asid slot 8 with
        | none => s
        | some (s2, d) =>
          if d.getD 0 0 ≠ p + 1 then s
          else if !s.capRoom (if s.firstDue asid then 2 else 1) then s.capHold
          else
            let s3 := s2.firstTake asid
            if s3.mgmt.capMode = 2 && (s3.firstDue asid || (s3.replayNext.map (·.getD 0 0)) != some (jobHead asid q p)) then s3
            else
              let s4 := (s3.devWrite asid slot 8 (p + k.slots)).getD s3
              let s5 := ((s4.devWrite asid (sp.descVa q + 0x20) 8 (p + 1)).getD s4).startJob asid q slot p d
              if s5.mgmt.capMode = 2 then s5.replayTake else s5.capture (jobHead asid q p) (d.take 5)
    | _, _ => s

/-- JOB_TAKE of a queue: FAULT clears after a thaw, jobs that wait for a run slot go on, and the next position is taken. -/
def jobTake (asid q : Nat) (s : State) : State := s.attempt fun s =>
  let s1 := (s.touchQueue asid q).thaw asid q
  if s1.queueRuns asid q then takeNext asid q (s1.retryRuns asid q) else s1

def execJobTake (asid queue : Nat) (s : State) : Host.Outcome State Fault Refusal := .next (jobTake asid queue s)

/-! ### RECORD_READY, CREW_RESERVATION, EPRIO_RAISE (R292, R294, R296, R298) -/

/-- A cluster queue entry holds a record. -/
def State.clusterHolds (s : State) (asid va : Nat) : Bool :=
  s.clusters.any (fun p => p.2.tasks.any (fun e => e.asid == asid && e.record == va))

/-- RECORD_READY: a record of a released run, or one that a cluster queue entry holds. -/
def recordReady (asid va : Nat) (s : State) : State := s.attempt fun s =>
  match s.runOf asid va with
  | some r => if r.released then s.makeReady asid va r.origin else s
  | none => if s.clusterHolds asid va then s.clusterReady asid va else s

def execRecordReady (asid record : Nat) (s : State) : Host.Outcome State Fault Refusal := .next (recordReady asid record s)

/-- The site with the most live eligible cores, the lowest first (R296). -/
def State.bestSite (s : State) (cls : Nat) : Nat :=
  [1, 2, 3].foldl (fun b i => if s.siteRoom cls i > s.siteRoom cls b then i else b) 0

/-- The crews of cluster queues that have been ready and unplaced for 2 ms, with the TIME since when (R297). -/
def State.clusterCrews (s : State) : List (Nat × Reservation) :=
  s.clusters.flatMap (fun p => p.2.tasks.filterMap (fun e => match s.readRec e.asid e.record, e.since with
    | some x, some t => if 2 ≤ x.size ∧ x.size ≤ 16 ∧ t + 2 * oneMs ≤ s.now
        then some (t, { asid := e.asid, queue := e.origin, record := e.record, cls := 4, cluster := some p.1 }) else none
    | _, _ => none))

/-- Every crew of a launch queue that has been ready and unplaced for 2 ms, with the TIME since when. -/
def State.queueCrews (s : State) : List (Nat × Reservation) :=
  s.spaces.flatMap (fun sp => ((upTo 64).filterMap (fun q => (sp.queue q).map (fun k => (q, k)))).flatMap (fun (q, k) =>
    k.ready.filterMap (fun r => match s.readRec sp.asid r.record with
      | some x => if 2 ≤ x.size ∧ x.size ≤ 128 ∧ r.since + 2 * oneMs ≤ s.now
          then some (r.since, { asid := sp.asid, queue := q, record := r.record, cls := x.cls }) else none
      | none => none)))

/-- The site that a waiting crew reserves: that of its cluster, or the one with the most live eligible cores (R296, R297). -/
def State.siteFor (s : State) (r : Reservation) : Nat := match r.cluster with
  | some k => s.siteOf (16 * k)
  | none => s.bestSite r.cls

/-- CREW_RESERVATION: the oldest waiting crew of a launch queue or cluster queue whose site this is reserves it, when it carries no
reservation (log 49, DESIGN CHOICE). -/
def crewReservation (site : Nat) (s : State) : State :=
  if (s.site site).reserve.isSome then s
  else
    let l := (s.queueCrews ++ s.clusterCrews).filter (fun (_, r) =>
      s.siteFor r == site % 4 && (s.reservedSite r.asid r.record).isNone && s.queueRuns r.asid r.queue)
    match l.foldl (fun (b : Option (Nat × Reservation)) x => match b with
        | none => some x
        | some y => if x.1 < y.1 then some x else some y) none with
    | none => s
    | some (_, r) => s.modSite site (fun t => { t with reserve := some r })

def execCrewReservation (site : Nat) (s : State) : Host.Outcome State Fault Refusal := .next (crewReservation site s)

/-- EPRIO_RAISE: one level for each 8 ms that the oldest ready record has waited without a dispatch from its queue (R294). -/
def eprioRaise (asid q : Nat) (s : State) : State := s.attempt fun s =>
  match (s.space asid).bind (·.queue q) with
  | none => s
  | some k => match k.ready with
    | [] => s
    | r :: _ =>
      let start := max r.since (max k.lastDispatch k.raisedAt)
      let n := (s.now - start) / (8 * oneMs)
      if k.eprio ≥ 7 || n = 0 then s
      else (s.modQueue asid q (fun k => { k with raisedAt := start + n * (8 * oneMs) })).setEprio asid q (min 7 (k.eprio + n))

def execEprioRaise (asid queue : Nat) (s : State) : Host.Outcome State Fault Refusal := .next (eprioRaise asid queue s)

/-! ### Cluster task queues (R297) -/

/-- The tensor cores of a cluster, in order of forward distance from the last core served. -/
def State.clusterCores (s : State) (k : Nat) : List Nat :=
  let last := (s.cluster k).lastCore
  ((upTo 16).map (fun i => 16 * k + (last % 16 + i) % 16)).filter s.live

/-- An entry leaves the queue. -/
def State.freeTask (s : State) (k : Nat) (e : ClEntry) : State := s.modCluster k (fun q => { q with tasks := q.tasks.erase e })

/-- An entry leaves the queue without a dispatch, and a reservation that its crew holds ends. -/
def State.dropTask (s : State) (k : Nat) (e : ClEntry) : State := (s.freeTask k e).unreserve e.asid e.record

/-- Cores for an entry's record in its cluster. -/
def State.seatTask (s : State) (k : Nat) (e : ClEntry) (r : Rec) : Option (List Nat) :=
  let l := s.clusterCores k
  if r.size < 2 then
    ((l.find? s.emptySeat).or (s.bySlots ((s.cluster k).lastCore) (l.filter (fun t => s.freeSlot t && !s.heldFor t)))).map (fun c => [c])
  else
    let seats := ((s.asReserved e.asid e.record).emptySeats l).mergeSort (fun a b => decide (a ≤ b))
    if seats.length < r.size then none else some (seats.take r.size)

/-- A capture record of kind 5. -/
def taskHead (k core : Nat) : Nat := capHead 5 0 k core

/-- Replay forces the next n cluster dispatches (R406): their cores for this record. Each is followed by its placement (R405). -/
def State.replayTask (s : State) (k va n : Nat) : Option (List Nat) :=
  (upTo n).mapM (fun i => (s.replayAt (s.mgmt.capPos + 2 * i)).bind (fun d =>
    if d.getD 0 0 % 2 ^ 32 = capHead 5 0 k 0 ∧ d.getD 2 0 = va then some (d.getD 0 0 / 2 ^ 32) else none))

/-- An entry's record is dispatched to cores of its cluster (R292, R297). -/
def State.dispatchTask (s : State) (k : Nat) (e : ClEntry) (r : Rec) (cores : List Nat) : State :=
  match (s.freeTask k e).claimRec e.asid e.record e.origin with
  | (s1, false) => s1.unreserve e.asid e.record
  | (s1, true) =>
    let mark (c i : Nat) (u : State) : State :=
      (if u.mgmt.capMode = 2 then u.replayTake else u.capture (taskHead k c) [e.record]).placed e.record c i
    let s2 := (s1.startRecord e.asid e.record e.origin r cores true false mark).unreserve e.asid e.record
    s2.modCluster k (fun q => { q with lastCore := cores.getLastD 0 })

/-- The oldest ready entry whose origin queue runs goes to its cores, and all wait for it until they are there (R297; log 49, DESIGN CHOICE). -/
def clusterPick (k : Nat) : List ClEntry → State → State
  | [], s => s
  | e :: t, s =>
    if !s.queueRuns e.asid e.origin then clusterPick k t s
    else match s.readRec e.asid e.record with
      | none => (s.dropTask k e).cbfmtEvent e.asid e.origin e.record 3
      | some r =>
        if r.status = 0 then clusterPick k t s
        else if (r.cls ≠ 0 && !bitOf r.cls 2) || r.size > 16 then (s.dropTask k e).cbfmtEvent e.asid e.origin e.record 3
        else if r.status ≠ 1 then ((s.dropTask k e).claimRec e.asid e.record e.origin).1
        else if r.size ≥ 2 && r.size > (s.clusterCores k).length then (s.dropTask k e).failCrew e.asid e.origin e.record
        else if s.mgmt.capMode = 2 then
          match s.replayTask k e.record r.members with
          | none => clusterPick k t s
          | some cores => if (s.asReserved e.asid e.record).canStart r cores then s.dispatchTask k e r cores else s
        else match s.seatTask k e r with
          | none => s
          | some cores => if s.capRoom (2 * cores.length) then s.dispatchTask k e r cores else s.capHold

/-- The origin queues and the records of a cluster's entries are within reach. -/
def State.touchTasks (s : State) (k : Nat) : State :=
  (s.cluster k).tasks.foldl (fun (t : State) e => (t.touchQueue e.asid e.origin).devTouch e.asid e.record) s

/-- CLUSTER_TASK_DISPATCH. -/
def clusterDispatch (k : Nat) (s : State) : State := s.attempt fun s => clusterPick k (s.cluster k).tasks (s.touchTasks k)

def execClusterTaskDispatch (cluster : Nat) (s : State) : Host.Outcome State Fault Refusal := .next (clusterDispatch cluster s)

/-- The entry of a record that is ready knows since when. -/
def ClEntry.seen (e : ClEntry) (s : State) : ClEntry :=
  match s.recordStatus e.asid e.record with
  | some (_, 1) => if e.since.isSome then e else { e with since := some s.now }
  | _ => { e with since := none }

/-- CLUSTER_TASK_RECHECK of entry j. -/
def clusterRecheck (k j : Nat) (s : State) : State := s.attempt fun s =>
  match (s.cluster k).tasks[j]? with
  | none => s
  | some e =>
    let s1 := s.clusterReady e.asid e.record
    s1.modCluster k (fun q => { q with tasks := q.tasks.modify j (fun e => e.seen s1) })

def execClusterTaskRecheck (cluster k : Nat) (s : State) : Host.Outcome State Fault Refusal := .next (clusterRecheck cluster k s)

/-! ### QUEUE_CANCEL, EVENTS_LOST_REPORT (R299, R300) -/

/-- Ready and pending records of an origin that the device holds: in its ready list, in its released or waiting runs, and in cluster
queue entries; a run that has ended holds none, and its slot may be another's. -/
def State.heldRecords (s : State) (asid q : Nat) : List Nat :=
  (((s.space asid).bind (·.queue q)).map (fun k => k.ready.map (·.record))).getD []
    ++ runRecords (s.runs.filter (fun r => r.asid == asid && r.origin % 64 == q % 64 && r.left != 0))
    ++ s.clusters.flatMap (fun p => (p.2.tasks.filter (fun e => e.asid == asid && e.origin % 64 == q % 64)).map (·.record))

/-- The jobs of a queue that wait for a run slot end, having no run to cancel (log 33, DESIGN CHOICE). -/
def State.dropRuns (s : State) (asid q : Nat) : State :=
  let mine (j : Job) : Bool := j.asid == asid && j.queue == q && j.waits.isSome
  (s.jobs.filter mine).foldl (fun (t : State) j => t.completeJob j true) { s with jobs := s.jobs.filter (fun j => !mine j) }

/-- QUEUE_CANCEL: STATE 2 cancels them, clears FAULT and sets STATE to 0. -/
def queueCancel (asid q : Nat) (s : State) : State := s.attempt fun s =>
  let s := s.touchQueue asid q
  match s.space asid, s.queueState asid q with
  | some sp, some (_, 2) =>
    let s1 := (s.heldRecords asid q).foldl (fun (t : State) va =>
      let next := runRecords (t.serialWaiters asid va)
      let (u, did) := t.cancelOne asid va
      if did then u.cancelWalk asid walkFuel next else u) ((s.dropRuns asid q).modQueue asid q (fun k => { k with frozen := false }))
    let s2 := (s1.devWrite asid (sp.descVa q + 0x30) 8 0).getD s1
    match s2.devRead asid (sp.descVa q + 0x28) 8 with
    | some (s3, v) => (s3.devWrite asid (sp.descVa q + 0x28) 8 (v - v % 4)).getD s3
    | none => s2
  | _, _ => s

def execQueueCancel (asid queue : Nat) (s : State) : Host.Outcome State Fault Refusal := .next (queueCancel asid queue s)

/-- Held events go to the ring in order while it takes them. -/
def flushEvents (asid : Nat) : List Event → State → State
  | [], s => s
  | e :: t, s =>
    match s.space asid with
    | none => s
    | some sp => match s.putEvent sp e with
      | none => s
      | some s1 => if s1.blocked then s.askedBy s1 else flushEvents asid t (s1.modSpace asid (fun p => { p with held := p.held.drop 1 }))

/-- EVENTS_LOST_REPORT: held events, then one event of cause 7 with the count of those lost. -/
def eventsLostReport (asid : Nat) (s : State) : State :=
  match s.space asid with
  | none => s
  | some sp =>
    let s1 := flushEvents asid sp.held s
    match s1.space asid with
    | none => s1
    | some p =>
      if !p.held.isEmpty || p.lost = 0 then s1
      else match s1.putEvent p { cause := 7, queue := 0, va := 0, detail := p.lost } with
        | none => s1
        | some s2 => if s2.blocked then s1.askedBy s2 else s2.modSpace asid (fun p => { p with lost := 0 })

def execEventsLostReport (asid : Nat) (s : State) : Host.Outcome State Fault Refusal := .next (eventsLostReport asid s)

/-! ### SCHEDULER_PREEMPT (R332) -/

/-- Effective priority of the origin queue of a core's U strand, and the TIME of the strand's dispatch. -/
def State.victimKey (s : State) (c : Nat) : Option (Nat × Nat) :=
  let k := s.core c
  match s.strand k.u.as k.u.sid with
  | none => none
  | some t => ((s.space t.asid).bind (·.queue t.origin)).map (fun q => (q.eprio, t.dispatched.getD s.now))

/-- Cores whose U strand may be moved for a record of priority p: eligible, no crew member, no gang leader, not at S, not pre-empted
for priority within 8 ms, two levels below. -/
def State.victims (s : State) (cls p : Nat) : List (Nat × Nat × Nat) :=
  (s.liveIn cls).filterMap (fun c =>
    let k := s.core c
    let crew := ((s.strand k.u.as k.u.sid).bind (·.crew)).isSome
    let rested := (k.lastPreempt.map (fun t => decide (t + 8 * oneMs ≤ s.now))).getD true
    if k.uWork == .strand && k.gang == .none && !k.u.priv && !crew && rested then
      match s.victimKey c with
      | some (e, t) => if e + 2 ≤ p then some (c, e, t) else none
      | none => none
    else none)

/-- The victim with the lowest priority, then the longest time since its dispatch. -/
def firstVictim (l : List (Nat × Nat × Nat)) : Option Nat :=
  (l.foldl (fun (b : Option (Nat × Nat × Nat)) x => match b with
    | none => some x
    | some y => if x.2.1 < y.2.1 ∨ (x.2.1 = y.2.1 ∧ x.2.2 < y.2.2) then some x else some y) none).map (·.1)

/-- The U strand of core c makes way: to another core with an empty U context chosen by R230, or behind the record's strand in its own
arrival queue; with that full it is spilled as R229 says (log 50, DESIGN CHOICE). -/
def State.makeWay (s : State) (site c asid q : Nat) (k : LQueue) (va : Nat) (r : Rec) : State :=
  let s1 := (s.interruptLong c).modCore c (fun k => { k with lastPreempt := some s.now })
  let g := s1.stoppedImage c { cause := .preempt, sinfo := 0xFFFF }
  match s1.firstRanked c ((s1.candidates c g.mask).filter s1.mayEnter) with
  | some t => s1.startMove c t g .priority false g.mask
  | none =>
    let away (s2 : State) : State :=
      (s2.modCore c (fun k => { k with uWork := .empty, queue := k.queue.filter (fun e => e.ctx == .a), vfault := none,
                                       long := none, acLive := 0 })).dispatchOn site asid q k va r [c] true
    if !s1.freeSlot c then match s1.overflow g (s.siteOf c) g.mask none 0 with
      | .error _ => s
      | .ok s2 => (away s2).nextU c
    else match s1.parkImage g (.ready s.now) with
      | .error _ => s
      | .ok (s2, p) => ((away s2).modCore c (fun k => { k with arrival := k.arrival ++ [p] })).nextU c

/-- SCHEDULER_PREEMPT: a single-strand record of the site's queues that has waited 1 ms makes a strand of lower priority give way. -/
def schedulerPreempt (site : Nat) (s : State) : State := s.attempt fun s =>
  let s := s.touchReady site
  let due := (s.siteQueues site).findSome? (fun (a, q, k) =>
    if !s.queueRuns a q then none
    else (k.ready.filter (fun r => r.since + oneMs ≤ s.now)).findSome? (fun r =>
      match s.readRec a r.record with
      | some x =>
        if x.size ≥ 2 || x.status ≠ 1 || !((s.liveIn x.cls).filter s.mayEnter).isEmpty then none
        else (firstVictim (s.victims x.cls k.eprio)).map (fun c => (a, q, k, r, x, c))
      | none => none))
  match due with
  | none => s
  | some (a, q, k, r, x, c) =>
    if !s.mayLeave c then s
    else if s.capRoom 1 then s.makeWay site c a q k r.record x
    else s.capHold

def execSchedulerPreempt (site : Nat) (s : State) : Host.Outcome State Fault Refusal := .next (schedulerPreempt site s)

end Sys2Proof.Machine
end

