-- ==== Sys2Proof/Machine/Enum.lean ====
section
/-! DEFINITION. The capability list and the enumeration table that bring-up writes into device memory (R394 to R398). -/

namespace Sys2Proof.Machine

/-! ### The enumeration record (R395, R396) -/

/-- STATUS of a core. -/
def UnitStatus.code : UnitStatus → Nat
  | .live => 0
  | .retired => 1
  | .fenced => 2

/-- One 16-byte entry: kind, status, parent, attribute, logical number; then PCH, site, position and physical index. -/
def enumEntry (kind status parent attr number pch site pos idx : Nat) : List Nat :=
  [kind * 2 ^ 60 + status * 2 ^ 58 + parent % 2 ^ 16 * 2 ^ 32 + attr % 2 ^ 16 * 2 ^ 16 + number % 2 ^ 16,
   pch % 2 ^ 10 * 2 ^ 8 + site % 4 * 2 ^ 6 + pos % 4 * 2 ^ 4 + idx % 16]

/-- The class of a compute die: control, then vector, then tensor (R394). -/
def State.dieCls (s : State) (d : Nat) : Cls :=
  if d < s.dieCount .control then .control else if d < s.dieCount .control + s.dieCount .vector then .vector else .tensor

/-- The first core of each die, cluster and tile gives its class, die and site (log 6, DESIGN CHOICE). -/
def State.posOf (s : State) (c : Nat) : Nat := (s.place (s.dieOf c)).2

def State.enumSites : List Nat := (upTo 4).flatMap (fun i => enumEntry 1 0 0xFFFF 0 i 0 i 0 0)

def State.enumDies (s : State) : List Nat := (upTo 16).flatMap (fun d =>
  enumEntry 2 0 (s.place d).1 (clsCode (s.dieCls d)) d 0 (s.place d).1 (s.place d).2 (s.place d).2)

/-- The number of a cluster within its die. -/
def State.clusterIndex (s : State) (k : Nat) : Nat := ((upTo k).filter (fun j => s.dieOf (16 * j) == s.dieOf (16 * k))).length

def State.enumClusters (s : State) : List Nat := (upTo (s.coreCount / 16)).flatMap (fun k =>
  enumEntry 3 0 (s.dieOf (16 * k)) 0 k 0 (s.siteOf (16 * k)) (s.posOf (16 * k)) (s.clusterIndex k))

def State.enumTiles (s : State) : List Nat := (upTo (s.coreCount / 4)).flatMap (fun t =>
  enumEntry 4 0 (t / 4) 0 t 0 (s.siteOf (4 * t)) (s.posOf (4 * t)) (t % 4))

def State.enumCores (s : State) : List Nat := (upTo s.coreCount).flatMap (fun c =>
  enumEntry 5 (s.core c).status.code (c / 4) (clsCode (s.cls c)) c 0 (s.siteOf c) (s.posOf c) (c % 4))

def enumSlices : List Nat := (upTo 2048).flatMap (fun l => enumEntry 6 0 (l / 512) 0 l 0 (l / 512) 0 l)

/-- The four die boundaries of the site ring, with their live and full lanes (R385, R395). -/
def State.enumLinks (s : State) : List Nat := [(0, 1), (1, 2), (2, 3), (0, 3)].zipIdx.flatMap (fun ((a, b), j) =>
  enumEntry 7 0 0xFFFF (s.liveLanes j * 2 ^ 8 + fullLanes j) j 0 a b 0)

def State.enumChannels (s : State) : List Nat := (upTo 1024).flatMap (fun p =>
  match s.bankIn p with
  | some b => enumEntry 8 0 (p / 256) b p p (p / 256) 0 (p / 64 % 4)
  | none => enumEntry 8 (if p < 1021 || s.flash.remap.any (fun r => r.2 == p) then 1 else 3) (p / 256) 0xFFFF p p (p / 256) 0 (p / 64 % 4))

/-- The latency class between two compute dies (R396). -/
def State.dieClass (s : State) (d e : Nat) : Nat :=
  if d = e then 0 else 1 + boundaries (s.place d).1 (s.place e).1

/-- Bytes as doublewords. -/
def packDw (l : List Nat) : Nat := ofBytes (l.map (BitVec.ofNat 8))

def State.enumMatrices (s : State) : List Nat :=
  (upTo 16).flatMap (fun d => [packDw ((upTo 8).map (s.dieClass d)), packDw ((upTo 8).map (fun e => s.dieClass d (8 + e)))])
    ++ (upTo 2).map (fun h => packDw ((upTo 8).map (fun i => boundaries (2 * h + i / 4) (i % 4))))

def State.enumBody (s : State) : List Nat :=
  State.enumSites ++ s.enumDies ++ s.enumClusters ++ s.enumTiles ++ s.enumCores ++ enumSlices ++ s.enumLinks ++ s.enumChannels
    ++ s.enumMatrices

/-! ### The list (R397, R398; log 35, DESIGN CHOICE for the layout of the records that the rule gives no offsets for) -/

/-- A record with its header, padded to 16 bytes. -/
def capRecord (id : Nat) (body : List Nat) : List Nat :=
  let b := if body.length % 2 = 0 then body else body ++ [0]
  (id + 1 * 2 ^ 16 + (16 + 8 * b.length) * 2 ^ 32) :: 0 :: b

/-- The terms of R398, from offset 0x10. -/
def latencyTerms : List Nat := [4, 6, 18000, 40000, 55000, 85000, 24000, 30000, 60000, 150000, 10000]

def State.powerBody (s : State) : List Nat :=
  s.sites.toList.flatMap (fun t => [t.pool / 1000, t.grants.length, 17500, 1880, 2660])

def State.portBody (s : State) : List Nat :=
  (upTo 4).flatMap (fun k => [b2n (s.port k).cxl, b2n (s.port k).up, 2 ^ 46 + k * 2 ^ 44])

/-- The identity keys' certificates, which the list reaches (R401): their length in bytes, then the bytes, as a record of an ID that R397 does not
use (log 35, DESIGN CHOICE). -/
def State.certWords (s : State) : List Nat :=
  let b := s.flash.certs
  b.length :: (upTo ((b.length + 7) / 8)).map (fun i => ofBytes ((b.drop (8 * i)).take 8))

def State.capList (s : State) : List Nat :=
  capRecord 1 s.enumBody ++ capRecord 2 latencyTerms ++ capRecord 3 s.powerBody ++ capRecord 4 s.cfg.moveDoor
    ++ capRecord 5 s.cfg.heapDoor ++ capRecord 6 [s.cfg.healthVa] ++ capRecord 7 s.portBody
    ++ capRecord 8 [s.cfg.nodeVa, s.cfg.nodeTableVa] ++ capRecord 9 s.certWords ++ [0, 0]

/-- Step 6 of bring-up writes the list at CAPPTR. -/
def State.writeCapList (s : State) : State :=
  { s with mem := s.mem.writeBytes s.cfg.capPtr (s.capList.flatMap (toBytes 8)) }

end Sys2Proof.Machine
end

