-- ==== Sys2Proof/Machine/Manage.lean ====
section
/-! DEFINITION. The management registers of BAR 0: resets and bring-up (R388 to R393, R399), ASBIND (R289, R290, R308, R352, R353),
attestation (R400 to R402), Perden capture and replay (R403 to R406), and writes of the other registers (R379, R380). -/

namespace Sys2Proof.Machine

/-! ### Resets (R388, R389) -/

/-- The sites after a reset: the thermal holds follow the cone points, which a reset does not cool (log 40, DEDUCED). -/
def Site.afterReset (t : Site) : Site := { Site.reset with warn := t.warn, throttle := t.throttle }

/-- Memory after a reset. Scratchpads and lane slices are lost; HBM4E contents too at a cold one; pool and host memory are not the
module's (log 40, DEDUCED). -/
def Memory.afterReset (m : Memory) (cold : Bool) : Memory :=
  let keep (a : Nat) : Bool := (!cold && a < 2 ^ 46) || (2 ^ 46 ≤ a && a < 2 ^ 48) || 2 ^ 64 ≤ a
  { cells := m.cells.filter (fun c => keep c.1), poison := m.poison.filter (fun p => keep (32 * p)) }

/-- A core after a reset keeps what the flash and the enumeration table say of it; its test comes in step 5 (log 40, DEDUCED). -/
def Core.afterReset (k : Core) : Core := { Core.reset with status := k.status, retLane := k.retLane, remapped := k.retLane.isSome }

/-- A reset of either kind: every strand, handler, engine operation and binding ends, and no join word or record is updated (log 40, DEDUCED). -/
def State.doReset (s : State) (cold : Bool) : State :=
  { State.reset with
    cfg := s.cfg, agenda := s.agenda, free := s.free, nextId := s.nextId,
    time := if cold then 0 else s.time,
    mem := s.mem.afterReset cold,
    cores := s.cores.map (fun p => (p.1, p.2.afterReset)),
    sites := s.sites.map Site.afterReset,
    groups := s.groups,
    ports := s.ports.map (fun p => { p with cxlDown := false }),
    poolDead := s.poolDead,
    flash := { s.flash with pcPend := s.flash.pcPend ++ s.mgmt.pcFail },
    mgmt := { Mgmt.reset with
      phase := 1, lastCold := cold, fabricUp := s.mgmt.fabricUp, node := s.mgmt.node, nodeTable := s.mgmt.nodeTable, msix := s.mgmt.msix,
      retCore := s.flash.retCores.length, retLane := s.flash.retLanes.length } }

/-- POWER_ON_RESET. -/
def execPowerOnReset (s : State) : Host.Outcome State Fault Refusal := .next (s.doReset true)

/-- MODCTL.COLD: during a reset only a warm one is turned into a cold one. -/
def modctlCold (s : State) : State := if !s.mgmt.ready && s.mgmt.lastCold then s else s.doReset true

/-- MODCTL.WARM: ignored during a reset. A warm reset that firmware starts after a module-class error (R378, R388) is the same event. -/
def modctlWarm (s : State) : State := if s.mgmt.ready then s.doReset false else s

def execModctlCold (port : Nat) (s : State) : Host.Outcome State Fault Refusal := .next ((fun (_ : Nat) => modctlCold s) port)
def execModctlWarm (port : Nat) (s : State) : Host.Outcome State Fault Refusal := .next ((fun (_ : Nat) => modctlWarm s) port)

/-! ### Bring-up (R390 to R393, R399, R400) -/

/-- Both signatures of an image verify against public keys whose digests are fused, and its digest is that of its header and body (R399). -/
def Flash.verifies (f : Flash) (i : FwImage) : Bool :=
  Config.sha3 f.edKey == f.edFuse && Config.sha3 f.mlKey == f.mlFuse
    && i.length == i.body.length && i.digest == imageDigest i.version i.security i.length i.body
    && i.edSig == Config.imageEd f.edKey i.digest
    && (i.mlSig == Config.imageMl f.mlKey i.digest || Config.imageMlAlso f.mlKey i.digest i.mlSig)

/-- The saggar runs an image whose signatures verify and whose security version is not below the fused counter. -/
def Flash.runs (f : Flash) (i : FwImage) : Bool := f.verifies i && f.counter ≤ i.security

/-- The image that runs: the first bank's, else the other's. -/
def Flash.image (f : Flash) : Option FwImage :=
  if f.runs f.bank0 then some f.bank0 else if f.runs f.bank1 then some f.bank1 else none

def digestBytes (d : BitVec 384) : List Byte := toBytes 48 d.toNat

/-- Step 1: the saggar measures its own code, then the image that runs and that of the management controller. -/
def bringImage (s : State) : State :=
  if s.mgmt.booted then s
  else
    let s1 : State := s.extend 0 (digestBytes s.flash.codeDigest)
    let s2 : State := { s1 with mgmt := { s1.mgmt with booted := true } }
    match s.flash.image with
    | none => s2
    | some i =>
      let s3 := (s2.extend 1 (digestBytes i.digest)).extend 2 (digestBytes s.flash.mgmtDigest)
      { s3 with mgmt := { s3.mgmt with phase := 2 } }

def State.toPhase (s : State) (n : Nat) : State := { s with mgmt := { s.mgmt with phase := n } }

/-- A link with a failed lane trains to reduced width: how many lanes stay live is free, fewer than before (log 35, DESIGN CHOICE). -/
def State.trainLink (s : State) (link : Nat) : State :=
  let (v, s1) := s.freshWord
  { s1 with flash := { s1.flash with linkDeg := s1.flash.linkDeg.filter (fun p => p.1 != link) ++ [(link, v.toNat % max 1 (s.liveLanes link))] } }

/-- Step 2: links with a failed lane train to reduced width (R385); then quadrant mode is entered (R393). -/
def bringLinks (s : State) : State :=
  let s1 := s.flash.linkPend.foldl State.trainLink s
  ({ s1 with flash := { s1.flash with linkPend := [] }, mgmt := { s1.mgmt with quadrant := true } }.reassess).toPhase 3

/-- In quadrant mode a pseudo-channel, of 64 in its stack and two to a channel, is reached from the compute die at the position of its quadrant of
8 channels, on the stack's site (R245, R393). -/
def State.quadrantDie (s : State) (p : Nat) : Option Nat := (upTo 16).find? (fun d => s.place d == (p / 256, p % 64 / 16))

/-- A 256-byte entry of the firing record (log 36, DESIGN CHOICE for its layout). -/
def FiringEntry.bytes (e : FiringEntry) : List Byte :=
  (e.lanes.flatMap (fun (l : LaneTrain) => toBytes 2 l.readDelay ++ toBytes 2 l.writeDelay ++ toBytes 2 l.vref) ++ toBytes 8 e.temp
    ++ List.replicate 256 0).take 256

/-- The digest that a firing record carries (R391). -/
def firingDigest (entries : List FiringEntry) (serial : BitVec 128) (version : Nat) : BitVec 384 :=
  Config.sha3 (toBytes 16 serial.toNat ++ toBytes 8 version ++ entries.flatMap FiringEntry.bytes)

/-- The version of the firmware that runs. -/
def Flash.fwVersion (f : Flash) : Nat := (f.image.map (·.version)).getD 0

/-- The firing record, when it is not absent: its digest, serial and firmware version match (R391). -/
def Flash.firingRecord (f : Flash) : Option FiringRecord := f.firing.filter (fun r =>
  r.digest == firingDigest r.entries r.serial r.version && r.serial == f.serial && r.version == f.fwVersion)

/-- The temperature now at the cone points of a pseudo-channel's stack, in °C: a free value (log 36, DESIGN CHOICE). -/
def State.stackTemp (s : State) (p : Nat) : Nat := (Config.freeWord (s.free + p / 64)).toNat % 256

/-- What training finds for a pseudo-channel: free values (log 36, DESIGN CHOICE). -/
def State.trainedEntry (s : State) (p : Nat) : FiringEntry :=
  let v (i : Nat) : Nat := (Config.freeWord (s.free + 16 + 96 * p + i)).toNat % 2 ^ 16
  { lanes := (upTo 32).map (fun l => { readDelay := v (3 * l), writeDelay := v (3 * l + 1), vref := v (3 * l + 2) }), temp := s.stackTemp p }

/-- A pseudo-channel passes verification, or retrains with success: free outcomes (log 36, DESIGN CHOICE). -/
def State.verified (s : State) (p : Nat) : Bool := Config.freeBool (s.free + p)
def State.trains (s : State) (p : Nat) : Bool := Config.freeBool (s.free + 1024 + p)

/-- The entry of the firing record that a reset keeps for a pseudo-channel (R392): a warm one, when verification passes within 25 °C. -/
def State.keptEntry (s : State) (p : Nat) : Option FiringEntry :=
  if s.mgmt.lastCold then none
  else (s.flash.firingRecord.bind (fun r => r.entries[p]?)).filter (fun e =>
    s.verified p && s.stackTemp p ≤ e.temp + 25 && e.temp ≤ s.stackTemp p + 25)

/-- Atoms below n that a predicate names become poisoned. -/
def Memory.poisonIf (m : Memory) (n : Nat) (p : Nat → Bool) : Memory :=
  { m with poison := (upTo n).filter (fun a => p a || m.poison.contains a) ++ m.poison.filter (fun a => n ≤ a) }

/-- Step 3, in quadrant mode: a cold reset trains every pseudo-channel, a warm one those whose entries it does not keep, and the firing record is
written (R391, R392). One that fails to train is marked failing; without a firing record its contents are lost (log 36, DESIGN CHOICE). -/
def bringTraining (s : State) : State :=
  let redone := (upTo 1024).filter (fun p => (s.keptEntry p).isNone)
  let failed := redone.filter (fun p => !s.trains p)
  let entries := (upTo 1024).map (fun p => (s.keptEntry p).getD (s.trainedEntry p))
  let record : FiringRecord :=
    { entries, serial := s.flash.serial, version := s.flash.fwVersion, digest := firingDigest entries s.flash.serial s.flash.fwVersion }
  let had := s.flash.firingRecord.isSome
  let s1 : State := { s with
    mem := if had then s.mem else s.mem.poisonIf (s.hbmEnd / 32) (fun a => failed.contains (s.pcOf (32 * a))),
    flash := { s.flash with firing := some record, pcPend := s.flash.pcPend ++ failed.filter (fun p => !s.flash.pcPend.contains p) },
    free := s.free + 2 ^ 17, mgmt := { s.mgmt with retrain := !s.mgmt.lastCold && had && !redone.isEmpty } }
  (s1.extend 3 (digestBytes record.digest)).toPhase 4

/-- The lowest spare that is neither used nor failing (R245). -/
def State.freeSpare (s : State) (failing : List Nat) : Option Nat :=
  if s.flash.spares = 0 then none
  else [1021, 1022, 1023].find? (fun q => !s.flash.remap.any (fun r => r.2 == q) && !failing.contains q)

/-- A pseudo-channel is marked failing (R385). -/
def State.markFailing (s : State) (p : Nat) : State :=
  if s.mgmt.pcFail.contains p then s else { s with mgmt := { s.mgmt with pcFail := s.mgmt.pcFail ++ [p] } }

/-- The logical bank of a failing pseudo-channel moves to an unused spare (R245, R385): every atom of it then reads poisoned. With no spare
left it stays, and the pseudo-channel is marked failing, as one is that holds no bank. -/
def State.remapBank (failing : List Nat) (s : State) (p : Nat) : State :=
  match s.bankIn p, s.freeSpare failing with
  | some b, some q => { s with
      flash := { s.flash with spares := s.flash.spares - 1, remap := s.flash.remap ++ [(b, q)] },
      mem := s.mem.poisonIf (s.hbmEnd / 32) (fun a => a / 8 % 1021 == b) }
  | _, _ => s.markFailing p

/-- The memory test passes a pseudo-channel: a free outcome (log 36, DESIGN CHOICE). -/
def State.memoryTests (s : State) (p : Nat) : Bool := Config.freeBool (s.free + p)

/-- Step 4, in quadrant mode: the memory test, whose failures are failing pseudo-channels too, and the pending remaps are applied. -/
def bringRemaps (s : State) : State :=
  let failing := s.flash.pcPend ++ (upTo 1024).filter (fun p => !s.memoryTests p && !s.flash.pcPend.contains p)
  let s1 := failing.foldl (State.remapBank failing) { s with free := s.free + 1024 }
  ({ s1 with flash := { s1.flash with pcPend := [] } }.reassess).toPhase 5

/-- The core test of step 5 passes: a free outcome (log 36, DESIGN CHOICE), but for a core that the retirement list names (R2, R384). -/
def State.testPasses (s : State) (c : Nat) : Bool := !s.flash.retCores.contains c && Config.freeBool (s.free + c)

/-- Step 5: fenced cores, and every core on a cold reset, are tested. -/
def bringCores (s : State) : State :=
  let tested (c : Nat) : Bool := s.mgmt.lastCold || (s.core c).status == .fenced
  let failed := (upTo s.coreCount).filter (fun c => (s.core c).status != .retired && tested c && !s.testPasses c)
  let gone := s.flash.retCores ++ failed.filter (fun c => !s.flash.retCores.contains c)
  let status (c : Nat) (k : Core) : Core :=
    { k with status := if gone.contains c then .retired else .live }
  let s1 := (upTo s.coreCount).foldl (fun (t : State) c =>
    if (t.core c).status == (status c (t.core c)).status then t else t.modCore c (status c)) s
  ({ s1 with free := s.free + s.coreCount, flash := { s1.flash with retCores := gone },
             mgmt := { s1.mgmt with retCore := gone.length } }.reassess).toPhase 6

/-- What register 4 measures (R400): the digest of the bank map, two bytes to a logical bank, and of the enumeration record (log 32, DESIGN
CHOICE). -/
def State.tableDigest (s : State) : BitVec 384 :=
  Config.sha3 ((upTo 1021).flatMap (fun b => toBytes 2 (s.bankHolder b)) ++ (capRecord 1 s.enumBody).flatMap (toBytes 8))

/-- Step 6: the bank map comes into force and quadrant mode is left (R393); the enumeration table and the capability list are built; register 4
measures them. -/
def bringTables (s : State) : State :=
  let s1 : State := { s with mgmt := { s.mgmt with quadrant := false } }
  ((s1.extend 4 (digestBytes s1.tableDigest)).writeCapList).toPhase 7

/-- Step 7: READY, and a new image raises the fused counter (R399). -/
def bringReady (s : State) : State :=
  { s with flash := { s.flash with counter := max s.flash.counter ((s.flash.image.map (·.security)).getD 0) },
           mgmt := { s.mgmt with ready := true } }

/-- Power-on has reset everything: step 1 of a cold bring-up is in progress (R388 to R390). -/
def bringPower (s : State) : State := { s with mgmt := { s.mgmt with phase := 1, lastCold := true } }

/-- The step of bring-up in progress ends. -/
def bringUp (s : State) : State :=
  match s.mgmt.phase with
  | 0 => bringPower s
  | 1 => bringImage s
  | 2 => bringLinks s
  | 3 => bringTraining s
  | 4 => bringRemaps s
  | 5 => bringCores s
  | 6 => bringTables s
  | _ => bringReady s

/-! ### ASBIND: bind (R289, R290, R308, R352, R353) -/

/-- n is a power of two from lo to hi. -/
def powerIn (n lo hi : Nat) : Bool := lo ≤ n && n ≤ hi && n == 2 ^ Nat.log2 n

/-- The doublewords of an address-space record that break R289 or R308 (log 38, DEDUCED). -/
def badSpace (d : List Nat) : Bool :=
  let g (i : Nat) := d.getD i 0
  g 0 ≥ 2 ^ 33 || bitsOf (g 0) 16 16 ≠ 0 || g 0 % 2 ^ 16 = 0 || g 1 ≥ 2 ^ 48 || g 1 % 2 ^ 13 ≠ 0 || g 2 % 2 ^ 16 ≠ 0
    || g 3 % 2 ^ 16 ≠ 0 || g 4 % 64 ≠ 0 || g 5 % 64 ≠ 0 || !powerIn (g 6) 4 32768 || g 7 % 8 ≠ 0 || g 8 % 64 ≠ 0
    || (d.drop 9).any (· ≠ 0)

/-- A binding as its record gives it, its queues and syscall ring still to be read. -/
def spaceOf (recPa : Nat) (d : List Nat) : Space :=
  let g (i : Nat) := d.getD i 0
  let va (i : Nat) := g i % 2 ^ 56
  { asid := g 0 % 2 ^ 16, recPa, nomig := bitOf (g 0) 32, root := g 1, spillVa := va 2, spillLen := g 3, queuesVa := va 4,
    eventVa := va 5, eventSlots := g 6, notifyVa := va 7, sysVa := va 8, sysSlots := 0, msix := none, sysPort := 0, eventPos := 0,
    held := [], lost := 0, sysPos := 0, sysWait := [], sysGrant := [], colour := false, queues := [], nextSid := 1, digested := false }

/-- Reading at bind meets a fault, or waits for a host translation. -/
inductive BindStop where
  | bad
  | wait (s : State)

/-- A doubleword of the syscall ring, whose pages have type 0, 1 or 5 (R353). -/
def State.ringRead (s : State) (asid va : Nat) : Except BindStop (State × Nat) :=
  let typ := match s.walk asid va with | .leaf l _ _ _ => leafType l | .np _ _ => 8
  if typ ≠ 0 ∧ typ ≠ 1 ∧ typ ≠ 5 then .error .bad
  else match s.translate (deviceWho asid 0 .r) va with
    | .ok (s1, p) => if s1.placePoisoned asid p 8 then .error .bad else .ok (s1, s1.placeRead asid p 8)
    | .error (.parkHost _ s1) => .error (.wait s1)
    | .error (.stallIn s1) => .error (.wait s1)
    | .error .stall => .error (.wait s)
    | .error _ => .error .bad

/-- The slots of the syscall ring hold their own numbers. -/
def ringSlots (asid va : Nat) : List Nat → State → Except BindStop State
  | [], s => .ok s
  | j :: t, s => do
    let (s1, q) ← s.ringRead asid (va + 64 + 64 * j)
    if q ≠ j then .error .bad else ringSlots asid va t s1

/-- The header of the syscall ring. -/
def State.bindRing (s : State) (sp : Space) : Except BindStop (State × Space) :=
  if sp.sysVa = 0 then .ok (s, sp)
  else do
    let rd (i : Nat) (s : State) := s.ringRead sp.asid (sp.sysVa + 8 * i)
    let (s, c) ← rd 0 s
    let (s, v) ← rd 1 s
    let (s, p) ← rd 2 s
    let rest ← [3, 4, 5, 6, 7].foldlM (fun (acc : State × Bool) i => do
      let (t, z) ← rd i acc.1
      return (t, acc.2 && z == 0)) (s, true)
    if !powerIn c 4 4096 || bitsOf v 11 52 ≠ 0 || p > 3 || !rest.2 then .error .bad
    else
      let s1 ← ringSlots sp.asid sp.sysVa (upTo c) rest.1
      return (s1, { sp with sysSlots := c, msix := if bitOf v 63 then some (v % 2 ^ 11) else none, sysPort := p })

/-- Zero fields, limits, ring size and ring alignment of a queue descriptor (R290). -/
def badQueue (d : List Nat) : Bool :=
  let g (i : Nat) := d.getD i 0
  let t1 := if g 2 % 2 ^ 32 = 0 then 100000 else g 2 % 2 ^ 32
  let t2 := if g 2 / 2 ^ 32 = 0 then 1000000 else g 2 / 2 ^ 32
  let t3 := if g 3 % 2 ^ 32 = 0 then 5000000 else g 3 % 2 ^ 32
  let c := g 1 % 2 ^ 16
  g 1 ≥ 2 ^ 27 || g 3 ≥ 2 ^ 32 || g 5 ≥ 4 || g 7 ≥ 8 || !(t1 < t2 && t2 < t3) || (c ≠ 0 && (!powerIn c 1 32768 || g 0 % 64 ≠ 0))

/-- A launch queue from its fixed part. -/
def launchQueue (d : List Nat) (bad : Bool) : LQueue :=
  let g (i : Nat) := d.getD i 0
  { ring := g 0 % 2 ^ 56, prio := bitsOf (g 1) 24 3, weight := max 1 (bitsOf (g 1) 16 8), slots := g 1 % 2 ^ 16,
    t1 := if g 2 % 2 ^ 32 = 0 then 100000 else g 2 % 2 ^ 32, t2 := if g 2 / 2 ^ 32 = 0 then 1000000 else g 2 / 2 ^ 32,
    t3 := if g 3 % 2 ^ 32 = 0 then 5000000 else g 3 % 2 ^ 32, bad, ready := [], lastCore := 0, lastDispatch := 0,
    eprio := bitsOf (g 1) 24 3, raisedAt := 0 }

/-- One descriptor is read; a bad one leaves its queue stopped, with a CBFMT event (log 38, DEDUCED). -/
def bindQueue (asid : Nat) (s : State) (q : Nat) : State :=
  match s.space asid with
  | none => s
  | some sp =>
    let va := sp.descVa q
    let add (k : LQueue) (t : State) : State := t.modSpace asid (fun p => { p with queues := p.queues ++ [k] })
    let stop (t : State) : State :=
      let u := match t.devRead asid (va + 0x28) 8 with
        | some (u, v) => (u.devWrite asid (va + 0x28) 8 (v - v % 4 + 3)).getD u
        | none => t
      u.cbfmtEvent asid q va 1
    match s.devReads asid va 8 with
    | none => stop (add (launchQueue [] true) s)
    | some (s1, d) =>
      if badQueue d then stop (add (launchQueue d true) s1)
      else
        let k := launchQueue d false
        let s2 := add k s1
        (s2.devWrite asid (va + 0x38) 8 k.eprio).getD s2

/-- ASBIND ends with a result. -/
def State.bindEnd (s : State) (result : Nat) : State :=
  { s with mgmt := { s.mgmt with asbindCmd := none, asbindRec := none, asbindResult := result } }

/-- The address-space record of the bind in progress, read once (R304, R352); none when it cannot be read. -/
def State.bindRecord (s : State) (recPa : Nat) : Option (List Nat) :=
  match s.mgmt.asbindRec with
  | some d => some d
  | none => if !s.goodPa recPa || !s.goodPa (recPa + 127) || s.badRange recPa 128 then none
    else some ((upTo 16).map (fun i => s.mem.read (recPa + 8 * i) 8))

/-- An address space is bound as its record gives it: its ring is read, then its queues. -/
def bindSpace (sp : Space) (s : State) : State :=
  match ({ s with spaces := s.spaces ++ [sp] }).bindRing sp with
  | .error .bad => s.bindEnd 1
  | .error (.wait s1) => { s1 with spaces := s.spaces }
  | .ok (s1, sp1) => ((upTo 64).foldl (bindQueue sp.asid) (s1.modSpace sp.asid (fun _ => sp1))).bindEnd 0

/-- The bind in progress: it ends, or waits for a host translation of the syscall ring or of a descriptor with nothing of the address space bound
(log 38, DEDUCED). -/
def bindStep (recPa : Nat) (s : State) : State :=
  match s.bindRecord recPa with
  | none => s.bindEnd 1
  | some d =>
    if badSpace d then s.bindEnd 1
    else if (s.space (spaceOf recPa d).asid).isSome then s.bindEnd 2
    else ({ s with mgmt := { s.mgmt with asbindRec := some d } }).attempt (bindSpace (spaceOf recPa d))

/-! ### ASBIND: unbind (R352) -/

/-- Every queue of the address space stops. -/
def State.stopQueues (s : State) (sp : Space) : State :=
  (upTo 64).foldl (fun (t : State) q => match t.devRead sp.asid (sp.descVa q + 0x28) 8 with
    | some (u, v) => (u.devWrite sp.asid (sp.descVa q + 0x28) 8 (v - v % 4 + 3)).getD u
    | none => t) s

/-- A handler of the address space ends (R352). -/
def State.killHandler (s : State) (asid c : Nat) : State :=
  match (s.core c).aWork with
  | .handler _ => if (s.core c).a.as ≠ asid then s
    else (s.freeA c).modCore c (fun k => { k with queue := k.queue.filter (fun e => e.ctx == .u),
                                                  mq := k.mq.filter (fun e => e.ctx == .u) })
  | _ => s

/-- Work of the address space ends: strands, handlers, engine operations, and the service entries of those (log 38, DEDUCED). -/
def State.killSpace (s : State) (asid : Nat) : State :=
  let s1 := (s.strands.filter (fun t => t.asid == asid)).foldl (fun (t : State) x => t.killOne asid x.sid) s
  let s2 := (s1.cores.map (·.1)).foldl (fun t c => t.killHandler asid c) s1
  let s3 := (s2.dropOps (fun o => o.asid == asid)).mapCores (fun k => { k with
    entries := k.entries.filter (fun e => e.asid ≠ asid) })
  (s3.cores.map (·.1)).foldl (fun t c => t.refreshOwner c) s3

/-- Nothing of the address space is left in the device. -/
def State.removeSpace (s : State) (asid : Nat) : State :=
  let s1 := s.dropL1Alias asid 0 (2 ^ 56)
  let s2 : State := { s1 with
    spaces := s.spaces.filter (fun p => p.asid ≠ asid), active := s.active.filter (fun a => a.asid ≠ asid), jobs := s.jobs.filter (fun j => j.asid ≠ asid),
    runs := s.runs.filter (fun r => r.asid ≠ asid), windows := s.windows.filter (fun w => w.asid ≠ asid),
    kept := s.kept.filter (fun t => t.asid ≠ asid), flights := s.flights.filter (fun f => f.asid ≠ asid),
    sysReqs := s.sysReqs.filter (fun r => r.asid ≠ asid), ats := s.ats.filter (fun a => a.asid ≠ asid),
    hostReqs := s.hostReqs.filter (fun q => q.asid ≠ asid), devFails := s.devFails.filter (fun f => f.1 ≠ asid),
    cycles := s.cycles.filter (fun c => c.asid ≠ asid), heapCmds := s.heapCmds.filter (fun h => h.1 ≠ asid),
    clusters := s.clusters.map (fun p => (p.1, { p.2 with tasks := p.2.tasks.filter (fun e => e.asid ≠ asid) })),
    sites := s.sites.map (fun (t : Site) => { t with
      reserve := t.reserve.filter (fun r => r.asid ≠ asid),
      home := { t.home with
        cache := t.home.cache.filter (fun e => e.asid ≠ asid), walks := t.home.walks.filter (fun p => p.asid ≠ asid),
        hints := t.home.hints.filter (fun p => p.asid ≠ asid), moves := t.home.moves.filter (fun m => m.1 ≠ asid),
        moving := t.home.moving.filter (fun m => m.asid ≠ asid) } }) }
  (s2.cores.map (·.1)).foldl State.nextU s2

/-- The unbind in progress: queues stop, work is killed, and it ends once every strand has ended and no core has the ASID as owner (log 38,
DEDUCED). -/
def unbindStep (recPa : Nat) (s : State) : State := s.attempt fun s =>
  match s.spaces.find? (fun p => p.recPa == recPa) with
  | none => s.bindEnd 3
  | some sp =>
    let s1 := (s.stopQueues sp).killSpace sp.asid
    if s1.strands.any (fun t => t.asid == sp.asid) || s1.cores.any (fun p => p.2.owner == some sp.asid) then s1 else (s1.removeSpace sp.asid).bindEnd 0

/-- The ASBIND command in progress goes on. -/
def asbindStep (s : State) : State :=
  match s.mgmt.asbindCmd with
  | none => s
  | some (true, pa) => bindStep pa s
  | some (false, pa) => unbindStep pa s

/-- A write of ASBIND with OP 1 or 2: ignored before READY and while a command is in progress. -/
def asbindWrite (op : Bool) (record : Nat) (s : State) : State :=
  if !s.mgmt.ready || s.mgmt.asbindCmd.isSome then s
  else asbindStep { s with mgmt := { s.mgmt with asbindCmd := some (op, bitsOf record 7 41 * 128) } }

def execAsbindBind (port record : Nat) (s : State) : Host.Outcome State Fault Refusal :=
  .next ((fun (_ : Nat) => asbindWrite true record s) port)
def execAsbindUnbind (port record : Nat) (s : State) : Host.Outcome State Fault Refusal :=
  .next ((fun (_ : Nat) => asbindWrite false record s) port)

/-! ### Attestation (R401, R402) -/

/-- The signed part of a report, bytes 0x000 to 0x1C7. -/
def State.reportBody (s : State) (nonce : List Byte) : List Byte :=
  toBytes 8 1 ++ toBytes 16 s.flash.serial.toNat ++ nonce ++ toBytes 8 s.health
    ++ toBytes 8 (s.mgmt.capMode * 2 ^ 32 + s.flash.counter % 2 ^ 32) ++ s.mgmt.measure.toList.flatMap digestBytes

/-- A report with both signatures and the zero bytes that end it. -/
def State.report (s : State) (nonce : List Byte) : List Byte :=
  let b := s.reportBody nonce
  b ++ toBytes 64 (Config.ed25519 b).toNat ++ toBytes 3309 (Config.mlDsa65 b).toNat ++ List.replicate 11 0

def State.attEnd (s : State) (result : Nat) : State := { s with mgmt := { s.mgmt with attResult := result } }

/-- The report window's first 32 bytes. -/
def State.windowNonce (s : State) : List Byte := (s.mgmt.window ++ List.replicate 32 0).take 32

/-- ATTEST_REQUEST: before step 3 of bring-up has passed the report goes to the window, else to the area. The nonce is read now; a request that cannot
be served ends at once, with RESULT 1 or 2, and another is in progress until the report is written (log 56, DEDUCED). While one is in progress the
write is ignored. -/
def attestRequest (area : Nat) (s : State) : State :=
  if !s.mgmt.booted || s.mgmt.attReq.isSome then s
  else
    let start (window : Bool) (nonce : List Byte) : State :=
      { s with mgmt := { s.mgmt with attArea := area, attReq := some (window, area, nonce) } }
    if s.mgmt.phase ≤ 3 then start true s.windowNonce
    else
      let s := { s with mgmt := { s.mgmt with attArea := area } }
      if area % 64 ≠ 0 || area + 4096 > s.hbmEnd then s.attEnd 1
      else if s.mem.poisoned area 32 then s.attEnd 2
      else start false (s.mem.bytes area 32)

/-- The request in progress ends: the report is signed and written, and BUSY clears (R401). -/
def attestStep (s : State) : State :=
  match s.mgmt.attReq with
  | none => s
  | some (window, area, nonce) =>
    let s1 : State := { s with mgmt := { s.mgmt with attReq := none } }
    let s2 : State := if window then { s1 with mgmt := { s1.mgmt with window := s.windowNonce ++ List.replicate 32 0 ++ s.report nonce } }
      else { s1.performHome (area + 0x40) 3840 true with mem := s1.mem.writeBytes (area + 0x40) (s.report nonce) }
    s2.attEnd (if s.flash.image.isSome then 0 else 3)

def execAttestRequest (port area : Nat) (s : State) : Host.Outcome State Fault Refusal :=
  .next ((fun (_ : Nat) => attestRequest area s) port)

/-! ### Capture and replay (R403 to R406) -/

def State.capRefuse (s : State) (result : Nat) : State := { s with mgmt := { s.mgmt with capResult := result } }

/-- The header's zero fields and buffer entries (R404). -/
def State.headerBad (s : State) (ring : Nat) : Bool :=
  let rd (o : Nat) : Nat := s.mem.read (ring + o) 8
  let zero (lo hi : Nat) : Bool := (s.mem.bytes (ring + lo) (hi - lo)).all (· == 0)
  let entryBad (e : Nat) : Bool :=
    let b := 0x100 + 128 * e
    rd (b + 8) = 0 || rd b + rd (b + 8) > 2 ^ 56 || rd (b + 0x10) ≥ 2 ^ 16 || rd (b + 0x18) ≠ 0 || !zero (b + 0x50) (b + 0x80)
  rd 0 > 64 || !zero 8 0x100 || !zero 0x2100 0x4000 || (upTo (rd 0)).any entryBad

/-- RING and LOGN that name no ring in device memory, or a header that breaks R404. -/
def State.ringBad (s : State) (ring logn : Nat) : Bool :=
  ring % 0x4000 ≠ 0 || logn < 6 || 16 < logn || ring + 0x4000 + 64 * 2 ^ logn > s.hbmEnd
    || s.mem.poisoned ring (0x4000 + 64 * 2 ^ logn) || s.headerBad ring

/-- The mode changes to a ring, whose buffer table is read now (R404). -/
def State.capStart (s : State) (mode ring logn : Nat) : State :=
  let s1 := s.setCapMode mode
  { s1 with mgmt := { s1.mgmt with capResult := 0, capRing := ring, capLogn := logn, capPos := 0, capSince := s.now, capBufs := s.readBufs ring } }

def captureModeOff (s : State) : State :=
  if !s.spaces.isEmpty then s.capRefuse 1
  else
    let s1 := s.setCapMode 0
    { s1 with mgmt := { s1.mgmt with capResult := 0 } }

def captureModeOn (ring logn : Nat) (s : State) : State :=
  if !s.mgmt.ready then s
  else if !s.spaces.isEmpty then s.capRefuse 1
  else if s.ringBad ring logn then s.capRefuse 4
  else s.capStart 1 ring logn

/-- The cores that the choices of a replay ring name: the record's core, and for a mailbox answer both cores. -/
def choiceCores (d : List Nat) : List Nat :=
  let h := d.getD 0 0
  match h % 256 with
  | 3 | 5 => [h / 2 ^ 32]
  | 4 => [bitsOf h 16 16, h / 2 ^ 32]
  | _ => []

/-- The published choices of a ring from position p on. -/
def State.ringChoices (s : State) (ring logn : Nat) : List (List Nat) :=
  let t := { s with mgmt := { s.mgmt with capRing := ring, capLogn := logn } }
  (upTo (2 ^ logn)).filterMap t.replayAt

/-- REPLAY_MODE_ON. The header names no grade: whether the capture is of another grade, RESULT 3, is a free outcome (R403; log 37, DESIGN CHOICE). -/
def replayModeOn (ring logn : Nat) (s : State) : State :=
  if !s.mgmt.ready then s
  else if !s.spaces.isEmpty then s.capRefuse 1
  else if s.ringBad ring logn then s.capRefuse 4
  else
    let s1 : State := { s with free := s.free + 1 }
    if Config.freeBool s.free then s1.capRefuse 3
    else if (s.ringChoices ring logn).any (fun d => (choiceCores d).any (fun c => !s.live c)) then s1.capRefuse 2
    else s1.capStart 2 ring logn

def execCaptureModeOff (port : Nat) (s : State) : Host.Outcome State Fault Refusal := .next ((fun (_ : Nat) => captureModeOff s) port)
def execCaptureModeOn (port ring logn : Nat) (s : State) : Host.Outcome State Fault Refusal :=
  .next ((fun (_ : Nat) => captureModeOn ring logn s) port)
def execReplayModeOn (port ring logn : Nat) (s : State) : Host.Outcome State Fault Refusal :=
  .next ((fun (_ : Nat) => replayModeOn ring logn s) port)

/-- CAPTURE_RING_SPACE: the next slot is free again, and held takes, dispatches and answers go on. -/
def captureRingSpace (s : State) : State :=
  if s.mgmt.capStall && s.capRoom 1 then { s with mgmt := { s.mgmt with capStall := false } } else s

def execCaptureRingSpace (s : State) : Host.Outcome State Fault Refusal := .next (captureRingSpace s)

/-- The address space, origin queue and record that a recorded choice is of, as far as the state shows them (R406): for a job its queue and
the VA of its slot, for the digests of an address space that address space, for a placement the ready record or strand, for a cluster dispatch the entry, for a mailbox answer the receiver's owner. -/
def State.choiceOf (s : State) (d : List Nat) : Option (Nat × Nat × Nat) :=
  let h := d.getD 0 0
  let what := d.getD 2 0
  match h % 256 with
  | 1 =>
    let asid := bitsOf h 16 16
    let q := bitsOf h 8 8
    ((s.space asid).bind (·.queue q)).map (fun k => (asid, q, k.ring + h / 2 ^ 32 % max 1 k.slots * 64))
  | 3 =>
    let ready := s.spaces.findSome? (fun sp => (upTo 64).findSome? (fun q => (sp.queue q).bind (fun k =>
      if k.ready.any (fun r => r.record == what) then some (sp.asid, q, what) else none)))
    ready.or ((s.strands.find? (fun t => t.sid == what)).map (fun t => (t.asid, t.origin, t.record)))
  | 2 => some (bitsOf h 16 16, 0, 0)
  | 4 => ((s.core (bitsOf h 16 16)).owner).map (fun a => (a, 0, 0))
  | 5 => s.clusters.findSome? (fun p => (p.2.tasks.find? (fun e => e.record == what)).map (fun e => (e.asid, e.origin, what)))
  | _ => none

/-- The next choice of a replay, when it has not been forced for 1 s. -/
def State.lateChoice (s : State) : Option (List Nat) :=
  if s.mgmt.capMode ≠ 2 || s.now < s.mgmt.capSince + 100000000 then none else s.replayNext

/-- REPLAY_FORCE_TIMEOUT: the next choice has not been forced for 1 s; replay ends with an event of cause 8 to the address space of the choice.
The event's own operands say it where the state does not (log 37, DESIGN CHOICE). -/
def replayForceTimeout (asid queue record : Nat) (s : State) : State :=
  match s.lateChoice with
  | none => s
  | some d =>
    let (a, q, va) := (s.choiceOf d).getD (asid, queue, record)
    (s.setCapMode 0).event a 8 (q % 64) va s.mgmt.capPos

def execReplayForceTimeout (asid queue record : Nat) (s : State) : Host.Outcome State Fault Refusal :=
  .next (replayForceTimeout asid queue record s)

/-! ### Other registers (R7, R379, R380, R401) -/

/-- What a host reads of a BAR 0 doubleword (R7, R352, R379, R389, R397, R401 to R403): before READY only MODCTL, HEALTH and, from the end of
step 1 of bring-up on, ATTCTL and the report window, which reads zero until a request has completed there (R388). -/
def State.barRead (s : State) (offset : Nat) : Nat :=
  let g := s.mgmt
  let early : Nat := match offset with
    | 0x200 => s.health
    | 0x210 => b2n g.ready * 2 ^ 63 + g.phase % 8 * 2 ^ 60 + b2n g.lastCold * 2 ^ 59 + b2n g.retrain * 2 ^ 58
    | 0x220 => if g.booted then b2n g.attReq.isSome * 2 ^ 63 + g.attResult % 8 * 2 ^ 60 else 0
    | _ => if 0x1000 ≤ offset && offset < 0x2000 && g.booted && 32 < g.window.length then ofBytes ((g.window.drop (offset - 0x1000)).take 8) else 0
  if !g.ready then early
  else match offset with
    | 0x018 => s.cfg.capPtr
    | 0x100 => b2n g.asbindCmd.isSome * 2 ^ 63 + g.asbindResult % 8 * 2 ^ 60
    | 0x208 => g.logReg.toNat
    | 0x228 => g.capMode % 4 * 2 ^ 62 + b2n g.capStall * 2 ^ 61 + g.capResult % 8 * 2 ^ 58 + g.capRing % 2 ^ 48 + g.capLogn % 64
    | _ => early

/-- A write of CAPCTL (R403): MODE 3 is ignored; a MODE 0 that is accepted sets RING and LOGN as well. -/
def capctlWrite (v : Nat) (s : State) : State :=
  let ring := bitsOf v 6 42 * 64
  let logn := v % 64
  match v / 2 ^ 62 with
  | 0 => if !s.spaces.isEmpty || !s.mgmt.ready then captureModeOff s
    else { captureModeOff s with mgmt := { (captureModeOff s).mgmt with capRing := ring, capLogn := logn } }
  | 1 => captureModeOn ring logn s
  | 2 => replayModeOn ring logn s
  | _ => s

/-- REGISTER_WRITE of a doubleword: CAPCTL; the log register sets the error log, which starts at sequence 0; the first 32 bytes of the report
window hold the nonce; every other register here is read-only or has a row of its own (log 56, DEDUCED). A module without a valid image answers
only MODCTL, HEALTH, ATTCTL and the window (R399). -/
def registerWrite (offset value : Nat) (s : State) : State :=
  let v := value % 2 ^ 64
  if offset = 0x228 then capctlWrite v s
  else if offset = 0x208 && s.mgmt.booted && s.flash.image.isNone then s
  else if offset = 0x208 then { s with mgmt := { s.mgmt with logReg := BitVec.ofNat 64 (v % 2 ^ 48), logPos := 0 } }
  else if 0x1000 ≤ offset && offset < 0x1020 && offset % 8 = 0 && s.mgmt.booted then
    let w := s.windowNonce
    let o := offset - 0x1000
    { s with mgmt := { s.mgmt with window := w.take o ++ toBytes 8 v ++ w.drop (o + 8) ++ s.mgmt.window.drop 32 } }
  else s

def execRegisterWrite (port offset value : Nat) (s : State) : Host.Outcome State Fault Refusal :=
  .next ((fun (_ : Nat) => registerWrite offset value s) port)

end Sys2Proof.Machine
end

