-- ==== Sys2Proof/Machine/Matrix.lean ====
section
/-! DEFINITION. Meanings of majors 30 and 31: rank-one steps, panels, row moves and status (R63 to R66, R154 to R170), and
MATRIX_ENTRY_EXECUTE (R155). -/

namespace Sys2Proof.Machine

/-- FMTBAD of OF and of its pairing with AF (R158). -/
def ofCheck (i : Instr) (m : MFmt) : Except Stop Unit :=
  if m.of = 4 ∨ m.of ≥ 29 ∨ ((m.of == 0) != (m.af == 2)) then .error (.trap (fmtbad i m.of 3)) else .ok ()

/-! ### Checks at issue -/

/-- R224 and R154. -/
def matrixChecks (i : Instr) (names : Bool) (s : State) : Except Stop Unit :=
  match vectorAllowed i names s with
  | .error e => .error e
  | .ok () => if names then ewLive i s else .ok ()

/-- POISON for a poisoned accumulator element (R161, R381); the spec states no place code for it (log 27, DESIGN CHOICE). -/
def accPoisonTrap (s : State) : Stop :=
  let (v, s1) := s.freshWord
  .trapIn { cause := .poison, sinfo := v.toNat % 16 } s1

/-- Poison in the first n elements of width w of v sources. -/
def vecPoison (k : Core) (regs : List RegName) (w n : Nat) : Option Nat :=
  if k.regPoison.isEmpty then none
  else (upTo n).find? (fun i => regs.any (fun r => k.elemPoisoned (r, w, i)))

/-- Entries in flight in MQ: the short ones and the long instruction (R155, R170). -/
def Core.mqCount (k : Core) : Nat := k.mq.length + (if k.long.isSome then 1 else 0)

/-- A short instruction joins MQ (R155): it waits for room and for the older vector entries that write a register it reads. -/
def issueShort (i : Instr) (op1 op2 : Word) (s : State) : Except Stop State :=
  if s.me.mqCount ≥ 8 || s.me.queue.any (fun e => !e.done && meets (entryWrites e.instr) (mqReads i)) then .error .stall
  else .ok (s.modCore s.cur (fun k => { k with mq := k.mq ++ [{ instr := i, ctx := s.curCtx, op1, op2 }] })).advance

/-- Elements of a v source that a rank-one step reads. -/
def rankElems (m : MFmt) : Nat := if m.w = 8 then 128 else 64

/-- RANKA and RANKS (R160). -/
def issueRank (i : Instr) (o : LX) (s : State) : Except Stop State := do
  matrixChecks i true s
  let m := mfmt o.f16
  ofCheck i m
  match (vecPoison s.me [vReg o.a, vReg o.b] m.w (rankElems m)).or (s.me.accPoison o.d.toNat 0 4096) with
  | some j => .error (poisonQfault j)
  | none => issueShort i 0 0 s

def execRanka (o : LX) (s : State) := run (.ranka o) s (issueRank (.ranka o) o)
def execRanks (o : LX) (s : State) := run (.ranks o) s (issueRank (.ranks o) o)

def execMzero (o : LX) (s : State) := run (.mzero o) s (fun s => do
  matrixChecks (.mzero o) false s
  issueShort (.mzero o) 0 0 s)

def execMwr (o : LX) (s : State) := run (.mwr o) s (fun s => do
  matrixChecks (.mwr o) true s
  let m := mfmt o.f16
  ofCheck (.mwr o) m
  match vecPoison s.me [vReg o.a] m.w 64 with
  | some j => .error (poisonQfault j)
  | none => issueShort (.mwr o) (s.getX o.b) 0 s)

def execMrowacc (o : LX) (s : State) := run (.mrowacc o) s (fun s => do
  matrixChecks (.mrowacc o) true s
  let m := mfmt o.f16
  ofCheck (.mrowacc o) m
  match vecPoison s.me [vReg o.a] m.w 64 with
  | some j => .error (poisonQfault j)
  | none =>
    if (s.me.accPoison o.d.toNat ((s.getX o.b).toNat % 64 * 64) 64).isSome then .error (accPoisonTrap s)
    else issueShort (.mrowacc o) (s.getX o.b) (s.getX o.c) s)

def execMdrop (o : LN) (s : State) := run (.mdrop o) s (fun s => do
  matrixChecks (.mdrop o) false s
  issueShort (.mdrop o) 0 0 s)

/-! ### MATRIX_ENTRY_EXECUTE -/

def execMatrixEntryExecute (core : Nat) (s : State) : Host.Outcome State Fault Refusal := .next (matrixEntry core s)

/-! ### MRD, MSTAT and MWAIT (R166, R170) -/

/-- Steps completed of the MOPAK that owns an accumulator, or all ones (R166). -/
def Core.stepsDone (k : Core) (d : Nat) : Word := match k.long with
  | some l => if l.kind = 0 && l.acc = d then BitVec.ofNat 64 l.next else BitVec.allOnes 64
  | none => BitVec.allOnes 64

def execMrd (o : LX) (s : State) := run (.mrd o) s (fun s => do
  matrixChecks (.mrd o) true s
  let m := mfmt o.f16
  ofCheck (.mrd o) m
  checkMode (.mrd o) (m.af ≠ 2 && m.of ≠ afFc m.af && takesMode m.of) s.frm
  let k := s.me
  let r := (s.getX o.b).toNat % 64
  if !k.mq.isEmpty || k.queue.any (fun e => !e.done && ((entryReads e.instr).contains (vReg o.d) || (entryWrites e.instr).contains (vReg o.d)))
    then .error .stall
  match k.accPoison o.a.toNat (64 * r) 64 with
  | some j => .error (poisonQfault j)
  | none =>
    let x := k.putElems o.d.toNat m.w 64 (fun j => some (m.read s.frm (accWord (k.acc o.a.toNat) r j)))
    return ((s.setCore s.cur x.1).orFlags x.2).retX (o.b + 1) (k.stepsDone o.a.toNat))

def execMstat (o : LH) (s : State) := run (.mstat o) s (fun s => do
  matrixChecks (.mstat o) false s
  let k := s.me
  let owned := (k.long.map (fun l => 2 ^ (l.acc % 4))).getD 0
  return s.retX o.d (BitVec.ofNat 64 (b2n k.lastJoined * 2 ^ 13 + min 8 k.mqCount * 2 ^ 8 + owned * 2 ^ 4 + k.acLive.toNat)))

def execMwait (s : State) := run .mwait s (fun s => do
  matrixChecks .mwait false s
  if s.me.mq.any (fun e => e.ctx == s.curCtx) then .error .stall else .ok s.advance)

/-! ### Long instructions: start and end (R155, R161, R164, R165) -/

/-- The instruction owns its accumulator from here; the pipe does not pass it. -/
def State.startLong (s : State) (kind acc next : Nat) (key panels : List Nat) : State :=
  s.modCore s.cur (fun k => { k with long := some { kind, acc, next, mcKey := key, panels } })

/-- The step or row `next` has been performed; the last one ends the instruction and clears MSTART. -/
def State.stepLong (s : State) (total : Nat) : State :=
  match s.me.long with
  | none => s
  | some l =>
    if l.next + 1 < total then s.modCore s.cur (fun k => { k with residue := 0, long := some { l with next := l.next + 1 } })
    else (s.modCore s.cur (fun k => { k with residue := 0, long := none, u := { k.u with mstart := 0 } })).advance

/-- No step or row is left. -/
def State.emptyLong (s : State) : State := (s.modU (fun k => { k with mstart := 0 })).advance

/-- A long instruction begins once the older short entries of its context have completed. -/
def longWaits (s : State) : Bool := s.me.mq.any (fun e => e.ctx == .u)

/-! ### MOPAK (R161, R162) -/

/-- Bytes of one step of a panel. -/
def panelBytes (m : MFmt) : Nat := if m.w = 8 then 128 else 64 * (m.w / 8)

/-- Where byte i of the elements of one step lies among the bytes of a panel's step: an 8-bit panel holds the two columns (or rows) 2k and
2k + 1 of the step one after the other, and the step takes element 2i from the first and 2i + 1 from the second (R161; log 42, DEDUCED). -/
def panelElem (m : MFmt) (i : Nat) : Nat := if m.w = 8 then i % 2 * 64 + i / 2 else i

/-- The place of a panel, after PROT (R161): reason 2 outside one core's scratchpad, then the protection entries and the owner. -/
def panelPlace (va n : Nat) (s : State) : Except Stop Nat :=
  let w := s.who .load .r
  let outside : Except Stop Nat := .error (.trap { cause := .prot, saddr := va, sinfo := protInfo .load 2 })
  if !isLocal va then outside
  else match localPlace s.cur va with
    | .spad c o =>
      if o + n > 0x40_0000 then outside
      else if n = 0 then .ok (Loc.spad c o).key
      else match s.localAccess w va n with
        | .error e => .error e
        | .ok p => .ok p.key
    | _ => outside

/-- Another MOPAK of the cluster that this one may share panels with joins it, at a moment that the spec leaves to timing (R162) (log 42, DEDUCED). -/
def State.joinMulticast (s : State) (key : List Nat) : State :=
  let peers := (upTo 16).filter (fun i =>
    let c := clusterOf s.cur * 16 + i
    c ≠ s.cur && (((s.core c).long.map (fun l => l.kind == 0 && l.mcKey == key)).getD false))
  let s0 := s.modCore s.cur (fun k => { k with lastJoined := false })
  if key.isEmpty || peers.isEmpty then s0
  else
    let s1 := { s0 with free := s0.free + 1 }
    if Config.freeBool s0.free then
      (s.cur :: peers.map (clusterOf s.cur * 16 + ·)).foldl (fun t c => t.modCore c (fun k => { k with lastJoined := true })) s1
    else s1

/-- Step k of a MOPAK whose panels lie at ka and kb (log 12, DEDUCED): the panels passed every check when it was issued (R161), and the
occupant change of a target waits for it (R236). -/
def mopakStep (o : LX) (m : MFmt) (k ka kb : Nat) (s : State) : Except Stop State :=
  let n := panelBytes m
  let bad (key va : Nat) : Option Nat :=
    if s.mem.poisoned (key + n * k) n then some (va + 32 * s.badAtom (key + n * k) n - key) else none
  match (bad ka (s.addr o.a)).or (bad kb (s.addr o.b)) with
  | some va => .error (.trap { cause := .poison, saddr := va, sinfo := AKind.load.code * 16 + 3 })
  | none =>
    if (s.me.accPoison o.d.toNat 0 4096).isSome then .error (accPoisonTrap s)
    else
      let a := s.mem.read (ka + n * k) n
      let b := s.mem.read (kb + n * k) n
      let r := s.me.rankStep o.d.toNat m m.subt (fun i => bitsOf a (panelElem m i * m.w) m.w)
        (fun i => bitsOf b (panelElem m i * m.w) m.w)
      .ok ((s.setCore s.cur r.1).orFlags r.2)

def mopak (o : LX) (s : State) : Except Stop State := do
  let m := mfmt o.f16
  ofCheck (.mopak o) m
  let a := s.addr o.a
  let b := s.addr o.b
  let total := (s.getX o.c).toNat % 2 ^ 16
  let n := panelBytes m * total
  match s.me.long with
  | some l =>
    let s1 ← mopakStep o m l.next (Loc.key (match localPlace s.cur a with | .spad c p => .spad c p | _ => .phys 0))
      (Loc.key (match localPlace s.cur b with | .spad c p => .spad c p | _ => .phys 0)) s
    return s1.stepLong total
  | none =>
    if longWaits s then .error .stall
    orderWait o.oc false [(a, n), (b, n)] s
    checkAlign .load a 64
    checkAlign .load b 64
    if crosses64 a n then .error (.trap { cause := .addrovf, saddr := a, sinfo := AKind.load.code * 16 })
    if crosses64 b n then .error (.trap { cause := .addrovf, saddr := b, sinfo := AKind.load.code * 16 })
    let _ ← panelPlace a n s
    let _ ← panelPlace b n s
    let start := startIndex s.me.u.mstart 0 o.d.toNat
    let key := if m.mc && s.me.u.mcgroup.getLsbD (s.cur % 16) then [a, b, total, m.of, b2n m.subt, s.me.u.mcgroup.toNat] else []
    let s1 := s.joinMulticast key
    let panels := [a, b].filterMap (fun va => match localPlace s.cur va with | .spad c _ => some c | _ => none)
    if start ≥ total then return s1.emptyLong else return s1.startLong 0 o.d.toNat start key panels
where crosses64 (va n : Nat) : Bool := va + n > 2 ^ 56

def execMopak (o : LX) (s : State) := run (.mopak o) s (mopak o)

/-! ### MSTA and MLDA (R169) -/

/-- FMTBAD of the memory format. -/
def rowFormat (i : Instr) (o : LX) (s : State) : Except Stop Unit :=
  let p := s.getX o.a
  let m := mfmt o.f16
  let fc := ptrFc p
  if ptrBl p ≠ 0 || fc = 4 || fc ≥ 29 || (m.af = 2 && fc ≠ 0) || (fc = 0 && m.af ≠ 2 && m.sat) then
    .error (.trap (fmtbad i fc 2)) else .ok ()

/-- Places of the elements of one row, in order: the lowest failing element reports its own trap. -/
def rowPlaces (w : Who) (sz : Nat) : List Int → State → Except Stop (State × List Place)
  | [], s => .ok (s, [])
  | a :: t, s =>
    match checkRange w.kind a with
    | .error (.trap x) => .error (.trapIn x s)
    | .error e => .error e
    | .ok va =>
      match s.access w va sz with
      | .error (.trap x) => .error (.trapIn x s)
      | .error .stall => .error (.stallIn s)
      | .error e => .error e
      | .ok (s1, p) =>
        if w.need == .r && s1.placePoisoned w.asid p sz then .error (.trapIn (poisonTrap s1 w p sz va) s1)
        else match rowPlaces w sz t s1 with
          | .error e => .error e
          | .ok (s2, ps) => .ok (s2, p :: ps)

/-- The memory element that MSTA writes. -/
def rowStore (m : MFmt) (fc rm c : Nat) : Flagged Nat :=
  if fc = 0 then (c, 0)
  else if afFc m.af = fc && isTapered fc then (c, 0)
  else convertFc c (afFc m.af) fc m.sat rm

/-- The accumulator element that MLDA writes. -/
def rowLoad (m : MFmt) (fc c : Nat) : Flagged Nat := if fc = 0 then (c, 0) else accRound m.af (decodeFc c fc)

/-- Stores of a row's elements. -/
def State.storeRow (s : State) (asid sz : Nat) : List (Place × Nat) → State
  | [] => s
  | (p, c) :: t => (s.placeWrite asid p (toBytes sz c)).storeRow asid sz t

/-- Row r: every element checked and its pages pinned, then all of them performed. -/
def rowStep (o : LX) (store : Bool) (ea : Int) (sz r : Nat) (s : State) : Except Stop State :=
  let m := mfmt o.f16
  let d := o.d.toNat
  let fc := ptrFc (s.getX o.a)
  let w := { s.who (if store then .store else .load) (if store then .w else .r) with row := true, pinBy := some (.row s.cur) }
  let base := ea + (s.getX o.b).toInt * r
  match rowPlaces w sz ((upTo 64).map (fun j => base + (j * sz : Nat))) s with
  | .error e => .error e
  | .ok (s1, ps) =>
    let (s2, pinned) := s1.pinAll (.row s.cur) w.asid ps
    if !pinned || (store && s2.anyMoving w.asid ps) then .error (.stallIn (if store then s2.noteMoving w.asid ps (.issue s.cur .u) else s2))
    else if store then
      match s2.me.accPoison d (64 * r) 64 with
      | some j => .error (match poisonQfault j with | .trap t => .trapIn t (s2.unpin (.row s.cur)) | e => e)
      | none =>
        let cs := (upTo 64).map (fun j => rowStore m fc s.frm (accWord (s2.me.acc d) r j))
        let s3 := (s2.storeRow w.asid sz (ps.zip (cs.map (·.1)))).wroteWhole (ps.map (fun p => (p.key, sz)))
        let s4 := ps.foldl (fun t p => t.countHot w.asid p 0 1) s3
        .ok ((s4.unpin (.row s.cur)).orFlags (cs.foldl (fun g c => g ||| c.2) 0))
    else
      let vs := ps.map (fun p => s2.placeRead w.asid p sz)
      let x := accRow (s2.me.acc d) r (fun j _ => rowLoad m fc (vs.getD j 0))
      let s3 := s2.modCore s.cur (fun k => k.setAcc d (64 * r) 64 x.1)
      let s4 := ps.foldl (fun t p => t.countHot w.asid p 0 1) s3
      .ok ((s4.unpin (.row s.cur)).orFlags x.2)

/-- A trap of a row releases what the row held (R314). -/
def rowUnpin (c : Nat) : Stop → Stop
  | .trapIn t s => .trapIn t (s.unpin (.row c))
  | e => e

def rowMove (i : Instr) (o : LX) (store : Bool) (s : State) : Except Stop State := do
  let m := mfmt o.f16
  let kind : AKind := if store then .store else .load
  rowFormat i o s
  let fc := ptrFc (s.getX o.a)
  checkMode i (store && fc ≠ 0 && fc ≠ afFc m.af && takesMode fc) s.frm
  let sz := if fc = 0 then 4 else fmtWidth fc / 8
  let ea := s.eaX o.a o.imm
  let total := min (s.getX o.c).toNat 64
  match s.me.long with
  | some l =>
    match rowStep o store ea sz l.next s with
    | .error e => .error (rowUnpin s.cur e)
    | .ok s1 => return s1.stepLong total
  | none =>
    checkAlign kind ea sz
    if (s.getX o.b).toInt % sz ≠ 0 then
      .error (.trap { cause := .align, saddr := wrapAddr ea, sinfo := kind.code * 16 + sizeLog sz })
    let _ ← checkRange kind ea
    if longWaits s then .error .stall
    orderWait o.oc false ((upTo total).map (fun r => (ea + (s.getX o.b).toInt * r, 64 * sz))) s
    let code := if store then 1 else 2
    let start := startIndex s.me.u.mstart code o.d.toNat
    if start ≥ total then
      -- no row is left: MLDA makes the accumulator live all the same
      let s1 := if store then s else s.modCore s.cur (fun k => k.setAcc o.d.toNat 0 0 (k.acc o.d.toNat))
      return s1.emptyLong
    else return s.startLong code o.d.toNat start [] []

def execMsta (o : LX) (s : State) := run (.msta o) s (rowMove (.msta o) o true)
def execMlda (o : LX) (s : State) := run (.mlda o) s (rowMove (.mlda o) o false)

end Sys2Proof.Machine
end

