-- ==== Sys2Proof/Machine/Message.lean ====
section
/-! DEFINITION. Messages: meanings of MSEND, MSENDA and HEND (R194 to R196), the mailbox's answer (R220 to R222, R331, R405, R406), and
the events MESSAGE_ANSWER, MSENDA_COMPLETION, HANDLER_START and SERVICE_ENTRY (R205, R223). -/

namespace Sys2Proof.Machine

/-! ### The answer of a mailbox (R220) -/

/-- What a core does with a message that reaches it. -/
inductive MailCase where
  /-- The message waits: an image is being streamed from the core (R331), or capture or replay holds it (R405, R406). -/
  | held
  | forward (core : Nat)
  | refuse (status : Nat)
  | accept
deriving DecidableEq, Repr

/-- The case of R220 for a message of an address space; `last` says that four forwardings have been followed (R194). -/
def State.mailCase (s : State) (t asid : Nat) (last : Bool) : MailCase :=
  let k := s.core t
  if !s.live t then .refuse 2
  else if s.moves.any (fun m => m.src == t) then .held
  else if fwdValid k.fwdcfg && fwdAsid k.fwdcfg == asid && k.owner != some asid then
    -- messages accepted earlier go on first (R225)
    if last then .refuse 2 else if k.slots.any (fun m => m.asid == asid) then .held else .forward (fwdCore k.fwdcfg)
  else if k.owner != some asid then .refuse 2
  else if bitOf k.mboxcfg.toNat 15 || k.occupied ≥ k.mboxcfg.toNat % 64 then .refuse 1
  else .accept

/-- The record of an answer (R405 kind 4). -/
def mailHead (status receiver sender : Nat) : Nat := capHead 4 status receiver sender

/-- A recorded answer of a receiver to a sender. -/
def isMailRecord (receiver sender : Nat) (d : List Nat) : Bool :=
  let h := d.getD 0 0
  h % 256 == 4 && bitsOf h 16 16 == receiver && bitsOf h 32 32 == sender

/-- Replay lists an answer of this receiver to this sender further on (R406). -/
def State.mailListed (s : State) (receiver sender : Nat) : Bool :=
  (upTo (2 ^ s.mgmt.capLogn)).any (fun i => ((s.replayAt (s.mgmt.capPos + i)).map (isMailRecord receiver sender)).getD false)

/-- Capture and replay on an answer: held for ring space or for its turn, with the recorded status, or refused as unlisted. -/
def State.mailForced (s : State) (t sender : Nat) (c : MailCase) : MailCase :=
  match c with
  | .refuse _ | .accept =>
    if s.mgmt.capMode = 2 then
      match s.replayNext with
      | some d =>
        if isMailRecord t sender d then
          match bitsOf (d.getD 0 0) 8 8 with
          | 1 => .refuse 1
          | 2 => .refuse 2
          | _ => if s.live t && (s.core t).occupied < 32 then .accept else .held
        else if s.mailListed t sender then .held else .refuse 2
      | none => if s.mailListed t sender then .held else .refuse 2
    else if s.capRoom 1 then c else .held
  | _ => c

/-- The answer is recorded, and a recorded choice is used up. -/
def State.mailRecorded (s : State) (status t sender seqNo : Nat) : State :=
  if s.mgmt.capMode = 2 then
    (if ((s.replayNext).map (isMailRecord t sender)).getD false then s.replayTake else s)
  else s.capture (mailHead status t sender) [seqNo]

/-- Refusals count in MBOXSTAT while the core is live (R222). -/
def State.refuseMsg (s : State) (t sender status : Nat) : State :=
  let s1 := if !s.live t then s else s.modCore t (fun k =>
    if status = 1 then { k with rfull := BitVec.ofNat 16 (min 0xFFFF (k.rfull.toNat + 1)) }
    else { k with rabs := BitVec.ofNat 16 (min 0xFFFF (k.rabs.toNat + 1)) })
  s1.mailRecorded status t sender 0

/-- Accepted messages take the next number of their pair (R194) and wait in acceptance order (R223). -/
def State.acceptMsg (s : State) (t : Nat) (m : Msg) (status : Nat) : State × Nat :=
  let key := m.sender * 2 ^ 16 + t
  let n := (((kvGet key s.seqNos).getD 0) + 1) % 2 ^ 32
  let s1 := { s with seqNos := kvSet key n s.seqNos }
  let s2 := s1.modCore t (fun k => { k with slots := k.slots ++ [{ m with seqNo := n }], accepted := k.accepted + 1 })
  (s2.mailRecorded status t m.sender n, n)

/-- The result layout of R194. -/
def msendWord (seqNo core status : Nat) : Word := BitVec.ofNat 64 (seqNo * 2 ^ 32 + core % 2 ^ 16 * 2 ^ 16 + status)

/-- One core's answer: none while held; else the state with the result, or the core to which the message goes on. -/
def State.answerAt (s : State) (t target hops : Nat) (m : Msg) : Option (State × (Word ⊕ Nat)) :=
  match s.mailForced t m.sender (s.mailCase t m.asid (hops ≥ 4)) with
  | .held => none
  | .forward u => some (s, .inr u)
  | .refuse st => some (s.refuseMsg t m.sender st, .inl (msendWord 0 target st))
  | .accept =>
    let st := if hops = 0 then 0 else 3
    let (s1, n) := s.acceptMsg t m st
    some (s1, .inl (msendWord n t st))

/-- The whole way of a message from a core on; `fuel` is the forwardings left (log 47, DEDUCED). -/
def State.sendFrom (s : State) (target : Nat) (m : Msg) : Nat → Nat → Option (State × Word)
  | 0, _ => none
  | fuel + 1, t =>
    match s.answerAt t target (4 - fuel) m with
    | none => none
    | some (s1, .inl w) => some (s1, w)
    | some (s1, .inr u) => s1.sendFrom target m fuel u

/-! ### MSEND, MSENDA (R194, R195) -/

/-- The message that the issuing context builds (R31, R194). -/
def buildMsg (s : State) (handler : Word) : Msg :=
  { handler, seqNo := 0, asid := s.cx.as, sender := s.cur, payload := #v[s.getX 4, s.getX 5, s.getX 6, s.getX 7] }

/-- An earlier MSENDA of the context to the same target is unanswered (R195). -/
def sendQueued (s : State) (target : Nat) : Bool :=
  s.flights.any (fun f => f.core == s.cur && f.ctx == s.curCtx && f.asid == s.cx.as && f.sid == s.cx.sid && f.target == target
    && f.answer.isNone)

/-- With F[0] = 0 every earlier access performs first (R194) (log 47, DEDUCED). -/
def sendOrder (o : LH) (s : State) : Except Stop Unit := if bitOf o.f.toNat 0 then .ok () else orderWait 0 true [] s

def execMsend (o : LH) (s : State) := run (.msend o) s (fun s => do
  sendOrder o s
  let t := (s.getX o.a).toNat % 2 ^ 16
  if sendQueued s t then .error .stall
  match s.sendFrom t (buildMsg s (s.getX o.b)) 5 t with
  | none => .error (.stallIn (if s.capRoom 1 then s else s.capHold))
  | some (s1, w) => return s1.retX o.d w)

def execMsenda (o : LH) (s : State) := run (.msenda o) s (fun s => do
  match tokenCheck s o.d with
  | some e => .error e
  | none =>
    if s.cx.pend.getLsbD o.d.toNat then .error .stall
    sendOrder o s
    let t := (s.getX o.a).toNat % 2 ^ 16
    let (id, s1) := s.freshId
    let f : Flight := { id, core := s.cur, ctx := s.curCtx, asid := s.cx.as, sid := s.cx.sid, reg := o.d.toNat, target := t,
                        place := t, msg := buildMsg s (s.getX o.b), hops := 0, answer := none }
    return ({ s1 with flights := s1.flights ++ [f] }.setPending o.d).advance)

/-! ### Events of a message in flight -/

def State.modFlight (s : State) (id : Nat) (f : Flight → Flight) : State :=
  { s with flights := s.flights.map (fun p => if p.id = id then f p else p) }

/-- MESSAGE_ANSWER: the core where an MSENDA's message has arrived answers it or sends it on, in issue order of the strand. -/
def messageAnswer (id : Nat) (s : State) : State :=
  match s.flights.find? (fun f => f.id == id) with
  | none => s
  | some f =>
    let earlier := s.flights.any (fun e => e.id < id && e.core == f.core && e.ctx == f.ctx && e.asid == f.asid && e.sid == f.sid
      && e.target == f.target && e.answer.isNone)
    if f.answer.isSome || earlier then s
    else match s.answerAt f.place f.target f.hops f.msg with
      | none => if s.capRoom 1 then s else s.capHold
      | some (s1, .inl w) => s1.modFlight id (fun f => { f with answer := some w })
      | some (s1, .inr u) => s1.modFlight id (fun f => { f with place := u, hops := f.hops + 1 })

def execMessageAnswer (flight : Nat) (s : State) : Host.Outcome State Fault Refusal := .next (messageAnswer flight s)

/-- MSENDA_COMPLETION: the answer reaches the token; message status 1 or 2 is an error (R32). -/
def msendaCompletion (id : Nat) (s : State) : State :=
  match s.flights.find? (fun f => f.id == id) with
  | none => s
  | some f =>
    match f.answer with
    | none => s
    | some w =>
      let s1 := { s with flights := s.flights.filter (fun e => e.id != id) }
      s1.deliver f.core f.asid f.sid f.ctx f.reg w (w.toNat % 256 == 1 || w.toNat % 256 == 2)

def execMsendaCompletion (flight : Nat) (s : State) : Host.Outcome State Fault Refusal := .next (msendaCompletion flight s)

/-! ### Handlers and service entries (R17, R26, R205, R223) -/

/-- The A context of a core may start its next work. -/
def State.aFree (s : State) (c : Nat) : Bool :=
  s.live c && (s.core c).aWork == .idle && (match (s.core c).gang with | .follower _ => false | _ => true)

/-- The A context of a starting handler; `sid` is the strand number it runs under. -/
def handlerCtx (k : Core) (m : Msg) (sid : BitVec 48) : Ctx :=
  let x := { Ctx.reset with pc := m.handler, vtype := k.u.vtype, asid := BitVec.ofNat 16 m.asid, strandId := sid }
  ((((x.setX 3 (BitVec.ofNat 64 m.sender)).setX 4 m.payload[0]).setX 5 m.payload[1]).setX 6 m.payload[2]).setX 7 m.payload[3]

/-- HANDLER_START: the handler of the oldest accepted message of the owner starts, unless its strand is leaving the core (R331 step 1). STRANDID is
that of the U strand; while the U context holds none of the ASID the spec names none (log 21, DESIGN CHOICE) (log 47, DEDUCED). -/
def handlerStart (c : Nat) (s : State) : State :=
  let k := s.core c
  match k.slots.findIdx? (fun m => k.owner == some m.asid && m.onto.isNone) with
  | none => s
  | some i => match k.slots[i]? with
  | none => s
  | some m =>
    let rest := k.slots.eraseIdx i
    if !s.aFree c || !k.entries.isEmpty
        || (k.u.as == m.asid && s.leaving c) || s.moves.any (fun v => v.src == c && v.img.ctx.as == m.asid) then s
    else
      let own := k.uWork == .strand && k.u.as == m.asid
      let (w, s1) := if own then (k.u.strandId.setWidth 64, s) else s.freshWord
      s1.modCore c (fun k => { k with slots := rest, aWork := .handler m, a := handlerCtx k m (w.setWidth 48) })

def execHandlerStart (core : Nat) (s : State) : Host.Outcome State Fault Refusal := .next (handlerStart core s)

/-- SERVICE_ENTRY: the oldest pending entry starts in the free A context. -/
def serviceEntry (c : Nat) (s : State) : State :=
  match (s.core c).entries with
  | [] => s
  | e :: _ => if s.aFree c then startService s c e else s

def execServiceEntry (core : Nat) (s : State) : Host.Outcome State Fault Refusal := .next (serviceEntry core s)

/-- HEND (R196): the entries that the handler issued are done and no token of it is pending; its mailbox slot becomes free. A
promoted handler ends as EXIT ends a strand. -/
def execHend (s : State) := run .hend s (attempt fun s =>
  match s.curCtx with
  | .u => endStrand false s
  | .a =>
    if !(s.me.queue.all (fun e => e.ctx != .a) && s.me.mq.all (fun e => e.ctx != .a)) then .error .stall
    else if s.cx.pend ≠ 0 then .error (.trap { cause := .tokbad, sinfo := lowestBit s.cx.pend.toNat 32 + 3 * 32 })
    else .ok (s.freeA s.cur))

end Sys2Proof.Machine
end

