-- ==== Sys2Proof/Machine/Refs.lean ====
section
/-! DEFINITION. Meanings of majors 36 and 37: slots, fields, pins, moves and comparison of references (R171 to R181). -/

namespace Sys2Proof.Machine

def State.getQ (s : State) (r : BitVec 5) : Word := s.cx.getQ r
def State.setQ (s : State) (r : BitVec 5) (v : Word) : State := s.modCx (fun k => k.setQ r v)

/-- A trap after changes that are kept. -/
def keep (s : State) : Stop → Stop
  | .trap t => .trapIn t s
  | .stall => .stallIn s
  | e => e

/-! ### Slots (R175 to R177) -/

/-- Who makes a barriered access (R177, R181). -/
def State.barrierWho (s : State) (kind : AKind) (need : Need) : Who := { s.who kind need with barrier := true }

/-- A barriered access to a slot or field: a derived address on a managed page reaches the object's present copy (log 24, DEDUCED). Such an access
is checked at the page of the address it names and at that of the copy, and a trap met at the copy reports the copy's address (log 68, DESIGN
CHOICE: R177 does not say). `late` says that its maker counts it once it has performed (R316). -/
def State.barrierAccess (s : State) (kind : AKind) (need : Need) (va : Nat) (late : Bool := false) : Except Stop (State × Place) :=
  let w := { s.barrierWho kind need with late }
  let now := s.derived w.asid va
  if isLocal va || now = va then s.access w va 8
  else match s.translate w va with
    | .error e => .error e
    | .ok (s1, p) => s1.access w (if p.typ = 3 then now else va) 8

/-- The checks of a barriered access, which is made later (R175, R176): those of its fill when an L1 line serves it, else the home's. -/
def State.barrierCheck (s : State) (kind : AKind) (need : Need) (va : Nat) : Except Stop State :=
  let w := s.barrierWho kind need
  if isLocal va then (s.localAccess w va 8).map (fun _ => s)
  else if (((s.core w.core).l1Hit w va).map (·.serves w)).getD false then .ok s
  else (s.translate w va).map (·.1)

/-- A load that performed counts 1 at its page, where its own access has not counted it (R316). -/
def State.countDue (s : State) (p : Place) : State := if p.due then s.countHot s.cx.as p 0 1 else s

def execLdref (o : LM) (s : State) := run (.ldref o) s (fun s => do
  orderWait o.oc true [] s
  let va ← checkAddr .load (s.eaM o.a o.imm) 8
  let (s1, p) ← s.barrierAccess .load .r va true
  if s1.placePoisoned s.cx.as p 8 then .error (.trapIn (poisonTrap s1 (s1.who .load .r) p 8 va) s1)
  let v : Word := BitVec.ofNat 64 (s1.placeRead s.cx.as p 8)
  if v = 0 then return ((s1.countDue p).setQ o.d 0).advance
  else if !wellFormedRef v then .error (.trapIn (mhref 2 va) s1)
  else
    let (s2, r) ← (heal s1 v).mapError (keep s1)
    if r = v then return ((s2.countDue p).setQ o.d r).advance
    else
      -- the healing CAS: nothing comes between the load and it here, so it fails only where the slot itself has moved
      let (s3, p1) ← (s2.barrierAccess .atomic .rw va).mapError (keep s2)
      let s4 := if s3.placeRead s.cx.as p1 8 = v.toNat then s3.placeWrite s.cx.as p1 (toBytes 8 r.toNat) else s3
      return ((s4.countDue p).setQ o.d r).advance)

def execStref (o : LM) (s : State) := run (.stref o) s (fun s => do
  orderWait o.oc true [] s
  let va ← checkAddr .store (s.eaM o.a o.imm) 8
  let v := s.getQ o.d
  if v = 0 || refColour v == s.phase then
    let (s1, p) ← s.barrierAccess .store .w va
    return (s1.placeWrite s.cx.as p (toBytes 8 v.toNat)).advance
  else
    let s1 ← s.barrierCheck .store .w va
    let (s2, r) ← (heal s1 v).mapError (keep s1)
    let s3 := s2.setQ o.d r
    let (s4, p) ← (s3.barrierAccess .store .w va).mapError (keep s3)
    return (s4.placeWrite s.cx.as p (toBytes 8 r.toNat)).advance)

/-! ### Fields (R178) -/

/-- The field that LDF or STF reaches: q[A] is healed and keeps the healed value whatever follows. An unbound window page is no present page
for a load (R311). -/
def State.field (s : State) (o : LM) (kind : AKind) (need : Need) : Except Stop (State × Place × Nat) := do
  let r := s.getQ o.a
  if r = 0 then .error (.trap (mhref 1 0))
  if o.imm.toNat % 8 ≠ 0 then .error (.trap { cause := .align, saddr := 0, sinfo := kind.code * 16 + 3 })
  let (s1, h) ← heal s r
  let s2 := s1.setQ o.a h
  let va ← (checkRange kind ((refVa h : Int) + o.imm.toInt)).mapError (keep s2)
  let w := s.barrierWho kind need
  if isLocal va then .error (.trapIn (mhref 3 va) s2)
  else match s2.homeEntry w.asid va with
    | .error x => .error (keep s2 (homeStop s2 w va va x))
    | .ok (s3, e, level) =>
      if leafType e.leaf.toNat = 4 && need == .r && (s3.windowAt w.asid va).isNone then
        .error (.trapIn { cause := .pgnp, saddr := va, sinfo := pageInfo kind level e.big (homeOf va e.big) 3 } s3)
      else match protReason w e.leaf.toNat with
      | some x => .error (.trapIn { cause := .pgprot, saddr := va, sinfo := pageInfo kind level e.big (homeOf va e.big) x } s3)
      | none =>
        if leafType e.leaf.toNat ≠ 3 then .error (.trapIn (mhref 3 va) s3)
        else
          let (s4, p) ← (s3.barrierAccess kind need va).mapError (keep s3)
          return (s4, p, va)

def execLdf (o : LM) (s : State) := run (.ldf o) s (fun s => do
  orderWait o.oc true [] s
  let (s1, p, va) ← s.field o .load .r
  if s1.placePoisoned s.cx.as p 8 then .error (.trapIn (poisonTrap s1 (s1.who .load .r) p 8 va) s1)
  return s1.retX o.d (BitVec.ofNat 64 (s1.placeRead s.cx.as p 8)))

def execStf (o : LM) (s : State) := run (.stf o) s (fun s => do
  orderWait o.oc true [] s
  let (s1, p, _) ← s.field o .store .w
  return (s1.placeWrite s.cx.as p (toBytes 8 (s.getX o.d).toNat)).advance)

/-! ### Pins (R179) -/

/-- The managed pages that [va, va + n) overlaps, in order; `fuel` bounds the granules. A later page that is not managed raises MHREF 3, and one that is
not present its page trap, each with the page's own address and access kind 7 (log 68, DESIGN CHOICE: R179 does not say). -/
def State.objectPages (s : State) (w : Who) : Nat → Nat → Nat → Except Stop (State × List HomeEntry)
  | 0, _, _ => .ok (s, [])
  | fuel + 1, va, n =>
    if n = 0 then .ok (s, [])
    else match s.managedPage w va with
      | .error e => .error (keep s e)
      | .ok (s1, e) =>
        let m := min n (pageBytes e.big - va % pageBytes e.big)
        match s1.objectPages w fuel (va + m) (n - m) with
        | .error x => .error x
        | .ok (s2, l) => .ok (s2, e :: l)

/-- Each page's count is changed at its home; of a page whose entry has left the home again, in its record in memory (R315). -/
def State.pinPages (s : State) (f : Nat → Nat) (l : List HomeEntry) : State :=
  let up (hot : Nat) : Nat := setBits hot 48 16 (f (bitsOf hot 48 16))
  l.foldl (fun (t : State) e =>
    if (t.site e.site).home.cache.any e.same then t.modEntry e (fun o => { o with hot := BitVec.ofNat 64 (up o.hot.toNat) })
    else { t with mem := t.mem.write (hotPa e.leafPa) 8 (up (t.mem.read (hotPa e.leafPa) 8)) }) s

/-- The pages of the object that q[A] names, after the heal that PIN and UNPIN make; `bad` is the count that raises `reason`. The header is read
without an R right, and poison there is reported with access kind 7 (log 68, DESIGN CHOICE: R179 does not say). -/
def pinOp (a : BitVec 5) (bad reason : Nat) (f : Nat → Nat) (s : State) : Except Stop (State × Word) := do
  let r := s.getQ a
  if r = 0 then .error (.trap (mhref 1 0))
  let (s1, h) ← heal s r
  let s2 := s1.setQ a h
  let w := s.who .heal .look
  let (s3, e) ← (s2.managedPage w (refVa h)).mapError (keep s2)
  let p := s3.framePlace w (refVa h) e
  if s3.placePoisoned w.asid p 8 then .error (.trapIn (poisonTrap s3 w p 8 (refVa h)) s3)
  let n := objLength s3.mem p.key
  let (s4, pages) ← s3.objectPages w (n / 0x1_0000 + 2) (refVa h) n
  match pages.find? (fun e => e.hpin == bad) with
  | some e => .error (.trapIn (mhref reason (e.page * pageBytes e.big)) s4)
  | none => return (s4.pinPages f pages, h)

def execPin (o : LH) (s : State) := run (.pin o) s (fun s => do
  let (s1, h) ← pinOp o.a 65535 4 (· + 1) s
  return s1.retX o.d (BitVec.ofNat 64 (refVa h)))

/-- UNPIN follows every earlier access of the strand. -/
def execUnpin (o : LH) (s : State) := run (.unpin o) s (fun s => do
  if s.classQueued (fun _ => true) then .error .stall
  let (s1, _) ← pinOp o.a 0 5 (· - 1) s
  return s1.advance)

/-! ### Moves, conversion and comparison (R180) -/

def execQmov (o : LH) (s : State) := run (.qmov o) s (fun s => .ok (s.setQ o.d (s.getQ o.a)).advance)

def execQcvtFromRef (o : LH) (s : State) := run (.qcvtFromRef o) s (fun s => .ok (s.retX o.d (s.getQ o.a)))

def execQcvtToRef (o : LH) (s : State) := run (.qcvtToRef o) s (fun s => do
  let v := s.getX o.a
  if v = 0 then return (s.setQ o.d 0).advance
  else if !wellFormedRef v then .error (.trap (mhref 2 0))
  else
    let (s1, _) ← s.managedPage (s.who .heal .look) (refVa v)
    return (s1.setQ o.d v).advance)

def execRefeq (o : LH) (s : State) := run (.refeq o) s (fun s => do
  let a := s.getQ o.a
  let b := s.getQ o.b
  if a = 0 ∨ b = 0 then return s.retX o.d (if a = b then 1 else 0)
  else
    let (s1, ra) ← heal s a
    let s2 := s1.setQ o.a ra
    let (s3, rb) ← (heal s2 (s2.getQ o.b)).mapError (keep s2)
    let s4 := s3.setQ o.b rb
    return s4.retX o.d (if refVa ra = refVa rb then 1 else 0))

end Sys2Proof.Machine
end

