-- ==== Sys2Proof/Machine/VecConfig.lean ====
section
/-! DEFINITION. Meanings of the major 20 instructions: vector configuration, QSYNC, GANG and UNGANG (R12, R25, R137, R140, R141, R217 to
R219, R382). -/

namespace Sys2Proof.Machine

/-- The strand of a core with a retired lane meets its next SETVL, VSETT, VSETTX or GANG: it waits as QSYNC does, then the core is
remapped to 15 lanes: register bits above the new VLMAX read zero (R382) (log 40, DEDUCED), and so does the retired lane's slice, what twin
mode stored there included (R153; log 67, DEDUCED). -/
def remapLanes (s : State) : Except Stop State :=
  let k := s.me
  if s.curCtx == .u && k.retLane.isSome && !k.remapped then
    if !k.queue.isEmpty then .error .stall
    else
      let s1 := s.modCore s.cur (fun k => { k with
        remapped := true, v := k.v.map (fun r => (r.setWidth 3840).setWidth 32768),
        m := k.m.map (fun r => (r.setWidth 480).setWidth 4096) })
      .ok { s1 with mem := s1.mem.zero (Loc.slice s.cur (k.retLane.getD 0 * 8192)).key 8192 }
  else .ok s

/-- SETVL's result for a request: 0 with EW 0, else the request limited to VLMAX and cut to whole blocks (R140). -/
def State.setvlResult (s : State) (req : Nat) : Word :=
  BitVec.ofNat 64 (cutBlocks s.vtype (min req (s.vlmaxAt s.cur (ewBits (vtEw s.vtype)))))

/-- Major 20 in the A context needs a strand in the U context, as every vector instruction does (R224), but for GANG, which answers 3 there
(R141) (log 19, DEDUCED). -/
def configAllowed (i : Instr) (s : State) : Except Stop Unit := vectorAllowed i false s

def execSetvl (o : LH) (s : State) := run (.setvl o) s (fun s => do
  configAllowed (.setvl o) s
  let req := (s.getX o.a).toNat
  let s1 ← remapLanes s
  return s1.retX o.d (s1.setvlResult req))

def execVsett (o : LI16) (s : State) := run (.vsett o) s (fun s => do
  configAllowed (.vsett o) s
  if !vtypeOk o.imm then .error (.trap (fmtbad (.vsett o) (vtEf o.imm) 1))
  let s1 ← remapLanes s
  let s2 ← writeVtype (.vsett o) o.imm s1
  return s2.retX o.d (s2.setvlResult (2 ^ 64)))

def execVsettx (o : LH) (s : State) := run (.vsettx o) s (fun s => do
  configAllowed (.vsettx o) s
  let v := s.getX o.a
  let req := (s.getX o.b).toNat
  let t := v.setWidth 16
  if v.toNat ≥ 2 ^ 16 || !vtypeOk t then .error (.trap (fmtbad (.vsettx o) (vtEf t) 1))
  let s1 ← remapLanes s
  let s2 ← writeVtype (.vsettx o) t s1
  return s2.retX o.d (s2.setvlResult req))

def execSlip (o : LI16) (s : State) :=
  run (.slip o) s (fun s => do
    configAllowed (.slip o) s
    return (s.modU (fun k => { k with slipcfg := o.imm &&& 0x3F3F })).advance)

def execQsync (s : State) := run .qsync s (fun s => do
  configAllowed .qsync s
  if s.me.queue.isEmpty then return s.advance else .error .stall)

/-- The cores of the aligned block of n that holds c (R141). -/
def blockOf (c n : Nat) : List Nat := (upTo n).map (fun i => c / n * n + i)

/-- The status of GANG (R141) (log 43, DEDUCED). -/
def gangStatus (s : State) (n : Nat) : Nat :=
  let block := blockOf s.cur n
  if s.curCtx == .a || s.me.gang != .none then 3
  else if block.any (fun f => f != s.cur && ((s.core f).uWork.holds || s.heldFor f || (s.core f).gang != .none)) then 1
  else if block.any (fun f => !s.live f || (s.core f).retLane.isSome) then 2
  else 0

/-- The block is locked (R141, R217, R218): pooled registers above the leader's own share, and the followers' slices, read zero, and
the followers hold no occupant (log 17, DEDUCED). -/
def State.formGang (s : State) (n : Nat) : State :=
  let c := s.cur
  let s1 := s.modCore c (fun k => { k with
    gang := .leader n, v := k.v.map (fun r => (r.setWidth 4096).setWidth 32768),
    m := k.m.map (fun r => (r.setWidth 512).setWidth 4096) })
  ((blockOf c n).filter (· ≠ c)).foldl (fun t f =>
    let t1 := (t.modCore f (fun k => { k with gang := .follower c, owner := none })).flushSlots f
    { t1 with mem := t1.mem.zero (Loc.slice f 0).key (2 ^ 17) }) s1

def execGang (o : LH) (s : State) := run (.gang o) s (fun s => do
  let s1 ← remapLanes s
  if !s1.me.queue.isEmpty then .error .stall
  let n := 2 ^ (o.f.toNat % 4)
  let st := gangStatus s1 n
  let s2 := if st = 0 then s1.formGang n else s1
  return s2.retX o.d (BitVec.ofNat 64 st))

def execUngang (s : State) := run .ungang s (fun s => do
  configAllowed .ungang s
  if !s.me.queue.isEmpty then .error .stall else return (s.disband s.cur).advance)

end Sys2Proof.Machine
end

