-- ==== Sys2Proof/Machine/VecInstr.lean ====
section
/-! DEFINITION. Meanings of majors 21 to 29: the issue of each vector instruction, with the checks that stand at issue (R129 to R132,
R142 to R153), and the scalar halves of VMOVX, MPOP and MFIRST. What an entry then does is VECTOR_ENTRY_EXECUTE's. -/

namespace Sys2Proof.Machine

/-! ### Issue of elementwise instructions (R142 to R145) -/

/-- The scalar source that F[6] names. -/
def capB (o : LV) (s : State) : Captured := if lvBX o then { op1 := s.getX o.b } else {}

/-- Integer and bitwise work: no format check. -/
def issueInt (i : Instr) (o : LV) (s : State) : Except Stop State := do
  vectorChecks i s
  issueEntry i (s.vlOf o.l) (capB o s) s

/-- Floating work of the V layout: a floating EF, the saturate bit, and the mode when it rounds. -/
def issueFloat (i : Instr) (o : LV) (sat rounds : Bool) (s : State) : Except Stop State := do
  vectorChecks i s
  needFloat i s
  satAllowed i sat s
  checkMode i (rounds && takesMode (vtEf s.vtype)) s.vrm
  issueEntry i (s.vlOf o.l) (capB o s) s

/-- Floating work of major 24. -/
def issueX24 (i : Instr) (o : LX) (sat rounds : Bool) (s : State) : Except Stop State := do
  vectorChecks i s
  needFloat i s
  satAllowed i sat s
  checkMode i (rounds && takesMode (vtEf s.vtype)) s.vrm
  issueEntry i (s.vlOf o.l) (if lxBX o then { op1 := s.getX o.b } else {}) s

/-- The format checks of VFCVT (R143). -/
def cvtFormats (i : Instr) (f16 : Nat) : Except Stop Unit :=
  let src := f16 % 32
  let tgt := bitsOf f16 5 5
  let bad (c : Nat) : Bool := c == 4 || c ≥ 29
  if bad src then .error (.trap (fmtbad i src 3))
  else if bad tgt then .error (.trap (fmtbad i tgt 3))
  else if src = 0 ∧ tgt = 0 then .error (.trap (fmtbad i 0 3)) else .ok ()

/-- VFCVT rounds in a mode into IEEE and binary8 formats and into integers (R41, R57) (log 20, DEDUCED). -/
def cvtMode (f16 : Nat) : Bool :=
  let tgt := bitsOf f16 5 5
  if tgt = 0 then true else f16 % 32 != tgt && takesMode tgt

def issueCvt (i : Instr) (o : LX) (s : State) : Except Stop State := do
  vectorChecks i s
  cvtFormats i o.f16.toNat
  checkMode i (cvtMode o.f16.toNat) s.vrm
  issueEntry i (s.vlOfAt o.l (max (cvtSrcW o.f16.toNat) (cvtTgtW o.f16.toNat))) {} s

/-- VFSGN: unsigned binary8 has no sign (R143). -/
def issueSgn (i : Instr) (o : LX) (s : State) : Except Stop State :=
  if 22 ≤ vtEf s.vtype ∧ vtEf s.vtype ≤ 28 ∧ vtEw s.vtype ≠ 0 then
    match vectorChecks i s with
    | .error e => .error e
    | .ok () => .error (.trap (fmtbad i (vtEf s.vtype) 1))
  else issueX24 i o false false s

/-- Masks take their length from the register that F[4:0] names (R146). -/
def issueMask (i : Instr) (o : LH) (s : State) : Except Stop State := do
  vectorChecks i s
  issueEntry i (s.vlOf (o.f.setWidth 5)) {} s

/-- An instruction that reads vector state into an x register waits for its producers, and for the entries of VAQ before it (R132,
R135). -/
def scalarHalf (i : Instr) (r : RegName) (s : State) : Except Stop Unit := do
  vectorChecks i s
  if s.me.queue.any (fun e => !e.done && (queueOf e.instr == .vaq || (entryWrites e.instr).contains r)) then .error .stall

def execVadd (o : LV) (s : State) := run (.vadd o) s (issueInt (.vadd o) o)
def execVsub (o : LV) (s : State) := run (.vsub o) s (issueInt (.vsub o) o)
def execVand (o : LV) (s : State) := run (.vand o) s (issueInt (.vand o) o)
def execVor (o : LV) (s : State) := run (.vor o) s (issueInt (.vor o) o)
def execVxor (o : LV) (s : State) := run (.vxor o) s (issueInt (.vxor o) o)
def execVsll (o : LV) (s : State) := run (.vsll o) s (issueInt (.vsll o) o)
def execVsrl (o : LV) (s : State) := run (.vsrl o) s (issueInt (.vsrl o) o)
def execVsra (o : LV) (s : State) := run (.vsra o) s (issueInt (.vsra o) o)
def execVmul (o : LV) (s : State) := run (.vmul o) s (issueInt (.vmul o) o)
def execVmulh (o : LV) (s : State) := run (.vmulh o) s (issueInt (.vmulh o) o)
def execVmin (o : LV) (s : State) := run (.vmin o) s (issueInt (.vmin o) o)
def execVmax (o : LV) (s : State) := run (.vmax o) s (issueInt (.vmax o) o)
def execVsadd (o : LV) (s : State) := run (.vsadd o) s (issueInt (.vsadd o) o)
def execVssub (o : LV) (s : State) := run (.vssub o) s (issueInt (.vssub o) o)
def execVcmp (o : LV) (s : State) := run (.vcmp o) s (issueInt (.vcmp o) o)
def execVmerge (o : LV) (s : State) := run (.vmerge o) s (issueInt (.vmerge o) o)
def execVfadd (o : LV) (s : State) := run (.vfadd o) s (issueFloat (.vfadd o) o (bitOf o.f.toNat 0) true)
def execVfsub (o : LV) (s : State) := run (.vfsub o) s (issueFloat (.vfsub o) o (bitOf o.f.toNat 0) true)
def execVfmul (o : LV) (s : State) := run (.vfmul o) s (issueFloat (.vfmul o) o (bitOf o.f.toNat 0) true)
def execVfdiv (o : LV) (s : State) := run (.vfdiv o) s (issueFloat (.vfdiv o) o (bitOf o.f.toNat 0) true)
def execVfsqrt (o : LV) (s : State) := run (.vfsqrt o) s (issueFloat (.vfsqrt o) o (bitOf o.f.toNat 0) true)
def execVfmin (o : LV) (s : State) := run (.vfmin o) s (issueFloat (.vfmin o) o false false)
def execVfmax (o : LV) (s : State) := run (.vfmax o) s (issueFloat (.vfmax o) o false false)
def execVfcmp (o : LV) (s : State) := run (.vfcmp o) s (issueFloat (.vfcmp o) o false false)
def execVfma (o : LX) (s : State) := run (.vfma o) s (issueX24 (.vfma o) o (bitOf o.f16.toNat 0) true)
def execVfnma (o : LX) (s : State) := run (.vfnma o) s (issueX24 (.vfnma o) o (bitOf o.f16.toNat 0) true)
def execVfscale (o : LX) (s : State) := run (.vfscale o) s (issueX24 (.vfscale o) o (bitOf o.f16.toNat 0) true)
def execVfcvt (o : LX) (s : State) := run (.vfcvt o) s (issueCvt (.vfcvt o) o)
def execVfclass (o : LX) (s : State) := run (.vfclass o) s (issueX24 (.vfclass o) o false false)
def execVfsgn (o : LX) (s : State) := run (.vfsgn o) s (issueSgn (.vfsgn o) o)
def execVredsum (o : LV) (s : State) := run (.vredsum o) s (issueInt (.vredsum o) o)
def execVredmax (o : LV) (s : State) := run (.vredmax o) s (issueInt (.vredmax o) o)
def execVfredsum (o : LV) (s : State) := run (.vfredsum o) s (issueFloat (.vfredsum o) o false true)
def execVfredmax (o : LV) (s : State) := run (.vfredmax o) s (issueFloat (.vfredmax o) o false false)
def execVslide (o : LV) (s : State) := run (.vslide o) s (issueInt (.vslide o) o)
def execVperm (o : LV) (s : State) := run (.vperm o) s (issueInt (.vperm o) o)
def execVcompress (o : LV) (s : State) := run (.vcompress o) s (issueInt (.vcompress o) o)
def execVexpand (o : LV) (s : State) := run (.vexpand o) s (issueInt (.vexpand o) o)
def execViota (o : LV) (s : State) := run (.viota o) s (issueInt (.viota o) o)
def execVmov (o : LV) (s : State) := run (.vmov o) s (issueInt (.vmov o) o)

def execVsplat (o : LV) (s : State) := run (.vsplat o) s (fun s => do
  vectorChecks (.vsplat o) s
  issueEntry (.vsplat o) (s.vlOf o.l) { op1 := s.getX o.a } s)

def execVins (o : LV) (s : State) := run (.vins o) s (fun s => do
  vectorChecks (.vins o) s
  issueEntry (.vins o) (s.vlOf 0) { op1 := s.getX o.a, op2 := s.getX o.b } s)

/-- VMOVX (R145): x[D] := the element, 0 when the index is not below VLMAX; a poisoned element raises QFAULT once the older entries
are done (R381). -/
def execVmovx (o : LV) (s : State) := run (.vmovx o) s (fun s => do
  scalarHalf (.vmovx o) (vReg o.a) s
  let w := ewBits (vtEw s.vtype)
  let i := (s.getX o.b).toNat
  if i ≥ s.vlmaxAt s.cur w then return s.retX o.d 0
  else if s.me.elemPoisoned (vReg o.a, w, i) then
    if s.me.queue.isEmpty then .error (poisonQfault i) else .error .stall
  else
    let v := s.me.vElem o.a.toNat w i
    return s.retX o.d (if bitOf o.f.toNat 0 then BitVec.ofNat 64 v else BitVec.ofInt 64 (sInt w v)))

def execMand (o : LH) (s : State) := run (.mand o) s (issueMask (.mand o) o)
def execMor (o : LH) (s : State) := run (.mor o) s (issueMask (.mor o) o)
def execMxor (o : LH) (s : State) := run (.mxor o) s (issueMask (.mxor o) o)
def execMandn (o : LH) (s : State) := run (.mandn o) s (issueMask (.mandn o) o)
def execMnot (o : LH) (s : State) := run (.mnot o) s (issueMask (.mnot o) o)
def execMsbf (o : LH) (s : State) := run (.msbf o) s (issueMask (.msbf o) o)

/-- The bits of a mask below VL that MPOP and MFIRST read; a poisoned one raises QFAULT (R381). -/
def maskRead (i : Instr) (o : LH) (f : Core → Nat → Nat → Word) (s : State) : Except Stop State := do
  scalarHalf i (mReg o.a) s
  let n := s.vlOf (o.f.setWidth 5)
  match s.me.maskPoison o.a n with
  | some j =>
    if s.me.queue.isEmpty then .error (poisonQfault j) else .error .stall
  | none => return s.retX o.d (f s.me o.a.toNat n)

def execMpop (o : LH) (s : State) := run (.mpop o) s (maskRead (.mpop o) o (fun k r n =>
  BitVec.ofNat 64 ((upTo n).filter (fun i => k.mBit r i)).length))

def execMfirst (o : LH) (s : State) := run (.mfirst o) s (maskRead (.mfirst o) o (fun k r n =>
  match firstBit k r n with
  | some i => BitVec.ofNat 64 i
  | none => BitVec.allOnes 64))

/-! ### Memory (R147 to R153) -/

def execVld (o : LX) (s : State) := run (.vld o) s (issuePlain (.vld o) o false)
def execVst (o : LX) (s : State) := run (.vst o) s (issuePlain (.vst o) o true)
def execVldx (o : LX) (s : State) := run (.vldx o) s (issueIndexed (.vldx o) o false)
def execVstx (o : LX) (s : State) := run (.vstx o) s (issueIndexed (.vstx o) o true)
def execVlds (o : LX) (s : State) := run (.vlds o) s (issueScaled (.vlds o) o false)
def execVsts (o : LX) (s : State) := run (.vsts o) s (issueScaled (.vsts o) o true)
def execMld (o : LX) (s : State) := run (.mld o) s (issueMaskMem (.mld o) o)
def execMst (o : LX) (s : State) := run (.mst o) s (issueMaskMem (.mst o) o)
def execVldl (o : LX) (s : State) := run (.vldl o) s (issueLane (.vldl o) o)
def execVstl (o : LX) (s : State) := run (.vstl o) s (issueLane (.vstl o) o)

end Sys2Proof.Machine
end

