-- ==== Sys2Proof/Machine/Dispatch.lean ====
section
/-! DEFINITION. The one dispatch: each constructor of Instr to its meaning. -/

namespace Sys2Proof.Machine

/-- The effect of one instruction, or of one event of the opcode table. -/
def exec (i : Instr) (s : State) : Host.Outcome State Fault Refusal :=
  match i with
  | .brk o => Sys2Proof.Machine.execBrk o s
  | .add o => Sys2Proof.Machine.execAdd o s
  | .sub o => Sys2Proof.Machine.execSub o s
  | .and o => Sys2Proof.Machine.execAnd o s
  | .or o => Sys2Proof.Machine.execOr o s
  | .xor o => Sys2Proof.Machine.execXor o s
  | .andn o => Sys2Proof.Machine.execAndn o s
  | .orn o => Sys2Proof.Machine.execOrn o s
  | .xnor o => Sys2Proof.Machine.execXnor o s
  | .sll o => Sys2Proof.Machine.execSll o s
  | .srl o => Sys2Proof.Machine.execSrl o s
  | .sra o => Sys2Proof.Machine.execSra o s
  | .rol o => Sys2Proof.Machine.execRol o s
  | .ror o => Sys2Proof.Machine.execRor o s
  | .slt o => Sys2Proof.Machine.execSlt o s
  | .sltu o => Sys2Proof.Machine.execSltu o s
  | .seq o => Sys2Proof.Machine.execSeq o s
  | .min o => Sys2Proof.Machine.execMin o s
  | .max o => Sys2Proof.Machine.execMax o s
  | .minu o => Sys2Proof.Machine.execMinu o s
  | .maxu o => Sys2Proof.Machine.execMaxu o s
  | .mul o => Sys2Proof.Machine.execMul o s
  | .mulh o => Sys2Proof.Machine.execMulh o s
  | .mulhu o => Sys2Proof.Machine.execMulhu o s
  | .mulhsu o => Sys2Proof.Machine.execMulhsu o s
  | .div o => Sys2Proof.Machine.execDiv o s
  | .divu o => Sys2Proof.Machine.execDivu o s
  | .rem o => Sys2Proof.Machine.execRem o s
  | .remu o => Sys2Proof.Machine.execRemu o s
  | .clz o => Sys2Proof.Machine.execClz o s
  | .ctz o => Sys2Proof.Machine.execCtz o s
  | .popc o => Sys2Proof.Machine.execPopc o s
  | .bswap o => Sys2Proof.Machine.execBswap o s
  | .sext o => Sys2Proof.Machine.execSext o s
  | .zext o => Sys2Proof.Machine.execZext o s
  | .addw o => Sys2Proof.Machine.execAddw o s
  | .subw o => Sys2Proof.Machine.execSubw o s
  | .mulw o => Sys2Proof.Machine.execMulw o s
  | .cmovz o => Sys2Proof.Machine.execCmovz o s
  | .cmovnz o => Sys2Proof.Machine.execCmovnz o s
  | .addiI16 o => Sys2Proof.Machine.execAddiI16 o s
  | .addiWi o => Sys2Proof.Machine.execAddiWi o s
  | .addiXi o => Sys2Proof.Machine.execAddiXi o s
  | .andiI16 o => Sys2Proof.Machine.execAndiI16 o s
  | .andiWi o => Sys2Proof.Machine.execAndiWi o s
  | .andiXi o => Sys2Proof.Machine.execAndiXi o s
  | .oriI16 o => Sys2Proof.Machine.execOriI16 o s
  | .oriWi o => Sys2Proof.Machine.execOriWi o s
  | .oriXi o => Sys2Proof.Machine.execOriXi o s
  | .xoriI16 o => Sys2Proof.Machine.execXoriI16 o s
  | .xoriWi o => Sys2Proof.Machine.execXoriWi o s
  | .xoriXi o => Sys2Proof.Machine.execXoriXi o s
  | .sltiI16 o => Sys2Proof.Machine.execSltiI16 o s
  | .sltiWi o => Sys2Proof.Machine.execSltiWi o s
  | .sltiXi o => Sys2Proof.Machine.execSltiXi o s
  | .sltiuI16 o => Sys2Proof.Machine.execSltiuI16 o s
  | .sltiuWi o => Sys2Proof.Machine.execSltiuWi o s
  | .sltiuXi o => Sys2Proof.Machine.execSltiuXi o s
  | .shiI16 o => Sys2Proof.Machine.execShiI16 o s
  | .shiWi o => Sys2Proof.Machine.execShiWi o s
  | .shiXi o => Sys2Proof.Machine.execShiXi o s
  | .muliI16 o => Sys2Proof.Machine.execMuliI16 o s
  | .muliWi o => Sys2Proof.Machine.execMuliWi o s
  | .muliXi o => Sys2Proof.Machine.execMuliXi o s
  | .adda o => Sys2Proof.Machine.execAdda o s
  | .addiaWi o => Sys2Proof.Machine.execAddiaWi o s
  | .addiaXi o => Sys2Proof.Machine.execAddiaXi o s
  | .scalea o => Sys2Proof.Machine.execScalea o s
  | .pfmt o => Sys2Proof.Machine.execPfmt o s
  | .gfmt o => Sys2Proof.Machine.execGfmt o s
  | .clrfmt o => Sys2Proof.Machine.execClrfmt o s
  | .suba o => Sys2Proof.Machine.execSuba o s
  | .liI16 o => Sys2Proof.Machine.execLiI16 o s
  | .liI32 o => Sys2Proof.Machine.execLiI32 o s
  | .liL64 o => Sys2Proof.Machine.execLiL64 o s
  | .lpc o => Sys2Proof.Machine.execLpc o s
  | .mov o => Sys2Proof.Machine.execMov o s
  | .csrr o => Sys2Proof.Machine.execCsrr o s
  | .csrw o => Sys2Proof.Machine.execCsrw o s
  | .csrs o => Sys2Proof.Machine.execCsrs o s
  | .csrc o => Sys2Proof.Machine.execCsrc o s
  | .csrx o => Sys2Proof.Machine.execCsrx o s
  | .j o => Sys2Proof.Machine.execJ o s
  | .jal o => Sys2Proof.Machine.execJal o s
  | .jalr o => Sys2Proof.Machine.execJalr o s
  | .beq o => Sys2Proof.Machine.execBeq o s
  | .bne o => Sys2Proof.Machine.execBne o s
  | .blt o => Sys2Proof.Machine.execBlt o s
  | .bge o => Sys2Proof.Machine.execBge o s
  | .bltu o => Sys2Proof.Machine.execBltu o s
  | .bgeu o => Sys2Proof.Machine.execBgeu o s
  | .bms o => Sys2Proof.Machine.execBms o s
  | .bmc o => Sys2Proof.Machine.execBmc o s
  | .fadd o => Sys2Proof.Machine.execFadd o s
  | .fsub o => Sys2Proof.Machine.execFsub o s
  | .fmul o => Sys2Proof.Machine.execFmul o s
  | .fdiv o => Sys2Proof.Machine.execFdiv o s
  | .fsqrt o => Sys2Proof.Machine.execFsqrt o s
  | .fmin o => Sys2Proof.Machine.execFmin o s
  | .fmax o => Sys2Proof.Machine.execFmax o s
  | .fcmp o => Sys2Proof.Machine.execFcmp o s
  | .fma o => Sys2Proof.Machine.execFma o s
  | .fcvt o => Sys2Proof.Machine.execFcvt o s
  | .fclass o => Sys2Proof.Machine.execFclass o s
  | .ldb o => Sys2Proof.Machine.execLdb o s
  | .ldbu o => Sys2Proof.Machine.execLdbu o s
  | .ldh o => Sys2Proof.Machine.execLdh o s
  | .ldhu o => Sys2Proof.Machine.execLdhu o s
  | .ldw o => Sys2Proof.Machine.execLdw o s
  | .ldwu o => Sys2Proof.Machine.execLdwu o s
  | .ldd o => Sys2Proof.Machine.execLdd o s
  | .ldaq o => Sys2Proof.Machine.execLdaq o s
  | .stb o => Sys2Proof.Machine.execStb o s
  | .sth o => Sys2Proof.Machine.execSth o s
  | .stw o => Sys2Proof.Machine.execStw o s
  | .std o => Sys2Proof.Machine.execStd o s
  | .strl o => Sys2Proof.Machine.execStrl o s
  | .strlw o => Sys2Proof.Machine.execStrlw o s
  | .ldaqw o => Sys2Proof.Machine.execLdaqw o s
  | .mstd o => Sys2Proof.Machine.execMstd o s
  | .amo o => Sys2Proof.Machine.execAmo o s
  | .cas o => Sys2Proof.Machine.execCas o s
  | .fence o => Sys2Proof.Machine.execFence o s
  | .pflush o => Sys2Proof.Machine.execPflush o s
  | .clwb o => Sys2Proof.Machine.execClwb o s
  | .acopy o => Sys2Proof.Machine.execAcopy o s
  | .acopy2d o => Sys2Proof.Machine.execAcopy2d o s
  | .agather o => Sys2Proof.Machine.execAgather o s
  | .acoll o => Sys2Proof.Machine.execAcoll o s
  | .glaze o => Sys2Proof.Machine.execGlaze o s
  | .wbind o => Sys2Proof.Machine.execWbind o s
  | .wread o => Sys2Proof.Machine.execWread o s
  | .acancel o => Sys2Proof.Machine.execAcancel o s
  | .setvl o => Sys2Proof.Machine.execSetvl o s
  | .vsett o => Sys2Proof.Machine.execVsett o s
  | .vsettx o => Sys2Proof.Machine.execVsettx o s
  | .slip o => Sys2Proof.Machine.execSlip o s
  | .gang o => Sys2Proof.Machine.execGang o s
  | .vadd o => Sys2Proof.Machine.execVadd o s
  | .vsub o => Sys2Proof.Machine.execVsub o s
  | .vand o => Sys2Proof.Machine.execVand o s
  | .vor o => Sys2Proof.Machine.execVor o s
  | .vxor o => Sys2Proof.Machine.execVxor o s
  | .vsll o => Sys2Proof.Machine.execVsll o s
  | .vsrl o => Sys2Proof.Machine.execVsrl o s
  | .vsra o => Sys2Proof.Machine.execVsra o s
  | .vmul o => Sys2Proof.Machine.execVmul o s
  | .vmulh o => Sys2Proof.Machine.execVmulh o s
  | .vmin o => Sys2Proof.Machine.execVmin o s
  | .vmax o => Sys2Proof.Machine.execVmax o s
  | .vsadd o => Sys2Proof.Machine.execVsadd o s
  | .vssub o => Sys2Proof.Machine.execVssub o s
  | .vcmp o => Sys2Proof.Machine.execVcmp o s
  | .vmerge o => Sys2Proof.Machine.execVmerge o s
  | .vfadd o => Sys2Proof.Machine.execVfadd o s
  | .vfsub o => Sys2Proof.Machine.execVfsub o s
  | .vfmul o => Sys2Proof.Machine.execVfmul o s
  | .vfdiv o => Sys2Proof.Machine.execVfdiv o s
  | .vfmin o => Sys2Proof.Machine.execVfmin o s
  | .vfmax o => Sys2Proof.Machine.execVfmax o s
  | .vfcmp o => Sys2Proof.Machine.execVfcmp o s
  | .vfsqrt o => Sys2Proof.Machine.execVfsqrt o s
  | .vfma o => Sys2Proof.Machine.execVfma o s
  | .vfnma o => Sys2Proof.Machine.execVfnma o s
  | .vfcvt o => Sys2Proof.Machine.execVfcvt o s
  | .vfclass o => Sys2Proof.Machine.execVfclass o s
  | .vfscale o => Sys2Proof.Machine.execVfscale o s
  | .vfsgn o => Sys2Proof.Machine.execVfsgn o s
  | .vredsum o => Sys2Proof.Machine.execVredsum o s
  | .vfredsum o => Sys2Proof.Machine.execVfredsum o s
  | .vredmax o => Sys2Proof.Machine.execVredmax o s
  | .vfredmax o => Sys2Proof.Machine.execVfredmax o s
  | .vslide o => Sys2Proof.Machine.execVslide o s
  | .vperm o => Sys2Proof.Machine.execVperm o s
  | .vcompress o => Sys2Proof.Machine.execVcompress o s
  | .vexpand o => Sys2Proof.Machine.execVexpand o s
  | .vmovx o => Sys2Proof.Machine.execVmovx o s
  | .vins o => Sys2Proof.Machine.execVins o s
  | .vsplat o => Sys2Proof.Machine.execVsplat o s
  | .viota o => Sys2Proof.Machine.execViota o s
  | .vmov o => Sys2Proof.Machine.execVmov o s
  | .mand o => Sys2Proof.Machine.execMand o s
  | .mor o => Sys2Proof.Machine.execMor o s
  | .mxor o => Sys2Proof.Machine.execMxor o s
  | .mandn o => Sys2Proof.Machine.execMandn o s
  | .mnot o => Sys2Proof.Machine.execMnot o s
  | .mpop o => Sys2Proof.Machine.execMpop o s
  | .mfirst o => Sys2Proof.Machine.execMfirst o s
  | .msbf o => Sys2Proof.Machine.execMsbf o s
  | .vld o => Sys2Proof.Machine.execVld o s
  | .vldx o => Sys2Proof.Machine.execVldx o s
  | .vst o => Sys2Proof.Machine.execVst o s
  | .vstx o => Sys2Proof.Machine.execVstx o s
  | .vlds o => Sys2Proof.Machine.execVlds o s
  | .vsts o => Sys2Proof.Machine.execVsts o s
  | .mld o => Sys2Proof.Machine.execMld o s
  | .mst o => Sys2Proof.Machine.execMst o s
  | .vldl o => Sys2Proof.Machine.execVldl o s
  | .vstl o => Sys2Proof.Machine.execVstl o s
  | .ranka o => Sys2Proof.Machine.execRanka o s
  | .ranks o => Sys2Proof.Machine.execRanks o s
  | .mopak o => Sys2Proof.Machine.execMopak o s
  | .mzero o => Sys2Proof.Machine.execMzero o s
  | .mrd o => Sys2Proof.Machine.execMrd o s
  | .mwr o => Sys2Proof.Machine.execMwr o s
  | .mrowacc o => Sys2Proof.Machine.execMrowacc o s
  | .msta o => Sys2Proof.Machine.execMsta o s
  | .mstat o => Sys2Proof.Machine.execMstat o s
  | .mlda o => Sys2Proof.Machine.execMlda o s
  | .mdrop o => Sys2Proof.Machine.execMdrop o s
  | .ldref o => Sys2Proof.Machine.execLdref o s
  | .stref o => Sys2Proof.Machine.execStref o s
  | .ldf o => Sys2Proof.Machine.execLdf o s
  | .stf o => Sys2Proof.Machine.execStf o s
  | .pin o => Sys2Proof.Machine.execPin o s
  | .unpin o => Sys2Proof.Machine.execUnpin o s
  | .qmov o => Sys2Proof.Machine.execQmov o s
  | .qcvtToRef o => Sys2Proof.Machine.execQcvtToRef o s
  | .qcvtFromRef o => Sys2Proof.Machine.execQcvtFromRef o s
  | .refeq o => Sys2Proof.Machine.execRefeq o s
  | .spawn o => Sys2Proof.Machine.execSpawn o s
  | .join o => Sys2Proof.Machine.execJoin o s
  | .exit o => Sys2Proof.Machine.execExit o s
  | .migrate o => Sys2Proof.Machine.execMigrate o s
  | .bar o => Sys2Proof.Machine.execBar o s
  | .crewinfo o => Sys2Proof.Machine.execCrewinfo o s
  | .self o => Sys2Proof.Machine.execSelf o s
  | .msend o => Sys2Proof.Machine.execMsend o s
  | .msenda o => Sys2Proof.Machine.execMsenda o s
  | .enqt o => Sys2Proof.Machine.execEnqt o s
  | .tdone o => Sys2Proof.Machine.execTdone o s
  | .grun o => Sys2Proof.Machine.execGrun o s
  | .cbinv o => Sys2Proof.Machine.execCbinv o s
  | .sysc o => Sys2Proof.Machine.execSysc o s
  | .sret o => Sys2Proof.Machine.execSret o s
  | .wait o => Sys2Proof.Machine.execWait o s
  | .xinv o => Sys2Proof.Machine.execXinv o s
  | .opreq o => Sys2Proof.Machine.execOpreq o s
  | .preempt o => Sys2Proof.Machine.execPreempt o s
  | .ctxstream o => Sys2Proof.Machine.execCtxstream o s
  | .serviceEntry core => Sys2Proof.Machine.execServiceEntry core s
  | .handlerStart core => Sys2Proof.Machine.execHandlerStart core s
  | .messageAnswer flight => Sys2Proof.Machine.execMessageAnswer flight s
  | .msendaCompletion flight => Sys2Proof.Machine.execMsendaCompletion flight s
  | .vectorEntryExecute core k => Sys2Proof.Machine.execVectorEntryExecute core k s
  | .matrixEntryExecute core => Sys2Proof.Machine.execMatrixEntryExecute core s
  | .enginePiece op => Sys2Proof.Machine.execEnginePiece op s
  | .tokenCompletion op => Sys2Proof.Machine.execTokenCompletion op s
  | .windowExchange op => Sys2Proof.Machine.execWindowExchange op s
  | .collectiveTimeout op => Sys2Proof.Machine.execCollectiveTimeout op s
  | .remoteCopyTimeout op => Sys2Proof.Machine.execRemoteCopyTimeout op s
  | .liveMoveAck move => Sys2Proof.Machine.execLiveMoveAck move s
  | .measuredMigration core => Sys2Proof.Machine.execMeasuredMigration core s
  | .aging core => Sys2Proof.Machine.execAging core s
  | .parkedWaitCheck core k => Sys2Proof.Machine.execParkedWaitCheck core k s
  | .waitTimeout asid sid => Sys2Proof.Machine.execWaitTimeout asid sid s
  | .overflowAdmit core => Sys2Proof.Machine.execOverflowAdmit core s
  | .occupantZeroingDone core => Sys2Proof.Machine.execOccupantZeroingDone core s
  | .schedulerPreempt site => Sys2Proof.Machine.execSchedulerPreempt site s
  | .watchdogT1 asid sid => Sys2Proof.Machine.execWatchdogT1 asid sid s
  | .watchdogT2 asid sid => Sys2Proof.Machine.execWatchdogT2 asid sid s
  | .watchdogT3 asid sid => Sys2Proof.Machine.execWatchdogT3 asid sid s
  | .jobTake asid queue => Sys2Proof.Machine.execJobTake asid queue s
  | .recordReady asid record => Sys2Proof.Machine.execRecordReady asid record s
  | .dispatch site => Sys2Proof.Machine.execDispatch site s
  | .crewReservation site => Sys2Proof.Machine.execCrewReservation site s
  | .eprioRaise asid queue => Sys2Proof.Machine.execEprioRaise asid queue s
  | .clusterTaskDispatch cluster => Sys2Proof.Machine.execClusterTaskDispatch cluster s
  | .clusterTaskRecheck cluster k => Sys2Proof.Machine.execClusterTaskRecheck cluster k s
  | .queueCancel asid queue => Sys2Proof.Machine.execQueueCancel asid queue s
  | .eventsLostReport asid => Sys2Proof.Machine.execEventsLostReport asid s
  | .syscRingRetry asid => Sys2Proof.Machine.execSyscRingRetry asid s
  | .syscResult asid pos => Sys2Proof.Machine.execSyscResult asid pos s
  | .asbindBind port record => Sys2Proof.Machine.execAsbindBind port record s
  | .asbindUnbind port record => Sys2Proof.Machine.execAsbindUnbind port record s
  | .powerOnReset => Sys2Proof.Machine.execPowerOnReset s
  | .modctlCold port => Sys2Proof.Machine.execModctlCold port s
  | .modctlWarm port => Sys2Proof.Machine.execModctlWarm port s
  | .attestRequest port area => Sys2Proof.Machine.execAttestRequest port area s
  | .captureModeOff port => Sys2Proof.Machine.execCaptureModeOff port s
  | .captureModeOn port ring logn => Sys2Proof.Machine.execCaptureModeOn port ring logn s
  | .replayModeOn port ring logn => Sys2Proof.Machine.execReplayModeOn port ring logn s
  | .captureRingSpace => Sys2Proof.Machine.execCaptureRingSpace s
  | .replayForceTimeout asid queue record => Sys2Proof.Machine.execReplayForceTimeout asid queue record s
  | .registerWrite port offset value => Sys2Proof.Machine.execRegisterWrite port offset value s
  | .errorCorrected unitKind unit pa count => Sys2Proof.Machine.execErrorCorrected unitKind unit pa count s
  | .poisonCreated place unit addr => Sys2Proof.Machine.execPoisonCreated place unit addr s
  | .laneRetire core lane => Sys2Proof.Machine.execLaneRetire core lane s
  | .matrixStepCheckFail core => Sys2Proof.Machine.execMatrixStepCheckFail core s
  | .coreFence core => Sys2Proof.Machine.execCoreFence core s
  | .opLimitLower tile => Sys2Proof.Machine.execOpLimitLower tile s
  | .pseudoChannelFailing pc => Sys2Proof.Machine.execPseudoChannelFailing pc s
  | .linkDegrade link => Sys2Proof.Machine.execLinkDegrade link s
  | .moduleError => Sys2Proof.Machine.execModuleError s
  | .hostPortDown port => Sys2Proof.Machine.execHostPortDown port s
  | .hostDeath port offset lines => Sys2Proof.Machine.execHostDeath port offset lines s
  | .poolFailure port offset bytes => Sys2Proof.Machine.execPoolFailure port offset bytes s
  | .cxlEngineFailure port => Sys2Proof.Machine.execCxlEngineFailure port s
  | .fabricPortDown port => Sys2Proof.Machine.execFabricPortDown port s
  | .thermalWarning site => Sys2Proof.Machine.execThermalWarning site s
  | .thermalThrottle site => Sys2Proof.Machine.execThermalThrottle site s
  | .thermalCritical site => Sys2Proof.Machine.execThermalCritical site s
  | .damperGrant tile => Sys2Proof.Machine.execDamperGrant tile s
  | .tileGate tile => Sys2Proof.Machine.execTileGate tile s
  | .tileWake tile => Sys2Proof.Machine.execTileWake tile s
  | .pointSwitch tile => Sys2Proof.Machine.execPointSwitch tile s
  | .atsCompletion k hpa rights => Sys2Proof.Machine.execAtsCompletion k hpa rights s
  | .priResponse k code => Sys2Proof.Machine.execPriResponse k code s
  | .priTimeout k => Sys2Proof.Machine.execPriTimeout k s
  | .atsInvalidation port pasid va bytes => Sys2Proof.Machine.execAtsInvalidation port pasid va bytes s
  | .invalidationCompletion k => Sys2Proof.Machine.execInvalidationCompletion k s
  | .hostSnoop port addr => Sys2Proof.Machine.execHostSnoop port addr s
  | .hostMemAccess port pa write data => Sys2Proof.Machine.execHostMemAccess port pa write data s
  | .pinAdmit site => Sys2Proof.Machine.execPinAdmit site s
  | .hotnessWriteback site k => Sys2Proof.Machine.execHotnessWriteback site k s
  | .moveMigrate site => Sys2Proof.Machine.execMoveMigrate site s
  | .moveReplicate site => Sys2Proof.Machine.execMoveReplicate site s
  | .moveCollapse site => Sys2Proof.Machine.execMoveCollapse site s
  | .moveResetHotness site => Sys2Proof.Machine.execMoveResetHotness site s
  | .flip => Sys2Proof.Machine.execFlip s
  | .copy => Sys2Proof.Machine.execCopy s
  | .free => Sys2Proof.Machine.execFree s
  | .errorLogSpace => Sys2Proof.Machine.execErrorLogSpace s
  | .persistConfirmation k => Sys2Proof.Machine.execPersistConfirmation k s
  | .nodeQualifiedRemoteAccess asid va write data => Sys2Proof.Machine.execNodeQualifiedRemoteAccess asid va write data s
  | .hostPortUp port => Sys2Proof.Machine.execHostPortUp port s
  | .fabricPortUp port => Sys2Proof.Machine.execFabricPortUp port s
  | .conePointRecovery site => Sys2Proof.Machine.execConePointRecovery site s
  | .nop => Sys2Proof.Machine.execNop s
  | .psync => Sys2Proof.Machine.execPsync s
  | .qsync => Sys2Proof.Machine.execQsync s
  | .ungang => Sys2Proof.Machine.execUngang s
  | .mwait => Sys2Proof.Machine.execMwait s
  | .yield => Sys2Proof.Machine.execYield s
  | .hend => Sys2Proof.Machine.execHend s

end Sys2Proof.Machine
end

