-- ==== Sys2Proof/Machine/Turn.lean ====
section
/-! DEFINITION. One turn of the machine: which context issues (R213, R214), fetching and decoding its instruction (R71, R80), the
counts of R233, the device's own work, and the order of turns (log 1, DESIGN CHOICE). -/

namespace Sys2Proof.Machine

/-! ### Issue -/

/-- The instruction at the PC of the executing context, whose line has been fetched. -/
def State.slotInstr (s : State) : Except Ill Instr :=
  match s.cx.line with
  | some (_, l) => decodeSlot l (s.cx.pcNat % 32)
  | none => .error .unlisted

/-- The head at the PC of the executing context. -/
def State.slotHead (s : State) : BitVec 16 :=
  match s.cx.line with
  | some (_, l) => lineHalf l (s.cx.pcNat % 32 + 1)
  | none => 0

/-- Service code is at the nested entry, which a trap of its own has just reached (R205). -/
def State.atNested (s : State) : Bool :=
  s.curCtx == .a && (match s.me.aWork with | .service _ _ => true | _ => false)
    && s.cx.pc == nestedEntry s.me.svec && bitsOf s.me.sstatus.toNat 1 3 == 5

/-- A fetch that fails: a trap while fetching the nested entry fences the core (R205, R378). -/
def fetchStop (s : State) (e : Stop) : Host.Outcome State Fault Refusal :=
  match e with
  | .trap _ | .trapIn _ _ => if s.atNested then .next (s.fence s.cur) else finish s e
  | _ => finish s e

/-- An instruction counts for a class that is not the core's own (R233). -/
def State.countsFor (s : State) (i : Instr) (k : Cls) : Bool :=
  let own := s.cls s.cur
  let need := neededMask i
  k != own &&
    ((!capHolds own need && capHolds k need)
      || (k == .control && 1 ≤ need && need ≤ 15 && vtEw s.cx.vtype == 0 && s.me.acLive == 0 && s.me.queue.isEmpty))

/-- The window's counts after an instruction (R233). -/
def State.mixAfter (s : State) (i : Instr) : Mix :=
  let m := s.me.mix
  { m with
    issued := m.issued + 1, control := m.control + b2n (s.countsFor i .control),
    vector := m.vector + b2n (s.countsFor i .vector), tensor := m.tensor + b2n (s.countsFor i .tensor) }

/-- A context without what a wait may change: the line that it has fetched, and what it waits for. -/
def Ctx.still (k : Ctx) : Ctx := { k with line := none, waiting := .no, deadline := none }

/-- The U strand of core c waits in a BAR that it has reached (R192, R214). -/
def State.atBar (s : State) (c : Nat) : Bool :=
  let k := s.core c
  ((s.crewOf k.u.as k.u.sid).map (fun w => w.arrived.any (fun p => p.2 == w.index k.u.sid))).getD false

/-- The executing context, whose line stood in s, has got on: it did not wait (R214). A transfer leaves the line, one to the same PC too. The U
strand issues the instruction by which it starts a long matrix instruction, reaches a BAR or leaves the core, and waits in it from then on. -/
def gotOn (s t : State) : Bool :=
  let k := t.core s.cur
  let x := k.ctx s.curCtx
  let changed := x.still != s.cx.still || x.line.isNone
  match s.curCtx with
  | .a => changed
  | .u => s.me.long.isNone && !s.atBar s.cur && (changed || k.uWork != s.me.uWork || k.long.isSome || t.atBar s.cur)

/-- After an instruction of the U strand: where it last issued (R409), its window counts, while it is still on the core, and its turn at issue
(R213, R233). -/
def afterIssue (i : Instr) (s t : State) : State :=
  match s.curCtx with
  | .a => t
  | .u =>
    if !gotOn s t then t
    else
      let k := t.core s.cur
      let same := k.uWork == .strand && k.u.asid == s.cx.asid && k.u.strandId == s.cx.strandId
      let t := if (s.myStrand.map (·.issuedAt)).getD s.cur = s.cur then t
        else t.modStrand s.cx.as s.cx.sid (fun x => { x with issuedAt := s.cur })
      let t1 := t.modCore s.cur (fun k => { k with uStreak := 0, mix := if same then s.mixAfter i else k.mix })
      if same && 4096 ≤ (s.mixAfter i).issued then t1.closeWindow s.cur else t1

/-- A map over the next state of an outcome. -/
def mapNext (f : State → State) : Host.Outcome State Fault Refusal → Host.Outcome State Fault Refusal
  | .next s => .next (f s)
  | .fault r => .fault r
  | .refused r => .refused r

/-- A stop that is no wait. -/
def Stop.isTrap : Stop → Bool
  | .trap _ | .trapIn _ _ => true
  | _ => false

/-- The executing context issues: fetch, decode, and the instruction's meaning; and whether it got on (R214). -/
def issueNow (s : State) : Host.Outcome State Fault Refusal × Bool :=
  match s.fetch with
  | .error e => (fetchStop s e, e.isTrap)
  | .ok s1 =>
    match s1.slotInstr with
    | .error e => (finish s1 (.trap { cause := .illins, sinfo := s1.slotHead.toNat + e.code * 2 ^ 16 }), true)
    | .ok i => match exec i s1 with
      | .next t => (.next (afterIssue i s1 t), gotOn s1 t)
      | o => (o, true)

/-- Context n of core c issues. -/
def issueAt (c : Nat) (n : CtxName) (s : State) : Host.Outcome State Fault Refusal × Bool := issueNow { s with cur := c, curCtx := n }

/-- Work that a core does beside its instructions may go on: it is live, its tile runs, at a point above OP0 (R263, R265, R266), and it is no
gang follower (R141). -/
def State.coreRuns (s : State) (c : Nat) : Bool :=
  s.live c && (s.tile (tileOf c)).point != 0 && (match (s.core c).gang with | .follower _ => false | _ => true)

/-- The context has something to run: a strand that may issue (R214, R247), not one that is to be stopped (R326), that is being ended as killed
(R188), or of whose crew another member is being streamed (R216); a handler or service code. -/
def State.ctxWorks (s : State) (c : Nat) : CtxName → Bool
  | .u =>
    let k := s.core c
    k.uWork == .strand && !k.zeroing && !s.dyingAt c && !s.stopping c
      && !((s.crewOf k.u.as k.u.sid).map s.crewMoving).getD false
  | .a => (s.core c).aWork != .idle

/-- One issue cycle of a core: the choice between the contexts (R213). A context that waits is not ready (R214); its wait is met all the same, and a
long matrix instruction goes on, whichever context issues. -/
def coreIssue (c : Nat) (s : State) : Host.Outcome State Fault Refusal :=
  if !s.ctxWorks c .a then (if s.ctxWorks c .u then (issueAt c .u s).1 else .next s)
  else if !s.ctxWorks c .u then (issueAt c .a s).1
  else
    let ra := issueAt c .a s
    let ru := issueAt c .u s
    if ra.2 then
      if !ru.2 then match ru.1 with
        | .next t => (issueAt c .a t).1
        | o => o
      else if 7 ≤ (s.core c).uStreak then ru.1
      else mapNext (fun t => t.modCore c (fun k => { k with uStreak := k.uStreak + 1 })) ra.1
    else match ra.1 with
      | .next t => (issueAt c .u t).1
      | o => o

/-! ### What a core does of itself -/

/-- A state step taken only where it is due, so that an idle unit leaves the state alone. -/
def whenB (b : Bool) (f : State → State) (s : State) : State := if b then s.attempt f else s

/-- Before a core's issue cycle: zeroing ends, a due stop happens, a killed strand ends, messages of a lost owner go on as slots become free
(R225), the free contexts take their next work, and the oldest entry of MQ and of the vector queues executes. -/
def background (c : Nat) (s : State) : State :=
  let s := whenB (s.core c).zeroing (zeroingDone c) s
  let s := whenB (!(s.core c).arrival.isEmpty && !(s.core c).uWork.holds) (fun t => t.nextU c) s
  let s := whenB (s.asked c) (fun t => stopNow (t.core c).u.as (t.core c).u.sid (t.stopMate c)) s
  let s := whenB (s.core c).breakDue (breakStep c) s
  let s := whenB (s.core c).retireDue (retireStep c) s
  let s := whenB ((s.core c).uWork == .strand && s.dyingAt c && s.killDone c) (fun t => t.endKilled c) s
  let s := whenB ((s.core c).slots.any (·.onto.isSome)) (fun t => t.sendOn c) s
  let s := whenB (!(s.core c).entries.isEmpty) (serviceEntry c) s
  let s := whenB (!(s.core c).slots.isEmpty) (handlerStart c) s
  let s := whenB (!(s.core c).mq.isEmpty) (matrixEntry c) s
  let s := whenB (!(s.core c).queue.isEmpty) (vectorEntry c 0) s
  whenB (s.core c).mix.due.isSome (fun t => measuredMigration c (aging c t)) s

/-- A core's clock advances (R21, R267; log 4, DESIGN CHOICE). -/
def State.tickCore (s : State) (c : Nat) : State :=
  { s.modCore c (fun k => { k with cycle := k.cycle + BitVec.ofNat 64 (Config.cycleElapsed s.free) }) with free := s.free + 1 }

/-- A core that has work in its turn keeps its tile from being idle (R263), and its tile's request for budget is noted (R265). -/
def State.noteWork (s : State) (c : Nat) : State :=
  (whenB (s.tile (tileOf c)).idleSince.isSome (fun t => t.modTile (tileOf c) (fun x => { x with idleSince := none })) s).noteAsk (tileOf c)

/-- A core's turn. -/
def coreTurn (c : Nat) (s : State) : Host.Outcome State Fault Refusal := coreIssue c (background c (s.noteWork c |>.tickCore c))

/-! ### What the device does of itself -/

/-- A state step for each element of a list. -/
def sweep {α : Type} (l : List α) (f : α → State → State) (s : State) : State := l.foldl (fun t a => f a t) s

def sweepFlights (s : State) : State := sweep (s.flights.map (·.id)) (fun id t => msendaCompletion id (messageAnswer id t)) s

def sweepOps (s : State) : State := sweep (s.ops.map (·.id)) (fun id t =>
  tokenCompletion id (remoteTimeout id (collectiveTimeout id (windowExchange id (enginePiece id t))))) s

def sweepMoves (s : State) : State := sweep (s.moves.map (·.id)) liveMoveAck s

/-- The launch queues, events and system calls of every address space. -/
def sweepSpaces (s : State) : State :=
  sweep (s.spaces.map (·.asid)) (fun a t =>
    let t1 := sweep (upTo 64) (fun q u => eprioRaise a q (jobTake a q (queueCancel a q u))) t
    let t2 := syscRingRetry a (eventsLostReport a t1)
    sweep ((t2.sysReqs.filter (fun r => r.asid == a)).map (·.pos)) (syscResult a) t2) s

def sweepSites (s : State) : State := sweep (upTo 4) (fun i t =>
  let t1 := hotnessDue i (moveServe i 4 (moveServe i 3 (moveServe i 2 (moveServe i 1 (pinAdmit i t)))))
  schedulerPreempt i (dispatchSite i (crewReservation i t1))) s

def sweepClusters (s : State) : State := sweep s.clusters (fun p t =>
  clusterDispatch p.1 (sweep (upTo p.2.tasks.length) (clusterRecheck p.1) t)) s

def sweepStrands (s : State) : State := sweep (s.strands.map (fun x => (x.asid, x.sid))) (fun p t =>
  watchdogT3 p.1 p.2 (watchdogT2 p.1 p.2 (watchdogT1 p.1 p.2 (waitTimeout p.1 p.2 t)))) s

def sweepCores (s : State) : State := sweep (s.cores.map (·.1)) (fun c t =>
  let t1 := tileWake (tileOf c) t
  let t2 := sweep (upTo (t1.core c).arrival.length) (parkedCheck c) t1
  overflowAdmit c (aging c t2)) s

/-- The points of the tiles that a listed core stands in (R264 to R266), and the gating of every tile without work (R263). -/
def sweepTiles (s : State) : State :=
  sweep (upTo (s.coreCount / 4)) tileGate (sweep ((s.cores.map (fun p => tileOf p.1)).eraseDups) (fun t u => pointSwitch t (damperGrant t u)) s)

def sweepHeap (s : State) : State :=
  if s.heapCmds.isEmpty then s else heapServe 3 freeServe (heapServe 2 copyServe (heapServe 1 flipServe s))

def sweepHost (s : State) : State :=
  let s1 := sweep (upTo s.hostReqs.length).reverse priTimeout { s with devFails := [] }
  let s2 := sweep (upTo s1.invals.length).reverse invalidationCompletion s1
  let s3 := sweep (upTo s2.pendingPersists.length).reverse persistConfirmation s2
  replayForceTimeout 0 0 0 (captureRingSpace (errorLogSpace (attestStep (asbindStep s3))))

/-- The device's own work, once round: each event of it that is due comes about. -/
def deviceTurn (s : State) : State :=
  sweepHost (sweepHeap (sweepTiles (sweepCores (sweepStrands (sweepClusters (sweepSites (sweepSpaces (sweepMoves (sweepOps (sweepFlights s))))))))))

/-! ### The order of turns (log 1, DESIGN CHOICE) -/

/-- A core that has work to do in its turn. -/
def State.coreBusy (s : State) (c : Nat) : Bool := s.coreRuns c && s.hasWork c

/-- The next core to take its turn: the lowest busy one from `cur` on. -/
def State.nextCore (s : State) : Option Nat := ((s.cores.map (·.1)).filter (fun c => decide (s.cur ≤ c) && s.coreBusy c)).head?

/-- The reference count advances (R21; log 4, DESIGN CHOICE), and no attempt of the device is under way (log 70, DESIGN CHOICE). -/
def State.tick (s : State) : State :=
  { s with time := s.time + BitVec.ofNat 64 (Config.timeElapsed s.free), free := s.free + 1, blocked := false }

/-- The turn when the agenda is empty: a step of bring-up before READY (R390); nothing once a module-class error has stopped the module
(R378); else the next busy core, and after the last the device. -/
def defaultTurn (s : State) : Host.Outcome State Fault Refusal :=
  if !s.mgmt.ready then .next (bringUp (attestStep s))
  else if s.mgmt.stopped then .next s
  else match s.nextCore with
    | some c => mapNext (fun t => { t with cur := c + 1 }) (coreTurn c s)
    | none => .next { deviceTurn s with cur := 0 }

/-- A turn that the agenda names: an issue cycle of a core, or an event (log 13, DESIGN CHOICE). A cycle that names the A context makes the
choice of R213; one that names the U context is a cycle in which the A context is not ready, since it waits for a fetch or a scalar load (R214). -/
def agendaTurn (t : Turn) (s : State) : Host.Outcome State Fault Refusal :=
  match t with
  | .issue c n =>
    if !(s.mgmt.ready && !s.mgmt.stopped && s.coreRuns c) then .next s
    else match n with
      | .a => coreIssue c ((s.noteWork c).tickCore c)
      | .u => if s.ctxWorks c .u then (issueAt c .u ((s.noteWork c).tickCore c)).1 else .next s
  | .entry c i => .next (if s.mgmt.ready && !s.mgmt.stopped then vectorEntry c i s else s)
  | .piece id => .next (if s.mgmt.ready && !s.mgmt.stopped then enginePiece id s else s)
  | .event i => match encode i with
    | none => exec i s
    | some _ => .next s

/-! ### Placing one instruction (log 16, DESIGN CHOICE) -/

/-- The lowest class that holds a needed mask: control, vector, tensor. -/
def classFor (need : Nat) : Cls :=
  if capHolds .control need then .control else if capHolds .vector need then .vector else .tensor

/-- The lowest core of the class that can hold a needed mask. -/
def State.coreFor (s : State) (need : Nat) : Nat :=
  match classFor need with
  | .control => 0
  | .vector => s.controls
  | .tensor => s.controls + s.vectors

/-- A U strand that is about to enter the line at the base of the local window. -/
def placedCtx (k : Ctx) : Ctx := { k with pc := 0x00FF000000000000, line := none, waiting := .no, deadline := none }

/-- The core runs its U context only, in a strand whose own scratchpad holds the line and may be executed from. -/
def placedCore (k : Core) : Core :=
  { k with
    u := placedCtx k.u, uWork := .strand, aWork := .idle, entries := [], slots := [], mq := [], queue := [], vfault := none,
    zeroing := false, status := .live, gang := .none, l1i := [],
    mix := { issued := 0, control := 0, vector := 0, tensor := 0 },
    protb := k.protb.set 0 (BitVec.ofNat 64 (k.u.asid.toNat * 2 ^ 48)),
    protl := k.protl.set 0 (BitVec.ofNat 64 (2 ^ 63 + 7 * 2 ^ 60 + 64)) }

/-- One instruction, alone in its line, where the next step fetches it: the module is ready, no turn is set, and the lowest core that can
hold it runs a strand at that line in its own scratchpad. -/
def placeInstr (head : BitVec 16) (tail : BitVec 64) (s : State) : State :=
  let need := match decode head tail with | .ok i => neededMask i | .error _ => 1
  let c := s.coreFor need
  let s1 := { s.modCore c placedCore with
    agenda := [], cur := c, curCtx := .u,
    mem := s.mem.writeBytes (Loc.spad c 0).key (toBytes 64 (oneLine head tail).toNat),
    mgmt := { s.mgmt with ready := true, phase := 7, stopped := false } }
  s1.modTile (tileOf c) (fun x => { x with gated := false, point := max 1 x.point })

end Sys2Proof.Machine
end

