-- ==== Sys2Proof/Machine/Step.lean ====
section
/-! DEFINITION. One step of the machine, and the placing of one instruction where the next step fetches it. -/

namespace Sys2Proof.Machine

/-- One step: the clock advances, and one turn is taken, that of the agenda's head or else the default one (log 1, DESIGN CHOICE). -/
def step (s : State) : Host.Outcome State Fault Refusal :=
  match s.agenda with
  | [] => defaultTurn s.tick
  | t :: rest => agendaTurn t { s.tick with agenda := rest }

/-- The state with the instruction of a row's bits stored where the next step fetches it (log 16, DESIGN CHOICE). -/
def State.withFetchWord (s : State) (nbits w : Nat) : State :=
  placeInstr (tableHead nbits w) (tableTail nbits w) s

end Sys2Proof.Machine
end

