-- ==== Sys2Proof/Safety.lean ====
section
/-! DEFINITION. The terms in which claims about the machine are made: when an instruction issues, what a step may leave changed, and
the states that a run stays in. -/

namespace Sys2Proof.Machine

/-! ### When an instruction reaches its own entry (R80, R119, R183) -/

/-- None of the checks that stand before an instruction's own entry stops it: its encoding is well formed, it may wait here, it is
used where it may be (R183), the level and the core's class allow it (R80 steps 3 and 4), and no register that it names waits for a
token (R119). -/
abbrev Issues (i : Instr) (s : State) : Prop :=
  i.WellFormed ∧ (isWaiting i = true → s.curCtx = .u) ∧ misused s i = false ∧ (isS i = true → s.cx.priv = true) ∧
    capHolds (s.cls s.cur) (neededMask i) = true ∧ tokenWait s i = false

/-! ### Frames -/

/-- Every byte of memory reads as before. -/
def SameBytes (s t : State) : Prop := ∀ a, t.mem.byte a = s.mem.byte a

/-- Every byte of memory outside [key, key + n) reads as before. -/
def SameBytesOutside (s t : State) (key n : Nat) : Prop := ∀ a, (a < key ∨ key + n ≤ a) → t.mem.byte a = s.mem.byte a

/-- Nothing but core c differs: every other field of the machine and every other core is as before. -/
def OnlyCore (s t : State) (c : Nat) : Prop :=
  { t with cores := s.cores } = s ∧ ∀ d, d ≠ c → t.core d = s.core d

/-- Nothing but the executing context differs: the core's other context, its CSRs, vector, mask and accumulator registers, queues and
mailbox, the other cores, memory, and the rest of the machine are as before. -/
def OnlyContext (s t : State) : Prop :=
  OnlyCore s t s.cur ∧ t.me = s.me.setCtx s.curCtx t.cx ∧ SameBytes s t

/-- Nothing but core c differs, which is now k; memory reads as before. -/
def CoreBecomes (s t : State) (c : Nat) (k : Core) : Prop := OnlyCore s t c ∧ t.core c = k ∧ SameBytes s t

/-- Two contexts agree in everything but the x registers, the place of execution, and FFLAGS. -/
def SameBesidesX (k l : Ctx) : Prop :=
  { l with x := k.x, pc := k.pc, line := k.line, waiting := k.waiting, deadline := k.deadline, fflags := k.fflags } = k

/-- THE FRAME OF A REGISTER INSTRUCTION with its result: x[D] reads as the value (as zero when D is 0: R11), every other x register is
unchanged, execution goes on at `pc`, the flags are ORed into FFLAGS (R58), and nothing else of the machine differs. -/
def ResultsF (s t : State) (d : BitVec 5) (v : Word) (pc : Word) (flags : BitVec 5) : Prop :=
  t.getX d = (if d = 0 then 0 else v) ∧ (∀ r, r ≠ d → t.getX r = s.getX r) ∧ t.cx.pc = pc ∧
    t.cx.fflags = s.cx.fflags ||| flags ∧ SameBesidesX s.cx t.cx ∧ OnlyContext s t

/-- The same without flags: FFLAGS is unchanged. -/
def Results (s t : State) (d : BitVec 5) (v : Word) (pc : Word) : Prop := ResultsF s t d v pc 0

/-- The same, execution going on at next_pc (R79). -/
def Returns (s t : State) (d : BitVec 5) (v : Word) : Prop := Results s t d v s.cx.nextPc

/-- No x register changes and execution goes on at `pc`; nothing else differs. -/
def MovesTo (s t : State) (pc : Word) : Prop := Results s t 0 0 pc

/-- The current core with its executing context at next_pc. -/
def State.meNext (s : State) : Core := s.me.setCtx s.curCtx s.cx.advance

/-! ### States that runs stay in -/

/-- Every entry of memory is canonical, and so is the table of cores: keys strictly rising (log 3, DESIGN CHOICE). -/
def State.tablesOk (s : State) : Bool := s.mem.wf && decide (s.cores.Pairwise (fun p q => p.1 < q.1))

/-- The module has stopped on a module-class error (R378), is past bring-up, and no event from outside is set to happen. -/
def State.halted (s : State) : Prop :=
  s.mgmt.ready = true ∧ s.mgmt.stopped = true ∧ ∀ t ∈ s.agenda, ∀ i, t ≠ .event i

end Sys2Proof.Machine
end

