-- ==== Sys2Proof/Certificates/Slice0/Obligations.lean ====
section
/-! DEFINITION. The statements about the machine that are to be proved, and before each group the values that the rules of spec/ give,
written from the rules and not from the meanings. -/

open Sys2Proof Sys2Proof.Machine

/-! ### Encoding (R68 to R70, R72, R81) -/

/-- R69, R72, R80, R81: every well-formed instruction that has words is what its words decode to, with every operand at every value. -/
def Obligations.DecodeOfEncode : Prop :=
  ∀ (i : Instr) (e : Enc), i.WellFormed → encode i = some e → decode e.head e.tail = .ok i

/-- R69, R72, R81: what decodes is the encoding of the instruction that it decodes to: MAJOR, TL, D and SUB stand in bits 15:10, 9:8, 7:3
and 2:0 of the head, and the tail has the 0, 1, 2 or 4 halfwords that TL gives; halfwords beyond those take no part, whatever the decoder
answers. So no word has two readings, and no bit of one is ignored. -/
def Obligations.EncodeOfDecode : Prop :=
  ∀ (h : BitVec 16), let tl := h.extractLsb' 8 2
    let bits := 16 * (if tl = 0 then 0 else if tl = 1 then 1 else if tl = 2 then 2 else 4)
    (∀ (t : BitVec 64) (i : Instr), decode h t = .ok i → ∃ e, encode i = some e ∧ e.head = h ∧ e.maj = h.extractLsb' 10 6 ∧ e.tl = tl ∧
      e.d = h.extractLsb' 3 5 ∧ e.sub = h.extractLsb' 0 3 ∧ e.tail.toNat = t.toNat % 2 ^ bits) ∧
    ∀ t u : BitVec 64, t.toNat % 2 ^ bits = u.toNat % 2 ^ bits → decode h t = decode h u

/-- R68, R70: the line that holds one encoded instruction is well formed, and its slot 0 decodes to that instruction. -/
def Sys2Proof.Rule.OneLineDecodes : Prop :=
  ∀ (i : Instr) (e : Enc), i.WellFormed → encode i = some e →
    lineReason (oneLine e.head e.tail) 0 = none ∧ decodeSlot (oneLine e.head e.tail) 0 = .ok i

/-- Words written out from the spec's encodings (the examples of R101, R104 and R116, and one word of several families) decode to the
instruction that they stand for. -/
def Obligations.SampleWords : Prop :=
  decode 0x7130 0x0CA5 = .ok (.fadd { d := 6, f := 3, b := 5, a := 5 }) ∧
  decode 0x5A28 0x1E8000E6 = .ok (.amo { d := 5, f := 0b0001111, sc := 2, oc := 0, cC := 0, cB := 0, cA := 0, c := 0, b := 7, a := 6 }) ∧
  decode 0b0000010100101000 0b0000000011100110 = .ok (.add { d := 5, f := 0, b := 7, a := 6 }) ∧
  decode 0b0000000000000000 0 = .ok .nop

/-! ### Steps -/

/-- R71, R79, R80: when it is the turn of a context that can run, the other context of the core having nothing to run or the turn naming the
U context, its line is fetched and the slot of its PC decodes to an instruction, the step is that instruction's effect: on the state in which
the clocks have advanced and the line is held, and followed by the counts of R233. -/
def Sys2Proof.Rule.StepRunsDecoded : Prop :=
  ∀ (s s1 : State) (c : Nat) (n : CtxName) (rest : List Turn) (i : Instr), s.agenda = .issue c n :: rest →
    let r := { s.tick with agenda := rest }
    let k := (r.noteWork c).tickCore c
    s.mgmt.ready = true → s.mgmt.stopped = false → r.coreRuns c = true →
    (n = .u → r.ctxWorks c .u = true) → (n = .a → k.ctxWorks c .a = true ∧ k.ctxWorks c .u = false) →
    { k with cur := c, curCtx := n }.fetch = .ok s1 → s1.slotInstr = .ok i →
    step s = mapNext (afterIssue i s1) (exec i s1)

/-- R213, R214: while both contexts of a core have something to run, the A context issues when it can go on, unless the U context, which can
go on too, has been passed over seven times: then the U context issues. When one of them cannot go on, its wait is met and the other issues in
that cycle. -/
def Sys2Proof.Rule.ChoiceOfContext : Prop :=
  ∀ (s a u : State) (c : Nat) (rest : List Turn) (ra ru : Bool), s.agenda = .issue c .a :: rest →
    let r := { s.tick with agenda := rest }
    let k := (r.noteWork c).tickCore c
    s.mgmt.ready = true → s.mgmt.stopped = false → r.coreRuns c = true → k.ctxWorks c .a = true → k.ctxWorks c .u = true →
    issueAt c .a k = (.next a, ra) → issueAt c .u k = (.next u, ru) →
    (ra = true → ru = true → (k.core c).uStreak < 7 →
      step s = .next (a.modCore c (fun x => { x with uStreak := x.uStreak + 1 }))) ∧
    (ra = true → ru = true → 7 ≤ (k.core c).uStreak → step s = .next u) ∧
    (ra = true → ru = false → step s = (issueAt c .a u).1) ∧
    (ra = false → step s = (issueAt c .u a).1)

/-- The same on a machine that no agenda directs (log 1): the lowest busy core from `cur` on takes its turn; while its A context is idle,
its U context issues after the core's own background work. -/
def Sys2Proof.Rule.DefaultTurnRunsDecoded : Prop :=
  ∀ (s s1 : State) (c : Nat) (i : Instr), s.agenda = [] → s.mgmt.ready = true → s.mgmt.stopped = false →
    s.tick.nextCore = some c →
    let b := background c ((s.tick.noteWork c).tickCore c)
    b.ctxWorks c .a = false → b.ctxWorks c .u = true →
    { b with cur := c, curCtx := .u }.fetch = .ok s1 → s1.slotInstr = .ok i →
    step s = mapNext (fun t => { t with cur := c + 1 }) (mapNext (afterIssue i s1) (exec i s1))

/-- A step of a context runs the decoded instruction at its PC, and which context issues: `Rule.StepRunsDecoded`,
`Rule.DefaultTurnRunsDecoded` and `Rule.ChoiceOfContext` together. The order of turns is a choice of the model (log 1), as is the advance of
the clocks (log 4). -/
def Obligations.StepRunsDecoded : Prop :=
  Sys2Proof.Rule.StepRunsDecoded ∧ Sys2Proof.Rule.DefaultTurnRunsDecoded ∧ Sys2Proof.Rule.ChoiceOfContext

/-- An event of the opcode table that stands on the agenda comes about in the step (log 1). The agenda is a choice of the model (log 1).
-/
def Obligations.StepRunsEvent : Prop :=
  ∀ (s : State) (i : Instr) (rest : List Turn), s.agenda = .event i :: rest → encode i = none →
    step s = exec i { s.tick with agenda := rest }

/-- Nothing that the executing context has issued holds an access back: no queued vector instruction of it makes memory accesses, so no order
of R111, R117, R136 or R250 does, and no WREAD of it is pending, an acquire that every later access follows (R128, R255). -/
def Sys2Proof.Spec.unordered (s : State) : Prop :=
  (∀ e ∈ s.me.queue, e.ctx = s.curCtx → entryClass e.instr = none) ∧
    ∀ o ∈ s.ops, o.ctx = s.curCtx → o.asid = s.cx.as → o.sid = s.cx.sid → o.ended = none → ∀ va, o.kind ≠ .wread va

/-- R138: no entry that came with the context's queue image has still to execute. -/
def Sys2Proof.Spec.replayed (s : State) : Prop := ∀ e ∈ s.me.queue, e.ctx = s.curCtx → e.replay = true → e.done = true

/-- R16, R68, R71, R138: entering a line reads its 64 bytes at the PC's line base with one fetch access; the line is then held, and is not read
again while execution stays in it. -/
def Sys2Proof.Rule.FetchReadsLine : Prop :=
  ∀ (s s1 : State) (p : Place), Sys2Proof.Spec.replayed s → Sys2Proof.Spec.unordered s → s.cx.line = none → bitOf s.cx.pcNat 5 = false →
    s.cx.pcNat < 2 ^ 56 →
    s.access (s.who .fetch .x) (lineBase s.cx.pcNat) 64 = .ok (s1, p) → s1.placePoisoned s.cx.as p 64 = false →
    let l := BitVec.ofNat 512 (s1.placeRead s.cx.as p 64)
    lineReason l (s.cx.pcNat % 32) = none →
    let t := s1.modCx (fun k => { k with line := some (lineBase s.cx.pcNat, l) })
    s.fetch = .ok t ∧ (t.cx.pc = s.cx.pc → t.replaying = false → t.fetch = .ok t)

/-- A line holding one encoded instruction decodes to it, and entering a line fetches its 64 bytes once: `Rule.OneLineDecodes` and
`Rule.FetchReadsLine` together. -/
def Obligations.FetchLines : Prop := Sys2Proof.Rule.OneLineDecodes ∧ Sys2Proof.Rule.FetchReadsLine

/-- R16, R68: a PC whose bit 5 is set, or that lies above 56 bits, and a line that breaks R68 raise ILLINE with the line's VA. -/
def Sys2Proof.Rule.FetchIllLine : Prop :=
  ∀ (s : State), Sys2Proof.Spec.replayed s →
    ((bitOf s.cx.pcNat 5 = true ∨ 2 ^ 56 ≤ s.cx.pcNat) →
      s.fetch = .error (.trapIn { cause := .illine, saddr := lineBase s.cx.pcNat, sinfo := 5 } s)) ∧
    (∀ s1 p r, Sys2Proof.Spec.unordered s → s.cx.line = none → bitOf s.cx.pcNat 5 = false → s.cx.pcNat < 2 ^ 56 →
      s.access (s.who .fetch .x) (lineBase s.cx.pcNat) 64 = .ok (s1, p) → s1.placePoisoned s.cx.as p 64 = false →
      lineReason (BitVec.ofNat 512 (s1.placeRead s.cx.as p 64)) (s.cx.pcNat % 32) = some r →
      s.fetch = .error (.trapIn { cause := .illine, saddr := lineBase s.cx.pcNat, sinfo := r } s1))

/-- No step of the machine is refused: every instruction and event of the opcode table has its meaning. -/
def Obligations.NothingRefused : Prop :=
  ∀ (s : State) (r : Refusal), step s ≠ .refused r ∧ ∀ i, exec i s ≠ .refused r

/-- R378: a module that has stopped on a module-class error stays stopped: every step leaves the whole machine as it is but for the clock,
the counter of free values and the agenda, whatever turns are set for its cores and engines. The agenda is a choice of the model (log 1), as are
the advance of the clock (log 4) and the mark of an attempt of the device, which no state between steps bears (log 70). -/
def Obligations.HaltedStaysHalted : Prop :=
  ∀ (s : State), s.halted → s.blocked = false → ∃ t, step s = .next t ∧ t.halted ∧
    { t with time := s.time, free := s.free, agenda := s.agenda } = s

/-- R21 to R24: the reset value of each CSR that they list, on a core of a class. -/
def Sys2Proof.Spec.csrReset (s : State) (c n : Nat) : Word :=
  if n = 0x001 then BitVec.ofNat 64 c
  else if n = 0x002 then (match s.cls c with | .control => 0x060F | .vector => 0x07B7 | .tensor => 0x0651)
  else if n = 0x006 then (if s.cls c = .control then 0 else 512)
  else if n = 0x00F then 3
  else if n = 0x120 then 32
  else 0

/-- R21 to R24, R203, R388 to R390: right after power-on no core, tile, cluster, cache slice or window has anything listed, no core has an
occupant, every CSR that the tables list has its reset value in both contexts of every core, no core asks for a point but 3, and the module is
not ready. -/
def Sys2Proof.Rule.ResetState : Prop :=
  State.reset.mgmt.ready = false ∧ State.reset.mgmt.stopped = false ∧ State.reset.mem.cells = [] ∧ State.reset.mem.poison = [] ∧
    State.reset.cores = [] ∧ State.reset.tiles = [] ∧ State.reset.clusters = [] ∧ State.reset.l2 = [] ∧ State.reset.windows = [] ∧
    State.reset.siteTags = [] ∧ State.reset.strands = [] ∧ State.reset.crews = [] ∧ State.reset.spaces = [] ∧ State.reset.ops = [] ∧
    State.reset.mem.wf = true ∧ State.reset.tablesOk = true ∧
    ∀ c (x : CtxName), (State.reset.core c).uWork = .empty ∧ (State.reset.core c).aWork = .idle ∧ (State.reset.core c).opreq = 3 ∧
      ∀ n, (n ≤ 0x010 ∨ (0x100 ≤ n ∧ n ≤ 0x107) ∨ (0x110 ≤ n ∧ n ≤ 0x122)) →
        { State.reset with cur := c, curCtx := x }.csr n = Sys2Proof.Spec.csrReset State.reset c n

/-! ### The checks that stand before an instruction's own entry (R80, R119, R183) -/

/-- R80, R183: an instruction that has words and meets one of the common checks takes the trap of the first one that fails: ILLINS with
the lowest encoding reason, ILLINS 8 for one that may wait in the A context, ILLINS 9 for HEND and SRET misused, PRIV for one marked S at
level U, MIGCLASS with the whole needed mask; and one that names a register with a pending token waits with nothing changed (R119). The
places of reasons 8 and 9 among the checks are a reading of the model (log 19). -/
def Obligations.CommonChecks : Prop :=
  ∀ (i : Instr) (e : Enc) (s : State), encode i = some e →
    (∀ r, illForm i = some r → exec i s = .next (takeTrap { cause := .illins, sinfo := (headOf i).toNat + r.code * 2 ^ 16 } s)) ∧
    (i.WellFormed →
      (isWaiting i = true ∧ s.curCtx = .a →
        exec i s = .next (takeTrap { cause := .illins, sinfo := (headOf i).toNat + 8 * 2 ^ 16 } s)) ∧
      (¬(isWaiting i = true ∧ s.curCtx = .a) →
        (misused s i = true → exec i s = .next (takeTrap { cause := .illins, sinfo := (headOf i).toNat + 9 * 2 ^ 16 } s)) ∧
        (misused s i = false →
          (isS i = true ∧ s.cx.priv = false → exec i s = .next (takeTrap { cause := .priv, sinfo := (headOf i).toNat } s)) ∧
          (¬(isS i = true ∧ s.cx.priv = false) →
            (capHolds (s.cls s.cur) (neededMask i) = false →
              exec i s = .next (takeTrap { cause := .migclass, sinfo := neededMask i } s)) ∧
            (capHolds (s.cls s.cur) (neededMask i) = true → tokenWait s i = true → exec i s = .next s)))))

/-! ### Integer register operations (R36, R90) -/

namespace Sys2Proof.Spec

/-- Bits [127:64] of a product of operands extended to 128 bits. -/
def highHalf (a b : BitVec 128) : Word := (a * b).extractLsb' 64 64

/-- Leading zero bits, by the number of significant bits. -/
def leadingZeros (a : Word) : Word := BitVec.ofNat 64 (64 - a.toNat.size)

/-- Trailing zero bits, by the first set bit. -/
def trailingZeros (a : Word) : Word := BitVec.ofNat 64 (((List.range 64).find? (fun k => a.getLsbD k)).getD 64)

/-- Set bits. -/
def ones (a : Word) : Word := BitVec.ofNat 64 ((List.range 64).filter (fun k => a.getLsbD k)).length

/-- Byte j becomes byte 7 - j. -/
def bytesReversed (a : Word) : Word :=
  a.extractLsb' 0 8 ++ a.extractLsb' 8 8 ++ a.extractLsb' 16 8 ++ a.extractLsb' 24 8 ++
    a.extractLsb' 32 8 ++ a.extractLsb' 40 8 ++ a.extractLsb' 48 8 ++ a.extractLsb' 56 8

/-- The low 8, 16 or 32 bits, by F[1:0]. -/
def lowPart (f : BitVec 6) (a : Word) (signed : Bool) : Word :=
  if f = 0 then (if signed then (a.setWidth 8).signExtend 64 else (a.setWidth 8).setWidth 64)
  else if f = 1 then (if signed then (a.setWidth 16).signExtend 64 else (a.setWidth 16).setWidth 64)
  else (if signed then (a.setWidth 32).signExtend 64 else (a.setWidth 32).setWidth 64)

/-- A quotient and a remainder of R36: toward zero, with the table's cases for a divisor of 0; the overflowing case wraps. -/
def quotient (a b : Word) : Word := if b = 0 then BitVec.allOnes 64 else BitVec.ofInt 64 (a.toInt.tdiv b.toInt)
def remainder (a b : Word) : Word := if b = 0 then a else BitVec.ofInt 64 (a.toInt.tmod b.toInt)
def quotientU (a b : Word) : Word := if b = 0 then BitVec.allOnes 64 else BitVec.ofNat 64 (a.toNat / b.toNat)
def remainderU (a b : Word) : Word := if b = 0 then a else BitVec.ofNat 64 (a.toNat % b.toNat)

/-- The table of R90: major, SUB, operands, and the result as a function of x[A], x[B] and x[D], of each instruction of majors 01 to 05. -/
def alu : Instr → Option (BitVec 6 × BitVec 3 × LH × (Word → Word → Word → Word))
  | .add o => some (0x01, 0, o, fun a b _ => BitVec.ofInt 64 (a.toInt + b.toInt))
  | .sub o => some (0x01, 1, o, fun a b _ => BitVec.ofInt 64 (a.toInt - b.toInt))
  | .and o => some (0x01, 2, o, fun a b _ => a &&& b)
  | .or o => some (0x01, 3, o, fun a b _ => a ||| b)
  | .xor o => some (0x01, 4, o, fun a b _ => a ^^^ b)
  | .andn o => some (0x01, 5, o, fun a b _ => a &&& ~~~b)
  | .orn o => some (0x01, 6, o, fun a b _ => a ||| ~~~b)
  | .xnor o => some (0x01, 7, o, fun a b _ => ~~~(a ^^^ b))
  | .sll o => some (0x02, 0, o, fun a b _ => a <<< (b.extractLsb' 0 6).toNat)
  | .srl o => some (0x02, 1, o, fun a b _ => a >>> (b.extractLsb' 0 6).toNat)
  | .sra o => some (0x02, 2, o, fun a b _ => a.sshiftRight (b.extractLsb' 0 6).toNat)
  | .rol o => some (0x02, 3, o, fun a b _ => a.rotateLeft (b.extractLsb' 0 6).toNat)
  | .ror o => some (0x02, 4, o, fun a b _ => a.rotateRight (b.extractLsb' 0 6).toNat)
  | .slt o => some (0x02, 5, o, fun a b _ => if a.toInt < b.toInt then 1 else 0)
  | .sltu o => some (0x02, 6, o, fun a b _ => if a.toNat < b.toNat then 1 else 0)
  | .seq o => some (0x02, 7, o, fun a b _ => if a = b then 1 else 0)
  | .min o => some (0x03, 0, o, fun a b _ => if a.toInt ≤ b.toInt then a else b)
  | .max o => some (0x03, 1, o, fun a b _ => if a.toInt ≤ b.toInt then b else a)
  | .minu o => some (0x03, 2, o, fun a b _ => if a.toNat ≤ b.toNat then a else b)
  | .maxu o => some (0x03, 3, o, fun a b _ => if a.toNat ≤ b.toNat then b else a)
  | .mul o => some (0x03, 4, o, fun a b _ => BitVec.ofInt 64 (a.toInt * b.toInt))
  | .mulh o => some (0x03, 5, o, fun a b _ => highHalf (a.signExtend 128) (b.signExtend 128))
  | .mulhu o => some (0x03, 6, o, fun a b _ => highHalf (a.setWidth 128) (b.setWidth 128))
  | .mulhsu o => some (0x03, 7, o, fun a b _ => highHalf (a.signExtend 128) (b.setWidth 128))
  | .div o => some (0x04, 0, o, fun a b _ => quotient a b)
  | .divu o => some (0x04, 1, o, fun a b _ => quotientU a b)
  | .rem o => some (0x04, 2, o, fun a b _ => remainder a b)
  | .remu o => some (0x04, 3, o, fun a b _ => remainderU a b)
  | .clz o => some (0x04, 4, o, fun a _ _ => leadingZeros a)
  | .ctz o => some (0x04, 5, o, fun a _ _ => trailingZeros a)
  | .popc o => some (0x04, 6, o, fun a _ _ => ones a)
  | .bswap o => some (0x04, 7, o, fun a _ _ => bytesReversed a)
  | .sext o => some (0x05, 0, o, fun a _ _ => lowPart o.f a true)
  | .zext o => some (0x05, 1, o, fun a _ _ => lowPart o.f a false)
  | .addw o => some (0x05, 2, o, fun a b _ => (a.setWidth 32 + b.setWidth 32).signExtend 64)
  | .subw o => some (0x05, 3, o, fun a b _ => (a.setWidth 32 - b.setWidth 32).signExtend 64)
  | .mulw o => some (0x05, 4, o, fun a b _ => (a.setWidth 32 * b.setWidth 32).signExtend 64)
  | .cmovz o => some (0x05, 5, o, fun a b d => if b = 0 then a else d)
  | .cmovnz o => some (0x05, 6, o, fun a b d => if b ≠ 0 then a else d)
  | _ => none

/-- R90: the instructions whose one operand is x[A], and those whose F names a width. -/
def oneOperand (maj : BitVec 6) (sub : BitVec 3) : Prop := (maj = 4 ∧ 4 ≤ sub) ∨ (maj = 5 ∧ sub < 2)
def namesWidth (maj : BitVec 6) (sub : BitVec 3) : Prop := maj = 5 ∧ sub < 2

/-- The words of layout H with TL 1 (R72). -/
def wordH (maj : BitVec 6) (sub : BitVec 3) (o : LH) : Enc :=
  { maj := maj, tl := 1, d := o.d, sub := sub, tail := (o.f ++ o.b ++ o.a).setWidth 64 }

end Sys2Proof.Spec

/-- R36, R90: every instruction of majors 01 to 05 has the words of the table, F zero (or a width of 8, 16 or 32 bits) and B zero for
one operand, and completes with the result of the table, and changes nothing else: no operand value stops it, and no flag is set. Major 05
SUB 7 is no instruction. -/
def Sys2Proof.Rule.AluResult : Prop :=
  (∀ (i : Instr) (maj : BitVec 6) (sub : BitVec 3) (o : LH) (f : Word → Word → Word → Word) (s : State), Spec.alu i = some (maj, sub, o, f) →
    encode i = some (Spec.wordH maj sub o) ∧
    (i.WellFormed ↔ (Spec.oneOperand maj sub → o.b = 0) ∧ (Spec.namesWidth maj sub → o.f < 3) ∧ (¬Spec.namesWidth maj sub → o.f = 0)) ∧
    (Issues i s → ∃ t, exec i s = .next t ∧ Returns s t o.d (f (s.getX o.a) (s.getX o.b) (s.getX o.d)))) ∧
  ∀ (h : BitVec 16) (t : BitVec 64), h.extractLsb' 10 6 = 0x05 → h.extractLsb' 0 3 = 7 → decode h t = .error .unlisted

/-- R36: the cases that the quotient rule leaves open, at 64 bits. -/
def Sys2Proof.Rule.DivisionCases : Prop :=
  ∀ (a : Word), Spec.quotient a 0 = BitVec.allOnes 64 ∧ Spec.remainder a 0 = a ∧ Spec.quotientU a 0 = BitVec.allOnes 64 ∧
    Spec.remainderU a 0 = a ∧ Spec.quotient (BitVec.intMin 64) (BitVec.allOnes 64) = BitVec.intMin 64 ∧
    Spec.remainder (BitVec.intMin 64) (BitVec.allOnes 64) = 0 ∧
    ∀ b : Word, b ≠ 0 → (a = BitVec.intMin 64 → b ≠ BitVec.allOnes 64) →
      (wDiv a b).toInt = a.toInt.tdiv b.toInt ∧ (wRem a b).toInt = a.toInt.tmod b.toInt ∧
      (wDivu a b).toNat = a.toNat / b.toNat ∧ (wRemu a b).toNat = a.toNat % b.toNat

/-- Majors 01 to 05: words, results and frame of every register instruction: `Rule.AluResult` and `Rule.DivisionCases` together. -/
def Obligations.AluResult : Prop := Sys2Proof.Rule.AluResult ∧ Sys2Proof.Rule.DivisionCases

/-! ### Immediates (R91) -/

namespace Sys2Proof.Spec

/-- SHI: the kind in imm[7:6], the amount in imm[5:0]. -/
def shifted (a imm : Word) : Word :=
  let n := (imm.extractLsb' 0 6).toNat
  let k := imm.extractLsb' 6 2
  if k = 0 then a <<< n else if k = 1 then a >>> n else if k = 2 then a.sshiftRight n else a.rotateRight n

def below (a b : Word) : Word := if a.toInt < b.toInt then 1 else 0
def belowU (a b : Word) : Word := if a.toNat < b.toNat then 1 else 0

/-- The table of R91: TL, SUB, destination, source, sign-extended immediate and operation of each form of major 08. -/
def immediate : Instr → Option (BitVec 2 × BitVec 3 × BitVec 5 × BitVec 5 × Word × (Word → Word → Word))
  | .addiI16 o => some (1, 0, o.d, o.d, o.imm.signExtend 64, (· + ·))
  | .addiWi o => some (2, 0, o.d, o.a, o.imm.signExtend 64, (· + ·))
  | .addiXi o => some (3, 0, o.d, o.a, o.imm.signExtend 64, (· + ·))
  | .andiI16 o => some (1, 1, o.d, o.d, o.imm.signExtend 64, (· &&& ·))
  | .andiWi o => some (2, 1, o.d, o.a, o.imm.signExtend 64, (· &&& ·))
  | .andiXi o => some (3, 1, o.d, o.a, o.imm.signExtend 64, (· &&& ·))
  | .oriI16 o => some (1, 2, o.d, o.d, o.imm.signExtend 64, (· ||| ·))
  | .oriWi o => some (2, 2, o.d, o.a, o.imm.signExtend 64, (· ||| ·))
  | .oriXi o => some (3, 2, o.d, o.a, o.imm.signExtend 64, (· ||| ·))
  | .xoriI16 o => some (1, 3, o.d, o.d, o.imm.signExtend 64, (· ^^^ ·))
  | .xoriWi o => some (2, 3, o.d, o.a, o.imm.signExtend 64, (· ^^^ ·))
  | .xoriXi o => some (3, 3, o.d, o.a, o.imm.signExtend 64, (· ^^^ ·))
  | .sltiI16 o => some (1, 4, o.d, o.d, o.imm.signExtend 64, below)
  | .sltiWi o => some (2, 4, o.d, o.a, o.imm.signExtend 64, below)
  | .sltiXi o => some (3, 4, o.d, o.a, o.imm.signExtend 64, below)
  | .sltiuI16 o => some (1, 5, o.d, o.d, o.imm.signExtend 64, belowU)
  | .sltiuWi o => some (2, 5, o.d, o.a, o.imm.signExtend 64, belowU)
  | .sltiuXi o => some (3, 5, o.d, o.a, o.imm.signExtend 64, belowU)
  | .shiI16 o => some (1, 6, o.d, o.d, o.imm.signExtend 64, shifted)
  | .shiWi o => some (2, 6, o.d, o.a, o.imm.signExtend 64, shifted)
  | .shiXi o => some (3, 6, o.d, o.a, o.imm.signExtend 64, shifted)
  | .muliI16 o => some (1, 7, o.d, o.d, o.imm.signExtend 64, (· * ·))
  | .muliWi o => some (2, 7, o.d, o.a, o.imm.signExtend 64, (· * ·))
  | .muliXi o => some (3, 7, o.d, o.a, o.imm.signExtend 64, (· * ·))
  | _ => none

end Sys2Proof.Spec

/-- R91: every form of every immediate operation, which TL and SUB of major 08 select, completes with the result of the table, and
changes nothing else; a shift whose immediate has a bit set above bit 7 raises ILLINS with reason 3; TL 0 is no instruction. -/
def Obligations.ImmediateResult : Prop :=
  (∀ (i : Instr) (tl : BitVec 2) (sub : BitVec 3) (d a : BitVec 5) (imm : Word) (f : Word → Word → Word) (s : State),
    Spec.immediate i = some (tl, sub, d, a, imm, f) →
    (∃ tail, encode i = some { maj := 0x08, tl := tl, d := d, sub := sub, tail := tail }) ∧
    (sub = 6 → 2 ^ 8 ≤ imm.toNat → exec i s = .next (takeTrap { cause := .illins, sinfo := (headOf i).toNat + 3 * 2 ^ 16 } s)) ∧
    (Issues i s → ∃ t, exec i s = .next t ∧ Returns s t d (f (s.getX a) imm))) ∧
  ∀ (h : BitVec 16) (t : BitVec 64), h.extractLsb' 10 6 = 0x08 → h.extractLsb' 8 2 = 0 → ∃ e, decode h t = .error e

/-! ### Addresses, constants and moves (R79, R90, R92, R93, R180, R193) -/

namespace Sys2Proof.Spec

/-- R92: TL, SUB, destination, pointer and exact address of ADDA, ADDIA and SCALEA. -/
def address (s : State) : Instr → Option (BitVec 2 × BitVec 3 × BitVec 5 × Word × Int)
  | .adda o => some (1, 0, o.d, s.getX o.a, ((s.getX o.a).setWidth 56).toNat + (s.getX o.b).toInt)
  | .addiaWi o => some (2, 1, o.d, s.getX o.a, ((s.getX o.a).setWidth 56).toNat + o.imm.toInt)
  | .addiaXi o => some (3, 1, o.d, s.getX o.a, ((s.getX o.a).setWidth 56).toNat + o.imm.toInt)
  | .scalea o => some (1, 2, o.d, s.getX o.a, ((s.getX o.a).setWidth 56).toNat + (s.getX o.b).toInt * 2 ^ (o.f.extractLsb' 0 3).toNat)
  | _ => none

/-- R92: SUB, operands and value of GFMT, CLRFMT and SUBA. -/
def pointerPart (s : State) : Instr → Option (BitVec 3 × LH × Word)
  | .gfmt o => some (4, o, ((s.getX o.a).extractLsb' 56 8).setWidth 64)
  | .clrfmt o => some (5, o, ((s.getX o.a).setWidth 56).setWidth 64)
  | .suba o => some (6, o, ((s.getX o.a).setWidth 56).setWidth 64 - ((s.getX o.b).setWidth 56).setWidth 64)
  | _ => none

/-- target_WI and target_B of R79. -/
def target (pc : Word) (off : BitVec 56) (slot : BitVec 5) : Word :=
  ((pc.setWidth 56 &&& ~~~63#56) + (off <<< 6)).setWidth 64 + slot.setWidth 64

/-- R79: next_pc, `n` being N of the line that holds the PC. -/
def next (pc : Word) (n : Nat) : Word :=
  if (pc.extractLsb' 0 5).toNat + 1 < n then (pc.setWidth 56 + 1).setWidth 64
  else ((pc.setWidth 56 &&& ~~~63#56) + 64).setWidth 64

/-- R93: TL, SUB, destination and value of the forms of major 0E. -/
def moved (s : State) : Instr → Option (BitVec 2 × BitVec 3 × BitVec 5 × Word)
  | .liI16 o => some (1, 0, o.d, o.imm.signExtend 64)
  | .liI32 o => some (2, 0, o.d, o.imm.signExtend 64)
  | .liL64 o => some (3, 0, o.d, o.imm)
  | .lpc o => some (2, 1, o.d, target s.cx.pc (o.imm.signExtend 56) o.a)
  | .mov o => some (1, 2, o.d, s.getX o.a)
  | _ => none

/-- R193: what SELF answers: the core, its class, whether this is the A context, and the size code of a gang that this core leads. -/
def selfWord (s : State) : Word := BitVec.ofNat 64 (s.cur % 2 ^ 16 + clsCode (s.cls s.cur) * 2 ^ 16
  + (if s.curCtx = .a then 2 ^ 19 else 0) + (match s.me.gang with
    | .leader n => (if n < 2 then 0 else if n < 4 then 1 else if n < 8 then 2 else if n < 16 then 3 else 4) * 2 ^ 20
    | _ => 0))

end Sys2Proof.Spec

/-- R82, R92: ADDA, ADDIA and SCALEA compute the address exactly: in range it joins the pointer's top byte, else ADDROVF is raised with
nothing else changed, SADDR and SINFO zero. GFMT, CLRFMT and SUBA complete with their values. PFMT replaces the top byte, or raises FMTBAD
for a format code of 31, SINFO naming it as an instruction field. Major 0C SUB 7, and ADDIA with TL 0 or 1, are no instructions. -/
def Obligations.AddressResult : Prop :=
  (∀ (s : State) (i : Instr) (tl : BitVec 2) (sub : BitVec 3) (d : BitVec 5) (p : Word) (n : Int),
    Spec.address s i = some (tl, sub, d, p, n) →
    (∃ tail, encode i = some { maj := 0x0C, tl := tl, d := d, sub := sub, tail := tail }) ∧ (Issues i s →
      (0 ≤ n ∧ n < 2 ^ 56 → ∃ t, exec i s = .next t ∧ Returns s t d (p.extractLsb' 56 8 ++ BitVec.ofInt 56 n)) ∧
      ((n < 0 ∨ 2 ^ 56 ≤ n) → exec i s = .next (takeTrap { cause := .addrovf, saddr := 0, sinfo := 0 } s)))) ∧
  (∀ (s : State) (i : Instr) (sub : BitVec 3) (o : LH) (v : Word), Spec.pointerPart s i = some (sub, o, v) →
    encode i = some (Spec.wordH 0x0C sub o) ∧ (Issues i s → ∃ t, exec i s = .next t ∧ Returns s t o.d v)) ∧
  (∀ (s : State) (o : LI16),
    encode (.pfmt o) = some { maj := 0x0C, tl := 1, d := o.d, sub := 3, tail := o.imm.setWidth 64 } ∧ (Issues (.pfmt o) s →
      (o.imm.extractLsb' 3 5 ≠ 31 →
        ∃ t, exec (.pfmt o) s = .next t ∧ Returns s t o.d (o.imm.extractLsb' 0 8 ++ (s.getX o.d).setWidth 56)) ∧
      (o.imm.extractLsb' 3 5 = 31 → exec (.pfmt o) s =
        .next (takeTrap { cause := .fmtbad, sinfo := (headOf (.pfmt o)).toNat + 31 * 2 ^ 16 + 3 * 2 ^ 21 } s)))) ∧
  ∀ (h : BitVec 16) (t : BitVec 64), h.extractLsb' 10 6 = 0x0C → let sub := h.extractLsb' 0 3
    (sub = 7 ∨ (sub = 1 ∧ h.extractLsb' 8 2 < 2)) → ∃ e, decode h t = .error e

/-- R79, R93: LI of each length, LPC and MOV complete with their values; LI with TL 0, LPC with TL other than 2, MOV with TL other than 1
and SUBs 3 to 7 of their major are no instructions. R180, R193: QCVT from a reference and SELF complete with their values. -/
def Obligations.MoveResult : Prop :=
  (∀ (s : State) (i : Instr) (tl : BitVec 2) (sub : BitVec 3) (d : BitVec 5) (v : Word), Spec.moved s i = some (tl, sub, d, v) →
    (∃ tail, encode i = some { maj := 0x0E, tl := tl, d := d, sub := sub, tail := tail }) ∧
    (Issues i s → ∃ t, exec i s = .next t ∧ Returns s t d v)) ∧
  (∀ (h : BitVec 16) (t : BitVec 64), h.extractLsb' 10 6 = 0x0E → let sub := h.extractLsb' 0 3
    let tl := h.extractLsb' 8 2
    ((sub = 0 ∧ tl = 0) ∨ (sub = 1 ∧ tl ≠ 2) ∨ (sub = 2 ∧ tl ≠ 1) ∨ 3 ≤ sub) → ∃ e, decode h t = .error e) ∧
  ∀ (s : State) (o : LH),
    (Issues (.qcvtFromRef o) s → ∃ t, exec (.qcvtFromRef o) s = .next t ∧ Returns s t o.d (s.getQ o.a)) ∧
    (Issues (.self o) s → ∃ t, exec (.self o) s = .next t ∧ Returns s t o.d (Spec.selfWord s))

/-! ### Control flow (R79, R97 to R99) -/

namespace Sys2Proof.Spec

/-- R99: SUB and operands of a compare branch, and whether it is taken. -/
def branch (s : State) : Instr → Option (BitVec 3 × LB × Prop)
  | .beq o => some (0, o, s.getX o.d = s.getX o.b)
  | .bne o => some (1, o, s.getX o.d ≠ s.getX o.b)
  | .blt o => some (2, o, (s.getX o.d).toInt < (s.getX o.b).toInt)
  | .bge o => some (3, o, (s.getX o.b).toInt ≤ (s.getX o.d).toInt)
  | .bltu o => some (4, o, (s.getX o.d).toNat < (s.getX o.b).toNat)
  | .bgeu o => some (5, o, (s.getX o.b).toNat ≤ (s.getX o.d).toNat)
  | _ => none

end Sys2Proof.Spec

/-- R79: next_pc is the next slot of the line, else slot 0 of the next line; target_WI and target_B are a slot of the line that many lines
away; all modulo 2^56. -/
def Sys2Proof.Rule.NextPc : Prop :=
  ∀ (k : Ctx) (l : BitVec 512), k.pcNat < 2 ^ 56 →
    (k.line = some (lineBase k.pcNat, l) → k.nextPc = Spec.next k.pc (lineN l)) ∧
    (∀ off : BitVec 27, ∀ a : BitVec 5, targetLine k.pcNat off.toInt a.toNat = Spec.target k.pc (off.signExtend 56) a) ∧
    ∀ off : BitVec 22, ∀ a : BitVec 5, targetLine k.pcNat off.toInt a.toNat = Spec.target k.pc (off.signExtend 56) a

/-- R16, R79, R97, R98: NOP goes on at next_pc with nothing changed; J and JAL go to target_WI and JALR to x[A], read before the link is
written; JAL and JALR leave next_pc of the jump in x[D]; nothing else changes. J, JAL and JALR are SUB 0 to 2 of major 10, a J with D not
zero is ILLINS with reason 3, and SUBs 3 to 7 are no instruction. -/
def Sys2Proof.Rule.JumpResult : Prop :=
  ∀ (s : State),
    (Issues .nop s → ∃ t, exec .nop s = .next t ∧ MovesTo s t s.cx.nextPc) ∧
    (∀ o, Issues (.j o) s → ∃ t, exec (.j o) s = .next t ∧ MovesTo s t (targetLine s.cx.pcNat o.imm.toInt o.a.toNat)) ∧
    (∀ o, Issues (.jal o) s →
      ∃ t, exec (.jal o) s = .next t ∧ Results s t o.d s.cx.nextPc (targetLine s.cx.pcNat o.imm.toInt o.a.toNat)) ∧
    (∀ o, Issues (.jalr o) s → ∃ t, exec (.jalr o) s = .next t ∧ Results s t o.d s.cx.nextPc (s.getX o.a)) ∧
    (∀ o, (∃ tail, encode (.j o) = some { maj := 0x10, tl := 2, d := o.d, sub := 0, tail := tail }) ∧
      (o.d ≠ 0 → exec (.j o) s = .next (takeTrap { cause := .illins, sinfo := (headOf (.j o)).toNat + 3 * 2 ^ 16 } s))) ∧
    (∀ o, ∃ tail, encode (.jal o) = some { maj := 0x10, tl := 2, d := o.d, sub := 1, tail := tail }) ∧
    (∀ o, encode (.jalr o) = some (Spec.wordH 0x10 2 o)) ∧
    ∀ (h : BitVec 16) (t : BitVec 64), h.extractLsb' 10 6 = 0x10 → 3 ≤ (h.extractLsb' 0 3).toNat → decode h t = .error .unlisted

/-- Jumps, targets, next_pc, NOP, and ILLINE at a bad target: `Rule.NextPc`, `Rule.FetchIllLine` and `Rule.JumpResult` together. -/
def Obligations.JumpResult : Prop := Sys2Proof.Rule.NextPc ∧ Sys2Proof.Rule.FetchIllLine ∧ Sys2Proof.Rule.JumpResult

/-- The words of layout B, whose tail is imm22, T and B (R72). -/
def Spec.wordB (sub : BitVec 3) (o : LB) : Enc :=
  { maj := 0x11, tl := 2, d := o.d, sub := sub, tail := (o.imm ++ o.t ++ o.b).setWidth 64 }

/-- R79, R99: a compare branch goes to target_B when its condition holds, and to next_pc otherwise; nothing else changes. The compare
branches and BMS and BMC are SUB 0 to 7 of major 11. -/
def Sys2Proof.Rule.BranchResult : Prop :=
  (∀ o : LB, encode (.bms o) = some (Spec.wordB 6 o) ∧ encode (.bmc o) = some (Spec.wordB 7 o)) ∧
  ∀ (i : Instr) (sub : BitVec 3) (o : LB) (taken : Prop) (s : State), Spec.branch s i = some (sub, o, taken) →
    encode i = some (Spec.wordB sub o) ∧ (Issues i s → ∃ t, exec i s = .next t ∧ (taken → MovesTo s t (targetLine s.cx.pcNat o.imm.toInt o.t.toNat)) ∧
      (¬taken → MovesTo s t s.cx.nextPc))

/-- R17, R74, R76, R99, R381: BMS and BMC, where the masks hold values for the issuing context: while its VTYPE.EW is 0 they raise FMTBAD with
source 1; they wait for a queued instruction that writes the mask; the lowest poisoned bit below vl_of(B) raises QFAULT; else BMS is taken when
some bit below vl_of(B) is set, BMC when none is, and a length of 0 sets none. A D above 11 raises ILLINS with reason 4. -/
def Sys2Proof.Rule.MaskBranchResult : Prop :=
  ∀ (o : LB) (s : State) (i : Instr) (sense : Prop), (i = .bms o ∧ sense ∨ i = .bmc o ∧ ¬sense) →
    (11 < o.d.toNat → exec i s = .next (takeTrap { cause := .illins, sinfo := (headOf i).toNat + 4 * 2 ^ 16 } s)) ∧
    (Issues i s → (s.curCtx = .u ∨ (s.me.uHolds = true ∧ vtEw s.me.u.vtype ≠ 0)) →
      (vtEw s.vtype = 0 → let info := (headOf i).toNat + (s.cx.vtype.extractLsb' 0 5).toNat * 2 ^ 16 + 2 ^ 21
        exec i s = .next (takeTrap { cause := .fmtbad, sinfo := info } s)) ∧
      (vtEw s.vtype ≠ 0 → s.me.maskQueued o.d.toNat = true → exec i s = .next s) ∧
      (vtEw s.vtype ≠ 0 → s.me.maskQueued o.d.toNat = false →
        ∀ j, j < s.vlOf o.b → s.me.elemPoisoned (mReg o.d, 1, j) = true → (∀ h, h < j → s.me.elemPoisoned (mReg o.d, 1, h) = false) →
          exec i s = .next (takeTrap { cause := .qfault, saddr := 0, sinfo := Cause.poison.code * 2 ^ 8 + j * 2 ^ 16 } s)) ∧
      (vtEw s.vtype ≠ 0 → s.me.maskQueued o.d.toNat = false → (∀ j, j < s.vlOf o.b → s.me.elemPoisoned (mReg o.d, 1, j) = false) →
        let set := ∃ j, j < s.vlOf o.b ∧ s.me.mBit o.d.toNat j = true
        let there := targetLine s.cx.pcNat o.imm.toInt o.t.toNat
        ∃ t, exec i s = .next t ∧ ((set ↔ sense) → MovesTo s t there) ∧ (¬(set ↔ sense) → MovesTo s t s.cx.nextPc)))

/-- Major 11: compare branches and mask branches: `Rule.BranchResult` and `Rule.MaskBranchResult` together. -/
def Obligations.BranchResult : Prop := Sys2Proof.Rule.BranchResult ∧ Sys2Proof.Rule.MaskBranchResult

/-- R97: BRK raises BRK with imm16 in SINFO and SADDR zero. -/
def Sys2Proof.Rule.BrkTraps : Prop :=
  ∀ (o : LI16) (s : State), Issues (.brk o) s → exec (.brk o) s = .next (takeTrap { cause := .brk, saddr := 0, sinfo := o.imm.toNat } s)

/-! ### Control and status registers (R20 to R25, R94, R95, R164, R204, R221, R222) -/

namespace Sys2Proof.Spec

/-- R21, R22, R24: what each CSR reads as in the executing context. -/
def csr (s : State) : Nat → Option Word
  | 0x000 => some (s.cx.strandId.setWidth 64)
  | 0x001 => some (BitVec.ofNat 64 s.cur)
  | 0x002 => some (match s.cls s.cur with | .control => 0x060F | .vector => 0x07B7 | .tensor => 0x0651)
  | 0x003 => some s.me.cycle
  | 0x004 => some s.time
  | 0x005 => some (s.cx.vtype.setWidth 64)
  | 0x006 => some (BitVec.ofNat 64 (if s.cls s.cur = .control then 0
      else (if s.me.remapped then 480 else 512) * (match s.me.gang with | .leader n => n | _ => 1)))
  | 0x007 => some (s.me.u.slipcfg.setWidth 64)
  | 0x008 => some s.me.u.mstart
  | 0x009 => some (s.me.u.mcgroup.setWidth 64)
  | 0x00A => some (s.cx.asid.setWidth 64)
  | 0x00B => some (if s.phase then 1 else 0)
  | 0x00C => some (s.cx.fflags.setWidth 64)
  | 0x00D => some (s.cx.frm.setWidth 64)
  | 0x00E => some (s.me.lskew.setWidth 64)
  | 0x00F => some (BitVec.ofNat 64 (s.tile (s.cur / 4)).point)
  | 0x010 => some (s.cx.inldepth.setWidth 64)
  | 0x100 => some s.me.scause
  | 0x101 => some s.me.sepc
  | 0x102 => some s.me.saddr
  | 0x103 => some s.me.sinfo
  | 0x104 => some s.me.svec
  | 0x105 => some s.me.sstatus
  | 0x106 => some s.me.sscratch
  | 0x107 => some s.me.sqimg
  | 0x110 => some s.me.protb[0]
  | 0x111 => some s.me.protb[1]
  | 0x112 => some s.me.protb[2]
  | 0x113 => some s.me.protb[3]
  | 0x114 => some s.me.protb[4]
  | 0x115 => some s.me.protb[5]
  | 0x116 => some s.me.protb[6]
  | 0x117 => some s.me.protb[7]
  | 0x118 => some s.me.protl[0]
  | 0x119 => some s.me.protl[1]
  | 0x11A => some s.me.protl[2]
  | 0x11B => some s.me.protl[3]
  | 0x11C => some s.me.protl[4]
  | 0x11D => some s.me.protl[5]
  | 0x11E => some s.me.protl[6]
  | 0x11F => some s.me.protl[7]
  | 0x120 => some s.me.mboxcfg
  | 0x121 => some (s.me.rfull ++ s.me.rabs ++ s.me.accepted ++ BitVec.ofNat 16 (s.me.occupied % 64))
  | 0x122 => some s.me.fwdcfg
  | _ => none

/-- The current core with its executing context changed. -/
def here (s : State) (f : Ctx → Ctx) : Core := s.me.setCtx s.curCtx (f s.cx)

/-- R21 to R24, R164, R204, R221, R222: the core after a write of v to a CSR other than VTYPE; reserved bits are stored as zero. -/
def csrWritten (s : State) (v : Word) : Nat → Option Core
  | 0x003 => some { s.me with cycle := v }
  | 0x007 => some { s.me with u := { s.me.u with slipcfg := (v &&& 0x3F3F).setWidth 16 } }
  | 0x008 => some { s.me with u := { s.me.u with mstart := v &&& 0xF8000000FFFFFFFF } }
  | 0x009 => some { s.me with u := { s.me.u with mcgroup := v.setWidth 16 } }
  | 0x00C => some (here s (fun k => { k with fflags := v.setWidth 5 }))
  | 0x00D => some (here s (fun k => { k with frm := v.setWidth 3 }))
  | 0x00E => some { s.me with lskew := v.setWidth 3 }
  | 0x010 => some (here s (fun k => { k with inldepth := v.setWidth 8 }))
  | 0x100 => some { s.me with scause := v &&& 0xFF }
  | 0x101 => some { s.me with sepc := v }
  | 0x102 => some { s.me with saddr := v }
  | 0x103 => some { s.me with sinfo := v }
  | 0x104 => some { s.me with svec := v &&& 0x00FFFFFFFFFFFFC1 }
  | 0x105 => some { s.me with sstatus := (s.me.sstatus &&& 0x18) ||| (v &&& 0x7) }
  | 0x106 => some { s.me with sscratch := v }
  | 0x107 => some { s.me with sqimg := v }
  | 0x110 => some { s.me with protb := s.me.protb.set 0 v }
  | 0x111 => some { s.me with protb := s.me.protb.set 1 v }
  | 0x112 => some { s.me with protb := s.me.protb.set 2 v }
  | 0x113 => some { s.me with protb := s.me.protb.set 3 v }
  | 0x114 => some { s.me with protb := s.me.protb.set 4 v }
  | 0x115 => some { s.me with protb := s.me.protb.set 5 v }
  | 0x116 => some { s.me with protb := s.me.protb.set 6 v }
  | 0x117 => some { s.me with protb := s.me.protb.set 7 v }
  | 0x118 => some { s.me with protl := s.me.protl.set 0 (v &&& 0xF000FFFFFFFFFFFF) }
  | 0x119 => some { s.me with protl := s.me.protl.set 1 (v &&& 0xF000FFFFFFFFFFFF) }
  | 0x11A => some { s.me with protl := s.me.protl.set 2 (v &&& 0xF000FFFFFFFFFFFF) }
  | 0x11B => some { s.me with protl := s.me.protl.set 3 (v &&& 0xF000FFFFFFFFFFFF) }
  | 0x11C => some { s.me with protl := s.me.protl.set 4 (v &&& 0xF000FFFFFFFFFFFF) }
  | 0x11D => some { s.me with protl := s.me.protl.set 5 (v &&& 0xF000FFFFFFFFFFFF) }
  | 0x11E => some { s.me with protl := s.me.protl.set 6 (v &&& 0xF000FFFFFFFFFFFF) }
  | 0x11F => some { s.me with protl := s.me.protl.set 7 (v &&& 0xF000FFFFFFFFFFFF) }
  | 0x120 => some { s.me with mboxcfg :=
      (v &&& 0x8000) ||| (if v &&& 0x3F = 0 ∨ 32 < (v &&& 0x3F).toNat then 32 else v &&& 0x3F) }
  | 0x121 => some { s.me with rfull := (v >>> 48).setWidth 16, rabs := (v >>> 32).setWidth 16, accepted := (v >>> 16).setWidth 16 }
  | 0x122 => some { s.me with fwdcfg := v &&& 0x8000FFFF0000FFFF }
  | _ => none

/-- R94: operands, the value written from the CSR and x[D], and whether x[D] receives the CSR. -/
def csrWrite : Instr → Option (LI16 × (Word → Word → Word) × Bool)
  | .csrw o => some (o, fun _ x => x, false)
  | .csrs o => some (o, fun c x => c ||| x, false)
  | .csrc o => some (o, fun c x => c &&& ~~~x, false)
  | .csrx o => some (o, fun _ x => x, true)
  | _ => none

/-- R21, R22: the numbers that the tables list. -/
def csrListed (n : Nat) : Prop := n ≤ 0x010 ∨ (0x100 ≤ n ∧ n ≤ 0x107) ∨ (0x110 ≤ n ∧ n ≤ 0x122)

/-- R20, R21, R22: the rights to a CSR number at a level. -/
def csrAllowed (n : Nat) (priv write : Bool) : Prop :=
  n < 0x300 ∧ (0x100 ≤ n → priv = true) ∧
    (write = true → n ∉ [0x000, 0x001, 0x002, 0x004, 0x006, 0x00A, 0x00B, 0x00F] ∧ (n ∈ [0x003, 0x00E, 0x010] → priv = true))

/-- R95: no instruction of the context is queued that FFLAGS or MSTART waits for. -/
def csrSettled (s : State) (n : Nat) : Prop :=
  (n = 0x00C → (∀ e ∈ s.me.queue, e.ctx ≠ s.curCtx) ∧ ∀ e ∈ s.me.mq, e.ctx ≠ s.curCtx) ∧ (n = 0x008 → s.me.mq = [] ∧ s.me.long = none)

end Sys2Proof.Spec

/-- R21, R22, R24, R94: CSRR completes with the value of the CSR in x[D], wherever R20 lets it read. -/
def Sys2Proof.Rule.CsrRead : Prop :=
  ∀ (o : LI16) (s : State) (v : Word), let n := o.imm.toNat
    Issues (.csrr o) s → Spec.csrAllowed n s.cx.priv false → Spec.csrSettled s n → Spec.csr s n = some v →
    ∃ t, exec (.csrr o) s = .next t ∧ Returns s t o.d v

/-- R20, R94: CSRW, CSRS, CSRC and CSRX complete with the CSR written, its reserved bits zero; CSRX gives x[D] the CSR's value from
before; no other core, memory or part of the machine differs. -/
def Sys2Proof.Rule.CsrWritten : Prop :=
  ∀ (i : Instr) (o : LI16) (f : Word → Word → Word) (reads : Bool) (s : State) (k : Core),
    let n := o.imm.toNat
    Spec.csrWrite i = some (o, f, reads) → Issues i s → Spec.csrAllowed n s.cx.priv true → Spec.csrSettled s n →
    Spec.csrWritten s (f (s.csr n) (s.getX o.d)) n = some k →
    ∃ t, exec i s = .next t ∧ CoreBecomes s t s.cur
      (k.setCtx s.curCtx (if reads then (k.ctx s.curCtx).setX o.d (s.csr n) else k.ctx s.curCtx).advance)

/-- R20: a number below 0x300 that the tables do not list raises ILLINS with reason 3 at every level; an access without the rights raises
PRIV, with the CSR number and the level in SINFO, whatever the value; both before anything is read or written. -/
def Sys2Proof.Rule.CsrPrivilege : Prop :=
  ∀ (i : Instr) (o : LI16) (write : Bool) (s : State), (i = .csrr o ∧ write = false ∨ write = true ∧ ∃ f r, Spec.csrWrite i = some (o, f, r)) →
    (o.imm.toNat < 0x300 → ¬Spec.csrListed o.imm.toNat →
      exec i s = .next (takeTrap { cause := .illins, sinfo := (headOf i).toNat + 3 * 2 ^ 16 } s)) ∧
    (Issues i s → ¬Spec.csrAllowed o.imm.toNat s.cx.priv write →
      let info := (headOf i).toNat + o.imm.toNat * 2 ^ 16 + (if s.cx.priv then 2 ^ 28 else 0)
      exec i s = .next (takeTrap { cause := .priv, sinfo := info } s))

/-- CSR reads and writes, and the rights to them: `Rule.CsrRead`, `Rule.CsrWritten` and `Rule.CsrPrivilege` together. -/
def Obligations.CsrAccess : Prop := Sys2Proof.Rule.CsrRead ∧ Sys2Proof.Rule.CsrWritten ∧ Sys2Proof.Rule.CsrPrivilege

/-! ### Scalar floating point (R100 to R104) -/

namespace Sys2Proof.Spec

/-- R101: the format that F[1:0] names: binary32, binary64, T32, T16. -/
def fpFormat (f : Nat) : Nat := if f % 4 = 0 then 1 else if f % 4 = 1 then 4 else if f % 4 = 2 then 5 else 6

/-- The low bits of a register that an operand of a format takes (R100). -/
def fpOperand (s : State) (r : BitVec 5) (fc : Nat) : Nat := (s.getX r).toNat % 2 ^ fmtWidth fc

/-- R100 to R102, R104: destination, result in x[D] and flags of the instructions with one format; whether they round in a mode. -/
def fp (s : State) : Instr → Option (BitVec 5 × Nat × (Nat → Flagged Nat) × Bool)
  | .fadd o => let fc := fpFormat o.f.toNat
    some (o.d, fc, fun rm => arith .add fc (fpOperand s o.a fc) (fpOperand s o.b fc) false rm, true)
  | .fsub o => let fc := fpFormat o.f.toNat
    some (o.d, fc, fun rm => arith .sub fc (fpOperand s o.a fc) (fpOperand s o.b fc) false rm, true)
  | .fmul o => let fc := fpFormat o.f.toNat
    some (o.d, fc, fun rm => arith .mul fc (fpOperand s o.a fc) (fpOperand s o.b fc) false rm, true)
  | .fdiv o => let fc := fpFormat o.f.toNat
    some (o.d, fc, fun rm => arith .div fc (fpOperand s o.a fc) (fpOperand s o.b fc) false rm, true)
  | .fsqrt o => let fc := fpFormat o.f.toNat
    some (o.d, fc, fun rm => sqrtCode fc (fpOperand s o.a fc) false rm, true)
  | .fmin o => let fc := fpFormat o.f.toNat
    some (o.d, fc, fun _ => minMaxCode false fc (fpOperand s o.a fc) (fpOperand s o.b fc), false)
  | .fmax o => let fc := fpFormat o.f.toNat
    some (o.d, fc, fun _ => minMaxCode true fc (fpOperand s o.a fc) (fpOperand s o.b fc), false)
  | .fma o => let fc := fpFormat o.f.toNat
    some (o.d, fc, fun rm => fmaCode fc (fpOperand s o.a fc) (fpOperand s o.b fc) (fpOperand s o.c fc) (o.f.getLsbD 2) (o.f.getLsbD 3)
      false rm, true)
  | _ => none

end Sys2Proof.Spec

/-- R41, R58, R100 to R102: the arithmetic instructions complete with the rounded result of the format that F[1:0] names, extended into
x[D], and their flags ORed into FFLAGS, unless the format takes a mode and FRM is 5 to 7: then they raise ILLINS with reason 7. -/
def Sys2Proof.Rule.FloatResult : Prop :=
  ∀ (i : Instr) (d : BitVec 5) (fc : Nat) (r : Nat → Flagged Nat) (rounds : Bool) (s : State),
    Spec.fp s i = some (d, fc, r, rounds) → Issues i s →
    (¬(rounds = true ∧ (fc = 1 ∨ fc = 4) ∧ 5 ≤ s.cx.frm.toNat) → let v := r s.cx.frm.toNat
      ∃ t, exec i s = .next t ∧ ResultsF s t d (BitVec.ofNat 64 (extendCode fc v.1)) s.cx.nextPc v.2) ∧
    (rounds = true ∧ (fc = 1 ∨ fc = 4) ∧ 5 ≤ s.cx.frm.toNat →
      exec i s = .next (takeTrap { cause := .illins, sinfo := (headOf i).toNat + 7 * 2 ^ 16 } s))

/-- R100 to R104: FCMP, FCLASS and FCVT complete with their results and flags; FCLASS of FC 0, 30 or 31, and FCVT of a code of 30 or 31
or from integer to integer, raise FMTBAD. -/
def Sys2Proof.Rule.FloatConversions : Prop :=
  ∀ (s : State) (o : LH),
    (Issues (.fcmp o) s → let fc := Spec.fpFormat o.f.toNat
      let r := cmpCode (o.f.extractLsb' 2 3).toNat fc (Spec.fpOperand s o.a fc) (Spec.fpOperand s o.b fc)
      ∃ t, exec (.fcmp o) s = .next t ∧ ResultsF s t o.d (if r.1 then 1 else 0) s.cx.nextPc r.2) ∧
    (Issues (.fclass o) s → let fc := (o.f.extractLsb' 0 5).toNat
      (fc ≠ 0 ∧ fc < 30 → ∃ t, exec (.fclass o) s = .next t ∧
        Returns s t o.d (BitVec.ofNat 64 (classMask (Spec.fpOperand s o.a fc) fc))) ∧
      (fc = 0 ∨ 30 ≤ fc → exec (.fclass o) s =
        .next (takeTrap { cause := .fmtbad, sinfo := (headOf (.fclass o)).toNat + fc * 2 ^ 16 + 3 * 2 ^ 21 } s))) ∧
    (Issues (.fcvt o) s → let src := (o.f.extractLsb' 0 5).toNat
      let tgt := o.b.toNat
      (src < 30 ∧ tgt < 30 ∧ ¬(src = 0 ∧ tgt = 0) → let mode := src ≠ tgt ∧ (tgt ≤ 4 ∨ (8 ≤ tgt ∧ tgt ≤ 28))
        (¬(mode ∧ 5 ≤ s.cx.frm.toNat) → let r := fcvtValue (s.getX o.a) src tgt (o.f.getLsbD 5) s.cx.frm.toNat
          ∃ t, exec (.fcvt o) s = .next t ∧ ResultsF s t o.d r.1 s.cx.nextPc r.2) ∧
        (mode ∧ 5 ≤ s.cx.frm.toNat →
          exec (.fcvt o) s = .next (takeTrap { cause := .illins, sinfo := (headOf (.fcvt o)).toNat + 7 * 2 ^ 16 } s))) ∧
      (30 ≤ src ∨ 30 ≤ tgt ∨ (src = 0 ∧ tgt = 0) →
        let info := (headOf (.fcvt o)).toNat + (if 30 ≤ src then src else if 30 ≤ tgt then tgt else 0) * 2 ^ 16 + 3 * 2 ^ 21
        exec (.fcvt o) s = .next (takeTrap { cause := .fmtbad, sinfo := info } s)))

/-- Scalar floating arithmetic, comparison, class and conversion: `Rule.FloatResult` and `Rule.FloatConversions` together. That a
conversion into the same format takes no mode is a reading of the model (log 20). -/
def Obligations.FloatResult : Prop := Sys2Proof.Rule.FloatResult ∧ Sys2Proof.Rule.FloatConversions

/-! ### Reaching memory (R106, R181, R234 to R236, R306 to R312) -/

namespace Sys2Proof.Spec

/-- The exact effective address of an M-layout access (R82, R105). -/
def ea (s : State) (a : BitVec 5) (imm : BitVec 20) : Int := ((s.getX a).setWidth 56).toNat + imm.toInt

/-- R24, R235: a protection entry passes the access: V set, the ASID, the right, and the range inside [BASE, LIMIT). -/
def entryPasses (b l : Word) (asid : Nat) (need : Need) (off size : Nat) : Prop :=
  l.getLsbD 63 = true ∧ (b.extractLsb' 48 16).toNat = asid ∧
    (match need with
      | .r => l.getLsbD 60 = true
      | .w => l.getLsbD 61 = true
      | .rw => l.getLsbD 60 = true ∧ l.getLsbD 61 = true
      | .x => l.getLsbD 62 = true
      | .either => l.getLsbD 60 = true ∨ l.getLsbD 61 = true
      | .look => True) ∧
    (b.extractLsb' 6 42).toNat * 64 ≤ off ∧ off + size ≤ (l.extractLsb' 6 42).toNat * 64

/-- Some protection entry of the issuing core passes it. -/
def granted (s : State) (w : Who) (off size : Nat) : Prop :=
  ∃ n : Fin 8, entryPasses (s.core w.core).protb[n] (s.core w.core).protl[n] w.asid w.need off size

/-- No word that the device itself answers stands at an address for the executing context (R320, R340, R358, R360, R379). -/
def plain (s : State) (va : Nat) : Prop :=
  s.cx.priv = false ∨ (va ∉ s.cfg.moveDoor ∧ va ∉ s.cfg.heapDoor ∧ va ≠ s.cfg.healthVa ∧ va ≠ s.cfg.nodeVa ∧
    ¬(s.cfg.nodeTableVa ≤ va ∧ va < s.cfg.nodeTableVa + 8 * 8192) ∧
    ¬(s.cfg.groupTableVa ≤ va ∧ va < s.cfg.groupTableVa + 2 ^ 12 * 2 ^ 14))

/-- R323: kind codes 1 to 7 in SINFO[7:4]; a PROT of a vector access reports a load (R235). -/
def protKind (k : AKind) : Nat := match k with | .vector => 1 | k => k.code

end Sys2Proof.Spec

/-- R234, R235: an address whose top byte is 0xFF is local: without a passing entry it raises PROT with reason 1; with one, offset o of
the issuing core's own scratchpad is reached below its top 8 KiB (reason 3 there, reason 2 above it), offset o of core k of its cluster
while the ASID owns that core (reason 4 when not), and offset o of a site's scratchpad below 64 MiB; nothing of the machine changes. The
order of the reasons of PROT is a reading of the model (log 24). -/
def Obligations.LocalAccess : Prop :=
  ∀ (s : State) (w : Who) (o size : Nat), 0 < size → o + size < 2 ^ 32 → s.live w.core = true →
    (¬Spec.granted s w o size → s.access w (0xFF * 2 ^ 48 + o) size =
      .error (.trap { cause := .prot, saddr := 0xFF * 2 ^ 48 + o, sinfo := Spec.protKind w.kind * 16 + 1 })) ∧
    (Spec.granted s w o size → let top := spadSize (s.cls w.core)
      (o + size ≤ top - 0x2000 → s.access w (0xFF * 2 ^ 48 + o) size =
        .ok (s, { key := (Loc.spad w.core o).key, typ := 8, siteOff := none, home := 0, page := 0, big := false })) ∧
      (top - 0x2000 < o + size → o + size ≤ top → s.access w (0xFF * 2 ^ 48 + o) size =
        .error (.trap { cause := .prot, saddr := 0xFF * 2 ^ 48 + o, sinfo := Spec.protKind w.kind * 16 + 3 })) ∧
      (top < o + size → s.access w (0xFF * 2 ^ 48 + o) size =
        .error (.trap { cause := .prot, saddr := 0xFF * 2 ^ 48 + o, sinfo := Spec.protKind w.kind * 16 + 2 }))) ∧
    (∀ k, k < 16 → let c := w.core / 16 * 16 + k
      c ≠ w.core → s.live c = true → o + size ≤ spadSize (s.cls c) - 0x2000 → Spec.granted s w (2 ^ 40 + k * 2 ^ 22 + o) size →
      (s.core c).zeroing = false →
      ((s.core c).owner = some w.asid → s.access w (0xFF * 2 ^ 48 + 2 ^ 40 + k * 2 ^ 22 + o) size =
        .ok (s, { key := (Loc.spad c o).key, typ := 8, siteOff := none, home := 0, page := 0, big := false })) ∧
      ((s.core c).owner ≠ some w.asid → s.access w (0xFF * 2 ^ 48 + 2 ^ 40 + k * 2 ^ 22 + o) size =
        .error (.trap { cause := .prot, saddr := 0xFF * 2 ^ 48 + 2 ^ 40 + k * 2 ^ 22 + o, sinfo := Spec.protKind w.kind * 16 + 4 }))) ∧
    ∀ t, t < 4 → Spec.granted s w (2 * 2 ^ 40 + t * 2 ^ 32 + o) size → o + size ≤ 2 ^ 26 →
      s.access w (0xFF * 2 ^ 48 + 2 * 2 ^ 40 + t * 2 ^ 32 + o) size =
        .ok (s, { key := (Loc.site t o).key, typ := 8, siteOff := some (t, o), home := 0, page := 0, big := false })

/-- Only caches of lines differ: the L2 slices with their directories, and the L1 copies in the cores. -/
def Sys2Proof.Spec.CachesOnly (s t : State) : Prop :=
  { t with cores := s.cores, l2 := s.l2 } = s ∧ ∀ c, { t.core c with l1d := (s.core c).l1d, l1i := (s.core c).l1i } = s.core c

/-- R310, R312, R315: the bytes that the translation of an address may write: while its leaf has ZF set, the leaf and the frames that it or its
replica descriptor names, and the hotness record of an entry that leaves a home. -/
def Sys2Proof.Spec.mayFill (s : State) (asid va a : Nat) : Prop :=
  (∃ l pa big level, (s.homeWalk (homeOf va false) asid va).2 = .leaf l pa big level ∧ bitOf l 54 = true ∧
    ((pa ≤ a ∧ a < pa + 8) ∨ ∃ u f, (u = s ∨ (s.homeWalk (homeOf va false) asid va).1.makeRoom (homeOf va big) (pageOf va big) = some u) ∧
      f ∈ u.leafFrames l ∧ f ≤ a ∧ a < f + pageBytes big)) ∨
  ∃ i, ∃ e ∈ (s.site i).home.cache, hotPa e.leafPa ≤ a ∧ a < hotPa e.leafPa + 8

/-- R239, R243, R306, R307, R310, R312, R315, R316: an access that reaches its place changes nothing of the machine but the copies that caches
hold of lines and translations, and the bytes of `Spec.mayFill`, for the address and, in a window, for its buffer. Of a home only the translation
cache, the walk cache, the size hints and the clock that orders uses may differ; an entry of its cache is one that it held, with another use and,
where it is of the page reached, another hotness record, or is of the page of the address or of its buffer; a host translation is one that was
held. A local access changes nothing, and one to a page that its first home knows leaves every byte of memory. -/
def Sys2Proof.Rule.AccessFrame : Prop :=
  ∀ (s t : State) (w : Who) (va size : Nat) (p : Place), s.access w va size = .ok (t, p) →
    let write := w.need == .w || w.need == .rw
    Sys2Proof.Spec.CachesOnly s { t with sites := s.sites, ats := s.ats, mem := s.mem } ∧
    (∀ i, let h := (s.site i).home
      { t.site i with home := { (t.site i).home with cache := h.cache, walks := h.walks, hints := h.hints, clock := h.clock } } = s.site i) ∧
    (∀ i, ∀ e ∈ (t.site i).home.cache,
      (∃ o ∈ (s.site i).home.cache, { e with stamp := o.stamp, hot := o.hot } = o ∧
        (e.hot = o.hot ∨ (e.asid = w.asid ∧ e.page = p.page ∧ e.big = p.big))) ∨
      (e.asid = w.asid ∧ (e.page = pageOf va e.big ∨ ∃ u x, u ∈ s.windows ∧ x = u.buffer va write ∧ e.page = pageOf x e.big))) ∧
    (∀ a ∈ t.ats, ∃ b ∈ s.ats, { a with stamp := b.stamp } = b) ∧
    (∀ a, t.mem.byte a ≠ s.mem.byte a → Sys2Proof.Spec.mayFill s w.asid va a ∨
      ∃ s1 e level u, s.entryFor w va = .ok (s1, e, level) ∧ leafType e.leaf.toNat = 4 ∧ s1.windowAt w.asid va = some u ∧
        Sys2Proof.Spec.mayFill s1 w.asid (u.buffer va write) a) ∧
    (isLocal va = true → t = s) ∧
    (∀ e, s.known w.asid va = some e → leafType e.leaf.toNat ≠ 4 → SameBytes s t)

/-- R310, R312: the first access of any kind to a page whose leaf has ZF set zeroes its frame and clears ZF in the leaf; no other byte
changes, while the set of the home's cache holds fewer than its 16 entries. -/
def Sys2Proof.Rule.ZeroFill : Prop :=
  ∀ (s : State) (asid va l pa level : Nat), s.cached asid va = none → s.walk asid va = .leaf l pa false level →
    let h := (s.site (homeOf va false)).home
    let mine (page : Nat) := decide (page % 4096 = va / 2 ^ 16 % 4096)
    h.walks = [] → (h.cache.filter (fun e => mine e.page)).length + (s.ats.filter (fun a => mine a.page)).length
      + (h.hints.filter (fun z => mine z.page)).length < 16 →
    l < 2 ^ 64 → bitOf l 54 = true → leafType l ≠ 2 → (pa + 8 ≤ leafAddr l ∨ leafAddr l + 2 ^ 16 ≤ pa) →
    ∃ t e, s.homeEntry asid va = .ok (t, e, level) ∧ e.leaf.toNat = l - 2 ^ 54 ∧
      (∀ j, j < 2 ^ 16 → t.mem.byte (leafAddr l + j) = 0) ∧ t.mem.read pa 8 = l - 2 ^ 54 ∧
      ∀ a, (a < leafAddr l ∨ leafAddr l + 2 ^ 16 ≤ a) → (a < pa ∨ pa + 8 ≤ a) → t.mem.byte a = s.mem.byte a

/-- What an access may change besides its own effect; zero-fill: `Rule.AccessFrame` and `Rule.ZeroFill` together. That caches hold no bytes
of their own, every location having one value, is a choice of the model (log 7), as are the sets of a home's cache (log 8). -/
def Obligations.AccessFrame : Prop := Sys2Proof.Rule.AccessFrame ∧ Sys2Proof.Rule.ZeroFill

/-- R236, R242, R357: bytes written at a place stand there and no other byte changes, nor anything else but caches; a block of a site scratchpad that another ASID owns is
zeroed first and changes owner; a dead range of the CXL pool takes none. -/
def Sys2Proof.Rule.PlaceWrite : Prop :=
  ∀ (s : State) (asid : Nat) (p : Place) (bs : List Byte), let t := s.placeWrite asid p bs
    (p.siteOff = none → s.cxlDeadIn p.key bs.length = false →
      (∀ j, j < bs.length → t.mem.byte (p.key + j) = bs.getD j 0) ∧ SameBytesOutside s t p.key bs.length ∧
      Spec.CachesOnly s { t with mem := s.mem }) ∧
    (∀ site o, p.siteOff = some (site, o) → p.key = (Loc.site site o).key → o + bs.length ≤ 2 ^ 26 → bs ≠ [] → site < 4 →
      o % 2 ^ 16 + bs.length ≤ 2 ^ 16 →
      (∀ j, j < bs.length → t.mem.byte (p.key + j) = bs.getD j 0) ∧ t.tag site (o / 2 ^ 16) = asid ∧
      Spec.CachesOnly s { t with mem := s.mem, siteTags := s.siteTags } ∧
      (s.tag site (o / 2 ^ 16) = asid → SameBytesOutside s t p.key bs.length) ∧
      (s.tag site (o / 2 ^ 16) ≠ asid → let base := (Loc.site site (o / 2 ^ 16 * 2 ^ 16)).key
        SameBytesOutside s t base (2 ^ 16) ∧
        ∀ a, base ≤ a → a < base + 2 ^ 16 → (a < p.key ∨ p.key + bs.length ≤ a) → t.mem.byte a = 0)) ∧
    (p.siteOff = none → (∀ j, j < bs.length → s.cxlDead (p.key + j) = true) → SameBytes s t)

/-! ### Loads, stores and atomics (R105 to R117) -/

namespace Sys2Proof.Spec

/-- R109, R112: operands, size and extension of each load. -/
def load : Instr → Option (LM × Nat × (Nat → Word))
  | .ldb o => some (o, 1, fun v => (BitVec.ofNat 8 v).signExtend 64)
  | .ldbu o => some (o, 1, fun v => (BitVec.ofNat 8 v).setWidth 64)
  | .ldh o => some (o, 2, fun v => (BitVec.ofNat 16 v).signExtend 64)
  | .ldhu o => some (o, 2, fun v => (BitVec.ofNat 16 v).setWidth 64)
  | .ldw o => some (o, 4, fun v => (BitVec.ofNat 32 v).signExtend 64)
  | .ldwu o => some (o, 4, fun v => (BitVec.ofNat 32 v).setWidth 64)
  | .ldd o => some (o, 8, fun v => BitVec.ofNat 64 v)
  | .ldaq o => some (o, 8, fun v => BitVec.ofNat 64 v)
  | .ldaqw o => some (o, 4, fun v => (BitVec.ofNat 32 v).setWidth 64)
  | _ => none

/-- R109, R112, R113: operands and size of each store, and whether it is the multicast one. -/
def store : Instr → Option (LM × Nat × Bool)
  | .stb o => some (o, 1, false)
  | .sth o => some (o, 2, false)
  | .stw o => some (o, 4, false)
  | .std o => some (o, 8, false)
  | .strl o => some (o, 8, false)
  | .strlw o => some (o, 4, false)
  | .mstd o => some (o, 8, true)
  | _ => none

/-- The n low bytes of a value, the least significant first (R6). -/
def bytes (n v : Nat) : List Byte := (List.range n).map (fun j => BitVec.ofNat 8 (v / 2 ^ (8 * j)))

/-- R115: the operation of F[6:3] on the old value and x[B] at w bits. -/
def amo (op w old b : Nat) : Nat :=
  if op = 0 then b else if op = 1 then (old + b) % 2 ^ w else if op = 2 then old &&& b else if op = 3 then old ||| b
  else if op = 4 then old ^^^ b
  else if op = 5 then (if (BitVec.ofNat w old).toInt ≤ (BitVec.ofNat w b).toInt then old else b)
  else if op = 6 then (if (BitVec.ofNat w b).toInt ≤ (BitVec.ofNat w old).toInt then old else b)
  else if op = 7 then (if old ≤ b then old else b) else (if b ≤ old then old else b)

/-- R114 to R116: operands of an atomic, and the value written to a location of w bits that holds `old`; none when it writes nothing. -/
def atomic (s : State) : Instr → Option (LW × (Nat → Nat → Option Nat))
  | .amo o => some (o, fun w old => some (amo (o.f.extractLsb' 3 4).toNat w old ((s.getX o.b).toNat % 2 ^ w)))
  | .cas o => some (o, fun w old => if old = (s.getX o.b).toNat % 2 ^ w then some ((s.getX o.c).toNat % 2 ^ w) else none)
  | _ => none

/-- F[2]: 4 or 8 bytes. -/
def atomicSize (o : LW) : Nat := if o.f.getLsbD 2 then 8 else 4

end Sys2Proof.Spec

/-- R105 to R109, R112: a load whose address is aligned and in range, and reaches a place that holds no poison, completes with the extended
value; beyond what the access itself changes (AccessFrame), only x[D] and the PC differ, so no byte of memory does. -/
def Obligations.LoadResult : Prop :=
  ∀ (i : Instr) (o : LM) (size : Nat) (ext : Nat → Word) (s t : State) (p : Place), Spec.load i = some (o, size, ext) →
    Issues i s → Spec.unordered s → let ea := Spec.ea s o.a o.imm
    0 ≤ ea → ea < 2 ^ 56 → ea % size = 0 → (size = 8 → Spec.plain s ea.toNat) →
    s.access (s.who .load .r) ea.toNat size = .ok (t, p) → t.placePoisoned s.cx.as p size = false →
    ∃ u, exec i s = .next u ∧ Returns t u o.d (ext (t.placeRead s.cx.as p size))

/-- R105 to R109, R112, R113: a store whose address is aligned and in range, and which reaches a place, completes: the low bytes of x[D]
are written there (PlaceWrite), where a place of one copy holds them and no other byte changes; beyond that and what the access itself
changes (AccessFrame), only the PC differs. MSTD writes every copy of a replicated page. -/
def Obligations.StoreResult : Prop :=
  ∀ (i : Instr) (o : LM) (size : Nat) (multi : Bool) (s t : State) (p : Place), Spec.store i = some (o, size, multi) →
    Issues i s → Spec.unordered s → let ea := Spec.ea s o.a o.imm
    let bs := Spec.bytes size (s.getX o.d).toNat
    0 ≤ ea → ea < 2 ^ 56 → ea % size = 0 → (size = 8 → Spec.plain s ea.toNat) →
    s.access { s.who .store .w with mstd := multi } ea.toNat size = .ok (t, p) →
    ∃ u, exec i s = .next u ∧
      ((multi = true → p.typ ≠ 2) → MovesTo (t.placeWrite s.cx.as p bs) u t.cx.nextPc ∧
        (p.siteOff = none → t.cxlDeadIn p.key size = false →
          (∀ j, j < size → u.mem.byte (p.key + j) = bs.getD j 0) ∧ SameBytesOutside t u p.key size)) ∧
      (∀ e, multi = true → p.typ = 2 → t.cached s.cx.as ea.toNat = some e → e.big = false →
        let frames := t.leafFrames e.leaf.toNat
        (∀ f ∈ frames, f % 2 ^ 16 = 0) →
        u.cx.pc = t.cx.nextPc ∧ (∀ r, u.getX r = t.getX r) ∧
          (∀ f ∈ frames, ∀ j, j < 8 → u.mem.byte (f + ea.toNat % 2 ^ 16 + j) = bs.getD j 0) ∧
          ∀ a, (∀ f ∈ frames, a < f + ea.toNat % 2 ^ 16 ∨ f + ea.toNat % 2 ^ 16 + 8 ≤ a) → u.mem.byte a = t.mem.byte a)

/-- R106, R114 to R116: an atomic whose address zext(x[A][55:0]) is aligned and reaches a place that holds no poison reads the old value,
gives its sign extension to x[D], and writes the new one there, CAS only when the old value matches (PlaceWrite); a place of one copy then
holds it and no other byte changes. -/
def Obligations.AtomicResult : Prop :=
  ∀ (i : Instr) (o : LW) (f : Nat → Nat → Option Nat) (s t : State) (p : Place), Spec.atomic s i = some (o, f) →
    Issues i s → Spec.unordered s → let size := Spec.atomicSize o
    let va := ((s.getX o.a).setWidth 56).toNat
    va % size = 0 → s.access (s.who .atomic .rw) va size = .ok (t, p) → t.placePoisoned s.cx.as p size = false →
    let old := t.placeRead s.cx.as p size
    let written := match f (8 * size) old with | some v => t.placeWrite s.cx.as p (Spec.bytes size v) | none => t
    ∃ u, exec i s = .next u ∧
      Returns written u o.d (if size = 8 then BitVec.ofNat 64 old else (BitVec.ofNat 32 old).signExtend 64) ∧
      (p.siteOff = none → t.cxlDeadIn p.key size = false →
        u.mem.read p.key size = ((f (8 * size) old).getD old) % 2 ^ (8 * size) ∧ SameBytesOutside t u p.key size)

/-- R106: the checks of an access in their order: ALIGN, then ADDROVF, then what reaching memory raises, POISON last; the first that fails
is taken, once older work of the context allows it (`trapWaits`), and the instruction has no effect of its own. -/
def Sys2Proof.Rule.AccessTraps : Prop :=
  ∀ (i : Instr) (o : LM) (size : Nat) (kind : AKind) (multi : Bool) (s : State),
    ((kind = .load ∧ multi = false ∧ ∃ ext, Spec.load i = some (o, size, ext)) ∨ (kind = .store ∧ Spec.store i = some (o, size, multi))) →
    Issues i s → Spec.unordered s → let ea := Spec.ea s o.a o.imm
    (ea % size ≠ 0 → let info := kind.code * 16 + (if size = 1 then 0 else if size = 2 then 1 else if size = 4 then 2 else 3)
      exec i s = .next (takeTrap { cause := .align, saddr := (ea % 2 ^ 64).toNat, sinfo := info } s)) ∧
    (ea % size = 0 → (ea < 0 ∨ 2 ^ 56 ≤ ea) →
      exec i s = .next (takeTrap { cause := .addrovf, saddr := (ea % 2 ^ 64).toNat, sinfo := kind.code * 16 } s)) ∧
    (ea % size = 0 → 0 ≤ ea → ea < 2 ^ 56 → (size = 8 → Spec.plain s ea.toNat) → let need : Need := if kind = .load then .r else .w
      let w : Who := { s.who kind need with mstd := multi }
      (∀ x, s.access w ea.toNat size = .error (.trap x) → exec i s = .next (takeTrap x s)) ∧
      (∀ x t, s.access w ea.toNat size = .error (.trapIn x t) →
        exec i s = .next (if t.trapWaits x then s.readied x else takeTrap x t)) ∧
      (∀ t p, kind = .load → s.access w ea.toNat size = .ok (t, p) → t.placePoisoned s.cx.as p size = true →
        let x := poisonTrap t w p size ea.toNat
        exec i s = .next (if t.trapWaits x then s.readied x else takeTrap x t)))

/-- R320, R340, R358, R379, R397: the words that the device itself answers, at level S: HEALTH and the node number read at their addresses;
a store to a movement or heap doorbell queues the block's address, 64 per home, while the home moves no page, and 16 in all, and HEALTH
takes no store. -/
def Sys2Proof.Rule.DeviceWords : Prop :=
  ∀ (s : State) (o : LM), s.cx.priv = true → s.blocked = false → Spec.unordered s → let ea := Spec.ea s o.a o.imm
    let block := (s.getX o.d).toNat % 2 ^ 56
    0 ≤ ea → ea < 2 ^ 56 → ea % 8 = 0 →
    (Issues (.ldd o) s → ea.toNat = s.cfg.healthVa → ∃ t, exec (.ldd o) s = .next t ∧ Returns s t o.d (BitVec.ofNat 64 s.health)) ∧
    (Issues (.ldd o) s → ea.toNat = s.cfg.nodeVa → ea.toNat ≠ s.cfg.healthVa →
      ∃ t, exec (.ldd o) s = .next t ∧ Returns s t o.d (BitVec.ofNat 64 s.mgmt.node)) ∧
    (Issues (.std o) s →
      (∀ h, h < 4 → s.cfg.moveDoor[h]? = some ea.toNat → (∀ j, j < h → s.cfg.moveDoor[j]? ≠ some ea.toNat) →
        (s.site h).home.moves.length < 64 → (s.site h).home.moving = none → ∃ t, exec (.std o) s = .next t ∧
          MovesTo (s.modHome h (fun m => { m with moves := m.moves ++ [(s.cx.as, block)] })) t s.cx.nextPc) ∧
      (ea.toNat ∈ s.cfg.heapDoor → ea.toNat ∉ s.cfg.moveDoor → s.heapCmds.length < 16 → ∃ t, exec (.std o) s = .next t ∧
        MovesTo { s with heapCmds := s.heapCmds ++ [(s.cx.as, block)] } t s.cx.nextPc) ∧
      (ea.toNat = s.cfg.healthVa → ea.toNat ∉ s.cfg.moveDoor → ea.toNat ∉ s.cfg.heapDoor →
        ∃ t, exec (.std o) s = .next t ∧ MovesTo s t s.cx.nextPc))

/-- Writes at a place, and the device words of level S: `Rule.PlaceWrite` and `Rule.DeviceWords` together. That device words are met
before translation is a reading of the model (log 52). -/
def Obligations.DeviceWords : Prop := Sys2Proof.Rule.PlaceWrite ∧ Sys2Proof.Rule.DeviceWords

/-- R111, R117, R136: a load or store of ordering class OC, and a FENCE of a class, wait, with nothing changed, while a queued vector
instruction of the context with that class has not performed. -/
def Sys2Proof.Rule.OrderedAccessWaits : Prop :=
  ∀ (s : State) (e : VEntry) (c : Nat), e ∈ s.me.queue → e.done = false → e.ctx = s.curCtx → entryClass e.instr = some c →
    (∀ i o size ext, Spec.load i = some (o, size, ext) → o.oc.toNat = c → Issues i s → exec i s = .next s) ∧
    (∀ i o size multi, Spec.store i = some (o, size, multi) → o.oc.toNat = c → Issues i s → exec i s = .next s) ∧
    (∀ o : LI16, o.imm.getLsbD c = true → Issues (.fence o) s → exec (.fence o) s = .next s)

/-- The order of an access's checks, and waits for ordering classes: `Rule.AccessTraps` and `Rule.OrderedAccessWaits` together. What holds
a scalar access back is a reading of the model (log 5). -/
def Obligations.AccessTraps : Prop := Sys2Proof.Rule.AccessTraps ∧ Sys2Proof.Rule.OrderedAccessWaits

/-- R117, R118, R356: FENCE with no queued access of its classes, and PSYNC with no pending persist, complete with nothing changed; CLWB,
and PFLUSH of a page that is not persistent, need R or W, write the line back from every cache, and change nothing else beyond the access;
PFLUSH of a persistent page adds its 256-byte line to the pending persists; at a local address both check the protection entries only; PSYNC
with a line that can be confirmed no more raises POISON, which once it is taken (`trapWaits`) has emptied the set, and waits while lines are
pending. That nothing but queued accesses is outstanding at a fence is a reading of the model (log 5). -/
def Obligations.FenceAndPersist : Prop :=
  ∀ (s : State),
    (∀ o : LI16, Issues (.fence o) s → Spec.unordered s → ∃ t, exec (.fence o) s = .next t ∧ MovesTo s t s.cx.nextPc) ∧
    (∀ (o : LM) (t : State) (p : Place), Spec.unordered s → let ea := Spec.ea s o.a o.imm
      0 ≤ ea → ea < 2 ^ 56 → isLocal ea.toNat = false → s.translate (s.who .load .either) ea.toNat = .ok (t, p) →
      let back (u : State) : Prop := p.typ ≠ 1 → (∀ c, ∀ l ∈ (u.core c).l1d, l.key / 256 = p.key / 256 → l.state ≠ .m ∧ l.state ≠ .o) ∧
        ∀ l ∈ (u.l2Slice (t.sliceAt (p.key / 256 * 256))).lines, l.line = p.key / 256 → l.dirty = 0
      (Issues (.clwb o) s → ∃ w u, exec (.clwb o) s = .next u ∧ Spec.CachesOnly t w ∧ back u ∧ MovesTo w u t.cx.nextPc) ∧
      (Issues (.pflush o) s → ∃ w u, exec (.pflush o) s = .next u ∧ Spec.CachesOnly t w ∧ back u ∧
        (p.typ ≠ 5 → MovesTo w u t.cx.nextPc) ∧
        (p.typ = 5 → let line := (ea.toNat / 256 * 256, p.key / 256 * 256)
          let add (l : List (Nat × Nat)) := if line ∈ l then l else l ++ [line]
          u.persists s.cur s.curCtx = add (t.persists s.cur s.curCtx) ∧
          (∀ x, t.myStrand = some x → MovesTo (w.modStrand x.asid x.sid (fun x => { x with persists := add x.persists })) u t.cx.nextPc) ∧
          (t.myStrand = none → MovesTo (w.modCore s.cur (fun k => { k with aPersists := add k.aPersists })) u t.cx.nextPc)))) ∧
    (∀ (o : LM) (p : Place), Spec.unordered s → let ea := Spec.ea s o.a o.imm
      0 ≤ ea → ea < 2 ^ 56 → isLocal ea.toNat = true → s.localAccess (s.who .load .either) ea.toNat 1 = .ok p →
      (Issues (.clwb o) s → ∃ u, exec (.clwb o) s = .next u ∧ MovesTo s u s.cx.nextPc) ∧
      (Issues (.pflush o) s → ∃ u, exec (.pflush o) s = .next u ∧ MovesTo s u s.cx.nextPc)) ∧
    (Issues .psync s → let mine := s.persists s.cur s.curCtx
      (mine = [] → ∃ t, exec .psync s = .next t ∧ MovesTo s t s.cx.nextPc) ∧
      (mine ≠ [] → (∀ l ∈ mine, s.lineLost l.2 = false) → exec .psync s = .next s) ∧
      (∀ first l rest, mine = first ++ l :: rest → (∀ e ∈ first, s.lineLost e.2 = false) → s.lineLost l.2 = true →
        ∃ t, t.persists s.cur s.curCtx = [] ∧ { t with strands := s.strands, cores := s.cores } = s ∧
          let x : Trap := { cause := .poison, saddr := l.1, sinfo := 2 * 16 + 4 }
          exec .psync s = .next (if t.trapWaits x then s.readied x else takeTrap x t)))

/-- Log 3: the invariant that every step keeps. In every state whose memory is canonical (addresses strictly rising, no entry equal to
what an unlisted byte reads as, poisoned atoms rising), whatever instruction or event the step carries out, memory is canonical
afterwards. The canonical form and the value of an unlisted byte are choices of the model (log 3). -/
def Obligations.StepKeepsMemoryCanonical : Prop :=
  ∀ (s t : State), s.mem.wf = true → step s = .next t → t.mem.wf = true

/-! ### Cluster copy engines (R119 to R128, R235, R246, R359, R360) -/

namespace Sys2Proof.Spec

/-- R119, R120: x[D] may take a token and the cluster's engine a descriptor now. -/
def tokenFree (s : State) (d : BitVec 5) : Prop :=
  d ≠ 0 ∧ d ≠ 2 ∧ ((List.range 32).filter (fun r => s.cx.pend.getLsbD r)).length < 16 ∧ s.cx.pend.getLsbD d.toNat = false ∧
    (s.ops.filter (fun o => o.cluster = s.cur / 16 ∧ o.ended = none)).length < 64 ∧ unordered s

/-- The address operand of an engine instruction: x[A][55:0]. -/
def opAddr (s : State) (r : BitVec 5) : Nat := ((s.getX r).setWidth 56).toNat

/-- The end of the rows of a two-dimensional operand below its first byte, and above its last. -/
def rowsLow (va : Nat) (stride : Int) (rows : Nat) : Int := min (va : Int) (va + stride * (rows - 1 : Nat))
def rowsHigh (va : Nat) (stride : Int) (row rows : Nat) : Int := max (va : Int) (va + stride * (rows - 1 : Nat)) + row

/-- R121 to R123, R126, R128: how an engine instruction other than ACOLL issues: at once with a status, or as an operation with the operand
ranges that R235 checks. -/
def engine (s : State) : Instr → Option (LX × (Nat ⊕ (OpKind × List (Need × Nat × Nat))))
  | .acopy o =>
    let dst := opAddr s o.a
    let src := opAddr s o.b
    let n := ((s.getX o.c).extractLsb' 0 48).toNat
    let node := ((s.getX o.c).extractLsb' 48 15).toNat
    let far := (s.getX o.c).getLsbD 63
    some (o, if dst + n > 2 ^ 56 ∨ src + n > 2 ^ 56 ∨ 8191 < node ∨ (far = true ∧ o.sc ≠ 4) then .inl 6
      else if n = 0 then .inl 0
      else if far = true ∧ node ≠ s.mgmt.node then
        .inr (.remote dst src n node (o.f16.getLsbD 0), if o.f16.getLsbD 0 then [(.w, dst, n)] else [(.r, src, n)])
      else .inr (.copy dst src n, [(.w, dst, n), (.r, src, n)]))
  | .acopy2d o =>
    let dst := opAddr s o.a
    let src := opAddr s o.b
    let ds := (s.getX (o.a + 1)).toInt
    let ss := (s.getX (o.b + 1)).toInt
    let row := ((s.getX o.c).extractLsb' 0 24).toNat
    let rows := ((s.getX o.c).extractLsb' 24 24).toNat
    some (o, if (s.getX o.c).extractLsb' 48 16 ≠ 0 then .inl 6 else if row = 0 ∨ rows = 0 then .inl 0
      else if rowsLow dst ds rows < 0 ∨ rowsLow src ss rows < 0 ∨ 2 ^ 56 < rowsHigh dst ds row rows ∨ 2 ^ 56 < rowsHigh src ss row rows
      then .inl 6
      else .inr (.copy2d dst src ds ss row rows,
        [(.w, (rowsLow dst ds rows).toNat, (rowsHigh dst ds row rows - rowsLow dst ds rows).toNat),
         (.r, (rowsLow src ss rows).toNat, (rowsHigh src ss row rows - rowsLow src ss rows).toNat)]))
  | .agather o =>
    let dst := opAddr s o.a
    let idx := opAddr s o.c
    let n := (s.getX (o.c + 1)).toNat
    let size := 2 ^ (o.f16.extractLsb' 0 3).toNat
    let iw := if o.f16.getLsbD 3 then 8 else 4
    some (o, if dst + n * size > 2 ^ 56 ∨ idx + n * iw > 2 ^ 56 then .inl 6 else if n = 0 then .inl 0
      else .inr (.gather dst (opAddr s o.b) idx n size iw, [(.w, dst, n * size), (.r, idx, n * iw)]))
  | .glaze o => some (o, if (s.windowAt s.cx.as (opAddr s o.a)).isSome then .inr (.glaze (opAddr s o.a), []) else .inl 6)
  | .wread o => some (o, if (s.windowAt s.cx.as (opAddr s o.a)).isSome then .inr (.wread (opAddr s o.a), []) else .inl 6)
  | .wbind o => some (o, if s.getX o.b = 0 then .inr (.wbind (opAddr s o.a) 0, [])
      else if opAddr s o.b + 64 > 2 ^ 56 then .inl 6
      else .inr (.wbind (opAddr s o.a) (opAddr s o.b), [(.r, opAddr s o.b, 64)]))
  | _ => none

/-- R234, R235: the local part of an operand range, from its first address in the local window on; none when no byte of it lies there. -/
def localPart (va n : Nat) : Option (Nat × Nat) :=
  let lo := max va (0xFF * 2 ^ 48)
  if lo < va + n then some (lo, va + n - lo) else none

/-- R235: the local part of every operand range passes its check. -/
def rangesPass (s : State) (l : List (Need × Nat × Nat)) : Prop :=
  ∀ r ∈ l, ∀ lo m, localPart r.2.1 r.2.2 = some (lo, m) → s.localReason (s.who .engine r.1) lo m = none

/-- The operation that joins the cluster's queue (R119), with the occupant changes of the cluster's cores at issue (R121). -/
def newOp (s : State) (o : LX) (kind : OpKind) : EngineOp :=
  { id := s.nextId, cluster := s.cur / 16, core := s.cur, asid := s.cx.asid.toNat, sid := s.cx.strandId.toNat, priv := s.cx.priv,
    ctx := s.curCtx, reg := o.d.toNat, pc := s.cx.pc, issuedAt := s.time.toNat, sc := o.sc.toNat, kind, next := 0, written := 0,
    ended := none, waitSvc := false, hostReq := none, buf := [],
    dstOwners := (List.range 16).map (fun i => (16 * (s.cur / 16) + i, (s.core (16 * (s.cur / 16) + i)).changes)) }

/-- The current core with x[D] pending and its executing context at next_pc. -/
def pendingNext (s : State) (d : BitVec 5) : Core :=
  s.me.setCtx s.curCtx { s.cx.advance with pend := s.cx.pend ||| (1#32 <<< d.toNat) }

/-- The issue of an operation: it joins the queue, x[D] is pending, the scalar pipe goes on; nothing else differs. -/
def Queued (s t : State) (o : LX) (kind : OpKind) : Prop :=
  CoreBecomes { s with nextId := s.nextId + 1, ops := s.ops ++ [newOp s o kind] } t s.cur (pendingNext s o.d)

/-- R124, R360: ACOLL's operation, reduction, format, and the bytes that it reads and writes here. -/
def collRead (o : LX) (n : Nat) : Nat :=
  n * (if (o.f16.extractLsb' 0 4) = 1 then 1 else if o.f16.extractLsb' 6 5 = 0 then 4 else fmtWidth (o.f16.extractLsb' 6 5).toNat / 8)
def collWritten (o : LX) (n ranks : Nat) : Nat :=
  if o.f16.extractLsb' 0 4 = 0 then collRead o n else if o.f16.extractLsb' 0 4 = 1 then n * ranks else collRead o (n / ranks)

end Sys2Proof.Spec

/-- R119 to R123, R126, R128, R235: ACOPY, ACOPY2D, AGATHER, GLAZE, WBIND and WREAD complete by queueing their operation with a pending
token, or with the token at once for an operand that ends it; TOKBAD is raised for D = 0 and D = 2, and PROT for the first range whose local
part fails, at its first local address, with nothing changed. -/
def Sys2Proof.Rule.EngineIssue : Prop :=
  ∀ (i : Instr) (o : LX) (s : State),
    (∀ st, Spec.engine s i = some (o, .inl st) → Issues i s → Spec.tokenFree s o.d →
      ∃ t, exec i s = .next t ∧ Returns s t o.d (BitVec.ofNat 64 st)) ∧
    (∀ kind ranges, Spec.engine s i = some (o, .inr (kind, ranges)) → Issues i s → Spec.tokenFree s o.d →
      (Spec.rangesPass s ranges → ∃ t, exec i s = .next t ∧ Spec.Queued s t o kind) ∧
      (∀ first need va n rest lo m r, ranges = first ++ (need, va, n) :: rest → Spec.rangesPass s first → Spec.localPart va n = some (lo, m) →
        s.localReason (s.who .engine need) lo m = some r →
        exec i s = .next (takeTrap { cause := .prot, saddr := lo, sinfo := 5 * 16 + r } s))) ∧
    (∀ out, Spec.engine s i = some (o, out) → Issues i s →
      (o.d = 0 → exec i s = .next (takeTrap { cause := .tokbad, sinfo := 32 } s)) ∧
      (o.d = 2 → exec i s = .next (takeTrap { cause := .tokbad, sinfo := 2 + 64 } s)))

/-- R124, R128, R336, R360: ACOLL with an operation and format of the table and operands in range queues the collective with its call number,
and one whose operands are not ends with status 6 and counts as a call; a handle of no group, or of one without this node, ends with status 6.
ACANCEL ends the pending operation of x[D] with status 3 and what it has written, wherever the strand issued it, and changes no register. -/
def Sys2Proof.Rule.CollectiveIssue : Prop :=
  ∀ (o : LX) (s : State),
    (Issues (.acoll o) s → Spec.tokenFree s o.d → let op := (o.f16.extractLsb' 0 4).toNat
      let fmt := (o.f16.extractLsb' 6 5).toNat
      let n := (s.getX o.c).toNat
      let call := (kvGet o.imm.toNat s.collCalls).getD 0
      (if op = 1 then fmt = 0 else fmt ≤ 3 ∨ (5 ≤ fmt ∧ fmt ≤ 7)) →
      (∀ g, s.groups.find? (fun g => g.handle == o.imm.toNat) = some g → s.mgmt.node ∈ g.nodes → (op = 2 → n % g.nodes.length = 0) →
        Spec.opAddr s o.b + Spec.collRead o n ≤ 2 ^ 56 → Spec.opAddr s o.a + Spec.collWritten o n g.nodes.length ≤ 2 ^ 56 →
        Spec.rangesPass s [(.w, Spec.opAddr s o.a, Spec.collWritten o n g.nodes.length), (.r, Spec.opAddr s o.b, Spec.collRead o n)] →
        ∃ t, exec (.acoll o) s = .next t ∧ Spec.Queued { s with collCalls := kvSet o.imm.toNat (call + 1) s.collCalls } t o
          (.coll (Spec.opAddr s o.a) (Spec.opAddr s o.b) n op (o.f16.extractLsb' 4 2).toNat fmt o.imm.toNat call)) ∧
      (∀ g, s.groups.find? (fun g => g.handle == o.imm.toNat) = some g → s.mgmt.node ∈ g.nodes →
        (op = 2 ∧ n % g.nodes.length ≠ 0 ∨ 2 ^ 56 < Spec.opAddr s o.b + Spec.collRead o n ∨
          2 ^ 56 < Spec.opAddr s o.a + Spec.collWritten o n g.nodes.length) →
        ∃ t, exec (.acoll o) s = .next t ∧ Returns { s with collCalls := kvSet o.imm.toNat (call + 1) s.collCalls } t o.d 6) ∧
      (∀ g, s.groups.find? (fun g => g.handle == o.imm.toNat) = some g → s.mgmt.node ∉ g.nodes →
        ∃ t, exec (.acoll o) s = .next t ∧ Returns s t o.d 6) ∧
      (s.groups.find? (fun g => g.handle == o.imm.toNat) = none → ∃ t, exec (.acoll o) s = .next t ∧ Returns s t o.d 6)) ∧
    (Issues (.acancel o) s → o.d ≠ 0 → o.d ≠ 2 → (s.ops.map (·.id)).Nodup →
      let mine (e : EngineOp) := e.ctx = s.curCtx ∧ e.asid = s.cx.asid.toNat ∧ e.sid = s.cx.strandId.toNat ∧
        (s.curCtx = .a → e.core = s.cur) ∧ e.reg = o.d.toNat ∧ e.ended = none
      (∀ e ∈ s.ops, mine e → s.hasPins (.piece e.id) = false) → ∃ t, exec (.acancel o) s = .next t ∧
      MovesTo { s with ops := s.ops.map (fun e => if mine e then { e with ended := some (e.written, 3), waitSvc := false } else e) } t s.cx.nextPc)

/-- The issue of ACOPY, ACOPY2D, AGATHER, GLAZE, WBIND and WREAD, as `Rule.EngineIssue` says. -/
def Obligations.EngineIssue : Prop := Sys2Proof.Rule.EngineIssue

/-- ACOLL and ACANCEL, as `Rule.CollectiveIssue` says. That a handle of no group ends with status 6 is a reading of the model (log 64). -/
def Obligations.CollectiveIssue : Prop := Sys2Proof.Rule.CollectiveIssue

/-- R246: an engine that last served one of its cores comes to o's core before any other core of which it has an operation to serve. -/
def Sys2Proof.Spec.coreTurn (s : State) (o : EngineOp) : Prop :=
  let ahead (c : Nat) := (c % 16 + 31 - (s.cluster o.cluster).lastServed % 16) % 16
  ∀ e ∈ s.ops, e.cluster = o.cluster → e.ended = none → e.waitSvc = false → e.core = o.core ∨ ahead o.core < ahead e.core

/-- R121, R123, R246: when it is its core's turn, a piece of a copy within the issuing core's own scratchpad moves min(4,096, what is left, what is left of either
4 KiB page) bytes from source to destination and no other byte; the copy ends with status 0 after its last byte. -/
def Sys2Proof.Rule.CopyPiece : Prop :=
  ∀ (s : State) (o : EngineOp) (ko kd n : Nat), s.op o.id = some o → Spec.coreTurn s o → s.hasPins (.piece o.id) = false → o.ended = none → o.waitSvc = false →
    o.kind = .copy (0xFF * 2 ^ 48 + kd) (0xFF * 2 ^ 48 + ko) n → o.next < n → kd + n < 2 ^ 21 → ko + n < 2 ^ 21 →
    (s.core o.core).owner = some o.asid → (s.core o.core).zeroing = false →
    (∀ p ∈ o.dstOwners, p.1 = o.core → p.2 = (s.core o.core).changes) →
    s.mem.poisoned (Loc.spad o.core (ko + o.next)).key 4096 = false →
    let m := min (min 4096 (n - o.next)) (min (4096 - (kd + o.next) % 4096) (4096 - (ko + o.next) % 4096))
    let done := decide (o.next + m = n)
    ∃ t, exec (.enginePiece o.id) s = .next t ∧
      (∀ j, j < m → t.mem.byte ((Loc.spad o.core (kd + o.next)).key + j) = s.mem.byte ((Loc.spad o.core (ko + o.next)).key + j)) ∧
      SameBytesOutside s t (Loc.spad o.core (kd + o.next)).key m ∧ t.cores = s.cores ∧ (t.cluster o.cluster).lastServed = o.core ∧
      t.op o.id = some { o with next := o.next + m, written := o.written + m,
                                ended := if done then some (o.written + m, 0) else none }

/-- R119, R121, R127, R359, R360: the other events of an engine: TOKEN_COMPLETION gives x[D] of the waiting context VAL in bits 63:16 and
STATUS in bits 15:0 and clears its pending mark; WINDOW_EXCHANGE exchanges the buffers and raises the version once the strand's earlier
writes have ended, and its token carries the new version; COLLECTIVE_TIMEOUT and REMOTE_COPY_TIMEOUT end with status 7 what has waited one
second, a collective only while the call of some other member is missing, and leave what has not, or waits for service code. -/
def Sys2Proof.Rule.EngineEvents : Prop :=
  ∀ (s : State) (o : EngineOp), s.op o.id = some o →
    (∀ val st, o.ended = some (val, st) → val < 2 ^ 48 → st < 2 ^ 16 → o.reg ≠ 0 → o.reg < 32 →
      let v := BitVec.ofNat 48 val ++ BitVec.ofNat 16 st
      (o.ctx = .a → (s.core o.core).a.pend.getLsbD o.reg = true → ∃ t, exec (.tokenCompletion o.id) s = .next t ∧
        t.op o.id = none ∧ CoreBecomes { s with ops := t.ops } t o.core { s.core o.core with a := (s.core o.core).a.complete o.reg v }) ∧
      (o.ctx = .u → ∀ c k, s.cores.find? (fun p => (p.2.uWork == .strand || p.2.uWork == .heldInRegs) && p.2.u.as == o.asid &&
          p.2.u.sid == o.sid) = some (c, k) → ∃ t, exec (.tokenCompletion o.id) s = .next t ∧
        t.op o.id = none ∧ CoreBecomes { s with ops := t.ops } t c { s.core c with u := (s.core c).u.complete o.reg v })) ∧
    (∀ va w, o.kind = .glaze va → o.ended = none → s.windowAt o.asid va = some w →
      (∀ e ∈ s.ops, e.id < o.id → e.asid = o.asid → e.sid = o.sid → e.ctx = o.ctx → e.ended ≠ none) →
      ∃ t, exec (.windowExchange o.id) s = .next t ∧ t.op o.id = some { o with ended := some (w.version + 1, 0) } ∧
        t.windows = s.windows.map (fun v => if v.asid = w.asid ∧ v.va = w.va
          then { v with swapped := !v.swapped, version := v.version + 1 } else v) ∧
        { t with windows := s.windows, ops := s.ops } = s) ∧
    (∀ dst src n op red fmt g call, o.kind = .coll dst src n op red fmt g call → o.ended = none → s.hasPins (.piece o.id) = false →
      let missing := ∃ gr k, s.groups.find? (fun x => x.handle == g) = some gr ∧ k < gr.nodes.length ∧ k ≠ gr.nodes.idxOf s.mgmt.node ∧
        ∀ p ∈ s.peers, ¬(p.group = g ∧ p.rank = k ∧ p.call = call)
      let due := o.waitSvc = false ∧ o.issuedAt + 100000000 ≤ s.time.toNat ∧ missing
      ∃ t, exec (.collectiveTimeout o.id) s = .next t ∧ { t with ops := s.ops } = s ∧
        (due → t.op o.id = some { o with ended := some (0, 7), waitSvc := false }) ∧ (¬due → t = s)) ∧
    (∀ dst src n node far, o.kind = .remote dst src n node far → o.ended = none → s.hasPins (.piece o.id) = false →
      ∃ t, exec (.remoteCopyTimeout o.id) s = .next t ∧ { t with ops := s.ops } = s ∧
        t.op o.id = some (if o.waitSvc = false ∧ o.issuedAt + 100000000 ≤ s.time.toNat then { o with ended := some (o.written, 7), waitSvc := false } else o))

/-- A piece of a copy, and the other events of an engine: `Rule.CopyPiece` and `Rule.EngineEvents` together. That a piece is whole is a
reading of the model (logs 12 and 28). -/
def Obligations.EngineEvents : Prop := Sys2Proof.Rule.CopyPiece ∧ Sys2Proof.Rule.EngineEvents

/-! ### Vector configuration and issue (R25, R76, R129 to R153, R217, R381, R382) -/

namespace Sys2Proof.Spec

/-- R76, R130, R382: VLMAX at width w, and vl_of(L) for a captured request. -/
def vlmax (s : State) (w : Nat) : Nat :=
  if s.cls s.cur = .control then 0
  else (if s.me.remapped then 480 else 512) * (match s.me.gang with | .leader n => n | _ => 1) * 8 / w

/-- R25: the element width of a VTYPE's EW, 0 for dead vector state. -/
def widthOf (vt : BitVec 16) : Nat :=
  if vt.extractLsb' 5 3 = 1 then 8 else if vt.extractLsb' 5 3 = 2 then 16 else if vt.extractLsb' 5 3 = 3 then 32
  else if vt.extractLsb' 5 3 = 4 then 64 else 0

/-- R76: a length limited to VLMAX and cut to whole blocks of 2^(BL+2) when BL is not 0. -/
def lengthOf (s : State) (vt : BitVec 16) (req : Nat) : Nat :=
  let w := widthOf vt
  let n := if w = 0 then 0 else min req (vlmax s w)
  if vt.extractLsb' 8 3 = 0 then n else n - n % 2 ^ ((vt.extractLsb' 8 3).toNat + 2)

/-- R25: EW is 0 to 4 and EF is 0 or a register format of that width. -/
def vtypeLegal (t : BitVec 16) : Prop :=
  (t.extractLsb' 5 3).toNat < 5 ∧ ((t.extractLsb' 0 5).toNat = 0 ∨
    let f := (t.extractLsb' 0 5).toNat
    ((1 ≤ f ∧ f ≤ 3) ∨ (5 ≤ f ∧ f ≤ 28)) ∧ fmtWidth f = widthOf t)

/-- No retired lane makes the core remap first (R382). -/
def mapped (s : State) : Prop := s.curCtx = .a ∨ s.me.retLane = none ∨ s.me.remapped = true

/-- A VTYPE write of the executing context (R12, R17, R25): in the U context a change of EW to or from 0 zeroes v and m. -/
def vtypeWritten (s : State) (t : BitVec 16) : Core :=
  let k := if s.curCtx = .u ∧ ¬(s.cx.vtype.extractLsb' 5 3 = 0 ↔ t.extractLsb' 5 3 = 0) then
      { s.me with v := .replicate 32 0, m := .replicate 12 0, regPoison := s.me.regPoison.filter (fun p => p.1 == 2) }
    else s.me
  k.setCtx s.curCtx { k.ctx s.curCtx with vtype := t &&& 0x3FFF }

/-- R140: such a change waits for the queued vector work. -/
def vtypeReady (s : State) (t : BitVec 16) : Prop :=
  s.curCtx = .u → ¬(s.cx.vtype.extractLsb' 5 3 = 0 ↔ t.extractLsb' 5 3 = 0) → s.me.queue = []

/-- A core whose executing context returns a value in x[D] and goes on. -/
def returned (k : Core) (c : CtxName) (d : BitVec 5) (v : Word) : Core := k.setCtx c ((k.ctx c).setX d v).advance

end Sys2Proof.Spec

/-- R224: an instruction of major 20 runs in the U context, or in the A context of a core whose U context holds a strand. -/
def Sys2Proof.Spec.strandHere (s : State) : Prop := s.curCtx = .u ∨ s.me.uHolds = true

/-- R382: the core remapped to 15 lanes: 480-byte registers, and the retired lane's slice zero. -/
def Sys2Proof.Spec.remap (s : State) (lane : Nat) : State :=
  let s1 := s.modCore s.cur (fun k => { k with
    remapped := true, v := k.v.map (fun r => (r.setWidth 3840).setWidth 32768), m := k.m.map (fun r => (r.setWidth 480).setWidth 4096) })
  { s1 with mem := s1.mem.zero (Loc.slice s.cur (lane * 8192)).key 8192 }

/-- R25, R76, R140: SETVL gives x[D] the length for the request in x[A] and changes no VTYPE; VSETT and VSETTX write a legal VTYPE, VSETT giving
x[D] VLMAX and VSETTX the length for x[B], once the queue is empty where EW changes to or from 0; an illegal one, and an x[A] of VSETTX with a
bit set above bit 15, raises FMTBAD with its EF and source 1, VTYPE unchanged. -/
def Sys2Proof.Rule.VectorConfig : Prop :=
  ∀ (s : State), Spec.strandHere s →
    (∀ o, Issues (.setvl o) s → Spec.mapped s → ∃ t, exec (.setvl o) s = .next t ∧
      Returns s t o.d (BitVec.ofNat 64 (Spec.lengthOf s s.cx.vtype (s.getX o.a).toNat))) ∧
    (∀ o : LI16, Issues (.vsett o) s → Spec.mapped s → Spec.vtypeLegal o.imm → Spec.vtypeReady s o.imm → ∃ t, exec (.vsett o) s = .next t ∧
      CoreBecomes s t s.cur (Spec.returned (Spec.vtypeWritten s o.imm) s.curCtx o.d
        (BitVec.ofNat 64 (Spec.lengthOf s o.imm (2 ^ 64))))) ∧
    (∀ o, Issues (.vsettx o) s → let v := (s.getX o.a).setWidth 16
      (s.getX o.a).toNat < 2 ^ 16 → Spec.mapped s → Spec.vtypeLegal v → Spec.vtypeReady s v → ∃ t, exec (.vsettx o) s = .next t ∧
        CoreBecomes s t s.cur (Spec.returned (Spec.vtypeWritten s v) s.curCtx o.d
          (BitVec.ofNat 64 (Spec.lengthOf s v (s.getX o.b).toNat)))) ∧
    (∀ o : LI16, Issues (.vsett o) s →
      (Spec.mapped s → Spec.vtypeLegal o.imm → ¬Spec.vtypeReady s o.imm → exec (.vsett o) s = .next s) ∧
      (¬Spec.vtypeLegal o.imm → exec (.vsett o) s = .next (takeTrap
        { cause := .fmtbad, sinfo := (headOf (.vsett o)).toNat + (o.imm.extractLsb' 0 5).toNat * 2 ^ 16 + 2 ^ 21 } s))) ∧
    (∀ o, Issues (.vsettx o) s → let v := (s.getX o.a).setWidth 16
      ((s.getX o.a).toNat < 2 ^ 16 → Spec.mapped s → Spec.vtypeLegal v → ¬Spec.vtypeReady s v → exec (.vsettx o) s = .next s) ∧
      ((2 ^ 16 ≤ (s.getX o.a).toNat ∨ ¬Spec.vtypeLegal v) → exec (.vsettx o) s = .next (takeTrap
        { cause := .fmtbad, sinfo := (headOf (.vsettx o)).toNat + (v.extractLsb' 0 5).toNat * 2 ^ 16 + 2 ^ 21 } s)))

/-- R20, R25, R94, R140: CSRW, CSRS, CSRC and CSRX of VTYPE write a legal value, and CSRX gives x[D] the VTYPE from before, once the queue is empty
where EW changes to or from 0 in the U context; an illegal value raises FMTBAD with its EF and source 1, VTYPE unchanged. Bits [63:16] of the value
are ignored. -/
def Sys2Proof.Rule.VtypeCsr : Prop :=
  ∀ (i : Instr) (o : LI16) (f : Word → Word → Word) (reads : Bool) (s : State), Spec.csrWrite i = some (o, f, reads) → Issues i s →
    o.imm = 0x005 → let old := s.cx.vtype.setWidth 64
    let v := (f old (s.getX o.d)).setWidth 16
    let k := Spec.vtypeWritten s v
    (Spec.vtypeLegal v → Spec.vtypeReady s v → ∃ t, exec i s = .next t ∧ CoreBecomes s t s.cur
      (k.setCtx s.curCtx (if reads then (k.ctx s.curCtx).setX o.d old else k.ctx s.curCtx).advance)) ∧
    (Spec.vtypeLegal v → ¬Spec.vtypeReady s v → exec i s = .next s) ∧
    (¬Spec.vtypeLegal v →
      exec i s = .next (takeTrap { cause := .fmtbad, sinfo := (headOf i).toNat + (v.extractLsb' 0 5).toNat * 2 ^ 16 + 2 ^ 21 } s))

/-- R137, R140, R141, R217, R218: SLIP writes SLIPCFG; QSYNC completes when nothing is queued and waits until then; GANG without queued work
gives 0 and locks a block of idle live cores, each following the caller and owned by no ASID, 1 for an occupied block, 2 for one that
is not live and whole, 3 in the A context, whatever the U context holds, or in a gang already; UNGANG outside a gang changes nothing. -/
def Sys2Proof.Rule.VectorControl : Prop :=
  ∀ (s : State), (Spec.strandHere s →
    (∀ o : LI16, Issues (.slip o) s → ∃ t, exec (.slip o) s = .next t ∧ let k := s.meNext
      CoreBecomes s t s.cur { k with u := { k.u with slipcfg := o.imm &&& 0x3F3F } }) ∧
    (Issues .qsync s → (s.me.queue = [] → ∃ t, exec .qsync s = .next t ∧ MovesTo s t s.cx.nextPc) ∧
      (s.me.queue ≠ [] → exec .qsync s = .next s)) ∧
    (Issues .ungang s → s.me.queue = [] → (∀ n, s.me.gang ≠ .leader n) → ∃ t, exec .ungang s = .next t ∧ MovesTo s t s.cx.nextPc) ∧
    (∀ n, Issues .ungang s → s.me.queue = [] → s.me.gang = .leader n → ∃ t, exec .ungang s = .next t ∧ (t.core s.cur).gang = .none ∧
      t.cx.pc = s.cx.nextPc)) ∧
    ∀ o : LH, Issues (.gang o) s → Spec.mapped s → s.me.queue = [] → let n := 2 ^ (o.f.toNat % 4)
      let block := (List.range n).map (fun j => s.cur / n * n + j)
      let busy := ∃ f ∈ block, f ≠ s.cur ∧ ((s.core f).uWork ≠ .empty ∨ s.heldFor f = true ∨ (s.core f).gang ≠ .none)
      let broken := ∃ f ∈ block, s.live f = false ∨ (s.core f).retLane ≠ none
      ((s.curCtx = .a ∨ s.me.gang ≠ .none) → ∃ t, exec (.gang o) s = .next t ∧ Returns s t o.d 3) ∧
      (s.curCtx = .u → s.me.gang = .none →
        (busy → ∃ t, exec (.gang o) s = .next t ∧ Returns s t o.d 1) ∧
        (¬busy → broken → ∃ t, exec (.gang o) s = .next t ∧ Returns s t o.d 2) ∧
        (¬busy → ¬broken → ∃ t, exec (.gang o) s = .next t ∧ t.getX o.d = 0 ∧ t.cx.pc = s.cx.nextPc ∧
          (t.core s.cur).gang = .leader n ∧ ∀ f ∈ block, f ≠ s.cur → (t.core f).gang = .follower s.cur ∧ (t.core f).owner = none))

/-- The instructions of major 20 but for GANG, which answers 3 in the A context (R141). -/
def Sys2Proof.Spec.major20 : Instr → Prop
  | .setvl _ | .vsett _ | .vsettx _ | .slip _ | .qsync | .ungang => True
  | _ => False

/-- R224, R382: an instruction of major 20 but GANG in the A context, while the U context holds no strand, raises ILLINS with reason 10. On a core
with a retired lane, the strand's next SETVL, VSETT, VSETTX or GANG waits for the queued vector work, then remaps the core to 15 lanes, register
bits above the new VLMAX and the lane's slice reading zero, and acts on the remapped core. -/
def Sys2Proof.Rule.VectorConfigElse : Prop :=
  ∀ (i : Instr) (s : State), Issues i s →
    (Spec.major20 i → s.curCtx = .a → s.me.uHolds = false →
      exec i s = .next (takeTrap { cause := .illins, sinfo := (headOf i).toNat + 10 * 2 ^ 16 } s)) ∧
    ((∃ o, i = .setvl o) ∨ (∃ o : LI16, i = .vsett o ∧ Spec.vtypeLegal o.imm) ∨
        (∃ o, i = .vsettx o ∧ (s.getX o.a).toNat < 2 ^ 16 ∧ Spec.vtypeLegal ((s.getX o.a).setWidth 16)) ∨ (∃ o, i = .gang o) →
      ∀ lane, s.curCtx = .u → s.me.retLane = some lane → s.me.remapped = false →
      (s.me.queue ≠ [] → exec i s = .next s) ∧ (s.me.queue = [] → exec i s = exec i (Spec.remap s lane)))

/-- SETVL, VSETT and VSETTX, where major 20 traps or waits, and CSR writes of VTYPE: `Rule.VectorConfig`, `Rule.VectorConfigElse` and
`Rule.VtypeCsr` together. That major 20 counts among the vector instructions of R224 is a reading of the model (log 19), as is that the retired
lane's slice reads zero once the core is remapped (log 67). -/
def Obligations.VectorConfig : Prop := Sys2Proof.Rule.VectorConfig ∧ Sys2Proof.Rule.VectorConfigElse ∧ Sys2Proof.Rule.VtypeCsr

/-- SLIP, QSYNC, GANG and UNGANG, as `Rule.VectorControl` says. The precedence of GANG's statuses is a reading of the model (log 43). -/
def Obligations.VectorControl : Prop := Sys2Proof.Rule.VectorControl

namespace Sys2Proof.Spec

/-- R17, R130, R224: vector state lives for the executing context. -/
def vectorLive (s : State) : Prop :=
  s.cx.vtype.extractLsb' 5 3 ≠ 0 ∧ (s.curCtx = .u ∨ (s.me.uHolds = true ∧ s.me.u.vtype.extractLsb' 5 3 ≠ 0))

/-- R76: vl_of(L), at the width of VTYPE.EW. -/
def vl (s : State) (l : BitVec 5) : Nat := lengthOf s s.cx.vtype (if l = 0 then 2 ^ 64 else (s.getX l).toNat)

/-- EF of VTYPE, and its width in bits. -/
def ef (s : State) : Nat := (s.cx.vtype.extractLsb' 0 5).toNat
def ew (s : State) : Nat := widthOf s.cx.vtype

/-- R41, R132: the rounding mode that VRM, or FRM when VRM is 0, selects is one of the five. -/
def modeOk (s : State) : Prop :=
  if s.cx.vtype.extractLsb' 11 3 = 0 then s.cx.frm.toNat < 5 else (s.cx.vtype.extractLsb' 11 3).toNat ≤ 5

/-- R142: a floating EF; a saturate bit only with binary8; a mode when a rounding into an IEEE or binary8 format takes one. -/
def floatOk (s : State) (sat rounds : Bool) : Prop :=
  isFloating (ef s) = true ∧ (sat = true → isB8 (ef s) = true) ∧ (rounds = true → (isIeee (ef s) || isB8 (ef s)) = true → modeOk s)

/-- The scalar that F[6], or F16[2], puts in place of v[B]. -/
def scalarB (s : State) (isX : Bool) (b : BitVec 5) : Captured := if isX then { op1 := s.getX b } else {}

/-- R148, R149: base, format, width and alignment of a plain or indexed access, and of a notify word. -/
def memoryOk (s : State) (o : LX) (store special : Bool) : Prop :=
  let fc := ((s.getX o.a).extractLsb' 59 5).toNat
  let bytes := if fc = 0 then ew s / 8 else if fc = 30 then 1 else fmtWidth fc / 8
  let base := ((s.getX o.a).setWidth 56).toNat + o.imm.toInt
  fc ≠ 4 ∧ fc ≠ 29 ∧ fc ≠ 31 ∧ (s.getX o.a).extractLsb' 56 3 = 0 ∧ (fc = 30 → special = false) ∧
    pairOk fc (ef s) (ew s) = true ∧ (transferMode store fc (ef s) (ew s) = true → modeOk s) ∧
    0 ≤ base ∧ base < 2 ^ 56 ∧ base % bytes = 0 ∧ (o.f16.getLsbD 1 = true → ((s.getX o.c).setWidth 56).toNat % 8 = 0)

/-- R151: the same for block-scaled accesses. -/
def scaledOk (s : State) (o : LX) (store : Bool) : Prop :=
  let fc := ((s.getX o.a).extractLsb' 59 5).toNat
  let bytes := if fc = 30 then 1 else fmtWidth fc / 8
  let base := ((s.getX o.a).setWidth 56).toNat + o.imm.toInt
  fc ≠ 0 ∧ fc ≠ 4 ∧ fc ≠ 29 ∧ fc ≠ 31 ∧ (s.getX o.a).extractLsb' 56 3 ≠ 0 ∧
    (s.getX o.a).extractLsb' 56 3 = s.cx.vtype.extractLsb' 8 3 ∧ (s.getX o.b).extractLsb' 56 8 = 0xE8 ∧ isFloating (ef s) = true ∧
    ((if store then (fc = 30 ∨ isIeee fc = true ∨ isB8 fc = true) else (isIeee (ef s) = true ∨ isB8 (ef s) = true)) → modeOk s) ∧
    0 ≤ base ∧ base < 2 ^ 56 ∧ base % bytes = 0 ∧ (o.f16.getLsbD 1 = true → ((s.getX o.c).setWidth 56).toNat % 8 = 0)

/-- R139: base, stride or scale plane, and notify address, in the order in which an entry captures them. -/
def memoryOps (s : State) (o : LX) (second : Bool) : Captured :=
  let n := if o.f16.getLsbD 1 then s.getX o.c else 0
  if second then { op1 := s.getX o.a, op2 := s.getX o.b, op3 := n } else { op1 := s.getX o.a, op2 := n }

/-- VFCVT's source and target (R143): code 0 is an integer of F16[11:10]'s width. -/
def cvtSrc (o : LX) : Nat := (o.f16.extractLsb' 0 5).toNat
def cvtTgt (o : LX) : Nat := (o.f16.extractLsb' 5 5).toNat
def cvtBits (o : LX) (fc : Nat) : Nat := if fc = 0 then 8 * 2 ^ (o.f16.extractLsb' 10 2).toNat else fmtWidth fc

/-- The length of VFCVT and of an indexed access is limited by the wider of their element widths (R143, R149). -/
def vlAt (s : State) (l : BitVec 5) (w : Nat) : Nat := s.vlOfAt l w

/-- The width of an index (R149). -/
def indexBits (s : State) (o : LX) : Nat :=
  let i := (o.f16.extractLsb' 3 2).toNat
  if i = 0 then ew s else if i = 1 then 16 else if i = 2 then 32 else 64

/-- R132, R139, R142 to R153: what each queued vector instruction captures: its length and x operands, and when it is legal. -/
def vector (s : State) : Instr → Option (Nat × Captured × Prop)
  | .vadd o | .vsub o | .vand o | .vor o | .vxor o | .vsll o | .vsrl o | .vsra o | .vmul o | .vmulh o | .vmin o | .vmax o
  | .vsadd o | .vssub o | .vcmp o | .vmerge o | .vredsum o | .vredmax o | .vslide o | .vperm o | .vcompress o | .vexpand o
  | .viota o | .vmov o => some (vl s o.l, scalarB s (o.f.getLsbD 6) o.b, True)
  | .vfadd o | .vfsub o | .vfmul o | .vfdiv o | .vfsqrt o =>
    some (vl s o.l, scalarB s (o.f.getLsbD 6) o.b, floatOk s (o.f.getLsbD 0) true)
  | .vfmin o | .vfmax o | .vfcmp o | .vfredmax o => some (vl s o.l, scalarB s (o.f.getLsbD 6) o.b, floatOk s false false)
  | .vfredsum o => some (vl s o.l, scalarB s (o.f.getLsbD 6) o.b, floatOk s false true)
  | .vfma o | .vfnma o | .vfscale o => some (vl s o.l, scalarB s (o.f16.getLsbD 2) o.b, floatOk s (o.f16.getLsbD 0) true)
  | .vfclass o => some (vl s o.l, scalarB s (o.f16.getLsbD 2) o.b, floatOk s false false)
  | .vfsgn o => some (vl s o.l, scalarB s (o.f16.getLsbD 2) o.b, floatOk s false false ∧ ¬(22 ≤ ef s ∧ ef s ≤ 28))
  | .vfcvt o => some (vlAt s o.l (max (cvtBits o (cvtSrc o)) (cvtBits o (cvtTgt o))), {},
      cvtSrc o ≠ 4 ∧ cvtSrc o < 29 ∧ cvtTgt o ≠ 4 ∧ cvtTgt o < 29 ∧ ¬(cvtSrc o = 0 ∧ cvtTgt o = 0) ∧
      ((cvtTgt o = 0 ∨ (cvtSrc o ≠ cvtTgt o ∧ (isIeee (cvtTgt o) || isB8 (cvtTgt o)) = true)) → modeOk s))
  | .mand o | .mor o | .mxor o | .mandn o | .mnot o | .msbf o => some (vl s (o.f.extractLsb' 0 5), {}, True)
  | .vsplat o => some (vl s o.l, { op1 := s.getX o.a }, True)
  | .vins o => some (vl s 0, { op1 := s.getX o.a, op2 := s.getX o.b }, True)
  | .vld o => some (vl s o.l, memoryOps s o (o.f16.getLsbD 0), memoryOk s o false (o.f16.getLsbD 0) ∧
      (o.f16.getLsbD 0 = true → (s.getX o.b).toInt % memBytes ((s.getX o.a).extractLsb' 59 5).toNat (ew s) = 0))
  | .vst o => some (vl s o.l, memoryOps s o (o.f16.getLsbD 0), memoryOk s o true (o.f16.getLsbD 0) ∧
      (o.f16.getLsbD 0 = true → (s.getX o.b).toInt % memBytes ((s.getX o.a).extractLsb' 59 5).toNat (ew s) = 0))
  | .vldx o => some (min (vl s o.l) (vlmax s (indexBits s o)), memoryOps s o false, memoryOk s o false true)
  | .vstx o => some (min (vl s o.l) (vlmax s (indexBits s o)), memoryOps s o false, memoryOk s o true true)
  | .vlds o => some (vl s o.l, memoryOps s o true, scaledOk s o false)
  | .vsts o => some (vl s o.l, memoryOps s o true, scaledOk s o true)
  | .mld o | .mst o => some (vl s o.l, { op1 := s.getX o.a },
      0 ≤ ((s.getX o.a).setWidth 56).toNat + o.imm.toInt ∧ ((s.getX o.a).setWidth 56).toNat + o.imm.toInt < 2 ^ 56)
  | .vldl o | .vstl o => some (vl s o.l, { op1 := s.getX o.a }, o.f16.getLsbD 0 = false →
      0 ≤ ((s.getX o.a).setWidth 56).toNat + o.imm.toInt ∧ ((s.getX o.a).setWidth 56).toNat + o.imm.toInt < 2 ^ 56)
  | _ => none

/-- R128, R135, R155, R255: its queue has room, no queued short matrix instruction reads a register that it writes, and it does not access
memory while a WREAD of the context is pending. -/
def room (s : State) (i : Instr) : Prop :=
  s.me.queueFull i = false ∧ (∀ e ∈ s.me.mq, meets (mqReads e.instr) (entryWrites i) = false) ∧
    (entryClass i ≠ none → ∀ o ∈ s.ops, o.ctx = s.curCtx → o.asid = s.cx.as → o.sid = s.cx.sid → o.ended = none → ∀ va, o.kind ≠ .wread va)

/-- R132: VTYPE as captured, VRM 0 replaced by FRM + 1. -/
def captured (s : State) : BitVec 16 :=
  if s.cx.vtype.extractLsb' 11 3 = 0 then (s.cx.vtype &&& 0xC7FF) ||| (BitVec.ofNat 16 (min 7 (s.cx.frm.toNat + 1)) <<< 11) else s.cx.vtype

end Sys2Proof.Spec

/-- R95, R129 to R132, R135, R139, R142 to R153: a legal vector instruction of majors 21 to 29, while vector state lives and its queue has room,
completes for the scalar pipe by joining the queue with its PC, VTYPE, length, LSKEW, SLIPCFG and x operands; nothing else changes. -/
def Sys2Proof.Rule.VectorIssue : Prop :=
  ∀ (i : Instr) (s : State) (n : Nat) (c : Captured) (legal : Prop), Spec.vector s i = some (n, c, legal) → Issues i s →
    Spec.vectorLive s → legal → Spec.room s i →
    ∃ t, exec i s = .next t ∧ CoreBecomes s t s.cur { s.meNext with queue := s.me.queue ++
      [{ instr := i, pc := s.cx.pc, ctx := s.curCtx, vtype := Spec.captured s, vl := n, lskew := s.me.lskew,
         slip := s.me.u.slipcfg, replay := false, op1 := c.op1, op2 := c.op2, op3 := c.op3, done := false }] }

/-- R130, R224: with VTYPE.EW 0 a queued vector instruction of the U context raises FMTBAD with EF and source 1; one of the A context, while
the U context holds no strand, raises ILLINS with reason 10. -/
def Sys2Proof.Rule.VectorDead : Prop :=
  ∀ (i : Instr) (s : State) (x : Nat × Captured × Prop), Spec.vector s i = some x → Issues i s →
    (s.curCtx = .u → s.cx.vtype.extractLsb' 5 3 = 0 → exec i s =
      .next (takeTrap { cause := .fmtbad, sinfo := (headOf i).toNat + Spec.ef s * 2 ^ 16 + 2 ^ 21 } s)) ∧
    (s.curCtx = .a → s.me.uHolds = false →
      exec i s = .next (takeTrap { cause := .illins, sinfo := (headOf i).toNat + 10 * 2 ^ 16 } s))

/-- Issue of every queued vector instruction: `Rule.VectorIssue` and `Rule.VectorDead` together. -/
def Obligations.VectorIssue : Prop := Sys2Proof.Rule.VectorIssue ∧ Sys2Proof.Rule.VectorDead

/-- R145, R146: VMOVX gives x[D] element x[B] of v[A], zero- or sign-extended, 0 when there is none; MPOP counts the bits of m[A] below the
length, MFIRST gives the lowest set one or all ones; they wait for nothing when no vector work is queued and read no poison. -/
def Obligations.VectorToScalar : Prop :=
  ∀ (s : State), Spec.vectorLive s → s.me.queue = [] → s.me.regPoison = [] →
    (∀ o, Issues (.vmovx o) s → let w := Spec.ew s
      let j := (s.getX o.b).toNat
      let v := (s.me.v[o.a.toNat]'o.a.isLt).extractLsb' (j * w) w
      ∃ t, exec (.vmovx o) s = .next t ∧ Returns s t o.d
        (if Spec.vlmax s w ≤ j then 0 else if o.f.getLsbD 0 then v.setWidth 64 else v.signExtend 64)) ∧
    (∀ o, Issues (.mpop o) s → ∃ t, exec (.mpop o) s = .next t ∧ Returns s t o.d
      (BitVec.ofNat 64 ((List.range (Spec.vl s (o.f.extractLsb' 0 5))).filter (fun j => s.me.mBit o.a.toNat j)).length)) ∧
    (∀ o, Issues (.mfirst o) s → ∃ t, exec (.mfirst o) s = .next t ∧ Returns s t o.d
      (match (List.range (Spec.vl s (o.f.extractLsb' 0 5))).find? (fun j => s.me.mBit o.a.toNat j) with
        | some j => BitVec.ofNat 64 j
        | none => BitVec.allOnes 64))

namespace Sys2Proof.Spec

/-- R142: the integer operations on two elements of w bits. -/
def intOp (w : Nat) : Instr → Option (LV × (BitVec w → BitVec w → BitVec w))
  | .vadd o => some (o, (· + ·))
  | .vsub o => some (o, (· - ·))
  | .vand o => some (o, (· &&& ·))
  | .vor o => some (o, (· ||| ·))
  | .vxor o => some (o, (· ^^^ ·))
  | .vsll o => some (o, fun a b => a <<< (b.toNat % w))
  | .vsrl o => some (o, fun a b => a >>> (b.toNat % w))
  | .vsra o => some (o, fun a b => a.sshiftRight (b.toNat % w))
  | .vmul o => some (o, (· * ·))
  | .vmulh o => some (o, fun a b =>
      if o.f.extractLsb' 0 2 = 0 then BitVec.ofInt w (a.toInt * b.toInt / 2 ^ w)
      else if o.f.extractLsb' 0 2 = 1 then BitVec.ofNat w (a.toNat * b.toNat / 2 ^ w)
      else BitVec.ofInt w (a.toInt * b.toNat / 2 ^ w))
  | .vmin o => some (o, fun a b => if (if o.f.getLsbD 0 then a.toNat ≤ b.toNat else a.toInt ≤ b.toInt) then a else b)
  | .vmax o => some (o, fun a b => if (if o.f.getLsbD 0 then a.toNat ≤ b.toNat else a.toInt ≤ b.toInt) then b else a)
  | .vsadd o => some (o, fun a b => if o.f.getLsbD 0 then BitVec.ofNat w (min (a.toNat + b.toNat) (2 ^ w - 1))
      else BitVec.ofInt w (max (-(2 ^ (w - 1))) (min (a.toInt + b.toInt) (2 ^ (w - 1) - 1))))
  | .vssub o => some (o, fun a b => if o.f.getLsbD 0 then BitVec.ofNat w (a.toNat - b.toNat)
      else BitVec.ofInt w (max (-(2 ^ (w - 1))) (min (a.toInt - b.toInt) (2 ^ (w - 1) - 1))))
  | _ => none

/-- Element j of v[r] at w bits, of core c. -/
def vElem (s : State) (c : Nat) (r : BitVec 5) (w j : Nat) : BitVec w := ((s.core c).v[r.toNat]'r.isLt).extractLsb' (j * w) w

/-- R75, R130: element j is active under MK. -/
def active (s : State) (c : Nat) (mk : BitVec 4) (j : Nat) : Bool := mk = 0 || (s.core c).mBit (mk.toNat - 1) j

end Sys2Proof.Spec

/-- R130, R136, R142: VECTOR_ENTRY_EXECUTE of an integer instruction at the head of a core's queue, while no occupant change zeroes (R335), writes each active element below its
length with the operation of the table on elements of v[A] and v[B], or the captured scalar; inactive elements and those from the length
on, the other registers, the masks, both contexts and memory keep their values, and the entry leaves the queue. -/
def Obligations.VectorIntegerResult : Prop :=
  ∀ (s : State) (c w : Nat) (e : VEntry) (rest : List VEntry) (o : LV) (f : BitVec w → BitVec w → BitVec w),
    (s.core c).queue = e :: rest → e.done = false → (∀ q ∈ rest, q.done = false) → (s.core c).vfault = none →
    (s.core c).zeroing = false → s.blocked = false → (s.core c).regPoison = [] → Spec.intOp w e.instr = some (o, f) → w = Spec.widthOf e.vtype →
    0 < w → e.vl * w ≤ 32768 →
    ∃ t, exec (.vectorEntryExecute c 0) s = .next t ∧ OnlyCore s t c ∧ SameBytes s t ∧
      (∀ j, (j + 1) * w ≤ 32768 → Spec.vElem t c o.d w j =
        if j < e.vl ∧ Spec.active s c o.msk j then
          f (Spec.vElem s c o.a w j) (if o.f.getLsbD 6 then e.op1.setWidth w else Spec.vElem s c o.b w j)
        else Spec.vElem s c o.d w j) ∧
      (∀ r : BitVec 5, r ≠ o.d → (t.core c).v[r.toNat]'r.isLt = (s.core c).v[r.toNat]'r.isLt) ∧
      { t.core c with v := (s.core c).v, queue := e :: rest } = s.core c

/-! ### Matrix instructions (R154 to R170) -/

namespace Sys2Proof.Spec

/-- R17, R154, R224: matrix work may issue; `names` when the instruction names v registers. -/
def matrixLive (s : State) (names : Bool) : Prop :=
  (s.curCtx = .u ∨ (s.me.uHolds = true ∧ (names = true → s.me.u.vtype.extractLsb' 5 3 ≠ 0))) ∧
    (names = true → s.cx.vtype.extractLsb' 5 3 ≠ 0)

/-- R157, R158: operand format code in F16[6:2] and accumulator format in F16[1:0] pair up. -/
def pairLegal (f16 : BitVec 16) : Prop :=
  let of := (f16.extractLsb' 2 5).toNat
  of ≠ 4 ∧ of < 29 ∧ (of = 0 ↔ f16.extractLsb' 0 2 = 2)

/-- R155, R160, R167, R168, R170: the captured x operands of each short instruction, whether it names v registers, when it is legal. -/
def short (s : State) : Instr → Option (Word × Word × Bool × Prop)
  | .ranka o | .ranks o => some (0, 0, true, pairLegal o.f16)
  | .mwr o => some (s.getX o.b, 0, true, pairLegal o.f16)
  | .mrowacc o => some (s.getX o.b, s.getX o.c, true, pairLegal o.f16)
  | .mzero _ => some (0, 0, false, True)
  | .mdrop _ => some (0, 0, false, True)
  | _ => none

/-- Element (r, j) of ac[d] of core c. -/
def acElem (s : State) (c : Nat) (d : BitVec 5) (r j : Nat) : Nat := accWord ((s.core c).acc d.toNat) r j

end Sys2Proof.Spec

/-- R154, R155, R160, R167, R168, R170: a legal short matrix instruction, while MQ has fewer than 8 entries in flight, no queued vector
instruction writes a register that it reads, and no register holds poison, completes for the scalar pipe by joining MQ; MSTAT reads
liveness, ownership, entries in flight and the last join; MWAIT goes on when the context has no short entry, and waits until then. -/
def Obligations.MatrixIssue : Prop :=
  ∀ (s : State),
    (∀ i a b names legal, Spec.short s i = some (a, b, names, legal) → Issues i s → Spec.matrixLive s names → legal →
      s.me.mq.length + (if s.me.long = none then 0 else 1) < 8 → s.me.regPoison = [] →
      (∀ e ∈ s.me.queue, e.done = true ∨ meets (entryWrites e.instr) (mqReads i) = false) →
      ∃ t, exec i s = .next t ∧
        CoreBecomes s t s.cur { s.meNext with mq := s.me.mq ++ [{ instr := i, ctx := s.curCtx, op1 := a, op2 := b }] }) ∧
    (∀ o, Issues (.mstat o) s → Spec.matrixLive s false → ∃ t, exec (.mstat o) s = .next t ∧ Returns s t o.d (BitVec.ofNat 64
      ((if s.me.lastJoined then 2 ^ 13 else 0) + min 8 (s.me.mq.length + (if s.me.long = none then 0 else 1)) * 2 ^ 8 +
        (match s.me.long with | some l => 2 ^ (l.acc % 4) | none => 0) * 2 ^ 4 + s.me.acLive.toNat))) ∧
    (Issues .mwait s → Spec.matrixLive s false →
      ((∀ e ∈ s.me.mq, e.ctx ≠ s.curCtx) → ∃ t, exec .mwait s = .next t ∧ MovesTo s t s.cx.nextPc) ∧
      ((∃ e ∈ s.me.mq, e.ctx = s.curCtx) → exec .mwait s = .next s))

/-- R63 to R66, R155, R160, R167, R168, R170: MATRIX_ENTRY_EXECUTE carries out the oldest short entry, which leaves MQ: RANKA and RANKS
add or subtract the outer product at every element, MZERO zeroes, MWR and MROWACC write row x[B] mod 64, MDROP ends liveness; the other
accumulators, v, m, the queue and memory keep their values. -/
def Sys2Proof.Rule.MatrixEntryResult : Prop :=
  ∀ (s : State) (c : Nat) (e : MEntry) (rest : List MEntry), (s.core c).mq = e :: rest →
    let el (m : MFmt) (r : BitVec 5) (j : Nat) := (s.core c).vElem r.toNat m.w j
    let done (d : BitVec 5) (t : State) := OnlyCore s t c ∧ SameBytes s t ∧ (t.core c).mq = rest ∧ (t.core c).v = (s.core c).v ∧
      (t.core c).m = (s.core c).m ∧ (t.core c).queue = (s.core c).queue ∧ ∀ d' : BitVec 5, d'.toNat % 4 ≠ d.toNat % 4 →
        (t.core c).acc d'.toNat = (s.core c).acc d'.toNat
    (∀ o : LX, (e.instr = .ranka o ∨ e.instr = .ranks o) → let m := mfmt o.f16
      ∃ t, exec (.matrixEntryExecute c) s = .next t ∧ done o.d t ∧ (t.core c).acLive.getLsbD (o.d.toNat % 4) = true ∧
        ∀ r j, r < 64 → j < 64 → Spec.acElem t c o.d r j = (m.mac (Spec.acElem s c o.d r j) (decide (e.instr = .ranks o))
          (if m.w = 8 then [(el m o.a (2 * r), el m o.b (2 * j)), (el m o.a (2 * r + 1), el m o.b (2 * j + 1))]
            else [(el m o.a r, el m o.b j)])).1 % 2 ^ 32) ∧
    (∀ o, e.instr = .mzero o → ∃ t, exec (.matrixEntryExecute c) s = .next t ∧ done o.d t ∧
      (t.core c).acc o.d.toNat = 0 ∧ (t.core c).acLive.getLsbD (o.d.toNat % 4) = true) ∧
    (∀ o, e.instr = .mdrop o → (s.core c).long = none → ∃ t, exec (.matrixEntryExecute c) s = .next t ∧ done o.d t ∧
      (t.core c).acc o.d.toNat = 0 ∧ (t.core c).acLive.getLsbD (o.d.toNat % 4) = false) ∧
    (∀ o : LX, e.instr = .mwr o → let m := mfmt o.f16
      let row := (e.op1.extractLsb' 0 6).toNat
      ∃ t, exec (.matrixEntryExecute c) s = .next t ∧ done o.d t ∧ ∀ r j, r < 64 → j < 64 → Spec.acElem t c o.d r j =
        if r = row then (m.load (el m o.a j)).1 % 2 ^ 32 else Spec.acElem s c o.d r j) ∧
    (∀ o : LX, e.instr = .mrowacc o → let m := mfmt o.f16
      let row := (e.op1.extractLsb' 0 6).toNat
      ∃ t, exec (.matrixEntryExecute c) s = .next t ∧ done o.d t ∧ ∀ r j, r < 64 → j < 64 → Spec.acElem t c o.d r j =
        if r = row then (m.mac (Spec.acElem s c o.d r j) m.subt [(e.op2.toNat % 2 ^ m.w, el m o.a j)]).1 % 2 ^ 32
        else Spec.acElem s c o.d r j)

namespace Sys2Proof.Spec

/-- R157, R159: the integer operands and accumulator of a step: AF 2, width 8, 16 or 32, F16[8] unsigned. -/
def intOperand (f16 : BitVec 16) (c : Nat) : Int :=
  let w := 8 * 2 ^ (f16.extractLsb' 12 2).toNat
  if f16.getLsbD 8 then (c % 2 ^ w : Nat) else (BitVec.ofNat w c).toInt

end Sys2Proof.Spec

/-- R159, R160: an integer rank-one step wraps the old element plus or minus the products at 32 bits, and raises no flag. -/
def Sys2Proof.Rule.IntegerStep : Prop :=
  ∀ (f16 : BitVec 16) (old : Nat) (negate : Bool) (ps : List (Nat × Nat)), f16.extractLsb' 0 2 = 2 → f16.extractLsb' 2 5 = 0 → old < 2 ^ 32 →
    let p := (ps.map (fun (a, b) => Spec.intOperand f16 a * Spec.intOperand f16 b)).sum
    (mfmt f16).mac old negate ps = ((BitVec.ofNat 32 old + (if negate then -(BitVec.ofInt 32 p) else BitVec.ofInt 32 p)).toNat, 0)

/-- What a short matrix instruction does to its accumulator: `Rule.MatrixEntryResult` and `Rule.IntegerStep` together. -/
def Obligations.MatrixEntryResult : Prop := Sys2Proof.Rule.MatrixEntryResult ∧ Sys2Proof.Rule.IntegerStep

/-- R155, R166: MRD, while nothing is queued and no register holds poison, writes 64 converted elements of a row of ac[A] into v[D] and
the steps that the owning MOPAK has done, or all ones, into x[B + 1]. That a 32-bit integer row is read unchanged is a reading of the
model (log 20). -/
def Obligations.MatrixRead : Prop :=
  ∀ (s : State) (o : LX), let m := mfmt o.f16
    Issues (.mrd o) s → Spec.matrixLive s true → Spec.pairLegal o.f16 → s.cx.frm.toNat < 5 → s.me.mq = [] → s.me.queue = [] →
    s.me.regPoison = [] → let row := ((s.getX o.b).extractLsb' 0 6).toNat
    ∃ t, exec (.mrd o) s = .next t ∧ OnlyCore s t s.cur ∧ SameBytes s t ∧ t.cx.pc = s.cx.nextPc ∧
      (∀ j, j < 64 → t.me.vElem o.d.toNat m.w j = (m.read s.cx.frm.toNat (Spec.acElem s s.cur o.a row j)).1 % 2 ^ m.w) ∧
      (∀ r, r ≠ o.b + 1 → t.getX r = s.getX r) ∧ (o.b + 1 ≠ 0 → t.getX (o.b + 1) = match s.me.long with
        | some l => if l.kind = 0 ∧ l.acc = o.a.toNat then BitVec.ofNat 64 l.next else BitVec.allOnes 64
        | none => BitVec.allOnes 64)

/-- R155, R161, R164, R165: MOPAK with panels in the issuing core's own scratchpad takes its accumulator as its own when it begins; each
step adds or subtracts the outer product of the panels' next column and row at every element of it, two of each with 8-bit elements, and the
last step ends the instruction and clears MSTART; no byte of memory changes. -/
def Sys2Proof.Rule.PanelSteps : Prop :=
  ∀ (s : State) (o : LX) (ka kb : Nat), let m := mfmt o.f16
    let total := ((s.getX o.c).extractLsb' 0 16).toNat
    let n := if m.w = 8 then 128 else 64 * (m.w / 8)
    Issues (.mopak o) s → s.curCtx = .u → Spec.pairLegal o.f16 → s.me.regPoison = [] → o.f16.getLsbD 10 = false →
    Spec.opAddr s o.a = 0xFF * 2 ^ 48 + ka → Spec.opAddr s o.b = 0xFF * 2 ^ 48 + kb → ka < 2 ^ 40 → kb < 2 ^ 40 →
    (s.me.long = none → s.me.mq = [] → Spec.unordered s → ka % 64 = 0 → kb % 64 = 0 → 0 < total → s.me.u.mstart = 0 →
      ka + n * total ≤ spadSize (s.cls s.cur) - 0x2000 → kb + n * total ≤ spadSize (s.cls s.cur) - 0x2000 → s.live s.cur = true →
      Spec.granted s (s.who .load .r) ka (n * total) → Spec.granted s (s.who .load .r) kb (n * total) →
      ∃ t, exec (.mopak o) s = .next t ∧
        CoreBecomes s t s.cur { s.me with
          lastJoined := false, long := some { kind := 0, acc := o.d.toNat, next := 0, mcKey := [], panels := [s.cur, s.cur] } }) ∧
    ∀ l, s.me.long = some l → l.kind = 0 → l.acc = o.d.toNat → l.next < total →
      s.mem.poisoned ((Loc.spad s.cur ka).key + n * l.next) n = false → s.mem.poisoned ((Loc.spad s.cur kb).key + n * l.next) n = false →
      let a := s.mem.read ((Loc.spad s.cur ka).key + n * l.next) n
      let b := s.mem.read ((Loc.spad s.cur kb).key + n * l.next) n
      let el (x j : Nat) := x / 2 ^ (j * m.w) % 2 ^ m.w
      ∃ t, exec (.mopak o) s = .next t ∧ OnlyCore s t s.cur ∧ SameBytes s t ∧
        (∀ r j, r < 64 → j < 64 → Spec.acElem t s.cur o.d r j = (m.mac (Spec.acElem s s.cur o.d r j) (o.f16.getLsbD 11)
          (if m.w = 8 then [(el a r, el b j), (el a (64 + r), el b (64 + j))] else [(el a r, el b j)])).1 % 2 ^ 32) ∧
        (l.next + 1 < total → t.me.long = some { l with next := l.next + 1 } ∧ t.cx.pc = s.cx.pc) ∧
        (l.next + 1 = total → t.me.long = none ∧ t.cx.pc = s.cx.nextPc ∧ t.me.u.mstart = 0)

/-- R155, R164, R169: MSTA and MLDA with FC 0 take their accumulator as their own when they begin; each row of theirs moves 64 words between
the accumulator and a place of local memory, all or nothing; the last row ends the instruction and clears MSTART. -/
def Sys2Proof.Rule.RowMoves : Prop :=
  ∀ (s : State) (o : LX) (store : Bool) (i : Instr), i = (if store then .msta o else .mlda o) → Issues i s → s.curCtx = .u →
    (s.getX o.a).extractLsb' 56 8 = 0 → (o.f16.extractLsb' 0 2 = 2 ∨ o.f16.getLsbD 9 = false) → s.me.regPoison = [] →
    let base := ((s.getX o.a).setWidth 56).toNat + o.imm.toInt
    let stride := (s.getX o.b).toInt
    let total := min (s.getX o.c).toNat 64
    let kind : AKind := if store then .store else .load
    let code := if store then 1 else 2
    (s.me.long = none → s.me.mq = [] → Spec.unordered s → 0 ≤ base → base < 2 ^ 56 → base % 4 = 0 → stride % 4 = 0 →
      s.me.u.mstart = 0 → 0 < total → ∃ t, exec i s = .next t ∧ OnlyCore s t s.cur ∧ SameBytes s t ∧ t.cx.pc = s.cx.pc ∧
        t.me.long = some { kind := code, acc := o.d.toNat, next := 0, mcKey := [], panels := [] } ∧ t.me.ac = s.me.ac ∧
        t.me.acLive = s.me.acLive) ∧
    ∀ (l : LongOp) (key : Nat), s.me.long = some l → l.kind = code → l.acc = o.d.toNat → l.next < total →
      s.hasPins (.row s.cur) = false →
      (∀ j : Nat, j < 64 → let va := base + stride * l.next + 4 * j
        0 ≤ va ∧ va < 2 ^ 56 ∧ s.mem.poisoned (key + 4 * j) 4 = false ∧ s.cxlDeadIn (key + 4 * j) 4 = false ∧
        s.access { s.who kind (if store then .w else .r) with row := true, pinBy := some (.row s.cur) } va.toNat 4 =
          .ok (s, { key := key + 4 * j, typ := 8, siteOff := none, home := 0, page := 0, big := false })) →
      ∃ t, exec i s = .next t ∧ OnlyCore { s with mem := t.mem } t s.cur ∧
        (l.next + 1 < total → t.me.long = some { l with next := l.next + 1 } ∧ t.cx.pc = s.cx.pc) ∧
        (l.next + 1 = total → t.me.long = none ∧ t.cx.pc = s.cx.nextPc ∧ t.me.u.mstart = 0) ∧
        (store = true → (∀ j, j < 64 → t.mem.read (key + 4 * j) 4 = Spec.acElem s s.cur o.d l.next j) ∧
          SameBytesOutside s t key 256 ∧ t.me.ac = s.me.ac) ∧
        (store = false → SameBytes s t ∧ ∀ r j, r < 64 → j < 64 → Spec.acElem t s.cur o.d r j =
          if r = l.next then s.mem.read (key + 4 * j) 4 else Spec.acElem s s.cur o.d r j)

/-- Steps of MOPAK, and rows of MSTA and MLDA: `Rule.PanelSteps` and `Rule.RowMoves` together. That a step or row is whole is a reading of
the model (log 12), as is the layout of an 8-bit panel's step (log 42). -/
def Obligations.PanelSteps : Prop := Sys2Proof.Rule.PanelSteps ∧ Sys2Proof.Rule.RowMoves

/-! ### References (R14, R171 to R181, R343) -/

namespace Sys2Proof.Spec

/-- The current core with q[d] written and its executing context at next_pc. -/
def qNext (s : State) (d : BitVec 5) (v : Word) : Core := s.me.setCtx s.curCtx (s.cx.setQ d v).advance

/-- R171: bit 63 set, bits 61:56 and 2:0 zero. -/
def isRef (v : Word) : Prop := v.getLsbD 63 = true ∧ v.extractLsb' 56 6 = 0 ∧ v.extractLsb' 0 3 = 0

/-- A reference of the phase's colour is current (R172). -/
def current (s : State) (v : Word) : Prop := v.getLsbD 62 = s.phase

/-- The address of a reference. -/
def refAddr (v : Word) : Nat := (v.setWidth 56).toNat

end Sys2Proof.Spec

/-- What remains when a trap follows changes that are kept: the trap is taken from them, or waits until it may be taken (`trapWaits`), and the
instruction is then met again from the start. -/
def Sys2Proof.Spec.trapsAfter (s t : State) (x : Trap) : State := if t.trapWaits x then s.readied x else takeTrap x t

/-- R172, R343: heal leaves a reference of the current colour as it is; one of the other colour becomes a reference of the current colour
to the header's copy when the cycle has copied it, and to the same header when the cycle does not list it or has skipped it, once the page is
of managed type; a page of another type raises MHREF with reason 3; an object that the cycle has still to copy is copied first. (`blocked`, a
mark of the model's own that every step clears, is down: log 70.) -/
def Sys2Proof.Rule.HealRule : Prop :=
  ∀ (s : State) (r : Word), Spec.isRef r → s.blocked = false →
    (Spec.current s r → heal s r = .ok (s, r)) ∧
    (¬Spec.current s r → ∀ n, ((s.fwdOf s.cx.as (Spec.refAddr r) = none ∧ n = Spec.refAddr r) ∨
        (∃ c m, s.fwdOf s.cx.as (Spec.refAddr r) = some (c, m, .skipped) ∧ n = Spec.refAddr r) ∨
        ∃ c, s.fwdOf s.cx.as (Spec.refAddr r) = some (c, n, .copied)) → n < 2 ^ 56 →
      (∀ t e, s.managedPage (s.who .heal .look) n = .ok (t, e) → heal s r =
        .ok (t, BitVec.ofNat 64 (2 ^ 63 + (if s.phase then 2 ^ 62 else 0) + n))) ∧
      (∀ t e, isLocal n = false → s.lookPage (s.who .heal .look) n = .ok (t, e) → leafType e.leaf.toNat ≠ 3 →
        heal s r = .error (.trapIn { cause := .mhref, saddr := n, sinfo := 3 } t))) ∧
    (¬Spec.current s r → ∀ c new, s.fwdOf s.cx.as (Spec.refAddr r) = some (c, new, .pending) → new < 2 ^ 56 →
      (s.relocate c (Spec.refAddr r) new = none → heal s r = .error .stall) ∧
      ∀ u t e n, s.relocate c (Spec.refAddr r) new = some u → u.blocked = false →
        n = (if (u.fwdOf s.cx.as (Spec.refAddr r)).map (·.2.2) = some .copied then new else Spec.refAddr r) →
        u.managedPage (s.who .heal .look) n = .ok (t, e) → heal s r =
          .ok (t, BitVec.ofNat 64 (2 ^ 63 + (if s.phase then 2 ^ 62 else 0) + n)))

/-- R174, R180: QMOV completes with q[A]; QCVT to a reference gives null for zero, a well-formed value on a managed page as it is, and MHREF
for the rest; REFEQ of two references compares what they name, after the heal of each that is stale. -/
def Sys2Proof.Rule.ReferenceMoves : Prop :=
  ∀ (s : State),
    (∀ o, Issues (.qmov o) s → ∃ t, exec (.qmov o) s = .next t ∧ CoreBecomes s t s.cur (Spec.qNext s o.d (s.getQ o.a))) ∧
    (∀ o, Issues (.qcvtToRef o) s → let v := s.getX o.a
      (v = 0 → ∃ t, exec (.qcvtToRef o) s = .next t ∧ CoreBecomes s t s.cur (Spec.qNext s o.d 0)) ∧
      (v ≠ 0 → ¬Spec.isRef v → exec (.qcvtToRef o) s = .next (takeTrap { cause := .mhref, saddr := 0, sinfo := 2 } s)) ∧
      (∀ t e, Spec.isRef v → s.managedPage (s.who .heal .look) (Spec.refAddr v) = .ok (t, e) → ∃ u,
        exec (.qcvtToRef o) s = .next u ∧ CoreBecomes t u t.cur (Spec.qNext t o.d v)) ∧
      (∀ t e, Spec.isRef v → isLocal (Spec.refAddr v) = false → s.lookPage (s.who .heal .look) (Spec.refAddr v) = .ok (t, e) →
        leafType e.leaf.toNat ≠ 3 →
        exec (.qcvtToRef o) s = .next (Spec.trapsAfter s t { cause := .mhref, saddr := Spec.refAddr v, sinfo := 3 }))) ∧
    ∀ o, Issues (.refeq o) s → let a := s.getQ o.a
      let b := s.getQ o.b
      (a = 0 ∨ b = 0 → ∃ t, exec (.refeq o) s = .next t ∧ Returns s t o.d (if a = b then 1 else 0)) ∧
      (a ≠ 0 → b ≠ 0 → Spec.current s a → Spec.current s b → ∃ t, exec (.refeq o) s = .next t ∧
        Returns s t o.d (if Spec.refAddr a = Spec.refAddr b then 1 else 0)) ∧
      ∀ t ra u rb, a ≠ 0 → b ≠ 0 → heal s a = .ok (t, ra) → let t1 := t.setQ o.a ra
        heal t1 (t1.getQ o.b) = .ok (u, rb) → let u1 := u.setQ o.b rb
        ∃ w, exec (.refeq o) s = .next w ∧ Returns u1 w o.d (if Spec.refAddr ra = Spec.refAddr rb then 1 else 0)

/-- R174 to R177: LDREF of a null or current slot gives it to q[D], and of a stale one the healed value, which also replaces the slot; a value that
is no reference raises MHREF with reason 2; STREF stores null or a current value, and of a stale one the healed value, which also replaces q[D]. -/
def Sys2Proof.Rule.SlotAccess : Prop :=
  ∀ (s : State),
    (∀ (o : LM) (t : State) (p : Place), Issues (.ldref o) s → Spec.unordered s → let ea := Spec.ea s o.a o.imm
      0 ≤ ea → ea < 2 ^ 56 → ea % 8 = 0 → s.barrierAccess .load .r ea.toNat true = .ok (t, p) → t.placePoisoned s.cx.as p 8 = false →
      let v := BitVec.ofNat 64 (t.placeRead s.cx.as p 8)
      let t1 := t.countDue p
      (v = 0 ∨ (Spec.isRef v ∧ Spec.current t v) → ∃ u, exec (.ldref o) s = .next u ∧ CoreBecomes t1 u t1.cur (Spec.qNext t1 o.d v)) ∧
      (v ≠ 0 → ¬Spec.isRef v →
        exec (.ldref o) s = .next (Spec.trapsAfter s t { cause := .mhref, saddr := ea.toNat, sinfo := 2 })) ∧
      (∀ t2 t3 r q, v ≠ 0 → Spec.isRef v → heal t v = .ok (t2, r) → r ≠ v → t2.barrierAccess .atomic .rw ea.toNat = .ok (t3, q) →
        let t4 := if t3.placeRead s.cx.as q 8 = v.toNat then t3.placeWrite s.cx.as q (Spec.bytes 8 r.toNat) else t3
        let t5 := t4.countDue p
        ∃ u, exec (.ldref o) s = .next u ∧ CoreBecomes t5 u t5.cur (Spec.qNext t5 o.d r))) ∧
    ∀ (o : LM), Issues (.stref o) s → Spec.unordered s → let ea := Spec.ea s o.a o.imm
      let v := s.getQ o.d
      0 ≤ ea → ea < 2 ^ 56 → ea % 8 = 0 →
      (∀ t p, v = 0 ∨ Spec.current s v → s.barrierAccess .store .w ea.toNat = .ok (t, p) →
        let t1 := t.placeWrite s.cx.as p (Spec.bytes 8 v.toNat)
        ∃ u, exec (.stref o) s = .next u ∧ MovesTo t1 u t1.cx.nextPc) ∧
      (∀ t1 t2 t3 r p, v ≠ 0 → ¬Spec.current s v → s.barrierCheck .store .w ea.toNat = .ok t1 → heal t1 v = .ok (t2, r) →
        (t2.setQ o.d r).barrierAccess .store .w ea.toNat = .ok (t3, p) → let t4 := t3.placeWrite s.cx.as p (Spec.bytes 8 r.toNat)
        ∃ u, exec (.stref o) s = .next u ∧ MovesTo t4 u t4.cx.nextPc)

/-- R174, R178: LDF and STF of null raise MHREF with reason 1, and of a displacement that is no multiple of 8 ALIGN; otherwise q[A] becomes its
heal, and the field is loaded or stored where its page is managed; on another page they raise MHREF with reason 3, and q[A] keeps its heal once
the trap is taken. -/
def Sys2Proof.Rule.FieldAccess : Prop :=
  ∀ (s : State) (o : LM) (i : Instr), (i = .ldf o ∨ i = .stf o) → Issues i s → Spec.unordered s → let r := s.getQ o.a
    let kind : AKind := if i = .ldf o then .load else .store
    let need : Need := if i = .ldf o then .r else .w
    (r = 0 → exec i s = .next (takeTrap { cause := .mhref, saddr := 0, sinfo := 1 } s)) ∧
    (r ≠ 0 → o.imm.toNat % 8 ≠ 0 → exec i s = .next (takeTrap { cause := .align, saddr := 0, sinfo := kind.code * 16 + 3 } s)) ∧
    ∀ s1 h t e lv, r ≠ 0 → o.imm.toNat % 8 = 0 → heal s r = .ok (s1, h) → let va := (Spec.refAddr h : Int) + o.imm.toInt
      let s2 := s1.setQ o.a h
      0 ≤ va → va < 2 ^ 56 → isLocal va.toNat = false → s2.homeEntry s.cx.as va.toNat = .ok (t, e, lv) →
      protReason { s.who kind need with barrier := true } e.leaf.toNat = none →
      (leafType e.leaf.toNat ≠ 3 → leafType e.leaf.toNat ≠ 4 →
        exec i s = .next (Spec.trapsAfter s t { cause := .mhref, saddr := va.toNat, sinfo := 3 })) ∧
      ∀ u p, leafType e.leaf.toNat = 3 → t.barrierAccess kind need va.toNat = .ok (u, p) →
        (i = .ldf o → u.placePoisoned s.cx.as p 8 = false →
          ∃ w, exec i s = .next w ∧ Returns u w o.d (BitVec.ofNat 64 (u.placeRead s.cx.as p 8))) ∧
        (i = .stf o → let u1 := u.placeWrite s.cx.as p (Spec.bytes 8 (s.getX o.d).toNat)
          ∃ w, exec i s = .next w ∧ MovesTo u1 w u1.cx.nextPc)

/-- R174, R179: PIN and UNPIN of null raise MHREF with reason 1; otherwise q[A] becomes its heal, and they raise or lower the count of every page
of the object by one, PIN giving the object's address; at a page whose count is 65,535 PIN raises MHREF with reason 4, at 0 UNPIN with reason 5,
and no count changes then. -/
def Sys2Proof.Rule.PinResult : Prop :=
  ∀ (s : State) (o : LH), let r := s.getQ o.a
    (r = 0 → (Issues (.pin o) s → exec (.pin o) s = .next (takeTrap { cause := .mhref, saddr := 0, sinfo := 1 } s)) ∧
      (Issues (.unpin o) s → s.me.queue = [] →
        exec (.unpin o) s = .next (takeTrap { cause := .mhref, saddr := 0, sinfo := 1 } s))) ∧
    ∀ (s1 t u : State) (h : Word) (e : HomeEntry) (pages : List HomeEntry), r ≠ 0 → heal s r = .ok (s1, h) →
      (s1.setQ o.a h).managedPage (s.who .heal .look) (Spec.refAddr h) = .ok (t, e) →
      let place := t.framePlace (s.who .heal .look) (Spec.refAddr h) e
      let n := objLength t.mem place.key
      t.placePoisoned s.cx.as place 8 = false →
      t.objectPages (s.who .heal .look) (n / 2 ^ 16 + 2) (Spec.refAddr h) n = .ok (u, pages) →
      (Issues (.pin o) s → (∀ e ∈ pages, e.hpin ≠ 65535) → ∃ w, exec (.pin o) s = .next w ∧
        Returns (u.pinPages (· + 1) pages) w o.d (BitVec.ofNat 64 (Spec.refAddr h))) ∧
      (Issues (.unpin o) s → s.me.queue = [] → (∀ e ∈ pages, e.hpin ≠ 0) → ∃ w, exec (.unpin o) s = .next w ∧
        MovesTo (u.pinPages (· - 1) pages) w (u.pinPages (· - 1) pages).cx.nextPc) ∧
      (∀ e2, pages.find? (fun e => e.hpin == 65535) = some e2 → Issues (.pin o) s → exec (.pin o) s =
        .next (Spec.trapsAfter s u { cause := .mhref, saddr := e2.page * pageBytes e2.big, sinfo := 4 })) ∧
      (∀ e2, pages.find? (fun e => e.hpin == 0) = some e2 → Issues (.unpin o) s → s.me.queue = [] → exec (.unpin o) s =
        .next (Spec.trapsAfter s u { cause := .mhref, saddr := e2.page * pageBytes e2.big, sinfo := 5 }))

/-- heal, and the reference instructions: `Rule.HealRule`, `Rule.ReferenceMoves`, `Rule.SlotAccess`, `Rule.FieldAccess` and `Rule.PinResult`
together. Which copy a derived address reaches is a reading of the model (log 24). -/
def Obligations.ReferenceResult : Prop := Sys2Proof.Rule.HealRule ∧ Sys2Proof.Rule.ReferenceMoves ∧ Sys2Proof.Rule.SlotAccess ∧
  Sys2Proof.Rule.FieldAccess ∧ Sys2Proof.Rule.PinResult

/-! ### Strands (R182 to R193, R226 to R229) -/

/-- The number of a new strand: the next after the one given out last that no live strand of the address space has (R21, R186; log 11). -/
def Sys2Proof.Spec.nextSid (s : State) (asid : Nat) : Nat :=
  let used := (s.strands.filter (fun x => x.asid == asid)).map (·.sid)
  unusedSid used used.length (((s.space asid).map (·.nextSid)).getD 1)

/-- R185 to R187, R189, R191: SPAWN with an invalid place word gives status 3; with a free arrival slot at the target the join word counts the
child and a new strand with PC x[B] and x4 to x7 of the parent arrives there, status 0; without one the child waits in the site's overflow list,
status 2, where it cannot run inline; else it runs inline: x2 falls by 32, the frame holds
next_pc, the join word, D and ORD, and the parent's x2, INLDEPTH rises, and x[B] is next; JOIN gives OUT's word once OUT is 0, or polls. The
number of the new strand is the next that no live strand of its address space has (log 11, DESIGN CHOICE); where the device still waits for a host
translation (`blocked`) the instruction is met again (log 70). -/
def Sys2Proof.Rule.SpawnAndJoin : Prop :=
  ∀ (s : State) (o : LX) (j : LH),
    (∀ (t : State) (jp : Option Place), Issues (.spawn o) s → Spec.unordered s → joinCheck (s.getX o.c) s = .ok (t, jp) →
      let w := (s.getX o.a).toNat
      let ord := ((s.getX o.a).extractLsb' 32 16).toNat
      (placeTarget t w false = none → t.blocked = false → ∃ u, exec (.spawn o) s = .next u ∧ Returns t u o.d 3) ∧
      (∀ c t2 t4, placeTarget t w false = some c → t.freeSlot c = true →
        countChild (s.getX o.c) jp t = .ok t2 →
        let sid := Spec.nextSid t2 s.cx.as
        let child : Strand := { blankStrand s.cx.as sid with join := (s.getX o.c).toNat, ord, origin := s.originOf, lastCore := c }
        let k0 : Ctx := { Ctx.reset with pc := s.getX o.b, asid := s.cx.asid, strandId := BitVec.ofNat 48 sid }
        let k := (((k0.setX 4 (s.getX 4)).setX 5 (s.getX 5)).setX 6 (s.getX 6)).setX 7 (s.getX 7)
        let t3 := t2.modSpace s.cx.as (fun p => { p with nextSid := sidAfter sid })
        { t3 with strands := t3.strands ++ [child] }.arrive c
          { ctx := k, cls := .control, v := none, m := none, queue := [], acc := [], poison := [] } = some t4 → t4.blocked = false →
        ∃ u, exec (.spawn o) s = .next u ∧ Returns t4 u o.d 0) ∧
      (∀ c t2 t3 ps, placeTarget t w false = some c → t.freeSlot c = false → s.curCtx = .u → s.cx.inldepth ≠ 255 → let x2 := t.getX 2 - 32
        framePlaces (x2.setWidth 56).toNat [0, 8, 16, 24] t = .ok (t2, ps) → countChild (t.getX o.c) jp t2 = .ok t3 →
        let t4 := writeWords t.cx.as ps [t.cx.nextPc.toNat, (t.getX o.c).toNat, o.d.toNat * 2 ^ 16 + ord, x2.toNat] t3
        t4.blocked = false → ∃ u, exec (.spawn o) s = .next u ∧ u.cx.pc = t.getX o.b ∧ u.getX 2 = x2 ∧ (∀ r, r ≠ 2 → u.getX r = t4.getX r) ∧
          u.cx.inldepth = t4.cx.inldepth + 1 ∧ OnlyContext t4 u) ∧
      (∀ c t2 t3, placeTarget t w false = some c → t.freeSlot c = false → s.curCtx = .a ∨ s.cx.inldepth = 255 →
        countChild (s.getX o.c) jp t = .ok t2 → let sid := Spec.nextSid t2 s.cx.as
        let child : Strand := { blankStrand s.cx.as sid with join := (s.getX o.c).toNat, ord, origin := s.originOf, lastCore := c }
        let u := t2.modSpace s.cx.as (fun p => { p with nextSid := sidAfter sid })
        let v := { u with strands := u.strands ++ [child] }
        let g := newImage (s.getX o.b) s.cx.as sid #v[s.getX 4, s.getX 5, s.getX 6, s.getX 7]
        v.overflow g (v.siteOf c) g.mask (placeOnly w) (placeClasses w) = .ok t3 → t3.blocked = false →
        ∃ x, exec (.spawn o) s = .next x ∧ Returns t3 x o.d 2)) ∧
    (∀ (t : State) (p : Place), Issues (.join j) s → Spec.unordered s → let va := Spec.opAddr s j.a
      va % 8 = 0 → s.access (s.who .load .r) va 8 = .ok (t, p) → t.placePoisoned s.cx.as p 8 = false → t.blocked = false →
      let w := BitVec.ofNat 64 (t.placeRead s.cx.as p 8)
      (w.extractLsb' 0 32 = 0 → ∃ u, exec (.join j) s = .next u ∧ Returns t u j.d ((w.extractLsb' 32 32).setWidth 64)) ∧
      (w.extractLsb' 0 32 ≠ 0 → j.f.getLsbD 0 = true → ∃ u, exec (.join j) s = .next u ∧
        Returns t u j.d (2 ^ 63 + (w.extractLsb' 0 32).setWidth 64)) ∧
      (w.extractLsb' 0 32 ≠ 0 → j.f.getLsbD 0 = false → t.mayPark = false → exec (.join j) s = .next t))

/-- R188, R190 to R193: EXIT of a strand with nothing pending ends it: its number leaves the strand table, and its core goes on with the next
strand; EXIT of an inline child goes
back to the frame's PC with x2 raised by 32 and the frame's D told 1; YIELD with nothing to yield to, and of a crew member, goes on, and else
parks the strand, the gang of a leader disbanding, once its persists are durable and no A-context entry acts on its registers; MIGRATE answers 2,
3 or 1, waits until the strand may leave, and starts it for its target, its issued short matrix entries having completed, or leaves it in the
site's overflow list; all but the BAR and CREWINFO of this rule are made whole or met again (`blocked`, log 70); BAR goes on outside a crew and when every other member has arrived; CREWINFO gives size and index, or the core of a member. -/
def Sys2Proof.Rule.StrandControl : Prop :=
  ∀ (s : State) (o : LH),
    (Issues (.exit o) s → s.cx.inldepth = 0 → s.me.queue = [] → s.me.mq = [] → s.cx.pend = 0 → s.persisted s.cur s.curCtx = true →
      (∀ x, s.myStrand = some x → x.join = 0) →
      let u := (s.modStrand s.cx.as s.cx.sid (fun x => { x with lastCore := s.cur })).finishStrand s.cx.as s.cx.sid (o.f.getLsbD 0)
      u.strand s.cx.as s.cx.sid = none ∧
        (((u.disband s.cur).leaveU s.cur).blocked = false → exec (.exit o) s = .next ((u.disband s.cur).leaveU s.cur))) ∧
    (∀ (t : State) (d : List Nat), Issues (.exit o) s → s.cx.inldepth ≠ 0 → Spec.unordered s →
      loadWords ((s.getX 2).setWidth 56).toNat 4 s = .ok (t, d) → d.getD 1 0 = 0 → d.getD 2 0 < 2 ^ 21 → d.getD 3 0 = (s.getX 2).toNat →
      let rd := BitVec.ofNat 5 (d.getD 2 0 / 2 ^ 16)
      s.cx.pend.getLsbD rd.toNat = false → t.blocked = false → ∃ u, exec (.exit o) s = .next u ∧ OnlyContext t u ∧
        u.cx.pc = BitVec.ofNat 64 (d.getD 0 0) ∧ u.getX 2 = s.getX 2 + 32 ∧ (rd ≠ 0 → rd ≠ 2 → u.getX rd = 1) ∧
        (∀ r, r ≠ 2 → r ≠ rd → u.getX r = t.getX r) ∧ u.cx.inldepth = t.cx.inldepth - 1) ∧
    (Issues .yield s →
      (oldestReady s.me.arrival = none ∨ s.myStrand.bind (·.crew) ≠ none → s.blocked = false →
        ∃ t, exec .yield s = .next t ∧ MovesTo s t s.cx.nextPc) ∧
      (s.advance.yields = true → s.persisted s.cur .u = false ∨ s.me.aQuiet = false → exec .yield s = .next s) ∧
      (s.advance.yields = true → s.persisted s.cur .u = true → s.me.aQuiet = true →
        (∀ n, s.me.gang ≠ .leader n) → let t := s.advance.parkU (.ready s.now)
        t.blocked = false → exec .yield s = .next t) ∧
      (s.advance.yields = true → s.persisted s.cur .u = true → s.me.aQuiet = true → ∀ n, s.me.gang = .leader n →
        (s.me.queue = [] → s.me.mq = [] → let t := (s.advance.disband s.cur).parkU (.ready s.now)
          t.blocked = false → exec .yield s = .next t) ∧
        (s.me.queue ≠ [] ∨ s.me.mq ≠ [] → exec .yield s = .next s))) ∧
    (Issues (.migrate o) s → s.crewSite s.cx.as s.cx.sid = none → let w := (s.getX o.a).toNat
      (placeTarget s w true = none → s.blocked = false → ∃ t, exec (.migrate o) s = .next t ∧ Returns s t o.d 2) ∧
      (∀ c, placeTarget s w true = some c → s.blocked = false →
        (s.me.gang ≠ .none → ∃ t, exec (.migrate o) s = .next t ∧ Returns s t o.d 3) ∧
        (s.me.gang = .none → c = s.cur → ∃ t, exec (.migrate o) s = .next t ∧ Returns s t o.d 1) ∧
        (s.me.gang = .none → c ≠ s.cur → s.curCtx = .u → let s0 := s.interruptLong s.cur
          let g := (s0.retX o.d 0).imageU s.cur
          (capHolds (s.cls c) g.mask = false → ∃ t, exec (.migrate o) s = .next t ∧ Returns s t o.d 2) ∧
          (capHolds (s.cls c) g.mask = true → s.mayLeave s.cur = false →
            exec (.migrate o) s = .next (s.modCx (fun k => { k with waiting := .leave }))) ∧
          (capHolds (s.cls c) g.mask = true → s.mayLeave s.cur = true → s0.blocked = false →
            (s.mayEnter c = true ∧ oldestReady (s.core c).arrival = none) ∨ (s.freeSlot c = true ∧ s.heldFor c = false) →
            ∃ t, exec (.migrate o) s = .next t ∧ t.moves = s0.moves ++
              [{ id := s0.nextId, img := g, src := s.cur, dst := c, kind := .migrate, toU := false, needed := g.mask }] ∧
            (t.core s.cur).uWork = .reserved g.ctx.sid ∧ OnlyCore { s0 with moves := t.moves, nextId := s0.nextId + 1 } t s.cur) ∧
          (capHolds (s.cls c) g.mask = true → s.mayLeave s.cur = true → s.freeSlot c = false → s.mayEnter c = false →
            ∀ u, s0.overflow g (s.siteOf c) g.mask (placeOnly w) (placeClasses w) = .ok u → (u.leaveU s.cur).blocked = false →
            exec (.migrate o) s = .next (u.leaveU s.cur))))) ∧
    (∀ b : LI16, Issues (.bar b) s → Spec.unordered s →
      ((s.myStrand.bind (·.crew)).bind s.crew = none → ∃ t, exec (.bar b) s = .next t ∧ MovesTo s t s.cx.nextPc) ∧
      (∀ w, (s.myStrand.bind (·.crew)).bind s.crew = some w → w.members = [s.cx.sid] → w.arrived = [] → w.released = [] →
        ∃ t, exec (.bar b) s = .next t ∧ t.cx.pc = s.cx.nextPc)) ∧
    (∀ c : LH, Issues (.crewinfo c) s → let crew := (s.myStrand.bind (·.crew)).bind s.crew
      let i := ((s.getX c.a).extractLsb' 0 16).toNat
      (c.f.getLsbD 0 = false →
        (crew = none → ∃ t, exec (.crewinfo c) s = .next t ∧ Returns s t c.d (2 ^ 16)) ∧
        (∀ w, crew = some w → ∃ t, exec (.crewinfo c) s = .next t ∧
          Returns s t c.d (BitVec.ofNat 64 (w.members.length * 2 ^ 16 + w.members.idxOf s.cx.sid)))) ∧
      (c.f.getLsbD 0 = true →
        (crew = none → s.curCtx = .u → ∃ t, exec (.crewinfo c) s = .next t ∧
          Returns s t c.d (if i = 0 then BitVec.ofNat 64 s.cur else BitVec.allOnes 64)) ∧
        (∀ w, crew = some w → ∃ t, exec (.crewinfo c) s = .next t ∧ Returns s t c.d
          (match (w.members[i]?).bind (s.homeCore s.cx.as) with | some k => BitVec.ofNat 64 k | none => BitVec.allOnes 64))))

/-- SPAWN, JOIN, EXIT, YIELD, MIGRATE, BAR and CREWINFO: `Rule.SpawnAndJoin` and `Rule.StrandControl` together. The core chosen in a tie
and the precedence of MIGRATE's statuses are readings of the model (logs 43 and 46). -/
def Obligations.SpawnAndJoin : Prop := Sys2Proof.Rule.SpawnAndJoin ∧ Sys2Proof.Rule.StrandControl

/-! ### Messages and the A context (R31, R194 to R196, R205, R206, R220 to R223) -/

namespace Sys2Proof.Spec

/-- The message that the executing context sends (R31, R194). -/
def message (s : State) (handler : Word) (seqNo : Nat) : Msg :=
  { handler, seqNo, asid := s.cx.asid.toNat, sender := s.cur, payload := #v[s.getX 4, s.getX 5, s.getX 6, s.getX 7] }

/-- R220: core t answers messages itself, neither capture nor replay nor a stream delaying it. -/
def answers (s : State) (t : Nat) : Prop := s.mgmt.capMode = 0 ∧ s.live t = true ∧ ∀ m ∈ s.moves, m.src ≠ t

/-- R220: core t owns the ASID, takes messages, and has a free slot; the next number of the pair (R194). -/
def accepts (s : State) (t asid : Nat) : Prop :=
  (s.core t).owner = some asid ∧ (s.core t).mboxcfg.getLsbD 15 = false ∧
    (s.core t).occupied < ((s.core t).mboxcfg.extractLsb' 0 6).toNat
def nextSeq (s : State) (sender t : Nat) : Nat := ((kvGet (sender * 2 ^ 16 + t) s.seqNos).getD 0 + 1) % 2 ^ 32

/-- The state in which core t has accepted a message (R194, R222, R223). -/
def accepted (s : State) (t : Nat) (m : Msg) : State :=
  { s with seqNos := kvSet (m.sender * 2 ^ 16 + t) m.seqNo s.seqNos }.modCore t
    (fun k => { k with slots := k.slots ++ [m], accepted := k.accepted + 1 })

end Sys2Proof.Spec

/-- R194, R195, R220, R222: MSEND to a core that accepts gives the sequence number, the core and status 0, the message joining the core's
slots; to a full or closed mailbox status 1, to a core that does not own the ASID status 2, each counted there; MSENDA queues the message
with a pending token; MESSAGE_ANSWER answers it in the same way and MSENDA_COMPLETION delivers the answer. That MSEND is answered in its
own step is a reading of the model (log 47). -/
def Obligations.MessageResult : Prop :=
  ∀ (s : State) (o : LH), let c := ((s.getX o.a).extractLsb' 0 16).toNat
    (Issues (.msend o) s → Spec.unordered s → (∀ f ∈ s.flights, f.answer ≠ none) → Spec.answers s c →
      (Spec.accepts s c s.cx.asid.toNat → let n := Spec.nextSeq s s.cur c
        ∃ t, exec (.msend o) s = .next t ∧
          Returns (Spec.accepted s c (Spec.message s (s.getX o.b) n)) t o.d (BitVec.ofNat 64 (n * 2 ^ 32 + c * 2 ^ 16))) ∧
      ((s.core c).owner = some s.cx.asid.toNat → ¬Spec.accepts s c s.cx.asid.toNat → ∃ t, exec (.msend o) s = .next t ∧
        Returns (s.modCore c (fun k => { k with rfull := if k.rfull = 0xFFFF then k.rfull else k.rfull + 1 })) t o.d
          (BitVec.ofNat 64 (c * 2 ^ 16 + 1))) ∧
      ((s.core c).owner ≠ some s.cx.asid.toNat → (s.core c).fwdcfg.getLsbD 63 = false → ∃ t, exec (.msend o) s = .next t ∧
        Returns (s.modCore c (fun k => { k with rabs := if k.rabs = 0xFFFF then k.rabs else k.rabs + 1 })) t o.d
          (BitVec.ofNat 64 (c * 2 ^ 16 + 2)))) ∧
    (Issues (.msenda o) s → Spec.tokenFree s o.d → let f : Flight :=
        { id := s.nextId, core := s.cur, ctx := s.curCtx, asid := s.cx.asid.toNat, sid := s.cx.strandId.toNat, reg := o.d.toNat,
          target := c, place := c, msg := Spec.message s (s.getX o.b) 0, hops := 0, answer := none }
      ∃ t, exec (.msenda o) s = .next t ∧
        CoreBecomes { s with nextId := s.nextId + 1, flights := s.flights ++ [f] } t s.cur (Spec.pendingNext s o.d)) ∧
    ∀ f, s.flights = [f] →
      (f.answer = none → Spec.answers s f.place → f.hops = 0 → Spec.accepts s f.place f.msg.asid →
        let n := Spec.nextSeq s f.msg.sender f.place
        let u := Spec.accepted s f.place { f.msg with seqNo := n }
        exec (.messageAnswer f.id) s = .next { u with
          flights := [{ f with answer := some (BitVec.ofNat 64 (n * 2 ^ 32 + f.place % 2 ^ 16 * 2 ^ 16)) }] }) ∧
      (∀ w, f.answer = some w → f.ctx = .a → f.reg < 32 → (s.core f.core).a.pend.getLsbD f.reg = true →
        ∃ t, exec (.msendaCompletion f.id) s = .next t ∧
          CoreBecomes { s with flights := [] } t f.core { s.core f.core with a := (s.core f.core).a.complete f.reg w })

/-- R17, R26, R196, R204 to R206, R223: HANDLER_START puts the oldest accepted message of the owner into the free A context: the handler's
PC, its sender in x3 and its payload in x4 to x7, unless the U strand is leaving the core; SERVICE_ENTRY starts the oldest pending entry at SVEC in level S with SCAUSE, SEPC,
SADDR, SINFO, SQIMG and SSTATUS written and the image's address in x3; HEND and SRET of an entry that holds no strand free the A context;
SRET in the U context goes to SEPC at the level that PPRIV names; a PPRIV of 2 or 3 raises ILLINS with reason 11. That SRET ends the
service code at the nested entry too is a reading of the model (log 44). -/
def Obligations.ContextAEntries : Prop :=
  ∀ (s : State),
    (∀ c m rest, s.live c = true → (s.core c).aWork = .idle → (∀ l, (s.core c).gang ≠ .follower l) → (s.core c).slots = m :: rest →
      (s.core c).entries = [] → (s.core c).owner = some m.asid → (∀ v ∈ s.moves, v.src ≠ c) → m.onto = none → s.leaving c = false → (s.core c).uWork = .strand →
      (s.core c).u.asid.toNat = m.asid → ∃ t, exec (.handlerStart c) s = .next t ∧ OnlyCore s t c ∧ SameBytes s t ∧
        (t.core c).slots = rest ∧ (t.core c).aWork = .handler m ∧ (t.core c).u = (s.core c).u ∧ (t.core c).a.pc = m.handler ∧
        (t.core c).a.priv = false ∧ (t.core c).a.asid = (s.core c).u.asid ∧ (t.core c).a.strandId = (s.core c).u.strandId ∧
        (t.core c).a.vtype = (s.core c).u.vtype ∧ (t.core c).a.getX 3 = BitVec.ofNat 64 m.sender ∧
        (t.core c).a.getX 4 = m.payload[0] ∧ (t.core c).a.getX 5 = m.payload[1] ∧ (t.core c).a.getX 6 = m.payload[2] ∧
        (t.core c).a.getX 7 = m.payload[3]) ∧
    (∀ c e rest, s.live c = true → (s.core c).aWork = .idle → (∀ l, (s.core c).gang ≠ .follower l) → (s.core c).entries = e :: rest →
      let base := (s.core c).svec &&& 0x00FFFFFFFFFFFFC0
      ∃ t, exec (.serviceEntry c) s = .next t ∧ OnlyCore s t c ∧ SameBytes s t ∧ (t.core c).entries = rest ∧
        (t.core c).aWork = .service e none ∧ (t.core c).u = (s.core c).u ∧
        (t.core c).a.pc = (base + (if (s.core c).svec.getLsbD 0 then BitVec.ofNat 64 (64 * e.cause.code) else 0)) &&&
          0x00FFFFFFFFFFFFFF ∧
        (t.core c).a.priv = true ∧ (t.core c).a.getX 3 = e.image ∧ (∀ r, r ≠ 3 → (t.core c).a.getX r = (s.core c).a.getX r) ∧
        (t.core c).scause = BitVec.ofNat 64 e.cause.code ∧ (t.core c).sepc = e.sepc ∧ (t.core c).saddr = e.saddr ∧
        (t.core c).sinfo = e.sinfo ∧ (t.core c).sqimg = e.sqimg ∧ (t.core c).svec = (s.core c).svec ∧
        (t.core c).sscratch = (s.core c).sscratch ∧ (t.core c).sstatus = ((s.core c).sstatus &&& 1) ||| (if e.pprv then 2 else 0) |||
          (if e.actx then 8 else 0) ||| (if e.gangw then 16 else 0)) ∧
    (Issues .hend s → s.curCtx = .a → (∀ e ∈ s.me.queue, e.ctx ≠ .a) → (∀ e ∈ s.me.mq, e.ctx ≠ .a) → s.blocked = false →
      (s.cx.pend = 0 → ∃ t, exec .hend s = .next t ∧ t.me.aWork = .idle ∧ t.me.u = s.me.u ∧ t.me.slots = s.me.slots ∧ SameBytes s t) ∧
      (∀ r, s.cx.pend.getLsbD r = true → (∀ q, q < r → s.cx.pend.getLsbD q = false) →
        exec .hend s = .next (takeTrap { cause := .tokbad, sinfo := r + 3 * 32 } s))) ∧
    (∀ o : LN, Issues (.sret o) s →
      (s.me.sstatus.getLsbD 2 = true → exec (.sret o) s =
        .next (takeTrap { cause := .illins, sinfo := (headOf (.sret o)).toNat + 11 * 2 ^ 16 } s)) ∧
      (s.me.sstatus.getLsbD 2 = false → s.curCtx = .u → s.blocked = false → ∃ t, exec (.sret o) s = .next t ∧
        CoreBecomes s t s.cur { s.me with
          u := { s.cx with pc := s.me.sepc, priv := s.me.sstatus.getLsbD 1, line := none, waiting := .no, deadline := none } }) ∧
      (∀ e k, s.me.sstatus.getLsbD 2 = false → s.curCtx = .a → s.me.aWork = .service e k → e.engineOp = none → e.held = false → s.blocked = false →
        (∀ q ∈ s.me.queue, q.ctx ≠ .a) → (∀ q ∈ s.me.mq, q.ctx ≠ .a) →
        ∃ t, exec (.sret o) s = .next t ∧ t.me.aWork = .idle ∧ t.me.u = s.me.u ∧ t.me.a.priv = false ∧ SameBytes s t))

/-- Stopping the U strand of core c ends nothing else: no long instruction is in its course and no short one is queued (R155, R165), it holds no
pins (R314). -/
def Sys2Proof.Spec.stopsBare (s : State) (c : Nat) : Prop :=
  (s.core c).long = none ∧ (s.core c).mq = [] ∧
    ∀ h ∈ [Holder.entry c false, .entry c true, .row c], s.hasPins h = false

/-- R16, R118, R131, R195, R205, R324: a trap of service code that consumes no poison waits for the entries that the A context has queued, and then
overwrites SCAUSE, SEPC, SADDR and SINFO, sets PPRIV to 1 and
ACTX, and enters SVEC at cause index 0x1F; a trap of the U strand waits while vector work is queued, while a persist of it is pending, and
while a message of it is unanswered, and then, outside a gang and a crew, holds the strand: its image is spilled with the trap recorded, a
service entry is queued, and the U context is left. What else a strand gives up when it is held (`onHold`) is the model's (log 66), and so is
the wait while the device cannot reach the spill area (`blocked`, log 70). -/
def Sys2Proof.Rule.TrapEntry : Prop :=
  ∀ (s : State) (t : Trap), s.consumed s.cx.as t = none →
    (∀ e k, s.curCtx = .a → s.me.aWork = .service e k → s.me.aDrained = false → takeTrap t s = s) ∧
    (∀ e k, s.curCtx = .a → s.me.aWork = .service e k → s.me.aDrained = true → s.blocked = false →
      CoreBecomes s (takeTrap t s) s.cur { s.me with
        scause := BitVec.ofNat 64 t.cause.code, sepc := (t.sepc.getD s.cx.pc) &&& 0x00FFFFFFFFFFFFFF, saddr := BitVec.ofNat 64 t.saddr,
        sinfo := BitVec.ofNat 64 t.sinfo, sstatus := (s.me.sstatus &&& 1) ||| 2 ||| 8,
        a := { s.me.a with pc := ((s.me.svec &&& 0x00FFFFFFFFFFFFC0) + 0x7C0) &&& 0x00FFFFFFFFFFFFFF, line := none, waiting := .no,
                                deadline := none } }) ∧
    (s.curCtx = .u → t.cause ≠ .migclass →
      (s.me.queue ≠ [] ∨ s.persisted s.cur .u = false ∨ s.sendsAnswered s.cur .u = false) → takeTrap t s = s) ∧
    (∀ u a, s.curCtx = .u → t.cause ≠ .migclass → s.me.queue = [] → s.me.gang = .none → s.persisted s.cur .u = true →
      s.sendsAnswered s.cur .u = true → Spec.stopsBare s s.cur →
      (s.strand s.cx.as s.cx.sid).bind (·.crew) = none →
      let pc := (t.sepc.getD s.cx.pc) &&& 0x00FFFFFFFFFFFFFF
      let g := s.imageU s.cur
      let g1 := { g with ctx := { g.ctx with pc, scause := BitVec.ofNat 8 t.cause.code, saddr := BitVec.ofNat 64 t.saddr,
                                             sinfo := BitVec.ofNat 64 t.sinfo, line := none, waiting := .no } }
      s.spillImage g1 = .ok (u, a) →
      let v := (((u.modStrand s.cx.as s.cx.sid (fun x => { x with heldAt := some a, lastCore := s.cur })).pushEntry s.cur
        { cause := t.cause, sepc := pc, saddr := BitVec.ofNat 64 t.saddr, sinfo := BitVec.ofNat 64 t.sinfo, sqimg := 0,
          pprv := s.cx.priv, actx := false, gangw := false, image := BitVec.ofNat 64 a, asid := s.cx.as, sid := s.cx.sid,
          held := true, engineOp := none }).onHold s.cx.as s.cx.sid).leaveU s.cur
      v.blocked = false → takeTrap t s = v)

/-- Taking a trap: BRK, a trap of service code, and holding a strand: `Rule.BrkTraps` and `Rule.TrapEntry` together. -/
def Obligations.TrapEntry : Prop := Sys2Proof.Rule.BrkTraps ∧ Sys2Proof.Rule.TrapEntry

/-! ### Tasks (R197 to R200, R297, R298) -/

/-- R197 to R200: ENQT refuses a local record with 3, a cluster that is not live or not of tensor cores with 2, a full queue with 1, and
else appends the record to the cluster's queue, where it is ready if its wait count is 0; TDONE of a record that is not running gives all
ones, and of a running one the number of dependents that became ready; GRUN gives the handle of the run that it makes, 0 when no slot is free;
CBINV goes on; a
range that passes 2^56 raises ADDROVF. That CBINV has nothing to remove is a reading of the model (log 48), and that what the device cannot reach
yet is met again whole (`blocked`) is its choice (log 70). -/
def Obligations.TaskResult : Prop :=
  ∀ (s : State) (o : LH), Spec.unordered s →
    (Issues (.enqt o) s → let va := Spec.opAddr s o.a
      let sel := ((s.getX o.b).extractLsb' 0 16).toNat
      let k := if sel = 0xFFFF then s.cur / 16 else sel
      let alive := ∃ i, i < 16 ∧ s.live (16 * k + i) = true
      va % 64 = 0 → s.blocked = false →
      (isLocal va = true → ∃ t, exec (.enqt o) s = .next t ∧ Returns s t o.d 3) ∧
      (isLocal va = false → ¬(alive ∧ s.cls (16 * k) = .tensor) → ∃ t, exec (.enqt o) s = .next t ∧ Returns s t o.d 2) ∧
      (isLocal va = false → alive → s.cls (16 * k) = .tensor → 256 ≤ (s.cluster k).tasks.length →
        ∃ t, exec (.enqt o) s = .next t ∧ Returns s t o.d 1) ∧
      (isLocal va = false → alive → s.cls (16 * k) = .tensor → (s.cluster k).tasks.length < 256 →
        let u := s.modCluster k (fun q => { q with tasks := q.tasks ++ [{ asid := s.cx.as, record := va, origin := s.originOf }] })
        (u.clusterReady s.cx.as va).blocked = false → ∃ t, exec (.enqt o) s = .next t ∧ Returns (u.clusterReady s.cx.as va) t o.d 0 ∧
          (t.cluster k).tasks.map (fun e => (e.asid, e.record, e.origin)) =
            (s.cluster k).tasks.map (fun e => (e.asid, e.record, e.origin)) ++ [(s.cx.as, va, s.originOf)])) ∧
    (Issues (.enqt o) s → Spec.opAddr s o.a % 64 ≠ 0 →
      exec (.enqt o) s = .next (takeTrap { cause := .align, saddr := Spec.opAddr s o.a, sinfo := 6 } s)) ∧
    (∀ t p v, Issues (.tdone o) s → let va := Spec.opAddr s o.a
      va % 64 = 0 → s.loadAt .atomic .rw (va + 0x18) 8 = .ok (t, p, v) →
      (v % 256 ≠ 2 → t.blocked = false → ∃ u, exec (.tdone o) s = .next u ∧ Returns t u o.d (BitVec.allOnes 64)) ∧
      (∀ t2 n, v % 256 = 2 → t.completeRecord s.cx.as va s.originOf (o.f.getLsbD 0) = some (t2, n) → t2.blocked = false → ∃ u, exec (.tdone o) s = .next u ∧ Returns t2 u o.d (BitVec.ofNat 64 n))) ∧
    (∀ t1 t2 t3 t4 tm ps, Issues (.grun o) s → let va := Spec.opAddr s o.a
      let patch := Spec.opAddr s o.b
      va % 64 = 0 → patch % 8 = 0 → grunTouch va patch s = .ok t1 → t1.readTemplate s.cx.as va = .ok (t2, tm) →
      t2.readPatches s.cx.as patch tm.len = .ok (t3, ps) →
      claimTouch tm tm.slotVas t3 = .ok t4 → (t4.makeRun s.cx.as va s.originOf tm ps).1.blocked = false →
      ∃ u, exec (.grun o) s = .next u ∧ Returns (t4.makeRun s.cx.as va s.originOf tm ps).1 u o.d
        (BitVec.ofNat 64 (t4.makeRun s.cx.as va s.originOf tm ps).2) ∧
      ((t4.freeRunSlot s.cx.as tm.slotVas).2 = none → (t4.makeRun s.cx.as va s.originOf tm ps).2 = 0)) ∧
    (Issues (.cbinv o) s → let n := (s.getX o.b).toNat
      (n = 0 ∨ Spec.opAddr s o.a + n ≤ 2 ^ 56 → ∃ t, exec (.cbinv o) s = .next t ∧ MovesTo s t s.cx.nextPc) ∧
      (n ≠ 0 → 2 ^ 56 < Spec.opAddr s o.a + n →
        exec (.cbinv o) s = .next (takeTrap { cause := .addrovf, saddr := Spec.opAddr s o.a } s)))

/-! ### System instructions (R201 to R203, R207 to R209) -/

/-- R201, R202, R305, R354: SYSC without a ring, or with bit 31 of its word, takes SYSC with SEPC at next_pc; with a ring whose next slot is free, no
strand waiting for one, it writes the request there, takes the position and leaves a pending token. WAIT returns the word when it differs from x[B] or the timeout
has passed, and otherwise waits with its deadline, which counts from its first meeting. XINV of nothing or of local memory changes nothing; else no home holds a translation of the range afterwards. OPREQ requests a
point. -/
def Obligations.SystemResult : Prop :=
  ∀ (s : State) (o : LH),
    (Issues (.sysc o) s → let w := (s.getX o.a).extractLsb' 0 32
      (s.space s.cx.as = none → exec (.sysc o) s =
        .next (takeTrap { cause := .sysc, sinfo := w.toNat + 2 ^ 32, sepc := some s.cx.nextPc } s)) ∧
      (∀ sp, s.space s.cx.as = some sp → sp.sysVa = 0 → exec (.sysc o) s =
        .next (takeTrap { cause := .sysc, sinfo := w.toNat + 2 ^ 32, sepc := some s.cx.nextPc } s)) ∧
      (∀ sp, s.space s.cx.as = some sp → sp.sysVa ≠ 0 →
        (w.getLsbD 31 = true → exec (.sysc o) s =
          .next (takeTrap { cause := .sysc, sinfo := w.toNat, sepc := some s.cx.nextPc } s)) ∧
        (∀ t0 t p q, w.getLsbD 31 = false → Spec.tokenFree s o.d → sp.sysWait = [] → sp.sysGrant = [] → sp.msix = none →
          s.translate s.sysWho (sp.sysSlot sp.sysPos) = .ok (t0, p) → t0.translate s.sysWho (sp.sysSlot sp.sysPos) = .ok (t, q) →
          t.sysFree sp sp.sysPos q = true → Spec.unordered s →
          t.me = s.me → t.space s.cx.as = some sp →
          let bs := [sp.sysPos + 1, (s.getX o.a).toNat % 2 ^ 31, s.cx.strandId.toNat, s.cur % 2 ^ 16 * 2 ^ 16 + s.cx.as,
            (s.getX 4).toNat, (s.getX 5).toNat, (s.getX 6).toNat, (s.getX 7).toNat].flatMap (Spec.bytes 8)
          let u := t.placeWrite sp.asid p bs
          t.cur = s.cur → t.curCtx = s.curCtx → u.blocked = false →
          let q : SysReq := { asid := sp.asid, pos := sp.sysPos, sid := s.cx.sid, reg := o.d.toNat, cancelled := false }
          let u2 := u.modSpace sp.asid (fun x => { x with sysPos := x.sysPos + 1 })
          ∃ x, exec (.sysc o) s = .next x ∧
            CoreBecomes { u2 with sysReqs := u.sysReqs ++ [q] } x s.cur (Spec.pendingNext s o.d)))) ∧
    (∀ t p, Issues (.wait o) s → Spec.unordered s → Spec.opAddr s o.a % 8 = 0 →
      s.access (s.who .load .r) (Spec.opAddr s o.a) 8 = .ok (t, p) → t.placePoisoned s.cx.as p 8 = false →
      let v := BitVec.ofNat 64 (t.placeRead s.cx.as p 8)
      let limit := s.cx.deadline.or (if o.f.extractLsb' 0 5 = 0 then none else some (s.time.toNat + 2 ^ (o.f.extractLsb' 0 5).toNat))
      let w := t.modCx (fun k => { k with waiting := .no, deadline := limit })
      t.blocked = false →
      (v ≠ s.getX o.b → ∃ u, exec (.wait o) s = .next u ∧ Returns t u o.d v) ∧
      (∀ d, limit = some d → d ≤ s.time.toNat → ∃ u, exec (.wait o) s = .next u ∧ Returns t u o.d v) ∧
      (v = s.getX o.b → (∀ d, limit = some d → s.time.toNat < d) → w.mayPark = false → exec (.wait o) s = .next w)) ∧
    (Issues (.xinv o) s → let lo := Spec.opAddr s o.a
      let n := (s.getX o.b).toNat
      (n = 0 ∨ (isLocal lo = true ∧ lo + n ≤ 2 ^ 56) → ∃ t, exec (.xinv o) s = .next t ∧ MovesTo s t s.cx.nextPc) ∧
      (n ≠ 0 → lo + n ≤ 2 ^ 56 → isLocal lo = false → s.rangePinned s.cx.as lo (lo + n) = false →
        s.rangeMoving s.cx.as lo (lo + n) = false → ∃ t, exec (.xinv o) s = .next t ∧ t.cx.pc = s.cx.nextPc ∧
          ∀ i e, i < 4 → e ∈ (t.site i).home.cache → e.asid = s.cx.as → pageMeets e.page e.big lo (lo + n) = false)) ∧
    (∀ p : LI16, Issues (.opreq p) s → ∃ t, exec (.opreq p) s = .next t ∧ CoreBecomes s t s.cur { s.meNext with opreq := p.imm.setWidth 3 })

/-- R208, R209, R326, R327: PREEMPT and CTXSTREAM answer 3 for a core that is not live, 1 for one that runs no strand, and 2 for a strand of
another ASID, with nothing changed; a request waits, numbered in the order of arrival, while its strand may not be stopped or an earlier request
is to be met; PREEMPT of a strand of its own on another core, outside crews and gangs, puts the image on the
overflow list of the core's site and leaves the U context, and of a crew or gang what `stopU` says; CTXSTREAM streams it and gives 0 when the
move is over. The precedence of the
statuses and what a gang leader does are readings of the model (logs 43 and 45), and `blocked` is a mark of its own (log 70). -/
def Obligations.PreemptAndStream : Prop :=
  ∀ (s : State) (o : LH), let c := ((s.getX o.a).extractLsb' 0 16).toNat
    let d := ((s.getX o.b).extractLsb' 0 16).toNat
    let sid := (s.core c).u.sid
    let other (i : Instr) (st : Word) := ∃ t, exec i s = .next t ∧ Returns s t o.d st
    let mine := s.live c = true ∧ (s.core c).uWork = .strand ∧ (s.core c).u.asid = s.cx.asid ∧ s.residentAt s.cx.as sid = some c
    let asks := { s.modCx (fun k => { k with waiting := .stop c s.cx.as sid s.nextId }) with nextId := s.nextId + 1 }
    let g := s.imageU c
    let g1 := { g with ctx := { g.ctx with scause := BitVec.ofNat 8 Cause.preempt.code, saddr := 0, sinfo := BitVec.ofNat 64 s.cur,
                                           line := none, waiting := .no } }
    s.blocked = false → (∀ a e k n, s.cx.waiting ≠ .stop a e k n) →
    (Issues (.preempt o) s →
      (s.live c = false → other (.preempt o) 3) ∧
      (s.live c = true → (s.core c).uWork = .empty → other (.preempt o) 1) ∧
      (s.live c = true → (s.core c).uWork = .strand → (s.core c).u.asid ≠ s.cx.asid → other (.preempt o) 2) ∧
      (mine → s.askedBefore s.cx.as sid s.nextId = true ∨ s.stopReady c = false → exec (.preempt o) s = .next asks) ∧
      (mine → s.askedBefore s.cx.as sid s.nextId = false → s.stopReady c = true →
        (∀ u, (c ≠ s.cur ∨ s.curCtx = .a) → s.stopU c s.cur = .ok u → u.blocked = false → ∃ t, exec (.preempt o) s = .next t ∧
          Returns u t o.d 0) ∧
        (∀ u, c = s.cur → s.curCtx = .u → (s.retX o.d 0).stopU c s.cur = .ok u → u.blocked = false → exec (.preempt o) s = .next u) ∧
        (∀ u, c ≠ s.cur → (s.core c).gang = .none → (s.strand s.cx.as sid).bind (·.crew) = none → Spec.stopsBare s c →
          s.overflow g1 (s.siteOf c) g1.mask none 0 = .ok u → (u.leaveU c).blocked = false → ∃ t, exec (.preempt o) s = .next t ∧
            Returns (u.leaveU c) t o.d 0))) ∧
    (Issues (.ctxstream o) s → let s0 := s.touchAim c
      ((∀ id, s.cx.waiting ≠ .move id) → s0.blocked = false → s0.live c = false ∨ s0.live d = false →
        ∃ t, exec (.ctxstream o) s = .next t ∧ Returns s0 t o.d 3) ∧
      (s.live c = true → s.live d = true → (∀ id, s.cx.waiting ≠ .move id) → (s.core c).uWork = .empty → other (.ctxstream o) 1) ∧
      (s.live c = true → s.live d = true → (∀ id, s.cx.waiting ≠ .move id) → (s.core c).uWork = .strand →
        (s.core c).u.asid ≠ s.cx.asid → other (.ctxstream o) 2) ∧
      (mine → s.live d = true → (∀ id, s.cx.waiting ≠ .move id) → (s.strand s.cx.as sid).bind (·.crew) = none →
        capHolds (s.cls d) g.mask = true → s.canLand d false = true →
        (s.askedBefore s.cx.as sid s.nextId = true ∨ s.mayLeave c = false → exec (.ctxstream o) s = .next asks) ∧
        (s.askedBefore s.cx.as sid s.nextId = false → s.mayLeave c = true → c ≠ s.cur → (s.core c).gang = .none → Spec.stopsBare s c →
          ∃ t, exec (.ctxstream o) s = .next t ∧ t.moves = s.moves ++
            [{ id := s.nextId, img := g1, src := c, dst := d, kind := .stream, toU := false, needed := g1.mask }] ∧
          (t.core c).uWork = .reserved sid ∧ t.cx.waiting = .move s.nextId ∧ t.cx.pc = s.cx.pc)) ∧
      (∀ id, s.cx.waiting = .move id → (∀ m ∈ s.moves, m.id ≠ id) → other (.ctxstream o) 0))

/-! ### Operating points and temperature (R262 to R269, R407) -/

namespace Sys2Proof.Spec

/-- Nothing but tiles and the sites' damper tables differs. -/
def OnlyPower (s t : State) : Prop := { t with tiles := s.tiles, sites := s.sites } = s

/-- Lent budget of tile k that is not recalled, and what point p needs beyond it (R264, R265). -/
def keeps (s : State) (k : Nat) : Nat := (s.tile k).lent - (s.tile k).called
def lack (s : State) (k p : Nat) : Nat := s.pointCost k p - keeps s k

/-- Point p above OP3 is wanted by tile k, and its site allows it (R263, R407). -/
def wants (s : State) (k p : Nat) : Prop := 4 ≤ p ∧ p ≤ 7 ∧ p ≤ s.wanted k ∧ p ≤ (s.site (s.tileSite k)).cap

/-- Tile k asks alone: it is not gated, stands in no gang of eight, was not refused since the pool grew, and no other tile asks (R265). -/
def asksAlone (s : State) (k : Nat) : Prop :=
  s.tileMates k = [k] ∧ (s.tile k).gated = false ∧ (s.tile k).refused = false ∧ ∀ e ∈ s.tiles, e.1 ≠ k → e.2.asked = none

end Sys2Proof.Spec

/-- R263 to R266 and R407: a divider switches to the highest point that is wanted, allowed and covered by what the tile keeps, for both tiles of
a gang of eight to the same one, and budget beyond the new point's cost returns to the pool with the switch; the damper answers the oldest
request first, with the highest point that the pool covers beyond the tile's own budget, or with a refusal, and grants to both tiles of a gang
of eight or to neither. That a switch takes no time, and the pool that the table starts with, are the model's (logs 30 and 54). -/
def Sys2Proof.Rule.PointsAndGrants : Prop :=
  ∀ (s : State) (k : Nat), let x := s.tile k
    let p := s.tileSite k
    let free := (s.site p).pool
    (x.gated = true → exec (.pointSwitch k) s = .next s) ∧
    (x.gated = false → ∃ t : State, exec (.pointSwitch k) s = .next t ∧ Spec.OnlyPower s t ∧
      (∀ j, j ∉ s.tileMates k → { t.tile j with refused := (s.tile j).refused } = s.tile j) ∧
      let q := (t.tile k).point
      q ≤ x.limit ∧ q ≤ (s.site p).cap ∧ (s.wanted k = 0 → q ≤ x.point) ∧ (s.wanted k ≠ 0 → q ≤ s.wanted k) ∧
      (∀ r, q < r → s.wanted k ≠ 0 → r ≤ s.wanted k → r ≤ (s.site p).cap →
        4 ≤ r ∧ ∃ v ∈ s.tileMates k, Spec.keeps s v < s.pointCost v r) ∧
      (∀ v ∈ s.tileMates k, (s.tile v).gated = false → (t.tile v).point = q ∧ (3 < q → s.pointCost v q ≤ Spec.keeps s v) ∧
        (t.tile v).lent = min (s.tile v).lent (s.pointCost v q)) ∧
      (s.tileMates k = [k] → (t.site p).pool + (t.tile k).lent = free + x.lent)) ∧
    (Spec.asksAlone s k →
      (∀ q, Spec.wants s k q → 0 < Spec.lack s k q → Spec.lack s k q ≤ s.lendable p →
        (∀ r, q < r → Spec.wants s k r → s.lendable p < Spec.lack s k r) →
        ∃ t : State, exec (.damperGrant k) s = .next t ∧ Spec.OnlyPower s t ∧ (∀ j, j ≠ k → t.tile j = s.tile j) ∧
          t.tile k = { x with lent := x.lent + Spec.lack s k q, asked := none } ∧ (t.site p).pool = free - Spec.lack s k q ∧
          (t.site p).grants = (s.site p).grants ++ [(k, Spec.lack s k q)]) ∧
      ((∃ q, Spec.wants s k q ∧ 0 < Spec.lack s k q) →
        (∀ q, Spec.wants s k q → 0 < Spec.lack s k q → s.lendable p < Spec.lack s k q) →
        ∃ t : State, exec (.damperGrant k) s = .next t ∧ { t with tiles := s.tiles } = s ∧
          t.tile k = { x with asked := none, refused := true })) ∧
    (s.tileMates k = [k] → (∀ q, Spec.wants s k q → Spec.lack s k q = 0) → ∃ t : State, exec (.damperGrant k) s = .next t ∧
      { t with tiles := s.tiles } = s ∧ t.tile k = { x with asked := none }) ∧
    (∀ j y a, (∀ e ∈ s.tiles, e.1 = k → e.2 = x) → s.tileMates k = [k] → x.gated = false → x.refused = false → (∃ q, Spec.wants s k q ∧ 0 < Spec.lack s k q) →
      (j, y) ∈ s.tiles → j ≠ k → s.tileSite j = p → y.asked = some a → s.asksPoint j = true → a < x.asked.getD s.time.toNat →
      ∃ t : State, exec (.damperGrant k) s = .next t ∧ { t with tiles := s.tiles } = s ∧
        t.tile k = { x with asked := some (x.asked.getD s.time.toNat) }) ∧
    (∀ a b t, s.tileMates k = [a, b] → exec (.damperGrant k) s = .next t → (∀ v ∈ [a, b], (t.tile v).lent = (s.tile v).lent) ∨
      ∃ q, 4 ≤ q ∧ ∀ v ∈ [a, b], (t.tile v).lent = (s.tile v).lent + Spec.lack s v q)

/-- R263, R265, R269 and R407: a thermal warning recalls every grant of the site and blocks points above OP3, the throttle limit those above
OP2, a critical temperature stops the module and sets RESETREQ, and recovery lifts the OP2 hold first; a tile without work for 20 µs is
gated to OP0 and its budget and share join the pool; a gated tile with work takes its share from the pool, and while the pool lacks it waits
gated, the lack being recalled from the latest grants first; more than 16 repeated stages within 1 ms lower a tile's highest point by one,
never below OP1, with a class-5 record. That the 20 µs count from when the lack of work is noticed, and that the event is one repeated stage,
are the model's (log 54). -/
def Sys2Proof.Rule.GatingAndLimits : Prop :=
  ∀ (s : State) (k i : Nat), let x := s.tile k
    let p := s.tileSite k
    let free := (s.site p).pool
    let share := op3Power (s.tileCls k)
    let idle := ∀ c ∈ tileCores k, s.hasWork c = false
    let recent := x.retakes.filter (fun a => s.time.toNat ≤ a + 100000) ++ [s.time.toNat]
    (∃ t : State, exec (.thermalWarning i) s = .next t ∧ Spec.OnlyPower s t ∧ (t.site i).warn = true ∧
      (t.site i).throttle = (s.site i).throttle ∧
      ∀ g ∈ (s.site i).grants, t.tile g.1 = { s.tile g.1 with called := (s.tile g.1).lent }) ∧
    (∃ t : State, exec (.thermalThrottle i) s = .next t ∧ Spec.OnlyPower s t ∧ (t.site i).throttle = true ∧
      (t.site i).warn = (s.site i).warn ∧
      ∀ g ∈ (s.site i).grants, t.tile g.1 = { s.tile g.1 with called := (s.tile g.1).lent }) ∧
    exec (.thermalCritical i) s = .next { s with mgmt := { s.mgmt with resetReq := true, stopped := true } } ∧
    (∃ t : State, exec (.conePointRecovery i) s = .next t ∧ { t with sites := s.sites } = s ∧
      t.site i = (if (s.site i).throttle then { s.site i with throttle := false } else { s.site i with warn := false }) ∧
      ∀ j, j % 4 ≠ i % 4 → t.site j = s.site j) ∧
    (x.gated = false → idle →
      (x.idleSince = none → ∃ t : State, exec (.tileGate k) s = .next t ∧ { t with tiles := s.tiles } = s ∧
        t.tile k = { x with idleSince := some s.time.toNat }) ∧
      (∀ a, x.idleSince = some a → s.time.toNat < a + 2000 → exec (.tileGate k) s = .next s) ∧
      (∀ a, x.idleSince = some a → a + 2000 ≤ s.time.toNat → ∃ t : State, exec (.tileGate k) s = .next t ∧ Spec.OnlyPower s t ∧
        t.tile k = { x with gated := true, point := 0, lent := 0, called := 0, asked := none, refused := false, idleSince := none } ∧
        (t.site p).pool = free + x.lent + share)) ∧
    (x.gated = false → ¬idle → ∃ t : State, exec (.tileGate k) s = .next t ∧ { t with tiles := s.tiles } = s ∧
      t.tile k = { x with idleSince := none }) ∧
    (x.gated = true → ¬idle → (∀ g ∈ (s.site p).grants, g.1 ≠ k) → ∃ t : State, exec (.tileWake k) s = .next t ∧ Spec.OnlyPower s t ∧
      (share ≤ free → t.tile k = { x with gated := false, waking := false } ∧ (t.site p).pool = free - share) ∧
      (free < share → t.tile k = { x with waking := true } ∧ (t.site p).pool = free ∧
        ∀ a b m n, (s.site p).grants = [(a, m), (b, n)] → a ≠ b → (∀ j, (s.tile j).called = 0) →
          (∀ e ∈ s.tiles, e.2.waking = false) →
          let first := min (share - free) n
          (t.tile b).called = first ∧ (t.tile a).called = min (share - free - first) m)) ∧
    ((recent.length ≤ 16 → ∃ t : State, exec (.opLimitLower k) s = .next t ∧ { t with tiles := s.tiles } = s ∧
        t.tile k = { x with retakes := recent }) ∧
      (16 < recent.length → ∃ u : State, exec (.opLimitLower k) s = .next (u.logRecord 5 2 k 0 0) ∧
        { u with tiles := s.tiles, mgmt := s.mgmt } = s ∧ u.tile k = { x with limit := max 1 (x.limit - 1), retakes := [] } ∧
        u.mgmt = { s.mgmt with opLim := if x.limit = 7 then min 255 (s.mgmt.opLim + 1) else s.mgmt.opLim }))

/-- Points, lending, gating, limits and temperature: `Rule.PointsAndGrants` and `Rule.GatingAndLimits` together. -/
def Obligations.PowerEvents : Prop := Sys2Proof.Rule.PointsAndGrants ∧ Sys2Proof.Rule.GatingAndLimits

/-! ### Errors (R378 to R386) -/

namespace Sys2Proof.Spec

/-- The record of R380 as it stands in its slot: the publication count, class, unit kind and unit, PA, TIME and detail. -/
def logSlot (s : State) (cls kind unit pa detail : Nat) : List Byte :=
  [s.mgmt.logPos + 1, cls * 2 ^ 40 + kind * 2 ^ 32 + unit % 2 ^ 16, pa, s.time.toNat, detail, 0, 0, 0].flatMap (Spec.bytes 8)

/-- The errors counted for a pseudo-channel: those corrected within the last hour, and the atoms lost (R385). -/
def pcCount (s : State) (pc : Nat) : Nat × Nat := match s.pcErrors.find? (fun e => e.pc == pc) with
  | some e => (((e.recent.filter (fun p => s.time.toNat ≤ p.1 + 360000000000)).map (·.2)).sum, e.lost)
  | none => (0, 0)

/-- A record at a slot has been published, at its home slices: its bytes stand there, and only caches differ besides, and what `m` says of BAR 0. -/
def published (s t : State) (slot : Nat) (bs : List Byte) (m : Mgmt) : Prop :=
  t.mem = s.mem.writeBytes slot bs ∧ t.mgmt = m ∧ CachesOnly s { t with mem := s.mem, mgmt := s.mgmt }

/-- A remembered class-1 record of unit u of a kind, published within the last millisecond (R380). -/
def sharesRecord (s : State) (kind u : Nat) (e : Nat × Nat × Nat × Option Nat) : Prop :=
  e.1 = kind ∧ e.2.1 = u ∧ s.time.toNat < e.2.2.1 + 100000

end Sys2Proof.Spec

/-- R378 to R386: a record goes to the log's next slot when that is free and is counted as lost otherwise; space that returns brings one
class-10 record with the count; a corrected error is logged as class 1, those of one unit within 1 ms sharing one record that counts them, and
counted for its pseudo-channel over the hour; lost data poisons its atom or
register element, logged as class 2, a follower's in its leader's pooled registers (R218); more than 64 lost or 4,096 corrected errors mark a pseudo-channel failing, with REPLACE when no spare
is left; a die link that loses lanes is noted for the next reset; the first lane error of a core retires the lane, which makes the break of a gang due,
and a second, a second residue failure of a matrix array step once the strand may be stopped, or a core-logic error fences the core; the first
residue failure repeats the step; a module-class error stops issue and sets RESETREQ. Counting towards REPLACE is a reading of the model (log 51). -/
def Obligations.ErrorEvents : Prop :=
  ∀ (s : State) (c u a : Nat),
    s.reassess = { s with flash := { s.flash with replace := s.flash.replace || s.replaceDue } } ∧
    (∀ cls kind pa detail, s.mgmt.logLost = 0 → ∀ base n, s.logRing = some (base, n) →
      let slot := base + s.mgmt.logPos % n * 64;
      (s.mem.read slot 8 = s.mgmt.logPos → Spec.published s (s.logRecord cls kind u pa detail) slot
        (Spec.logSlot s cls kind u pa detail) { s.mgmt with logPos := s.mgmt.logPos + 1 }) ∧
      (s.mem.read slot 8 ≠ s.mgmt.logPos → s.logRecord cls kind u pa detail =
        { s with mgmt := { s.mgmt with logLost := s.mgmt.logLost + 1 } })) ∧
    (∀ base n, s.mgmt.logLost ≠ 0 → s.logRing = some (base, n) → let slot := base + s.mgmt.logPos % n * 64;
      s.mem.read slot 8 = s.mgmt.logPos → ∃ t, exec .errorLogSpace s = .next t ∧ Spec.published s t slot
        (Spec.logSlot s 10 0 0 0 s.mgmt.logLost) { s.mgmt with logPos := s.mgmt.logPos + 1, logLost := 0 }) ∧
    (∀ kind n, kind < 256 → ∃ t v : State, exec (.errorCorrected kind u a n) s = .next v ∧ { t with pcErrors := s.pcErrors } = s ∧
      ((∀ e ∈ s.mgmt.corrLog, ¬Spec.sharesRecord s kind u e) →
        { v with mgmt := { v.mgmt with corrLog := s.mgmt.corrLog } } = t.logRecord 1 kind u a n) ∧
      (∀ w p base m, s.mgmt.corrLog = [(kind, u, w, some p)] → s.time.toNat < w + 100000 → s.logRing = some (base, m) →
        let slot := base + p % m * 64
        s.mem.read slot 8 = p + 1 → v = { t with mem := t.mem.write (slot + 0x20) 8 (t.mem.read (slot + 0x20) 8 + n) }) ∧
      ∀ q, Spec.pcCount t q = if kind = 4 ∧ q = u then ((Spec.pcCount s u).1 + n, (Spec.pcCount s u).2) else Spec.pcCount s q) ∧
    (s.goodPa a = true → let s0 := { s with mem := s.mem.setPoison (a / 32) };
      let s1 := s0.logRecord 2 4 (s.pcOf a) (a / 32 * 32) 0;
      (2 ^ 46 ≤ a → exec (.poisonCreated 0 u a) s = .next (s0.logRecord 2 6 (a / 2 ^ 44 % 4) (a / 32 * 32) 0)) ∧
      (a < 2 ^ 46 → ∃ (t : State) (v : Flash), exec (.poisonCreated 0 u a) s = .next { t with flash := v } ∧
        t = (s1.countPc (s.pcOf a) 0 1).logRecord 7 4 (s.pcOf a) (a / 2 ^ 16 * 2 ^ 16) (s.pcOf a) ∧
        v = { s.flash with frames := s.flash.frames ++ [a / 2 ^ 16 * 2 ^ 16] })) ∧
    (a < spadSize (s.cls c) → exec (.poisonCreated 1 c a) s =
      .next ({ s with mem := s.mem.setPoison ((Loc.spad c a).key / 32) }.logRecord 2 1 c 0 0)) ∧
    (a < 2 ^ 17 → exec (.poisonCreated 2 c a) s =
      .next ({ s with mem := s.mem.setPoison ((Loc.slice c a).key / 32) }.logRecord 2 1 c 0 0)) ∧
    (a < 2 ^ 26 → u < 4 → exec (.poisonCreated 3 u a) s =
      .next ({ s with mem := s.mem.setPoison ((Loc.site u a).key / 32) }.logRecord 2 7 u 0 0)) ∧
    (∀ file reg elem, elem < ([128, 16, 4096].getD file 0) → reg < ([32, 12, 4].getD file 0) →
      let poisons (d e : Nat) := ∃ t : State,
        exec (.poisonCreated (4 + file) c (4096 * reg + elem)) s = .next (t.logRecord 2 1 c 0 0) ∧ OnlyCore s t d ∧
        ∃ l, t.core d = { s.core d with regPoison := (file, reg, e) :: l } ∧
          ∀ y, y ≠ (file, reg, e) → (y ∈ l ↔ y ∈ (s.core d).regPoison)
      ((∀ l, (s.core c).gang ≠ .follower l) → poisons c elem) ∧
      (∀ l n, (s.core c).gang = .follower l → (s.core l).gang = .leader n → file < 2 →
        poisons l ((gangMembers l (s.core l)).idxOf c * ([128, 16].getD file 0) + elem))) ∧
    (let e := Spec.pcCount s u;
      ((e.1 ≤ 4096 ∧ e.2 ≤ 64) ∨ u ∈ s.mgmt.pcFail → exec (.pseudoChannelFailing u) s = .next s) ∧
      ((4096 < e.1 ∨ 64 < e.2) → u ∉ s.mgmt.pcFail → ∃ t : State, exec (.pseudoChannelFailing u) s = .next t ∧
        t.mgmt.pcFail = s.mgmt.pcFail ++ [u] ∧ (s.flash.spares = 0 → t.flash.replace = true) ∧
        { t with flash := s.flash } = ({ s with mgmt := { s.mgmt with pcFail := s.mgmt.pcFail ++ [u] } }).logRecord 7 4 u 0 u)) ∧
    (u < 4 → ∃ t : State, exec (.linkDegrade u) s = .next (t.logRecord 8 5 u 0 0) ∧ t = { s with flash := { s.flash with
      linkPend := if u ∈ s.flash.linkPend then s.flash.linkPend else s.flash.linkPend ++ [u] } }) ∧
    exec .moduleError s = .next { s with mgmt := { s.mgmt with resetReq := true, stopped := true } } ∧
    (s.live c = true → ∃ t : State, exec (.coreFence c) s = .next t ∧ (t.core c).status = .fenced ∧ (t.core c).uWork = .empty ∧
      (t.core c).aWork = .idle ∧ (t.core c).arrival = [] ∧ t.mgmt.retCore = s.mgmt.retCore + 1 ∧ (∀ o ∈ t.ops, o.core ≠ c) ∧
      (∀ f ∈ t.flights, f.core ≠ c) ∧
      ∀ d, d ≠ c → s.live d = true → s.siteOf d = s.siteOf c →
        (∀ e, e < d → ¬(e ≠ c ∧ s.live e = true ∧ s.siteOf e = s.siteOf c)) → (s.core c).uWork = .strand →
        ∃ e ∈ (t.core d).entries, e.cause = .remote ∧ e.sinfo = 2 ∧ e.asid = (s.core c).u.as ∧ e.sid = (s.core c).u.sid ∧
          e.held = true) ∧
    (∀ lane, s.live c = true → s.cls c ≠ .control → lane < 16 →
      ((s.core c).retLane = none → let lead := (match (s.core c).gang with | .follower l => l | _ => c)
        ∃ w : State, OnlyCore s { w with flash := s.flash, mgmt := s.mgmt } c ∧
        w.core c = { s.core c with retLane := some lane } ∧
        w.flash = { s.flash with retLanes := s.flash.retLanes ++ [(c, lane)] } ∧
        w.mgmt = { s.mgmt with retLane := s.mgmt.retLane + 1 } ∧
        exec (.laneRetire c lane) s = .next (((w.logRecord 4 1 c 0 lane).modCore lead
          (fun k => { k with breakDue := k.gang != .none })).reassess)) ∧
      ((s.core c).retLane ≠ none → ∃ t : State, exec (.laneRetire c lane) s = .next t ∧ (t.core c).status = .fenced ∧
        c ∈ t.flash.retCores)) ∧
    (s.live c = true → (s.core c).arrayStep = true → (s.core c).retireDue = false →
      ((s.core c).residue = 0 → ∃ t : State, exec (.matrixStepCheckFail c) s = .next t ∧
        CoreBecomes s t c { s.core c with residue := 1 }) ∧
      ((s.core c).residue ≠ 0 → let w := s.modCore c (fun k => { k with retireDue := true })
        ((s.core c).uWork ≠ .strand ∨ w.stopReady c = true → ∃ t : State, exec (.matrixStepCheckFail c) s = .next t ∧
          (t.core c).status = .fenced ∧ c ∈ t.flash.retCores) ∧
        ((s.core c).uWork = .strand → w.stopReady c = false → exec (.matrixStepCheckFail c) s = .next w)))

/-! ### Hosts, the pool and other modules (R317 to R319, R348 to R351, R356 to R359) -/

namespace Sys2Proof.Spec

/-- The cached translation of a request: 4 KiB, with the rights of the completion (R317). -/
def atsOf (s : State) (q : HostReq) (hpa rights : Nat) : Ats :=
  { site := q.site, asid := q.asid, port := q.port, pasid := q.pasid, page := q.page, hpa := hpa % 2 ^ 64 / 4096,
    r := rights.testBit 0, w := rights.testBit 1, stamp := (s.site q.site).home.clock }

/-- The cached translations that are not those of a request's page. -/
def otherAts (s : State) (q : HostReq) : List Ats :=
  s.ats.filter (fun a => !(a.asid == q.asid && a.port == q.port && a.page == q.page))

/-- No core's U context is free for a parked strand to enter. -/
def seated (s : State) : Prop := ∀ x ∈ s.cores, x.2.uWork.holds = true ∨ x.2.arrival = []

/-- A core once everything on it that waits on a page request goes on: contexts, queued entries and parked strands, which become ready, find
`next` in place of the wait. -/
def woken (s : State) (req : Nat) (next : Waiting) (k : Core) : Core :=
  let turn (w : Waiting) : Waiting := if w = .host req then next else w
  { k with
    u := { k.u with waiting := turn k.u.waiting }, a := { k.a with waiting := turn k.a.waiting },
    queue := k.queue.map (fun e => { e with wait := turn e.wait }),
    arrival := k.arrival.map (fun p => if p.state = .waitHost req then
      { p with state := .ready s.time.toNat, img := { p.img with ctx := { p.img.ctx with
          waiting := if next = .no then p.img.ctx.waiting else next } } } else p) }

/-- Page request k ends, its page's entry being dropped and its waiters going on; host requests, operations, what the device's own accesses find and
the rest are as given. -/
def answered (s t : State) (q : HostReq) (next : Waiting) (reqs : List HostReq) : Prop :=
  t.hostReqs = reqs ∧ t.ats = otherAts s q ∧ (∀ c, t.core c = woken s q.id next (s.core c)) ∧
    ((∀ o ∈ s.ops, o.hostReq ≠ some q.id) →
      { t with cores := s.cores, hostReqs := s.hostReqs, ats := s.ats, nextId := s.nextId, devFails := s.devFails } = s)

/-- A page request ends with a PGHOST reason for the accesses that wait on it, and with status 4 for an engine operation that does (R318). -/
def endsWith (s t : State) (k : Nat) (q : HostReq) (reason : Nat) : Prop :=
  answered s t q (.hostFail q.page reason) (s.hostReqs.eraseIdx k) ∧ t.devFails = (q.asid, q.page, reason) :: s.devFails ∧
    ∀ o, s.ops = [o] → o.hostReq = some q.id → t.ops = [{ o with ended := some (o.written, 4), waitSvc := false }]

/-- A page of an address space meets [lo, lo + n). -/
def pinMeets (lo n : Nat) (p : Nat × Bool) : Prop :=
  let size := if p.2 then 2 ^ 26 else 2 ^ 16
  lo < (p.1 + 1) * size ∧ p.1 * size < lo + n

end Sys2Proof.Spec

/-- R312, R317 to R319: a Translation Completion is cached with its rights in place of the page's older entry, in a set that has room or from which
the least recently used free entry goes, and waits otherwise; a Success response to a page request drops the entry, sends a new Translation
Request and wakes what waits; Invalid Request ends the waiters with PGHOST reason 1, another failure with 2, and 100 ms without a response
with 3, an engine operation among them with status 4; an Invalidation Request drops the entries of its PASID and range and owes a completion,
which is sent once no translation pin on the range is held and no access keeps a dropped translation. -/
def Obligations.TranslationEvents : Prop :=
  ∀ (s : State) (k : Nat),
    (∀ q, s.hostReqs[k]? = some q →
      (∀ hpa rights, q.pri = false →
        (∀ u, s.makeRoom q.site q.page = some u → exec (.atsCompletion k hpa rights) s =
          .next { u.modHome q.site (fun h => { h with clock := h.clock + 1 }) with
            hostReqs := u.hostReqs.eraseIdx k, ats := Spec.atsOf u q hpa rights :: Spec.otherAts u q }) ∧
        (s.makeRoom q.site q.page = none → exec (.atsCompletion k hpa rights) s = .next s)) ∧
      (q.pri = true → Spec.seated s → ∃ t, exec (.priResponse k 0) s = .next t ∧
        Spec.answered s t q .no (s.hostReqs.eraseIdx k ++ [{ q with id := s.nextId, pri := false, since := s.time.toNat }]) ∧
        t.nextId = s.nextId + 1 ∧ t.devFails = s.devFails ∧ ∀ o, s.ops = [o] → o.hostReq = some q.id → t.ops = [{ o with hostReq := none }]) ∧
      (∀ code, q.pri = true → code ≠ 0 → Spec.seated s → ∃ t, exec (.priResponse k code) s = .next t ∧
        Spec.endsWith s t k q (if code = 1 then 1 else 2)) ∧
      (q.pri = true → q.since + 10000000 ≤ s.time.toNat → Spec.seated s → ∃ t, exec (.priTimeout k) s = .next t ∧
        Spec.endsWith s t k q 3) ∧
      (s.time.toNat < q.since + 10000000 → exec (.priTimeout k) s = .next s)) ∧
    (∀ site page, ((s.site site).home.cache.filter (fun e => e.page % 4096 == page % 4096)).length +
      (s.ats.filter (fun a => a.site == site % 4 && a.page % 4096 == page % 4096)).length +
      ((s.site site).home.hints.filter (fun z => z.page % 4096 == page % 4096)).length < 16 → s.makeRoom site page = some s) ∧
    (∀ port pasid va n, port < 4 → ∃ t, exec (.atsInvalidation port pasid va n) s = .next t ∧
      { t with ats := s.ats, invals := s.invals } = s ∧ t.invals = s.invals ++ [{ port, pasid, va, len := n }] ∧
      ∀ a, a ∈ t.ats ↔ a ∈ s.ats ∧ ¬(a.port = port ∧ a.pasid = pasid ∧ a.page * 4096 < va + n ∧ va < (a.page + 1) * 4096)) ∧
    (∀ v, s.invals[k]? = some v →
      let kept := ∃ x ∈ s.sites, ∃ q ∈ x.home.pins ++ x.home.waiting, ∃ a ∈ q.ats, a.port = v.port ∧ a.pasid = v.pasid ∧
        a.page * 4096 < v.va + v.len ∧ v.va < (a.page + 1) * 4096
      let pinned (p : PinReq → Nat × Bool → Prop) := ∃ x ∈ s.sites, ∃ q ∈ x.home.pins, ∃ y ∈ q.pages, Spec.pinMeets v.va v.len y ∧ p q y
      (kept → exec (.invalidationCompletion k) s = .next s) ∧
      (pinned (fun q y => ∃ e, s.cached q.asid (y.1 * pageBytes y.2) = some e ∧ leafType e.leaf.toNat = 1 ∧
        e.leaf.extractLsb' 20 2 = BitVec.ofNat 2 v.port ∧ v.port < 4 ∧ (e.leaf.extractLsb' 0 20).toNat = v.pasid) →
        exec (.invalidationCompletion k) s = .next s) ∧
      (¬kept → ¬pinned (fun _ _ => True) → exec (.invalidationCompletion k) s = .next { s with invals := s.invals.eraseIdx k }))

/-- R348, R350, R351, R356 to R359: a port that goes down loses its cached translations and page requests, and the SYSC tokens on rings of
its host complete with all ones; it comes up again; a fabric port changes its state only; what a dead host held modified becomes poisoned;
a dead part of the pool and a failed pool engine are marked, the second with a class-9 record; a snoop of a port that is up leaves the line as the
host then has it; a host access of HBM4E is performed at the home, dropped at a port that is down or in PCIe mode, before READY a write is dropped and a
read completes with poison, and it faults beyond the range; a remote access is performed as
an engine access of its address space; a confirmed line is durable for every strand and handler. What a host writes when it snoops, that an access
beyond the range faults, and which core is told of a remote page fault are the model's (logs 34, 55 and 72). -/
def Obligations.HostEvents : Prop :=
  ∀ (s : State) (k : Nat), let p := k % 4
    (s.sysReqs = [] → Spec.seated s → ∃ t, exec (.hostPortDown k) s = .next t ∧ t.port p = { s.port p with up := false } ∧
      (∀ j, j % 4 ≠ p → t.port j = s.port j) ∧ t.ats = s.ats.filter (fun a => a.port != p) ∧
      t.hostReqs = s.hostReqs.filter (fun q => q.port != p) ∧
      ∀ q, s.hostReqs = [q] → q.port = p → ∀ c, t.core c = Spec.woken s q.id .no (s.core c)) ∧
    (∀ r c sp, s.sysReqs = [r] → r.cancelled = false → 0 < r.reg → r.reg < 32 → s.hostReqs = [] → s.spaces = [sp] → r.asid = sp.asid →
      sp.sysVa ≠ 0 → s.ringOn p sp = true →
      s.cores.find? (fun x => (x.2.uWork == .strand || x.2.uWork == .heldInRegs) && x.2.u.as == r.asid && x.2.u.sid == r.sid) =
        some (c, s.core c) →
      ∃ t, exec (.hostPortDown k) s = .next t ∧ t.sysReqs = [] ∧
        t.core c = { s.core c with u := (s.core c).u.complete r.reg (BitVec.allOnes 64) }) ∧
    (∃ t, exec (.hostPortUp k) s = .next t ∧ { t with ports := s.ports } = s ∧ t.port p = { s.port p with up := true } ∧
      ∀ j, j % 4 ≠ p → t.port j = s.port j) ∧
    exec (.fabricPortDown k) s = .next { s with mgmt := { s.mgmt with fabricUp := s.mgmt.fabricUp.set (k % 8) false } } ∧
    exec (.fabricPortUp k) s = .next { s with mgmt := { s.mgmt with fabricUp := s.mgmt.fabricUp.set (k % 8) true } } ∧
    (∀ off n, off < 2 ^ 44 → let first := (2 ^ 46 + p * 2 ^ 44 + off) / 32
      ∃ t, exec (.hostDeath k off n) s = .next t ∧ { t with mem := s.mem } = s ∧ SameBytes s t ∧
        ∀ a, a ∈ t.mem.poison ↔ a ∈ s.mem.poison ∨ (first ≤ a ∧ a < first + n)) ∧
    (∀ off n, off < 2 ^ 44 → exec (.poolFailure k off n) s =
      .next { s with poolDead := s.poolDead ++ [(2 ^ 46 + p * 2 ^ 44 + off, n)] }) ∧
    (∃ t : State, exec (.cxlEngineFailure k) s = .next (t.logRecord 9 6 p 0 0) ∧ { t with ports := s.ports } = s ∧
      t.port p = { s.port p with cxlDown := true }) ∧
    (∀ a, let pool := k.testBit 2
      let key := if pool then 2 ^ 46 + p * 2 ^ 44 + a % 2 ^ 44 / 8 * 8 else (Loc.host p (a % 2 ^ 52 / 8 * 8)).key
      let absent := (s.port p).up = false ∨ (pool = true ∧ ((s.port p).pool = false ∨ s.cxlDeadIn key 8 = true))
      (absent → exec (.hostSnoop k a) s = .next s) ∧
      (¬absent → ∃ t, exec (.hostSnoop k a) s = .next t ∧ (t.mem = s.mem ∨ ∃ d, t.mem = s.mem.writeBytes key (Spec.bytes 8 d)) ∧
        Spec.CachesOnly s { t with mem := s.mem, free := s.free })) ∧
    (∀ a w d, let at8 := a / 8 * 8
      (s.hbmEnd ≤ at8 → exec (.hostMemAccess k a w d) s = .fault .hostRange) ∧
      (at8 < s.hbmEnd → (s.port k).up = false ∨ (s.port k).cxl = false → exec (.hostMemAccess k a w d) s = .next s) ∧
      (at8 < s.hbmEnd → (s.port k).up = true → (s.port k).cxl = true → s.mgmt.ready = false →
        (w % 2 = 1 → exec (.hostMemAccess k a w d) s = .next s) ∧
        (w % 2 = 0 → exec (.hostMemAccess k a w d) s = .next { s with hostRead := some none })) ∧
      (at8 < s.hbmEnd → s.mgmt.ready = true → (s.port k).up = true → (s.port k).cxl = true → ∃ t, exec (.hostMemAccess k a w d) s = .next t ∧
        (w % 2 = 0 → t.mem = s.mem ∧ t.hostRead =
          some (if s.mem.poisoned at8 8 then none else some (BitVec.ofNat 64 (s.mem.read at8 8)))) ∧
        (w % 2 = 1 → t.mem = s.mem.writeBytes at8 (Spec.bytes 8 d) ∧ t.hostRead = s.hostRead) ∧
        { t with mem := s.mem, cores := s.cores, l2 := s.l2, hostRead := s.hostRead } = s)) ∧
    (∀ asid va d w t (q : Place), (s.space asid).isSome = true → isLocal va = false → va % 8 = 0 → va < 2 ^ 56 →
      s.globalAccess { asid, core := 0, priv := false, kind := .engine, need := if w = 1 then .w else .r, eng := w == 1 } va 8 =
          .ok (t, q) → t.anyMoving asid [q] = false →
      (w = 0 → exec (.nodeQualifiedRemoteAccess asid va w d) s = .next t) ∧
      (w = 1 → q.typ ≠ 2 → exec (.nodeQualifiedRemoteAccess asid va w d) s = .next (t.placeWrite asid q (Spec.bytes 8 d))) ∧
      (w = 1 → q.typ = 2 → exec (.nodeQualifiedRemoteAccess asid va w d) s = .next (t.writeCopies asid q (Spec.bytes 8 d)))) ∧
    (∀ l, (s.strands.flatMap (·.persists) ++ s.cores.flatMap (·.2.aPersists))[k]? = some l →
      (s.lineLost l.2 = true → exec (.persistConfirmation k) s = .next s) ∧
      (s.lineLost l.2 = false →
        ∃ t, exec (.persistConfirmation k) s = .next t ∧ { t with strands := s.strands, cores := s.cores } = s ∧
          t.strands = s.strands.map (fun x => { x with persists := x.persists.filter (· != l) }) ∧ (∀ x ∈ t.strands, l ∉ x.persists) ∧
          ∀ c, t.core c = { s.core c with aPersists := (s.core c).aPersists.filter (· != l) }))

/-! ### Homes, page movement and the wedger (R313, R315, R320 to R322, R340 to R345) -/

namespace Sys2Proof.Spec

/-- A field of a control block as the device writes it; a block that cannot be written is left. -/
def blockField (s : State) (asid va v : Nat) : State := (s.devWrite asid va 8 v).getD s

/-- The oldest movement request of a home leaves its queue with a status (R320). -/
def moveAnswered (s : State) (site poster va st : Nat) : State :=
  blockField (s.modSite site (fun x => { x with home := { x.home with moves := x.home.moves.drop 1 } })) poster (va + 0x20) st

/-- The oldest heap command leaves its queue with a result and a status (R340). -/
def heapAnswer (s : State) (poster va st result : Nat) : State :=
  blockField (blockField { s with heapCmds := s.heapCmds.drop 1 } poster (va + 0x38) result) poster (va + 0x30) st

/-- A leaf with a type and an address in place of its own (R309). -/
def leafAt (l typ pa : Nat) : Nat := l / 2 ^ 62 * 2 ^ 62 + typ * 2 ^ 59 + l / 2 ^ 48 % 2 ^ 11 * 2 ^ 48 + pa

/-- A page that FREE takes: its translations leave and its leaf loses V (R345). -/
def freePage (asid : Nat) (s : State) (p : Nat) : State :=
  match s.walk asid p with
  | .leaf l pa big _ =>
    let t := s.dropRange asid p (p + pageBytes big)
    { t with mem := t.mem.writeBytes pa (Spec.bytes 8 (l % 2 ^ 63)) }
  | .np _ _ => s

/-- The forwarding entries of a cycle in one state. -/
def inState (c : Cycle) (f : FwdState) : Nat := (c.fwd.filter (fun e => e.2.2 == f)).length

end Sys2Proof.Spec

/-- R313 and R315: the oldest waiting pinning request is admitted when the table of 4,096 has room for all of it, and waits otherwise; a held
entry's hotness record is written back to its place in the table. -/
def Sys2Proof.Rule.PinAndHotness : Prop :=
  ∀ (s : State) (i k : Nat),
    (∀ q rest, (s.site i).home.waiting = q :: rest →
      ((s.site i).home.pinned + q.pages.length ≤ 4096 → ∃ t, exec (.pinAdmit i) s = .next t ∧ { t with sites := s.sites } = s ∧
        t.site i = { s.site i with home := { (s.site i).home with pins := (s.site i).home.pins ++ [q], waiting := rest } }) ∧
      (4096 < (s.site i).home.pinned + q.pages.length → exec (.pinAdmit i) s = .next s)) ∧
    (∀ e, (s.site i).home.cache[k]? = some e → exec (.hotnessWriteback i k) s =
      .next { s with mem := s.mem.writeBytes (e.leafPa + 0x2000) (Spec.bytes 8 e.hot.toNat) })

/-- R310, R311, R320 to R322: the movement event of a request's OP begins the movement: the page is marked as moving and its L1 lines leave; the next
such event completes it: MIGRATE copies the frame of an ordinary or managed page, REPLICATE fills the four copies of an ordinary 64 KiB page,
COLLAPSE leaves one frame, and the leaf, the entry, the hotness record and STATUS 1 are written. RESET_HOTNESS clears the counts below HPIN at
once. A page of another type gets status 3, an address that breaks R309 or R355, a wrong home or size, or a malformed request status 2, and a
page that is not present status 4. The two events of a movement are a reading of the model (log 28), and an event that meets a page out of the
device's reach is made again whole (`orAsk`, log 70). -/
def Sys2Proof.Rule.MovementEvents : Prop :=
  ∀ (s : State) (i poster va : Nat) (rest : List (Nat × Nat)), (s.site i).home.moves = (poster, va) :: rest → s.blocked = false →
    ∀ op ev, (op, ev) ∈ [(1, Instr.moveMigrate i), (2, .moveReplicate i), (3, .moveCollapse i), (4, .moveResetHotness i)] →
    let s0 := s.devTouch poster va
    (∀ m, (s.site i).home.moving = some m → (m.op ≠ op → exec ev s = .next s) ∧
      (m.op = op → exec ev s = .next (s.orAsk (Spec.moveAnswered (s.endMove i m) i poster va 1)))) ∧
    ((s.site i).home.moving = none → s0.devReads poster va 8 = none → exec ev s =
      .next (s.orAsk (s0.modSite i (fun x => { x with home := { x.home with moves := x.home.moves.drop 1 } })))) ∧
    (∀ t d, (s.site i).home.moving = none → s0.devReads poster va 8 = some (t, d) →
      let asid := d.getD 0 0 / 2 ^ 16 % 2 ^ 16
      let page := d.getD 1 0
      let pa := d.getD 2 0
      (moveShape va d = false → exec ev s = .next (s.orAsk (Spec.moveAnswered t i poster va 2))) ∧
      (moveShape va d = true → d.getD 0 0 % 8 = op →
        ((2 ^ 56 ≤ page ∨ page % 2 ^ 16 ≠ 0 ∨ isLocal page = true) → exec ev s = .next (s.orAsk (Spec.moveAnswered t i poster va 2))) ∧
        (page < 2 ^ 56 → page % 2 ^ 16 = 0 → isLocal page = false →
          (∀ r lv, t.homeEntry asid page = .error (.np r lv) →
            exec ev s = .next (s.orAsk (Spec.moveAnswered (t.logWalk asid 0 page r) i poster va 4))) ∧
          (t.homeEntry asid page = .error .full → exec ev s = .next (s.orAsk t)) ∧
          (∀ u e lv, t.homeEntry asid page = .ok (u, e, lv) →
            let l := e.leaf.toNat
            let src := leafAddr l
            let typ := leafType l
            let frames := (List.range 4).map (fun j => u.mem.read (pa + 8 * j) 8)
            let kept := u.mem.read (src + 8 * (d.getD 3 0 % 4)) 8
            let done (st : Nat) := exec ev s = .next (s.orAsk (Spec.moveAnswered u i poster va st))
            let fits (typ : Nat) := pa < 2 ^ 48 ∧ u.leafOk (Spec.leafAt l typ pa) e.big = true
            let begins (src : Nat) (dsts : List Nat) (leaf : Nat) := exec ev s =
              .next (s.orAsk (u.beginMove i e { op, asid := e.asid, page := e.page, big := e.big, src, dsts, leaf }))
            ((page % (if e.big then 2 ^ 26 else 2 ^ 16) ≠ 0 ∨ homeOf page e.big ≠ i % 4) → done 2) ∧
            (page % (if e.big then 2 ^ 26 else 2 ^ 16) = 0 → homeOf page e.big = i % 4 →
              (op = 1 → (typ ≠ 0 ∧ typ ≠ 3) → done 3) ∧
              (op = 1 → (typ = 0 ∨ typ = 3) → (¬fits typ → done 2) ∧ (fits typ → begins src [pa] (Spec.leafAt l typ pa))) ∧
              (op = 2 → (typ ≠ 0 ∨ e.big = true) → done 3) ∧
              (op = 2 → typ = 0 → e.big = false → ((∃ f ∈ frames, f % 2 ^ 16 ≠ 0 ∨ u.hbmEnd ≤ f) → done 2) ∧
                (¬fits 2 → done 2) ∧ (fits 2 → begins src frames (Spec.leafAt l 2 pa))) ∧
              (op = 3 → typ ≠ 2 → done 3) ∧
              (op = 3 → typ = 2 → e.big = false → (¬fits 0 → done 2) ∧ (fits 0 → begins kept [pa] (Spec.leafAt l 0 pa))) ∧
              (op = 4 → ∃ w, exec ev s = .next (s.orAsk (Spec.moveAnswered w i poster va 1)) ∧
                let h := BitVec.ofNat 64 (e.hot.toNat / 2 ^ 48 * 2 ^ 48)
                w.mem = u.mem.writeBytes (e.leafPa + 0x2000) (Spec.bytes 8 h.toNat) ∧
                { w with mem := u.mem } = u.modEntry e (fun o => { o with hot := h })))))))

/-- R321, R322: what a movement's two events do: the first marks the page and drops its L1 lines, memory staying as it is; the second copies the
frame to each new one, with its poison, writes the leaf and the hotness record, leaves the entry with the new leaf and not moving, and gives the
accesses that stalled the next turns in order of arrival. -/
def Sys2Proof.Rule.MovementSteps : Prop :=
  ∀ (s : State) (i : Nat) (e : HomeEntry) (m : Movement),
    (let w := s.beginMove i e m;
      w.mem = s.mem ∧ (w.site i).home.moving = some m ∧
        (∀ f ∈ s.leafFrames e.leaf.toNat, ∀ c, ∀ l ∈ (w.core c).l1d, ¬(f < l.key + 32 ∧ l.key < f + pageBytes e.big)) ∧
        ∀ o ∈ (w.site e.site).home.cache, e.same o = true → o.moving = true) ∧
    (m.entry { (s.site i).home with moving := none } = some e → let size := if e.big then 2 ^ 26 else 2 ^ 16
      (∀ f ∈ m.src :: m.dsts, s.cxlDeadIn f size = false) → let w := s.endMove i m
      e.asid = m.asid ∧ e.page = m.page ∧ e.big = m.big ∧ w.agenda = m.stalled ++ s.agenda ∧
      w.mem = ((m.dsts.foldl (fun x f => if f = m.src then x else x.copy m.src f size) s.mem).writeBytes e.leafPa
        (Spec.bytes 8 m.leaf)).writeBytes (e.leafPa + 0x2000) (Spec.bytes 8 e.hot.toNat) ∧
      (e.site = i % 4 → (w.site i).home.moving = none ∧
        ∀ o ∈ (w.site i).home.cache, e.same o = true → o.leaf = BitVec.ofNat 64 m.leaf ∧ o.moving = false))

/-- Events of a home: `Rule.PinAndHotness`, `Rule.MovementEvents` and `Rule.MovementSteps` together. -/
def Obligations.PageEvents : Prop :=
  Sys2Proof.Rule.PinAndHotness ∧ Sys2Proof.Rule.MovementEvents ∧ Sys2Proof.Rule.MovementSteps

/-- R340 to R345: FLIP checks its lists, loads the forwarding table and flips the colour on every core that runs the address space, with
status 3 while a cycle runs, 6 beyond eight cycles, 5 for lists that cannot be read and 4 for lists that break R342; COPY takes the
pending entries in list order, an object whose page is pinned retaining its page, one on a page that is being moved waiting, and counts what it
did; FREE waits for the q registers, and for pins and movements of the pages, then the leaves of the pages not retained lose V and the cycle
ends; COPY and FREE out of turn have status 3; a block that breaks R340 has status 2, whichever command it is served as, and one that cannot be read
leaves the queue. That a command takes
effect in one event is a reading of the model (logs 28 and 53), and one that meets a page out of the device's reach is served again whole (`orAsk`,
log 70). -/
def Obligations.WedgerEvents : Prop :=
  ∀ (s t : State) (poster va : Nat) (d : List Nat),
    (s.heapHead = none → ∀ ev, ev ∈ [Instr.flip, .copy, .free] →
      ∀ a v rest, s.heapCmds = (a, v) :: rest → exec ev s = .next (s.orAsk { s.devLeft a v 8 with heapCmds := rest })) ∧
    (s.heapHead = some (t, poster, va, d) →
    (heapShape va d = false → ∀ ev, ev ∈ [Instr.flip, .copy, .free] → exec ev s = .next (s.orAsk (Spec.heapAnswer t poster va 2 0))) ∧
    (heapShape va d = true → let asid := d.getD 0 0 / 2 ^ 16 % 2 ^ 16
    let op := d.getD 0 0 % 4
    (op = 1 → let (lo, n) := (d.getD 1 0, d.getD 2 0)
      let (lo2, n2) := (d.getD 3 0, 2 * d.getD 4 0)
      (t.cycle asid ≠ none → exec .flip s = .next (s.orAsk (Spec.heapAnswer t poster va 3 0))) ∧
      (t.cycle asid = none → 8 ≤ t.cycles.length → exec .flip s = .next (s.orAsk (Spec.heapAnswer t poster va 6 0))) ∧
      (t.cycle asid = none → t.cycles.length < 8 → t.devReads poster lo n = none →
        exec .flip s = .next (s.orAsk (Spec.heapAnswer (t.devLeft poster lo n) poster va 5 0))) ∧
      (∀ t1 sl, t.cycle asid = none → t.cycles.length < 8 → t.devReads poster lo n = some (t1, sl) →
        t1.devReads poster lo2 n2 = none → exec .flip s = .next (s.orAsk (Spec.heapAnswer (t1.devLeft poster lo2 n2) poster va 5 0))) ∧
      (∀ t1 t2 sl cl, t.cycle asid = none → t.cycles.length < 8 → t.devReads poster lo n = some (t1, sl) →
        t1.devReads poster lo2 n2 = some (t2, cl) →
        let set := (sl.map (fun e => e / 2 * 2)).zip ((List.range n).map (fun j => lo + 8 * j))
        let fwd := (pairsOf cl).map (fun p => (p.1, p.2, FwdState.pending))
        let c : Cycle := { asid, poster, stage := .flipped, retained := [], set, fwd }
        let good := (∀ e ∈ sl, e / 2 * 2 % 2 ^ 16 = 0 ∧ e < 2 ^ 56) ∧ t2.flipOk c = true
        (¬good → exec .flip s = .next (s.orAsk (Spec.heapAnswer t2 poster va 4 0))) ∧
        (good → ∀ sp, t2.space asid = some sp → ∃ u, exec .flip s = .next (s.orAsk (Spec.heapAnswer u poster va 1 0)) ∧
          { u with cycles := t2.cycles, spaces := t2.spaces, cores := t2.cores } = t2 ∧ u.cycles = t2.cycles ++ [c] ∧
          u.space asid = some { sp with colour := !sp.colour } ∧
          u.cores = t2.cores.map (fun p => (p.1, if p.2.u.as = asid then { p.2 with heapphase := !sp.colour } else p.2))))) ∧
    (op = 2 →
      ((∀ c, t.cycle asid = some c → c.stage = .copied) → exec .copy s = .next (s.orAsk (Spec.heapAnswer t poster va 3 0))) ∧
      (∀ c c1, t.cycle asid = some c → c.stage = .flipped → let t1 := t.copyRun asid c.fwd
        t1.cycle asid = some c1 →
          (Spec.inState c1 .pending ≠ 0 → exec .copy s = .next (s.orAsk t1)) ∧
          (Spec.inState c1 .pending = 0 → exec .copy s = .next (s.orAsk
            (Spec.heapAnswer (t1.modCycle asid (fun c => { c with stage := .copied })) poster va 1
              (Spec.inState c1 .copied + min 0xFFFF (Spec.inState c1 .skipped) * 2 ^ 32 + min 0xFFFF c1.retained.length * 2 ^ 48))))) ∧
      (∀ e rest, (t.forward asid e.1 = none → t.copyRun asid (e :: rest) = t) ∧
        ∀ u n, t.forward asid e.1 = some (u, n) → u.blocked = false → t.copyRun asid (e :: rest) = u.copyRun asid rest) ∧
      (∀ c old new t1 e lv, c.asid = asid → (∃ e ∈ c.fwd, e.2.2 ≠ .pending) → t.homeEntry asid old = .ok (t1, e, lv) →
        let n := (objLength t1.mem (t1.framePlace (deviceWho asid 0 .look) old e).key + 7) / 8 * 8
        let moving := t1.rangeMoving asid old (old + n) = true ∨ t1.rangeMoving asid new (new + n) = true
        (0 < e.hpin → t.relocate c old new = some (t1.retain c old)) ∧
        (e.hpin = 0 → t1.freshRange c (n / 0x1_0000 + 2) new n = false → t.relocate c old new = some (t1.retain c old)) ∧
        (e.hpin = 0 → t1.freshRange c (n / 0x1_0000 + 2) new n = true → moving → t.relocate c old new = none) ∧
        (e.hpin = 0 → t1.freshRange c (n / 0x1_0000 + 2) new n = true → ¬moving → t.relocate c old new =
          (t1.copyObject (deviceWho asid 0 .look) (n / 0x8000 + 4) old new n).map
            (fun u => u.modCycle asid (fun c => c.mark old .copied))))) ∧
    (op = 3 →
      ((∀ c, t.cycle asid = some c → c.stage = .flipped) → exec .free s = .next (s.orAsk (Spec.heapAnswer t poster va 3 0))) ∧
      (∀ c, t.cycle asid = some c → c.stage = .copied → let t0 := t.touchSpills asid
        let pages := (c.set.map (·.1)).filter (fun p => !c.retained.contains p)
        let held := ∃ p ∈ pages, ∃ l pa big lv, t0.walk asid p = .leaf l pa big lv ∧
          (t0.rangePinned asid p (p + pageBytes big) = true ∨ t0.rangeMoving asid p (p + pageBytes big) = true)
        (t0.freeWaits c = true ∨ held → exec .free s = .next (s.orAsk t0)) ∧
        (t0.freeWaits c = false → ¬held →
          let t1 := pages.foldl (Spec.freePage asid) t0
          exec .free s = .next (s.orAsk (Spec.heapAnswer { t1 with cycles := t1.cycles.filter (fun o => o.asid != asid) } poster va 1
            pages.length)))))))

/-! ### Resets and the management registers (R352, R379, R388 to R390, R400 to R406) -/

namespace Sys2Proof.Spec

/-- R388, R389: nothing runs, waits or is bound; contents of HBM4E outlive a warm reset only, scratchpads and lane slices none; the module
is in step 1 of bring-up with its measurements zero, and TIME starts again at a cold reset. -/
def IsReset (s t : State) (cold : Bool) : Prop :=
  t.mgmt.ready = false ∧ t.mgmt.phase = 1 ∧ t.mgmt.booted = false ∧ t.mgmt.lastCold = cold ∧ t.mgmt.stopped = false ∧
    t.mgmt.resetReq = false ∧ t.mgmt.measure = .replicate 8 0 ∧ t.mgmt.capMode = 0 ∧ t.mgmt.asbindCmd = none ∧
    t.strands = [] ∧ t.crews = [] ∧ t.spaces = [] ∧ t.jobs = [] ∧ t.runs = [] ∧ t.ops = [] ∧ t.flights = [] ∧ t.moves = [] ∧
    t.windows = [] ∧ t.cycles = [] ∧ t.ats = [] ∧ t.hostReqs = [] ∧
    (∀ c, (t.core c).uWork = .empty ∧ (t.core c).aWork = .idle ∧ (t.core c).arrival = [] ∧ (t.core c).entries = []) ∧
    (∀ a, t.mem.byte a = if (cold = false ∧ a < 2 ^ 46) ∨ (2 ^ 46 ≤ a ∧ a < 2 ^ 48) ∨ 2 ^ 64 ≤ a then s.mem.byte a else 0) ∧
    t.time = (if cold then 0 else s.time) ∧ t.cfg = s.cfg ∧ t.flash = { s.flash with pcPend := s.flash.pcPend ++ s.mgmt.pcFail }

/-- Measurement register 5 after a change of mode (R400, R403). -/
def modeMeasure (s : State) (mode : Nat) : BitVec 384 :=
  Config.sha3 (Spec.bytes 48 s.mgmt.measure[5].toNat ++ Spec.bytes 1 mode)

/-- CAPCTL refuses a mode: only RESULT changes (R403). -/
def capRefused (s : State) (result : Nat) : State := { s with mgmt := { s.mgmt with capResult := result } }

end Sys2Proof.Spec

/-- R388, R389: power-on and MODCTL.COLD start a cold reset and MODCTL.WARM a warm one; during a cold reset a write changes nothing, and
during a warm one only COLD does. -/
def Sys2Proof.Rule.ResetEvents : Prop :=
  ∀ (s : State) (port : Nat),
    (∃ t, exec .powerOnReset s = .next t ∧ Spec.IsReset s t true) ∧
    (s.mgmt.ready = true ∨ s.mgmt.lastCold = false → ∃ t, exec (.modctlCold port) s = .next t ∧ Spec.IsReset s t true) ∧
    (s.mgmt.ready = false → s.mgmt.lastCold = true → exec (.modctlCold port) s = .next s) ∧
    (s.mgmt.ready = true → ∃ t, exec (.modctlWarm port) s = .next t ∧ Spec.IsReset s t false) ∧
    (s.mgmt.ready = false → exec (.modctlWarm port) s = .next s)

/-- State at reset, and what the reset events leave: `Rule.ResetState` and `Rule.ResetEvents` together. What a reset keeps of the units
outside the module is a reading of the model (log 40). -/
def Obligations.ResetState : Prop := Sys2Proof.Rule.ResetState ∧ Sys2Proof.Rule.ResetEvents

/-- R289, R352: ASBIND does nothing before READY or while a command is in progress; a bind of a record that breaks R289 ends with RESULT
1, of an ASID that is bound with 2, and else binds the address space with RESULT 0, the record being read once where it waits for the
translation of its syscall ring or of a descriptor, and RESULT 1 where the ring breaks R353; an unbind of no bound record ends with RESULT 3, and
else stops the queues, kills the work, and ends with RESULT 0 once every strand of it has ended and no core has the ASID as owner, when nothing of it is left. The
corners of bind and unbind are readings of the model (log 38), and a command that meets a page out of the device's reach is tried again whole
(`orAsk`, log 70). -/
def Obligations.BindEvents : Prop :=
  ∀ (s : State) (port record : Nat), s.blocked = false → let pa := record / 2 ^ 7 % 2 ^ 41 * 128
    let d := (List.range 16).map (fun i => s.mem.read (pa + 8 * i) 8)
    let readable := s.goodPa pa = true ∧ s.goodPa (pa + 127) = true ∧ s.badRange pa 128 = false
    let busy : State := { s with mgmt := { s.mgmt with asbindCmd := some (false, pa) } }
    let held : State := { s with mgmt := { s.mgmt with asbindCmd := some (true, pa), asbindRec := some d } }
    (s.mgmt.ready = false ∨ s.mgmt.asbindCmd ≠ none → exec (.asbindBind port record) s = .next s ∧
      exec (.asbindUnbind port record) s = .next s) ∧
    (s.mgmt.ready = true → s.mgmt.asbindCmd = none → s.mgmt.asbindRec = none →
      (¬readable ∨ badSpace d = true → exec (.asbindBind port record) s = .next { s with mgmt := { s.mgmt with asbindResult := 1 } }) ∧
      (readable → badSpace d = false → (s.space (d.getD 0 0 % 2 ^ 16)).isSome = true →
        exec (.asbindBind port record) s = .next { s with mgmt := { s.mgmt with asbindResult := 2 } }) ∧
      (readable → badSpace d = false → s.space (d.getD 0 0 % 2 ^ 16) = none →
        let ring := ({ held with spaces := s.spaces ++ [spaceOf pa d] }).bindRing (spaceOf pa d);
        (∀ t sp, ring = .ok (t, sp) →
          ∃ u, exec (.asbindBind port record) s = .next (held.orAsk u) ∧ u.mgmt.asbindCmd = none ∧ u.mgmt.asbindResult = 0 ∧
            (u.space (d.getD 0 0 % 2 ^ 16)).isSome = true) ∧
        (ring = .error .bad → exec (.asbindBind port record) s = .next { s with mgmt := { s.mgmt with asbindResult := 1 } }) ∧
        (∀ t, ring = .error (.wait t) → exec (.asbindBind port record) s = .next (held.orAsk { t with spaces := s.spaces }))) ∧
      (s.spaces.find? (fun p => p.recPa == pa) = none →
        exec (.asbindUnbind port record) s = .next { s with mgmt := { s.mgmt with asbindResult := 3 } }) ∧
      (∀ sp, s.spaces.find? (fun p => p.recPa == pa) = some sp →
        let t := (busy.stopQueues sp).killSpace sp.asid
        let left := (∃ x ∈ t.strands, x.asid = sp.asid) ∨ ∃ p ∈ t.cores, p.2.owner = some sp.asid
        (left → exec (.asbindUnbind port record) s = .next (busy.orAsk t)) ∧
        (¬left → Spec.seated t → ∃ u, exec (.asbindUnbind port record) s = .next (busy.orAsk u) ∧
          u.mgmt.asbindCmd = none ∧ u.mgmt.asbindResult = 0 ∧ u.space sp.asid = none ∧
          (∀ x ∈ u.jobs, x.asid ≠ sp.asid) ∧ (∀ x ∈ u.runs, x.asid ≠ sp.asid) ∧ (∀ x ∈ u.windows, x.asid ≠ sp.asid) ∧
          (∀ x ∈ u.ats, x.asid ≠ sp.asid) ∧ (∀ x ∈ u.hostReqs, x.asid ≠ sp.asid) ∧ (∀ x ∈ u.cycles, x.asid ≠ sp.asid) ∧
          u.mem = t.mem)))

/-- R379, R400 to R406: an attestation request is in progress until its report is written, to the area in HBM4E behind the nonce that the request
found there, refused with RESULT 1 for a bad area and 2 for a
poisoned nonce, or to the report window before training has ended, and another write is ignored meanwhile; CAPCTL changes its mode only with nothing bound and, for modes 1 and
2, with a ring that obeys R404 (and, in replay, a capture of this grade and live cores for every recorded choice), measuring the new mode; ring space that returns lifts STALL;
replay ends with event 8, to the address space that the choice is of, when one has not been forced for 1 s; a write of the log register sets the log where an image runs, one of the window its nonce,
one of CAPCTL is a change of mode by its MODE field, and any other register here ignores a write. When a report ends, the places of capture records, whether a capture is of this grade, and whom event 8 is told where the state does not
show whose choice it is, are the model's (logs 32, 37 and 56). -/
def Obligations.ManagementEvents : Prop :=
  ∀ (s : State) (port a b : Nat),
    let result := if s.flash.image = none then 3 else 0
    let asks (x : Bool × Nat × List Byte) : State := { s with mgmt := { s.mgmt with attArea := a, attReq := some x } }
    (s.mgmt.booted = false ∨ s.mgmt.attReq ≠ none → exec (.attestRequest port a) s = .next s) ∧
    (s.mgmt.booted = true → s.mgmt.attReq = none →
      (3 < s.mgmt.phase → a % 64 = 0 → a + 4096 ≤ s.hbmEnd → s.mem.poisoned a 32 = false →
        exec (.attestRequest port a) s = .next (asks (false, a, s.mem.bytes a 32))) ∧
      (3 < s.mgmt.phase → (a % 64 ≠ 0 ∨ s.hbmEnd < a + 4096) → exec (.attestRequest port a) s =
        .next { s with mgmt := { s.mgmt with attArea := a, attResult := 1 } }) ∧
      (3 < s.mgmt.phase → a % 64 = 0 → a + 4096 ≤ s.hbmEnd → s.mem.poisoned a 32 = true → exec (.attestRequest port a) s =
        .next { s with mgmt := { s.mgmt with attArea := a, attResult := 2 } }) ∧
      (s.mgmt.phase ≤ 3 → exec (.attestRequest port a) s = .next (asks (true, a, s.windowNonce)))) ∧
    (s.mgmt.attReq = none → attestStep s = s) ∧
    (∀ nonce, s.mgmt.attReq = some (false, a, nonce) → let t := attestStep s
      t.mem = s.mem.writeBytes (a + 0x40) (s.report nonce) ∧
        t.mgmt = { s.mgmt with attReq := none, attResult := result } ∧ Spec.CachesOnly s { t with mem := s.mem, mgmt := s.mgmt }) ∧
    (∀ nonce, s.mgmt.attReq = some (true, a, nonce) → attestStep s = { s with mgmt := { s.mgmt with
      attReq := none, attResult := result, window := s.windowNonce ++ List.replicate 32 0 ++ s.report nonce } }) ∧
    (s.spaces ≠ [] → exec (.captureModeOff port) s = .next (Spec.capRefused s 1)) ∧
    (s.spaces = [] → ∃ t, exec (.captureModeOff port) s = .next t ∧ t = { s with mgmt := t.mgmt } ∧ t.mgmt.capMode = 0 ∧
      t.mgmt.capResult = 0 ∧ (s.mgmt.capMode ≠ 0 → t.mgmt.capStall = false ∧ t.mgmt.measure[5] = Spec.modeMeasure s 0)) ∧
    (∀ i m, (i = .captureModeOn port a b ∧ m = 1) ∨ (i = .replayModeOn port a b ∧ m = 2) →
      (s.mgmt.ready = false → exec i s = .next s) ∧
      (s.mgmt.ready = true → s.spaces ≠ [] → exec i s = .next (Spec.capRefused s 1)) ∧
      (s.mgmt.ready = true → s.spaces = [] → s.ringBad a b = true → exec i s = .next (Spec.capRefused s 4)) ∧
      (s.mgmt.ready = true → s.spaces = [] → s.ringBad a b = false →
        let absent := ∃ x ∈ s.ringChoices a b, ∃ c ∈ choiceCores x, s.live c = false
        let other := Config.freeBool s.free = true
        let s1 : State := if m = 2 then { s with free := s.free + 1 } else s
        (m = 2 → other → exec i s = .next (Spec.capRefused s1 3)) ∧
        (m = 2 → ¬other → absent → exec i s = .next (Spec.capRefused s1 2)) ∧
        ((m = 2 → ¬other ∧ ¬absent) → ∃ t, exec i s = .next t ∧ t = { s1 with mgmt := t.mgmt } ∧ t.mgmt.capMode = m ∧ t.mgmt.capResult = 0 ∧
          t.mgmt.capRing = a ∧ t.mgmt.capLogn = b ∧ t.mgmt.capPos = 0 ∧
          (s.mgmt.capMode ≠ m → t.mgmt.capStall = false ∧ t.mgmt.measure[5] = Spec.modeMeasure s m)))) ∧
    (s.capRoom 1 = true → exec .captureRingSpace s = .next { s with mgmt := { s.mgmt with capStall := false } }) ∧
    (∀ asid d, s.mgmt.capMode = 2 → s.replayNext = some d → s.mgmt.capSince + 100000000 ≤ s.time.toNat →
      (∀ x, s.choiceOf d = some x → exec (.replayForceTimeout asid a b) s =
        .next ((s.setCapMode 0).event x.1 8 (x.2.1 % 64) x.2.2 s.mgmt.capPos)) ∧
      (s.choiceOf d = none → exec (.replayForceTimeout asid a b) s =
        .next ((s.setCapMode 0).event asid 8 (a % 64) b s.mgmt.capPos))) ∧
    (∀ asid, (s.mgmt.capMode ≠ 2 ∨ s.replayNext = none) → exec (.replayForceTimeout asid a b) s = .next s) ∧
    (∀ asid, s.time.toNat < s.mgmt.capSince + 100000000 → exec (.replayForceTimeout asid a b) s = .next s) ∧
    (s.mgmt.booted = false ∨ s.flash.image ≠ none → exec (.registerWrite port 0x208 a) s =
      .next { s with mgmt := { s.mgmt with logReg := BitVec.ofNat 64 (a % 2 ^ 48), logPos := 0 } }) ∧
    (s.mgmt.booted = true → s.flash.image = none → exec (.registerWrite port 0x208 a) s = .next s) ∧
    (∀ j, j < 4 → s.mgmt.booted = true → ∃ t, exec (.registerWrite port (0x1000 + 8 * j) a) s = .next t ∧
      t = { s with mgmt := { s.mgmt with window := t.mgmt.window } } ∧ t.mgmt.window.drop 32 = s.mgmt.window.drop 32 ∧
      ∀ i, i < 32 → t.mgmt.window[i]? = if 8 * j ≤ i ∧ i < 8 * j + 8 then (Spec.bytes 8 a)[i - 8 * j]? else
        some (s.mgmt.window.getD i 0)) ∧
    (a < 2 ^ 64 → let ring := a / 64 % 2 ^ 42 * 64
      (a / 2 ^ 62 = 0 → s.spaces ≠ [] → exec (.registerWrite port 0x228 a) s = .next (Spec.capRefused s 1)) ∧
      (a / 2 ^ 62 = 0 → s.spaces = [] → s.mgmt.ready = true → ∀ t, exec (.captureModeOff port) s = .next t →
        exec (.registerWrite port 0x228 a) s = .next { t with mgmt := { t.mgmt with capRing := ring, capLogn := a % 64 } }) ∧
      (a / 2 ^ 62 = 1 → exec (.registerWrite port 0x228 a) s = exec (.captureModeOn port ring (a % 64)) s) ∧
      (a / 2 ^ 62 = 2 → exec (.registerWrite port 0x228 a) s = exec (.replayModeOn port ring (a % 64)) s) ∧
      (a / 2 ^ 62 = 3 → exec (.registerWrite port 0x228 a) s = .next s)) ∧
    (∀ o, o ≠ 0x208 → o ≠ 0x228 → (o < 0x1000 ∨ 0x1020 ≤ o) → exec (.registerWrite port o a) s = .next s)

/-! ### Launch queues, dispatch and system-call rings (R291 to R300, R305, R354) -/

namespace Sys2Proof.Spec

/-- A strand of a record stands in the U context of core c at the record's entry, x4 to x7 as given (R26). -/
def Started (t : State) (c asid : Nat) (r : Rec) (x4 : Nat) : Prop :=
  let k := t.core c
  k.uWork = .strand ∧ k.u.pc = BitVec.ofNat 64 r.entry ∧ k.u.asid = BitVec.ofNat 16 asid ∧ k.u.priv = false ∧
    k.u.getX 4 = BitVec.ofNat 64 x4 ∧ ∀ i, 1 ≤ i → i < 4 → k.u.getX (BitVec.ofNat 5 (4 + i)) = BitVec.ofNat 64 (r.args.getD i 0)

/-- Core c can take a strand of an address space at once, and no kept token waits for one. -/
def openTo (s : State) (c asid : Nat) : Prop :=
  s.mayEnter c = true ∧ oldestReady (s.core c).arrival = none ∧ (s.core c).prevAsid = asid ∧ s.kept = []

/-- The effective priority of a queue. -/
def eprio (s : State) (asid q : Nat) : Option Nat := ((s.space asid).bind (·.queue q)).map (·.eprio)

/-- Entry j of a cluster's queue notes since when its record is ready. -/
def noted (s : State) (c j : Nat) : State := s.modCluster c (fun k => { k with tasks := k.tasks.modify j (fun x => x.seen s) })

/-- The cluster entries of a record that becomes ready now note it. -/
def stamped (s : State) (asid va : Nat) : State :=
  { s with clusters := s.clusters.map (fun p => (p.1, { p.2 with tasks := p.2.tasks.map (fun e =>
      if e.asid = asid ∧ e.record = va then { e with since := some s.time.toNat } else e) })) }

end Sys2Proof.Spec

/-- R291, R292, R297: JOB_TAKE of a published job frees its slot for the next lap and advances HEAD, then makes its record ready, or
instantiates its template, or skips a malformed job with a CBFMT event; a job that is not published is not taken; a record with wait count 0
becomes ready by one atomic from status 0 to 1 and joins its queue's ready list; a cluster queue entry's record is rechecked the same way.
That a job whose template finds no run slot waits for one, and that an entry notes since when its record is ready, are the model's (logs 33, 49); so
is that an event that meets a page out of the device's reach is made again whole (`orAsk`, log 70). -/
def Sys2Proof.Rule.LaunchQueueEvents : Prop :=
  ∀ (s : State) (asid q : Nat), s.blocked = false →
    (let s0 := s.touchQueue asid q
      ∀ sp k s1 p s2 d, s0.space asid = some sp → sp.queue q = some k → s0.devRead asid (sp.descVa q + 0x20) 8 = some (s1, p) →
      s0.queueRuns asid q = true → 0 < k.slots → let slot := k.ring + p % k.slots * 64
      s1.devReads asid slot 8 = some (s2, d) → s0.mgmt.capMode = 0 → s2.mgmt.capMode = 0 → k.frozen = false →
      (∀ j ∈ s0.jobs, ¬(j.asid = asid ∧ j.queue = q ∧ j.waits ≠ none)) →
      let g (i : Nat) : Nat := d.getD i 0
      let job (isRun : Bool) : Job := { asid, queue := q, pos := p, record := g 2, isRun, completion := g 4 }
      let head := sp.descVa q + 0x20
      let taken (w : State) : Prop := w.mgmt.capMode = 0 → exec (.jobTake asid q) s = .next (s.orAsk w)
      (g 0 ≠ p + 1 → exec (.jobTake asid q) s = .next (s.orAsk s0)) ∧
      (∀ t1 t, g 0 = p + 1 → s2.devWrite asid slot 8 (p + k.slots) = some t1 → t1.devWrite asid head 8 (p + 1) = some t →
        (badJob d = true → taken (t.skipJob asid q slot 2 (g 4) p)) ∧
        (badJob d = false → g 1 = 0 → let t0 := t.devTouch asid (g 2)
          ∀ u v st w, t0.recordStatus asid (g 2) = some (u, st) → t0.recordWait asid (g 2) = some (v, w) →
          (st = 0 → w = 0 → taken ({ t0 with jobs := t0.jobs ++ [job false] }.makeReady asid (g 2) q)) ∧
          (st ≠ 0 ∨ w ≠ 0 → taken (t0.skipJob asid q slot 2 (g 4) p))) ∧
        (badJob d = false → g 1 = 1 → taken (t.startRun (job true) (g 2) (g 3))))) ∧
    (∀ (j : Job) template patch,
      (∀ e, s.instantiate j.asid template patch j.queue = .error e →
        s.startRun j template patch = s.skipJob j.asid j.queue template 4 j.completion j.pos) ∧
      (∀ u, s.instantiate j.asid template patch j.queue = .ok (u, 0) →
        s.startRun j template patch = { u with jobs := u.jobs ++ [{ j with waits := some (template, patch) }] }) ∧
      (∀ u h, s.instantiate j.asid template patch j.queue = .ok (u, h) → h ≠ 0 →
        let w : State := { u with jobs := u.jobs ++ [{ j with record := h }] }
        ∀ r, w.runs.reverse.find? (fun r => r.asid == j.asid && r.handle == h) = some r →
          s.startRun j template patch = if r.left = 0 then w.endJob j.asid h r.bad else w)) ∧
    (∀ va t u, s.recordWait asid va = some (t, 0) → t.casStatus asid va 0 1 = some u →
      (∀ r, s.runOf asid va = some r → r.released = true → exec (.recordReady asid va) s =
        .next (s.orAsk (u.modQueue asid r.origin (fun k => { k with ready := k.ready ++ [{ record := va, since := u.time.toNat }] })))) ∧
      (s.runOf asid va = none → s.clusterHolds asid va = true → exec (.recordReady asid va) s = .next (s.orAsk (Spec.stamped u asid va))) ∧
      (∀ c j e, (s.cluster c).tasks[j]? = some e → e.asid = asid → e.record = va →
        exec (.clusterTaskRecheck c j) s = .next (s.orAsk (Spec.noted (Spec.stamped u asid va) c j)))) ∧
    (∀ va t w, s.recordWait asid va = some (t, w) → w ≠ 0 →
      (∀ r, s.runOf asid va = some r → r.released = true → exec (.recordReady asid va) s = .next (s.orAsk t)) ∧
      (∀ c j e, (s.cluster c).tasks[j]? = some e → e.asid = asid → e.record = va →
        exec (.clusterTaskRecheck c j) s = .next (s.orAsk (Spec.noted t c j)))) ∧
    (∀ (e : ClEntry) u st, s.recordStatus e.asid e.record = some (u, st) → (e.seen s).since =
      if st = 1 then (if e.since = none then some s.time.toNat else e.since) else none) ∧
    (∀ va r, s.runOf asid va = some r → r.released = false → exec (.recordReady asid va) s = .next s)

/-- R26, R292 to R297: of the records that a site could dispatch, one that breaks R30 leaves its queue with a CBFMT event, one that can
never be placed completes faulted, and a single-strand record whose status goes from 1 to 2 starts on its core, which runs its entry with
x4 to x7 from the record; a cluster task starts the same way with x4 the record's address, and while it finds no core the younger entries wait
behind it, but a crew larger than its cluster's live cores completes faulted; the oldest crew unplaced for 2 ms reserves its
best site; a queue whose oldest record has waited 8 ms gains one level of effective priority, and one more for each further 8 ms, up to 7.
Ties among cores and the place of a cluster's crew among those that wait are readings of the model (log 49); so is that a decision that meets a page
out of the device's reach is made again whole (`orAsk`, log 70). -/
def Obligations.DispatchEvents : Prop :=
  ∀ (s : State) (i a q : Nat) (k : LQueue), s.blocked = false →
    (let s0 := s.touchReady i
      ∀ r x, s0.dispatchable i = [((a, q, k), r, x)] →
      (x = .bad → exec (.dispatch i) s =
        .next (s.orAsk (((s0.dropReady a q r.record).cbfmtEvent a q r.record 3).endJob a r.record true))) ∧
      (x = .never → exec (.dispatch i) s = .next (s.orAsk (s0.unplaceable a q r.record))) ∧
      (∀ rec c t, x = .on rec [c] → rec.size < 2 → s0.mgmt.capMode = 0 → Spec.openTo s0 c a → s0.reservedSite a r.record = none →
        (s0.unready a q r.record).casStatus a r.record 1 2 = some t →
        ∃ u, exec (.dispatch i) s = .next (s.orAsk u) ∧ Spec.Started u c a rec (rec.args.getD 0 0)) ∧
      (∀ rec cores, x = .on rec cores → s0.mgmt.capMode = 0 → (s0.unready a q r.record).casStatus a r.record 1 2 = none →
        exec (.dispatch i) s = .next (s.orAsk (((s0.unready a q r.record).claimRec a r.record q).1.unreserve a r.record)))) ∧
    ((s.touchReady i).dispatchable i = [] → exec (.dispatch i) s = .next (s.orAsk (s.touchReady i))) ∧
    (let s0 := s.touchTasks i
      ∀ e rest rec, (s.cluster i).tasks = e :: rest → s0.queueRuns e.asid e.origin = true → s0.readRec e.asid e.record = some rec →
      rec.status = 1 → (rec.cls = 0 ∨ rec.cls.testBit 2 = true) → rec.size ≤ 16 →
      (2 ≤ rec.size → (s0.clusterCores i).length < rec.size →
        exec (.clusterTaskDispatch i) s = .next (s.orAsk ((s0.dropTask i e).failCrew e.asid e.origin e.record))) ∧
      ((rec.size < 2 ∨ rec.size ≤ (s0.clusterCores i).length) → s0.mgmt.capMode = 0 →
        (s0.seatTask i e rec = none → exec (.clusterTaskDispatch i) s = .next (s.orAsk s0)) ∧
        (∀ c t, rest = [] → rec.size < 2 → s0.seatTask i e rec = some [c] → (s0.cluster i).tasks = [e] →
          Spec.openTo s0 c e.asid → s0.reservedSite e.asid e.record = none → (s0.freeTask i e).casStatus e.asid e.record 1 2 = some t →
          ∃ u, exec (.clusterTaskDispatch i) s = .next (s.orAsk u) ∧ Spec.Started u c e.asid rec e.record ∧ (u.cluster i).tasks = [] ∧
            (u.cluster i).lastCore = c))) ∧
    ((s.site i).reserve ≠ none → exec (.crewReservation i) s = .next s) ∧
    (∀ pre since r post, (s.site i).reserve = none →
      (s.queueCrews ++ s.clusterCrews).filter (fun x => s.siteFor x.2 == i % 4 && (s.reservedSite x.2.asid x.2.record).isNone &&
        s.queueRuns x.2.asid x.2.queue) =
        pre ++ (since, r) :: post → (∀ x ∈ pre, since < x.1) → (∀ x ∈ post, since ≤ x.1) →
      ∃ t, exec (.crewReservation i) s = .next t ∧ { t with sites := s.sites } = s ∧
        t.site i = { s.site i with reserve := some r }) ∧
    (∀ r rest, (s.space a).bind (·.queue q) = some k → k.ready = r :: rest →
      let since := max r.since (max k.lastDispatch k.raisedAt)
      let due := since + 800000 ≤ s.time.toNat
      (due → k.eprio < 7 → ∃ t, exec (.eprioRaise a q) s = .next (s.orAsk t) ∧
        Spec.eprio t a q = some (min 7 (k.eprio + (s.time.toNat - since) / 800000))) ∧
      (¬due ∨ 7 ≤ k.eprio → exec (.eprioRaise a q) s = .next s))

/-- R299, R300, R305, R354: STATE 2 cancels every ready and pending record of the queue that the device holds, then STATE is 0 and FAULT is
0; held events and the count of lost ones go to the event ring when it has room; the strand that waited longest for a system-call slot
becomes ready when a slot is free that no strand was given before; the result of a request reaches its token, unless a kill cancelled it. An event
that meets a page out of the device's reach is made again whole (`orAsk`, log 70). -/
def Sys2Proof.Rule.RingEvents : Prop :=
  ∀ (s : State) (asid q : Nat) (sp : Space), s.blocked = false → s.space asid = some sp →
    (let s0 := s.touchQueue asid q;
      (∀ t u t1 t2 v t3, s0.space asid = some sp → s0.queueState asid q = some (t, 2) →
        (∀ j ∈ s0.jobs, ¬(j.asid = asid ∧ j.queue = q ∧ j.waits ≠ none)) →
        (let w := s0.modQueue asid q (fun k => { k with frozen := false });
          (s0.heldRecords asid q = [] ∧ u = w) ∨
            ∃ va, s0.heldRecords asid q = [va] ∧ w.serialWaiters asid va = [] ∧ u = (w.cancelOne asid va).1) →
        u.devWrite asid (sp.descVa q + 0x30) 8 0 = some t1 → t1.devRead asid (sp.descVa q + 0x28) 8 = some (t2, v) →
        t2.devWrite asid (sp.descVa q + 0x28) 8 (v - v % 4) = some t3 → exec (.queueCancel asid q) s = .next (s.orAsk t3)) ∧
      (∀ t v, s0.queueState asid q = some (t, v) → v ≠ 2 → exec (.queueCancel asid q) s = .next (s.orAsk s0))) ∧
    (∀ va old t, (old = 0 ∨ old = 1) → s.casStatus asid va old 5 = some t → s.casStatus asid va (1 - old) 5 = none →
      t.runOf asid va = none → t.reservedSite asid va = none → let u := t.modSpace asid (fun p => { p with queues := p.queues.map (fun k =>
        { k with ready := k.ready.filter (fun r => r.record != va) }) })
      s.cancelOne asid va = (u.endJob asid va true, true)) ∧
    (∀ t, sp.held = [] → sp.lost ≠ 0 → s.putEvent sp { cause := 7, queue := 0, va := 0, detail := sp.lost } = some t →
      exec (.eventsLostReport asid) s = .next (s.orAsk (t.modSpace asid (fun p => { p with lost := 0 })))) ∧
    (∀ e rest, sp.held = e :: rest → s.putEvent sp e = none → exec (.eventsLostReport asid) s = .next s) ∧
    (∀ e t, sp.held = [e] → sp.lost = 0 → s.putEvent sp e = some t →
      exec (.eventsLostReport asid) s = .next (s.orAsk (t.modSpace asid (fun p => { p with held := p.held.drop 1 })))) ∧
    (∀ e, s.putEvent sp e = none → let u := s.event asid e.cause e.queue e.va e.detail
      (sp.held.length < 64 → u = s.modSpace asid (fun p => if p.held.length < 64 then { p with held := p.held ++ [e] }
        else { p with lost := p.lost + 1 })) ∧ (u.space asid).map (fun p => p.held.length + p.lost) = some (sp.held.length + sp.lost + 1)) ∧
    (sp.sysWait = [] → exec (.syscRingRetry asid) s = .next s) ∧
    (sp.sysWait ≠ [] → ∀ t free,
      s.sysFreeRun sp (deviceWho sp.asid s.cur .rw) (sp.sysGrant.length + sp.sysWait.length) sp.sysPos = .ok (t, free) →
      (free ≤ sp.sysGrant.length → exec (.syscRingRetry asid) s = .next (s.orAsk t)) ∧
      (sp.sysGrant.length < free → let next := sp.sysWait.take (free - sp.sysGrant.length)
        ∃ u, exec (.syscRingRetry asid) s = .next (s.orAsk u) ∧
          (u.space asid).map (fun p => (p.sysWait, p.sysGrant)) =
            (t.space asid).map (fun _ => (sp.sysWait.drop next.length, sp.sysGrant ++ next)) ∧
          ∀ c, (t.core c).uWork.holds = true → (u.core c).arrival = (t.core c).arrival.map (fun p =>
            if p.img.ctx.as = asid ∧ next.contains p.img.ctx.sid = true ∧ p.state = .waitRing then { p with state := .ready s.time.toNat }
            else p))) ∧
    (∀ pos r t pl, s.sysReqs.find? (fun x => x.asid == asid && x.pos == pos) = some r → s.sysPlace sp pos = .ok (t, pl) →
      t.placePoisoned asid pl 16 = false →
      (t.placeRead asid pl 8 ≠ pos + sp.sysSlots → exec (.syscResult asid pos) s = .next s) ∧
      (t.placeRead asid pl 8 = pos + sp.sysSlots → ∃ u, { u with sysReqs := t.sysReqs } = t ∧
        u.sysReqs = t.sysReqs.filter (fun x => !(x.asid == asid && x.pos == pos)) ∧
        (r.cancelled = true → exec (.syscResult asid pos) s = .next u) ∧
        (∀ c k, r.cancelled = false → u.cores.find? (fun x => (x.2.uWork == .strand || x.2.uWork == .heldInRegs) && x.2.u.as == asid &&
            x.2.u.sid == r.sid) = some (c, k) → ∃ w, exec (.syscResult asid pos) s = .next w ∧ CoreBecomes u w c
          { u.core c with u := (u.core c).u.complete r.reg (BitVec.ofNat 64 (t.placeRead asid { pl with key := pl.key + 8 } 8)) })))

/-- Taking jobs, readiness of records, cancellation, and the event and syscall rings: `Rule.LaunchQueueEvents` and `Rule.RingEvents`
together. A KIND 1 job that waits for a run slot is a reading of the model (log 33). -/
def Obligations.LaunchQueueEvents : Prop := Sys2Proof.Rule.LaunchQueueEvents ∧ Sys2Proof.Rule.RingEvents

/-! ### Strands between contexts and queues (R202, R227 to R233, R247, R301, R331, R332) -/

/-- R230, R233, R331 to R333: the acknowledgement of a move puts the image on its target, or on the overflow list when the target cannot take
it, a measured move ending where it began, and frees the source; the end of a window of counted instructions names another class only when its counts do and the strand may move,
and measured migration then moves the strand when it may leave, nothing that comes before it in R326 is due, and a core of that class can take it; a record that waited 1 ms makes the
lowest strand two levels below it give way. That an acknowledgement waits for the source's messages to find room is a reading (log 47), and so is
that an event that meets a page out of the device's reach is made again whole (`orAsk`, log 70). -/
def Obligations.MoveEvents : Prop :=
  ∀ (s : State), s.blocked = false →
    (∀ m, s.moves.find? (fun x => x.id == m.id) = some m → s.mgmt.capMode = 0 →
      let t := { s with moves := s.moves.filter (fun x => x.id != m.id) }
      let fits := s.live m.dst = true ∧ capHolds (s.cls m.dst) m.img.mask = true ∧ s.canLand m.dst m.toU = true
      let room := s.live m.src = false ∨ s.mailFits m.src (s.moveFwd m m.dst) = true
      (∀ u, fits → room → m.img.poison = [] → t.seat m.dst m.img m.toU = some u →
        exec (.liveMoveAck m.id) s = .next (s.orAsk (u.moveLands m m.dst))) ∧
      (fits → room → m.img.poison = [] → t.seat m.dst m.img m.toU = none → exec (.liveMoveAck m.id) s = .next (s.orAsk (t.moveFails m))) ∧
      (fits → room → m.img.poison ≠ [] → exec (.liveMoveAck m.id) s = .next (s.orAsk (t.movePoisoned m m.dst))) ∧
      (fits → ¬room → exec (.liveMoveAck m.id) s = .next s) ∧
      (¬fits → s.live m.src = true → exec (.liveMoveAck m.id) s = .next (s.orAsk (t.moveFails m))) ∧
      (¬fits → s.live m.src = false → exec (.liveMoveAck m.id) s = .next (s.orAsk (t.moveLost m)))) ∧
    (∀ (m : Move) d, s.mgmt.capMode = 0 → let t := s.moveLands m d
      (s.live m.src = false → t.cores = s.cores) ∧
      (s.live m.src = true → oldestReady (s.core m.src).arrival = none →
        (t.core m.src).uWork = .empty ∧ (t.core m.src).arrival = (s.core m.src).arrival ∧
          (m.kind ≠ .stream → (t.core m.src).fwdcfg = (s.core m.src).fwdcfg) ∧
          (m.kind = .stream → (t.core m.src).fwdcfg = fwdWord m.img.ctx.as d))) ∧
    (∀ (m : Move), m.kind = .measured → s.moveFails m = s.enterU m.src m.img) ∧
    (∀ (m : Move) t, m.kind ≠ .measured → ((s.strand m.img.ctx.as m.img.ctx.sid).bind (·.crew)).bind s.crew = none →
      s.overflow m.img (s.siteOf m.src) m.needed none 0 = .ok t →
      s.moveFails m = (t.modCore m.src (fun k => { k with uWork := .empty })).leaveU m.src) ∧
    (∀ c, let k := s.core c
      let due := if s.mixMayMove c then mixClass (s.cls c) k.mix else none
      let w := s.closeWindow c
      { w with strands := s.strands, cores := s.cores } = s ∧
        w.core c = { k with mix := { issued := 0, control := 0, vector := 0, tensor := 0, due } } ∧ (∀ d, d ≠ c → w.core d = s.core d) ∧
        ∀ x ∈ w.strands, x ∈ s.strands ∨ ∃ y ∈ s.strands, y.asid = k.u.as ∧ y.sid = k.u.sid ∧ x = { y with quiet := y.quiet - 1 }) ∧
    (∀ c, let k := s.core c
      let stay := s.setCore c { k with mix := { k.mix with due := none } }
      (k.mix.due = none → exec (.measuredMigration c) s = .next s) ∧
      (k.mix.due ≠ none → s.mixMayMove c = false → exec (.measuredMigration c) s = .next stay) ∧
      (∀ cl, k.mix.due = some cl → s.mixMayMove c = true →
        let aged := (∃ p ∈ k.arrival, ∃ n, p.state = .ready n ∧ n + 100000 ≤ s.time.toNat) ∧ s.mayAge c = true
        let before := k.long ≠ none ∨ s.asked c = true ∨ aged
        let s1 := s.interruptLong c
        let g := s1.imageU c
        let dst := s.firstRanked c ((s.candidates c g.mask).filter (fun t => s.cls t == cl))
        (before → exec (.measuredMigration c) s = .next s) ∧
        (¬before → dst = none → exec (.measuredMigration c) s = .next stay) ∧
        (∀ d, ¬before → dst = some d → (s.mayLeave c = false → exec (.measuredMigration c) s = .next s) ∧
          (s.mayLeave c = true → ∃ t, exec (.measuredMigration c) s = .next t ∧ (t.core c).uWork = .reserved g.ctx.sid ∧
            (t.core c).mix.due = none ∧
            t.moves = s1.moves ++
              [{ id := s1.nextId, img := g, src := c, dst := d, kind := .measured, toU := false, needed := g.mask }])))) ∧
    (∀ own m, mixClass own m = none ↔ ∀ cl, cl ≠ own → (match cl with
      | .control => m.control | .vector => m.vector | .tensor => m.tensor) ≤ 512) ∧
    (∀ i, let s0 := s.touchReady i
      (∀ a q k r x c e since, s0.siteQueues i = [(a, q, k)] → s0.queueRuns a q = true → k.ready = [r] → r.since + 100000 ≤ s0.time.toNat →
        s0.readRec a r.record = some x → x.size < 2 → x.status = 1 → (∀ d ∈ s0.liveIn x.cls, s0.mayEnter d = false) →
        s0.victims x.cls k.eprio = [(c, e, since)] → s0.mgmt.capMode = 0 →
        (s0.mayLeave c = true → exec (.schedulerPreempt i) s = .next (s.orAsk (s0.makeWay i c a q k r.record x))) ∧
        (s0.mayLeave c = false → exec (.schedulerPreempt i) s = .next (s.orAsk s0))) ∧
      ((∀ x ∈ s0.siteQueues i, ∀ r ∈ x.2.2.ready, s0.time.toNat < r.since + 100000) →
        exec (.schedulerPreempt i) s = .next (s.orAsk s0)))

/-- R202, R227 to R229, R247: a strand ready for 1 ms makes the U strand park where it may; a parked JOIN or WAIT strand becomes ready
when its word has come to zero or changed, or its deadline has passed; a core that can take an overflow entry takes it; the end of zeroing
leaves the scratchpad below the arrival-queue region and the lane slices zero, and the new occupant owns the mailbox, but not before the
MOPAK of another core has read its panels there (R236). The core that takes an overflow entry is a reading of the model (log 50), and an event that
meets a page out of the device's reach is made again whole (`orAsk`, log 70). -/
def Obligations.QueueEvents : Prop :=
  ∀ (s : State) (c : Nat), s.blocked = false → let k := s.core c
    (let due := ∃ p ∈ k.arrival, ∃ n, p.state = .ready n ∧ n + 100000 ≤ s.time.toNat
      let u := { s with cur := c, curCtx := .u }
      (¬due → exec (.aging c) s = .next s) ∧
      let may := s.asked c = false ∧ s.mayAge c = true ∧ u.mayPark = true ∧ k.long = none ∧ k.ending = false
      (due → k.uWork.holds = false → exec (.aging c) s = .next (s.orAsk (s.nextU c))) ∧
      (due → k.uWork.holds = true → may → exec (.aging c) s =
        .next (s.orAsk { u.parkU (.ready s.time.toNat) with cur := s.cur, curCtx := s.curCtx })) ∧
      (k.uWork.holds = true → ¬may → exec (.aging c) s = .next s)) ∧
    (∀ j p, k.arrival[j]? = some p → let s0 := s.touchWait p
      let k0 := s0.core c
      let woken : State := s0.setCore c { k0 with arrival := k0.arrival.set j { p with state := .ready s0.time.toNat } }
      (waitOver s0 c p = true → exec (.parkedWaitCheck c j) s = .next (s.orAsk (woken.nextU c))) ∧
      (k0.uWork.holds = true → woken.nextU c = woken) ∧
      (waitOver s0 c p = false → exec (.parkedWaitCheck c j) s = .next (s.orAsk s0)) ∧
      (∀ va w, p.state = .waitJoin va → s0.waitedWord c p.img.ctx.as va = some w → (waitOver s0 c p = true ↔ w % 2 ^ 32 = 0)) ∧
      (∀ va v w, p.state = .waitWord va v → s0.waitedWord c p.img.ctx.as va = some w →
        (waitOver s0 c p = true ↔ w ≠ v ∨ ∃ d, p.img.ctx.deadline = some d ∧ d ≤ s0.time.toNat)) ∧
      (∀ asid sid, (s.cores.flatMap (fun x => (List.range x.2.arrival.length).map (fun i => (x.1, i)))).filter (fun x =>
          ((s.core x.1).arrival[x.2]?).any (fun y => y.img.ctx.as == asid && y.img.ctx.sid == sid)) = [(c, j)] →
        exec (.waitTimeout asid sid) s = exec (.parkedWaitCheck c j) s)) ∧
    (let i := s.siteOf c;
      (s.live c = false → exec (.overflowAdmit c) s = .next s) ∧
      (∀ e rest, s.live c = true → s.mgmt.capMode = 0 → (s.site i).overflow = e :: rest →
        ((s.strand e.asid e.sid).bind (·.crew)).bind s.crew = none → (∀ o, e.only = some o → o = c) → e.takes (s.cls c) = true →
        s.canLand c false = true →
        (∀ t g u, (s.dropOverflow i e).admitLoad c e = .ok (t, g) → t.seat c g (s.crewOf e.asid e.sid).isSome = some u →
          u.mgmt.capMode = 0 → exec (.overflowAdmit c) s = .next (s.orAsk u)) ∧
        (∀ err, (s.dropOverflow i e).admitLoad c e = .error err → exec (.overflowAdmit c) s =
          .next (s.orAsk ((s.dropOverflow i e).admitBad c e err)))) ∧
      (∀ e rest w t, s.live c = true → s.mgmt.capMode = 0 → (s.site i).overflow = e :: rest →
        ((s.strand e.asid e.sid).bind (·.crew)).bind s.crew = some w → s.mayEnter c = true → e.takes (s.cls c) = true →
        s.admitCrew i w = some t → exec (.overflowAdmit c) s = .next (s.orAsk t))) ∧
    (k.zeroing = false → exec (.occupantZeroingDone c) s = .next s) ∧
    (s.panelsRead c = true → exec (.occupantZeroingDone c) s = .next s) ∧
    (k.zeroing = true → s.panelsRead c = false → k.uWork.holds = true → ∃ t, exec (.occupantZeroingDone c) s = .next t ∧
      OnlyCore s { t with mem := s.mem } c ∧
      t.core c = { k with zeroing := false, owner := if k.hasStrandOf k.prevAsid then some k.prevAsid else none } ∧
      (∀ o, o < spadSize (s.cls c) - 0x2000 → t.mem.byte ((Loc.spad c 0).key + o) = 0) ∧
      (∀ o, o < 2 ^ 17 → t.mem.byte ((Loc.slice c 0).key + o) = 0) ∧
      ∀ a, (a < (Loc.spad c 0).key ∨ (Loc.spad c 0).key + (spadSize (s.cls c) - 0x2000) ≤ a) →
        (a < (Loc.slice c 0).key ∨ (Loc.slice c 0).key + 2 ^ 17 ≤ a) → t.mem.byte a = s.mem.byte a)

/-- R301: T1, counted in microseconds from dispatch, reports event 3 once and stops the strand, held with SCAUSE WATCHDOG where it is resident
as soon as it may leave and no stop of another came before (R326), and when it next is where it is not; one that is held already stays under its
trap (R327); T2 kills the strand with its crew and reports event 4; T3, with the kill incomplete, fences the core, faults the record, and reports
event 5 once; before its limit a step does nothing. A step that meets a page out of the device's reach is made again whole (`orAsk`, log 70). -/
def Obligations.WatchdogEvents : Prop :=
  ∀ (s : State) (asid sid : Nat) (x : Strand) (start : Nat), s.blocked = false → s.strand asid sid = some x → x.dispatched = some start →
    let us := (s.time.toNat - start) / 100
    let lim := s.limits x
    let place := (s.residentAt asid sid).getD x.lastCore
    (us < lim.1 ∨ x.t1Done = true → exec (.watchdogT1 asid sid) s = .next (stopNow asid sid s)) ∧
    (lim.1 ≤ us → x.t1Done = false → x.crew = none →
      let e := s.event asid 3 (x.origin % 64) x.record place
      let held := x.heldAt ≠ none ∨ e.keptInRegs asid sid = true ∨ e.keptImage asid sid ≠ none
      let due : Option Nat := if held then none else some e.nextId
      let t := { e.modStrand asid sid (fun y => { y with t1Done := true, stopDue := due }) with nextId := e.nextId + 1 }
      exec (.watchdogT1 asid sid) s = .next (stopNow asid sid t)) ∧
    (x.stopDue = none ∨ s.residentAt asid sid = none → stopNow asid sid s = s) ∧
    (∀ c n, s.residentAt asid sid = some c → x.stopDue = some n → let first := ∃ m ∈ s.asks asid sid, m < n
      (s.mayLeave c = false ∨ first → stopNow asid sid s = s) ∧
      (s.mayLeave c = true → ¬first → stopNow asid sid s = s.orAsk (s.holdWatchdog c x))) ∧
    (us < lim.2.1 → exec (.watchdogT2 asid sid) s = .next s) ∧
    (lim.2.1 ≤ us → x.dying = false →
      exec (.watchdogT2 asid sid) s = .next (s.orAsk ((s.killAll asid sid).event asid 4 (x.origin % 64) x.record place))) ∧
    (lim.2.1 ≤ us → x.dying = true → exec (.watchdogT2 asid sid) s = .next (s.orAsk (s.killAll asid sid))) ∧
    (us < lim.2.2 ∨ x.dying = false ∨ x.t3Done = true → exec (.watchdogT3 asid sid) s = .next s) ∧
    (lim.2.2 ≤ us → x.dying = true → x.t3Done = false →
      let s1 := s.modStrand asid sid (fun y => { y with t3Done := true })
      ∃ t, exec (.watchdogT3 asid sid) s = .next (s.orAsk t) ∧ (t.core place).status = .fenced ∧
        ∀ u n, x.record ≠ 0 → s1.completeRecord asid x.record x.origin true = some (u, n) →
          t = (u.fence place).event asid 5 (x.origin % 64) x.record place)
end

