-- ==== Sys2Proof/Laws/State.lean ====
section
/-! SUPPORT. Reading a field after an update: one lemma for each field and each named update of State, Core and Ctx, so that no
proof unfolds a record update; and the accessors after the updates of a core and of the executing context. -/

namespace Sys2Proof.Machine

/-! ### State -/

@[simp] theorem State.setCore_cfg (s : State) (c : Nat) (k : Core) : (s.setCore c k).cfg = s.cfg := rfl
@[simp] theorem State.setCore_agenda (s : State) (c : Nat) (k : Core) : (s.setCore c k).agenda = s.agenda := rfl
@[simp] theorem State.setCore_cur (s : State) (c : Nat) (k : Core) : (s.setCore c k).cur = s.cur := rfl
@[simp] theorem State.setCore_curCtx (s : State) (c : Nat) (k : Core) : (s.setCore c k).curCtx = s.curCtx := rfl
@[simp] theorem State.setCore_free (s : State) (c : Nat) (k : Core) : (s.setCore c k).free = s.free := rfl
@[simp] theorem State.setCore_time (s : State) (c : Nat) (k : Core) : (s.setCore c k).time = s.time := rfl
@[simp] theorem State.setCore_mem (s : State) (c : Nat) (k : Core) : (s.setCore c k).mem = s.mem := rfl
@[simp] theorem State.setCore_siteTags (s : State) (c : Nat) (k : Core) : (s.setCore c k).siteTags = s.siteTags := rfl
@[simp] theorem State.setCore_sites (s : State) (c : Nat) (k : Core) : (s.setCore c k).sites = s.sites := rfl
@[simp] theorem State.setCore_tiles (s : State) (c : Nat) (k : Core) : (s.setCore c k).tiles = s.tiles := rfl
@[simp] theorem State.setCore_clusters (s : State) (c : Nat) (k : Core) : (s.setCore c k).clusters = s.clusters := rfl
@[simp] theorem State.setCore_windows (s : State) (c : Nat) (k : Core) : (s.setCore c k).windows = s.windows := rfl
@[simp] theorem State.setCore_ops (s : State) (c : Nat) (k : Core) : (s.setCore c k).ops = s.ops := rfl
@[simp] theorem State.setCore_kept (s : State) (c : Nat) (k : Core) : (s.setCore c k).kept = s.kept := rfl
@[simp] theorem State.setCore_groups (s : State) (c : Nat) (k : Core) : (s.setCore c k).groups = s.groups := rfl
@[simp] theorem State.setCore_peers (s : State) (c : Nat) (k : Core) : (s.setCore c k).peers = s.peers := rfl
@[simp] theorem State.setCore_collCalls (s : State) (c : Nat) (k : Core) : (s.setCore c k).collCalls = s.collCalls := rfl
@[simp] theorem State.setCore_sysReqs (s : State) (c : Nat) (k : Core) : (s.setCore c k).sysReqs = s.sysReqs := rfl
@[simp] theorem State.setCore_flights (s : State) (c : Nat) (k : Core) : (s.setCore c k).flights = s.flights := rfl
@[simp] theorem State.setCore_seqNos (s : State) (c : Nat) (k : Core) : (s.setCore c k).seqNos = s.seqNos := rfl
@[simp] theorem State.setCore_moves (s : State) (c : Nat) (k : Core) : (s.setCore c k).moves = s.moves := rfl
@[simp] theorem State.setCore_nextId (s : State) (c : Nat) (k : Core) : (s.setCore c k).nextId = s.nextId := rfl
@[simp] theorem State.setCore_strands (s : State) (c : Nat) (k : Core) : (s.setCore c k).strands = s.strands := rfl
@[simp] theorem State.setCore_crews (s : State) (c : Nat) (k : Core) : (s.setCore c k).crews = s.crews := rfl
@[simp] theorem State.setCore_spaces (s : State) (c : Nat) (k : Core) : (s.setCore c k).spaces = s.spaces := rfl
@[simp] theorem State.setCore_jobs (s : State) (c : Nat) (k : Core) : (s.setCore c k).jobs = s.jobs := rfl
@[simp] theorem State.setCore_runs (s : State) (c : Nat) (k : Core) : (s.setCore c k).runs = s.runs := rfl
@[simp] theorem State.setCore_cycles (s : State) (c : Nat) (k : Core) : (s.setCore c k).cycles = s.cycles := rfl
@[simp] theorem State.setCore_heapCmds (s : State) (c : Nat) (k : Core) : (s.setCore c k).heapCmds = s.heapCmds := rfl
@[simp] theorem State.setCore_ports (s : State) (c : Nat) (k : Core) : (s.setCore c k).ports = s.ports := rfl
@[simp] theorem State.setCore_ats (s : State) (c : Nat) (k : Core) : (s.setCore c k).ats = s.ats := rfl
@[simp] theorem State.setCore_hostReqs (s : State) (c : Nat) (k : Core) : (s.setCore c k).hostReqs = s.hostReqs := rfl
@[simp] theorem State.setCore_invals (s : State) (c : Nat) (k : Core) : (s.setCore c k).invals = s.invals := rfl
@[simp] theorem State.setCore_poolDead (s : State) (c : Nat) (k : Core) : (s.setCore c k).poolDead = s.poolDead := rfl
@[simp] theorem State.setCore_flash (s : State) (c : Nat) (k : Core) : (s.setCore c k).flash = s.flash := rfl
@[simp] theorem State.setCore_mgmt (s : State) (c : Nat) (k : Core) : (s.setCore c k).mgmt = s.mgmt := rfl
@[simp] theorem State.setCore_pcErrors (s : State) (c : Nat) (k : Core) : (s.setCore c k).pcErrors = s.pcErrors := rfl
@[simp] theorem State.setCore_l2 (s : State) (c : Nat) (k : Core) : (s.setCore c k).l2 = s.l2 := rfl
@[simp] theorem State.setCore_active (s : State) (c : Nat) (k : Core) : (s.setCore c k).active = s.active := rfl
@[simp] theorem State.setCore_devFails (s : State) (c : Nat) (k : Core) : (s.setCore c k).devFails = s.devFails := rfl
@[simp] theorem State.setCore_hostRead (s : State) (c : Nat) (k : Core) : (s.setCore c k).hostRead = s.hostRead := rfl
@[simp] theorem State.setCore_blocked (s : State) (c : Nat) (k : Core) : (s.setCore c k).blocked = s.blocked := rfl

@[simp] theorem State.modCore_cfg (s : State) (c : Nat) (f : Core → Core) : (s.modCore c f).cfg = s.cfg := rfl
@[simp] theorem State.modCore_agenda (s : State) (c : Nat) (f : Core → Core) : (s.modCore c f).agenda = s.agenda := rfl
@[simp] theorem State.modCore_cur (s : State) (c : Nat) (f : Core → Core) : (s.modCore c f).cur = s.cur := rfl
@[simp] theorem State.modCore_curCtx (s : State) (c : Nat) (f : Core → Core) : (s.modCore c f).curCtx = s.curCtx := rfl
@[simp] theorem State.modCore_free (s : State) (c : Nat) (f : Core → Core) : (s.modCore c f).free = s.free := rfl
@[simp] theorem State.modCore_time (s : State) (c : Nat) (f : Core → Core) : (s.modCore c f).time = s.time := rfl
@[simp] theorem State.modCore_mem (s : State) (c : Nat) (f : Core → Core) : (s.modCore c f).mem = s.mem := rfl
@[simp] theorem State.modCore_siteTags (s : State) (c : Nat) (f : Core → Core) : (s.modCore c f).siteTags = s.siteTags := rfl
@[simp] theorem State.modCore_sites (s : State) (c : Nat) (f : Core → Core) : (s.modCore c f).sites = s.sites := rfl
@[simp] theorem State.modCore_tiles (s : State) (c : Nat) (f : Core → Core) : (s.modCore c f).tiles = s.tiles := rfl
@[simp] theorem State.modCore_clusters (s : State) (c : Nat) (f : Core → Core) : (s.modCore c f).clusters = s.clusters := rfl
@[simp] theorem State.modCore_windows (s : State) (c : Nat) (f : Core → Core) : (s.modCore c f).windows = s.windows := rfl
@[simp] theorem State.modCore_ops (s : State) (c : Nat) (f : Core → Core) : (s.modCore c f).ops = s.ops := rfl
@[simp] theorem State.modCore_kept (s : State) (c : Nat) (f : Core → Core) : (s.modCore c f).kept = s.kept := rfl
@[simp] theorem State.modCore_groups (s : State) (c : Nat) (f : Core → Core) : (s.modCore c f).groups = s.groups := rfl
@[simp] theorem State.modCore_peers (s : State) (c : Nat) (f : Core → Core) : (s.modCore c f).peers = s.peers := rfl
@[simp] theorem State.modCore_collCalls (s : State) (c : Nat) (f : Core → Core) : (s.modCore c f).collCalls = s.collCalls := rfl
@[simp] theorem State.modCore_sysReqs (s : State) (c : Nat) (f : Core → Core) : (s.modCore c f).sysReqs = s.sysReqs := rfl
@[simp] theorem State.modCore_flights (s : State) (c : Nat) (f : Core → Core) : (s.modCore c f).flights = s.flights := rfl
@[simp] theorem State.modCore_seqNos (s : State) (c : Nat) (f : Core → Core) : (s.modCore c f).seqNos = s.seqNos := rfl
@[simp] theorem State.modCore_moves (s : State) (c : Nat) (f : Core → Core) : (s.modCore c f).moves = s.moves := rfl
@[simp] theorem State.modCore_nextId (s : State) (c : Nat) (f : Core → Core) : (s.modCore c f).nextId = s.nextId := rfl
@[simp] theorem State.modCore_strands (s : State) (c : Nat) (f : Core → Core) : (s.modCore c f).strands = s.strands := rfl
@[simp] theorem State.modCore_crews (s : State) (c : Nat) (f : Core → Core) : (s.modCore c f).crews = s.crews := rfl
@[simp] theorem State.modCore_spaces (s : State) (c : Nat) (f : Core → Core) : (s.modCore c f).spaces = s.spaces := rfl
@[simp] theorem State.modCore_jobs (s : State) (c : Nat) (f : Core → Core) : (s.modCore c f).jobs = s.jobs := rfl
@[simp] theorem State.modCore_runs (s : State) (c : Nat) (f : Core → Core) : (s.modCore c f).runs = s.runs := rfl
@[simp] theorem State.modCore_cycles (s : State) (c : Nat) (f : Core → Core) : (s.modCore c f).cycles = s.cycles := rfl
@[simp] theorem State.modCore_heapCmds (s : State) (c : Nat) (f : Core → Core) : (s.modCore c f).heapCmds = s.heapCmds := rfl
@[simp] theorem State.modCore_ports (s : State) (c : Nat) (f : Core → Core) : (s.modCore c f).ports = s.ports := rfl
@[simp] theorem State.modCore_ats (s : State) (c : Nat) (f : Core → Core) : (s.modCore c f).ats = s.ats := rfl
@[simp] theorem State.modCore_hostReqs (s : State) (c : Nat) (f : Core → Core) : (s.modCore c f).hostReqs = s.hostReqs := rfl
@[simp] theorem State.modCore_invals (s : State) (c : Nat) (f : Core → Core) : (s.modCore c f).invals = s.invals := rfl
@[simp] theorem State.modCore_poolDead (s : State) (c : Nat) (f : Core → Core) : (s.modCore c f).poolDead = s.poolDead := rfl
@[simp] theorem State.modCore_flash (s : State) (c : Nat) (f : Core → Core) : (s.modCore c f).flash = s.flash := rfl
@[simp] theorem State.modCore_mgmt (s : State) (c : Nat) (f : Core → Core) : (s.modCore c f).mgmt = s.mgmt := rfl
@[simp] theorem State.modCore_pcErrors (s : State) (c : Nat) (f : Core → Core) : (s.modCore c f).pcErrors = s.pcErrors := rfl
@[simp] theorem State.modCore_l2 (s : State) (c : Nat) (f : Core → Core) : (s.modCore c f).l2 = s.l2 := rfl
@[simp] theorem State.modCore_active (s : State) (c : Nat) (f : Core → Core) : (s.modCore c f).active = s.active := rfl
@[simp] theorem State.modCore_devFails (s : State) (c : Nat) (f : Core → Core) : (s.modCore c f).devFails = s.devFails := rfl
@[simp] theorem State.modCore_hostRead (s : State) (c : Nat) (f : Core → Core) : (s.modCore c f).hostRead = s.hostRead := rfl
@[simp] theorem State.modCore_blocked (s : State) (c : Nat) (f : Core → Core) : (s.modCore c f).blocked = s.blocked := rfl

@[simp] theorem State.setCx_cfg (s : State) (x : Ctx) : (s.setCx x).cfg = s.cfg := rfl
@[simp] theorem State.setCx_agenda (s : State) (x : Ctx) : (s.setCx x).agenda = s.agenda := rfl
@[simp] theorem State.setCx_cur (s : State) (x : Ctx) : (s.setCx x).cur = s.cur := rfl
@[simp] theorem State.setCx_curCtx (s : State) (x : Ctx) : (s.setCx x).curCtx = s.curCtx := rfl
@[simp] theorem State.setCx_free (s : State) (x : Ctx) : (s.setCx x).free = s.free := rfl
@[simp] theorem State.setCx_time (s : State) (x : Ctx) : (s.setCx x).time = s.time := rfl
@[simp] theorem State.setCx_mem (s : State) (x : Ctx) : (s.setCx x).mem = s.mem := rfl
@[simp] theorem State.setCx_siteTags (s : State) (x : Ctx) : (s.setCx x).siteTags = s.siteTags := rfl
@[simp] theorem State.setCx_sites (s : State) (x : Ctx) : (s.setCx x).sites = s.sites := rfl
@[simp] theorem State.setCx_tiles (s : State) (x : Ctx) : (s.setCx x).tiles = s.tiles := rfl
@[simp] theorem State.setCx_clusters (s : State) (x : Ctx) : (s.setCx x).clusters = s.clusters := rfl
@[simp] theorem State.setCx_windows (s : State) (x : Ctx) : (s.setCx x).windows = s.windows := rfl
@[simp] theorem State.setCx_ops (s : State) (x : Ctx) : (s.setCx x).ops = s.ops := rfl
@[simp] theorem State.setCx_kept (s : State) (x : Ctx) : (s.setCx x).kept = s.kept := rfl
@[simp] theorem State.setCx_groups (s : State) (x : Ctx) : (s.setCx x).groups = s.groups := rfl
@[simp] theorem State.setCx_peers (s : State) (x : Ctx) : (s.setCx x).peers = s.peers := rfl
@[simp] theorem State.setCx_collCalls (s : State) (x : Ctx) : (s.setCx x).collCalls = s.collCalls := rfl
@[simp] theorem State.setCx_sysReqs (s : State) (x : Ctx) : (s.setCx x).sysReqs = s.sysReqs := rfl
@[simp] theorem State.setCx_flights (s : State) (x : Ctx) : (s.setCx x).flights = s.flights := rfl
@[simp] theorem State.setCx_seqNos (s : State) (x : Ctx) : (s.setCx x).seqNos = s.seqNos := rfl
@[simp] theorem State.setCx_moves (s : State) (x : Ctx) : (s.setCx x).moves = s.moves := rfl
@[simp] theorem State.setCx_nextId (s : State) (x : Ctx) : (s.setCx x).nextId = s.nextId := rfl
@[simp] theorem State.setCx_strands (s : State) (x : Ctx) : (s.setCx x).strands = s.strands := rfl
@[simp] theorem State.setCx_crews (s : State) (x : Ctx) : (s.setCx x).crews = s.crews := rfl
@[simp] theorem State.setCx_spaces (s : State) (x : Ctx) : (s.setCx x).spaces = s.spaces := rfl
@[simp] theorem State.setCx_jobs (s : State) (x : Ctx) : (s.setCx x).jobs = s.jobs := rfl
@[simp] theorem State.setCx_runs (s : State) (x : Ctx) : (s.setCx x).runs = s.runs := rfl
@[simp] theorem State.setCx_cycles (s : State) (x : Ctx) : (s.setCx x).cycles = s.cycles := rfl
@[simp] theorem State.setCx_heapCmds (s : State) (x : Ctx) : (s.setCx x).heapCmds = s.heapCmds := rfl
@[simp] theorem State.setCx_ports (s : State) (x : Ctx) : (s.setCx x).ports = s.ports := rfl
@[simp] theorem State.setCx_ats (s : State) (x : Ctx) : (s.setCx x).ats = s.ats := rfl
@[simp] theorem State.setCx_hostReqs (s : State) (x : Ctx) : (s.setCx x).hostReqs = s.hostReqs := rfl
@[simp] theorem State.setCx_invals (s : State) (x : Ctx) : (s.setCx x).invals = s.invals := rfl
@[simp] theorem State.setCx_poolDead (s : State) (x : Ctx) : (s.setCx x).poolDead = s.poolDead := rfl
@[simp] theorem State.setCx_flash (s : State) (x : Ctx) : (s.setCx x).flash = s.flash := rfl
@[simp] theorem State.setCx_mgmt (s : State) (x : Ctx) : (s.setCx x).mgmt = s.mgmt := rfl
@[simp] theorem State.setCx_pcErrors (s : State) (x : Ctx) : (s.setCx x).pcErrors = s.pcErrors := rfl
@[simp] theorem State.setCx_l2 (s : State) (x : Ctx) : (s.setCx x).l2 = s.l2 := rfl
@[simp] theorem State.setCx_active (s : State) (x : Ctx) : (s.setCx x).active = s.active := rfl
@[simp] theorem State.setCx_devFails (s : State) (x : Ctx) : (s.setCx x).devFails = s.devFails := rfl
@[simp] theorem State.setCx_hostRead (s : State) (x : Ctx) : (s.setCx x).hostRead = s.hostRead := rfl
@[simp] theorem State.setCx_blocked (s : State) (x : Ctx) : (s.setCx x).blocked = s.blocked := rfl

@[simp] theorem State.modCx_cfg (s : State) (f : Ctx → Ctx) : (s.modCx f).cfg = s.cfg := rfl
@[simp] theorem State.modCx_agenda (s : State) (f : Ctx → Ctx) : (s.modCx f).agenda = s.agenda := rfl
@[simp] theorem State.modCx_cur (s : State) (f : Ctx → Ctx) : (s.modCx f).cur = s.cur := rfl
@[simp] theorem State.modCx_curCtx (s : State) (f : Ctx → Ctx) : (s.modCx f).curCtx = s.curCtx := rfl
@[simp] theorem State.modCx_free (s : State) (f : Ctx → Ctx) : (s.modCx f).free = s.free := rfl
@[simp] theorem State.modCx_time (s : State) (f : Ctx → Ctx) : (s.modCx f).time = s.time := rfl
@[simp] theorem State.modCx_mem (s : State) (f : Ctx → Ctx) : (s.modCx f).mem = s.mem := rfl
@[simp] theorem State.modCx_siteTags (s : State) (f : Ctx → Ctx) : (s.modCx f).siteTags = s.siteTags := rfl
@[simp] theorem State.modCx_sites (s : State) (f : Ctx → Ctx) : (s.modCx f).sites = s.sites := rfl
@[simp] theorem State.modCx_tiles (s : State) (f : Ctx → Ctx) : (s.modCx f).tiles = s.tiles := rfl
@[simp] theorem State.modCx_clusters (s : State) (f : Ctx → Ctx) : (s.modCx f).clusters = s.clusters := rfl
@[simp] theorem State.modCx_windows (s : State) (f : Ctx → Ctx) : (s.modCx f).windows = s.windows := rfl
@[simp] theorem State.modCx_ops (s : State) (f : Ctx → Ctx) : (s.modCx f).ops = s.ops := rfl
@[simp] theorem State.modCx_kept (s : State) (f : Ctx → Ctx) : (s.modCx f).kept = s.kept := rfl
@[simp] theorem State.modCx_groups (s : State) (f : Ctx → Ctx) : (s.modCx f).groups = s.groups := rfl
@[simp] theorem State.modCx_peers (s : State) (f : Ctx → Ctx) : (s.modCx f).peers = s.peers := rfl
@[simp] theorem State.modCx_collCalls (s : State) (f : Ctx → Ctx) : (s.modCx f).collCalls = s.collCalls := rfl
@[simp] theorem State.modCx_sysReqs (s : State) (f : Ctx → Ctx) : (s.modCx f).sysReqs = s.sysReqs := rfl
@[simp] theorem State.modCx_flights (s : State) (f : Ctx → Ctx) : (s.modCx f).flights = s.flights := rfl
@[simp] theorem State.modCx_seqNos (s : State) (f : Ctx → Ctx) : (s.modCx f).seqNos = s.seqNos := rfl
@[simp] theorem State.modCx_moves (s : State) (f : Ctx → Ctx) : (s.modCx f).moves = s.moves := rfl
@[simp] theorem State.modCx_nextId (s : State) (f : Ctx → Ctx) : (s.modCx f).nextId = s.nextId := rfl
@[simp] theorem State.modCx_strands (s : State) (f : Ctx → Ctx) : (s.modCx f).strands = s.strands := rfl
@[simp] theorem State.modCx_crews (s : State) (f : Ctx → Ctx) : (s.modCx f).crews = s.crews := rfl
@[simp] theorem State.modCx_spaces (s : State) (f : Ctx → Ctx) : (s.modCx f).spaces = s.spaces := rfl
@[simp] theorem State.modCx_jobs (s : State) (f : Ctx → Ctx) : (s.modCx f).jobs = s.jobs := rfl
@[simp] theorem State.modCx_runs (s : State) (f : Ctx → Ctx) : (s.modCx f).runs = s.runs := rfl
@[simp] theorem State.modCx_cycles (s : State) (f : Ctx → Ctx) : (s.modCx f).cycles = s.cycles := rfl
@[simp] theorem State.modCx_heapCmds (s : State) (f : Ctx → Ctx) : (s.modCx f).heapCmds = s.heapCmds := rfl
@[simp] theorem State.modCx_ports (s : State) (f : Ctx → Ctx) : (s.modCx f).ports = s.ports := rfl
@[simp] theorem State.modCx_ats (s : State) (f : Ctx → Ctx) : (s.modCx f).ats = s.ats := rfl
@[simp] theorem State.modCx_hostReqs (s : State) (f : Ctx → Ctx) : (s.modCx f).hostReqs = s.hostReqs := rfl
@[simp] theorem State.modCx_invals (s : State) (f : Ctx → Ctx) : (s.modCx f).invals = s.invals := rfl
@[simp] theorem State.modCx_poolDead (s : State) (f : Ctx → Ctx) : (s.modCx f).poolDead = s.poolDead := rfl
@[simp] theorem State.modCx_flash (s : State) (f : Ctx → Ctx) : (s.modCx f).flash = s.flash := rfl
@[simp] theorem State.modCx_mgmt (s : State) (f : Ctx → Ctx) : (s.modCx f).mgmt = s.mgmt := rfl
@[simp] theorem State.modCx_pcErrors (s : State) (f : Ctx → Ctx) : (s.modCx f).pcErrors = s.pcErrors := rfl
@[simp] theorem State.modCx_l2 (s : State) (f : Ctx → Ctx) : (s.modCx f).l2 = s.l2 := rfl
@[simp] theorem State.modCx_active (s : State) (f : Ctx → Ctx) : (s.modCx f).active = s.active := rfl
@[simp] theorem State.modCx_devFails (s : State) (f : Ctx → Ctx) : (s.modCx f).devFails = s.devFails := rfl
@[simp] theorem State.modCx_hostRead (s : State) (f : Ctx → Ctx) : (s.modCx f).hostRead = s.hostRead := rfl
@[simp] theorem State.modCx_blocked (s : State) (f : Ctx → Ctx) : (s.modCx f).blocked = s.blocked := rfl

@[simp] theorem State.modU_cfg (s : State) (f : Ctx → Ctx) : (s.modU f).cfg = s.cfg := rfl
@[simp] theorem State.modU_agenda (s : State) (f : Ctx → Ctx) : (s.modU f).agenda = s.agenda := rfl
@[simp] theorem State.modU_cur (s : State) (f : Ctx → Ctx) : (s.modU f).cur = s.cur := rfl
@[simp] theorem State.modU_curCtx (s : State) (f : Ctx → Ctx) : (s.modU f).curCtx = s.curCtx := rfl
@[simp] theorem State.modU_free (s : State) (f : Ctx → Ctx) : (s.modU f).free = s.free := rfl
@[simp] theorem State.modU_time (s : State) (f : Ctx → Ctx) : (s.modU f).time = s.time := rfl
@[simp] theorem State.modU_mem (s : State) (f : Ctx → Ctx) : (s.modU f).mem = s.mem := rfl
@[simp] theorem State.modU_siteTags (s : State) (f : Ctx → Ctx) : (s.modU f).siteTags = s.siteTags := rfl
@[simp] theorem State.modU_sites (s : State) (f : Ctx → Ctx) : (s.modU f).sites = s.sites := rfl
@[simp] theorem State.modU_tiles (s : State) (f : Ctx → Ctx) : (s.modU f).tiles = s.tiles := rfl
@[simp] theorem State.modU_clusters (s : State) (f : Ctx → Ctx) : (s.modU f).clusters = s.clusters := rfl
@[simp] theorem State.modU_windows (s : State) (f : Ctx → Ctx) : (s.modU f).windows = s.windows := rfl
@[simp] theorem State.modU_ops (s : State) (f : Ctx → Ctx) : (s.modU f).ops = s.ops := rfl
@[simp] theorem State.modU_kept (s : State) (f : Ctx → Ctx) : (s.modU f).kept = s.kept := rfl
@[simp] theorem State.modU_groups (s : State) (f : Ctx → Ctx) : (s.modU f).groups = s.groups := rfl
@[simp] theorem State.modU_peers (s : State) (f : Ctx → Ctx) : (s.modU f).peers = s.peers := rfl
@[simp] theorem State.modU_collCalls (s : State) (f : Ctx → Ctx) : (s.modU f).collCalls = s.collCalls := rfl
@[simp] theorem State.modU_sysReqs (s : State) (f : Ctx → Ctx) : (s.modU f).sysReqs = s.sysReqs := rfl
@[simp] theorem State.modU_flights (s : State) (f : Ctx → Ctx) : (s.modU f).flights = s.flights := rfl
@[simp] theorem State.modU_seqNos (s : State) (f : Ctx → Ctx) : (s.modU f).seqNos = s.seqNos := rfl
@[simp] theorem State.modU_moves (s : State) (f : Ctx → Ctx) : (s.modU f).moves = s.moves := rfl
@[simp] theorem State.modU_nextId (s : State) (f : Ctx → Ctx) : (s.modU f).nextId = s.nextId := rfl
@[simp] theorem State.modU_strands (s : State) (f : Ctx → Ctx) : (s.modU f).strands = s.strands := rfl
@[simp] theorem State.modU_crews (s : State) (f : Ctx → Ctx) : (s.modU f).crews = s.crews := rfl
@[simp] theorem State.modU_spaces (s : State) (f : Ctx → Ctx) : (s.modU f).spaces = s.spaces := rfl
@[simp] theorem State.modU_jobs (s : State) (f : Ctx → Ctx) : (s.modU f).jobs = s.jobs := rfl
@[simp] theorem State.modU_runs (s : State) (f : Ctx → Ctx) : (s.modU f).runs = s.runs := rfl
@[simp] theorem State.modU_cycles (s : State) (f : Ctx → Ctx) : (s.modU f).cycles = s.cycles := rfl
@[simp] theorem State.modU_heapCmds (s : State) (f : Ctx → Ctx) : (s.modU f).heapCmds = s.heapCmds := rfl
@[simp] theorem State.modU_ports (s : State) (f : Ctx → Ctx) : (s.modU f).ports = s.ports := rfl
@[simp] theorem State.modU_ats (s : State) (f : Ctx → Ctx) : (s.modU f).ats = s.ats := rfl
@[simp] theorem State.modU_hostReqs (s : State) (f : Ctx → Ctx) : (s.modU f).hostReqs = s.hostReqs := rfl
@[simp] theorem State.modU_invals (s : State) (f : Ctx → Ctx) : (s.modU f).invals = s.invals := rfl
@[simp] theorem State.modU_poolDead (s : State) (f : Ctx → Ctx) : (s.modU f).poolDead = s.poolDead := rfl
@[simp] theorem State.modU_flash (s : State) (f : Ctx → Ctx) : (s.modU f).flash = s.flash := rfl
@[simp] theorem State.modU_mgmt (s : State) (f : Ctx → Ctx) : (s.modU f).mgmt = s.mgmt := rfl
@[simp] theorem State.modU_pcErrors (s : State) (f : Ctx → Ctx) : (s.modU f).pcErrors = s.pcErrors := rfl
@[simp] theorem State.modU_l2 (s : State) (f : Ctx → Ctx) : (s.modU f).l2 = s.l2 := rfl
@[simp] theorem State.modU_active (s : State) (f : Ctx → Ctx) : (s.modU f).active = s.active := rfl
@[simp] theorem State.modU_devFails (s : State) (f : Ctx → Ctx) : (s.modU f).devFails = s.devFails := rfl
@[simp] theorem State.modU_hostRead (s : State) (f : Ctx → Ctx) : (s.modU f).hostRead = s.hostRead := rfl
@[simp] theorem State.modU_blocked (s : State) (f : Ctx → Ctx) : (s.modU f).blocked = s.blocked := rfl

@[simp] theorem State.modSite_cfg (s : State) (i : Nat) (f : Site → Site) : (s.modSite i f).cfg = s.cfg := rfl
@[simp] theorem State.modSite_agenda (s : State) (i : Nat) (f : Site → Site) : (s.modSite i f).agenda = s.agenda := rfl
@[simp] theorem State.modSite_cur (s : State) (i : Nat) (f : Site → Site) : (s.modSite i f).cur = s.cur := rfl
@[simp] theorem State.modSite_curCtx (s : State) (i : Nat) (f : Site → Site) : (s.modSite i f).curCtx = s.curCtx := rfl
@[simp] theorem State.modSite_free (s : State) (i : Nat) (f : Site → Site) : (s.modSite i f).free = s.free := rfl
@[simp] theorem State.modSite_time (s : State) (i : Nat) (f : Site → Site) : (s.modSite i f).time = s.time := rfl
@[simp] theorem State.modSite_mem (s : State) (i : Nat) (f : Site → Site) : (s.modSite i f).mem = s.mem := rfl
@[simp] theorem State.modSite_cores (s : State) (i : Nat) (f : Site → Site) : (s.modSite i f).cores = s.cores := rfl
@[simp] theorem State.modSite_siteTags (s : State) (i : Nat) (f : Site → Site) : (s.modSite i f).siteTags = s.siteTags := rfl
@[simp] theorem State.modSite_tiles (s : State) (i : Nat) (f : Site → Site) : (s.modSite i f).tiles = s.tiles := rfl
@[simp] theorem State.modSite_clusters (s : State) (i : Nat) (f : Site → Site) : (s.modSite i f).clusters = s.clusters := rfl
@[simp] theorem State.modSite_windows (s : State) (i : Nat) (f : Site → Site) : (s.modSite i f).windows = s.windows := rfl
@[simp] theorem State.modSite_ops (s : State) (i : Nat) (f : Site → Site) : (s.modSite i f).ops = s.ops := rfl
@[simp] theorem State.modSite_kept (s : State) (i : Nat) (f : Site → Site) : (s.modSite i f).kept = s.kept := rfl
@[simp] theorem State.modSite_groups (s : State) (i : Nat) (f : Site → Site) : (s.modSite i f).groups = s.groups := rfl
@[simp] theorem State.modSite_peers (s : State) (i : Nat) (f : Site → Site) : (s.modSite i f).peers = s.peers := rfl
@[simp] theorem State.modSite_collCalls (s : State) (i : Nat) (f : Site → Site) : (s.modSite i f).collCalls = s.collCalls := rfl
@[simp] theorem State.modSite_sysReqs (s : State) (i : Nat) (f : Site → Site) : (s.modSite i f).sysReqs = s.sysReqs := rfl
@[simp] theorem State.modSite_flights (s : State) (i : Nat) (f : Site → Site) : (s.modSite i f).flights = s.flights := rfl
@[simp] theorem State.modSite_seqNos (s : State) (i : Nat) (f : Site → Site) : (s.modSite i f).seqNos = s.seqNos := rfl
@[simp] theorem State.modSite_moves (s : State) (i : Nat) (f : Site → Site) : (s.modSite i f).moves = s.moves := rfl
@[simp] theorem State.modSite_nextId (s : State) (i : Nat) (f : Site → Site) : (s.modSite i f).nextId = s.nextId := rfl
@[simp] theorem State.modSite_strands (s : State) (i : Nat) (f : Site → Site) : (s.modSite i f).strands = s.strands := rfl
@[simp] theorem State.modSite_crews (s : State) (i : Nat) (f : Site → Site) : (s.modSite i f).crews = s.crews := rfl
@[simp] theorem State.modSite_spaces (s : State) (i : Nat) (f : Site → Site) : (s.modSite i f).spaces = s.spaces := rfl
@[simp] theorem State.modSite_jobs (s : State) (i : Nat) (f : Site → Site) : (s.modSite i f).jobs = s.jobs := rfl
@[simp] theorem State.modSite_runs (s : State) (i : Nat) (f : Site → Site) : (s.modSite i f).runs = s.runs := rfl
@[simp] theorem State.modSite_cycles (s : State) (i : Nat) (f : Site → Site) : (s.modSite i f).cycles = s.cycles := rfl
@[simp] theorem State.modSite_heapCmds (s : State) (i : Nat) (f : Site → Site) : (s.modSite i f).heapCmds = s.heapCmds := rfl
@[simp] theorem State.modSite_ports (s : State) (i : Nat) (f : Site → Site) : (s.modSite i f).ports = s.ports := rfl
@[simp] theorem State.modSite_ats (s : State) (i : Nat) (f : Site → Site) : (s.modSite i f).ats = s.ats := rfl
@[simp] theorem State.modSite_hostReqs (s : State) (i : Nat) (f : Site → Site) : (s.modSite i f).hostReqs = s.hostReqs := rfl
@[simp] theorem State.modSite_invals (s : State) (i : Nat) (f : Site → Site) : (s.modSite i f).invals = s.invals := rfl
@[simp] theorem State.modSite_poolDead (s : State) (i : Nat) (f : Site → Site) : (s.modSite i f).poolDead = s.poolDead := rfl
@[simp] theorem State.modSite_flash (s : State) (i : Nat) (f : Site → Site) : (s.modSite i f).flash = s.flash := rfl
@[simp] theorem State.modSite_mgmt (s : State) (i : Nat) (f : Site → Site) : (s.modSite i f).mgmt = s.mgmt := rfl
@[simp] theorem State.modSite_pcErrors (s : State) (i : Nat) (f : Site → Site) : (s.modSite i f).pcErrors = s.pcErrors := rfl
@[simp] theorem State.modSite_l2 (s : State) (i : Nat) (f : Site → Site) : (s.modSite i f).l2 = s.l2 := rfl
@[simp] theorem State.modSite_active (s : State) (i : Nat) (f : Site → Site) : (s.modSite i f).active = s.active := rfl
@[simp] theorem State.modSite_devFails (s : State) (i : Nat) (f : Site → Site) : (s.modSite i f).devFails = s.devFails := rfl
@[simp] theorem State.modSite_hostRead (s : State) (i : Nat) (f : Site → Site) : (s.modSite i f).hostRead = s.hostRead := rfl
@[simp] theorem State.modSite_blocked (s : State) (i : Nat) (f : Site → Site) : (s.modSite i f).blocked = s.blocked := rfl

@[simp] theorem State.modPort_cfg (s : State) (i : Nat) (f : Port → Port) : (s.modPort i f).cfg = s.cfg := rfl
@[simp] theorem State.modPort_agenda (s : State) (i : Nat) (f : Port → Port) : (s.modPort i f).agenda = s.agenda := rfl
@[simp] theorem State.modPort_cur (s : State) (i : Nat) (f : Port → Port) : (s.modPort i f).cur = s.cur := rfl
@[simp] theorem State.modPort_curCtx (s : State) (i : Nat) (f : Port → Port) : (s.modPort i f).curCtx = s.curCtx := rfl
@[simp] theorem State.modPort_free (s : State) (i : Nat) (f : Port → Port) : (s.modPort i f).free = s.free := rfl
@[simp] theorem State.modPort_time (s : State) (i : Nat) (f : Port → Port) : (s.modPort i f).time = s.time := rfl
@[simp] theorem State.modPort_mem (s : State) (i : Nat) (f : Port → Port) : (s.modPort i f).mem = s.mem := rfl
@[simp] theorem State.modPort_cores (s : State) (i : Nat) (f : Port → Port) : (s.modPort i f).cores = s.cores := rfl
@[simp] theorem State.modPort_siteTags (s : State) (i : Nat) (f : Port → Port) : (s.modPort i f).siteTags = s.siteTags := rfl
@[simp] theorem State.modPort_sites (s : State) (i : Nat) (f : Port → Port) : (s.modPort i f).sites = s.sites := rfl
@[simp] theorem State.modPort_tiles (s : State) (i : Nat) (f : Port → Port) : (s.modPort i f).tiles = s.tiles := rfl
@[simp] theorem State.modPort_clusters (s : State) (i : Nat) (f : Port → Port) : (s.modPort i f).clusters = s.clusters := rfl
@[simp] theorem State.modPort_windows (s : State) (i : Nat) (f : Port → Port) : (s.modPort i f).windows = s.windows := rfl
@[simp] theorem State.modPort_ops (s : State) (i : Nat) (f : Port → Port) : (s.modPort i f).ops = s.ops := rfl
@[simp] theorem State.modPort_kept (s : State) (i : Nat) (f : Port → Port) : (s.modPort i f).kept = s.kept := rfl
@[simp] theorem State.modPort_groups (s : State) (i : Nat) (f : Port → Port) : (s.modPort i f).groups = s.groups := rfl
@[simp] theorem State.modPort_peers (s : State) (i : Nat) (f : Port → Port) : (s.modPort i f).peers = s.peers := rfl
@[simp] theorem State.modPort_collCalls (s : State) (i : Nat) (f : Port → Port) : (s.modPort i f).collCalls = s.collCalls := rfl
@[simp] theorem State.modPort_sysReqs (s : State) (i : Nat) (f : Port → Port) : (s.modPort i f).sysReqs = s.sysReqs := rfl
@[simp] theorem State.modPort_flights (s : State) (i : Nat) (f : Port → Port) : (s.modPort i f).flights = s.flights := rfl
@[simp] theorem State.modPort_seqNos (s : State) (i : Nat) (f : Port → Port) : (s.modPort i f).seqNos = s.seqNos := rfl
@[simp] theorem State.modPort_moves (s : State) (i : Nat) (f : Port → Port) : (s.modPort i f).moves = s.moves := rfl
@[simp] theorem State.modPort_nextId (s : State) (i : Nat) (f : Port → Port) : (s.modPort i f).nextId = s.nextId := rfl
@[simp] theorem State.modPort_strands (s : State) (i : Nat) (f : Port → Port) : (s.modPort i f).strands = s.strands := rfl
@[simp] theorem State.modPort_crews (s : State) (i : Nat) (f : Port → Port) : (s.modPort i f).crews = s.crews := rfl
@[simp] theorem State.modPort_spaces (s : State) (i : Nat) (f : Port → Port) : (s.modPort i f).spaces = s.spaces := rfl
@[simp] theorem State.modPort_jobs (s : State) (i : Nat) (f : Port → Port) : (s.modPort i f).jobs = s.jobs := rfl
@[simp] theorem State.modPort_runs (s : State) (i : Nat) (f : Port → Port) : (s.modPort i f).runs = s.runs := rfl
@[simp] theorem State.modPort_cycles (s : State) (i : Nat) (f : Port → Port) : (s.modPort i f).cycles = s.cycles := rfl
@[simp] theorem State.modPort_heapCmds (s : State) (i : Nat) (f : Port → Port) : (s.modPort i f).heapCmds = s.heapCmds := rfl
@[simp] theorem State.modPort_ats (s : State) (i : Nat) (f : Port → Port) : (s.modPort i f).ats = s.ats := rfl
@[simp] theorem State.modPort_hostReqs (s : State) (i : Nat) (f : Port → Port) : (s.modPort i f).hostReqs = s.hostReqs := rfl
@[simp] theorem State.modPort_invals (s : State) (i : Nat) (f : Port → Port) : (s.modPort i f).invals = s.invals := rfl
@[simp] theorem State.modPort_poolDead (s : State) (i : Nat) (f : Port → Port) : (s.modPort i f).poolDead = s.poolDead := rfl
@[simp] theorem State.modPort_flash (s : State) (i : Nat) (f : Port → Port) : (s.modPort i f).flash = s.flash := rfl
@[simp] theorem State.modPort_mgmt (s : State) (i : Nat) (f : Port → Port) : (s.modPort i f).mgmt = s.mgmt := rfl
@[simp] theorem State.modPort_pcErrors (s : State) (i : Nat) (f : Port → Port) : (s.modPort i f).pcErrors = s.pcErrors := rfl
@[simp] theorem State.modPort_l2 (s : State) (i : Nat) (f : Port → Port) : (s.modPort i f).l2 = s.l2 := rfl
@[simp] theorem State.modPort_active (s : State) (i : Nat) (f : Port → Port) : (s.modPort i f).active = s.active := rfl
@[simp] theorem State.modPort_devFails (s : State) (i : Nat) (f : Port → Port) : (s.modPort i f).devFails = s.devFails := rfl
@[simp] theorem State.modPort_hostRead (s : State) (i : Nat) (f : Port → Port) : (s.modPort i f).hostRead = s.hostRead := rfl
@[simp] theorem State.modPort_blocked (s : State) (i : Nat) (f : Port → Port) : (s.modPort i f).blocked = s.blocked := rfl

@[simp] theorem State.modTile_cfg (s : State) (i : Nat) (f : Tile → Tile) : (s.modTile i f).cfg = s.cfg := rfl
@[simp] theorem State.modTile_agenda (s : State) (i : Nat) (f : Tile → Tile) : (s.modTile i f).agenda = s.agenda := rfl
@[simp] theorem State.modTile_cur (s : State) (i : Nat) (f : Tile → Tile) : (s.modTile i f).cur = s.cur := rfl
@[simp] theorem State.modTile_curCtx (s : State) (i : Nat) (f : Tile → Tile) : (s.modTile i f).curCtx = s.curCtx := rfl
@[simp] theorem State.modTile_free (s : State) (i : Nat) (f : Tile → Tile) : (s.modTile i f).free = s.free := rfl
@[simp] theorem State.modTile_time (s : State) (i : Nat) (f : Tile → Tile) : (s.modTile i f).time = s.time := rfl
@[simp] theorem State.modTile_mem (s : State) (i : Nat) (f : Tile → Tile) : (s.modTile i f).mem = s.mem := rfl
@[simp] theorem State.modTile_cores (s : State) (i : Nat) (f : Tile → Tile) : (s.modTile i f).cores = s.cores := rfl
@[simp] theorem State.modTile_siteTags (s : State) (i : Nat) (f : Tile → Tile) : (s.modTile i f).siteTags = s.siteTags := rfl
@[simp] theorem State.modTile_sites (s : State) (i : Nat) (f : Tile → Tile) : (s.modTile i f).sites = s.sites := rfl
@[simp] theorem State.modTile_clusters (s : State) (i : Nat) (f : Tile → Tile) : (s.modTile i f).clusters = s.clusters := rfl
@[simp] theorem State.modTile_windows (s : State) (i : Nat) (f : Tile → Tile) : (s.modTile i f).windows = s.windows := rfl
@[simp] theorem State.modTile_ops (s : State) (i : Nat) (f : Tile → Tile) : (s.modTile i f).ops = s.ops := rfl
@[simp] theorem State.modTile_kept (s : State) (i : Nat) (f : Tile → Tile) : (s.modTile i f).kept = s.kept := rfl
@[simp] theorem State.modTile_groups (s : State) (i : Nat) (f : Tile → Tile) : (s.modTile i f).groups = s.groups := rfl
@[simp] theorem State.modTile_peers (s : State) (i : Nat) (f : Tile → Tile) : (s.modTile i f).peers = s.peers := rfl
@[simp] theorem State.modTile_collCalls (s : State) (i : Nat) (f : Tile → Tile) : (s.modTile i f).collCalls = s.collCalls := rfl
@[simp] theorem State.modTile_sysReqs (s : State) (i : Nat) (f : Tile → Tile) : (s.modTile i f).sysReqs = s.sysReqs := rfl
@[simp] theorem State.modTile_flights (s : State) (i : Nat) (f : Tile → Tile) : (s.modTile i f).flights = s.flights := rfl
@[simp] theorem State.modTile_seqNos (s : State) (i : Nat) (f : Tile → Tile) : (s.modTile i f).seqNos = s.seqNos := rfl
@[simp] theorem State.modTile_moves (s : State) (i : Nat) (f : Tile → Tile) : (s.modTile i f).moves = s.moves := rfl
@[simp] theorem State.modTile_nextId (s : State) (i : Nat) (f : Tile → Tile) : (s.modTile i f).nextId = s.nextId := rfl
@[simp] theorem State.modTile_strands (s : State) (i : Nat) (f : Tile → Tile) : (s.modTile i f).strands = s.strands := rfl
@[simp] theorem State.modTile_crews (s : State) (i : Nat) (f : Tile → Tile) : (s.modTile i f).crews = s.crews := rfl
@[simp] theorem State.modTile_spaces (s : State) (i : Nat) (f : Tile → Tile) : (s.modTile i f).spaces = s.spaces := rfl
@[simp] theorem State.modTile_jobs (s : State) (i : Nat) (f : Tile → Tile) : (s.modTile i f).jobs = s.jobs := rfl
@[simp] theorem State.modTile_runs (s : State) (i : Nat) (f : Tile → Tile) : (s.modTile i f).runs = s.runs := rfl
@[simp] theorem State.modTile_cycles (s : State) (i : Nat) (f : Tile → Tile) : (s.modTile i f).cycles = s.cycles := rfl
@[simp] theorem State.modTile_heapCmds (s : State) (i : Nat) (f : Tile → Tile) : (s.modTile i f).heapCmds = s.heapCmds := rfl
@[simp] theorem State.modTile_ports (s : State) (i : Nat) (f : Tile → Tile) : (s.modTile i f).ports = s.ports := rfl
@[simp] theorem State.modTile_ats (s : State) (i : Nat) (f : Tile → Tile) : (s.modTile i f).ats = s.ats := rfl
@[simp] theorem State.modTile_hostReqs (s : State) (i : Nat) (f : Tile → Tile) : (s.modTile i f).hostReqs = s.hostReqs := rfl
@[simp] theorem State.modTile_invals (s : State) (i : Nat) (f : Tile → Tile) : (s.modTile i f).invals = s.invals := rfl
@[simp] theorem State.modTile_poolDead (s : State) (i : Nat) (f : Tile → Tile) : (s.modTile i f).poolDead = s.poolDead := rfl
@[simp] theorem State.modTile_flash (s : State) (i : Nat) (f : Tile → Tile) : (s.modTile i f).flash = s.flash := rfl
@[simp] theorem State.modTile_mgmt (s : State) (i : Nat) (f : Tile → Tile) : (s.modTile i f).mgmt = s.mgmt := rfl
@[simp] theorem State.modTile_pcErrors (s : State) (i : Nat) (f : Tile → Tile) : (s.modTile i f).pcErrors = s.pcErrors := rfl
@[simp] theorem State.modTile_l2 (s : State) (i : Nat) (f : Tile → Tile) : (s.modTile i f).l2 = s.l2 := rfl
@[simp] theorem State.modTile_active (s : State) (i : Nat) (f : Tile → Tile) : (s.modTile i f).active = s.active := rfl
@[simp] theorem State.modTile_devFails (s : State) (i : Nat) (f : Tile → Tile) : (s.modTile i f).devFails = s.devFails := rfl
@[simp] theorem State.modTile_hostRead (s : State) (i : Nat) (f : Tile → Tile) : (s.modTile i f).hostRead = s.hostRead := rfl
@[simp] theorem State.modTile_blocked (s : State) (i : Nat) (f : Tile → Tile) : (s.modTile i f).blocked = s.blocked := rfl

@[simp] theorem State.modCluster_cfg (s : State) (i : Nat) (f : Cluster → Cluster) : (s.modCluster i f).cfg = s.cfg := rfl
@[simp] theorem State.modCluster_agenda (s : State) (i : Nat) (f : Cluster → Cluster) : (s.modCluster i f).agenda = s.agenda := rfl
@[simp] theorem State.modCluster_cur (s : State) (i : Nat) (f : Cluster → Cluster) : (s.modCluster i f).cur = s.cur := rfl
@[simp] theorem State.modCluster_curCtx (s : State) (i : Nat) (f : Cluster → Cluster) : (s.modCluster i f).curCtx = s.curCtx := rfl
@[simp] theorem State.modCluster_free (s : State) (i : Nat) (f : Cluster → Cluster) : (s.modCluster i f).free = s.free := rfl
@[simp] theorem State.modCluster_time (s : State) (i : Nat) (f : Cluster → Cluster) : (s.modCluster i f).time = s.time := rfl
@[simp] theorem State.modCluster_mem (s : State) (i : Nat) (f : Cluster → Cluster) : (s.modCluster i f).mem = s.mem := rfl
@[simp] theorem State.modCluster_cores (s : State) (i : Nat) (f : Cluster → Cluster) : (s.modCluster i f).cores = s.cores := rfl
@[simp] theorem State.modCluster_siteTags (s : State) (i : Nat) (f : Cluster → Cluster) : (s.modCluster i f).siteTags = s.siteTags := rfl
@[simp] theorem State.modCluster_sites (s : State) (i : Nat) (f : Cluster → Cluster) : (s.modCluster i f).sites = s.sites := rfl
@[simp] theorem State.modCluster_tiles (s : State) (i : Nat) (f : Cluster → Cluster) : (s.modCluster i f).tiles = s.tiles := rfl
@[simp] theorem State.modCluster_windows (s : State) (i : Nat) (f : Cluster → Cluster) : (s.modCluster i f).windows = s.windows := rfl
@[simp] theorem State.modCluster_ops (s : State) (i : Nat) (f : Cluster → Cluster) : (s.modCluster i f).ops = s.ops := rfl
@[simp] theorem State.modCluster_kept (s : State) (i : Nat) (f : Cluster → Cluster) : (s.modCluster i f).kept = s.kept := rfl
@[simp] theorem State.modCluster_groups (s : State) (i : Nat) (f : Cluster → Cluster) : (s.modCluster i f).groups = s.groups := rfl
@[simp] theorem State.modCluster_peers (s : State) (i : Nat) (f : Cluster → Cluster) : (s.modCluster i f).peers = s.peers := rfl
@[simp] theorem State.modCluster_collCalls (s : State) (i : Nat) (f : Cluster → Cluster) : (s.modCluster i f).collCalls = s.collCalls := rfl
@[simp] theorem State.modCluster_sysReqs (s : State) (i : Nat) (f : Cluster → Cluster) : (s.modCluster i f).sysReqs = s.sysReqs := rfl
@[simp] theorem State.modCluster_flights (s : State) (i : Nat) (f : Cluster → Cluster) : (s.modCluster i f).flights = s.flights := rfl
@[simp] theorem State.modCluster_seqNos (s : State) (i : Nat) (f : Cluster → Cluster) : (s.modCluster i f).seqNos = s.seqNos := rfl
@[simp] theorem State.modCluster_moves (s : State) (i : Nat) (f : Cluster → Cluster) : (s.modCluster i f).moves = s.moves := rfl
@[simp] theorem State.modCluster_nextId (s : State) (i : Nat) (f : Cluster → Cluster) : (s.modCluster i f).nextId = s.nextId := rfl
@[simp] theorem State.modCluster_strands (s : State) (i : Nat) (f : Cluster → Cluster) : (s.modCluster i f).strands = s.strands := rfl
@[simp] theorem State.modCluster_crews (s : State) (i : Nat) (f : Cluster → Cluster) : (s.modCluster i f).crews = s.crews := rfl
@[simp] theorem State.modCluster_spaces (s : State) (i : Nat) (f : Cluster → Cluster) : (s.modCluster i f).spaces = s.spaces := rfl
@[simp] theorem State.modCluster_jobs (s : State) (i : Nat) (f : Cluster → Cluster) : (s.modCluster i f).jobs = s.jobs := rfl
@[simp] theorem State.modCluster_runs (s : State) (i : Nat) (f : Cluster → Cluster) : (s.modCluster i f).runs = s.runs := rfl
@[simp] theorem State.modCluster_cycles (s : State) (i : Nat) (f : Cluster → Cluster) : (s.modCluster i f).cycles = s.cycles := rfl
@[simp] theorem State.modCluster_heapCmds (s : State) (i : Nat) (f : Cluster → Cluster) : (s.modCluster i f).heapCmds = s.heapCmds := rfl
@[simp] theorem State.modCluster_ports (s : State) (i : Nat) (f : Cluster → Cluster) : (s.modCluster i f).ports = s.ports := rfl
@[simp] theorem State.modCluster_ats (s : State) (i : Nat) (f : Cluster → Cluster) : (s.modCluster i f).ats = s.ats := rfl
@[simp] theorem State.modCluster_hostReqs (s : State) (i : Nat) (f : Cluster → Cluster) : (s.modCluster i f).hostReqs = s.hostReqs := rfl
@[simp] theorem State.modCluster_invals (s : State) (i : Nat) (f : Cluster → Cluster) : (s.modCluster i f).invals = s.invals := rfl
@[simp] theorem State.modCluster_poolDead (s : State) (i : Nat) (f : Cluster → Cluster) : (s.modCluster i f).poolDead = s.poolDead := rfl
@[simp] theorem State.modCluster_flash (s : State) (i : Nat) (f : Cluster → Cluster) : (s.modCluster i f).flash = s.flash := rfl
@[simp] theorem State.modCluster_mgmt (s : State) (i : Nat) (f : Cluster → Cluster) : (s.modCluster i f).mgmt = s.mgmt := rfl
@[simp] theorem State.modCluster_pcErrors (s : State) (i : Nat) (f : Cluster → Cluster) : (s.modCluster i f).pcErrors = s.pcErrors := rfl
@[simp] theorem State.modCluster_l2 (s : State) (i : Nat) (f : Cluster → Cluster) : (s.modCluster i f).l2 = s.l2 := rfl
@[simp] theorem State.modCluster_active (s : State) (i : Nat) (f : Cluster → Cluster) : (s.modCluster i f).active = s.active := rfl
@[simp] theorem State.modCluster_devFails (s : State) (i : Nat) (f : Cluster → Cluster) : (s.modCluster i f).devFails = s.devFails := rfl
@[simp] theorem State.modCluster_hostRead (s : State) (i : Nat) (f : Cluster → Cluster) : (s.modCluster i f).hostRead = s.hostRead := rfl
@[simp] theorem State.modCluster_blocked (s : State) (i : Nat) (f : Cluster → Cluster) : (s.modCluster i f).blocked = s.blocked := rfl

@[simp] theorem State.modSpace_cfg (s : State) (i : Nat) (f : Space → Space) : (s.modSpace i f).cfg = s.cfg := rfl
@[simp] theorem State.modSpace_agenda (s : State) (i : Nat) (f : Space → Space) : (s.modSpace i f).agenda = s.agenda := rfl
@[simp] theorem State.modSpace_cur (s : State) (i : Nat) (f : Space → Space) : (s.modSpace i f).cur = s.cur := rfl
@[simp] theorem State.modSpace_curCtx (s : State) (i : Nat) (f : Space → Space) : (s.modSpace i f).curCtx = s.curCtx := rfl
@[simp] theorem State.modSpace_free (s : State) (i : Nat) (f : Space → Space) : (s.modSpace i f).free = s.free := rfl
@[simp] theorem State.modSpace_time (s : State) (i : Nat) (f : Space → Space) : (s.modSpace i f).time = s.time := rfl
@[simp] theorem State.modSpace_mem (s : State) (i : Nat) (f : Space → Space) : (s.modSpace i f).mem = s.mem := rfl
@[simp] theorem State.modSpace_cores (s : State) (i : Nat) (f : Space → Space) : (s.modSpace i f).cores = s.cores := rfl
@[simp] theorem State.modSpace_siteTags (s : State) (i : Nat) (f : Space → Space) : (s.modSpace i f).siteTags = s.siteTags := rfl
@[simp] theorem State.modSpace_sites (s : State) (i : Nat) (f : Space → Space) : (s.modSpace i f).sites = s.sites := rfl
@[simp] theorem State.modSpace_tiles (s : State) (i : Nat) (f : Space → Space) : (s.modSpace i f).tiles = s.tiles := rfl
@[simp] theorem State.modSpace_clusters (s : State) (i : Nat) (f : Space → Space) : (s.modSpace i f).clusters = s.clusters := rfl
@[simp] theorem State.modSpace_windows (s : State) (i : Nat) (f : Space → Space) : (s.modSpace i f).windows = s.windows := rfl
@[simp] theorem State.modSpace_ops (s : State) (i : Nat) (f : Space → Space) : (s.modSpace i f).ops = s.ops := rfl
@[simp] theorem State.modSpace_kept (s : State) (i : Nat) (f : Space → Space) : (s.modSpace i f).kept = s.kept := rfl
@[simp] theorem State.modSpace_groups (s : State) (i : Nat) (f : Space → Space) : (s.modSpace i f).groups = s.groups := rfl
@[simp] theorem State.modSpace_peers (s : State) (i : Nat) (f : Space → Space) : (s.modSpace i f).peers = s.peers := rfl
@[simp] theorem State.modSpace_collCalls (s : State) (i : Nat) (f : Space → Space) : (s.modSpace i f).collCalls = s.collCalls := rfl
@[simp] theorem State.modSpace_sysReqs (s : State) (i : Nat) (f : Space → Space) : (s.modSpace i f).sysReqs = s.sysReqs := rfl
@[simp] theorem State.modSpace_flights (s : State) (i : Nat) (f : Space → Space) : (s.modSpace i f).flights = s.flights := rfl
@[simp] theorem State.modSpace_seqNos (s : State) (i : Nat) (f : Space → Space) : (s.modSpace i f).seqNos = s.seqNos := rfl
@[simp] theorem State.modSpace_moves (s : State) (i : Nat) (f : Space → Space) : (s.modSpace i f).moves = s.moves := rfl
@[simp] theorem State.modSpace_nextId (s : State) (i : Nat) (f : Space → Space) : (s.modSpace i f).nextId = s.nextId := rfl
@[simp] theorem State.modSpace_strands (s : State) (i : Nat) (f : Space → Space) : (s.modSpace i f).strands = s.strands := rfl
@[simp] theorem State.modSpace_crews (s : State) (i : Nat) (f : Space → Space) : (s.modSpace i f).crews = s.crews := rfl
@[simp] theorem State.modSpace_jobs (s : State) (i : Nat) (f : Space → Space) : (s.modSpace i f).jobs = s.jobs := rfl
@[simp] theorem State.modSpace_runs (s : State) (i : Nat) (f : Space → Space) : (s.modSpace i f).runs = s.runs := rfl
@[simp] theorem State.modSpace_cycles (s : State) (i : Nat) (f : Space → Space) : (s.modSpace i f).cycles = s.cycles := rfl
@[simp] theorem State.modSpace_heapCmds (s : State) (i : Nat) (f : Space → Space) : (s.modSpace i f).heapCmds = s.heapCmds := rfl
@[simp] theorem State.modSpace_ports (s : State) (i : Nat) (f : Space → Space) : (s.modSpace i f).ports = s.ports := rfl
@[simp] theorem State.modSpace_ats (s : State) (i : Nat) (f : Space → Space) : (s.modSpace i f).ats = s.ats := rfl
@[simp] theorem State.modSpace_hostReqs (s : State) (i : Nat) (f : Space → Space) : (s.modSpace i f).hostReqs = s.hostReqs := rfl
@[simp] theorem State.modSpace_invals (s : State) (i : Nat) (f : Space → Space) : (s.modSpace i f).invals = s.invals := rfl
@[simp] theorem State.modSpace_poolDead (s : State) (i : Nat) (f : Space → Space) : (s.modSpace i f).poolDead = s.poolDead := rfl
@[simp] theorem State.modSpace_flash (s : State) (i : Nat) (f : Space → Space) : (s.modSpace i f).flash = s.flash := rfl
@[simp] theorem State.modSpace_mgmt (s : State) (i : Nat) (f : Space → Space) : (s.modSpace i f).mgmt = s.mgmt := rfl
@[simp] theorem State.modSpace_pcErrors (s : State) (i : Nat) (f : Space → Space) : (s.modSpace i f).pcErrors = s.pcErrors := rfl
@[simp] theorem State.modSpace_l2 (s : State) (i : Nat) (f : Space → Space) : (s.modSpace i f).l2 = s.l2 := rfl
@[simp] theorem State.modSpace_active (s : State) (i : Nat) (f : Space → Space) : (s.modSpace i f).active = s.active := rfl
@[simp] theorem State.modSpace_devFails (s : State) (i : Nat) (f : Space → Space) : (s.modSpace i f).devFails = s.devFails := rfl
@[simp] theorem State.modSpace_hostRead (s : State) (i : Nat) (f : Space → Space) : (s.modSpace i f).hostRead = s.hostRead := rfl
@[simp] theorem State.modSpace_blocked (s : State) (i : Nat) (f : Space → Space) : (s.modSpace i f).blocked = s.blocked := rfl

@[simp] theorem State.modStrand_cfg (s : State) (i j : Nat) (f : Strand → Strand) : (s.modStrand i j f).cfg = s.cfg := rfl
@[simp] theorem State.modStrand_agenda (s : State) (i j : Nat) (f : Strand → Strand) : (s.modStrand i j f).agenda = s.agenda := rfl
@[simp] theorem State.modStrand_cur (s : State) (i j : Nat) (f : Strand → Strand) : (s.modStrand i j f).cur = s.cur := rfl
@[simp] theorem State.modStrand_curCtx (s : State) (i j : Nat) (f : Strand → Strand) : (s.modStrand i j f).curCtx = s.curCtx := rfl
@[simp] theorem State.modStrand_free (s : State) (i j : Nat) (f : Strand → Strand) : (s.modStrand i j f).free = s.free := rfl
@[simp] theorem State.modStrand_time (s : State) (i j : Nat) (f : Strand → Strand) : (s.modStrand i j f).time = s.time := rfl
@[simp] theorem State.modStrand_mem (s : State) (i j : Nat) (f : Strand → Strand) : (s.modStrand i j f).mem = s.mem := rfl
@[simp] theorem State.modStrand_cores (s : State) (i j : Nat) (f : Strand → Strand) : (s.modStrand i j f).cores = s.cores := rfl
@[simp] theorem State.modStrand_siteTags (s : State) (i j : Nat) (f : Strand → Strand) : (s.modStrand i j f).siteTags = s.siteTags := rfl
@[simp] theorem State.modStrand_sites (s : State) (i j : Nat) (f : Strand → Strand) : (s.modStrand i j f).sites = s.sites := rfl
@[simp] theorem State.modStrand_tiles (s : State) (i j : Nat) (f : Strand → Strand) : (s.modStrand i j f).tiles = s.tiles := rfl
@[simp] theorem State.modStrand_clusters (s : State) (i j : Nat) (f : Strand → Strand) : (s.modStrand i j f).clusters = s.clusters := rfl
@[simp] theorem State.modStrand_windows (s : State) (i j : Nat) (f : Strand → Strand) : (s.modStrand i j f).windows = s.windows := rfl
@[simp] theorem State.modStrand_ops (s : State) (i j : Nat) (f : Strand → Strand) : (s.modStrand i j f).ops = s.ops := rfl
@[simp] theorem State.modStrand_kept (s : State) (i j : Nat) (f : Strand → Strand) : (s.modStrand i j f).kept = s.kept := rfl
@[simp] theorem State.modStrand_groups (s : State) (i j : Nat) (f : Strand → Strand) : (s.modStrand i j f).groups = s.groups := rfl
@[simp] theorem State.modStrand_peers (s : State) (i j : Nat) (f : Strand → Strand) : (s.modStrand i j f).peers = s.peers := rfl
@[simp] theorem State.modStrand_collCalls (s : State) (i j : Nat) (f : Strand → Strand) : (s.modStrand i j f).collCalls = s.collCalls := rfl
@[simp] theorem State.modStrand_sysReqs (s : State) (i j : Nat) (f : Strand → Strand) : (s.modStrand i j f).sysReqs = s.sysReqs := rfl
@[simp] theorem State.modStrand_flights (s : State) (i j : Nat) (f : Strand → Strand) : (s.modStrand i j f).flights = s.flights := rfl
@[simp] theorem State.modStrand_seqNos (s : State) (i j : Nat) (f : Strand → Strand) : (s.modStrand i j f).seqNos = s.seqNos := rfl
@[simp] theorem State.modStrand_moves (s : State) (i j : Nat) (f : Strand → Strand) : (s.modStrand i j f).moves = s.moves := rfl
@[simp] theorem State.modStrand_nextId (s : State) (i j : Nat) (f : Strand → Strand) : (s.modStrand i j f).nextId = s.nextId := rfl
@[simp] theorem State.modStrand_crews (s : State) (i j : Nat) (f : Strand → Strand) : (s.modStrand i j f).crews = s.crews := rfl
@[simp] theorem State.modStrand_spaces (s : State) (i j : Nat) (f : Strand → Strand) : (s.modStrand i j f).spaces = s.spaces := rfl
@[simp] theorem State.modStrand_jobs (s : State) (i j : Nat) (f : Strand → Strand) : (s.modStrand i j f).jobs = s.jobs := rfl
@[simp] theorem State.modStrand_runs (s : State) (i j : Nat) (f : Strand → Strand) : (s.modStrand i j f).runs = s.runs := rfl
@[simp] theorem State.modStrand_cycles (s : State) (i j : Nat) (f : Strand → Strand) : (s.modStrand i j f).cycles = s.cycles := rfl
@[simp] theorem State.modStrand_heapCmds (s : State) (i j : Nat) (f : Strand → Strand) : (s.modStrand i j f).heapCmds = s.heapCmds := rfl
@[simp] theorem State.modStrand_ports (s : State) (i j : Nat) (f : Strand → Strand) : (s.modStrand i j f).ports = s.ports := rfl
@[simp] theorem State.modStrand_ats (s : State) (i j : Nat) (f : Strand → Strand) : (s.modStrand i j f).ats = s.ats := rfl
@[simp] theorem State.modStrand_hostReqs (s : State) (i j : Nat) (f : Strand → Strand) : (s.modStrand i j f).hostReqs = s.hostReqs := rfl
@[simp] theorem State.modStrand_invals (s : State) (i j : Nat) (f : Strand → Strand) : (s.modStrand i j f).invals = s.invals := rfl
@[simp] theorem State.modStrand_poolDead (s : State) (i j : Nat) (f : Strand → Strand) : (s.modStrand i j f).poolDead = s.poolDead := rfl
@[simp] theorem State.modStrand_flash (s : State) (i j : Nat) (f : Strand → Strand) : (s.modStrand i j f).flash = s.flash := rfl
@[simp] theorem State.modStrand_mgmt (s : State) (i j : Nat) (f : Strand → Strand) : (s.modStrand i j f).mgmt = s.mgmt := rfl
@[simp] theorem State.modStrand_pcErrors (s : State) (i j : Nat) (f : Strand → Strand) : (s.modStrand i j f).pcErrors = s.pcErrors := rfl
@[simp] theorem State.modStrand_l2 (s : State) (i j : Nat) (f : Strand → Strand) : (s.modStrand i j f).l2 = s.l2 := rfl
@[simp] theorem State.modStrand_active (s : State) (i j : Nat) (f : Strand → Strand) : (s.modStrand i j f).active = s.active := rfl
@[simp] theorem State.modStrand_devFails (s : State) (i j : Nat) (f : Strand → Strand) : (s.modStrand i j f).devFails = s.devFails := rfl
@[simp] theorem State.modStrand_hostRead (s : State) (i j : Nat) (f : Strand → Strand) : (s.modStrand i j f).hostRead = s.hostRead := rfl
@[simp] theorem State.modStrand_blocked (s : State) (i j : Nat) (f : Strand → Strand) : (s.modStrand i j f).blocked = s.blocked := rfl

@[simp] theorem State.modCrew_cfg (s : State) (i : Nat) (f : Crew → Crew) : (s.modCrew i f).cfg = s.cfg := rfl
@[simp] theorem State.modCrew_agenda (s : State) (i : Nat) (f : Crew → Crew) : (s.modCrew i f).agenda = s.agenda := rfl
@[simp] theorem State.modCrew_cur (s : State) (i : Nat) (f : Crew → Crew) : (s.modCrew i f).cur = s.cur := rfl
@[simp] theorem State.modCrew_curCtx (s : State) (i : Nat) (f : Crew → Crew) : (s.modCrew i f).curCtx = s.curCtx := rfl
@[simp] theorem State.modCrew_free (s : State) (i : Nat) (f : Crew → Crew) : (s.modCrew i f).free = s.free := rfl
@[simp] theorem State.modCrew_time (s : State) (i : Nat) (f : Crew → Crew) : (s.modCrew i f).time = s.time := rfl
@[simp] theorem State.modCrew_mem (s : State) (i : Nat) (f : Crew → Crew) : (s.modCrew i f).mem = s.mem := rfl
@[simp] theorem State.modCrew_cores (s : State) (i : Nat) (f : Crew → Crew) : (s.modCrew i f).cores = s.cores := rfl
@[simp] theorem State.modCrew_siteTags (s : State) (i : Nat) (f : Crew → Crew) : (s.modCrew i f).siteTags = s.siteTags := rfl
@[simp] theorem State.modCrew_sites (s : State) (i : Nat) (f : Crew → Crew) : (s.modCrew i f).sites = s.sites := rfl
@[simp] theorem State.modCrew_tiles (s : State) (i : Nat) (f : Crew → Crew) : (s.modCrew i f).tiles = s.tiles := rfl
@[simp] theorem State.modCrew_clusters (s : State) (i : Nat) (f : Crew → Crew) : (s.modCrew i f).clusters = s.clusters := rfl
@[simp] theorem State.modCrew_windows (s : State) (i : Nat) (f : Crew → Crew) : (s.modCrew i f).windows = s.windows := rfl
@[simp] theorem State.modCrew_ops (s : State) (i : Nat) (f : Crew → Crew) : (s.modCrew i f).ops = s.ops := rfl
@[simp] theorem State.modCrew_kept (s : State) (i : Nat) (f : Crew → Crew) : (s.modCrew i f).kept = s.kept := rfl
@[simp] theorem State.modCrew_groups (s : State) (i : Nat) (f : Crew → Crew) : (s.modCrew i f).groups = s.groups := rfl
@[simp] theorem State.modCrew_peers (s : State) (i : Nat) (f : Crew → Crew) : (s.modCrew i f).peers = s.peers := rfl
@[simp] theorem State.modCrew_collCalls (s : State) (i : Nat) (f : Crew → Crew) : (s.modCrew i f).collCalls = s.collCalls := rfl
@[simp] theorem State.modCrew_sysReqs (s : State) (i : Nat) (f : Crew → Crew) : (s.modCrew i f).sysReqs = s.sysReqs := rfl
@[simp] theorem State.modCrew_flights (s : State) (i : Nat) (f : Crew → Crew) : (s.modCrew i f).flights = s.flights := rfl
@[simp] theorem State.modCrew_seqNos (s : State) (i : Nat) (f : Crew → Crew) : (s.modCrew i f).seqNos = s.seqNos := rfl
@[simp] theorem State.modCrew_moves (s : State) (i : Nat) (f : Crew → Crew) : (s.modCrew i f).moves = s.moves := rfl
@[simp] theorem State.modCrew_nextId (s : State) (i : Nat) (f : Crew → Crew) : (s.modCrew i f).nextId = s.nextId := rfl
@[simp] theorem State.modCrew_strands (s : State) (i : Nat) (f : Crew → Crew) : (s.modCrew i f).strands = s.strands := rfl
@[simp] theorem State.modCrew_spaces (s : State) (i : Nat) (f : Crew → Crew) : (s.modCrew i f).spaces = s.spaces := rfl
@[simp] theorem State.modCrew_jobs (s : State) (i : Nat) (f : Crew → Crew) : (s.modCrew i f).jobs = s.jobs := rfl
@[simp] theorem State.modCrew_runs (s : State) (i : Nat) (f : Crew → Crew) : (s.modCrew i f).runs = s.runs := rfl
@[simp] theorem State.modCrew_cycles (s : State) (i : Nat) (f : Crew → Crew) : (s.modCrew i f).cycles = s.cycles := rfl
@[simp] theorem State.modCrew_heapCmds (s : State) (i : Nat) (f : Crew → Crew) : (s.modCrew i f).heapCmds = s.heapCmds := rfl
@[simp] theorem State.modCrew_ports (s : State) (i : Nat) (f : Crew → Crew) : (s.modCrew i f).ports = s.ports := rfl
@[simp] theorem State.modCrew_ats (s : State) (i : Nat) (f : Crew → Crew) : (s.modCrew i f).ats = s.ats := rfl
@[simp] theorem State.modCrew_hostReqs (s : State) (i : Nat) (f : Crew → Crew) : (s.modCrew i f).hostReqs = s.hostReqs := rfl
@[simp] theorem State.modCrew_invals (s : State) (i : Nat) (f : Crew → Crew) : (s.modCrew i f).invals = s.invals := rfl
@[simp] theorem State.modCrew_poolDead (s : State) (i : Nat) (f : Crew → Crew) : (s.modCrew i f).poolDead = s.poolDead := rfl
@[simp] theorem State.modCrew_flash (s : State) (i : Nat) (f : Crew → Crew) : (s.modCrew i f).flash = s.flash := rfl
@[simp] theorem State.modCrew_mgmt (s : State) (i : Nat) (f : Crew → Crew) : (s.modCrew i f).mgmt = s.mgmt := rfl
@[simp] theorem State.modCrew_pcErrors (s : State) (i : Nat) (f : Crew → Crew) : (s.modCrew i f).pcErrors = s.pcErrors := rfl
@[simp] theorem State.modCrew_l2 (s : State) (i : Nat) (f : Crew → Crew) : (s.modCrew i f).l2 = s.l2 := rfl
@[simp] theorem State.modCrew_active (s : State) (i : Nat) (f : Crew → Crew) : (s.modCrew i f).active = s.active := rfl
@[simp] theorem State.modCrew_devFails (s : State) (i : Nat) (f : Crew → Crew) : (s.modCrew i f).devFails = s.devFails := rfl
@[simp] theorem State.modCrew_hostRead (s : State) (i : Nat) (f : Crew → Crew) : (s.modCrew i f).hostRead = s.hostRead := rfl
@[simp] theorem State.modCrew_blocked (s : State) (i : Nat) (f : Crew → Crew) : (s.modCrew i f).blocked = s.blocked := rfl

@[simp] theorem State.modOp_cfg (s : State) (i : Nat) (f : EngineOp → EngineOp) : (s.modOp i f).cfg = s.cfg := rfl
@[simp] theorem State.modOp_agenda (s : State) (i : Nat) (f : EngineOp → EngineOp) : (s.modOp i f).agenda = s.agenda := rfl
@[simp] theorem State.modOp_cur (s : State) (i : Nat) (f : EngineOp → EngineOp) : (s.modOp i f).cur = s.cur := rfl
@[simp] theorem State.modOp_curCtx (s : State) (i : Nat) (f : EngineOp → EngineOp) : (s.modOp i f).curCtx = s.curCtx := rfl
@[simp] theorem State.modOp_free (s : State) (i : Nat) (f : EngineOp → EngineOp) : (s.modOp i f).free = s.free := rfl
@[simp] theorem State.modOp_time (s : State) (i : Nat) (f : EngineOp → EngineOp) : (s.modOp i f).time = s.time := rfl
@[simp] theorem State.modOp_mem (s : State) (i : Nat) (f : EngineOp → EngineOp) : (s.modOp i f).mem = s.mem := rfl
@[simp] theorem State.modOp_cores (s : State) (i : Nat) (f : EngineOp → EngineOp) : (s.modOp i f).cores = s.cores := rfl
@[simp] theorem State.modOp_siteTags (s : State) (i : Nat) (f : EngineOp → EngineOp) : (s.modOp i f).siteTags = s.siteTags := rfl
@[simp] theorem State.modOp_sites (s : State) (i : Nat) (f : EngineOp → EngineOp) : (s.modOp i f).sites = s.sites := rfl
@[simp] theorem State.modOp_tiles (s : State) (i : Nat) (f : EngineOp → EngineOp) : (s.modOp i f).tiles = s.tiles := rfl
@[simp] theorem State.modOp_clusters (s : State) (i : Nat) (f : EngineOp → EngineOp) : (s.modOp i f).clusters = s.clusters := rfl
@[simp] theorem State.modOp_windows (s : State) (i : Nat) (f : EngineOp → EngineOp) : (s.modOp i f).windows = s.windows := rfl
@[simp] theorem State.modOp_kept (s : State) (i : Nat) (f : EngineOp → EngineOp) : (s.modOp i f).kept = s.kept := rfl
@[simp] theorem State.modOp_groups (s : State) (i : Nat) (f : EngineOp → EngineOp) : (s.modOp i f).groups = s.groups := rfl
@[simp] theorem State.modOp_peers (s : State) (i : Nat) (f : EngineOp → EngineOp) : (s.modOp i f).peers = s.peers := rfl
@[simp] theorem State.modOp_collCalls (s : State) (i : Nat) (f : EngineOp → EngineOp) : (s.modOp i f).collCalls = s.collCalls := rfl
@[simp] theorem State.modOp_sysReqs (s : State) (i : Nat) (f : EngineOp → EngineOp) : (s.modOp i f).sysReqs = s.sysReqs := rfl
@[simp] theorem State.modOp_flights (s : State) (i : Nat) (f : EngineOp → EngineOp) : (s.modOp i f).flights = s.flights := rfl
@[simp] theorem State.modOp_seqNos (s : State) (i : Nat) (f : EngineOp → EngineOp) : (s.modOp i f).seqNos = s.seqNos := rfl
@[simp] theorem State.modOp_moves (s : State) (i : Nat) (f : EngineOp → EngineOp) : (s.modOp i f).moves = s.moves := rfl
@[simp] theorem State.modOp_nextId (s : State) (i : Nat) (f : EngineOp → EngineOp) : (s.modOp i f).nextId = s.nextId := rfl
@[simp] theorem State.modOp_strands (s : State) (i : Nat) (f : EngineOp → EngineOp) : (s.modOp i f).strands = s.strands := rfl
@[simp] theorem State.modOp_crews (s : State) (i : Nat) (f : EngineOp → EngineOp) : (s.modOp i f).crews = s.crews := rfl
@[simp] theorem State.modOp_spaces (s : State) (i : Nat) (f : EngineOp → EngineOp) : (s.modOp i f).spaces = s.spaces := rfl
@[simp] theorem State.modOp_jobs (s : State) (i : Nat) (f : EngineOp → EngineOp) : (s.modOp i f).jobs = s.jobs := rfl
@[simp] theorem State.modOp_runs (s : State) (i : Nat) (f : EngineOp → EngineOp) : (s.modOp i f).runs = s.runs := rfl
@[simp] theorem State.modOp_cycles (s : State) (i : Nat) (f : EngineOp → EngineOp) : (s.modOp i f).cycles = s.cycles := rfl
@[simp] theorem State.modOp_heapCmds (s : State) (i : Nat) (f : EngineOp → EngineOp) : (s.modOp i f).heapCmds = s.heapCmds := rfl
@[simp] theorem State.modOp_ports (s : State) (i : Nat) (f : EngineOp → EngineOp) : (s.modOp i f).ports = s.ports := rfl
@[simp] theorem State.modOp_ats (s : State) (i : Nat) (f : EngineOp → EngineOp) : (s.modOp i f).ats = s.ats := rfl
@[simp] theorem State.modOp_hostReqs (s : State) (i : Nat) (f : EngineOp → EngineOp) : (s.modOp i f).hostReqs = s.hostReqs := rfl
@[simp] theorem State.modOp_invals (s : State) (i : Nat) (f : EngineOp → EngineOp) : (s.modOp i f).invals = s.invals := rfl
@[simp] theorem State.modOp_poolDead (s : State) (i : Nat) (f : EngineOp → EngineOp) : (s.modOp i f).poolDead = s.poolDead := rfl
@[simp] theorem State.modOp_flash (s : State) (i : Nat) (f : EngineOp → EngineOp) : (s.modOp i f).flash = s.flash := rfl
@[simp] theorem State.modOp_mgmt (s : State) (i : Nat) (f : EngineOp → EngineOp) : (s.modOp i f).mgmt = s.mgmt := rfl
@[simp] theorem State.modOp_pcErrors (s : State) (i : Nat) (f : EngineOp → EngineOp) : (s.modOp i f).pcErrors = s.pcErrors := rfl
@[simp] theorem State.modOp_l2 (s : State) (i : Nat) (f : EngineOp → EngineOp) : (s.modOp i f).l2 = s.l2 := rfl
@[simp] theorem State.modOp_active (s : State) (i : Nat) (f : EngineOp → EngineOp) : (s.modOp i f).active = s.active := rfl
@[simp] theorem State.modOp_devFails (s : State) (i : Nat) (f : EngineOp → EngineOp) : (s.modOp i f).devFails = s.devFails := rfl
@[simp] theorem State.modOp_hostRead (s : State) (i : Nat) (f : EngineOp → EngineOp) : (s.modOp i f).hostRead = s.hostRead := rfl
@[simp] theorem State.modOp_blocked (s : State) (i : Nat) (f : EngineOp → EngineOp) : (s.modOp i f).blocked = s.blocked := rfl

@[simp] theorem State.mapCores_cfg (s : State) (f : Core → Core) : (s.mapCores f).cfg = s.cfg := rfl
@[simp] theorem State.mapCores_agenda (s : State) (f : Core → Core) : (s.mapCores f).agenda = s.agenda := rfl
@[simp] theorem State.mapCores_cur (s : State) (f : Core → Core) : (s.mapCores f).cur = s.cur := rfl
@[simp] theorem State.mapCores_curCtx (s : State) (f : Core → Core) : (s.mapCores f).curCtx = s.curCtx := rfl
@[simp] theorem State.mapCores_free (s : State) (f : Core → Core) : (s.mapCores f).free = s.free := rfl
@[simp] theorem State.mapCores_time (s : State) (f : Core → Core) : (s.mapCores f).time = s.time := rfl
@[simp] theorem State.mapCores_mem (s : State) (f : Core → Core) : (s.mapCores f).mem = s.mem := rfl
@[simp] theorem State.mapCores_siteTags (s : State) (f : Core → Core) : (s.mapCores f).siteTags = s.siteTags := rfl
@[simp] theorem State.mapCores_sites (s : State) (f : Core → Core) : (s.mapCores f).sites = s.sites := rfl
@[simp] theorem State.mapCores_tiles (s : State) (f : Core → Core) : (s.mapCores f).tiles = s.tiles := rfl
@[simp] theorem State.mapCores_clusters (s : State) (f : Core → Core) : (s.mapCores f).clusters = s.clusters := rfl
@[simp] theorem State.mapCores_windows (s : State) (f : Core → Core) : (s.mapCores f).windows = s.windows := rfl
@[simp] theorem State.mapCores_ops (s : State) (f : Core → Core) : (s.mapCores f).ops = s.ops := rfl
@[simp] theorem State.mapCores_kept (s : State) (f : Core → Core) : (s.mapCores f).kept = s.kept := rfl
@[simp] theorem State.mapCores_groups (s : State) (f : Core → Core) : (s.mapCores f).groups = s.groups := rfl
@[simp] theorem State.mapCores_peers (s : State) (f : Core → Core) : (s.mapCores f).peers = s.peers := rfl
@[simp] theorem State.mapCores_collCalls (s : State) (f : Core → Core) : (s.mapCores f).collCalls = s.collCalls := rfl
@[simp] theorem State.mapCores_sysReqs (s : State) (f : Core → Core) : (s.mapCores f).sysReqs = s.sysReqs := rfl
@[simp] theorem State.mapCores_flights (s : State) (f : Core → Core) : (s.mapCores f).flights = s.flights := rfl
@[simp] theorem State.mapCores_seqNos (s : State) (f : Core → Core) : (s.mapCores f).seqNos = s.seqNos := rfl
@[simp] theorem State.mapCores_moves (s : State) (f : Core → Core) : (s.mapCores f).moves = s.moves := rfl
@[simp] theorem State.mapCores_nextId (s : State) (f : Core → Core) : (s.mapCores f).nextId = s.nextId := rfl
@[simp] theorem State.mapCores_strands (s : State) (f : Core → Core) : (s.mapCores f).strands = s.strands := rfl
@[simp] theorem State.mapCores_crews (s : State) (f : Core → Core) : (s.mapCores f).crews = s.crews := rfl
@[simp] theorem State.mapCores_spaces (s : State) (f : Core → Core) : (s.mapCores f).spaces = s.spaces := rfl
@[simp] theorem State.mapCores_jobs (s : State) (f : Core → Core) : (s.mapCores f).jobs = s.jobs := rfl
@[simp] theorem State.mapCores_runs (s : State) (f : Core → Core) : (s.mapCores f).runs = s.runs := rfl
@[simp] theorem State.mapCores_cycles (s : State) (f : Core → Core) : (s.mapCores f).cycles = s.cycles := rfl
@[simp] theorem State.mapCores_heapCmds (s : State) (f : Core → Core) : (s.mapCores f).heapCmds = s.heapCmds := rfl
@[simp] theorem State.mapCores_ports (s : State) (f : Core → Core) : (s.mapCores f).ports = s.ports := rfl
@[simp] theorem State.mapCores_ats (s : State) (f : Core → Core) : (s.mapCores f).ats = s.ats := rfl
@[simp] theorem State.mapCores_hostReqs (s : State) (f : Core → Core) : (s.mapCores f).hostReqs = s.hostReqs := rfl
@[simp] theorem State.mapCores_invals (s : State) (f : Core → Core) : (s.mapCores f).invals = s.invals := rfl
@[simp] theorem State.mapCores_poolDead (s : State) (f : Core → Core) : (s.mapCores f).poolDead = s.poolDead := rfl
@[simp] theorem State.mapCores_flash (s : State) (f : Core → Core) : (s.mapCores f).flash = s.flash := rfl
@[simp] theorem State.mapCores_mgmt (s : State) (f : Core → Core) : (s.mapCores f).mgmt = s.mgmt := rfl
@[simp] theorem State.mapCores_pcErrors (s : State) (f : Core → Core) : (s.mapCores f).pcErrors = s.pcErrors := rfl
@[simp] theorem State.mapCores_l2 (s : State) (f : Core → Core) : (s.mapCores f).l2 = s.l2 := rfl
@[simp] theorem State.mapCores_active (s : State) (f : Core → Core) : (s.mapCores f).active = s.active := rfl
@[simp] theorem State.mapCores_devFails (s : State) (f : Core → Core) : (s.mapCores f).devFails = s.devFails := rfl
@[simp] theorem State.mapCores_hostRead (s : State) (f : Core → Core) : (s.mapCores f).hostRead = s.hostRead := rfl
@[simp] theorem State.mapCores_blocked (s : State) (f : Core → Core) : (s.mapCores f).blocked = s.blocked := rfl

/-! ### Core: its contexts -/

@[simp] theorem Core.setCtx_u_a (k : Core) (x : Ctx) : (k.setCtx .u x).a = k.a := rfl
@[simp] theorem Core.setCtx_u_uWork (k : Core) (x : Ctx) : (k.setCtx .u x).uWork = k.uWork := rfl
@[simp] theorem Core.setCtx_u_aWork (k : Core) (x : Ctx) : (k.setCtx .u x).aWork = k.aWork := rfl
@[simp] theorem Core.setCtx_u_v (k : Core) (x : Ctx) : (k.setCtx .u x).v = k.v := rfl
@[simp] theorem Core.setCtx_u_m (k : Core) (x : Ctx) : (k.setCtx .u x).m = k.m := rfl
@[simp] theorem Core.setCtx_u_ac (k : Core) (x : Ctx) : (k.setCtx .u x).ac = k.ac := rfl
@[simp] theorem Core.setCtx_u_acLive (k : Core) (x : Ctx) : (k.setCtx .u x).acLive = k.acLive := rfl
@[simp] theorem Core.setCtx_u_regPoison (k : Core) (x : Ctx) : (k.setCtx .u x).regPoison = k.regPoison := rfl
@[simp] theorem Core.setCtx_u_queue (k : Core) (x : Ctx) : (k.setCtx .u x).queue = k.queue := rfl
@[simp] theorem Core.setCtx_u_vfault (k : Core) (x : Ctx) : (k.setCtx .u x).vfault = k.vfault := rfl
@[simp] theorem Core.setCtx_u_mq (k : Core) (x : Ctx) : (k.setCtx .u x).mq = k.mq := rfl
@[simp] theorem Core.setCtx_u_long (k : Core) (x : Ctx) : (k.setCtx .u x).long = k.long := rfl
@[simp] theorem Core.setCtx_u_lastJoined (k : Core) (x : Ctx) : (k.setCtx .u x).lastJoined = k.lastJoined := rfl
@[simp] theorem Core.setCtx_u_scause (k : Core) (x : Ctx) : (k.setCtx .u x).scause = k.scause := rfl
@[simp] theorem Core.setCtx_u_sepc (k : Core) (x : Ctx) : (k.setCtx .u x).sepc = k.sepc := rfl
@[simp] theorem Core.setCtx_u_saddr (k : Core) (x : Ctx) : (k.setCtx .u x).saddr = k.saddr := rfl
@[simp] theorem Core.setCtx_u_sinfo (k : Core) (x : Ctx) : (k.setCtx .u x).sinfo = k.sinfo := rfl
@[simp] theorem Core.setCtx_u_svec (k : Core) (x : Ctx) : (k.setCtx .u x).svec = k.svec := rfl
@[simp] theorem Core.setCtx_u_sstatus (k : Core) (x : Ctx) : (k.setCtx .u x).sstatus = k.sstatus := rfl
@[simp] theorem Core.setCtx_u_sscratch (k : Core) (x : Ctx) : (k.setCtx .u x).sscratch = k.sscratch := rfl
@[simp] theorem Core.setCtx_u_sqimg (k : Core) (x : Ctx) : (k.setCtx .u x).sqimg = k.sqimg := rfl
@[simp] theorem Core.setCtx_u_protb (k : Core) (x : Ctx) : (k.setCtx .u x).protb = k.protb := rfl
@[simp] theorem Core.setCtx_u_protl (k : Core) (x : Ctx) : (k.setCtx .u x).protl = k.protl := rfl
@[simp] theorem Core.setCtx_u_mboxcfg (k : Core) (x : Ctx) : (k.setCtx .u x).mboxcfg = k.mboxcfg := rfl
@[simp] theorem Core.setCtx_u_rfull (k : Core) (x : Ctx) : (k.setCtx .u x).rfull = k.rfull := rfl
@[simp] theorem Core.setCtx_u_rabs (k : Core) (x : Ctx) : (k.setCtx .u x).rabs = k.rabs := rfl
@[simp] theorem Core.setCtx_u_accepted (k : Core) (x : Ctx) : (k.setCtx .u x).accepted = k.accepted := rfl
@[simp] theorem Core.setCtx_u_fwdcfg (k : Core) (x : Ctx) : (k.setCtx .u x).fwdcfg = k.fwdcfg := rfl
@[simp] theorem Core.setCtx_u_cycle (k : Core) (x : Ctx) : (k.setCtx .u x).cycle = k.cycle := rfl
@[simp] theorem Core.setCtx_u_lskew (k : Core) (x : Ctx) : (k.setCtx .u x).lskew = k.lskew := rfl
@[simp] theorem Core.setCtx_u_opreq (k : Core) (x : Ctx) : (k.setCtx .u x).opreq = k.opreq := rfl
@[simp] theorem Core.setCtx_u_heapphase (k : Core) (x : Ctx) : (k.setCtx .u x).heapphase = k.heapphase := rfl
@[simp] theorem Core.setCtx_u_slots (k : Core) (x : Ctx) : (k.setCtx .u x).slots = k.slots := rfl
@[simp] theorem Core.setCtx_u_arrival (k : Core) (x : Ctx) : (k.setCtx .u x).arrival = k.arrival := rfl
@[simp] theorem Core.setCtx_u_prevAsid (k : Core) (x : Ctx) : (k.setCtx .u x).prevAsid = k.prevAsid := rfl
@[simp] theorem Core.setCtx_u_owner (k : Core) (x : Ctx) : (k.setCtx .u x).owner = k.owner := rfl
@[simp] theorem Core.setCtx_u_zeroing (k : Core) (x : Ctx) : (k.setCtx .u x).zeroing = k.zeroing := rfl
@[simp] theorem Core.setCtx_u_gang (k : Core) (x : Ctx) : (k.setCtx .u x).gang = k.gang := rfl
@[simp] theorem Core.setCtx_u_l1d (k : Core) (x : Ctx) : (k.setCtx .u x).l1d = k.l1d := rfl
@[simp] theorem Core.setCtx_u_l1i (k : Core) (x : Ctx) : (k.setCtx .u x).l1i = k.l1i := rfl
@[simp] theorem Core.setCtx_u_status (k : Core) (x : Ctx) : (k.setCtx .u x).status = k.status := rfl
@[simp] theorem Core.setCtx_u_retLane (k : Core) (x : Ctx) : (k.setCtx .u x).retLane = k.retLane := rfl
@[simp] theorem Core.setCtx_u_remapped (k : Core) (x : Ctx) : (k.setCtx .u x).remapped = k.remapped := rfl
@[simp] theorem Core.setCtx_u_entries (k : Core) (x : Ctx) : (k.setCtx .u x).entries = k.entries := rfl
@[simp] theorem Core.setCtx_u_mix (k : Core) (x : Ctx) : (k.setCtx .u x).mix = k.mix := rfl
@[simp] theorem Core.setCtx_u_uStreak (k : Core) (x : Ctx) : (k.setCtx .u x).uStreak = k.uStreak := rfl
@[simp] theorem Core.setCtx_u_lastPreempt (k : Core) (x : Ctx) : (k.setCtx .u x).lastPreempt = k.lastPreempt := rfl
@[simp] theorem Core.setCtx_u_residue (k : Core) (x : Ctx) : (k.setCtx .u x).residue = k.residue := rfl
@[simp] theorem Core.setCtx_u_changes (k : Core) (x : Ctx) : (k.setCtx .u x).changes = k.changes := rfl
@[simp] theorem Core.setCtx_u_aPersists (k : Core) (x : Ctx) : (k.setCtx .u x).aPersists = k.aPersists := rfl
@[simp] theorem Core.setCtx_u_self (k : Core) (x : Ctx) : (k.setCtx .u x).u = x := rfl

@[simp] theorem Core.setCtx_a_u (k : Core) (x : Ctx) : (k.setCtx .a x).u = k.u := rfl
@[simp] theorem Core.setCtx_a_uWork (k : Core) (x : Ctx) : (k.setCtx .a x).uWork = k.uWork := rfl
@[simp] theorem Core.setCtx_a_aWork (k : Core) (x : Ctx) : (k.setCtx .a x).aWork = k.aWork := rfl
@[simp] theorem Core.setCtx_a_v (k : Core) (x : Ctx) : (k.setCtx .a x).v = k.v := rfl
@[simp] theorem Core.setCtx_a_m (k : Core) (x : Ctx) : (k.setCtx .a x).m = k.m := rfl
@[simp] theorem Core.setCtx_a_ac (k : Core) (x : Ctx) : (k.setCtx .a x).ac = k.ac := rfl
@[simp] theorem Core.setCtx_a_acLive (k : Core) (x : Ctx) : (k.setCtx .a x).acLive = k.acLive := rfl
@[simp] theorem Core.setCtx_a_regPoison (k : Core) (x : Ctx) : (k.setCtx .a x).regPoison = k.regPoison := rfl
@[simp] theorem Core.setCtx_a_queue (k : Core) (x : Ctx) : (k.setCtx .a x).queue = k.queue := rfl
@[simp] theorem Core.setCtx_a_vfault (k : Core) (x : Ctx) : (k.setCtx .a x).vfault = k.vfault := rfl
@[simp] theorem Core.setCtx_a_mq (k : Core) (x : Ctx) : (k.setCtx .a x).mq = k.mq := rfl
@[simp] theorem Core.setCtx_a_long (k : Core) (x : Ctx) : (k.setCtx .a x).long = k.long := rfl
@[simp] theorem Core.setCtx_a_lastJoined (k : Core) (x : Ctx) : (k.setCtx .a x).lastJoined = k.lastJoined := rfl
@[simp] theorem Core.setCtx_a_scause (k : Core) (x : Ctx) : (k.setCtx .a x).scause = k.scause := rfl
@[simp] theorem Core.setCtx_a_sepc (k : Core) (x : Ctx) : (k.setCtx .a x).sepc = k.sepc := rfl
@[simp] theorem Core.setCtx_a_saddr (k : Core) (x : Ctx) : (k.setCtx .a x).saddr = k.saddr := rfl
@[simp] theorem Core.setCtx_a_sinfo (k : Core) (x : Ctx) : (k.setCtx .a x).sinfo = k.sinfo := rfl
@[simp] theorem Core.setCtx_a_svec (k : Core) (x : Ctx) : (k.setCtx .a x).svec = k.svec := rfl
@[simp] theorem Core.setCtx_a_sstatus (k : Core) (x : Ctx) : (k.setCtx .a x).sstatus = k.sstatus := rfl
@[simp] theorem Core.setCtx_a_sscratch (k : Core) (x : Ctx) : (k.setCtx .a x).sscratch = k.sscratch := rfl
@[simp] theorem Core.setCtx_a_sqimg (k : Core) (x : Ctx) : (k.setCtx .a x).sqimg = k.sqimg := rfl
@[simp] theorem Core.setCtx_a_protb (k : Core) (x : Ctx) : (k.setCtx .a x).protb = k.protb := rfl
@[simp] theorem Core.setCtx_a_protl (k : Core) (x : Ctx) : (k.setCtx .a x).protl = k.protl := rfl
@[simp] theorem Core.setCtx_a_mboxcfg (k : Core) (x : Ctx) : (k.setCtx .a x).mboxcfg = k.mboxcfg := rfl
@[simp] theorem Core.setCtx_a_rfull (k : Core) (x : Ctx) : (k.setCtx .a x).rfull = k.rfull := rfl
@[simp] theorem Core.setCtx_a_rabs (k : Core) (x : Ctx) : (k.setCtx .a x).rabs = k.rabs := rfl
@[simp] theorem Core.setCtx_a_accepted (k : Core) (x : Ctx) : (k.setCtx .a x).accepted = k.accepted := rfl
@[simp] theorem Core.setCtx_a_fwdcfg (k : Core) (x : Ctx) : (k.setCtx .a x).fwdcfg = k.fwdcfg := rfl
@[simp] theorem Core.setCtx_a_cycle (k : Core) (x : Ctx) : (k.setCtx .a x).cycle = k.cycle := rfl
@[simp] theorem Core.setCtx_a_lskew (k : Core) (x : Ctx) : (k.setCtx .a x).lskew = k.lskew := rfl
@[simp] theorem Core.setCtx_a_opreq (k : Core) (x : Ctx) : (k.setCtx .a x).opreq = k.opreq := rfl
@[simp] theorem Core.setCtx_a_heapphase (k : Core) (x : Ctx) : (k.setCtx .a x).heapphase = k.heapphase := rfl
@[simp] theorem Core.setCtx_a_slots (k : Core) (x : Ctx) : (k.setCtx .a x).slots = k.slots := rfl
@[simp] theorem Core.setCtx_a_arrival (k : Core) (x : Ctx) : (k.setCtx .a x).arrival = k.arrival := rfl
@[simp] theorem Core.setCtx_a_prevAsid (k : Core) (x : Ctx) : (k.setCtx .a x).prevAsid = k.prevAsid := rfl
@[simp] theorem Core.setCtx_a_owner (k : Core) (x : Ctx) : (k.setCtx .a x).owner = k.owner := rfl
@[simp] theorem Core.setCtx_a_zeroing (k : Core) (x : Ctx) : (k.setCtx .a x).zeroing = k.zeroing := rfl
@[simp] theorem Core.setCtx_a_gang (k : Core) (x : Ctx) : (k.setCtx .a x).gang = k.gang := rfl
@[simp] theorem Core.setCtx_a_l1d (k : Core) (x : Ctx) : (k.setCtx .a x).l1d = k.l1d := rfl
@[simp] theorem Core.setCtx_a_l1i (k : Core) (x : Ctx) : (k.setCtx .a x).l1i = k.l1i := rfl
@[simp] theorem Core.setCtx_a_status (k : Core) (x : Ctx) : (k.setCtx .a x).status = k.status := rfl
@[simp] theorem Core.setCtx_a_retLane (k : Core) (x : Ctx) : (k.setCtx .a x).retLane = k.retLane := rfl
@[simp] theorem Core.setCtx_a_remapped (k : Core) (x : Ctx) : (k.setCtx .a x).remapped = k.remapped := rfl
@[simp] theorem Core.setCtx_a_entries (k : Core) (x : Ctx) : (k.setCtx .a x).entries = k.entries := rfl
@[simp] theorem Core.setCtx_a_mix (k : Core) (x : Ctx) : (k.setCtx .a x).mix = k.mix := rfl
@[simp] theorem Core.setCtx_a_uStreak (k : Core) (x : Ctx) : (k.setCtx .a x).uStreak = k.uStreak := rfl
@[simp] theorem Core.setCtx_a_lastPreempt (k : Core) (x : Ctx) : (k.setCtx .a x).lastPreempt = k.lastPreempt := rfl
@[simp] theorem Core.setCtx_a_residue (k : Core) (x : Ctx) : (k.setCtx .a x).residue = k.residue := rfl
@[simp] theorem Core.setCtx_a_changes (k : Core) (x : Ctx) : (k.setCtx .a x).changes = k.changes := rfl
@[simp] theorem Core.setCtx_a_aPersists (k : Core) (x : Ctx) : (k.setCtx .a x).aPersists = k.aPersists := rfl
@[simp] theorem Core.setCtx_a_self (k : Core) (x : Ctx) : (k.setCtx .a x).a = x := rfl

/-! ### Ctx -/

@[simp] theorem Ctx.setX_pc (k : Ctx) (r : BitVec 5) (v : Word) : (k.setX r v).pc = k.pc := by
  unfold Ctx.setX; split <;> rfl
@[simp] theorem Ctx.setX_q (k : Ctx) (r : BitVec 5) (v : Word) : (k.setX r v).q = k.q := by
  unfold Ctx.setX; split <;> rfl
@[simp] theorem Ctx.setX_fflags (k : Ctx) (r : BitVec 5) (v : Word) : (k.setX r v).fflags = k.fflags := by
  unfold Ctx.setX; split <;> rfl
@[simp] theorem Ctx.setX_frm (k : Ctx) (r : BitVec 5) (v : Word) : (k.setX r v).frm = k.frm := by
  unfold Ctx.setX; split <;> rfl
@[simp] theorem Ctx.setX_inldepth (k : Ctx) (r : BitVec 5) (v : Word) : (k.setX r v).inldepth = k.inldepth := by
  unfold Ctx.setX; split <;> rfl
@[simp] theorem Ctx.setX_vtype (k : Ctx) (r : BitVec 5) (v : Word) : (k.setX r v).vtype = k.vtype := by
  unfold Ctx.setX; split <;> rfl
@[simp] theorem Ctx.setX_mstart (k : Ctx) (r : BitVec 5) (v : Word) : (k.setX r v).mstart = k.mstart := by
  unfold Ctx.setX; split <;> rfl
@[simp] theorem Ctx.setX_slipcfg (k : Ctx) (r : BitVec 5) (v : Word) : (k.setX r v).slipcfg = k.slipcfg := by
  unfold Ctx.setX; split <;> rfl
@[simp] theorem Ctx.setX_mcgroup (k : Ctx) (r : BitVec 5) (v : Word) : (k.setX r v).mcgroup = k.mcgroup := by
  unfold Ctx.setX; split <;> rfl
@[simp] theorem Ctx.setX_strandId (k : Ctx) (r : BitVec 5) (v : Word) : (k.setX r v).strandId = k.strandId := by
  unfold Ctx.setX; split <;> rfl
@[simp] theorem Ctx.setX_asid (k : Ctx) (r : BitVec 5) (v : Word) : (k.setX r v).asid = k.asid := by
  unfold Ctx.setX; split <;> rfl
@[simp] theorem Ctx.setX_priv (k : Ctx) (r : BitVec 5) (v : Word) : (k.setX r v).priv = k.priv := by
  unfold Ctx.setX; split <;> rfl
@[simp] theorem Ctx.setX_scause (k : Ctx) (r : BitVec 5) (v : Word) : (k.setX r v).scause = k.scause := by
  unfold Ctx.setX; split <;> rfl
@[simp] theorem Ctx.setX_saddr (k : Ctx) (r : BitVec 5) (v : Word) : (k.setX r v).saddr = k.saddr := by
  unfold Ctx.setX; split <;> rfl
@[simp] theorem Ctx.setX_sinfo (k : Ctx) (r : BitVec 5) (v : Word) : (k.setX r v).sinfo = k.sinfo := by
  unfold Ctx.setX; split <;> rfl
@[simp] theorem Ctx.setX_pend (k : Ctx) (r : BitVec 5) (v : Word) : (k.setX r v).pend = k.pend := by
  unfold Ctx.setX; split <;> rfl
@[simp] theorem Ctx.setX_tokErr (k : Ctx) (r : BitVec 5) (v : Word) : (k.setX r v).tokErr = k.tokErr := by
  unfold Ctx.setX; split <;> rfl
@[simp] theorem Ctx.setX_line (k : Ctx) (r : BitVec 5) (v : Word) : (k.setX r v).line = k.line := by
  unfold Ctx.setX; split <;> rfl
@[simp] theorem Ctx.setX_waiting (k : Ctx) (r : BitVec 5) (v : Word) : (k.setX r v).waiting = k.waiting := by
  unfold Ctx.setX; split <;> rfl
@[simp] theorem Ctx.advance_x (k : Ctx) : k.advance.x = k.x := rfl
@[simp] theorem Ctx.jump_x (k : Ctx) (t : Word) : (k.jump t).x = k.x := rfl
@[simp] theorem Ctx.advance_q (k : Ctx) : k.advance.q = k.q := rfl
@[simp] theorem Ctx.jump_q (k : Ctx) (t : Word) : (k.jump t).q = k.q := rfl
@[simp] theorem Ctx.advance_fflags (k : Ctx) : k.advance.fflags = k.fflags := rfl
@[simp] theorem Ctx.jump_fflags (k : Ctx) (t : Word) : (k.jump t).fflags = k.fflags := rfl
@[simp] theorem Ctx.advance_frm (k : Ctx) : k.advance.frm = k.frm := rfl
@[simp] theorem Ctx.jump_frm (k : Ctx) (t : Word) : (k.jump t).frm = k.frm := rfl
@[simp] theorem Ctx.advance_inldepth (k : Ctx) : k.advance.inldepth = k.inldepth := rfl
@[simp] theorem Ctx.jump_inldepth (k : Ctx) (t : Word) : (k.jump t).inldepth = k.inldepth := rfl
@[simp] theorem Ctx.advance_vtype (k : Ctx) : k.advance.vtype = k.vtype := rfl
@[simp] theorem Ctx.jump_vtype (k : Ctx) (t : Word) : (k.jump t).vtype = k.vtype := rfl
@[simp] theorem Ctx.advance_mstart (k : Ctx) : k.advance.mstart = k.mstart := rfl
@[simp] theorem Ctx.jump_mstart (k : Ctx) (t : Word) : (k.jump t).mstart = k.mstart := rfl
@[simp] theorem Ctx.advance_slipcfg (k : Ctx) : k.advance.slipcfg = k.slipcfg := rfl
@[simp] theorem Ctx.jump_slipcfg (k : Ctx) (t : Word) : (k.jump t).slipcfg = k.slipcfg := rfl
@[simp] theorem Ctx.advance_mcgroup (k : Ctx) : k.advance.mcgroup = k.mcgroup := rfl
@[simp] theorem Ctx.jump_mcgroup (k : Ctx) (t : Word) : (k.jump t).mcgroup = k.mcgroup := rfl
@[simp] theorem Ctx.advance_strandId (k : Ctx) : k.advance.strandId = k.strandId := rfl
@[simp] theorem Ctx.jump_strandId (k : Ctx) (t : Word) : (k.jump t).strandId = k.strandId := rfl
@[simp] theorem Ctx.advance_asid (k : Ctx) : k.advance.asid = k.asid := rfl
@[simp] theorem Ctx.jump_asid (k : Ctx) (t : Word) : (k.jump t).asid = k.asid := rfl
@[simp] theorem Ctx.advance_priv (k : Ctx) : k.advance.priv = k.priv := rfl
@[simp] theorem Ctx.jump_priv (k : Ctx) (t : Word) : (k.jump t).priv = k.priv := rfl
@[simp] theorem Ctx.advance_scause (k : Ctx) : k.advance.scause = k.scause := rfl
@[simp] theorem Ctx.jump_scause (k : Ctx) (t : Word) : (k.jump t).scause = k.scause := rfl
@[simp] theorem Ctx.advance_saddr (k : Ctx) : k.advance.saddr = k.saddr := rfl
@[simp] theorem Ctx.jump_saddr (k : Ctx) (t : Word) : (k.jump t).saddr = k.saddr := rfl
@[simp] theorem Ctx.advance_sinfo (k : Ctx) : k.advance.sinfo = k.sinfo := rfl
@[simp] theorem Ctx.jump_sinfo (k : Ctx) (t : Word) : (k.jump t).sinfo = k.sinfo := rfl
@[simp] theorem Ctx.advance_pend (k : Ctx) : k.advance.pend = k.pend := rfl
@[simp] theorem Ctx.jump_pend (k : Ctx) (t : Word) : (k.jump t).pend = k.pend := rfl
@[simp] theorem Ctx.advance_tokErr (k : Ctx) : k.advance.tokErr = k.tokErr := rfl
@[simp] theorem Ctx.jump_tokErr (k : Ctx) (t : Word) : (k.jump t).tokErr = k.tokErr := rfl
@[simp] theorem Ctx.advance_pc (k : Ctx) : k.advance.pc = k.nextPc := rfl
@[simp] theorem Ctx.jump_pc (k : Ctx) (t : Word) : (k.jump t).pc = t := rfl

@[simp] theorem State.modHome_cfg (s : State) (i : Nat) (f : Home → Home) : (s.modHome i f).cfg = s.cfg := rfl
@[simp] theorem State.modHome_agenda (s : State) (i : Nat) (f : Home → Home) : (s.modHome i f).agenda = s.agenda := rfl
@[simp] theorem State.modHome_cur (s : State) (i : Nat) (f : Home → Home) : (s.modHome i f).cur = s.cur := rfl
@[simp] theorem State.modHome_curCtx (s : State) (i : Nat) (f : Home → Home) : (s.modHome i f).curCtx = s.curCtx := rfl
@[simp] theorem State.modHome_free (s : State) (i : Nat) (f : Home → Home) : (s.modHome i f).free = s.free := rfl
@[simp] theorem State.modHome_time (s : State) (i : Nat) (f : Home → Home) : (s.modHome i f).time = s.time := rfl
@[simp] theorem State.modHome_mem (s : State) (i : Nat) (f : Home → Home) : (s.modHome i f).mem = s.mem := rfl
@[simp] theorem State.modHome_siteTags (s : State) (i : Nat) (f : Home → Home) : (s.modHome i f).siteTags = s.siteTags := rfl
@[simp] theorem State.modHome_tiles (s : State) (i : Nat) (f : Home → Home) : (s.modHome i f).tiles = s.tiles := rfl
@[simp] theorem State.modHome_clusters (s : State) (i : Nat) (f : Home → Home) : (s.modHome i f).clusters = s.clusters := rfl
@[simp] theorem State.modHome_windows (s : State) (i : Nat) (f : Home → Home) : (s.modHome i f).windows = s.windows := rfl
@[simp] theorem State.modHome_ops (s : State) (i : Nat) (f : Home → Home) : (s.modHome i f).ops = s.ops := rfl
@[simp] theorem State.modHome_kept (s : State) (i : Nat) (f : Home → Home) : (s.modHome i f).kept = s.kept := rfl
@[simp] theorem State.modHome_groups (s : State) (i : Nat) (f : Home → Home) : (s.modHome i f).groups = s.groups := rfl
@[simp] theorem State.modHome_peers (s : State) (i : Nat) (f : Home → Home) : (s.modHome i f).peers = s.peers := rfl
@[simp] theorem State.modHome_collCalls (s : State) (i : Nat) (f : Home → Home) : (s.modHome i f).collCalls = s.collCalls := rfl
@[simp] theorem State.modHome_sysReqs (s : State) (i : Nat) (f : Home → Home) : (s.modHome i f).sysReqs = s.sysReqs := rfl
@[simp] theorem State.modHome_flights (s : State) (i : Nat) (f : Home → Home) : (s.modHome i f).flights = s.flights := rfl
@[simp] theorem State.modHome_seqNos (s : State) (i : Nat) (f : Home → Home) : (s.modHome i f).seqNos = s.seqNos := rfl
@[simp] theorem State.modHome_moves (s : State) (i : Nat) (f : Home → Home) : (s.modHome i f).moves = s.moves := rfl
@[simp] theorem State.modHome_nextId (s : State) (i : Nat) (f : Home → Home) : (s.modHome i f).nextId = s.nextId := rfl
@[simp] theorem State.modHome_strands (s : State) (i : Nat) (f : Home → Home) : (s.modHome i f).strands = s.strands := rfl
@[simp] theorem State.modHome_crews (s : State) (i : Nat) (f : Home → Home) : (s.modHome i f).crews = s.crews := rfl
@[simp] theorem State.modHome_spaces (s : State) (i : Nat) (f : Home → Home) : (s.modHome i f).spaces = s.spaces := rfl
@[simp] theorem State.modHome_jobs (s : State) (i : Nat) (f : Home → Home) : (s.modHome i f).jobs = s.jobs := rfl
@[simp] theorem State.modHome_runs (s : State) (i : Nat) (f : Home → Home) : (s.modHome i f).runs = s.runs := rfl
@[simp] theorem State.modHome_cycles (s : State) (i : Nat) (f : Home → Home) : (s.modHome i f).cycles = s.cycles := rfl
@[simp] theorem State.modHome_heapCmds (s : State) (i : Nat) (f : Home → Home) : (s.modHome i f).heapCmds = s.heapCmds := rfl
@[simp] theorem State.modHome_ports (s : State) (i : Nat) (f : Home → Home) : (s.modHome i f).ports = s.ports := rfl
@[simp] theorem State.modHome_ats (s : State) (i : Nat) (f : Home → Home) : (s.modHome i f).ats = s.ats := rfl
@[simp] theorem State.modHome_hostReqs (s : State) (i : Nat) (f : Home → Home) : (s.modHome i f).hostReqs = s.hostReqs := rfl
@[simp] theorem State.modHome_invals (s : State) (i : Nat) (f : Home → Home) : (s.modHome i f).invals = s.invals := rfl
@[simp] theorem State.modHome_poolDead (s : State) (i : Nat) (f : Home → Home) : (s.modHome i f).poolDead = s.poolDead := rfl
@[simp] theorem State.modHome_flash (s : State) (i : Nat) (f : Home → Home) : (s.modHome i f).flash = s.flash := rfl
@[simp] theorem State.modHome_mgmt (s : State) (i : Nat) (f : Home → Home) : (s.modHome i f).mgmt = s.mgmt := rfl
@[simp] theorem State.modHome_pcErrors (s : State) (i : Nat) (f : Home → Home) : (s.modHome i f).pcErrors = s.pcErrors := rfl
@[simp] theorem State.modHome_l2 (s : State) (i : Nat) (f : Home → Home) : (s.modHome i f).l2 = s.l2 := rfl
@[simp] theorem State.modHome_active (s : State) (i : Nat) (f : Home → Home) : (s.modHome i f).active = s.active := rfl
@[simp] theorem State.modHome_devFails (s : State) (i : Nat) (f : Home → Home) : (s.modHome i f).devFails = s.devFails := rfl
@[simp] theorem State.modHome_hostRead (s : State) (i : Nat) (f : Home → Home) : (s.modHome i f).hostRead = s.hostRead := rfl
@[simp] theorem State.modHome_blocked (s : State) (i : Nat) (f : Home → Home) : (s.modHome i f).blocked = s.blocked := rfl
@[simp] theorem State.modHome_cores (s : State) (i : Nat) (f : Home → Home) : (s.modHome i f).cores = s.cores := rfl

@[simp] theorem State.modL2_cfg (s : State) (i : Nat) (f : L2Slice → L2Slice) : (s.modL2 i f).cfg = s.cfg := rfl
@[simp] theorem State.modL2_agenda (s : State) (i : Nat) (f : L2Slice → L2Slice) : (s.modL2 i f).agenda = s.agenda := rfl
@[simp] theorem State.modL2_cur (s : State) (i : Nat) (f : L2Slice → L2Slice) : (s.modL2 i f).cur = s.cur := rfl
@[simp] theorem State.modL2_curCtx (s : State) (i : Nat) (f : L2Slice → L2Slice) : (s.modL2 i f).curCtx = s.curCtx := rfl
@[simp] theorem State.modL2_free (s : State) (i : Nat) (f : L2Slice → L2Slice) : (s.modL2 i f).free = s.free := rfl
@[simp] theorem State.modL2_time (s : State) (i : Nat) (f : L2Slice → L2Slice) : (s.modL2 i f).time = s.time := rfl
@[simp] theorem State.modL2_mem (s : State) (i : Nat) (f : L2Slice → L2Slice) : (s.modL2 i f).mem = s.mem := rfl
@[simp] theorem State.modL2_siteTags (s : State) (i : Nat) (f : L2Slice → L2Slice) : (s.modL2 i f).siteTags = s.siteTags := rfl
@[simp] theorem State.modL2_sites (s : State) (i : Nat) (f : L2Slice → L2Slice) : (s.modL2 i f).sites = s.sites := rfl
@[simp] theorem State.modL2_tiles (s : State) (i : Nat) (f : L2Slice → L2Slice) : (s.modL2 i f).tiles = s.tiles := rfl
@[simp] theorem State.modL2_clusters (s : State) (i : Nat) (f : L2Slice → L2Slice) : (s.modL2 i f).clusters = s.clusters := rfl
@[simp] theorem State.modL2_windows (s : State) (i : Nat) (f : L2Slice → L2Slice) : (s.modL2 i f).windows = s.windows := rfl
@[simp] theorem State.modL2_ops (s : State) (i : Nat) (f : L2Slice → L2Slice) : (s.modL2 i f).ops = s.ops := rfl
@[simp] theorem State.modL2_kept (s : State) (i : Nat) (f : L2Slice → L2Slice) : (s.modL2 i f).kept = s.kept := rfl
@[simp] theorem State.modL2_groups (s : State) (i : Nat) (f : L2Slice → L2Slice) : (s.modL2 i f).groups = s.groups := rfl
@[simp] theorem State.modL2_peers (s : State) (i : Nat) (f : L2Slice → L2Slice) : (s.modL2 i f).peers = s.peers := rfl
@[simp] theorem State.modL2_collCalls (s : State) (i : Nat) (f : L2Slice → L2Slice) : (s.modL2 i f).collCalls = s.collCalls := rfl
@[simp] theorem State.modL2_sysReqs (s : State) (i : Nat) (f : L2Slice → L2Slice) : (s.modL2 i f).sysReqs = s.sysReqs := rfl
@[simp] theorem State.modL2_flights (s : State) (i : Nat) (f : L2Slice → L2Slice) : (s.modL2 i f).flights = s.flights := rfl
@[simp] theorem State.modL2_seqNos (s : State) (i : Nat) (f : L2Slice → L2Slice) : (s.modL2 i f).seqNos = s.seqNos := rfl
@[simp] theorem State.modL2_moves (s : State) (i : Nat) (f : L2Slice → L2Slice) : (s.modL2 i f).moves = s.moves := rfl
@[simp] theorem State.modL2_nextId (s : State) (i : Nat) (f : L2Slice → L2Slice) : (s.modL2 i f).nextId = s.nextId := rfl
@[simp] theorem State.modL2_strands (s : State) (i : Nat) (f : L2Slice → L2Slice) : (s.modL2 i f).strands = s.strands := rfl
@[simp] theorem State.modL2_crews (s : State) (i : Nat) (f : L2Slice → L2Slice) : (s.modL2 i f).crews = s.crews := rfl
@[simp] theorem State.modL2_spaces (s : State) (i : Nat) (f : L2Slice → L2Slice) : (s.modL2 i f).spaces = s.spaces := rfl
@[simp] theorem State.modL2_jobs (s : State) (i : Nat) (f : L2Slice → L2Slice) : (s.modL2 i f).jobs = s.jobs := rfl
@[simp] theorem State.modL2_runs (s : State) (i : Nat) (f : L2Slice → L2Slice) : (s.modL2 i f).runs = s.runs := rfl
@[simp] theorem State.modL2_cycles (s : State) (i : Nat) (f : L2Slice → L2Slice) : (s.modL2 i f).cycles = s.cycles := rfl
@[simp] theorem State.modL2_heapCmds (s : State) (i : Nat) (f : L2Slice → L2Slice) : (s.modL2 i f).heapCmds = s.heapCmds := rfl
@[simp] theorem State.modL2_ports (s : State) (i : Nat) (f : L2Slice → L2Slice) : (s.modL2 i f).ports = s.ports := rfl
@[simp] theorem State.modL2_ats (s : State) (i : Nat) (f : L2Slice → L2Slice) : (s.modL2 i f).ats = s.ats := rfl
@[simp] theorem State.modL2_hostReqs (s : State) (i : Nat) (f : L2Slice → L2Slice) : (s.modL2 i f).hostReqs = s.hostReqs := rfl
@[simp] theorem State.modL2_invals (s : State) (i : Nat) (f : L2Slice → L2Slice) : (s.modL2 i f).invals = s.invals := rfl
@[simp] theorem State.modL2_poolDead (s : State) (i : Nat) (f : L2Slice → L2Slice) : (s.modL2 i f).poolDead = s.poolDead := rfl
@[simp] theorem State.modL2_flash (s : State) (i : Nat) (f : L2Slice → L2Slice) : (s.modL2 i f).flash = s.flash := rfl
@[simp] theorem State.modL2_mgmt (s : State) (i : Nat) (f : L2Slice → L2Slice) : (s.modL2 i f).mgmt = s.mgmt := rfl
@[simp] theorem State.modL2_pcErrors (s : State) (i : Nat) (f : L2Slice → L2Slice) : (s.modL2 i f).pcErrors = s.pcErrors := rfl
@[simp] theorem State.modL2_active (s : State) (i : Nat) (f : L2Slice → L2Slice) : (s.modL2 i f).active = s.active := rfl
@[simp] theorem State.modL2_devFails (s : State) (i : Nat) (f : L2Slice → L2Slice) : (s.modL2 i f).devFails = s.devFails := rfl
@[simp] theorem State.modL2_hostRead (s : State) (i : Nat) (f : L2Slice → L2Slice) : (s.modL2 i f).hostRead = s.hostRead := rfl
@[simp] theorem State.modL2_blocked (s : State) (i : Nat) (f : L2Slice → L2Slice) : (s.modL2 i f).blocked = s.blocked := rfl
@[simp] theorem State.modL2_cores (s : State) (i : Nat) (f : L2Slice → L2Slice) : (s.modL2 i f).cores = s.cores := rfl

/-! ### The accessors -/

@[simp] theorem Core.ctx_setCtx_self (k : Core) (n : CtxName) (x : Ctx) : (k.setCtx n x).ctx n = x := by cases n <;> rfl

@[simp] theorem Core.setCtx_setCtx (k : Core) (n : CtxName) (x y : Ctx) : (k.setCtx n x).setCtx n y = k.setCtx n y := by
  cases n <;> rfl

@[simp] theorem Core.setCtx_ctx (k : Core) (n : CtxName) : k.setCtx n (k.ctx n) = k := by cases n <;> rfl

@[simp] theorem State.core_setCore_self (s : State) (c : Nat) (k : Core) : (s.setCore c k).core c = k := by
  simp [State.core, State.setCore, kvGet_set_self]

theorem State.core_setCore_ne (s : State) {c d : Nat} (h : d ≠ c) (k : Core) : (s.setCore c k).core d = s.core d := by
  simp [State.core, State.setCore, kvGet_set_ne h]

@[simp] theorem State.core_modCore_self (s : State) (c : Nat) (f : Core → Core) : (s.modCore c f).core c = f (s.core c) := by
  simp [State.modCore]

theorem State.core_modCore_ne (s : State) {c d : Nat} (h : d ≠ c) (f : Core → Core) : (s.modCore c f).core d = s.core d := by
  simp [State.modCore, State.core_setCore_ne s h]

theorem kvSet_kvSet {α : Type} (k : Nat) (v w : α) (l : List (Nat × α)) : kvSet k v (kvSet k w l) = kvSet k v l := by
  induction l with
  | nil => simp [kvSet]
  | cons p t ih =>
    obtain ⟨j, u⟩ := p
    simp only [kvSet]
    split
    · simp [kvSet]
    · split
      · simp [kvSet]
      · rename_i h1 h2; simp [kvSet, h1, h2, ih]

@[simp] theorem State.setCore_setCore (s : State) (c : Nat) (k l : Core) : (s.setCore c k).setCore c l = s.setCore c l := by
  simp [State.setCore, kvSet_kvSet]

@[simp] theorem State.me_setCx (s : State) (x : Ctx) : (s.setCx x).me = s.me.setCtx s.curCtx x := by
  simp [State.me, State.setCx]

@[simp] theorem State.cx_setCx (s : State) (x : Ctx) : (s.setCx x).cx = x := by simp [State.cx]

@[simp] theorem State.me_modCx (s : State) (f : Ctx → Ctx) : (s.modCx f).me = s.me.setCtx s.curCtx (f s.cx) := by
  simp [State.modCx]

@[simp] theorem State.cx_modCx (s : State) (f : Ctx → Ctx) : (s.modCx f).cx = f s.cx := by simp [State.modCx]

theorem State.modCx_modCx (s : State) (f g : Ctx → Ctx) : (s.modCx f).modCx g = s.modCx (fun k => g (f k)) := by
  simp [State.modCx, State.setCx, State.modCore, State.cx, State.me]

theorem State.setCore_cores (s : State) (c : Nat) (k : Core) : { s.setCore c k with cores := s.cores } = s := rfl

@[simp] theorem State.site_modSite_self (s : State) (i : Nat) (f : Site → Site) : (s.modSite i f).site i = f (s.site i) := by
  simp [State.site, State.modSite]

theorem State.site_modSite_ne (s : State) {i j : Nat} (h : j % 4 ≠ i % 4) (f : Site → Site) : (s.modSite i f).site j = s.site j := by
  simp [State.site, State.modSite, h.symm]

@[simp] theorem State.tile_modTile_self (s : State) (i : Nat) (f : Tile → Tile) : (s.modTile i f).tile i = f (s.tile i) := by
  simp [State.tile, State.modTile, kvGet_set_self]

theorem State.tile_modTile_ne (s : State) {i j : Nat} (h : j ≠ i) (f : Tile → Tile) : (s.modTile i f).tile j = s.tile j := by
  simp [State.tile, State.modTile, kvGet_set_ne h]

@[simp] theorem State.cluster_modCluster_self (s : State) (i : Nat) (f : Cluster → Cluster) :
    (s.modCluster i f).cluster i = f (s.cluster i) := by
  simp [State.cluster, State.modCluster, kvGet_set_self]

theorem State.cluster_modCluster_ne (s : State) {i j : Nat} (h : j ≠ i) (f : Cluster → Cluster) :
    (s.modCluster i f).cluster j = s.cluster j := by
  simp [State.cluster, State.modCluster, kvGet_set_ne h]

@[simp] theorem State.l2Slice_modL2_self (s : State) (i : Nat) (f : L2Slice → L2Slice) :
    (s.modL2 i f).l2Slice i = f (s.l2Slice i) := by
  simp [State.l2Slice, State.modL2, kvGet_set_self]

theorem State.l2Slice_modL2_ne (s : State) {i j : Nat} (h : j ≠ i) (f : L2Slice → L2Slice) :
    (s.modL2 i f).l2Slice j = s.l2Slice j := by
  simp [State.l2Slice, State.modL2, kvGet_set_ne h]

@[simp] theorem State.home_modHome_self (s : State) (i : Nat) (f : Home → Home) : ((s.modHome i f).site i).home = f (s.site i).home := by
  simp [State.modHome]

/-! ### Registers (R11) -/

theorem Ctx.getX_zero (k : Ctx) : k.getX 0 = 0 := rfl

theorem Ctx.getX_setX_self (k : Ctx) (r : BitVec 5) (v : Word) : (k.setX r v).getX r = if r = 0 then 0 else v := by
  by_cases h : r = 0
  · simp only [Ctx.getX, if_pos h]
  · simp only [Ctx.getX, Ctx.setX, if_neg h, Vector.getElem_set_self]

theorem Ctx.getX_setX_ne (k : Ctx) {r q : BitVec 5} (h : r ≠ q) (v : Word) : (k.setX q v).getX r = k.getX r := by
  by_cases hq : q = 0
  · simp only [Ctx.setX, if_pos hq]
  · by_cases hr : r = 0
    · simp only [Ctx.getX, if_pos hr]
    · have hn : q.toNat ≠ r.toNat := fun e => h (BitVec.eq_of_toNat_eq e.symm)
      simp only [Ctx.getX, Ctx.setX, if_neg hr, if_neg hq, Vector.getElem_set, if_neg hn]

@[simp] theorem Ctx.getX_advance (k : Ctx) (r : BitVec 5) : k.advance.getX r = k.getX r := rfl

@[simp] theorem Ctx.getX_jump (k : Ctx) (t : Word) (r : BitVec 5) : (k.jump t).getX r = k.getX r := rfl

@[simp] theorem Ctx.nextPc_setX (k : Ctx) (r : BitVec 5) (v : Word) : (k.setX r v).nextPc = k.nextPc := by
  unfold Ctx.setX; split <;> rfl

end Sys2Proof.Machine
end

