-- ==== Sys2Proof/Laws/Cache.lean ====
section
/-! SUPPORT. What the operations of the caches can do (R239 to R243): they change L1 copies, L2 lines and directory entries, and nothing else of
the machine. -/

namespace Sys2Proof.Machine

/-- Only caches of lines differ: the L2 slices with their directories, and the L1 copies in the cores. -/
def OnlyCaches (s t : State) : Prop :=
  { t with cores := s.cores, l2 := s.l2 } = s ∧ ∀ c, { t.core c with l1d := (s.core c).l1d, l1i := (s.core c).l1i } = s.core c

theorem OnlyCaches.refl (s : State) : OnlyCaches s s := ⟨rfl, fun _ => rfl⟩

theorem OnlyCaches.trans {s t u : State} (h : OnlyCaches s t) (g : OnlyCaches t u) : OnlyCaches s u := by
  refine ⟨?_, fun c => ?_⟩
  · rw [← h.1, ← g.1]
  · rw [← h.2 c, ← g.2 c]

theorem OnlyCaches.mem {s t : State} (h : OnlyCaches s t) : t.mem = s.mem := (congrArg State.mem h.1 :)

/-- L2 slices and directories are caches. -/
theorem onlyCaches_l2 (s : State) (l : List (Nat × L2Slice)) : OnlyCaches s { s with l2 := l } := ⟨rfl, fun _ => rfl⟩

theorem State.modL2_onlyCaches (s : State) (i : Nat) (f : L2Slice → L2Slice) : OnlyCaches s (s.modL2 i f) := onlyCaches_l2 s _

theorem State.modSector_onlyCaches (s : State) (c : Nat) (f : DirSector → DirSector) : OnlyCaches s (s.modSector c f) :=
  onlyCaches_l2 s _

theorem kvGet_mapKeyed {α : Type} (f : Nat → α → α) (k : Nat) (l : List (Nat × α)) :
    kvGet k (l.map (fun p => (p.1, f p.1 p.2))) = (kvGet k l).map (f k) := by
  induction l with
  | nil => rfl
  | cons p t ih =>
    simp only [List.map_cons, kvGet]
    split
    · rename_i h; simp [h]
    · exact ih

/-- An update of the L1 copies of every core. -/
theorem onlyCaches_cores (s : State) (f : Nat → Core → Core) (hf : ∀ c k, { f c k with l1d := k.l1d, l1i := k.l1i } = k) :
    OnlyCaches s { s with cores := s.cores.map (fun p => (p.1, f p.1 p.2)) } := by
  refine ⟨rfl, fun c => ?_⟩
  simp only [State.core, kvGet_mapKeyed]
  cases kvGet c s.cores with
  | none => rfl
  | some k => exact hf c k

theorem State.mapCores_onlyCaches (s : State) (f : Core → Core) (hf : ∀ k, { f k with l1d := k.l1d, l1i := k.l1i } = k) :
    OnlyCaches s (s.mapCores f) := onlyCaches_cores s (fun _ => f) (fun _ => hf)

/-- An update of the L1 copies of one core. -/
theorem State.modCore_onlyCaches (s : State) (c : Nat) (f : Core → Core)
    (hf : { f (s.core c) with l1d := (s.core c).l1d, l1i := (s.core c).l1i } = s.core c) : OnlyCaches s (s.modCore c f) := by
  refine ⟨rfl, fun d => ?_⟩
  by_cases h : d = c
  · subst h; simpa using hf
  · rw [State.core_modCore_ne s h]

/-- A step of the caches for each element of a list. -/
theorem onlyCaches_foldl {α : Type} (l : List α) (f : State → α → State) (hf : ∀ s a, OnlyCaches s (f s a)) (s : State) :
    OnlyCaches s (l.foldl f s) := by
  induction l generalizing s with
  | nil => exact .refl s
  | cons a t ih => exact (hf s a).trans (ih (f s a))

theorem State.l2Touch_onlyCaches (s : State) (key n : Nat) (dirty : Bool) : OnlyCaches s (s.l2Touch key n dirty) :=
  onlyCaches_foldl _ _ (fun t _ => t.modL2_onlyCaches _ _) s

theorem State.dropCopies_onlyCaches (s : State) (c : Nat) (keep : Option Nat) : OnlyCaches s (s.dropCopies c keep) :=
  onlyCaches_cores s (fun d k => { k with
    l1d := if keep = some d then k.l1d else k.l1d.filter (fun l => l.key / 32 != c),
    l1i := k.l1i.filter (fun l => l.key / 64 != c / 2) }) (fun _ _ => rfl)

theorem State.invalidate_onlyCaches (s : State) (c : Nat) (keep : Option Nat) : OnlyCaches s (s.invalidate c keep) := by
  unfold State.invalidate
  dsimp only
  split
  · exact .refl s
  · refine .trans ?_ ((State.dropCopies_onlyCaches _ c _).trans (State.modSector_onlyCaches _ _ _))
    split
    · exact s.modL2_onlyCaches _ _
    · exact .refl s

theorem State.downgrade_onlyCaches (s : State) (c : Nat) : OnlyCaches s (s.downgrade c) := by
  unfold State.downgrade
  dsimp only
  split
  · exact .refl s
  · refine .trans ?_ (State.modSector_onlyCaches _ _ _)
    exact s.mapCores_onlyCaches _ (fun _ => rfl)

theorem State.dropL1Keys_onlyCaches (s : State) (lo hi : Nat) : OnlyCaches s (s.dropL1Keys lo hi) := by
  unfold State.dropL1Keys
  refine .trans ?_ (onlyCaches_l2 _ _)
  exact s.mapCores_onlyCaches _ (fun _ => rfl)

theorem State.dropL1Alias_onlyCaches (s : State) (asid lo hi : Nat) : OnlyCaches s (s.dropL1Alias asid lo hi) := by
  unfold State.dropL1Alias
  refine .trans ?_ (onlyCaches_l2 _ _)
  exact s.mapCores_onlyCaches _ (fun _ => rfl)

theorem State.performHome_onlyCaches (s : State) (key n : Nat) (write : Bool) : OnlyCaches s (s.performHome key n write) := by
  refine .trans (onlyCaches_foldl _ _ (fun t c => ?_) s) (State.l2Touch_onlyCaches _ key n write)
  split
  · exact t.invalidate_onlyCaches c none
  · exact t.downgrade_onlyCaches c

theorem State.cleanLine_onlyCaches (s : State) (key : Nat) : OnlyCaches s (s.cleanLine key) := by
  unfold State.cleanLine
  refine .trans ?_ (State.modL2_onlyCaches _ _ _)
  exact s.mapCores_onlyCaches _ (fun _ => rfl)

theorem State.evictData_onlyCaches (s : State) (k c : Nat) : OnlyCaches s (s.evictData k c) := by
  unfold State.evictData
  dsimp only
  refine .trans (s.modCore_onlyCaches k (fun x => { x with l1d := x.l1d.filter (fun l => l.key / 32 != c) }) rfl) ?_
  split
  · exact .refl _
  · refine .trans ?_ (State.modSector_onlyCaches _ _ _)
    split
    · exact State.modL2_onlyCaches _ _ _
    · exact .refl _

theorem State.dirAlloc_onlyCaches (s : State) (line : Nat) : OnlyCaches s (s.dirAlloc line) := by
  unfold State.dirAlloc
  dsimp only
  split
  · exact .refl s
  · refine .trans ?_ (State.modL2_onlyCaches _ _ _)
    split
    · exact .refl s
    · exact (onlyCaches_foldl _ _ (fun t c => t.invalidate_onlyCaches c none) s).trans (State.modL2_onlyCaches _ _ _)

theorem State.grantSector_onlyCaches (s : State) (k c : Nat) (tag : Nat × Nat) (store instr : Bool) :
    OnlyCaches s (s.grantSector k c tag store instr) := by
  unfold State.grantSector
  dsimp only
  refine .trans (.trans ((s.dirAlloc_onlyCaches (c / 8)).trans (State.l2Touch_onlyCaches _ (32 * c) 1 false)) ?_)
    (State.modSector_onlyCaches _ _ _)
  split
  · exact State.invalidate_onlyCaches _ _ _
  · exact State.downgrade_onlyCaches _ _

/-- The victim of a full L1 leaves it. -/
theorem evictOne_onlyCaches (s : State) (k : Nat) (o : Option L1Line) :
    OnlyCaches s (match o with | some v => s.evictData k (v.key / 32) | none => s) := by
  cases o
  · exact .refl s
  · exact s.evictData_onlyCaches _ _

theorem State.fillData_onlyCaches (s : State) (k : Nat) (line : L1Line) (store : Bool) : OnlyCaches s (s.fillData k line store) := by
  unfold State.fillData
  dsimp only
  refine .trans ?_ ((State.grantSector_onlyCaches _ _ _ _ _ _).trans (State.modCore_onlyCaches _ _ _ rfl))
  refine .trans (t := if (s.core k).l1d.any (fun l => l.key / 32 == line.key / 32) then s.evictData k (line.key / 32) else s) ?_ ?_
  · split
    · exact s.evictData_onlyCaches _ _
    · exact .refl s
  · exact evictOne_onlyCaches _ k _

theorem State.fillInstr_onlyCaches (s : State) (k : Nat) (line : L1Line) : OnlyCaches s (s.fillInstr k line) :=
  ((s.grantSector_onlyCaches _ _ _ _ _).trans (State.grantSector_onlyCaches _ _ _ _ _ _)).trans (State.modCore_onlyCaches _ _ _ rfl)

theorem State.storeHit_onlyCaches (s : State) (k c : Nat) : OnlyCaches s (s.storeHit k c) := by
  unfold State.storeHit
  dsimp only
  refine .trans ?_ (State.modCore_onlyCaches _ _ _ rfl)
  split
  · exact s.modSector_onlyCaches _ _
  · exact s.invalidate_onlyCaches _ _

end Sys2Proof.Machine
end

