-- ==== Sys2Proof/Laws/Ops.lean ====
section
/-! SUPPORT. What the shared operations of instructions do: the guard of R80, the outcome of `run`, the ends of register
instructions with their frames, and the wait for older accesses. -/

namespace Sys2Proof.Machine

/-! ### The checks before an instruction's own entry -/

theorem guard_eq_none_iff (i : Instr) (s : State) : guard i s = none ↔ Issues i s := by
  unfold guard
  cases hf : illForm i with
  | some e => simp [Issues, Instr.WellFormed, hf]
  | none =>
    cases hw : isWaiting i <;> cases hc : s.curCtx <;> cases hm : misused s i <;> cases hs : isS i <;> cases hp : s.cx.priv <;>
      cases hk : capHolds (s.cls s.cur) (neededMask i) <;> cases ht : tokenWait s i <;> simp [Issues, Instr.WellFormed, hf, hw, hc, hm, hs, hp, hk, ht]

/-- An instruction that issues does what its own entry does. -/
theorem run_issues {i : Instr} {s : State} (h : Issues i s) (body : State → Except Stop State) :
    run i s body = (match body s with | .ok t => .next t | .error e => finish s e) := by
  simp only [run, (guard_eq_none_iff i s).2 h]
  try (cases body s <;> rfl)

theorem run_ok {i : Instr} {s t : State} {body : State → Except Stop State} (h : Issues i s) (hb : body s = .ok t) :
    run i s body = .next t := by rw [run_issues h, hb]

theorem run_error {i : Instr} {s : State} {body : State → Except Stop State} {e : Stop} (h : Issues i s)
    (hb : body s = .error e) : run i s body = finish s e := by rw [run_issues h, hb]

/-- An instruction that does not issue ends as its guard says. -/
theorem run_guarded {i : Instr} {s : State} {e : Stop} (h : guard i s = some e) (body : State → Except Stop State) :
    run i s body = finish s e := by unfold run; rw [h]

/-- No instruction is refused. -/
theorem finish_not_refused (s : State) (e : Stop) (r : Refusal) : finish s e ≠ .refused r := by cases e <;> simp [finish]

theorem run_not_refused (i : Instr) (s : State) (body : State → Except Stop State) (r : Refusal) : run i s body ≠ .refused r := by
  unfold run
  split
  · exact finish_not_refused s _ r
  · split
    · simp
    · exact finish_not_refused s _ r

/-! ### Ends of register instructions -/

theorem onlyContext_setCx (s : State) (x : Ctx) : OnlyContext s (s.setCx x) :=
  ⟨⟨rfl, fun _ h => State.core_modCore_ne s h _⟩, by simp, fun _ => rfl⟩

theorem SameBesidesX.setX (k : Ctx) (d : BitVec 5) (v : Word) : SameBesidesX k (k.setX d v) := by
  unfold SameBesidesX Ctx.setX; split <;> rfl

/-- Writing x[d], then passing to a place of execution. -/
theorem resultsF_modCx (s : State) (d : BitVec 5) (v : Word) (flags : BitVec 5) (g : Ctx → Ctx) (pc : Word)
    (hx : ∀ k : Ctx, (g k).x = k.x) (hp : (g s.cx).pc = pc) (hg : ∀ k : Ctx, SameBesidesX k (g k))
    (hf : (g s.cx).fflags = s.cx.fflags ||| flags) (hd : ∀ k : Ctx, (g (k.setX d v)).pc = (g k).pc)
    (hff : ∀ k : Ctx, (g (k.setX d v)).fflags = (g k).fflags) :
    ResultsF s (s.modCx (fun k => g (k.setX d v))) d v pc flags := by
  have hget : ∀ (k : Ctx) r, (g k).getX r = k.getX r := fun k r => by simp only [Ctx.getX, hx]
  refine ⟨?_, ?_, ?_, ?_, ?_, onlyContext_setCx s _⟩
  · simp only [State.getX, State.cx_modCx, hget, Ctx.getX_setX_self]
  · intro r hr; simp only [State.getX, State.cx_modCx, hget, Ctx.getX_setX_ne _ hr]
  · rw [State.cx_modCx, hd, hp]
  · rw [State.cx_modCx, hff, hf]
  · rw [State.cx_modCx]
    have h1 := SameBesidesX.setX s.cx d v
    have h2 := hg (s.cx.setX d v)
    unfold SameBesidesX at *
    rw [← h1] at h2 ⊢
    rw [Ctx.mk.injEq] at h2 ⊢
    simp_all

/-- x[D] := v, then next_pc: the value, the frame, and x0 (R11). -/
theorem retX_returns (s : State) (d : BitVec 5) (v : Word) : Returns s (s.retX d v) d v :=
  resultsF_modCx s d v 0 Ctx.advance s.cx.nextPc (fun _ => rfl) rfl (fun _ => rfl) (by simp)
    (fun k => by simp) (fun k => by simp)

theorem jump_movesTo (s : State) (t : Word) : MovesTo s (s.jump t) t :=
  resultsF_modCx s 0 0 0 (fun k => k.jump t) t (fun _ => rfl) rfl (fun _ => rfl) (by simp) (fun _ => rfl) (fun _ => rfl)

theorem advance_movesTo (s : State) : MovesTo s s.advance s.cx.nextPc :=
  resultsF_modCx s 0 0 0 Ctx.advance s.cx.nextPc (fun _ => rfl) rfl (fun _ => rfl) (by simp) (fun _ => rfl) (fun _ => rfl)

/-- A floating result with its flags (R58, R100). -/
theorem retF_resultsF (s : State) (d : BitVec 5) (fc : Nat) (r : Flagged Nat) :
    ResultsF s (s.retF d fc r) d (BitVec.ofNat 64 (extendCode fc r.1)) s.cx.nextPc r.2 := by
  have h : s.retF d fc r = s.modCx (fun k => { (k.setX d (BitVec.ofNat 64 (extendCode fc r.1))).advance with
      fflags := k.fflags ||| r.2 }) := by
    simp only [State.retF, State.orFlags, State.retX, State.modCx_modCx]
    congr 1; funext k; simp only [Ctx.setX]; split <;> rfl
  rw [h]
  have := resultsF_modCx s d (BitVec.ofNat 64 (extendCode fc r.1)) r.2
    (fun k => { k.advance with fflags := k.fflags ||| r.2 }) s.cx.nextPc (fun _ => rfl) rfl (fun _ => rfl) rfl
    (fun k => by simp) (fun k => by simp)
  simpa using this

/-- The link register and the transfer (R98). -/
theorem linkTo_results (s : State) (d : BitVec 5) (t : Word) :
    linkTo d t s = .ok (s.modCx (fun k => (k.setX d s.cx.nextPc).jump t)) ∧
      Results s (s.modCx (fun k => (k.setX d s.cx.nextPc).jump t)) d s.cx.nextPc t :=
  ⟨rfl, resultsF_modCx s d s.cx.nextPc 0 (fun k => k.jump t) t (fun _ => rfl) rfl (fun _ => rfl) (by simp) (fun _ => rfl)
    (fun k => by simp)⟩

/-! ### Waiting for older accesses (R111, R136, R250) -/

theorem orderWait_ok_iff (oc : BitVec 4) (release : Bool) (ranges : List (Int × Nat)) (s : State) :
    orderWait oc release ranges s = .ok () ↔
      s.classQueued (fun c => release || c == oc.toNat) = false ∧ s.wreadPending = false ∧
        ∀ r ∈ ranges, s.conflictQueued r.1 r.2 = false := by
  unfold orderWait
  split <;> rename_i h
  · simp only [reduceCtorEq, false_iff]
    simp only [Bool.or_eq_true, List.any_eq_true] at h
    rintro ⟨h1, h2, h3⟩
    obtain (h | h) | ⟨r, hr, h⟩ := h
    · simp [h1] at h
    · simp [h2] at h
    · simp [h3 r hr] at h
  · simpa [and_assoc] using h

/-- It changes nothing: it only lets the instruction go on or makes it wait. -/
theorem orderWait_cases (oc : BitVec 4) (release : Bool) (ranges : List (Int × Nat)) (s : State) :
    orderWait oc release ranges s = .ok () ∨ orderWait oc release ranges s = .error .stall := by
  unfold orderWait
  split
  · exact .inr rfl
  · exact .inl rfl

end Sys2Proof.Machine
end

