-- ==== Sys2Proof/Laws/Exec.lean ====
section
/-! SUPPORT. The meaning of each instruction, one lemma for each arm of exec. -/

namespace Sys2Proof.Machine

section
variable (s : State)

theorem exec_brk (o : LI16) : exec (.brk o) s = execBrk o s := rfl
theorem exec_add (o : LH) : exec (.add o) s = execAdd o s := rfl
theorem exec_sub (o : LH) : exec (.sub o) s = execSub o s := rfl
theorem exec_and (o : LH) : exec (.and o) s = execAnd o s := rfl
theorem exec_or (o : LH) : exec (.or o) s = execOr o s := rfl
theorem exec_xor (o : LH) : exec (.xor o) s = execXor o s := rfl
theorem exec_andn (o : LH) : exec (.andn o) s = execAndn o s := rfl
theorem exec_orn (o : LH) : exec (.orn o) s = execOrn o s := rfl
theorem exec_xnor (o : LH) : exec (.xnor o) s = execXnor o s := rfl
theorem exec_sll (o : LH) : exec (.sll o) s = execSll o s := rfl
theorem exec_srl (o : LH) : exec (.srl o) s = execSrl o s := rfl
theorem exec_sra (o : LH) : exec (.sra o) s = execSra o s := rfl
theorem exec_rol (o : LH) : exec (.rol o) s = execRol o s := rfl
theorem exec_ror (o : LH) : exec (.ror o) s = execRor o s := rfl
theorem exec_slt (o : LH) : exec (.slt o) s = execSlt o s := rfl
theorem exec_sltu (o : LH) : exec (.sltu o) s = execSltu o s := rfl
theorem exec_seq (o : LH) : exec (.seq o) s = execSeq o s := rfl
theorem exec_min (o : LH) : exec (.min o) s = execMin o s := rfl
theorem exec_max (o : LH) : exec (.max o) s = execMax o s := rfl
theorem exec_minu (o : LH) : exec (.minu o) s = execMinu o s := rfl
theorem exec_maxu (o : LH) : exec (.maxu o) s = execMaxu o s := rfl
theorem exec_mul (o : LH) : exec (.mul o) s = execMul o s := rfl
theorem exec_mulh (o : LH) : exec (.mulh o) s = execMulh o s := rfl
theorem exec_mulhu (o : LH) : exec (.mulhu o) s = execMulhu o s := rfl
theorem exec_mulhsu (o : LH) : exec (.mulhsu o) s = execMulhsu o s := rfl
theorem exec_div (o : LH) : exec (.div o) s = execDiv o s := rfl
theorem exec_divu (o : LH) : exec (.divu o) s = execDivu o s := rfl
theorem exec_rem (o : LH) : exec (.rem o) s = execRem o s := rfl
theorem exec_remu (o : LH) : exec (.remu o) s = execRemu o s := rfl
theorem exec_clz (o : LH) : exec (.clz o) s = execClz o s := rfl
theorem exec_ctz (o : LH) : exec (.ctz o) s = execCtz o s := rfl
theorem exec_popc (o : LH) : exec (.popc o) s = execPopc o s := rfl
theorem exec_bswap (o : LH) : exec (.bswap o) s = execBswap o s := rfl
theorem exec_sext (o : LH) : exec (.sext o) s = execSext o s := rfl
theorem exec_zext (o : LH) : exec (.zext o) s = execZext o s := rfl
theorem exec_addw (o : LH) : exec (.addw o) s = execAddw o s := rfl
theorem exec_subw (o : LH) : exec (.subw o) s = execSubw o s := rfl
theorem exec_mulw (o : LH) : exec (.mulw o) s = execMulw o s := rfl
theorem exec_cmovz (o : LH) : exec (.cmovz o) s = execCmovz o s := rfl
theorem exec_cmovnz (o : LH) : exec (.cmovnz o) s = execCmovnz o s := rfl
theorem exec_addiI16 (o : LI16) : exec (.addiI16 o) s = execAddiI16 o s := rfl
theorem exec_addiWi (o : LWI) : exec (.addiWi o) s = execAddiWi o s := rfl
theorem exec_addiXi (o : LXI) : exec (.addiXi o) s = execAddiXi o s := rfl
theorem exec_andiI16 (o : LI16) : exec (.andiI16 o) s = execAndiI16 o s := rfl
theorem exec_andiWi (o : LWI) : exec (.andiWi o) s = execAndiWi o s := rfl
theorem exec_andiXi (o : LXI) : exec (.andiXi o) s = execAndiXi o s := rfl
theorem exec_oriI16 (o : LI16) : exec (.oriI16 o) s = execOriI16 o s := rfl
theorem exec_oriWi (o : LWI) : exec (.oriWi o) s = execOriWi o s := rfl
theorem exec_oriXi (o : LXI) : exec (.oriXi o) s = execOriXi o s := rfl
theorem exec_xoriI16 (o : LI16) : exec (.xoriI16 o) s = execXoriI16 o s := rfl
theorem exec_xoriWi (o : LWI) : exec (.xoriWi o) s = execXoriWi o s := rfl
theorem exec_xoriXi (o : LXI) : exec (.xoriXi o) s = execXoriXi o s := rfl
theorem exec_sltiI16 (o : LI16) : exec (.sltiI16 o) s = execSltiI16 o s := rfl
theorem exec_sltiWi (o : LWI) : exec (.sltiWi o) s = execSltiWi o s := rfl
theorem exec_sltiXi (o : LXI) : exec (.sltiXi o) s = execSltiXi o s := rfl
theorem exec_sltiuI16 (o : LI16) : exec (.sltiuI16 o) s = execSltiuI16 o s := rfl
theorem exec_sltiuWi (o : LWI) : exec (.sltiuWi o) s = execSltiuWi o s := rfl
theorem exec_sltiuXi (o : LXI) : exec (.sltiuXi o) s = execSltiuXi o s := rfl
theorem exec_shiI16 (o : LI16) : exec (.shiI16 o) s = execShiI16 o s := rfl
theorem exec_shiWi (o : LWI) : exec (.shiWi o) s = execShiWi o s := rfl
theorem exec_shiXi (o : LXI) : exec (.shiXi o) s = execShiXi o s := rfl
theorem exec_muliI16 (o : LI16) : exec (.muliI16 o) s = execMuliI16 o s := rfl
theorem exec_muliWi (o : LWI) : exec (.muliWi o) s = execMuliWi o s := rfl
theorem exec_muliXi (o : LXI) : exec (.muliXi o) s = execMuliXi o s := rfl
theorem exec_adda (o : LH) : exec (.adda o) s = execAdda o s := rfl
theorem exec_addiaWi (o : LWI) : exec (.addiaWi o) s = execAddiaWi o s := rfl
theorem exec_addiaXi (o : LXI) : exec (.addiaXi o) s = execAddiaXi o s := rfl
theorem exec_scalea (o : LH) : exec (.scalea o) s = execScalea o s := rfl
theorem exec_pfmt (o : LI16) : exec (.pfmt o) s = execPfmt o s := rfl
theorem exec_gfmt (o : LH) : exec (.gfmt o) s = execGfmt o s := rfl
theorem exec_clrfmt (o : LH) : exec (.clrfmt o) s = execClrfmt o s := rfl
theorem exec_suba (o : LH) : exec (.suba o) s = execSuba o s := rfl
theorem exec_liI16 (o : LI16) : exec (.liI16 o) s = execLiI16 o s := rfl
theorem exec_liI32 (o : LI32) : exec (.liI32 o) s = execLiI32 o s := rfl
theorem exec_liL64 (o : L64) : exec (.liL64 o) s = execLiL64 o s := rfl
theorem exec_lpc (o : LWI) : exec (.lpc o) s = execLpc o s := rfl
theorem exec_mov (o : LH) : exec (.mov o) s = execMov o s := rfl
theorem exec_csrr (o : LI16) : exec (.csrr o) s = execCsrr o s := rfl
theorem exec_csrw (o : LI16) : exec (.csrw o) s = execCsrw o s := rfl
theorem exec_csrs (o : LI16) : exec (.csrs o) s = execCsrs o s := rfl
theorem exec_csrc (o : LI16) : exec (.csrc o) s = execCsrc o s := rfl
theorem exec_csrx (o : LI16) : exec (.csrx o) s = execCsrx o s := rfl
theorem exec_j (o : LWI) : exec (.j o) s = execJ o s := rfl
theorem exec_jal (o : LWI) : exec (.jal o) s = execJal o s := rfl
theorem exec_jalr (o : LH) : exec (.jalr o) s = execJalr o s := rfl
theorem exec_beq (o : LB) : exec (.beq o) s = execBeq o s := rfl
theorem exec_bne (o : LB) : exec (.bne o) s = execBne o s := rfl
theorem exec_blt (o : LB) : exec (.blt o) s = execBlt o s := rfl
theorem exec_bge (o : LB) : exec (.bge o) s = execBge o s := rfl
theorem exec_bltu (o : LB) : exec (.bltu o) s = execBltu o s := rfl
theorem exec_bgeu (o : LB) : exec (.bgeu o) s = execBgeu o s := rfl
theorem exec_bms (o : LB) : exec (.bms o) s = execBms o s := rfl
theorem exec_bmc (o : LB) : exec (.bmc o) s = execBmc o s := rfl
theorem exec_fadd (o : LH) : exec (.fadd o) s = execFadd o s := rfl
theorem exec_fsub (o : LH) : exec (.fsub o) s = execFsub o s := rfl
theorem exec_fmul (o : LH) : exec (.fmul o) s = execFmul o s := rfl
theorem exec_fdiv (o : LH) : exec (.fdiv o) s = execFdiv o s := rfl
theorem exec_fsqrt (o : LH) : exec (.fsqrt o) s = execFsqrt o s := rfl
theorem exec_fmin (o : LH) : exec (.fmin o) s = execFmin o s := rfl
theorem exec_fmax (o : LH) : exec (.fmax o) s = execFmax o s := rfl
theorem exec_fcmp (o : LH) : exec (.fcmp o) s = execFcmp o s := rfl
theorem exec_fma (o : LW) : exec (.fma o) s = execFma o s := rfl
theorem exec_fcvt (o : LH) : exec (.fcvt o) s = execFcvt o s := rfl
theorem exec_fclass (o : LH) : exec (.fclass o) s = execFclass o s := rfl
theorem exec_ldb (o : LM) : exec (.ldb o) s = execLdb o s := rfl
theorem exec_ldbu (o : LM) : exec (.ldbu o) s = execLdbu o s := rfl
theorem exec_ldh (o : LM) : exec (.ldh o) s = execLdh o s := rfl
theorem exec_ldhu (o : LM) : exec (.ldhu o) s = execLdhu o s := rfl
theorem exec_ldw (o : LM) : exec (.ldw o) s = execLdw o s := rfl
theorem exec_ldwu (o : LM) : exec (.ldwu o) s = execLdwu o s := rfl
theorem exec_ldd (o : LM) : exec (.ldd o) s = execLdd o s := rfl
theorem exec_ldaq (o : LM) : exec (.ldaq o) s = execLdaq o s := rfl
theorem exec_stb (o : LM) : exec (.stb o) s = execStb o s := rfl
theorem exec_sth (o : LM) : exec (.sth o) s = execSth o s := rfl
theorem exec_stw (o : LM) : exec (.stw o) s = execStw o s := rfl
theorem exec_std (o : LM) : exec (.std o) s = execStd o s := rfl
theorem exec_strl (o : LM) : exec (.strl o) s = execStrl o s := rfl
theorem exec_strlw (o : LM) : exec (.strlw o) s = execStrlw o s := rfl
theorem exec_ldaqw (o : LM) : exec (.ldaqw o) s = execLdaqw o s := rfl
theorem exec_mstd (o : LM) : exec (.mstd o) s = execMstd o s := rfl
theorem exec_amo (o : LW) : exec (.amo o) s = execAmo o s := rfl
theorem exec_cas (o : LW) : exec (.cas o) s = execCas o s := rfl
theorem exec_fence (o : LI16) : exec (.fence o) s = execFence o s := rfl
theorem exec_pflush (o : LM) : exec (.pflush o) s = execPflush o s := rfl
theorem exec_clwb (o : LM) : exec (.clwb o) s = execClwb o s := rfl
theorem exec_acopy (o : LX) : exec (.acopy o) s = execAcopy o s := rfl
theorem exec_acopy2d (o : LX) : exec (.acopy2d o) s = execAcopy2d o s := rfl
theorem exec_agather (o : LX) : exec (.agather o) s = execAgather o s := rfl
theorem exec_acoll (o : LX) : exec (.acoll o) s = execAcoll o s := rfl
theorem exec_glaze (o : LX) : exec (.glaze o) s = execGlaze o s := rfl
theorem exec_wbind (o : LX) : exec (.wbind o) s = execWbind o s := rfl
theorem exec_wread (o : LX) : exec (.wread o) s = execWread o s := rfl
theorem exec_acancel (o : LX) : exec (.acancel o) s = execAcancel o s := rfl
theorem exec_setvl (o : LH) : exec (.setvl o) s = execSetvl o s := rfl
theorem exec_vsett (o : LI16) : exec (.vsett o) s = execVsett o s := rfl
theorem exec_vsettx (o : LH) : exec (.vsettx o) s = execVsettx o s := rfl
theorem exec_slip (o : LI16) : exec (.slip o) s = execSlip o s := rfl
theorem exec_gang (o : LH) : exec (.gang o) s = execGang o s := rfl
theorem exec_vadd (o : LV) : exec (.vadd o) s = execVadd o s := rfl
theorem exec_vsub (o : LV) : exec (.vsub o) s = execVsub o s := rfl
theorem exec_vand (o : LV) : exec (.vand o) s = execVand o s := rfl
theorem exec_vor (o : LV) : exec (.vor o) s = execVor o s := rfl
theorem exec_vxor (o : LV) : exec (.vxor o) s = execVxor o s := rfl
theorem exec_vsll (o : LV) : exec (.vsll o) s = execVsll o s := rfl
theorem exec_vsrl (o : LV) : exec (.vsrl o) s = execVsrl o s := rfl
theorem exec_vsra (o : LV) : exec (.vsra o) s = execVsra o s := rfl
theorem exec_vmul (o : LV) : exec (.vmul o) s = execVmul o s := rfl
theorem exec_vmulh (o : LV) : exec (.vmulh o) s = execVmulh o s := rfl
theorem exec_vmin (o : LV) : exec (.vmin o) s = execVmin o s := rfl
theorem exec_vmax (o : LV) : exec (.vmax o) s = execVmax o s := rfl
theorem exec_vsadd (o : LV) : exec (.vsadd o) s = execVsadd o s := rfl
theorem exec_vssub (o : LV) : exec (.vssub o) s = execVssub o s := rfl
theorem exec_vcmp (o : LV) : exec (.vcmp o) s = execVcmp o s := rfl
theorem exec_vmerge (o : LV) : exec (.vmerge o) s = execVmerge o s := rfl
theorem exec_vfadd (o : LV) : exec (.vfadd o) s = execVfadd o s := rfl
theorem exec_vfsub (o : LV) : exec (.vfsub o) s = execVfsub o s := rfl
theorem exec_vfmul (o : LV) : exec (.vfmul o) s = execVfmul o s := rfl
theorem exec_vfdiv (o : LV) : exec (.vfdiv o) s = execVfdiv o s := rfl
theorem exec_vfmin (o : LV) : exec (.vfmin o) s = execVfmin o s := rfl
theorem exec_vfmax (o : LV) : exec (.vfmax o) s = execVfmax o s := rfl
theorem exec_vfcmp (o : LV) : exec (.vfcmp o) s = execVfcmp o s := rfl
theorem exec_vfsqrt (o : LV) : exec (.vfsqrt o) s = execVfsqrt o s := rfl
theorem exec_vfma (o : LX) : exec (.vfma o) s = execVfma o s := rfl
theorem exec_vfnma (o : LX) : exec (.vfnma o) s = execVfnma o s := rfl
theorem exec_vfcvt (o : LX) : exec (.vfcvt o) s = execVfcvt o s := rfl
theorem exec_vfclass (o : LX) : exec (.vfclass o) s = execVfclass o s := rfl
theorem exec_vfscale (o : LX) : exec (.vfscale o) s = execVfscale o s := rfl
theorem exec_vfsgn (o : LX) : exec (.vfsgn o) s = execVfsgn o s := rfl
theorem exec_vredsum (o : LV) : exec (.vredsum o) s = execVredsum o s := rfl
theorem exec_vfredsum (o : LV) : exec (.vfredsum o) s = execVfredsum o s := rfl
theorem exec_vredmax (o : LV) : exec (.vredmax o) s = execVredmax o s := rfl
theorem exec_vfredmax (o : LV) : exec (.vfredmax o) s = execVfredmax o s := rfl
theorem exec_vslide (o : LV) : exec (.vslide o) s = execVslide o s := rfl
theorem exec_vperm (o : LV) : exec (.vperm o) s = execVperm o s := rfl
theorem exec_vcompress (o : LV) : exec (.vcompress o) s = execVcompress o s := rfl
theorem exec_vexpand (o : LV) : exec (.vexpand o) s = execVexpand o s := rfl
theorem exec_vmovx (o : LV) : exec (.vmovx o) s = execVmovx o s := rfl
theorem exec_vins (o : LV) : exec (.vins o) s = execVins o s := rfl
theorem exec_vsplat (o : LV) : exec (.vsplat o) s = execVsplat o s := rfl
theorem exec_viota (o : LV) : exec (.viota o) s = execViota o s := rfl
theorem exec_vmov (o : LV) : exec (.vmov o) s = execVmov o s := rfl
theorem exec_mand (o : LH) : exec (.mand o) s = execMand o s := rfl
theorem exec_mor (o : LH) : exec (.mor o) s = execMor o s := rfl
theorem exec_mxor (o : LH) : exec (.mxor o) s = execMxor o s := rfl
theorem exec_mandn (o : LH) : exec (.mandn o) s = execMandn o s := rfl
theorem exec_mnot (o : LH) : exec (.mnot o) s = execMnot o s := rfl
theorem exec_mpop (o : LH) : exec (.mpop o) s = execMpop o s := rfl
theorem exec_mfirst (o : LH) : exec (.mfirst o) s = execMfirst o s := rfl
theorem exec_msbf (o : LH) : exec (.msbf o) s = execMsbf o s := rfl
theorem exec_vld (o : LX) : exec (.vld o) s = execVld o s := rfl
theorem exec_vldx (o : LX) : exec (.vldx o) s = execVldx o s := rfl
theorem exec_vst (o : LX) : exec (.vst o) s = execVst o s := rfl
theorem exec_vstx (o : LX) : exec (.vstx o) s = execVstx o s := rfl
theorem exec_vlds (o : LX) : exec (.vlds o) s = execVlds o s := rfl
theorem exec_vsts (o : LX) : exec (.vsts o) s = execVsts o s := rfl
theorem exec_mld (o : LX) : exec (.mld o) s = execMld o s := rfl
theorem exec_mst (o : LX) : exec (.mst o) s = execMst o s := rfl
theorem exec_vldl (o : LX) : exec (.vldl o) s = execVldl o s := rfl
theorem exec_vstl (o : LX) : exec (.vstl o) s = execVstl o s := rfl
theorem exec_ranka (o : LX) : exec (.ranka o) s = execRanka o s := rfl
theorem exec_ranks (o : LX) : exec (.ranks o) s = execRanks o s := rfl
theorem exec_mopak (o : LX) : exec (.mopak o) s = execMopak o s := rfl
theorem exec_mzero (o : LX) : exec (.mzero o) s = execMzero o s := rfl
theorem exec_mrd (o : LX) : exec (.mrd o) s = execMrd o s := rfl
theorem exec_mwr (o : LX) : exec (.mwr o) s = execMwr o s := rfl
theorem exec_mrowacc (o : LX) : exec (.mrowacc o) s = execMrowacc o s := rfl
theorem exec_msta (o : LX) : exec (.msta o) s = execMsta o s := rfl
theorem exec_mstat (o : LH) : exec (.mstat o) s = execMstat o s := rfl
theorem exec_mlda (o : LX) : exec (.mlda o) s = execMlda o s := rfl
theorem exec_mdrop (o : LN) : exec (.mdrop o) s = execMdrop o s := rfl
theorem exec_ldref (o : LM) : exec (.ldref o) s = execLdref o s := rfl
theorem exec_stref (o : LM) : exec (.stref o) s = execStref o s := rfl
theorem exec_ldf (o : LM) : exec (.ldf o) s = execLdf o s := rfl
theorem exec_stf (o : LM) : exec (.stf o) s = execStf o s := rfl
theorem exec_pin (o : LH) : exec (.pin o) s = execPin o s := rfl
theorem exec_unpin (o : LH) : exec (.unpin o) s = execUnpin o s := rfl
theorem exec_qmov (o : LH) : exec (.qmov o) s = execQmov o s := rfl
theorem exec_qcvtToRef (o : LH) : exec (.qcvtToRef o) s = execQcvtToRef o s := rfl
theorem exec_qcvtFromRef (o : LH) : exec (.qcvtFromRef o) s = execQcvtFromRef o s := rfl
theorem exec_refeq (o : LH) : exec (.refeq o) s = execRefeq o s := rfl
theorem exec_spawn (o : LX) : exec (.spawn o) s = execSpawn o s := rfl
theorem exec_join (o : LH) : exec (.join o) s = execJoin o s := rfl
theorem exec_exit (o : LH) : exec (.exit o) s = execExit o s := rfl
theorem exec_migrate (o : LH) : exec (.migrate o) s = execMigrate o s := rfl
theorem exec_bar (o : LI16) : exec (.bar o) s = execBar o s := rfl
theorem exec_crewinfo (o : LH) : exec (.crewinfo o) s = execCrewinfo o s := rfl
theorem exec_self (o : LH) : exec (.self o) s = execSelf o s := rfl
theorem exec_msend (o : LH) : exec (.msend o) s = execMsend o s := rfl
theorem exec_msenda (o : LH) : exec (.msenda o) s = execMsenda o s := rfl
theorem exec_enqt (o : LH) : exec (.enqt o) s = execEnqt o s := rfl
theorem exec_tdone (o : LH) : exec (.tdone o) s = execTdone o s := rfl
theorem exec_grun (o : LH) : exec (.grun o) s = execGrun o s := rfl
theorem exec_cbinv (o : LH) : exec (.cbinv o) s = execCbinv o s := rfl
theorem exec_sysc (o : LH) : exec (.sysc o) s = execSysc o s := rfl
theorem exec_sret (o : LN) : exec (.sret o) s = execSret o s := rfl
theorem exec_wait (o : LH) : exec (.wait o) s = execWait o s := rfl
theorem exec_xinv (o : LH) : exec (.xinv o) s = execXinv o s := rfl
theorem exec_opreq (o : LI16) : exec (.opreq o) s = execOpreq o s := rfl
theorem exec_preempt (o : LH) : exec (.preempt o) s = execPreempt o s := rfl
theorem exec_ctxstream (o : LH) : exec (.ctxstream o) s = execCtxstream o s := rfl
theorem exec_serviceEntry (core : Nat) : exec (.serviceEntry core) s = execServiceEntry core s := rfl
theorem exec_handlerStart (core : Nat) : exec (.handlerStart core) s = execHandlerStart core s := rfl
theorem exec_messageAnswer (flight : Nat) : exec (.messageAnswer flight) s = execMessageAnswer flight s := rfl
theorem exec_msendaCompletion (flight : Nat) : exec (.msendaCompletion flight) s = execMsendaCompletion flight s := rfl
theorem exec_vectorEntryExecute (core k : Nat) : exec (.vectorEntryExecute core k) s = execVectorEntryExecute core k s := rfl
theorem exec_matrixEntryExecute (core : Nat) : exec (.matrixEntryExecute core) s = execMatrixEntryExecute core s := rfl
theorem exec_enginePiece (op : Nat) : exec (.enginePiece op) s = execEnginePiece op s := rfl
theorem exec_tokenCompletion (op : Nat) : exec (.tokenCompletion op) s = execTokenCompletion op s := rfl
theorem exec_windowExchange (op : Nat) : exec (.windowExchange op) s = execWindowExchange op s := rfl
theorem exec_collectiveTimeout (op : Nat) : exec (.collectiveTimeout op) s = execCollectiveTimeout op s := rfl
theorem exec_remoteCopyTimeout (op : Nat) : exec (.remoteCopyTimeout op) s = execRemoteCopyTimeout op s := rfl
theorem exec_liveMoveAck (move : Nat) : exec (.liveMoveAck move) s = execLiveMoveAck move s := rfl
theorem exec_measuredMigration (core : Nat) : exec (.measuredMigration core) s = execMeasuredMigration core s := rfl
theorem exec_aging (core : Nat) : exec (.aging core) s = execAging core s := rfl
theorem exec_parkedWaitCheck (core k : Nat) : exec (.parkedWaitCheck core k) s = execParkedWaitCheck core k s := rfl
theorem exec_waitTimeout (asid sid : Nat) : exec (.waitTimeout asid sid) s = execWaitTimeout asid sid s := rfl
theorem exec_overflowAdmit (core : Nat) : exec (.overflowAdmit core) s = execOverflowAdmit core s := rfl
theorem exec_occupantZeroingDone (core : Nat) : exec (.occupantZeroingDone core) s = execOccupantZeroingDone core s := rfl
theorem exec_schedulerPreempt (site : Nat) : exec (.schedulerPreempt site) s = execSchedulerPreempt site s := rfl
theorem exec_watchdogT1 (asid sid : Nat) : exec (.watchdogT1 asid sid) s = execWatchdogT1 asid sid s := rfl
theorem exec_watchdogT2 (asid sid : Nat) : exec (.watchdogT2 asid sid) s = execWatchdogT2 asid sid s := rfl
theorem exec_watchdogT3 (asid sid : Nat) : exec (.watchdogT3 asid sid) s = execWatchdogT3 asid sid s := rfl
theorem exec_jobTake (asid queue : Nat) : exec (.jobTake asid queue) s = execJobTake asid queue s := rfl
theorem exec_recordReady (asid record : Nat) : exec (.recordReady asid record) s = execRecordReady asid record s := rfl
theorem exec_dispatch (site : Nat) : exec (.dispatch site) s = execDispatch site s := rfl
theorem exec_crewReservation (site : Nat) : exec (.crewReservation site) s = execCrewReservation site s := rfl
theorem exec_eprioRaise (asid queue : Nat) : exec (.eprioRaise asid queue) s = execEprioRaise asid queue s := rfl
theorem exec_clusterTaskDispatch (cluster : Nat) : exec (.clusterTaskDispatch cluster) s = execClusterTaskDispatch cluster s := rfl
theorem exec_clusterTaskRecheck (cluster k : Nat) : exec (.clusterTaskRecheck cluster k) s = execClusterTaskRecheck cluster k s := rfl
theorem exec_queueCancel (asid queue : Nat) : exec (.queueCancel asid queue) s = execQueueCancel asid queue s := rfl
theorem exec_eventsLostReport (asid : Nat) : exec (.eventsLostReport asid) s = execEventsLostReport asid s := rfl
theorem exec_syscRingRetry (asid : Nat) : exec (.syscRingRetry asid) s = execSyscRingRetry asid s := rfl
theorem exec_syscResult (asid pos : Nat) : exec (.syscResult asid pos) s = execSyscResult asid pos s := rfl
theorem exec_asbindBind (port record : Nat) : exec (.asbindBind port record) s = execAsbindBind port record s := rfl
theorem exec_asbindUnbind (port record : Nat) : exec (.asbindUnbind port record) s = execAsbindUnbind port record s := rfl
theorem exec_powerOnReset : exec .powerOnReset s = execPowerOnReset s := rfl
theorem exec_modctlCold (port : Nat) : exec (.modctlCold port) s = execModctlCold port s := rfl
theorem exec_modctlWarm (port : Nat) : exec (.modctlWarm port) s = execModctlWarm port s := rfl
theorem exec_attestRequest (port area : Nat) : exec (.attestRequest port area) s = execAttestRequest port area s := rfl
theorem exec_captureModeOff (port : Nat) : exec (.captureModeOff port) s = execCaptureModeOff port s := rfl
theorem exec_captureModeOn (port ring logn : Nat) : exec (.captureModeOn port ring logn) s = execCaptureModeOn port ring logn s := rfl
theorem exec_replayModeOn (port ring logn : Nat) : exec (.replayModeOn port ring logn) s = execReplayModeOn port ring logn s := rfl
theorem exec_captureRingSpace : exec .captureRingSpace s = execCaptureRingSpace s := rfl
theorem exec_replayForceTimeout (asid queue record : Nat) : exec (.replayForceTimeout asid queue record) s = execReplayForceTimeout asid queue record s := rfl
theorem exec_registerWrite (port offset value : Nat) : exec (.registerWrite port offset value) s = execRegisterWrite port offset value s := rfl
theorem exec_errorCorrected (unitKind unit pa count : Nat) : exec (.errorCorrected unitKind unit pa count) s = execErrorCorrected unitKind unit pa count s := rfl
theorem exec_poisonCreated (place unit addr : Nat) : exec (.poisonCreated place unit addr) s = execPoisonCreated place unit addr s := rfl
theorem exec_laneRetire (core lane : Nat) : exec (.laneRetire core lane) s = execLaneRetire core lane s := rfl
theorem exec_matrixStepCheckFail (core : Nat) : exec (.matrixStepCheckFail core) s = execMatrixStepCheckFail core s := rfl
theorem exec_coreFence (core : Nat) : exec (.coreFence core) s = execCoreFence core s := rfl
theorem exec_opLimitLower (tile : Nat) : exec (.opLimitLower tile) s = execOpLimitLower tile s := rfl
theorem exec_pseudoChannelFailing (pc : Nat) : exec (.pseudoChannelFailing pc) s = execPseudoChannelFailing pc s := rfl
theorem exec_linkDegrade (link : Nat) : exec (.linkDegrade link) s = execLinkDegrade link s := rfl
theorem exec_moduleError : exec .moduleError s = execModuleError s := rfl
theorem exec_hostPortDown (port : Nat) : exec (.hostPortDown port) s = execHostPortDown port s := rfl
theorem exec_hostDeath (port offset lines : Nat) : exec (.hostDeath port offset lines) s = execHostDeath port offset lines s := rfl
theorem exec_poolFailure (port offset bytes : Nat) : exec (.poolFailure port offset bytes) s = execPoolFailure port offset bytes s := rfl
theorem exec_cxlEngineFailure (port : Nat) : exec (.cxlEngineFailure port) s = execCxlEngineFailure port s := rfl
theorem exec_fabricPortDown (port : Nat) : exec (.fabricPortDown port) s = execFabricPortDown port s := rfl
theorem exec_thermalWarning (site : Nat) : exec (.thermalWarning site) s = execThermalWarning site s := rfl
theorem exec_thermalThrottle (site : Nat) : exec (.thermalThrottle site) s = execThermalThrottle site s := rfl
theorem exec_thermalCritical (site : Nat) : exec (.thermalCritical site) s = execThermalCritical site s := rfl
theorem exec_damperGrant (tile : Nat) : exec (.damperGrant tile) s = execDamperGrant tile s := rfl
theorem exec_tileGate (tile : Nat) : exec (.tileGate tile) s = execTileGate tile s := rfl
theorem exec_tileWake (tile : Nat) : exec (.tileWake tile) s = execTileWake tile s := rfl
theorem exec_pointSwitch (tile : Nat) : exec (.pointSwitch tile) s = execPointSwitch tile s := rfl
theorem exec_atsCompletion (k hpa rights : Nat) : exec (.atsCompletion k hpa rights) s = execAtsCompletion k hpa rights s := rfl
theorem exec_priResponse (k code : Nat) : exec (.priResponse k code) s = execPriResponse k code s := rfl
theorem exec_priTimeout (k : Nat) : exec (.priTimeout k) s = execPriTimeout k s := rfl
theorem exec_atsInvalidation (port pasid va bytes : Nat) : exec (.atsInvalidation port pasid va bytes) s = execAtsInvalidation port pasid va bytes s := rfl
theorem exec_invalidationCompletion (k : Nat) : exec (.invalidationCompletion k) s = execInvalidationCompletion k s := rfl
theorem exec_hostSnoop (port addr : Nat) : exec (.hostSnoop port addr) s = execHostSnoop port addr s := rfl
theorem exec_hostMemAccess (port pa write data : Nat) : exec (.hostMemAccess port pa write data) s = execHostMemAccess port pa write data s := rfl
theorem exec_pinAdmit (site : Nat) : exec (.pinAdmit site) s = execPinAdmit site s := rfl
theorem exec_hotnessWriteback (site k : Nat) : exec (.hotnessWriteback site k) s = execHotnessWriteback site k s := rfl
theorem exec_moveMigrate (site : Nat) : exec (.moveMigrate site) s = execMoveMigrate site s := rfl
theorem exec_moveReplicate (site : Nat) : exec (.moveReplicate site) s = execMoveReplicate site s := rfl
theorem exec_moveCollapse (site : Nat) : exec (.moveCollapse site) s = execMoveCollapse site s := rfl
theorem exec_moveResetHotness (site : Nat) : exec (.moveResetHotness site) s = execMoveResetHotness site s := rfl
theorem exec_flip : exec .flip s = execFlip s := rfl
theorem exec_copy : exec .copy s = execCopy s := rfl
theorem exec_free : exec .free s = execFree s := rfl
theorem exec_errorLogSpace : exec .errorLogSpace s = execErrorLogSpace s := rfl
theorem exec_persistConfirmation (k : Nat) : exec (.persistConfirmation k) s = execPersistConfirmation k s := rfl
theorem exec_nodeQualifiedRemoteAccess (asid va write data : Nat) : exec (.nodeQualifiedRemoteAccess asid va write data) s = execNodeQualifiedRemoteAccess asid va write data s := rfl
theorem exec_hostPortUp (port : Nat) : exec (.hostPortUp port) s = execHostPortUp port s := rfl
theorem exec_fabricPortUp (port : Nat) : exec (.fabricPortUp port) s = execFabricPortUp port s := rfl
theorem exec_conePointRecovery (site : Nat) : exec (.conePointRecovery site) s = execConePointRecovery site s := rfl
theorem exec_nop : exec .nop s = execNop s := rfl
theorem exec_psync : exec .psync s = execPsync s := rfl
theorem exec_qsync : exec .qsync s = execQsync s := rfl
theorem exec_ungang : exec .ungang s = execUngang s := rfl
theorem exec_mwait : exec .mwait s = execMwait s := rfl
theorem exec_yield : exec .yield s = execYield s := rfl
theorem exec_hend : exec .hend s = execHend s := rfl

end

/-- The meaning of an instruction that has words stands behind the common checks. -/
theorem exec_runs (i : Instr) (s : State) (h : encode i ≠ none) : ∃ body, exec i s = run i s body := by
  cases i with
  | brk o => rw [exec_brk]; unfold execBrk; exact ⟨_, rfl⟩
  | add o => rw [exec_add]; unfold execAdd; exact ⟨_, rfl⟩
  | sub o => rw [exec_sub]; unfold execSub; exact ⟨_, rfl⟩
  | and o => rw [exec_and]; unfold execAnd; exact ⟨_, rfl⟩
  | or o => rw [exec_or]; unfold execOr; exact ⟨_, rfl⟩
  | xor o => rw [exec_xor]; unfold execXor; exact ⟨_, rfl⟩
  | andn o => rw [exec_andn]; unfold execAndn; exact ⟨_, rfl⟩
  | orn o => rw [exec_orn]; unfold execOrn; exact ⟨_, rfl⟩
  | xnor o => rw [exec_xnor]; unfold execXnor; exact ⟨_, rfl⟩
  | sll o => rw [exec_sll]; unfold execSll; exact ⟨_, rfl⟩
  | srl o => rw [exec_srl]; unfold execSrl; exact ⟨_, rfl⟩
  | sra o => rw [exec_sra]; unfold execSra; exact ⟨_, rfl⟩
  | rol o => rw [exec_rol]; unfold execRol; exact ⟨_, rfl⟩
  | ror o => rw [exec_ror]; unfold execRor; exact ⟨_, rfl⟩
  | slt o => rw [exec_slt]; unfold execSlt; exact ⟨_, rfl⟩
  | sltu o => rw [exec_sltu]; unfold execSltu; exact ⟨_, rfl⟩
  | seq o => rw [exec_seq]; unfold execSeq; exact ⟨_, rfl⟩
  | min o => rw [exec_min]; unfold execMin; exact ⟨_, rfl⟩
  | max o => rw [exec_max]; unfold execMax; exact ⟨_, rfl⟩
  | minu o => rw [exec_minu]; unfold execMinu; exact ⟨_, rfl⟩
  | maxu o => rw [exec_maxu]; unfold execMaxu; exact ⟨_, rfl⟩
  | mul o => rw [exec_mul]; unfold execMul; exact ⟨_, rfl⟩
  | mulh o => rw [exec_mulh]; unfold execMulh; exact ⟨_, rfl⟩
  | mulhu o => rw [exec_mulhu]; unfold execMulhu; exact ⟨_, rfl⟩
  | mulhsu o => rw [exec_mulhsu]; unfold execMulhsu; exact ⟨_, rfl⟩
  | div o => rw [exec_div]; unfold execDiv; exact ⟨_, rfl⟩
  | divu o => rw [exec_divu]; unfold execDivu; exact ⟨_, rfl⟩
  | rem o => rw [exec_rem]; unfold execRem; exact ⟨_, rfl⟩
  | remu o => rw [exec_remu]; unfold execRemu; exact ⟨_, rfl⟩
  | clz o => rw [exec_clz]; unfold execClz; exact ⟨_, rfl⟩
  | ctz o => rw [exec_ctz]; unfold execCtz; exact ⟨_, rfl⟩
  | popc o => rw [exec_popc]; unfold execPopc; exact ⟨_, rfl⟩
  | bswap o => rw [exec_bswap]; unfold execBswap; exact ⟨_, rfl⟩
  | sext o => rw [exec_sext]; unfold execSext; exact ⟨_, rfl⟩
  | zext o => rw [exec_zext]; unfold execZext; exact ⟨_, rfl⟩
  | addw o => rw [exec_addw]; unfold execAddw; exact ⟨_, rfl⟩
  | subw o => rw [exec_subw]; unfold execSubw; exact ⟨_, rfl⟩
  | mulw o => rw [exec_mulw]; unfold execMulw; exact ⟨_, rfl⟩
  | cmovz o => rw [exec_cmovz]; unfold execCmovz; exact ⟨_, rfl⟩
  | cmovnz o => rw [exec_cmovnz]; unfold execCmovnz; exact ⟨_, rfl⟩
  | addiI16 o => rw [exec_addiI16]; unfold execAddiI16; exact ⟨_, rfl⟩
  | addiWi o => rw [exec_addiWi]; unfold execAddiWi; exact ⟨_, rfl⟩
  | addiXi o => rw [exec_addiXi]; unfold execAddiXi; exact ⟨_, rfl⟩
  | andiI16 o => rw [exec_andiI16]; unfold execAndiI16; exact ⟨_, rfl⟩
  | andiWi o => rw [exec_andiWi]; unfold execAndiWi; exact ⟨_, rfl⟩
  | andiXi o => rw [exec_andiXi]; unfold execAndiXi; exact ⟨_, rfl⟩
  | oriI16 o => rw [exec_oriI16]; unfold execOriI16; exact ⟨_, rfl⟩
  | oriWi o => rw [exec_oriWi]; unfold execOriWi; exact ⟨_, rfl⟩
  | oriXi o => rw [exec_oriXi]; unfold execOriXi; exact ⟨_, rfl⟩
  | xoriI16 o => rw [exec_xoriI16]; unfold execXoriI16; exact ⟨_, rfl⟩
  | xoriWi o => rw [exec_xoriWi]; unfold execXoriWi; exact ⟨_, rfl⟩
  | xoriXi o => rw [exec_xoriXi]; unfold execXoriXi; exact ⟨_, rfl⟩
  | sltiI16 o => rw [exec_sltiI16]; unfold execSltiI16; exact ⟨_, rfl⟩
  | sltiWi o => rw [exec_sltiWi]; unfold execSltiWi; exact ⟨_, rfl⟩
  | sltiXi o => rw [exec_sltiXi]; unfold execSltiXi; exact ⟨_, rfl⟩
  | sltiuI16 o => rw [exec_sltiuI16]; unfold execSltiuI16; exact ⟨_, rfl⟩
  | sltiuWi o => rw [exec_sltiuWi]; unfold execSltiuWi; exact ⟨_, rfl⟩
  | sltiuXi o => rw [exec_sltiuXi]; unfold execSltiuXi; exact ⟨_, rfl⟩
  | shiI16 o => rw [exec_shiI16]; unfold execShiI16; exact ⟨_, rfl⟩
  | shiWi o => rw [exec_shiWi]; unfold execShiWi; exact ⟨_, rfl⟩
  | shiXi o => rw [exec_shiXi]; unfold execShiXi; exact ⟨_, rfl⟩
  | muliI16 o => rw [exec_muliI16]; unfold execMuliI16; exact ⟨_, rfl⟩
  | muliWi o => rw [exec_muliWi]; unfold execMuliWi; exact ⟨_, rfl⟩
  | muliXi o => rw [exec_muliXi]; unfold execMuliXi; exact ⟨_, rfl⟩
  | adda o => rw [exec_adda]; unfold execAdda; exact ⟨_, rfl⟩
  | addiaWi o => rw [exec_addiaWi]; unfold execAddiaWi; exact ⟨_, rfl⟩
  | addiaXi o => rw [exec_addiaXi]; unfold execAddiaXi; exact ⟨_, rfl⟩
  | scalea o => rw [exec_scalea]; unfold execScalea; exact ⟨_, rfl⟩
  | pfmt o => rw [exec_pfmt]; unfold execPfmt; exact ⟨_, rfl⟩
  | gfmt o => rw [exec_gfmt]; unfold execGfmt; exact ⟨_, rfl⟩
  | clrfmt o => rw [exec_clrfmt]; unfold execClrfmt; exact ⟨_, rfl⟩
  | suba o => rw [exec_suba]; unfold execSuba; exact ⟨_, rfl⟩
  | liI16 o => rw [exec_liI16]; unfold execLiI16; exact ⟨_, rfl⟩
  | liI32 o => rw [exec_liI32]; unfold execLiI32; exact ⟨_, rfl⟩
  | liL64 o => rw [exec_liL64]; unfold execLiL64; exact ⟨_, rfl⟩
  | lpc o => rw [exec_lpc]; unfold execLpc; exact ⟨_, rfl⟩
  | mov o => rw [exec_mov]; unfold execMov; exact ⟨_, rfl⟩
  | csrr o => rw [exec_csrr]; unfold execCsrr; exact ⟨_, rfl⟩
  | csrw o => rw [exec_csrw]; unfold execCsrw; exact ⟨_, rfl⟩
  | csrs o => rw [exec_csrs]; unfold execCsrs; exact ⟨_, rfl⟩
  | csrc o => rw [exec_csrc]; unfold execCsrc; exact ⟨_, rfl⟩
  | csrx o => rw [exec_csrx]; unfold execCsrx; exact ⟨_, rfl⟩
  | j o => rw [exec_j]; unfold execJ; exact ⟨_, rfl⟩
  | jal o => rw [exec_jal]; unfold execJal; exact ⟨_, rfl⟩
  | jalr o => rw [exec_jalr]; unfold execJalr; exact ⟨_, rfl⟩
  | beq o => rw [exec_beq]; unfold execBeq; exact ⟨_, rfl⟩
  | bne o => rw [exec_bne]; unfold execBne; exact ⟨_, rfl⟩
  | blt o => rw [exec_blt]; unfold execBlt; exact ⟨_, rfl⟩
  | bge o => rw [exec_bge]; unfold execBge; exact ⟨_, rfl⟩
  | bltu o => rw [exec_bltu]; unfold execBltu; exact ⟨_, rfl⟩
  | bgeu o => rw [exec_bgeu]; unfold execBgeu; exact ⟨_, rfl⟩
  | bms o => rw [exec_bms]; unfold execBms; exact ⟨_, rfl⟩
  | bmc o => rw [exec_bmc]; unfold execBmc; exact ⟨_, rfl⟩
  | fadd o => rw [exec_fadd]; unfold execFadd; exact ⟨_, rfl⟩
  | fsub o => rw [exec_fsub]; unfold execFsub; exact ⟨_, rfl⟩
  | fmul o => rw [exec_fmul]; unfold execFmul; exact ⟨_, rfl⟩
  | fdiv o => rw [exec_fdiv]; unfold execFdiv; exact ⟨_, rfl⟩
  | fsqrt o => rw [exec_fsqrt]; unfold execFsqrt; exact ⟨_, rfl⟩
  | fmin o => rw [exec_fmin]; unfold execFmin; exact ⟨_, rfl⟩
  | fmax o => rw [exec_fmax]; unfold execFmax; exact ⟨_, rfl⟩
  | fcmp o => rw [exec_fcmp]; unfold execFcmp; exact ⟨_, rfl⟩
  | fma o => rw [exec_fma]; unfold execFma; exact ⟨_, rfl⟩
  | fcvt o => rw [exec_fcvt]; unfold execFcvt; exact ⟨_, rfl⟩
  | fclass o => rw [exec_fclass]; unfold execFclass; exact ⟨_, rfl⟩
  | ldb o => rw [exec_ldb]; unfold execLdb; exact ⟨_, rfl⟩
  | ldbu o => rw [exec_ldbu]; unfold execLdbu; exact ⟨_, rfl⟩
  | ldh o => rw [exec_ldh]; unfold execLdh; exact ⟨_, rfl⟩
  | ldhu o => rw [exec_ldhu]; unfold execLdhu; exact ⟨_, rfl⟩
  | ldw o => rw [exec_ldw]; unfold execLdw; exact ⟨_, rfl⟩
  | ldwu o => rw [exec_ldwu]; unfold execLdwu; exact ⟨_, rfl⟩
  | ldd o => rw [exec_ldd]; unfold execLdd; exact ⟨_, rfl⟩
  | ldaq o => rw [exec_ldaq]; unfold execLdaq; exact ⟨_, rfl⟩
  | stb o => rw [exec_stb]; unfold execStb; exact ⟨_, rfl⟩
  | sth o => rw [exec_sth]; unfold execSth; exact ⟨_, rfl⟩
  | stw o => rw [exec_stw]; unfold execStw; exact ⟨_, rfl⟩
  | std o => rw [exec_std]; unfold execStd; exact ⟨_, rfl⟩
  | strl o => rw [exec_strl]; unfold execStrl; exact ⟨_, rfl⟩
  | strlw o => rw [exec_strlw]; unfold execStrlw; exact ⟨_, rfl⟩
  | ldaqw o => rw [exec_ldaqw]; unfold execLdaqw; exact ⟨_, rfl⟩
  | mstd o => rw [exec_mstd]; unfold execMstd; exact ⟨_, rfl⟩
  | amo o => rw [exec_amo]; unfold execAmo; exact ⟨_, rfl⟩
  | cas o => rw [exec_cas]; unfold execCas; exact ⟨_, rfl⟩
  | fence o => rw [exec_fence]; unfold execFence; exact ⟨_, rfl⟩
  | pflush o => rw [exec_pflush]; unfold execPflush; exact ⟨_, rfl⟩
  | clwb o => rw [exec_clwb]; unfold execClwb; exact ⟨_, rfl⟩
  | acopy o => rw [exec_acopy]; unfold execAcopy; exact ⟨_, rfl⟩
  | acopy2d o => rw [exec_acopy2d]; unfold execAcopy2d; exact ⟨_, rfl⟩
  | agather o => rw [exec_agather]; unfold execAgather; exact ⟨_, rfl⟩
  | acoll o => rw [exec_acoll]; unfold execAcoll; exact ⟨_, rfl⟩
  | glaze o => rw [exec_glaze]; unfold execGlaze; exact ⟨_, rfl⟩
  | wbind o => rw [exec_wbind]; unfold execWbind; exact ⟨_, rfl⟩
  | wread o => rw [exec_wread]; unfold execWread; exact ⟨_, rfl⟩
  | acancel o => rw [exec_acancel]; unfold execAcancel; exact ⟨_, rfl⟩
  | setvl o => rw [exec_setvl]; unfold execSetvl; exact ⟨_, rfl⟩
  | vsett o => rw [exec_vsett]; unfold execVsett; exact ⟨_, rfl⟩
  | vsettx o => rw [exec_vsettx]; unfold execVsettx; exact ⟨_, rfl⟩
  | slip o => rw [exec_slip]; unfold execSlip; exact ⟨_, rfl⟩
  | gang o => rw [exec_gang]; unfold execGang; exact ⟨_, rfl⟩
  | vadd o => rw [exec_vadd]; unfold execVadd; exact ⟨_, rfl⟩
  | vsub o => rw [exec_vsub]; unfold execVsub; exact ⟨_, rfl⟩
  | vand o => rw [exec_vand]; unfold execVand; exact ⟨_, rfl⟩
  | vor o => rw [exec_vor]; unfold execVor; exact ⟨_, rfl⟩
  | vxor o => rw [exec_vxor]; unfold execVxor; exact ⟨_, rfl⟩
  | vsll o => rw [exec_vsll]; unfold execVsll; exact ⟨_, rfl⟩
  | vsrl o => rw [exec_vsrl]; unfold execVsrl; exact ⟨_, rfl⟩
  | vsra o => rw [exec_vsra]; unfold execVsra; exact ⟨_, rfl⟩
  | vmul o => rw [exec_vmul]; unfold execVmul; exact ⟨_, rfl⟩
  | vmulh o => rw [exec_vmulh]; unfold execVmulh; exact ⟨_, rfl⟩
  | vmin o => rw [exec_vmin]; unfold execVmin; exact ⟨_, rfl⟩
  | vmax o => rw [exec_vmax]; unfold execVmax; exact ⟨_, rfl⟩
  | vsadd o => rw [exec_vsadd]; unfold execVsadd; exact ⟨_, rfl⟩
  | vssub o => rw [exec_vssub]; unfold execVssub; exact ⟨_, rfl⟩
  | vcmp o => rw [exec_vcmp]; unfold execVcmp; exact ⟨_, rfl⟩
  | vmerge o => rw [exec_vmerge]; unfold execVmerge; exact ⟨_, rfl⟩
  | vfadd o => rw [exec_vfadd]; unfold execVfadd; exact ⟨_, rfl⟩
  | vfsub o => rw [exec_vfsub]; unfold execVfsub; exact ⟨_, rfl⟩
  | vfmul o => rw [exec_vfmul]; unfold execVfmul; exact ⟨_, rfl⟩
  | vfdiv o => rw [exec_vfdiv]; unfold execVfdiv; exact ⟨_, rfl⟩
  | vfmin o => rw [exec_vfmin]; unfold execVfmin; exact ⟨_, rfl⟩
  | vfmax o => rw [exec_vfmax]; unfold execVfmax; exact ⟨_, rfl⟩
  | vfcmp o => rw [exec_vfcmp]; unfold execVfcmp; exact ⟨_, rfl⟩
  | vfsqrt o => rw [exec_vfsqrt]; unfold execVfsqrt; exact ⟨_, rfl⟩
  | vfma o => rw [exec_vfma]; unfold execVfma; exact ⟨_, rfl⟩
  | vfnma o => rw [exec_vfnma]; unfold execVfnma; exact ⟨_, rfl⟩
  | vfcvt o => rw [exec_vfcvt]; unfold execVfcvt; exact ⟨_, rfl⟩
  | vfclass o => rw [exec_vfclass]; unfold execVfclass; exact ⟨_, rfl⟩
  | vfscale o => rw [exec_vfscale]; unfold execVfscale; exact ⟨_, rfl⟩
  | vfsgn o => rw [exec_vfsgn]; unfold execVfsgn; exact ⟨_, rfl⟩
  | vredsum o => rw [exec_vredsum]; unfold execVredsum; exact ⟨_, rfl⟩
  | vfredsum o => rw [exec_vfredsum]; unfold execVfredsum; exact ⟨_, rfl⟩
  | vredmax o => rw [exec_vredmax]; unfold execVredmax; exact ⟨_, rfl⟩
  | vfredmax o => rw [exec_vfredmax]; unfold execVfredmax; exact ⟨_, rfl⟩
  | vslide o => rw [exec_vslide]; unfold execVslide; exact ⟨_, rfl⟩
  | vperm o => rw [exec_vperm]; unfold execVperm; exact ⟨_, rfl⟩
  | vcompress o => rw [exec_vcompress]; unfold execVcompress; exact ⟨_, rfl⟩
  | vexpand o => rw [exec_vexpand]; unfold execVexpand; exact ⟨_, rfl⟩
  | vmovx o => rw [exec_vmovx]; unfold execVmovx; exact ⟨_, rfl⟩
  | vins o => rw [exec_vins]; unfold execVins; exact ⟨_, rfl⟩
  | vsplat o => rw [exec_vsplat]; unfold execVsplat; exact ⟨_, rfl⟩
  | viota o => rw [exec_viota]; unfold execViota; exact ⟨_, rfl⟩
  | vmov o => rw [exec_vmov]; unfold execVmov; exact ⟨_, rfl⟩
  | mand o => rw [exec_mand]; unfold execMand; exact ⟨_, rfl⟩
  | mor o => rw [exec_mor]; unfold execMor; exact ⟨_, rfl⟩
  | mxor o => rw [exec_mxor]; unfold execMxor; exact ⟨_, rfl⟩
  | mandn o => rw [exec_mandn]; unfold execMandn; exact ⟨_, rfl⟩
  | mnot o => rw [exec_mnot]; unfold execMnot; exact ⟨_, rfl⟩
  | mpop o => rw [exec_mpop]; unfold execMpop; exact ⟨_, rfl⟩
  | mfirst o => rw [exec_mfirst]; unfold execMfirst; exact ⟨_, rfl⟩
  | msbf o => rw [exec_msbf]; unfold execMsbf; exact ⟨_, rfl⟩
  | vld o => rw [exec_vld]; unfold execVld; exact ⟨_, rfl⟩
  | vldx o => rw [exec_vldx]; unfold execVldx; exact ⟨_, rfl⟩
  | vst o => rw [exec_vst]; unfold execVst; exact ⟨_, rfl⟩
  | vstx o => rw [exec_vstx]; unfold execVstx; exact ⟨_, rfl⟩
  | vlds o => rw [exec_vlds]; unfold execVlds; exact ⟨_, rfl⟩
  | vsts o => rw [exec_vsts]; unfold execVsts; exact ⟨_, rfl⟩
  | mld o => rw [exec_mld]; unfold execMld; exact ⟨_, rfl⟩
  | mst o => rw [exec_mst]; unfold execMst; exact ⟨_, rfl⟩
  | vldl o => rw [exec_vldl]; unfold execVldl; exact ⟨_, rfl⟩
  | vstl o => rw [exec_vstl]; unfold execVstl; exact ⟨_, rfl⟩
  | ranka o => rw [exec_ranka]; unfold execRanka; exact ⟨_, rfl⟩
  | ranks o => rw [exec_ranks]; unfold execRanks; exact ⟨_, rfl⟩
  | mopak o => rw [exec_mopak]; unfold execMopak; exact ⟨_, rfl⟩
  | mzero o => rw [exec_mzero]; unfold execMzero; exact ⟨_, rfl⟩
  | mrd o => rw [exec_mrd]; unfold execMrd; exact ⟨_, rfl⟩
  | mwr o => rw [exec_mwr]; unfold execMwr; exact ⟨_, rfl⟩
  | mrowacc o => rw [exec_mrowacc]; unfold execMrowacc; exact ⟨_, rfl⟩
  | msta o => rw [exec_msta]; unfold execMsta; exact ⟨_, rfl⟩
  | mstat o => rw [exec_mstat]; unfold execMstat; exact ⟨_, rfl⟩
  | mlda o => rw [exec_mlda]; unfold execMlda; exact ⟨_, rfl⟩
  | mdrop o => rw [exec_mdrop]; unfold execMdrop; exact ⟨_, rfl⟩
  | ldref o => rw [exec_ldref]; unfold execLdref; exact ⟨_, rfl⟩
  | stref o => rw [exec_stref]; unfold execStref; exact ⟨_, rfl⟩
  | ldf o => rw [exec_ldf]; unfold execLdf; exact ⟨_, rfl⟩
  | stf o => rw [exec_stf]; unfold execStf; exact ⟨_, rfl⟩
  | pin o => rw [exec_pin]; unfold execPin; exact ⟨_, rfl⟩
  | unpin o => rw [exec_unpin]; unfold execUnpin; exact ⟨_, rfl⟩
  | qmov o => rw [exec_qmov]; unfold execQmov; exact ⟨_, rfl⟩
  | qcvtToRef o => rw [exec_qcvtToRef]; unfold execQcvtToRef; exact ⟨_, rfl⟩
  | qcvtFromRef o => rw [exec_qcvtFromRef]; unfold execQcvtFromRef; exact ⟨_, rfl⟩
  | refeq o => rw [exec_refeq]; unfold execRefeq; exact ⟨_, rfl⟩
  | spawn o => rw [exec_spawn]; unfold execSpawn; exact ⟨_, rfl⟩
  | join o => rw [exec_join]; unfold execJoin; exact ⟨_, rfl⟩
  | exit o => rw [exec_exit]; unfold execExit; exact ⟨_, rfl⟩
  | migrate o => rw [exec_migrate]; unfold execMigrate; exact ⟨_, rfl⟩
  | bar o => rw [exec_bar]; unfold execBar; exact ⟨_, rfl⟩
  | crewinfo o => rw [exec_crewinfo]; unfold execCrewinfo; exact ⟨_, rfl⟩
  | self o => rw [exec_self]; unfold execSelf; exact ⟨_, rfl⟩
  | msend o => rw [exec_msend]; unfold execMsend; exact ⟨_, rfl⟩
  | msenda o => rw [exec_msenda]; unfold execMsenda; exact ⟨_, rfl⟩
  | enqt o => rw [exec_enqt]; unfold execEnqt; exact ⟨_, rfl⟩
  | tdone o => rw [exec_tdone]; unfold execTdone; exact ⟨_, rfl⟩
  | grun o => rw [exec_grun]; unfold execGrun; exact ⟨_, rfl⟩
  | cbinv o => rw [exec_cbinv]; unfold execCbinv; exact ⟨_, rfl⟩
  | sysc o => rw [exec_sysc]; unfold execSysc; exact ⟨_, rfl⟩
  | sret o => rw [exec_sret]; unfold execSret; exact ⟨_, rfl⟩
  | wait o => rw [exec_wait]; unfold execWait; exact ⟨_, rfl⟩
  | xinv o => rw [exec_xinv]; unfold execXinv; exact ⟨_, rfl⟩
  | opreq o => rw [exec_opreq]; unfold execOpreq; exact ⟨_, rfl⟩
  | preempt o => rw [exec_preempt]; unfold execPreempt; exact ⟨_, rfl⟩
  | ctxstream o => rw [exec_ctxstream]; unfold execCtxstream; exact ⟨_, rfl⟩
  | serviceEntry core => exact absurd rfl h
  | handlerStart core => exact absurd rfl h
  | messageAnswer flight => exact absurd rfl h
  | msendaCompletion flight => exact absurd rfl h
  | vectorEntryExecute core k => exact absurd rfl h
  | matrixEntryExecute core => exact absurd rfl h
  | enginePiece op => exact absurd rfl h
  | tokenCompletion op => exact absurd rfl h
  | windowExchange op => exact absurd rfl h
  | collectiveTimeout op => exact absurd rfl h
  | remoteCopyTimeout op => exact absurd rfl h
  | liveMoveAck move => exact absurd rfl h
  | measuredMigration core => exact absurd rfl h
  | aging core => exact absurd rfl h
  | parkedWaitCheck core k => exact absurd rfl h
  | waitTimeout asid sid => exact absurd rfl h
  | overflowAdmit core => exact absurd rfl h
  | occupantZeroingDone core => exact absurd rfl h
  | schedulerPreempt site => exact absurd rfl h
  | watchdogT1 asid sid => exact absurd rfl h
  | watchdogT2 asid sid => exact absurd rfl h
  | watchdogT3 asid sid => exact absurd rfl h
  | jobTake asid queue => exact absurd rfl h
  | recordReady asid record => exact absurd rfl h
  | dispatch site => exact absurd rfl h
  | crewReservation site => exact absurd rfl h
  | eprioRaise asid queue => exact absurd rfl h
  | clusterTaskDispatch cluster => exact absurd rfl h
  | clusterTaskRecheck cluster k => exact absurd rfl h
  | queueCancel asid queue => exact absurd rfl h
  | eventsLostReport asid => exact absurd rfl h
  | syscRingRetry asid => exact absurd rfl h
  | syscResult asid pos => exact absurd rfl h
  | asbindBind port record => exact absurd rfl h
  | asbindUnbind port record => exact absurd rfl h
  | powerOnReset => exact absurd rfl h
  | modctlCold port => exact absurd rfl h
  | modctlWarm port => exact absurd rfl h
  | attestRequest port area => exact absurd rfl h
  | captureModeOff port => exact absurd rfl h
  | captureModeOn port ring logn => exact absurd rfl h
  | replayModeOn port ring logn => exact absurd rfl h
  | captureRingSpace => exact absurd rfl h
  | replayForceTimeout asid queue record => exact absurd rfl h
  | registerWrite port offset value => exact absurd rfl h
  | errorCorrected unitKind unit pa count => exact absurd rfl h
  | poisonCreated place unit addr => exact absurd rfl h
  | laneRetire core lane => exact absurd rfl h
  | matrixStepCheckFail core => exact absurd rfl h
  | coreFence core => exact absurd rfl h
  | opLimitLower tile => exact absurd rfl h
  | pseudoChannelFailing pc => exact absurd rfl h
  | linkDegrade link => exact absurd rfl h
  | moduleError => exact absurd rfl h
  | hostPortDown port => exact absurd rfl h
  | hostDeath port offset lines => exact absurd rfl h
  | poolFailure port offset bytes => exact absurd rfl h
  | cxlEngineFailure port => exact absurd rfl h
  | fabricPortDown port => exact absurd rfl h
  | thermalWarning site => exact absurd rfl h
  | thermalThrottle site => exact absurd rfl h
  | thermalCritical site => exact absurd rfl h
  | damperGrant tile => exact absurd rfl h
  | tileGate tile => exact absurd rfl h
  | tileWake tile => exact absurd rfl h
  | pointSwitch tile => exact absurd rfl h
  | atsCompletion k hpa rights => exact absurd rfl h
  | priResponse k code => exact absurd rfl h
  | priTimeout k => exact absurd rfl h
  | atsInvalidation port pasid va bytes => exact absurd rfl h
  | invalidationCompletion k => exact absurd rfl h
  | hostSnoop port addr => exact absurd rfl h
  | hostMemAccess port pa write data => exact absurd rfl h
  | pinAdmit site => exact absurd rfl h
  | hotnessWriteback site k => exact absurd rfl h
  | moveMigrate site => exact absurd rfl h
  | moveReplicate site => exact absurd rfl h
  | moveCollapse site => exact absurd rfl h
  | moveResetHotness site => exact absurd rfl h
  | flip => exact absurd rfl h
  | copy => exact absurd rfl h
  | free => exact absurd rfl h
  | errorLogSpace => exact absurd rfl h
  | persistConfirmation k => exact absurd rfl h
  | nodeQualifiedRemoteAccess asid va write data => exact absurd rfl h
  | hostPortUp port => exact absurd rfl h
  | fabricPortUp port => exact absurd rfl h
  | conePointRecovery site => exact absurd rfl h
  | nop => rw [exec_nop]; unfold execNop; exact ⟨_, rfl⟩
  | psync => rw [exec_psync]; unfold execPsync; exact ⟨_, rfl⟩
  | qsync => rw [exec_qsync]; unfold execQsync; exact ⟨_, rfl⟩
  | ungang => rw [exec_ungang]; unfold execUngang; exact ⟨_, rfl⟩
  | mwait => rw [exec_mwait]; unfold execMwait; exact ⟨_, rfl⟩
  | yield => rw [exec_yield]; unfold execYield; exact ⟨_, rfl⟩
  | hend => rw [exec_hend]; unfold execHend; exact ⟨_, rfl⟩

theorem next_ne_refused (t : State) (r : Refusal) : (Host.Outcome.next t : Host.Outcome State Fault Refusal) ≠ .refused r := by
  simp

theorem execHostMemAccess_not_refused (port pa write data : Nat) (s : State) (r : Refusal) :
    execHostMemAccess port pa write data s ≠ .refused r := by
  unfold execHostMemAccess
  dsimp only
  split
  · simp
  · split
    · simp
    · split
      · split <;> simp
      · split <;> simp

/-- No instruction and no event is refused. -/
theorem exec_not_refused (i : Instr) (s : State) (r : Refusal) : exec i s ≠ .refused r := by
  by_cases h : encode i = none
  · cases i with
    | serviceEntry core => rw [exec_serviceEntry]; exact next_ne_refused _ r
    | handlerStart core => rw [exec_handlerStart]; exact next_ne_refused _ r
    | messageAnswer flight => rw [exec_messageAnswer]; exact next_ne_refused _ r
    | msendaCompletion flight => rw [exec_msendaCompletion]; exact next_ne_refused _ r
    | vectorEntryExecute core k => rw [exec_vectorEntryExecute]; exact next_ne_refused _ r
    | matrixEntryExecute core => rw [exec_matrixEntryExecute]; exact next_ne_refused _ r
    | enginePiece op => rw [exec_enginePiece]; exact next_ne_refused _ r
    | tokenCompletion op => rw [exec_tokenCompletion]; exact next_ne_refused _ r
    | windowExchange op => rw [exec_windowExchange]; exact next_ne_refused _ r
    | collectiveTimeout op => rw [exec_collectiveTimeout]; exact next_ne_refused _ r
    | remoteCopyTimeout op => rw [exec_remoteCopyTimeout]; exact next_ne_refused _ r
    | liveMoveAck move => rw [exec_liveMoveAck]; exact next_ne_refused _ r
    | measuredMigration core => rw [exec_measuredMigration]; exact next_ne_refused _ r
    | aging core => rw [exec_aging]; exact next_ne_refused _ r
    | parkedWaitCheck core k => rw [exec_parkedWaitCheck]; exact next_ne_refused _ r
    | waitTimeout asid sid => rw [exec_waitTimeout]; exact next_ne_refused _ r
    | overflowAdmit core => rw [exec_overflowAdmit]; exact next_ne_refused _ r
    | occupantZeroingDone core => rw [exec_occupantZeroingDone]; exact next_ne_refused _ r
    | schedulerPreempt site => rw [exec_schedulerPreempt]; exact next_ne_refused _ r
    | watchdogT1 asid sid => rw [exec_watchdogT1]; exact next_ne_refused _ r
    | watchdogT2 asid sid => rw [exec_watchdogT2]; exact next_ne_refused _ r
    | watchdogT3 asid sid => rw [exec_watchdogT3]; exact next_ne_refused _ r
    | jobTake asid queue => rw [exec_jobTake]; exact next_ne_refused _ r
    | recordReady asid record => rw [exec_recordReady]; exact next_ne_refused _ r
    | dispatch site => rw [exec_dispatch]; exact next_ne_refused _ r
    | crewReservation site => rw [exec_crewReservation]; exact next_ne_refused _ r
    | eprioRaise asid queue => rw [exec_eprioRaise]; exact next_ne_refused _ r
    | clusterTaskDispatch cluster => rw [exec_clusterTaskDispatch]; exact next_ne_refused _ r
    | clusterTaskRecheck cluster k => rw [exec_clusterTaskRecheck]; exact next_ne_refused _ r
    | queueCancel asid queue => rw [exec_queueCancel]; exact next_ne_refused _ r
    | eventsLostReport asid => rw [exec_eventsLostReport]; exact next_ne_refused _ r
    | syscRingRetry asid => rw [exec_syscRingRetry]; exact next_ne_refused _ r
    | syscResult asid pos => rw [exec_syscResult]; exact next_ne_refused _ r
    | asbindBind port record => rw [exec_asbindBind]; exact next_ne_refused _ r
    | asbindUnbind port record => rw [exec_asbindUnbind]; exact next_ne_refused _ r
    | powerOnReset => rw [exec_powerOnReset]; exact next_ne_refused _ r
    | modctlCold port => rw [exec_modctlCold]; exact next_ne_refused _ r
    | modctlWarm port => rw [exec_modctlWarm]; exact next_ne_refused _ r
    | attestRequest port area => rw [exec_attestRequest]; exact next_ne_refused _ r
    | captureModeOff port => rw [exec_captureModeOff]; exact next_ne_refused _ r
    | captureModeOn port ring logn => rw [exec_captureModeOn]; exact next_ne_refused _ r
    | replayModeOn port ring logn => rw [exec_replayModeOn]; exact next_ne_refused _ r
    | captureRingSpace => rw [exec_captureRingSpace]; exact next_ne_refused _ r
    | replayForceTimeout asid queue record => rw [exec_replayForceTimeout]; exact next_ne_refused _ r
    | registerWrite port offset value => rw [exec_registerWrite]; exact next_ne_refused _ r
    | errorCorrected unitKind unit pa count => rw [exec_errorCorrected]; exact next_ne_refused _ r
    | poisonCreated place unit addr => rw [exec_poisonCreated]; exact next_ne_refused _ r
    | laneRetire core lane => rw [exec_laneRetire]; exact next_ne_refused _ r
    | matrixStepCheckFail core => rw [exec_matrixStepCheckFail]; exact next_ne_refused _ r
    | coreFence core => rw [exec_coreFence]; exact next_ne_refused _ r
    | opLimitLower tile => rw [exec_opLimitLower]; exact next_ne_refused _ r
    | pseudoChannelFailing pc => rw [exec_pseudoChannelFailing]; exact next_ne_refused _ r
    | linkDegrade link => rw [exec_linkDegrade]; exact next_ne_refused _ r
    | moduleError => rw [exec_moduleError]; exact next_ne_refused _ r
    | hostPortDown port => rw [exec_hostPortDown]; exact next_ne_refused _ r
    | hostDeath port offset lines => rw [exec_hostDeath]; exact next_ne_refused _ r
    | poolFailure port offset bytes => rw [exec_poolFailure]; exact next_ne_refused _ r
    | cxlEngineFailure port => rw [exec_cxlEngineFailure]; exact next_ne_refused _ r
    | fabricPortDown port => rw [exec_fabricPortDown]; exact next_ne_refused _ r
    | thermalWarning site => rw [exec_thermalWarning]; exact next_ne_refused _ r
    | thermalThrottle site => rw [exec_thermalThrottle]; exact next_ne_refused _ r
    | thermalCritical site => rw [exec_thermalCritical]; exact next_ne_refused _ r
    | damperGrant tile => rw [exec_damperGrant]; exact next_ne_refused _ r
    | tileGate tile => rw [exec_tileGate]; exact next_ne_refused _ r
    | tileWake tile => rw [exec_tileWake]; exact next_ne_refused _ r
    | pointSwitch tile => rw [exec_pointSwitch]; exact next_ne_refused _ r
    | atsCompletion k hpa rights => rw [exec_atsCompletion]; exact next_ne_refused _ r
    | priResponse k code => rw [exec_priResponse]; exact next_ne_refused _ r
    | priTimeout k => rw [exec_priTimeout]; exact next_ne_refused _ r
    | atsInvalidation port pasid va bytes => rw [exec_atsInvalidation]; exact next_ne_refused _ r
    | invalidationCompletion k => rw [exec_invalidationCompletion]; exact next_ne_refused _ r
    | hostSnoop port addr => rw [exec_hostSnoop]; exact next_ne_refused _ r
    | hostMemAccess port pa write data => rw [exec_hostMemAccess]; exact execHostMemAccess_not_refused _ _ _ _ s r
    | pinAdmit site => rw [exec_pinAdmit]; exact next_ne_refused _ r
    | hotnessWriteback site k => rw [exec_hotnessWriteback]; exact next_ne_refused _ r
    | moveMigrate site => rw [exec_moveMigrate]; exact next_ne_refused _ r
    | moveReplicate site => rw [exec_moveReplicate]; exact next_ne_refused _ r
    | moveCollapse site => rw [exec_moveCollapse]; exact next_ne_refused _ r
    | moveResetHotness site => rw [exec_moveResetHotness]; exact next_ne_refused _ r
    | flip => rw [exec_flip]; exact next_ne_refused _ r
    | copy => rw [exec_copy]; exact next_ne_refused _ r
    | free => rw [exec_free]; exact next_ne_refused _ r
    | errorLogSpace => rw [exec_errorLogSpace]; exact next_ne_refused _ r
    | persistConfirmation k => rw [exec_persistConfirmation]; exact next_ne_refused _ r
    | nodeQualifiedRemoteAccess asid va write data => rw [exec_nodeQualifiedRemoteAccess]; exact next_ne_refused _ r
    | hostPortUp port => rw [exec_hostPortUp]; exact next_ne_refused _ r
    | fabricPortUp port => rw [exec_fabricPortUp]; exact next_ne_refused _ r
    | conePointRecovery site => rw [exec_conePointRecovery]; exact next_ne_refused _ r
    | _ => exact absurd h (by intro e; cases e)
  · obtain ⟨body, hb⟩ := exec_runs i s h
    rw [hb]; exact run_not_refused i s body r

end Sys2Proof.Machine
end

