-- ==== Sys2Proof/Laws/Memory.lean ====
section
/-! SUPPORT. Memory: every operation keeps the canonical form, a read gives what was written, and a write leaves every other byte alone. -/

namespace Sys2Proof.Machine

theorem Memory.wf_iff (m : Memory) : m.wf = true ↔
    m.cells.Pairwise (fun p q => p.1 < q.1) ∧ (∀ c ∈ m.cells, c.2 ≠ 0) ∧ m.poison.Pairwise (· < ·) := by
  simp [Memory.wf, and_assoc]

theorem reset_mem_wf : State.reset.mem.wf = true := rfl

/-! ### Cells -/

theorem mem_cellsOf {c : Host.Cell} {a : Nat} {bs : List Byte} (h : c ∈ cellsOf a bs) :
    a ≤ c.1 ∧ c.1 < a + bs.length ∧ c.2 ≠ 0 := by
  induction bs generalizing a with
  | nil => simp [cellsOf] at h
  | cons b t ih =>
    simp only [cellsOf] at h
    split at h
    · obtain ⟨h1, h2, h3⟩ := ih h
      exact ⟨by omega, by simp only [List.length_cons]; omega, h3⟩
    · rcases List.mem_cons.mp h with rfl | h
      · exact ⟨le_refl _, by simp, by assumption⟩
      · obtain ⟨h1, h2, h3⟩ := ih h
        exact ⟨by omega, by simp only [List.length_cons]; omega, h3⟩

theorem cellsOf_rising (a : Nat) (bs : List Byte) : (cellsOf a bs).Pairwise (fun p q => p.1 < q.1) := by
  induction bs generalizing a with
  | nil => simp [cellsOf]
  | cons b t ih =>
    simp only [cellsOf]
    split
    · exact ih _
    · exact List.pairwise_cons.mpr ⟨fun c hc => (mem_cellsOf hc).1, ih _⟩

theorem spliceCells_rising {cells : List Host.Cell} (h : cells.Pairwise (fun p q => p.1 < q.1)) (a : Nat) (bs : List Byte) :
    (spliceCells cells a bs).Pairwise (fun p q => p.1 < q.1) := by
  simp only [spliceCells, List.pairwise_append, List.mem_append, List.mem_filter, decide_eq_true_eq]
  refine ⟨⟨h.filter _, cellsOf_rising _ _, ?_⟩, h.filter _, ?_⟩
  · rintro p ⟨_, hp⟩ q hq
    exact lt_of_lt_of_le hp (mem_cellsOf hq).1
  · rintro p (⟨_, hp⟩ | hp) q ⟨_, hq⟩
    · omega
    · exact lt_of_lt_of_le (mem_cellsOf hp).2.1 hq

/-! ### The canonical form is kept -/

theorem Memory.wf_writeBytes {m : Memory} (h : m.wf = true) (a : Nat) (bs : List Byte) : (m.writeBytes a bs).wf = true := by
  rw [Memory.wf_iff] at h ⊢
  obtain ⟨h1, h2, h3⟩ := h
  refine ⟨spliceCells_rising h1 a bs, ?_, h3.filter _⟩
  simp only [Memory.writeBytes, spliceCells, List.mem_append, List.mem_filter]
  rintro c ((⟨hc, _⟩ | hc) | ⟨hc, _⟩)
  · exact h2 c hc
  · exact (mem_cellsOf hc).2.2
  · exact h2 c hc

theorem Memory.wf_write {m : Memory} (h : m.wf = true) (a n v : Nat) : (m.write a n v).wf = true := Memory.wf_writeBytes h _ _

theorem Memory.wf_zero {m : Memory} (h : m.wf = true) (a n : Nat) : (m.zero a n).wf = true := by
  rw [Memory.wf_iff] at h ⊢
  exact ⟨h.1.filter _, fun c hc => h.2.1 c (List.mem_filter.mp hc).1, h.2.2.filter _⟩

theorem mem_insertRising {p q : Nat} {l : List Nat} : q ∈ insertRising p l ↔ q = p ∨ q ∈ l := by
  induction l with
  | nil => simp [insertRising]
  | cons r t ih =>
    simp only [insertRising]
    split
    · simp
    · split
      · next h => subst h; simp
      · simp only [List.mem_cons, ih]; tauto

theorem insertRising_rising {p : Nat} {l : List Nat} (h : l.Pairwise (· < ·)) : (insertRising p l).Pairwise (· < ·) := by
  induction l with
  | nil => simp [insertRising]
  | cons r t ih =>
    obtain ⟨h1, h2⟩ := List.pairwise_cons.mp h
    simp only [insertRising]
    split
    · next hp => exact List.pairwise_cons.mpr ⟨fun x hx => by rcases List.mem_cons.mp hx with rfl | hx; exact hp; exact hp.trans (h1 x hx), h⟩
    · split
      · exact h
      · refine List.pairwise_cons.mpr ⟨fun x hx => ?_, ih h2⟩
        rcases mem_insertRising.mp hx with rfl | hx
        · omega
        · exact h1 x hx

theorem Memory.wf_setPoison {m : Memory} (h : m.wf = true) (atom : Nat) : (m.setPoison atom).wf = true := by
  rw [Memory.wf_iff] at h ⊢
  exact ⟨h.1, h.2.1, insertRising_rising h.2.2⟩

theorem Memory.wf_copy {m : Memory} (h : m.wf = true) (src dst n : Nat) : (m.copy src dst n).wf = true := by
  simp only [Memory.copy]
  generalize m.poison.filter _ = ps
  have hw : (m.writeBytes dst (m.bytes src n)).wf = true := Memory.wf_writeBytes h _ _
  generalize m.writeBytes dst (m.bytes src n) = w at hw
  induction ps generalizing w with
  | nil => exact hw
  | cons p t ih => exact ih _ (Memory.wf_setPoison (Memory.wf_setPoison hw _) _)

theorem Memory.wf_afterReset {m : Memory} (h : m.wf = true) (cold : Bool) : (m.afterReset cold).wf = true := by
  rw [Memory.wf_iff] at h ⊢
  refine ⟨h.1.filter _, fun c hc => h.2.1 c (List.mem_filter.mp hc).1, h.2.2.filter _⟩

theorem Memory.wf_poisonIf {m : Memory} (h : m.wf = true) (n : Nat) (p : Nat → Bool) : (m.poisonIf n p).wf = true := by
  rw [Memory.wf_iff] at h ⊢
  refine ⟨h.1, h.2.1, List.pairwise_append.mpr ⟨?_, h.2.2.filter _, fun a ha b hb => ?_⟩⟩
  · exact List.Pairwise.filter _ (List.pairwise_lt_range' _)
  · have h1 := (List.mem_filter.mp ha).1
    have h2 := (List.mem_filter.mp hb).2
    simp only [upTo, List.mem_range'_1, decide_eq_true_eq] at h1 h2
    omega

/-! ### Reads after writes -/

theorem lookupCell_append (a : Nat) (k l : List Host.Cell) :
    lookupCell a (k ++ l) = if k.any (fun c => c.1 == a) then lookupCell a k else lookupCell a l := by
  induction k with
  | nil => rfl
  | cons c t ih =>
    obtain ⟨j, b⟩ := c
    by_cases h : j = a
    · simp [lookupCell, h]
    · simp [lookupCell, h, ih]

theorem lookupCell_filter (a : Nat) (f : Host.Cell → Bool) (g : Nat → Bool) (hf : ∀ c, f c = g c.1) (l : List Host.Cell) :
    lookupCell a (l.filter f) = if g a then lookupCell a l else 0 := by
  induction l with
  | nil => simp [lookupCell]
  | cons c t ih =>
    obtain ⟨j, b⟩ := c
    rw [List.filter_cons, hf]
    by_cases hj : j = a
    · subst hj
      by_cases hg : g j = true
      · simp [hg, lookupCell]
      · simp [hg, ih]
    · by_cases hg : g j = true
      · simp [hg, lookupCell, hj, ih]
      · simp [hg, lookupCell, hj, ih]

theorem lookupCell_none {a : Nat} {l : List Host.Cell} (h : l.any (fun c => c.1 == a) = false) : lookupCell a l = 0 := by
  induction l with
  | nil => rfl
  | cons c t ih =>
    obtain ⟨j, b⟩ := c
    simp only [List.any_cons, Bool.or_eq_false_iff, beq_eq_false_iff_ne] at h
    simp [lookupCell, h.1, ih h.2]

theorem lookupCell_cellsOf (a k : Nat) (bs : List Byte) :
    lookupCell a (cellsOf k bs) = if k ≤ a ∧ a < k + bs.length then bs.getD (a - k) 0 else 0 := by
  induction bs generalizing k with
  | nil => simp [cellsOf, lookupCell]
  | cons b t ih =>
    have hrest := ih (k + 1)
    simp only [cellsOf, List.length_cons]
    by_cases hk : k = a
    · subst hk
      have h0 : lookupCell k (cellsOf (k + 1) t) = 0 := by rw [hrest, if_neg (by omega)]
      split
      · next hb => simp [h0, hb]
      · simp [lookupCell]
    · have hs : (if b = 0 then cellsOf (k + 1) t else (k, b) :: cellsOf (k + 1) t) = cellsOf (k + 1) t ∨
          (if b = 0 then cellsOf (k + 1) t else (k, b) :: cellsOf (k + 1) t) = (k, b) :: cellsOf (k + 1) t := by
        split <;> simp
      have hv : lookupCell a (if b = 0 then cellsOf (k + 1) t else (k, b) :: cellsOf (k + 1) t) =
          lookupCell a (cellsOf (k + 1) t) := by
        rcases hs with h | h <;> rw [h]
        simp [lookupCell, hk]
      rw [hv, hrest]
      by_cases hc : k + 1 ≤ a ∧ a < k + 1 + t.length
      · rw [if_pos hc, if_pos (by omega)]
        obtain ⟨d, hd⟩ : ∃ d, a - k = d + 1 := ⟨a - k - 1, by omega⟩
        rw [hd, show a - (k + 1) = d by omega]
        simp
      · rw [if_neg hc, if_neg (by omega)]

/-- A byte inside a write reads as written; every other byte reads as before. -/
theorem Memory.byte_writeBytes (m : Memory) (a : Nat) (bs : List Byte) (x : Nat) :
    (m.writeBytes a bs).byte x = if a ≤ x ∧ x < a + bs.length then bs.getD (x - a) 0 else m.byte x := by
  simp only [Memory.byte, Memory.writeBytes, spliceCells]
  have lo := lookupCell_filter x (fun c => decide (c.1 < a)) (fun k => decide (k < a)) (fun _ => rfl) m.cells
  have hi := lookupCell_filter x (fun c => decide (a + bs.length ≤ c.1)) (fun k => decide (a + bs.length ≤ k)) (fun _ => rfl) m.cells
  have key (l : List Host.Cell) (f : Host.Cell → Bool) (g : Nat → Bool) (hf : ∀ c, f c = g c.1) (hg : g x = false) :
      (l.filter f).any (fun c => c.1 == x) = false := by
    simp only [List.any_eq_false, List.mem_filter, beq_iff_eq]
    rintro c ⟨_, hc⟩ rfl
    rw [hf, hg] at hc
    exact absurd hc (by simp)
  have mid := lookupCell_cellsOf x a bs
  by_cases h1 : x < a
  · have hm : (cellsOf a bs).any (fun c => c.1 == x) = false := by
      simp only [List.any_eq_false, beq_iff_eq]
      intro c hc hx
      have := (mem_cellsOf hc).1
      omega
    have h3 := key m.cells (fun c => decide (a + bs.length ≤ c.1)) (fun k => decide (a + bs.length ≤ k)) (fun _ => rfl)
      (by simp only [decide_eq_false_iff_not]; omega)
    rw [if_neg (by omega), lookupCell_append, lookupCell_append]
    split
    · split
      · simpa [h1] using lo
      · next hn => rw [lookupCell_none hm]; simp only [Bool.not_eq_true] at hn; have := lookupCell_none hn; rw [lo] at this; simp [h1] at this; exact this.symm
    · next hn =>
      simp only [List.any_append, Bool.or_eq_true, not_or, Bool.not_eq_true] at hn
      rw [lookupCell_none h3]
      have := lookupCell_none hn.1
      rw [lo] at this
      simp [h1] at this
      exact this.symm
  · have h2 := key m.cells (fun c => decide (c.1 < a)) (fun k => decide (k < a)) (fun _ => rfl) (by simpa using h1)
    by_cases h4 : x < a + bs.length
    · have h3 := key m.cells (fun c => decide (a + bs.length ≤ c.1)) (fun k => decide (a + bs.length ≤ k)) (fun _ => rfl)
        (by simp only [decide_eq_false_iff_not]; omega)
      rw [if_pos (by omega), lookupCell_append, lookupCell_append, h2]
      rw [if_pos (by omega : a ≤ x ∧ x < a + bs.length)] at mid
      split
      · simpa using mid
      · next hn =>
        simp only [List.any_append, h2, Bool.false_or, Bool.not_eq_true] at hn
        rw [lookupCell_none h3, ← mid, lookupCell_none hn]
    · have hm : (cellsOf a bs).any (fun c => c.1 == x) = false := by
        simp only [List.any_eq_false, beq_iff_eq]
        intro c hc hx
        have := (mem_cellsOf hc).2.1
        omega
      rw [if_neg (by omega), lookupCell_append]
      simp only [List.any_append, h2, hm, Bool.or_self, Bool.false_eq_true, if_false]
      rw [hi, if_pos (by simp only [decide_eq_true_eq]; omega)]

/-- A byte of a zeroed range reads 0; every other byte reads as before. -/
theorem Memory.byte_zero (m : Memory) (a n x : Nat) :
    (m.zero a n).byte x = if a ≤ x ∧ x < a + n then 0 else m.byte x := by
  simp only [Memory.byte, Memory.zero]
  rw [lookupCell_filter x _ (fun k => !(decide (a ≤ k) && decide (k < a + n))) (fun _ => rfl)]
  by_cases h : a ≤ x ∧ x < a + n
  · simp [h]
  · rw [if_neg h, if_pos]
    simp only [Bool.not_eq_true', Bool.and_eq_false_iff, decide_eq_false_iff_not]
    omega

@[simp] theorem Memory.byte_setPoison (m : Memory) (atom x : Nat) : (m.setPoison atom).byte x = m.byte x := rfl

theorem Memory.length_bytes (m : Memory) (a n : Nat) : (m.bytes a n).length = n := by
  induction n generalizing a with
  | zero => rfl
  | succ n ih => simp [Memory.bytes, ih]

theorem Memory.bytes_getElem? (m : Memory) (a n i : Nat) (h : i < n) : (m.bytes a n)[i]? = some (m.byte (a + i)) := by
  induction n generalizing a i with
  | zero => omega
  | succ n ih =>
    cases i with
    | zero => simp [Memory.bytes]
    | succ i => simp [Memory.bytes, ih (a + 1) i (by omega), Nat.add_assoc, Nat.add_comm 1 i]

/-- A read of what was just written gives the bytes written. -/
theorem Memory.bytes_writeBytes (m : Memory) (a : Nat) (bs : List Byte) : (m.writeBytes a bs).bytes a bs.length = bs := by
  apply List.ext_getElem? fun i => ?_
  by_cases h : i < bs.length
  · rw [Memory.bytes_getElem? _ _ _ _ h, Memory.byte_writeBytes, if_pos (by omega)]
    simp [h]
  · rw [List.getElem?_eq_none (by rw [Memory.length_bytes]; omega), List.getElem?_eq_none (by omega)]

end Sys2Proof.Machine
end

