-- ==== Sys2Proof/Laws/PerInstr.lean ====
section
/-! SUPPORT. A lemma for every constructor of Instr: the tail of an instruction's words is no longer than its TL says (R69), and a step of
the machine has no words, names no register, needs no level and is no waiting instruction. -/

namespace Sys2Proof.Laws.Words

open Sys2Proof Sys2Proof.Machine

/-- The tail fits the length that TL names. -/
def Fits (e : Enc) : Prop := e.tail.toNat < 2 ^ (16 * tlLen e.tl.toNat)

def Statement (i : Instr) : Prop :=
  match encode i with
  | some e => Fits e
  | none => xUses i = [] ∧ isS i = false ∧ isWaiting i = false

theorem fits_e0 (m : BitVec 6) (s : BitVec 3) : Fits (e0 m s) := by simp [Fits, e0]
theorem fits_eN (m : BitVec 6) (s : BitVec 3) (o : LN) : Fits (eN m s o) := by simp [Fits, eN]
theorem fits_setWidth {n : Nat} (x : BitVec n) {k : Nat} (h : n ≤ k) : (x.setWidth 64).toNat < 2 ^ k := by
  rw [BitVec.toNat_setWidth]
  exact lt_of_le_of_lt (Nat.mod_le _ _) (lt_of_lt_of_le x.isLt (Nat.pow_le_pow_right (by decide) h))
theorem fits_eH (m : BitVec 6) (s : BitVec 3) (o : LH) : Fits (eH m s o) := fits_setWidth (packH o) (by simp [tlLen, eH])
theorem fits_eI16 (m : BitVec 6) (s : BitVec 3) (o : LI16) : Fits (eI16 m s o) := fits_setWidth (o.imm) (by simp [tlLen, eI16])
theorem fits_eI32 (m : BitVec 6) (s : BitVec 3) (o : LI32) : Fits (eI32 m s o) := fits_setWidth (o.imm) (by simp [tlLen, eI32])
theorem fits_eW (m : BitVec 6) (s : BitVec 3) (o : LW) : Fits (eW m s o) := fits_setWidth (packW o) (by simp [tlLen, eW])
theorem fits_eWI (m : BitVec 6) (s : BitVec 3) (o : LWI) : Fits (eWI m s o) := fits_setWidth (packWI o) (by simp [tlLen, eWI])
theorem fits_eM (m : BitVec 6) (s : BitVec 3) (o : LM) : Fits (eM m s o) := fits_setWidth (packM o) (by simp [tlLen, eM])
theorem fits_eB (m : BitVec 6) (s : BitVec 3) (o : LB) : Fits (eB m s o) := fits_setWidth (packB o) (by simp [tlLen, eB])
theorem fits_eV (m : BitVec 6) (s : BitVec 3) (o : LV) : Fits (eV m s o) := fits_setWidth (packV o) (by simp [tlLen, eV])
theorem fits_eXI (m : BitVec 6) (s : BitVec 3) (o : LXI) : Fits (eXI m s o) := (eXI m s o).tail.isLt
theorem fits_e64 (m : BitVec 6) (s : BitVec 3) (o : L64) : Fits (e64 m s o) := (e64 m s o).tail.isLt
theorem fits_eX (m : BitVec 6) (s : BitVec 3) (o : LX) : Fits (eX m s o) := (eX m s o).tail.isLt

theorem brk (o : LI16) : Statement (.brk o) := fits_eI16 _ _ o
theorem add (o : LH) : Statement (.add o) := fits_eH _ _ o
theorem sub (o : LH) : Statement (.sub o) := fits_eH _ _ o
theorem and (o : LH) : Statement (.and o) := fits_eH _ _ o
theorem or (o : LH) : Statement (.or o) := fits_eH _ _ o
theorem xor (o : LH) : Statement (.xor o) := fits_eH _ _ o
theorem andn (o : LH) : Statement (.andn o) := fits_eH _ _ o
theorem orn (o : LH) : Statement (.orn o) := fits_eH _ _ o
theorem xnor (o : LH) : Statement (.xnor o) := fits_eH _ _ o
theorem sll (o : LH) : Statement (.sll o) := fits_eH _ _ o
theorem srl (o : LH) : Statement (.srl o) := fits_eH _ _ o
theorem sra (o : LH) : Statement (.sra o) := fits_eH _ _ o
theorem rol (o : LH) : Statement (.rol o) := fits_eH _ _ o
theorem ror (o : LH) : Statement (.ror o) := fits_eH _ _ o
theorem slt (o : LH) : Statement (.slt o) := fits_eH _ _ o
theorem sltu (o : LH) : Statement (.sltu o) := fits_eH _ _ o
theorem seq (o : LH) : Statement (.seq o) := fits_eH _ _ o
theorem min (o : LH) : Statement (.min o) := fits_eH _ _ o
theorem max (o : LH) : Statement (.max o) := fits_eH _ _ o
theorem minu (o : LH) : Statement (.minu o) := fits_eH _ _ o
theorem maxu (o : LH) : Statement (.maxu o) := fits_eH _ _ o
theorem mul (o : LH) : Statement (.mul o) := fits_eH _ _ o
theorem mulh (o : LH) : Statement (.mulh o) := fits_eH _ _ o
theorem mulhu (o : LH) : Statement (.mulhu o) := fits_eH _ _ o
theorem mulhsu (o : LH) : Statement (.mulhsu o) := fits_eH _ _ o
theorem div (o : LH) : Statement (.div o) := fits_eH _ _ o
theorem divu (o : LH) : Statement (.divu o) := fits_eH _ _ o
theorem rem (o : LH) : Statement (.rem o) := fits_eH _ _ o
theorem remu (o : LH) : Statement (.remu o) := fits_eH _ _ o
theorem clz (o : LH) : Statement (.clz o) := fits_eH _ _ o
theorem ctz (o : LH) : Statement (.ctz o) := fits_eH _ _ o
theorem popc (o : LH) : Statement (.popc o) := fits_eH _ _ o
theorem bswap (o : LH) : Statement (.bswap o) := fits_eH _ _ o
theorem sext (o : LH) : Statement (.sext o) := fits_eH _ _ o
theorem zext (o : LH) : Statement (.zext o) := fits_eH _ _ o
theorem addw (o : LH) : Statement (.addw o) := fits_eH _ _ o
theorem subw (o : LH) : Statement (.subw o) := fits_eH _ _ o
theorem mulw (o : LH) : Statement (.mulw o) := fits_eH _ _ o
theorem cmovz (o : LH) : Statement (.cmovz o) := fits_eH _ _ o
theorem cmovnz (o : LH) : Statement (.cmovnz o) := fits_eH _ _ o
theorem addiI16 (o : LI16) : Statement (.addiI16 o) := fits_eI16 _ _ o
theorem addiWi (o : LWI) : Statement (.addiWi o) := fits_eWI _ _ o
theorem addiXi (o : LXI) : Statement (.addiXi o) := fits_eXI _ _ o
theorem andiI16 (o : LI16) : Statement (.andiI16 o) := fits_eI16 _ _ o
theorem andiWi (o : LWI) : Statement (.andiWi o) := fits_eWI _ _ o
theorem andiXi (o : LXI) : Statement (.andiXi o) := fits_eXI _ _ o
theorem oriI16 (o : LI16) : Statement (.oriI16 o) := fits_eI16 _ _ o
theorem oriWi (o : LWI) : Statement (.oriWi o) := fits_eWI _ _ o
theorem oriXi (o : LXI) : Statement (.oriXi o) := fits_eXI _ _ o
theorem xoriI16 (o : LI16) : Statement (.xoriI16 o) := fits_eI16 _ _ o
theorem xoriWi (o : LWI) : Statement (.xoriWi o) := fits_eWI _ _ o
theorem xoriXi (o : LXI) : Statement (.xoriXi o) := fits_eXI _ _ o
theorem sltiI16 (o : LI16) : Statement (.sltiI16 o) := fits_eI16 _ _ o
theorem sltiWi (o : LWI) : Statement (.sltiWi o) := fits_eWI _ _ o
theorem sltiXi (o : LXI) : Statement (.sltiXi o) := fits_eXI _ _ o
theorem sltiuI16 (o : LI16) : Statement (.sltiuI16 o) := fits_eI16 _ _ o
theorem sltiuWi (o : LWI) : Statement (.sltiuWi o) := fits_eWI _ _ o
theorem sltiuXi (o : LXI) : Statement (.sltiuXi o) := fits_eXI _ _ o
theorem shiI16 (o : LI16) : Statement (.shiI16 o) := fits_eI16 _ _ o
theorem shiWi (o : LWI) : Statement (.shiWi o) := fits_eWI _ _ o
theorem shiXi (o : LXI) : Statement (.shiXi o) := fits_eXI _ _ o
theorem muliI16 (o : LI16) : Statement (.muliI16 o) := fits_eI16 _ _ o
theorem muliWi (o : LWI) : Statement (.muliWi o) := fits_eWI _ _ o
theorem muliXi (o : LXI) : Statement (.muliXi o) := fits_eXI _ _ o
theorem adda (o : LH) : Statement (.adda o) := fits_eH _ _ o
theorem addiaWi (o : LWI) : Statement (.addiaWi o) := fits_eWI _ _ o
theorem addiaXi (o : LXI) : Statement (.addiaXi o) := fits_eXI _ _ o
theorem scalea (o : LH) : Statement (.scalea o) := fits_eH _ _ o
theorem pfmt (o : LI16) : Statement (.pfmt o) := fits_eI16 _ _ o
theorem gfmt (o : LH) : Statement (.gfmt o) := fits_eH _ _ o
theorem clrfmt (o : LH) : Statement (.clrfmt o) := fits_eH _ _ o
theorem suba (o : LH) : Statement (.suba o) := fits_eH _ _ o
theorem liI16 (o : LI16) : Statement (.liI16 o) := fits_eI16 _ _ o
theorem liI32 (o : LI32) : Statement (.liI32 o) := fits_eI32 _ _ o
theorem liL64 (o : L64) : Statement (.liL64 o) := fits_e64 _ _ o
theorem lpc (o : LWI) : Statement (.lpc o) := fits_eWI _ _ o
theorem mov (o : LH) : Statement (.mov o) := fits_eH _ _ o
theorem csrr (o : LI16) : Statement (.csrr o) := fits_eI16 _ _ o
theorem csrw (o : LI16) : Statement (.csrw o) := fits_eI16 _ _ o
theorem csrs (o : LI16) : Statement (.csrs o) := fits_eI16 _ _ o
theorem csrc (o : LI16) : Statement (.csrc o) := fits_eI16 _ _ o
theorem csrx (o : LI16) : Statement (.csrx o) := fits_eI16 _ _ o
theorem j (o : LWI) : Statement (.j o) := fits_eWI _ _ o
theorem jal (o : LWI) : Statement (.jal o) := fits_eWI _ _ o
theorem jalr (o : LH) : Statement (.jalr o) := fits_eH _ _ o
theorem beq (o : LB) : Statement (.beq o) := fits_eB _ _ o
theorem bne (o : LB) : Statement (.bne o) := fits_eB _ _ o
theorem blt (o : LB) : Statement (.blt o) := fits_eB _ _ o
theorem bge (o : LB) : Statement (.bge o) := fits_eB _ _ o
theorem bltu (o : LB) : Statement (.bltu o) := fits_eB _ _ o
theorem bgeu (o : LB) : Statement (.bgeu o) := fits_eB _ _ o
theorem bms (o : LB) : Statement (.bms o) := fits_eB _ _ o
theorem bmc (o : LB) : Statement (.bmc o) := fits_eB _ _ o
theorem fadd (o : LH) : Statement (.fadd o) := fits_eH _ _ o
theorem fsub (o : LH) : Statement (.fsub o) := fits_eH _ _ o
theorem fmul (o : LH) : Statement (.fmul o) := fits_eH _ _ o
theorem fdiv (o : LH) : Statement (.fdiv o) := fits_eH _ _ o
theorem fsqrt (o : LH) : Statement (.fsqrt o) := fits_eH _ _ o
theorem fmin (o : LH) : Statement (.fmin o) := fits_eH _ _ o
theorem fmax (o : LH) : Statement (.fmax o) := fits_eH _ _ o
theorem fcmp (o : LH) : Statement (.fcmp o) := fits_eH _ _ o
theorem fma (o : LW) : Statement (.fma o) := fits_eW _ _ o
theorem fcvt (o : LH) : Statement (.fcvt o) := fits_eH _ _ o
theorem fclass (o : LH) : Statement (.fclass o) := fits_eH _ _ o
theorem ldb (o : LM) : Statement (.ldb o) := fits_eM _ _ o
theorem ldbu (o : LM) : Statement (.ldbu o) := fits_eM _ _ o
theorem ldh (o : LM) : Statement (.ldh o) := fits_eM _ _ o
theorem ldhu (o : LM) : Statement (.ldhu o) := fits_eM _ _ o
theorem ldw (o : LM) : Statement (.ldw o) := fits_eM _ _ o
theorem ldwu (o : LM) : Statement (.ldwu o) := fits_eM _ _ o
theorem ldd (o : LM) : Statement (.ldd o) := fits_eM _ _ o
theorem ldaq (o : LM) : Statement (.ldaq o) := fits_eM _ _ o
theorem stb (o : LM) : Statement (.stb o) := fits_eM _ _ o
theorem sth (o : LM) : Statement (.sth o) := fits_eM _ _ o
theorem stw (o : LM) : Statement (.stw o) := fits_eM _ _ o
theorem std (o : LM) : Statement (.std o) := fits_eM _ _ o
theorem strl (o : LM) : Statement (.strl o) := fits_eM _ _ o
theorem strlw (o : LM) : Statement (.strlw o) := fits_eM _ _ o
theorem ldaqw (o : LM) : Statement (.ldaqw o) := fits_eM _ _ o
theorem mstd (o : LM) : Statement (.mstd o) := fits_eM _ _ o
theorem amo (o : LW) : Statement (.amo o) := fits_eW _ _ o
theorem cas (o : LW) : Statement (.cas o) := fits_eW _ _ o
theorem fence (o : LI16) : Statement (.fence o) := fits_eI16 _ _ o
theorem pflush (o : LM) : Statement (.pflush o) := fits_eM _ _ o
theorem clwb (o : LM) : Statement (.clwb o) := fits_eM _ _ o
theorem acopy (o : LX) : Statement (.acopy o) := fits_eX _ _ o
theorem acopy2d (o : LX) : Statement (.acopy2d o) := fits_eX _ _ o
theorem agather (o : LX) : Statement (.agather o) := fits_eX _ _ o
theorem acoll (o : LX) : Statement (.acoll o) := fits_eX _ _ o
theorem glaze (o : LX) : Statement (.glaze o) := fits_eX _ _ o
theorem wbind (o : LX) : Statement (.wbind o) := fits_eX _ _ o
theorem wread (o : LX) : Statement (.wread o) := fits_eX _ _ o
theorem acancel (o : LX) : Statement (.acancel o) := fits_eX _ _ o
theorem setvl (o : LH) : Statement (.setvl o) := fits_eH _ _ o
theorem vsett (o : LI16) : Statement (.vsett o) := fits_eI16 _ _ o
theorem vsettx (o : LH) : Statement (.vsettx o) := fits_eH _ _ o
theorem slip (o : LI16) : Statement (.slip o) := fits_eI16 _ _ o
theorem gang (o : LH) : Statement (.gang o) := fits_eH _ _ o
theorem vadd (o : LV) : Statement (.vadd o) := fits_eV _ _ o
theorem vsub (o : LV) : Statement (.vsub o) := fits_eV _ _ o
theorem vand (o : LV) : Statement (.vand o) := fits_eV _ _ o
theorem vor (o : LV) : Statement (.vor o) := fits_eV _ _ o
theorem vxor (o : LV) : Statement (.vxor o) := fits_eV _ _ o
theorem vsll (o : LV) : Statement (.vsll o) := fits_eV _ _ o
theorem vsrl (o : LV) : Statement (.vsrl o) := fits_eV _ _ o
theorem vsra (o : LV) : Statement (.vsra o) := fits_eV _ _ o
theorem vmul (o : LV) : Statement (.vmul o) := fits_eV _ _ o
theorem vmulh (o : LV) : Statement (.vmulh o) := fits_eV _ _ o
theorem vmin (o : LV) : Statement (.vmin o) := fits_eV _ _ o
theorem vmax (o : LV) : Statement (.vmax o) := fits_eV _ _ o
theorem vsadd (o : LV) : Statement (.vsadd o) := fits_eV _ _ o
theorem vssub (o : LV) : Statement (.vssub o) := fits_eV _ _ o
theorem vcmp (o : LV) : Statement (.vcmp o) := fits_eV _ _ o
theorem vmerge (o : LV) : Statement (.vmerge o) := fits_eV _ _ o
theorem vfadd (o : LV) : Statement (.vfadd o) := fits_eV _ _ o
theorem vfsub (o : LV) : Statement (.vfsub o) := fits_eV _ _ o
theorem vfmul (o : LV) : Statement (.vfmul o) := fits_eV _ _ o
theorem vfdiv (o : LV) : Statement (.vfdiv o) := fits_eV _ _ o
theorem vfmin (o : LV) : Statement (.vfmin o) := fits_eV _ _ o
theorem vfmax (o : LV) : Statement (.vfmax o) := fits_eV _ _ o
theorem vfcmp (o : LV) : Statement (.vfcmp o) := fits_eV _ _ o
theorem vfsqrt (o : LV) : Statement (.vfsqrt o) := fits_eV _ _ o
theorem vfma (o : LX) : Statement (.vfma o) := fits_eX _ _ o
theorem vfnma (o : LX) : Statement (.vfnma o) := fits_eX _ _ o
theorem vfcvt (o : LX) : Statement (.vfcvt o) := fits_eX _ _ o
theorem vfclass (o : LX) : Statement (.vfclass o) := fits_eX _ _ o
theorem vfscale (o : LX) : Statement (.vfscale o) := fits_eX _ _ o
theorem vfsgn (o : LX) : Statement (.vfsgn o) := fits_eX _ _ o
theorem vredsum (o : LV) : Statement (.vredsum o) := fits_eV _ _ o
theorem vfredsum (o : LV) : Statement (.vfredsum o) := fits_eV _ _ o
theorem vredmax (o : LV) : Statement (.vredmax o) := fits_eV _ _ o
theorem vfredmax (o : LV) : Statement (.vfredmax o) := fits_eV _ _ o
theorem vslide (o : LV) : Statement (.vslide o) := fits_eV _ _ o
theorem vperm (o : LV) : Statement (.vperm o) := fits_eV _ _ o
theorem vcompress (o : LV) : Statement (.vcompress o) := fits_eV _ _ o
theorem vexpand (o : LV) : Statement (.vexpand o) := fits_eV _ _ o
theorem vmovx (o : LV) : Statement (.vmovx o) := fits_eV _ _ o
theorem vins (o : LV) : Statement (.vins o) := fits_eV _ _ o
theorem vsplat (o : LV) : Statement (.vsplat o) := fits_eV _ _ o
theorem viota (o : LV) : Statement (.viota o) := fits_eV _ _ o
theorem vmov (o : LV) : Statement (.vmov o) := fits_eV _ _ o
theorem mand (o : LH) : Statement (.mand o) := fits_eH _ _ o
theorem mor (o : LH) : Statement (.mor o) := fits_eH _ _ o
theorem mxor (o : LH) : Statement (.mxor o) := fits_eH _ _ o
theorem mandn (o : LH) : Statement (.mandn o) := fits_eH _ _ o
theorem mnot (o : LH) : Statement (.mnot o) := fits_eH _ _ o
theorem mpop (o : LH) : Statement (.mpop o) := fits_eH _ _ o
theorem mfirst (o : LH) : Statement (.mfirst o) := fits_eH _ _ o
theorem msbf (o : LH) : Statement (.msbf o) := fits_eH _ _ o
theorem vld (o : LX) : Statement (.vld o) := fits_eX _ _ o
theorem vldx (o : LX) : Statement (.vldx o) := fits_eX _ _ o
theorem vst (o : LX) : Statement (.vst o) := fits_eX _ _ o
theorem vstx (o : LX) : Statement (.vstx o) := fits_eX _ _ o
theorem vlds (o : LX) : Statement (.vlds o) := fits_eX _ _ o
theorem vsts (o : LX) : Statement (.vsts o) := fits_eX _ _ o
theorem mld (o : LX) : Statement (.mld o) := fits_eX _ _ o
theorem mst (o : LX) : Statement (.mst o) := fits_eX _ _ o
theorem vldl (o : LX) : Statement (.vldl o) := fits_eX _ _ o
theorem vstl (o : LX) : Statement (.vstl o) := fits_eX _ _ o
theorem ranka (o : LX) : Statement (.ranka o) := fits_eX _ _ o
theorem ranks (o : LX) : Statement (.ranks o) := fits_eX _ _ o
theorem mopak (o : LX) : Statement (.mopak o) := fits_eX _ _ o
theorem mzero (o : LX) : Statement (.mzero o) := fits_eX _ _ o
theorem mrd (o : LX) : Statement (.mrd o) := fits_eX _ _ o
theorem mwr (o : LX) : Statement (.mwr o) := fits_eX _ _ o
theorem mrowacc (o : LX) : Statement (.mrowacc o) := fits_eX _ _ o
theorem msta (o : LX) : Statement (.msta o) := fits_eX _ _ o
theorem mstat (o : LH) : Statement (.mstat o) := fits_eH _ _ o
theorem mlda (o : LX) : Statement (.mlda o) := fits_eX _ _ o
theorem mdrop (o : LN) : Statement (.mdrop o) := fits_eN _ _ o
theorem ldref (o : LM) : Statement (.ldref o) := fits_eM _ _ o
theorem stref (o : LM) : Statement (.stref o) := fits_eM _ _ o
theorem ldf (o : LM) : Statement (.ldf o) := fits_eM _ _ o
theorem stf (o : LM) : Statement (.stf o) := fits_eM _ _ o
theorem pin (o : LH) : Statement (.pin o) := fits_eH _ _ o
theorem unpin (o : LH) : Statement (.unpin o) := fits_eH _ _ o
theorem qmov (o : LH) : Statement (.qmov o) := fits_eH _ _ o
theorem qcvtToRef (o : LH) : Statement (.qcvtToRef o) := fits_eH _ _ o
theorem qcvtFromRef (o : LH) : Statement (.qcvtFromRef o) := fits_eH _ _ o
theorem refeq (o : LH) : Statement (.refeq o) := fits_eH _ _ o
theorem spawn (o : LX) : Statement (.spawn o) := fits_eX _ _ o
theorem join (o : LH) : Statement (.join o) := fits_eH _ _ o
theorem exit (o : LH) : Statement (.exit o) := fits_eH _ _ o
theorem migrate (o : LH) : Statement (.migrate o) := fits_eH _ _ o
theorem bar (o : LI16) : Statement (.bar o) := fits_eI16 _ _ o
theorem crewinfo (o : LH) : Statement (.crewinfo o) := fits_eH _ _ o
theorem self (o : LH) : Statement (.self o) := fits_eH _ _ o
theorem msend (o : LH) : Statement (.msend o) := fits_eH _ _ o
theorem msenda (o : LH) : Statement (.msenda o) := fits_eH _ _ o
theorem enqt (o : LH) : Statement (.enqt o) := fits_eH _ _ o
theorem tdone (o : LH) : Statement (.tdone o) := fits_eH _ _ o
theorem grun (o : LH) : Statement (.grun o) := fits_eH _ _ o
theorem cbinv (o : LH) : Statement (.cbinv o) := fits_eH _ _ o
theorem sysc (o : LH) : Statement (.sysc o) := fits_eH _ _ o
theorem sret (o : LN) : Statement (.sret o) := fits_eN _ _ o
theorem wait (o : LH) : Statement (.wait o) := fits_eH _ _ o
theorem xinv (o : LH) : Statement (.xinv o) := fits_eH _ _ o
theorem opreq (o : LI16) : Statement (.opreq o) := fits_eI16 _ _ o
theorem preempt (o : LH) : Statement (.preempt o) := fits_eH _ _ o
theorem ctxstream (o : LH) : Statement (.ctxstream o) := fits_eH _ _ o
theorem serviceEntry (core : Nat) : Statement (.serviceEntry core) := ⟨rfl, rfl, rfl⟩
theorem handlerStart (core : Nat) : Statement (.handlerStart core) := ⟨rfl, rfl, rfl⟩
theorem messageAnswer (flight : Nat) : Statement (.messageAnswer flight) := ⟨rfl, rfl, rfl⟩
theorem msendaCompletion (flight : Nat) : Statement (.msendaCompletion flight) := ⟨rfl, rfl, rfl⟩
theorem vectorEntryExecute (core k : Nat) : Statement (.vectorEntryExecute core k) := ⟨rfl, rfl, rfl⟩
theorem matrixEntryExecute (core : Nat) : Statement (.matrixEntryExecute core) := ⟨rfl, rfl, rfl⟩
theorem enginePiece (op : Nat) : Statement (.enginePiece op) := ⟨rfl, rfl, rfl⟩
theorem tokenCompletion (op : Nat) : Statement (.tokenCompletion op) := ⟨rfl, rfl, rfl⟩
theorem windowExchange (op : Nat) : Statement (.windowExchange op) := ⟨rfl, rfl, rfl⟩
theorem collectiveTimeout (op : Nat) : Statement (.collectiveTimeout op) := ⟨rfl, rfl, rfl⟩
theorem remoteCopyTimeout (op : Nat) : Statement (.remoteCopyTimeout op) := ⟨rfl, rfl, rfl⟩
theorem liveMoveAck (move : Nat) : Statement (.liveMoveAck move) := ⟨rfl, rfl, rfl⟩
theorem measuredMigration (core : Nat) : Statement (.measuredMigration core) := ⟨rfl, rfl, rfl⟩
theorem aging (core : Nat) : Statement (.aging core) := ⟨rfl, rfl, rfl⟩
theorem parkedWaitCheck (core k : Nat) : Statement (.parkedWaitCheck core k) := ⟨rfl, rfl, rfl⟩
theorem waitTimeout (asid sid : Nat) : Statement (.waitTimeout asid sid) := ⟨rfl, rfl, rfl⟩
theorem overflowAdmit (core : Nat) : Statement (.overflowAdmit core) := ⟨rfl, rfl, rfl⟩
theorem occupantZeroingDone (core : Nat) : Statement (.occupantZeroingDone core) := ⟨rfl, rfl, rfl⟩
theorem schedulerPreempt (site : Nat) : Statement (.schedulerPreempt site) := ⟨rfl, rfl, rfl⟩
theorem watchdogT1 (asid sid : Nat) : Statement (.watchdogT1 asid sid) := ⟨rfl, rfl, rfl⟩
theorem watchdogT2 (asid sid : Nat) : Statement (.watchdogT2 asid sid) := ⟨rfl, rfl, rfl⟩
theorem watchdogT3 (asid sid : Nat) : Statement (.watchdogT3 asid sid) := ⟨rfl, rfl, rfl⟩
theorem jobTake (asid queue : Nat) : Statement (.jobTake asid queue) := ⟨rfl, rfl, rfl⟩
theorem recordReady (asid record : Nat) : Statement (.recordReady asid record) := ⟨rfl, rfl, rfl⟩
theorem dispatch (site : Nat) : Statement (.dispatch site) := ⟨rfl, rfl, rfl⟩
theorem crewReservation (site : Nat) : Statement (.crewReservation site) := ⟨rfl, rfl, rfl⟩
theorem eprioRaise (asid queue : Nat) : Statement (.eprioRaise asid queue) := ⟨rfl, rfl, rfl⟩
theorem clusterTaskDispatch (cluster : Nat) : Statement (.clusterTaskDispatch cluster) := ⟨rfl, rfl, rfl⟩
theorem clusterTaskRecheck (cluster k : Nat) : Statement (.clusterTaskRecheck cluster k) := ⟨rfl, rfl, rfl⟩
theorem queueCancel (asid queue : Nat) : Statement (.queueCancel asid queue) := ⟨rfl, rfl, rfl⟩
theorem eventsLostReport (asid : Nat) : Statement (.eventsLostReport asid) := ⟨rfl, rfl, rfl⟩
theorem syscRingRetry (asid : Nat) : Statement (.syscRingRetry asid) := ⟨rfl, rfl, rfl⟩
theorem syscResult (asid pos : Nat) : Statement (.syscResult asid pos) := ⟨rfl, rfl, rfl⟩
theorem asbindBind (port record : Nat) : Statement (.asbindBind port record) := ⟨rfl, rfl, rfl⟩
theorem asbindUnbind (port record : Nat) : Statement (.asbindUnbind port record) := ⟨rfl, rfl, rfl⟩
theorem powerOnReset : Statement .powerOnReset := ⟨rfl, rfl, rfl⟩
theorem modctlCold (port : Nat) : Statement (.modctlCold port) := ⟨rfl, rfl, rfl⟩
theorem modctlWarm (port : Nat) : Statement (.modctlWarm port) := ⟨rfl, rfl, rfl⟩
theorem attestRequest (port area : Nat) : Statement (.attestRequest port area) := ⟨rfl, rfl, rfl⟩
theorem captureModeOff (port : Nat) : Statement (.captureModeOff port) := ⟨rfl, rfl, rfl⟩
theorem captureModeOn (port ring logn : Nat) : Statement (.captureModeOn port ring logn) := ⟨rfl, rfl, rfl⟩
theorem replayModeOn (port ring logn : Nat) : Statement (.replayModeOn port ring logn) := ⟨rfl, rfl, rfl⟩
theorem captureRingSpace : Statement .captureRingSpace := ⟨rfl, rfl, rfl⟩
theorem replayForceTimeout (asid queue record : Nat) : Statement (.replayForceTimeout asid queue record) := ⟨rfl, rfl, rfl⟩
theorem registerWrite (port offset value : Nat) : Statement (.registerWrite port offset value) := ⟨rfl, rfl, rfl⟩
theorem errorCorrected (unitKind unit pa count : Nat) : Statement (.errorCorrected unitKind unit pa count) := ⟨rfl, rfl, rfl⟩
theorem poisonCreated (place unit addr : Nat) : Statement (.poisonCreated place unit addr) := ⟨rfl, rfl, rfl⟩
theorem laneRetire (core lane : Nat) : Statement (.laneRetire core lane) := ⟨rfl, rfl, rfl⟩
theorem matrixStepCheckFail (core : Nat) : Statement (.matrixStepCheckFail core) := ⟨rfl, rfl, rfl⟩
theorem coreFence (core : Nat) : Statement (.coreFence core) := ⟨rfl, rfl, rfl⟩
theorem opLimitLower (tile : Nat) : Statement (.opLimitLower tile) := ⟨rfl, rfl, rfl⟩
theorem pseudoChannelFailing (pc : Nat) : Statement (.pseudoChannelFailing pc) := ⟨rfl, rfl, rfl⟩
theorem linkDegrade (link : Nat) : Statement (.linkDegrade link) := ⟨rfl, rfl, rfl⟩
theorem moduleError : Statement .moduleError := ⟨rfl, rfl, rfl⟩
theorem hostPortDown (port : Nat) : Statement (.hostPortDown port) := ⟨rfl, rfl, rfl⟩
theorem hostDeath (port offset lines : Nat) : Statement (.hostDeath port offset lines) := ⟨rfl, rfl, rfl⟩
theorem poolFailure (port offset bytes : Nat) : Statement (.poolFailure port offset bytes) := ⟨rfl, rfl, rfl⟩
theorem cxlEngineFailure (port : Nat) : Statement (.cxlEngineFailure port) := ⟨rfl, rfl, rfl⟩
theorem fabricPortDown (port : Nat) : Statement (.fabricPortDown port) := ⟨rfl, rfl, rfl⟩
theorem thermalWarning (site : Nat) : Statement (.thermalWarning site) := ⟨rfl, rfl, rfl⟩
theorem thermalThrottle (site : Nat) : Statement (.thermalThrottle site) := ⟨rfl, rfl, rfl⟩
theorem thermalCritical (site : Nat) : Statement (.thermalCritical site) := ⟨rfl, rfl, rfl⟩
theorem damperGrant (tile : Nat) : Statement (.damperGrant tile) := ⟨rfl, rfl, rfl⟩
theorem tileGate (tile : Nat) : Statement (.tileGate tile) := ⟨rfl, rfl, rfl⟩
theorem tileWake (tile : Nat) : Statement (.tileWake tile) := ⟨rfl, rfl, rfl⟩
theorem pointSwitch (tile : Nat) : Statement (.pointSwitch tile) := ⟨rfl, rfl, rfl⟩
theorem atsCompletion (k hpa rights : Nat) : Statement (.atsCompletion k hpa rights) := ⟨rfl, rfl, rfl⟩
theorem priResponse (k code : Nat) : Statement (.priResponse k code) := ⟨rfl, rfl, rfl⟩
theorem priTimeout (k : Nat) : Statement (.priTimeout k) := ⟨rfl, rfl, rfl⟩
theorem atsInvalidation (port pasid va bytes : Nat) : Statement (.atsInvalidation port pasid va bytes) := ⟨rfl, rfl, rfl⟩
theorem invalidationCompletion (k : Nat) : Statement (.invalidationCompletion k) := ⟨rfl, rfl, rfl⟩
theorem hostSnoop (port addr : Nat) : Statement (.hostSnoop port addr) := ⟨rfl, rfl, rfl⟩
theorem hostMemAccess (port pa write data : Nat) : Statement (.hostMemAccess port pa write data) := ⟨rfl, rfl, rfl⟩
theorem pinAdmit (site : Nat) : Statement (.pinAdmit site) := ⟨rfl, rfl, rfl⟩
theorem hotnessWriteback (site k : Nat) : Statement (.hotnessWriteback site k) := ⟨rfl, rfl, rfl⟩
theorem moveMigrate (site : Nat) : Statement (.moveMigrate site) := ⟨rfl, rfl, rfl⟩
theorem moveReplicate (site : Nat) : Statement (.moveReplicate site) := ⟨rfl, rfl, rfl⟩
theorem moveCollapse (site : Nat) : Statement (.moveCollapse site) := ⟨rfl, rfl, rfl⟩
theorem moveResetHotness (site : Nat) : Statement (.moveResetHotness site) := ⟨rfl, rfl, rfl⟩
theorem flip : Statement .flip := ⟨rfl, rfl, rfl⟩
theorem copy : Statement .copy := ⟨rfl, rfl, rfl⟩
theorem free : Statement .free := ⟨rfl, rfl, rfl⟩
theorem errorLogSpace : Statement .errorLogSpace := ⟨rfl, rfl, rfl⟩
theorem persistConfirmation (k : Nat) : Statement (.persistConfirmation k) := ⟨rfl, rfl, rfl⟩
theorem nodeQualifiedRemoteAccess (asid va write data : Nat) : Statement (.nodeQualifiedRemoteAccess asid va write data) := ⟨rfl, rfl, rfl⟩
theorem hostPortUp (port : Nat) : Statement (.hostPortUp port) := ⟨rfl, rfl, rfl⟩
theorem fabricPortUp (port : Nat) : Statement (.fabricPortUp port) := ⟨rfl, rfl, rfl⟩
theorem conePointRecovery (site : Nat) : Statement (.conePointRecovery site) := ⟨rfl, rfl, rfl⟩
theorem nop : Statement .nop := fits_e0 _ _
theorem psync : Statement .psync := fits_e0 _ _
theorem qsync : Statement .qsync := fits_e0 _ _
theorem ungang : Statement .ungang := fits_e0 _ _
theorem mwait : Statement .mwait := fits_e0 _ _
theorem yield : Statement .yield := fits_e0 _ _
theorem hend : Statement .hend := fits_e0 _ _

end Sys2Proof.Laws.Words
end

