-- ==== Sys2Proof/Tests/Slice0.lean ====
section
/-! SUPPORT. Tests: words of every family written out from the encoding tables of spec/03 and of each instruction's rule, one ill-formed
term for each encoding check, and for the statements that have hypotheses a state and operands that meet them. -/

namespace Sys2Proof.Test

set_option Elab.async false

open Sys2Proof Sys2Proof.Machine

/-! ### A small machine -/

/-- A last-level leaf: V, L, type, rights R W X, address (R309). -/
def leaf (typ rights pa : Nat) : Nat := 2 ^ 63 + 2 ^ 62 + typ * 2 ^ 59 + rights * 2 ^ 56 + pa

/-- Tables at 0x10000, 0x14000, 0x18000 and 0x1C000: pages 1 and 2 ordinary, 3 and 9 managed, 4 replicated, 5 persistent, 6 of host 0, 7 a
window, 8 read-only, 10 and 11 for rings and images. -/
def mem0 : Memory :=
  ([(0x10000, 2 ^ 63 + 0x14000), (0x14000, 2 ^ 63 + 0x18000), (0x18000, 2 ^ 63 + 0x1C000),
    (0x1C008, leaf 0 7 0x100000), (0x1C010, leaf 0 6 0x110000), (0x1C018, leaf 3 6 0x120000), (0x1C020, leaf 2 6 0x22000),
    (0x1C028, leaf 5 6 (2 ^ 46)), (0x1C030, leaf 1 6 7), (0x1C038, leaf 4 6 0), (0x1C040, leaf 0 4 0x170000),
    (0x1C048, leaf 3 6 0x180000), (0x1C050, leaf 0 6 0x190000), (0x1C058, leaf 0 6 0x1A0000),
    (0x22000, 0x130000), (0x22008, 0x140000), (0x22010, 0x150000), (0x22018, 0x160000)] : List (Nat × Nat)).foldl
    (fun m p => m.write p.1 8 p.2) { cells := [], poison := [] }

def space0 : Space :=
  { asid := 1, recPa := 0x8000, nomig := false, root := 0x10000, spillVa := 0xB0000, spillLen := 0x10000, queuesVa := 0xA1000,
    eventVa := 0xA4000, eventSlots := 4, notifyVa := 0xA3000, sysVa := 0xA8000, sysSlots := 4, msix := none, sysPort := 0, eventPos := 0,
    held := [], lost := 0, sysPos := 0, sysWait := [], sysGrant := [], colour := false, queues := [], nextSid := 2, digested := false }

def ctx0 (priv : Bool) : Ctx :=
  { Ctx.reset with pc := 0x10000, asid := 1, strandId := 1, priv, x := Vector.ofFn (fun i => BitVec.ofNat 64 i.val) }

/-- Core c runs strand 1 of address space 1. -/
def core0 (priv : Bool) : Core :=
  { Core.reset with u := ctx0 priv, uWork := .strand, prevAsid := 1, owner := some 1, heapphase := false }

def strand0 : Strand := { blankStrand 1 1 with lastCore := 0 }

def at0 (c : Nat) (priv : Bool) : State :=
  { State.reset with
    cur := c, mem := mem0, cores := [(c, core0 priv)], strands := [strand0], spaces := [space0],
    mgmt := { Mgmt.reset with ready := true, booted := true, phase := 7 } }

def msg0 : Msg := { handler := 0x10040, seqNo := 0, asid := 1, sender := 5, payload := .replicate 4 7 }

/-- An outcome is a next state with a property. -/
def isNext (o : Host.Outcome State Fault Refusal) (f : State → Bool := fun _ => true) : Bool :=
  match o with
  | .next t => f t
  | _ => false

/-- A computation succeeds with a property. -/
def isOk {ε α : Type} (r : Except ε α) (f : α → Bool := fun _ => true) : Bool :=
  match r with
  | .ok a => f a
  | .error _ => false

/-- An access reaches a place that is not poisoned. -/
def reaches (r : Except Stop (State × Place)) (n : Nat) : Bool := isOk r (fun (t, p) => !t.placePoisoned 1 p n)

/-- Every instruction of a list reaches its own entry. -/
def allIssue (s : State) (l : List Instr) : Bool := l.all (fun i => decide (Issues i s))

/-- The strand on control core 0, vector core 32 and tensor core 544, at level U. -/
def sC : State := at0 0 false
def sV : State := at0 32 false
def sM : State := at0 544 false

theorem test_decode_scalar :
    decode 0b0000000100000001 0b1010010111000011 = .ok (.brk { d := 0, imm := 0xa5c3 }) ∧
    decode 0b0000010110101110 0b0000000101010011 = .ok (.orn { d := 21, f := 0, b := 10, a := 19 }) ∧
    decode 0b0000100110001011 0b0000000100111110 = .ok (.rol { d := 17, f := 0, b := 9, a := 30 }) ∧
    decode 0b0000110100001111 0b0000000001000100 = .ok (.mulhsu { d := 1, f := 0, b := 2, a := 4 }) ∧
    decode 0b0001000101000011 0b0000001000000011 = .ok (.remu { d := 8, f := 0, b := 16, a := 3 }) ∧
    decode 0b0001010101000001 0b0000100000000101 = .ok (.zext { d := 8, f := 2, b := 0, a := 5 }) ∧
    decode 0b0010000101100110 0b0000000011000101 = .ok (.shiI16 { d := 12, imm := 0xc5 }) ∧
    decode 0b0010001001101011 0b10110100101101001011010010100111 = .ok (.xoriWi { d := 13, imm := 0x5a5a5a5, a := 7 }) ∧
    decode 0b0010001101110101 0b1000001001000110100010101100111100010011010101111001101111010110 = .ok (.sltiuXi { d := 14, imm := 0x4123456789abcde, a := 22 }) := by decide +kernel

theorem test_decode_address :
    decode 0b0011000101111000 0b0000001101001011 = .ok (.adda { d := 15, f := 0, b := 26, a := 11 }) ∧
    decode 0b0011001010000001 0b11111111111111111111111000110010 = .ok (.addiaWi { d := 16, imm := 0x7fffff1, a := 18 }) ∧
    decode 0b0011000110010010 0b0001010001101100 = .ok (.scalea { d := 18, f := 5, b := 3, a := 12 }) ∧
    decode 0b0011101010011000 0b10001001101010111100110111101111 = .ok (.liI32 { d := 19, imm := 0x89abcdef }) ∧
    decode 0b0011101110100000 0b1000000100100011010001010110011110001001101010111100110111100111 = .ok (.liL64 { d := 20, imm := 0x8123456789abcde7 }) ∧
    decode 0b0011101010111001 0b01010101010101010101010101100110 = .ok (.lpc { d := 23, imm := 0x2aaaaab, a := 6 }) := by decide +kernel

theorem test_decode_control :
    decode 0b0011110111000010 0b0000000000000001 = .ok (.csrs { d := 24, imm := 1 }) ∧
    decode 0b0100001000001001 0b10000000000000000000000000111110 = .ok (.jal { d := 1, imm := 0x4000001, a := 30 }) ∧
    decode 0b0100000100010010 0b0000000000000001 = .ok (.jalr { d := 2, f := 0, b := 0, a := 1 }) ∧
    decode 0b0100011011011101 0b10101010111100110111101000101100 = .ok (.bgeu { d := 27, imm := 0x2abcde, t := 17, b := 12 }) := by decide +kernel

theorem test_decode_float :
    decode 0b0111000100100100 0b0000010000011011 = .ok (.fsqrt { d := 4, f := 1, b := 0, a := 27 }) ∧
    decode 0b0111011000110000 0b00011010000000000000111010001001 = .ok (.fma { d := 6, f := 13, sc := 0, oc := 0, cC := 0, cB := 0, cA := 0, c := 3, b := 20, a := 9 }) := by decide +kernel

theorem test_decode_memory :
    decode 0b0101001011100011 0b10000000000000000001000000001101 = .ok (.ldhu { d := 28, imm := 0x80001, sc := 0, oc := 0, a := 13 }) ∧
    decode 0b0101011011101100 0b01111111111111111000100000001110 = .ok (.strl { d := 29, imm := 0x7fff8, sc := 4, oc := 0, a := 14 }) ∧
    decode 0b0101101000011001 0b00001110010000000110100101100101 = .ok (.cas { d := 3, f := 7, sc := 1, oc := 0, cC := 0, cB := 0, cA := 0, c := 26, b := 11, a := 5 }) ∧
    decode 0b0101100100011010 0b0000000011111111 = .ok (.fence { d := 3, imm := 0xff }) := by decide +kernel

theorem test_decode_engine :
    decode 0b0110001101001000 0b0000000000000000000000000000000100000000000000000001100010100100 = .ok (.acopy { d := 9, f16 := 0, imm := 0, sc := 2, oc := 0, msk := 0, cC := 0, cB := 0, cA := 0, l := 0, c := 6, b := 5, a := 4 }) := by decide +kernel

theorem test_decode_vector :
    decode 0b1000000101010010 0b0000000110000011 = .ok (.vsettx { d := 10, f := 0, b := 12, a := 3 }) ∧
    decode 0b1000101011111100 0b10000000000010101000110100110001 = .ok (.vsadd { d := 31, f := 0x40, z := 0, msk := 5, cB := 0, cA := 1, l := 3, b := 9, a := 17 }) ∧
    decode 0b1000111001011110 0b00100000000000010000011111000010 = .ok (.vfcmp { d := 11, f := 16, z := 0, msk := 0, cB := 1, cA := 0, l := 1, b := 30, a := 2 }) ∧
    decode 0b1001001100111000 0b0000000000000000000000000000000000000110010100010101011001110010 = .ok (.vfma { d := 7, f16 := 0, imm := 0, sc := 0, oc := 0, msk := 12, cC := 1, cB := 0, cA := 1, l := 2, c := 21, b := 19, a := 18 }) ∧
    decode 0b1001110101011011 0b0000100101001001 = .ok (.mandn { d := 11, f := 2, b := 10, a := 9 }) ∧
    decode 0b1010001111001000 0b0000000000000000000000001000000000000000000000001000000000001000 = .ok (.vld { d := 25, f16 := 0, imm := 0x20, sc := 0, oc := 0, msk := 0, cC := 0, cB := 0, cA := 0, l := 1, c := 0, b := 0, a := 8 }) := by decide +kernel

theorem test_decode_matrix :
    decode 0b1100001100010011 0b0000000000000000000000000000000000000000000000000000000000000000 = .ok (.mzero { d := 2, f16 := 0, imm := 0, sc := 0, oc := 0, msk := 0, cC := 0, cB := 0, cA := 0, l := 0, c := 0, b := 0, a := 0 }) ∧
    decode 0b1100010000011011 0b0 = .ok (.mdrop { d := 3 }) := by decide +kernel

theorem test_decode_reference :
    decode 0b1101101001111001 0b11111111111111111000000000001010 = .ok (.stref { d := 15, imm := 0xffff8, sc := 0, oc := 0, a := 10 }) ∧
    decode 0b1101100100101111 0b0000010000001110 = .ok (.qcvtFromRef { d := 5, f := 1, b := 0, a := 14 }) ∧
    decode 0b1101110100110000 0b0000000110101100 = .ok (.refeq { d := 6, f := 0, b := 13, a := 12 }) := by decide +kernel

theorem test_decode_strand :
    decode 0b1110010100000101 0b0000000000000111 = .ok (.bar { d := 0, imm := 7 }) ∧
    decode 0b1110100110110001 0b0000000001111000 = .ok (.msenda { d := 22, f := 0, b := 3, a := 24 }) ∧
    decode 0b1110110110111010 0b0000000000100010 = .ok (.grun { d := 23, f := 0, b := 1, a := 2 }) := by decide +kernel

theorem test_decode_system :
    decode 0b1111000111000010 0b0111110011000111 = .ok (.wait { d := 24, f := 31, b := 6, a := 7 }) ∧
    decode 0b1111000100000100 0b0000000000000101 = .ok (.opreq { d := 0, imm := 5 }) := by decide +kernel


/-! ### One ill-formed term for each encoding check (R73 to R78, R80 step 2) -/

def h0 : LH := { d := 1, f := 0, b := 2, a := 3 }
def w0 : LW := { d := 1, f := 0, sc := 0, oc := 0, cC := 0, cB := 0, cA := 0, c := 0, b := 2, a := 3 }
def m0 : LM := { d := 1, imm := 0, sc := 0, oc := 0, a := 3 }
def v0 : LV := { d := 1, f := 0, z := 0, msk := 0, cB := 0, cA := 0, l := 1, b := 2, a := 3 }
def x0 : LX := { d := 1, f16 := 0, imm := 0, sc := 0, oc := 0, msk := 0, cC := 0, cB := 0, cA := 0, l := 0, c := 0, b := 0, a := 3 }

theorem test_ill_maps : decode 0b0001100000000000 0 = .error .unlisted ∧ decode 0b0000110000000110 0 = .error .tail ∧
    decode 0b0001010100000111 0 = .error .unlisted ∧ decode 0b0010000000000000 0 = .error .tail := by decide +kernel

theorem test_ill_scalar : illForm (.add { h0 with f := 1 }) = some .field ∧ illForm (.clz h0) = some .field ∧
    illForm (.sext { h0 with b := 0, f := 3 }) = some .field ∧ illForm (.shiI16 { d := 1, imm := 0x100 }) = some .field ∧
    illForm (.j { d := 1, imm := 0, a := 0 }) = some .field ∧ illForm (.bms { d := 12, imm := 0, t := 0, b := 1 }) = some .register ∧
    illForm (.fcmp { h0 with f := 0x10 }) = some .field ∧ illForm (.fma { w0 with sc := 1 }) = some .field ∧
    illForm (.csrr { d := 1, imm := 0x1001 }) = some .field := by decide +kernel

theorem test_ill_memory : illForm (.ldd { m0 with sc := 1 }) = some .field ∧ illForm (.ldaq { m0 with sc := 5 }) = some .scope ∧
    illForm (.amo { w0 with f := 9 * 8 }) = some .field ∧ illForm (.amo { w0 with sc := 7 }) = some .scope ∧
    illForm (.cas { w0 with f := 8 }) = some .field ∧ illForm (.cas { w0 with cB := 1 }) = some .chain ∧
    illForm (.fence { d := 8, imm := 1 }) = some .field ∧ illForm (.fence { d := 5, imm := 1 }) = some .scope ∧
    illForm (.acopy { x0 with f16 := 2 }) = some .field ∧ illForm (.acopy2d { x0 with a := 31 }) = some .register ∧
    illForm (.wread { x0 with sc := 5 }) = some .scope := by decide +kernel

theorem test_ill_vector : illForm (.gang { h0 with b := 0, a := 0, f := 0 }) = some .field ∧ illForm (.vadd { v0 with z := 1 }) = some .field ∧
    illForm (.vcmp { v0 with d := 12 }) = some .register ∧ illForm (.vadd { v0 with msk := 13 }) = some .scope ∧
    illForm (.vadd { v0 with f := 64, cB := 1 }) = some .chain ∧ illForm (.vfsqrt { v0 with b := 1 }) = some .field ∧
    illForm (.vredsum v0) = some .field ∧ illForm (.vmovx v0) = some .field ∧ illForm (.vins { v0 with l := 0, f := 1 }) = some .field ∧
    illForm (.vfma { x0 with oc := 1 }) = some .field ∧ illForm (.vfma { x0 with f16 := 4, cB := 1 }) = some .chain ∧
    illForm (.vfcvt { x0 with f16 := 0x4000 }) = some .field ∧ illForm (.vld { x0 with b := 1 }) = some .field ∧
    illForm (.vld { x0 with cA := 1 }) = some .chain ∧ illForm (.mld { x0 with d := 12 }) = some .register ∧
    illForm (.vldl { x0 with f16 := 2 }) = some .field ∧ illForm (.mand { h0 with f := 32 }) = some .field := by decide +kernel

theorem test_ill_matrix : illForm (.ranka { x0 with d := 4 }) = some .register ∧ illForm (.ranka { x0 with f16 := 3 }) = some .field ∧
    illForm (.mzero { x0 with a := 1 }) = some .field ∧ illForm (.mdrop { d := 4 }) = some .field ∧
    illForm (.mopak { x0 with cA := 1 }) = some .chain := by decide +kernel

theorem test_ill_system : illForm (.ldref { m0 with d := 16 }) = some .register ∧ illForm (.spawn { x0 with imm := 1 }) = some .field ∧
    illForm (.crewinfo { h0 with b := 0, f := 0 }) = some .field ∧ illForm (.bar { d := 0, imm := 16 }) = some .field ∧
    illForm (.sret { d := 2 }) = some .field ∧ illForm (.opreq { d := 0, imm := 8 }) = some .field := by decide +kernel


/-! ### States and operands that meet the hypotheses of the statements -/

/-- A line that holds one instruction, stored where the strand's page 1 begins. -/
def withCode (s : State) (head : BitVec 16) (tail : BitVec 64) : State :=
  { s with mem := s.mem.write 0x100000 64 (oneLine head tail).toNat }

def addWords : State := withCode sC 0x0528 0x00E6

theorem test_hyp_decodeOfEncode : (Instr.add { d := 31, f := 0, b := 7, a := 6 }).WellFormed ∧
    (encode (.add { d := 31, f := 0, b := 7, a := 6 })).isSome ∧ (Instr.liL64 { d := 31, imm := BitVec.allOnes 64 }).WellFormed ∧
    decode 0x0528 0x00E6 = .ok (.add { d := 5, f := 0, b := 7, a := 6 }) := by decide +kernel

/-- The reason for which the line at 0x10000 breaks R68, once it has been reached. -/
def lineAt (s : State) (f : Option Nat → Bool) : Bool :=
  isOk (s.access (s.who .fetch .x) 0x10000 64) (fun (t, p) =>
    !t.placePoisoned 1 p 64 && f (lineReason (BitVec.ofNat 512 (t.placeRead 1 p 64)) 0))

theorem test_hyp_fetchLines : addWords.cx.line = none ∧ bitOf addWords.cx.pcNat 5 = false ∧ addWords.cx.pcNat < 2 ^ 56 ∧
    lineAt addWords (·.isNone) = true ∧ lineAt sC (·.isSome) = true ∧
    bitOf (addWords.modCx (fun k => { k with pc := 0x10020 })).cx.pcNat 5 = true := by decide +kernel

def turnState : State := { addWords with agenda := [.issue 0 .u] }

def fetchesAdd (s : State) : Bool := isOk { s with cur := 0, curCtx := .u }.fetch (fun t =>
  decide (t.slotInstr = .ok (.add { d := 5, f := 0, b := 7, a := 6 })))

theorem test_hyp_stepRunsDecoded : turnState.mgmt.ready = true ∧ turnState.mgmt.stopped = false ∧
    { turnState.tick with agenda := [] }.coreRuns 0 = true ∧ { turnState.tick with agenda := [] }.ctxWorks 0 .u = true ∧
    fetchesAdd ({ turnState.tick with agenda := [] }.tickCore 0) = true ∧
    addWords.agenda = [] ∧ addWords.tick.nextCore = some 0 ∧
    (let b := background 0 (addWords.tick.tickCore 0);
      b.ctxWorks 0 .a = false ∧ b.ctxWorks 0 .u = true ∧
      fetchesAdd b = true) := by decide +kernel

/-- A handler on core 0, at the same line, while strand 1 runs. -/
def bothState (pend : BitVec 32) : State :=
  { (addWords.modCore 0 (fun k => { k with aWork := .handler msg0, a := { ctx0 false with pend } })) with agenda := [.issue 0 .a] }

theorem test_hyp_choice : let k (p : BitVec 32) := { (bothState p).tick with agenda := [] }.tickCore 0
    (k 0).ctxWorks 0 .a = true ∧ (k 0).ctxWorks 0 .u = true ∧ { (bothState 0).tick with agenda := [] }.coreRuns 0 = true ∧
    isNext (issueAt 0 .a (k 0)).1 = true ∧ isNext (issueAt 0 .u (k 0)).1 = true ∧ (issueAt 0 .a (k 0)).2 = true ∧ (issueAt 0 .u (k 0)).2 = true ∧
    (issueAt 0 .a (k 0x40)).2 = false ∧ isNext (issueAt 0 .a (k 0x40)).1 = true ∧
    isNext (step (bothState 0)) (fun t => (t.core 0).a.getX 5 == 13 && (t.core 0).uStreak == 1 && (t.core 0).u.pc == 0x10000) = true ∧
    isNext (step ((bothState 0).modCore 0 (fun k => { k with uStreak := 7 }))) (fun t => (t.core 0).u.getX 5 == 13 && (t.core 0).uStreak == 0) = true := by
  decide +kernel

/-- The step itself: x5 is the sum of x6 and x7, and the PC has moved on to the next line. -/
theorem test_step_add : isNext (step turnState) (fun t => (t.core 0).u.getX 5 == 13 && (t.core 0).u.pc == 0x10040) = true := by
  decide +kernel

theorem test_hyp_events : encode .moduleError = none ∧ encode (.dispatch 0) = none := by decide

def haltedState : State := { turnState with mgmt := { turnState.mgmt with stopped := true } }

theorem test_hyp_halted : haltedState.mgmt.ready = true ∧ haltedState.mgmt.stopped = true ∧ haltedState.agenda = [.issue 0 .u] ∧
    isNext (step haltedState) = true := by decide +kernel

theorem test_hyp_commonChecks : illForm (.add { h0 with f := 1 }) = some .field ∧
    (isWaiting .psync = true ∨ isWaiting (.join { h0 with b := 0 }) = true) ∧ misused sC .hend = true ∧
    (isS (.sret { d := 0 }) = true ∧ sC.cx.priv = false) ∧ isS (.preempt { h0 with b := 0 }) = true ∧
    capHolds (sC.cls 0) (neededMask (.mzero { x0 with a := 0 })) = false ∧
    capHolds (sC.cls 0) (neededMask (.add h0)) = true ∧
    tokenWait (sC.modCx (fun k => { k with pend := 8 })) (.add h0) = true := by decide +kernel

theorem test_hyp_alu : Issues (.add h0) sC ∧ Spec.alu (.add h0) ≠ none ∧ Issues (.div h0) sC ∧ Issues (.zext { h0 with b := 0, f := 2 }) sC := by
  refine ⟨by decide +kernel, by simp [Spec.alu], by decide +kernel, by decide +kernel⟩

theorem test_hyp_immediate : Issues (.addiI16 { d := 1, imm := 0x8000 }) sC ∧ Issues (.shiXi { d := 1, imm := 0xFF, a := 2 }) sC ∧
    Issues (.muliWi { d := 0, imm := 3, a := 2 }) sC := by decide +kernel

/-- A shift with a bit above bit 7, and heads that are no instruction: major 05 SUB 7, 08 with TL 0, 0C SUB 7 and ADDIA with TL 1, LI with
TL 0, LPC with TL 1, MOV with TL 2, and SUB 3 of major 0E and of 10. -/
theorem test_hyp_illWords : (∃ x, Spec.immediate (.shiI16 { d := 1, imm := 0x8000 }) = some x ∧ x.2.1 = 6 ∧ 2 ^ 8 ≤ x.2.2.2.2.1.toNat) ∧
    decode 0b0001010100000111 0 = .error .unlisted ∧ decode 0b0010000000000000 0 = .error .tail ∧
    decode 0b0011000100000111 0 = .error .unlisted ∧ decode 0b0011000100000001 0 = .error .tail ∧
    decode 0b0011100000000000 0 = .error .tail ∧ decode 0b0011100100000001 0 = .error .tail ∧
    decode 0b0011101000000010 0 = .error .tail ∧ decode 0b0011100100000011 0 = .error .unlisted ∧
    decode 0b0100000100000011 0 = .error .unlisted := by
  refine ⟨⟨_, rfl, rfl, by decide +kernel⟩, ?_⟩; decide +kernel

/-- x1 = 2^56 - 1 and x2 = 1: their sum leaves the address space; x3 = 3 stays in it. -/
def edgeState : State := (sC.setX 1 (0x00FFFFFFFFFFFFFF)).setX 2 1

theorem test_hyp_address : Issues (.adda { d := 4, f := 0, b := 2, a := 1 }) edgeState ∧
    (∃ x, Spec.address edgeState (.adda { d := 4, f := 0, b := 2, a := 1 }) = some x ∧ 2 ^ 56 ≤ x.2.2.2.2) ∧
    (∃ x, Spec.address edgeState (.adda { d := 4, f := 0, b := 0, a := 1 }) = some x ∧ 0 ≤ x.2.2.2.2 ∧ x.2.2.2.2 < 2 ^ 56) := by
  refine ⟨by decide +kernel, ⟨_, rfl, by decide +kernel⟩, ⟨_, rfl, by decide +kernel, by decide +kernel⟩⟩

theorem test_hyp_move : Issues (.mov { d := 1, f := 0, b := 0, a := 2 }) sC ∧ Issues (.pfmt { d := 1, imm := 0xF8 }) sC ∧
    Issues (.liI32 { d := 1, imm := 0 }) sC ∧ Issues (.gfmt { d := 1, f := 0, b := 0, a := 2 }) sC ∧ Issues (.pfmt { d := 1, imm := 0xF7 }) sC ∧ (0xF8 : BitVec 16).extractLsb' 3 5 = 31 ∧ (0xF7 : BitVec 16).extractLsb' 3 5 = 30 ∧
    Issues (.lpc { d := 1, imm := 0, a := 0 }) sC ∧ Issues (.self { d := 1, f := 0, b := 0, a := 0 }) sC := by decide +kernel

theorem test_hyp_control : Issues .nop sC ∧ Issues (.j { d := 0, imm := 1, a := 0 }) sC ∧ Issues (.jal { d := 1, imm := 1, a := 0 }) sC ∧
    Issues (.jalr { d := 1, f := 0, b := 0, a := 1 }) sC ∧ Issues (.beq { d := 1, imm := 0, t := 0, b := 1 }) sC ∧
    Issues (.brk { d := 0, imm := 0xFFFF }) sC ∧ addWords.cx.pcNat < 2 ^ 56 := by decide +kernel

/-- A vector core with EW 32 and a length of 1, m1's bit 0 set. -/
def maskState : State :=
  (sV.modCx (fun k => { k with vtype := 0x60 })).modCore 32 (fun k => { k with m := k.m.set 1 1 })

theorem test_hyp_maskBranch : vtEw maskState.vtype ≠ 0 ∧ maskState.curCtx = .u ∧ maskState.me.maskQueued 1 = false ∧
    Issues (.bms { d := 1, imm := 0, t := 0, b := 1 }) maskState ∧ Issues (.bmc { d := 1, imm := 0, t := 0, b := 1 }) maskState ∧
    vtEw sV.vtype = 0 ∧ Issues (.bms { d := 1, imm := 0, t := 0, b := 1 }) sV := by
  decide +kernel

/-- Bit 0 of m1 carries poison. -/
def maskPoisoned : State := maskState.modCore 32 (fun k => { k with regPoison := [((mReg (1 : BitVec 5)).1, (mReg (1 : BitVec 5)).2, 0)] })

theorem test_hyp_maskPoison : 0 < maskPoisoned.vlOf 1 ∧ maskPoisoned.me.elemPoisoned (mReg (1 : BitVec 5), 1, 0) = true ∧
    maskPoisoned.me.maskQueued 1 = false ∧ vtEw maskPoisoned.vtype ≠ 0 ∧ Issues (.bmc { d := 1, imm := 0, t := 0, b := 1 }) maskPoisoned := by
  decide +kernel


/-- Service level on control core 0, with every CSR of interest at a value of its own. -/
def sS : State := at0 0 true

theorem test_hyp_csr : Issues (.csrr { d := 9, imm := 0x104 }) sS ∧ Spec.csr sS 0x104 = some 0 ∧ Issues (.csrx { d := 0, imm := 0x122 }) sS ∧
    Issues (.csrr { d := 9, imm := 0x00C }) sC ∧ sC.me.queue = [] ∧ sC.me.mq = [] ∧ sC.me.long = none ∧
    (Spec.csrWritten sS 1 0x122).isSome ∧ sS.cx.priv = true ∧ sC.cx.priv = false ∧ Issues (.csrw { d := 9, imm := 0x104 }) sC ∧
    Issues (.csrw { d := 9, imm := 0x3FF }) sC ∧ Issues (.csrw { d := 9, imm := 0x000 }) sS := by decide +kernel

theorem test_hyp_csrAllowed : Spec.csrAllowed 0x104 true true ∧ Spec.csrAllowed 0x00C false true ∧ ¬Spec.csrAllowed 0x104 false false ∧
    ¬Spec.csrAllowed 0x300 true false ∧ ¬Spec.csrAllowed 0x00F true true ∧ Spec.csrSettled sC 0x00C ∧ Spec.csrSettled sC 0x008 := by
  refine ⟨?_, ?_, ?_, ?_, ?_, ?_, ?_⟩ <;> simp only [Spec.csrAllowed, Spec.csrSettled] <;> decide +kernel

theorem test_hyp_csrUnlisted : ¬Spec.csrListed 0x011 ∧ ¬Spec.csrListed 0x10F ∧ ¬Spec.csrListed 0x123 ∧ Spec.csrListed 0x122 := by
  refine ⟨?_, ?_, ?_, ?_⟩ <;> simp only [Spec.csrListed] <;> decide +kernel

theorem test_hyp_float : allIssue sC [.fadd h0, .fsqrt { h0 with f := 1, b := 0 }, .fma { w0 with f := 0xF }, .fmin { h0 with f := 3 },
      .fcmp { h0 with f := 0xC }, .fclass { h0 with b := 0, f := 1 }, .fclass { h0 with b := 0, f := 30 }, .fclass { h0 with b := 0, f := 0 },
      .fcvt { h0 with f := 1, b := 4 }, .fcvt { h0 with f := 0, b := 0 }, .fcvt { h0 with f := 30, b := 1 }] = true ∧
    sC.cx.frm = 0 ∧ Issues (.fadd h0) (sC.modCx (fun k => { k with frm := 5 })) ∧ 5 ≤ (sC.modCx (fun k => { k with frm := 5 })).cx.frm.toNat := by
  decide +kernel

/-- An entry that grants address space 1 everything of the local window, on cores 0 and 1. -/
def open0 (k : Core) : Core :=
  { k with protb := k.protb.set 7 0x0001000000000000, protl := k.protl.set 7 0xF000FFFFFFFFFFC0 }

def sL : State := { sC with cores := [(0, open0 (core0 false)), (1, { Core.reset with owner := some 1 })] }

def who0 (need : Need) : Who := sL.who .load need

theorem test_hyp_local : sL.live 0 = true ∧ sL.live 1 = true ∧ sL.live 2 = true ∧ (sL.core 1).zeroing = false ∧
    (sL.core 1).owner = some 1 ∧ (sL.core 2).owner ≠ some 1 ∧ spadSize (sL.cls 0) = 0x40000 ∧
    anyEntry (sL.core 0) (who0 .r) (0xFF * 2 ^ 48 + (0x40000 - 0x2000 - 8)) 8 = true ∧
    anyEntry (sL.core 0) (who0 .r) (0xFF * 2 ^ 48 + 2 * 2 ^ 40 + 3 * 2 ^ 32 + (2 ^ 26 - 8)) 8 = true ∧
    anyEntry (sC.core 0) (who0 .r) (0xFF * 2 ^ 48) 8 = false := by decide +kernel

/-- The zero-fill page: page 12, its leaf with ZF. -/
def sZ : State := { sC with mem := sC.mem.write 0x1C060 8 (leaf 0 6 0x1B0000 + 2 ^ 54) }

theorem test_hyp_access : reaches (sC.access (sC.who .load .r) 0x10008 8) 8 = true ∧ reaches (sL.access (who0 .w) (0xFF * 2 ^ 48) 8) 8 = true ∧
    sZ.cached 1 0xC0000 = none ∧ sZ.walk 1 0xC0000 = .leaf (leaf 0 6 0x1B0000 + 2 ^ 54) 0x1C060 false 4 ∧
    bitOf (leaf 0 6 0x1B0000 + 2 ^ 54) 54 = true ∧ leafType (leaf 0 6 0x1B0000 + 2 ^ 54) = 0 := by decide +kernel

theorem test_hyp_zeroFill : (sZ.site 0).home.walks = [] ∧ (sZ.site 0).home.cache = [] ∧ sZ.ats = [] ∧ homeOf 0xC0000 false = 0 := by
  decide +kernel

/-- A place of a frame, and one of a site scratchpad's second block. -/
def framePlace0 : Place := { key := 0x110000, typ := 0, siteOff := none, home := 2, page := 2, big := false }
def sitePlace0 : Place := { key := (Loc.site 3 0x10008).key, typ := 8, siteOff := some (3, 0x10008), home := 0, page := 0, big := false }

theorem test_hyp_placeWrite : sC.cxlDeadIn 0x110000 8 = false ∧ sC.tag 3 1 ≠ 1 ∧ { sC with siteTags := [(3 * 1024 + 1, 1)] }.tag 3 1 = 1 ∧
    { sC with poolDead := [(2 ^ 46, 64)] }.cxlDead (2 ^ 46 + 7) = true ∧
    isOk (sC.access (sC.who .load .r) 0x20000 8) (fun (_, p) => decide (p.key = framePlace0.key)) = true := by decide +kernel

/-- x1 holds the address of page 1, x2 of page 2, x4 of the replicated page. -/
def sA : State := ((sC.setX 1 0x10000).setX 2 0x20000).setX 4 0x40000

theorem test_hyp_load : Issues (.ldd { d := 9, imm := 0xFFFF8, sc := 0, oc := 0, a := 2 }) sA ∧
    Issues (.ldaqw { d := 9, imm := 0, sc := 4, oc := 0, a := 1 }) sA ∧
    Spec.ea sA 2 0xFFFF8 = 0x1FFF8 ∧ Spec.ea sA 2 0 = 0x20000 ∧ sA.me.queue = [] ∧ sA.cx.priv = false ∧
    reaches (sA.access (sA.who .load .r) 0x20000 8) 8 = true ∧ reaches (sA.access (sA.who .load .r) 0x1FFF8 8) 8 = true := by
  decide +kernel

/-- With no operation of an engine, only queued entries can hold an access back. -/
theorem unordered_of {s : State} (hq : ∀ e ∈ s.me.queue, e.ctx = s.curCtx → entryClass e.instr = none) (ho : s.ops = []) : Spec.unordered s :=
  ⟨hq, fun o h => by simp [ho] at h⟩

theorem test_hyp_unordered : Spec.unordered sA ∧ Spec.plain sA 0x20000 :=
  ⟨unordered_of (by decide +kernel) (by decide +kernel), .inl (by decide +kernel)⟩

/-- The replicated page, held by its home after a first look. -/
def sR : State := match sA.access (sA.who .store .w) 0x40000 8 with
  | .ok (t, _) => t
  | .error _ => sA

theorem test_hyp_store : Issues (.std { d := 9, imm := 8, sc := 0, oc := 0, a := 2 }) sA ∧
    Issues (.mstd { d := 9, imm := 8, sc := 0, oc := 0, a := 4 }) sA ∧ reaches (sA.access (sA.who .store .w) 0x20008 8) 8 = true ∧
    isOk (sR.access (sR.who .store .w) 0x40008 8) (fun (t, p) => p.typ == 2 && (t.cached 1 0x40008).any (fun e =>
      decide (t.leafFrames e.leaf.toNat = [0x130000, 0x140000, 0x150000, 0x160000]))) = true ∧
    sR.cxlDead 0x130000 = false := by decide +kernel

theorem test_hyp_atomic : Issues (.amo { w0 with f := 0b0001100, a := 2, b := 9 }) sA ∧ Issues (.cas { w0 with f := 0b0000000, a := 2, b := 0 }) sA ∧
    Spec.atomicSize { w0 with f := 0b0001100 } = 8 ∧ Spec.atomicSize w0 = 4 ∧
    reaches (sA.access (sA.who .atomic .rw) 0x20000 8) 8 = true := by decide +kernel

theorem test_hyp_traps : Spec.ea sA 2 1 % 8 ≠ 0 ∧ Spec.ea (sA.setX 1 0) 1 0xFFFF8 < 0 ∧ Spec.ea (sA.setX 1 0x00FFFFFFFFFFFFF8) 1 8 = 2 ^ 56 ∧
    (match sA.access (sA.who .load .r) 0 8 with | .error (.trap t) => t.cause == .pgnp | _ => false) = true ∧
    (match sA.access (sA.who .store .w) 0x80000 8 with | .error (.trapIn t _) => t.cause == .pgprot | _ => false) = true ∧
    isOk ({ sA with mem := sA.mem.setPoison (0x110000 / 32) }.access (sA.who .load .r) 0x20000 8) (fun (t, p) => t.placePoisoned 1 p 8) = true := by
  decide +kernel

/-- Device words of the configured module: x1 to x4 hold HEALTH, the node number, a movement door and a heap door. -/
def sD : State := (((sS.setX 1 0x00FE000000080000).setX 2 0x00FE000000090000).setX 3 0x00FE000000010000).setX 4 0x00FE000000070000

theorem test_hyp_device : sD.cx.priv = true ∧ Spec.ea sD 1 0 = sD.cfg.healthVa ∧ Spec.ea sD 2 0 = sD.cfg.nodeVa ∧
    Issues (.ldd { m0 with a := 1 }) sD ∧ Issues (.std { m0 with a := 3 }) sD ∧ sD.cfg.moveDoor[1]? = some (Spec.ea sD 3 0).toNat ∧
    sD.cfg.moveDoor[0]? ≠ some (Spec.ea sD 3 0).toNat ∧ (sD.site 1).home.moves.length < 64 ∧ (Spec.ea sD 4 0).toNat ∈ sD.cfg.heapDoor ∧
    (Spec.ea sD 4 0).toNat ∉ sD.cfg.moveDoor ∧ sD.cfg.healthVa ∉ sD.cfg.moveDoor ∧ sD.cfg.healthVa ∉ sD.cfg.heapDoor := by decide +kernel

/-- A queued vector load of class 2 of the U context on vector core 32. -/
def queuedLoad : VEntry :=
  { instr := .vld { x0 with oc := 2, l := 1 }, ctx := .u, pc := 0x10000, vtype := 0x60, vl := 1, lskew := 0, slip := 0, op1 := 0, op2 := 0, op3 := 0,
    done := false, replay := false }

def sQ : State := sV.modCore 32 (fun k => { k with queue := [queuedLoad] })

/-- A queued compare that writes m1 holds a branch on it back. -/
theorem test_hyp_maskQueued : let s := maskState.modCore 32 (fun k => { k with queue := [{ queuedLoad with instr := .vcmp { v0 with d := 1 } }] })
    s.me.maskQueued 1 = true ∧ vtEw s.vtype ≠ 0 ∧ Issues (.bms { d := 1, imm := 0, t := 0, b := 1 }) s := by decide +kernel

theorem test_hyp_waits : queuedLoad ∈ sQ.me.queue ∧ queuedLoad.ctx = sQ.curCtx ∧ entryClass queuedLoad.instr = some 2 ∧
    Issues (.ldd { m0 with oc := 2 }) sQ ∧ Issues (.std { m0 with oc := 2 }) sQ ∧ Issues (.fence { d := 0, imm := 4 }) sQ := by decide +kernel

/-- Strand 1 has a pending persist of page 5, whose pool range may be dead. -/
def sP (dead : Bool) : State :=
  { (sA.setX 5 0x50000).modStrand 1 1 (fun x => { x with persists := [(0x50000, 2 ^ 46)] }) with
    poolDead := if dead then [(2 ^ 46, 2 ^ 20)] else [] }

theorem test_hyp_persist : Issues (.fence { d := 0, imm := 15 }) sA ∧ Issues (.clwb { m0 with d := 0, a := 2 }) sA ∧
    Issues (.pflush { m0 with d := 0, a := 5 }) (sP false) ∧
    isOk (sA.translate (sA.who .load .either) 0x20000) (fun (_, p) => p.typ != 5) = true ∧
    isOk ((sP false).translate ((sP false).who .load .either) 0x50000) (fun (_, p) => p.typ == 5) = true ∧
    Issues .psync (sP false) ∧ (sP false).myStrand.isSome ∧ (sA.myStrand.map (·.persists)) = some [] ∧
    Issues .psync { sA with strands := [] } ∧ { sA with strands := [] }.myStrand = none ∧
    (sP false).lineLost (2 ^ 46) = false ∧ (sP true).lineLost (2 ^ 46) = true := by decide +kernel

theorem test_hyp_persistLocal : isOk (sL.localAccess (sL.who .load .either) (0xFF * 2 ^ 48) 1) = true ∧
    Issues (.clwb { m0 with d := 0, a := 1 }) (sL.setX 1 0x00FF000000000000) ∧
    Issues (.pflush { m0 with d := 0, a := 1 }) (sL.setX 1 0x00FF000000000000) := by decide +kernel

theorem test_hyp_canonical : sA.mem.wf = true ∧ sA.tablesOk = true ∧ State.reset.mem.wf = true := by decide +kernel


/-- x4 and x5 hold addresses in page 2, x6 a length of 0x100, x7 an operand above the address space, x8 the managed page, x10 no window. -/
def sE : State :=
  (((((sC.setX 4 0x20000).setX 5 0x20800).setX 6 0x100).setX 7 0x00FFFFFFFFFFFFFF).setX 8 0x30000).setX 9 0

theorem test_hyp_tokenFree : Spec.tokenFree sE 1 ∧ Spec.tokenFree sE 3 := by
  refine ⟨⟨?_, ?_, ?_, ?_, ?_, unordered_of ?_ ?_⟩, ⟨?_, ?_, ?_, ?_, ?_, unordered_of ?_ ?_⟩⟩ <;> decide +kernel

/-- An operation of a kind with that many ranges queues, or an operand ends it with a status. -/
def queues (s : State) (i : Instr) (n : Nat) : Bool :=
  match Spec.engine s i with
  | some (_, .inr (_, l)) => l.length == n
  | _ => false
def endsWith (s : State) (i : Instr) (st : Nat) : Bool :=
  match Spec.engine s i with
  | some (_, .inl x) => x == st
  | _ => false

/-- The window of x8: two buffers in pages 2 and 10. -/
def window0 : Window := { asid := 1, va := 0x30000, len := 0x1000, buf0 := 0x20000, buf1 := 0xA0000, swapped := false, version := 7 }
def sW : State := { sE with windows := [window0] }

theorem test_hyp_engine : queues sE (.acopy { x0 with a := 4, b := 5, c := 6 }) 2 = true ∧ endsWith sE (.acopy { x0 with a := 7, b := 5, c := 6 }) 6 = true ∧
    endsWith sE (.acopy { x0 with a := 4, b := 5, c := 0 }) 0 = true ∧
    queues (sE.setX 6 0x8005000000000100) (.acopy { x0 with a := 4, b := 5, c := 6, sc := 4 }) 1 = true ∧
    queues ((sE.setX 10 0x1000004).setX 5 8) (.acopy2d { x0 with a := 4, b := 8, c := 10 }) 2 = true ∧
    queues sE (.agather { x0 with a := 4, b := 5, c := 8, f16 := 3 }) 2 = false ∧
    queues ((sE.setX 8 0x20000).setX 9 4) (.agather { x0 with a := 4, b := 5, c := 8, f16 := 3 }) 2 = true ∧
    queues sW (.glaze { x0 with a := 8 }) 0 = true ∧ queues sW (.wread { x0 with a := 8 }) 0 = true ∧ endsWith sE (.glaze { x0 with a := 8 }) 6 = true ∧
    queues sW (.wbind { x0 with a := 8, b := 4 }) 1 = true ∧ queues sW (.wbind { x0 with a := 8, b := 0 }) 0 = true ∧
    allIssue sW [.acopy { x0 with a := 4, b := 5, c := 6 }, .acopy { x0 with a := 4, b := 5, c := 6, sc := 4 }, .acopy2d { x0 with a := 4, b := 8, c := 10 },
      .agather { x0 with a := 4, b := 5, c := 8, f16 := 3 }, .glaze { x0 with a := 8 }, .wread { x0 with a := 8 },
      .wbind { x0 with a := 8, b := 4 }, .acopy { x0 with d := 0 }, .acopy { x0 with d := 2 }] = true := by decide +kernel

/-- A local range without a protection entry fails, and one with an entry passes. -/
theorem test_hyp_ranges : sC.localReason (sC.who .engine .w) (0xFF * 2 ^ 48 + 64) 64 = some 1 ∧
    sL.localReason (sL.who .engine .w) (0xFF * 2 ^ 48 + 64) 64 = none ∧
    queues ((sL.setX 4 (0x00FF000000000040)).setX 5 0x00FF000000000080) (.acopy { x0 with a := 4, b := 5, c := 6 }) 2 = true := by decide +kernel

def sG : State := { sE with groups := [{ handle := 5, nodes := [0, 3] }, { handle := 6, nodes := [3] }], collCalls := [(5, 2)] }

theorem test_hyp_collective : Issues (.acoll { x0 with a := 4, b := 5, c := 6, imm := 5, f16 := 0x40 }) sG ∧ sG.mgmt.node = 0 ∧
    (sG.groups.find? (fun g => g.handle == 5)) = some { handle := 5, nodes := [0, 3] } ∧ (sG.getX 6).toNat % 2 = 0 ∧
    (sG.groups.find? (fun g => g.handle == 9)) = none ∧ Spec.collRead { x0 with f16 := 0x40 } 0x100 = 0x400 ∧
    Issues (.acancel { x0 with a := 0 }) sG := by decide +kernel

def op0 : EngineOp :=
  { id := 3, cluster := 0, core := 0, asid := 1, sid := 1, priv := false, ctx := .u, reg := 9, pc := 0, issuedAt := 0, sc := 0,
    kind := .copy (0xFF * 2 ^ 48 + 0x4000) (0xFF * 2 ^ 48 + 0x100) 0x1800, next := 0x1000, written := 0x1000, ended := none, waitSvc := false,
    hostReq := none, dstOwners := [], buf := [] }

def withOp (o : EngineOp) : State :=
  { sW with cores := [(0, { core0 false with u := { (ctx0 false) with pend := 0x200 }, a := { Ctx.reset with pend := 0x200 }, aWork := .handler msg0 })],
            ops := [o], time := 100000001 }

theorem test_hyp_copyPiece : (withOp op0).op 3 = some op0 ∧ ((withOp op0).core 0).owner = some op0.asid ∧ ((withOp op0).core 0).zeroing = false ∧
    (withOp op0).mem.poisoned (Loc.spad 0 (0x100 + 0x1000)).key 4096 = false ∧
    isNext (exec (.enginePiece 3) (withOp op0)) (fun t => t.op 3 == some { op0 with next := 0x1800, written := 0x1800, ended := some (0x1800, 0) }) = true := by
  decide +kernel

theorem test_hyp_coreTurn : Spec.coreTurn (withOp op0) op0 ∧ (withOp op0).hasPins (.piece 3) = false ∧
    (withOp { op0 with kind := .glaze 0x30000 }).ops.length = 1 := by
  refine ⟨?_, by decide +kernel, by decide +kernel⟩
  intro e h _ _ _
  have : e = op0 := by simpa [withOp] using h
  exact .inl (by rw [this])

theorem test_hyp_engineEvents :
    isNext (exec (.tokenCompletion 3) (withOp { op0 with ctx := .a, ended := some (5, 2) })) (fun t =>
      (t.core 0).a.getX 9 == 0x50002 && !(t.core 0).a.pend.getLsbD 9 && t.ops == []) = true ∧
    isNext (exec (.tokenCompletion 3) (withOp { op0 with ended := some (5, 2) })) (fun t => (t.core 0).u.getX 9 == 0x50002) = true ∧
    (withOp { op0 with kind := .glaze 0x30000 }).windowAt 1 0x30000 = some window0 ∧
    isNext (exec (.windowExchange 3) (withOp { op0 with kind := .glaze 0x30000 })) (fun t =>
      (t.windows.map (fun w => (w.swapped, w.version))) == [(true, 8)]) = true ∧
    isNext (exec (.collectiveTimeout 3) { withOp { op0 with kind := .coll 0 0 0 0 0 0 5 2 } with groups := sG.groups }) (fun t => (t.op 3).map (·.ended) == some (some (0, 7))) = true ∧
    isNext (exec (.remoteCopyTimeout 3) (withOp { op0 with kind := .remote 0 0 1 5 true, issuedAt := 2 })) (fun t => (t.op 3).map (·.ended) == some none) = true := by
  decide +kernel

/-- A vector core with binary32 elements, x3 a length of 5. -/
def vCtx (vt : BitVec 16) (a : Bool) : State :=
  let s := (sV.modCore 32 (fun k => { k with a := { ctx0 false with vtype := vt }, aWork := .handler msg0, u := { k.u with vtype := 0x61 } }))
  let t := { s with curCtx := if a then .a else .u }
  (t.modCx (fun k => { k with vtype := vt })).setX 1 0x20000

theorem test_hyp_vectorConfig : (Spec.mapped (vCtx 0x61 false) ∧ Spec.mapped (vCtx 0x61 true)) ∧
    allIssue (vCtx 0x61 false) [.setvl { d := 9, f := 0, b := 0, a := 3 }, .vsett { d := 9, imm := 0x65 }, .vsett { d := 9, imm := 0x85 }, .vsett { d := 9, imm := 0 },
      .vsettx { d := 9, f := 0, b := 3, a := 6 }, .csrw { d := 6, imm := 5 }] = true := by
  refine ⟨⟨by simp only [Spec.mapped]; decide +kernel, by simp only [Spec.mapped]; decide +kernel⟩, by decide +kernel⟩

theorem test_hyp_vtype : Spec.vtypeLegal 0x65 ∧ Spec.vtypeLegal 0x80 ∧ ¬Spec.vtypeLegal 0x85 ∧ ¬Spec.vtypeLegal 0xA0 ∧ Spec.vtypeReady (vCtx 0x61 false) 0x65 ∧
    Spec.vtypeReady (vCtx 0x61 false) 0 := by
  refine ⟨?_, ?_, ?_, ?_, ?_, ?_⟩ <;> simp only [Spec.vtypeLegal, Spec.vtypeReady] <;> decide +kernel

theorem test_hyp_vtypeCsr : allIssue ((vCtx 0x61 false).setX 6 0x65) [.csrw { d := 6, imm := 5 }, .csrs { d := 6, imm := 5 }, .csrc { d := 6, imm := 5 },
      .csrx { d := 6, imm := 5 }] = true ∧
    isNext (exec (.csrx { d := 6, imm := 5 }) ((vCtx 0x61 false).setX 6 0x65)) (fun t => t.cx.vtype == 0x65 && t.getX 6 == 0x61) = true ∧
    isNext (exec (.csrw { d := 6, imm := 5 }) ((vCtx 0x61 false).setX 6 0x85)) (fun t => t.me.entries.map (·.cause) == [.fmtbad]) = true ∧
    2 ^ 16 ≤ (((vCtx 0x61 false).setX 6 0x10061).getX 6).toNat := by decide +kernel

/-- A lane of core 32 has retired since it last fixed its vector length, with vector work queued or without; a handler meets no strand. -/
theorem test_hyp_vectorElse : let lane := (vCtx 0x61 false).modCore 32 (fun k => { k with retLane := some 3 })
    lane.me.retLane ≠ none ∧ lane.me.remapped = false ∧ lane.me.queue = [] ∧ lane.curCtx = .u ∧
    Issues (.setvl { d := 9, f := 0, b := 0, a := 3 }) lane ∧
    isNext (exec (.setvl { d := 9, f := 0, b := 0, a := 4 }) (lane.setX 4 0xFFFF)) (fun t => t.getX 9 == 120 && t.me.remapped) = true ∧
    (lane.modCore 32 (fun k => { k with queue := [queuedLoad] })).me.queue ≠ [] ∧
    (let s := (vCtx 0x61 true).modCore 32 (fun k => { k with uWork := .empty })
     Spec.major20 .qsync ∧ s.curCtx = .a ∧ s.me.uHolds = false ∧ decide (Issues (.setvl { d := 9, f := 0, b := 0, a := 3 }) s) = true) := by
  simp only [Spec.major20, true_and]; decide +kernel

/-- Vector core 32 as leader of a gang of two. -/
def sGang : State :=
  (sV.modCore 32 (fun k => { k with gang := .leader 2 })).modCore 33 (fun k => { k with gang := .follower 32, owner := none })

theorem test_hyp_vectorControl : allIssue sV [.slip { d := 0, imm := 0xFFFF }, .qsync, .ungang, .gang { d := 9, f := 1, b := 0, a := 0 }] = true ∧
    Issues .qsync sQ ∧ sQ.me.queue ≠ [] ∧ Issues .ungang sGang ∧ sGang.me.queue = [] ∧ sGang.me.gang = .leader 2 ∧
    Issues (.gang { d := 9, f := 1, b := 0, a := 0 }) sGang ∧ sV.me.gang = .none ∧ sV.live 33 = true ∧ (sV.core 33).retLane = none ∧
    (sV.modCore 33 (fun k => { k with uWork := .strand })).live 32 = true ∧
    (sV.modCore 33 (fun k => { k with status := .retired })).live 33 = false := by decide +kernel

/-- x1 = an address in page 2 with FC 0, x3 = a length of 5. -/
def sVL : State := vCtx 0x61 false

theorem test_hyp_vector : allIssue sVL [.vadd v0, .vfadd v0, .vfma x0, .vfcvt { x0 with f16 := 0x0C01, a := 1 }, .mand h0,
      .vsplat { v0 with b := 0, a := 3 }, .vins { v0 with l := 0 }, .vld { x0 with a := 1 }, .vst { x0 with a := 1 }, .mld { x0 with d := 1, a := 1 },
      .vldl { x0 with a := 3 }] = true ∧
    sVL.me.queueFull (.vadd v0) = false ∧ sVL.me.mq = [] ∧ sVL.me.uHolds = true := by decide +kernel

theorem test_hyp_vectorLegal : (Spec.vectorLive sVL ∧ Spec.vectorLive (vCtx 0x61 true)) ∧ Spec.modeOk sVL ∧ Spec.floatOk sVL false true ∧
    Spec.memoryOk sVL { x0 with a := 1 } false false ∧ Spec.memoryOk sVL { x0 with a := 1 } true true ∧
    Spec.scaledOk ((((vCtx 0x361 false).setX 1 0x4300000000020000).setX 2 0xE800000000020000)) { x0 with a := 1, b := 2 } false := by
  refine ⟨⟨?_, ?_⟩, ?_, ?_, ?_, ?_, ?_⟩ <;>
    simp only [Spec.vectorLive, Spec.modeOk, Spec.floatOk, Spec.memoryOk, Spec.scaledOk, Spec.modeOk] <;> decide +kernel

theorem test_hyp_room : Spec.room sVL (.vadd v0) ∧ Spec.room sVL (.vld { x0 with a := 1 }) := by
  have h : sVL.ops = [] := by decide +kernel
  refine ⟨⟨by decide +kernel, by decide +kernel, fun _ o ho => by simp [h] at ho⟩,
    ⟨by decide +kernel, by decide +kernel, fun _ o ho => by simp [h] at ho⟩⟩

theorem test_hyp_vectorDead : Issues (.vadd v0) sV ∧ sV.curCtx = .u ∧ sV.cx.vtype.extractLsb' 5 3 = 0 ∧
    (let s := (vCtx 0x61 true).modCore 32 (fun k => { k with uWork := .empty })
     s.curCtx = .a ∧ s.me.uHolds = false ∧ decide (Issues (.vadd v0) s) = true) := by decide +kernel

theorem test_hyp_toScalar : sVL.me.queue = [] ∧ sVL.me.regPoison = [] ∧ allIssue sVL [.vmovx { v0 with l := 0, f := 1 }, .mpop { h0 with b := 0, f := 3 },
      .mfirst { h0 with b := 0 }] = true := by decide +kernel

def entry0 : VEntry :=
  { instr := .vadd { v0 with f := 0x40, msk := 1 }, ctx := .u, pc := 0x10000, vtype := 0x60, vl := 3, lskew := 0, slip := 0, op1 := 9, op2 := 0, op3 := 0,
    done := false, replay := false }

/-- v[3] = 7 in every word of three, m[0] = 5. -/
def sVE : State := sVL.modCore 32 (fun k => { k with queue := [entry0], v := k.v.set 3 0x000000070000000700000007, m := k.m.set 0 5 })

theorem test_hyp_vectorEntry : (sVE.core 32).queue = [entry0] ∧ (sVE.core 32).vfault = none ∧ (sVE.core 32).regPoison = [] ∧
    Spec.widthOf entry0.vtype = 32 ∧ entry0.vl * 32 ≤ 32768 ∧
    isNext (exec (.vectorEntryExecute 32 0) sVE) (fun t => (t.core 32).v[1] == 0x000000100000000000000010) = true := by decide +kernel

/-! Matrix work on tensor core 544. -/

def sT : State := (sM.modCx (fun k => { k with vtype := 0x61 })).modCore 544 (fun k => { k with lastJoined := true })

/-- Operands and accumulator in binary32. -/
def rk : LX := { x0 with d := 1, a := 3, b := 4, f16 := 0x4 }

theorem test_hyp_matrix : allIssue sT [.ranka rk, .ranks rk, .mwr { rk with b := 4 }, .mrowacc { rk with c := 5 }, .mzero { x0 with a := 0 },
      .mdrop { d := 1 }, .mstat { d := 9, f := 0, b := 0, a := 0 }, .mwait, .mrd { x0 with d := 9, a := 1, b := 4, f16 := 4 }] = true ∧ sT.me.mq = [] ∧ sT.me.long = none ∧
    sT.me.regPoison = [] ∧ sT.me.queue = [] ∧ sT.cx.frm.toNat < 5 := by decide +kernel

theorem test_hyp_matrixLegal : Spec.matrixLive sT true ∧ Spec.matrixLive sM false ∧ Spec.pairLegal rk.f16 ∧ Spec.pairLegal 0x1002 := by
  refine ⟨?_, ?_, ?_, ?_⟩ <;> simp only [Spec.matrixLive, Spec.pairLegal] <;> decide +kernel

def shortEntry (i : Instr) : State := sT.modCore 544 (fun k => { k with mq := [{ instr := i, ctx := .u, op1 := 5, op2 := 2 }] })

theorem test_hyp_matrixEntry : isNext (exec (.matrixEntryExecute 544) (shortEntry (.mzero { x0 with d := 2, a := 0 }))) (fun t =>
      (t.core 544).acLive.getLsbD 2 && (t.core 544).mq == []) = true ∧
    isNext (exec (.matrixEntryExecute 544) (shortEntry (.mdrop { d := 2 }))) (fun t => !(t.core 544).acLive.getLsbD 2) = true ∧
    (shortEntry (.ranka rk)).me.mq.length = 1 ∧ (shortEntry .mwait).me.mq ≠ [] ∧ (0x1002 : BitVec 16).extractLsb' 0 2 = 2 := by decide +kernel

/-- Panels of binary32 at 0x100 and 0x400 of the local scratchpad, two steps. -/
def sPanel : State :=
  ((({ sT with cores := [(544, open0 { core0 false with u := { ctx0 false with vtype := 0x61 } })] } : State).setX 3
    0x00FF000000000100).setX 4 0x00FF000000000400).setX 5 2

def panel : LX := { rk with c := 5 }
def running (kind : Nat) (n : Nat) (s : State) : State := s.modCore 544 (fun k => { k with long := some { kind, acc := 1, next := n, mcKey := [], panels := [] } })

theorem test_hyp_panel : Issues (.mopak panel) sPanel ∧ sPanel.curCtx = .u ∧ sPanel.me.regPoison = [] ∧ sPanel.me.u.mstart = 0 ∧ sPanel.live 544 = true ∧
    Spec.opAddr sPanel 3 = 0xFF * 2 ^ 48 + 0x100 ∧ ((sPanel.getX 5).extractLsb' 0 16).toNat = 2 ∧
    anyEntry sPanel.me (sPanel.who .load .r) 0x00FF000000000100 512 = true ∧ (running 0 1 sPanel).me.long.isSome ∧
    isNext (exec (.mopak panel) sPanel) (fun t => t.me.long == some { kind := 0, acc := 1, next := 0, mcKey := [], panels := [544, 544] }) = true ∧
    isNext (exec (.mopak panel) (running 0 1 sPanel)) (fun t => t.me.long == none && t.cx.pc == sPanel.cx.nextPc) = true ∧
    sPanel.mem.poisoned (Loc.spad 544 0x100).key 512 = false := by decide +kernel

theorem test_hyp_rows : Issues (.msta { panel with f16 := 0 }) (sPanel.setX 4 256) ∧ Issues (.mlda { panel with f16 := 0 }) (sPanel.setX 4 256) ∧
    ((sPanel.setX 3 0x20000).getX 3).extractLsb' 56 8 = 0 ∧ sPanel.hasPins (.row 544) = false := by decide +kernel


/-! References: the object of page 3 has 16 bytes; the cell of page 2 at 0x20000 holds its reference. -/

def ref3 (old : Bool) : Word := 0x8000000000030000 + (if old then 0x4000000000000000 else 0)

def sH (q : Word) : State :=
  let s : State := { sE with mem := (sE.mem.write 0x120000 8 16).write 0x110000 8 (ref3 false).toNat }
  s.modCx (fun k => { k with q := (k.q.set 1 q).set 2 (ref3 false) })

theorem test_hyp_ref : Spec.isRef (ref3 true) ∧ Spec.current (sH 0) (ref3 false) ∧ ¬Spec.current (sH 0) (ref3 true) := by
  refine ⟨?_, ?_, ?_⟩ <;> simp only [Spec.isRef, Spec.current] <;> decide +kernel

theorem test_hyp_heal : Spec.refAddr (ref3 true) = 0x30000 ∧ (sH 0).fwdOf (sH 0).cx.as 0x30000 = none ∧
    isOk ((sH 0).managedPage ((sH 0).who .heal .look) 0x30000) = true ∧ isLocal (Spec.refAddr 0x80FF000000000000) = true := by decide +kernel

/-- A cycle lists the object of page 3 as to be copied to page 9, whose first 16 bytes are zero. -/
def sFwd (stale : FwdState) : State :=
  { sH 0 with cycles := [{ asid := 1, poster := 1, stage := .flipped, set := [(0x30000, 0)], retained := [], fwd := [(0x30000, 0x90000, stale)] }] }

theorem test_hyp_pending : ((sFwd .pending).fwdOf 1 0x30000).map (·.2) = some (0x90000, .pending) ∧
    ((sFwd .copied).fwdOf 1 0x30000).map (·.2) = some (0x90000, .copied) ∧
    isOk (heal (sFwd .pending) (ref3 true)) (fun (t, r) => r == 0x8000000000090000 && (t.fwdOf 1 0x30000).map (·.2.2) == some .copied) = true ∧
    isOk ((sH 0).barrierCheck .store .w 0x20000) = true := by decide +kernel

theorem test_hyp_references : allIssue (sH (ref3 false)) [.qmov { h0 with d := 1, f := 0, b := 0, a := 2 }, .qcvtToRef { h0 with d := 1, f := 0, b := 0, a := 0 },
      .refeq { h0 with d := 9, f := 0, b := 1, a := 2 }, .ldref { m0 with d := 1, a := 4 }, .stref { m0 with d := 1, a := 4 },
      .ldf { m0 with d := 9, imm := 8, a := 1 }, .stf { m0 with d := 9, imm := 8, a := 1 }, .pin { h0 with d := 9, f := 0, b := 0, a := 1 },
      .unpin { h0 with d := 0, f := 0, b := 0, a := 1 }] = true ∧
    isOk ((sH 0).barrierAccess .load .r 0x20000) (fun (t, p) => !t.placePoisoned 1 p 8 && t.placeRead 1 p 8 == (ref3 false).toNat) = true ∧
    isOk ((sH 0).barrierAccess .store .w 0x20000) (fun (t, _) => isOk (t.barrierAccess .store .w 0x20000)) = true ∧
    isOk (heal (sH 0) (ref3 true)) (fun (t, r) => r == ref3 false && isOk (t.barrierAccess .atomic .rw 0x20000)) = true := by decide +kernel

theorem test_hyp_healing : isNext (exec (.ldref { m0 with d := 3, a := 4 }) { sH 0 with mem := (sH 0).mem.write 0x110000 8 (ref3 true).toNat }) (fun t =>
      t.cx.q[3] == ref3 false && t.mem.read 0x110000 8 == (ref3 false).toNat) = true ∧
    isNext (exec (.stref { m0 with d := 1, a := 4 }) (sH (ref3 true))) (fun t =>
      t.cx.q[1] == ref3 false && t.mem.read 0x110000 8 == (ref3 false).toNat) = true ∧
    isNext (exec (.refeq { h0 with d := 9, f := 0, b := 2, a := 1 }) (sH (ref3 true))) (fun t => t.getX 9 == 1 && t.cx.q[1] == ref3 false) = true := by
  decide +kernel

def heldPage (hp : Nat) (s : State) : Bool :=
  match s.managedPage (s.who .heal .look) 0x30000 with
  | .ok (t, e) => let p := t.framePlace (s.who .heal .look) 0x30000 e
    let n := objLength t.mem p.key
    e.hpin == hp && n == 16 && isOk (t.objectPages (s.who .heal .look) (n / 2 ^ 16 + 2) 0x30000 n) (fun (_, l) => l.length == 1)
  | .error _ => false

theorem test_hyp_pins : heldPage 0 (sH (ref3 false)) = true ∧ isLocal 0x30008 = false ∧
    isOk ((sH 0).homeEntry 1 0x30008) (fun (t, e, _) =>
      decide (protReason { (sH 0).who .load .r with barrier := true } e.leaf.toNat = none) && leafType e.leaf.toNat == 3 &&
        isOk (t.barrierAccess .load .r 0x30008) (fun (u, p) => !u.placePoisoned 1 p 8)) = true ∧
    isNext (exec (.pin { h0 with d := 9, f := 0, b := 0, a := 1 }) (sH (ref3 false))) (fun t => heldPage 1 t && t.getX 9 == 0x30000) = true ∧
    isNext (exec (.ldf { m0 with d := 9, imm := 8, a := 1 }) (sH (ref3 false))) = true := by decide +kernel

/-! Strands. -/

/-- Core 0 with its U strand; x4 the place word, x5 the PC of the child, x6 the join word's address. -/
def sSp (w : Word) : State := ((sC.setX 4 w).setX 5 0x10040).setX 6 0

/-- SPAWN gives a status. -/
def spawns (s : State) (st : Word) : Bool :=
  isNext (exec (.spawn { x0 with d := 9, a := 4, b := 5, c := 6 }) s) (fun t => t.getX 9 == st)

/-- Core 1, to which place word 1 leads, has a strand and no free slot. -/
def crowded (s : State) : State :=
  s.modCore 1 (fun k => { k with uWork := .strand, arrival := .replicate 64 { img := newImage 0x10040 1 5 (.replicate 4 0), state := .waitRing } })

theorem test_hyp_spawn : spawns (sSp (2 ^ 40 * 2 ^ 10)) 3 = true ∧ spawns (sSp 1) 0 = true ∧
    isNext (exec (.spawn { x0 with d := 9, a := 4, b := 5, c := 6 }) (crowded ((sSp 1).setX 2 0x20100))) (fun t =>
      t.getX 2 == 0x200E0 && t.cx.pc == 0x10040 && t.cx.inldepth == 1) = true ∧
    spawns ((crowded (sSp 1)).modCx (fun k => { k with inldepth := 255 })) 2 = true ∧
    Issues (.spawn { x0 with d := 9, a := 4, b := 5, c := 6 }) (sSp 1) := by decide +kernel

/-- x3 holds the address of the join word, whose OUT is n. -/
def sJoin (n : Nat) : State := ({ sC with mem := sC.mem.write 0x110000 8 (n + 3 * 2 ^ 32) } : State).setX 3 0x20000

theorem test_hyp_join : isNext (exec (.join { h0 with d := 9, b := 0 }) (sJoin 0)) (fun t => t.getX 9 == 3) = true ∧
    isNext (exec (.join { h0 with d := 9, b := 0, f := 1 }) (sJoin 2)) (fun t => t.getX 9 == 0x8000000000000002) = true ∧
    isNext (exec (.join { h0 with d := 9, b := 0 }) (sJoin 2)) (fun t => t.cx.pc == 0x10000) = true ∧ (sJoin 2).mayPark = false ∧
    Issues (.join { h0 with d := 9, b := 0 }) (sJoin 2) := by decide +kernel

/-- The frame of an inline child at 0x20000: return to 0x10040, no join word, D = 9. -/
def sFrame : State :=
  ({ sC with mem := ((sC.mem.write 0x110000 8 0x10040).write 0x110010 8 (9 * 2 ^ 16)).write 0x110018 8 0x20000 } : State).modCx
    (fun k => { (k.setX 2 0x20000) with inldepth := 1 })

theorem test_hyp_exit : isNext (exec (.exit { h0 with d := 0, b := 0, a := 0 }) sC) (fun t => t.strands == []) = true ∧
    Issues (.exit { h0 with d := 0, b := 0, a := 0 }) sC ∧ (sC.myStrand.map (fun x => (x.persists, x.join))) = some ([], 0) ∧
    isNext (exec (.exit { h0 with d := 0, b := 0, a := 0 }) sFrame) (fun t => t.getX 9 == 1 && t.getX 2 == 0x20020 && t.cx.pc == 0x10040) = true := by
  decide +kernel

/-- The strand is the only member of a crew. -/
def sCrew : State :=
  { sC with strands := [{ strand0 with crew := some 4 }],
            crews := [{ id := 4, asid := 1, site := 0, record := 0, members := [1], exited := [], arrived := [], released := [], abnormal := false, clsMask := 0 }] }

theorem test_hyp_strandControl : allIssue sC [.yield, .migrate { h0 with d := 9, b := 0, a := 4 }, .bar { d := 0, imm := 3 },
      .crewinfo { h0 with d := 9, b := 0, a := 0 }] = true ∧ sC.advance.mayPark = false ∧ sC.crewSite 1 1 = none ∧
    isNext (exec (.migrate { h0 with d := 9, b := 0, a := 4 }) (sSp 0x20000)) (fun t => t.getX 9 == 2) = true ∧
    isNext (exec (.migrate { h0 with d := 9, b := 0, a := 4 }) (sSp 0)) (fun t => t.getX 9 == 1) = true ∧
    isNext (exec (.migrate { h0 with d := 9, b := 0, a := 4 }) ((sSp 0).modCore 0 (fun k => { k with gang := .leader 2 }))) (fun t => t.getX 9 == 3) = true ∧
    isNext (exec (.migrate { h0 with d := 9, b := 0, a := 4 }) (sSp 1)) (fun t => t.moves.length == 1 && t.me.uWork == .reserved 1) = true ∧
    (sCrew.myStrand.bind (·.crew)).bind sCrew.crew = sCrew.crews.head? ∧
    isNext (exec (.bar { d := 0, imm := 3 }) sCrew) (fun t => t.cx.pc == sCrew.cx.nextPc) = true ∧
    isNext (exec (.crewinfo { h0 with d := 9, b := 0, a := 0 }) sCrew) (fun t => t.getX 9 == 0x10000) = true := by decide +kernel

/-- Core 1's arrival queue holds a strand that is ready, and core 1 leads no gang. -/
def sYield : State :=
  let s := sC.modCore 0 (fun k => { k with arrival := [{ img := newImage 0x10040 1 5 (.replicate 4 0), state := .ready 0 }] })
  { s with strands := s.strands ++ [{ strand0 with sid := 5 }] }

theorem test_hyp_yield : sYield.advance.yields = true ∧ sYield.persisted 0 .u = true ∧ sYield.me.gang = .none ∧
    isNext (exec .yield sYield) (fun t => (t.core 0).u.sid == 5 && (t.core 0).arrival.length == 1) = true ∧
    isNext (exec (.migrate { h0 with d := 9, b := 0, a := 4 }) (crowded (sSp 1))) (fun t => t.me.uWork == .empty && (t.site 1).overflow.length == 1) = true := by
  decide +kernel

/-! Messages and the A context. -/

/-- x3 names core 0, which owns address space 1 and has room. -/
def sMsg : State := (sC.modCore 0 (fun k => { k with mboxcfg := 2, a := { (ctx0 false) with pend := 0x200 } })).setX 3 0

def flight0 (w : Option Word) : Flight :=
  { id := 8, core := 0, ctx := .a, asid := 1, sid := 1, reg := 9, target := 0, place := 0, msg := msg0, hops := 0, answer := w }

theorem test_hyp_message : allIssue sMsg [.msend h0, .msenda { h0 with d := 9 }] = true ∧ sMsg.flights = [] ∧ sMsg.mgmt.capMode = 0 ∧ sMsg.moves = [] ∧
    isNext (exec (.msend { h0 with d := 9 }) sMsg) (fun t => t.getX 9 == 0x100000000 && t.me.slots.length == 1) = true ∧
    isNext (exec (.msend { h0 with d := 9 }) (sMsg.modCore 0 (fun k => { k with mboxcfg := 0x8002 }))) (fun t => t.getX 9 == 1) = true ∧
    isNext (exec (.msend { h0 with d := 9 }) (sMsg.setX 3 5)) (fun t => t.getX 9 == 0x50002) = true ∧
    isNext (exec (.messageAnswer 8) { sMsg with flights := [flight0 none] }) (fun t => t.flights == [flight0 (some 0x100000000)]) = true ∧
    isNext (exec (.msendaCompletion 8) { sMsg with flights := [flight0 (some 7)] }) (fun t => (t.core 0).a.getX 9 == 7 && t.flights == []) = true := by
  decide +kernel

def entryS : SvcEntry :=
  { cause := .sysc, sepc := 0x10008, saddr := 1, sinfo := 2, sqimg := 0, pprv := false, actx := false, gangw := false, image := 0xB0000,
    asid := 1, sid := 1, held := false, engineOp := none }

/-- Service code of `entryS`, or a handler, runs in the A context of core 0. -/
def sA0 (svc : Bool) : State :=
  { (sMsg.modCore 0 (fun k => { k with aWork := if svc then .service entryS none else .handler msg0,
                                       a := { (ctx0 svc) with pc := 0x10000 } })) with curCtx := .a }

theorem test_hyp_entries : sC.live 0 = true ∧ sC.me.aWork = .idle ∧ sC.me.gang = .none ∧ sC.me.entries = [] ∧
    isNext (exec (.handlerStart 0) (sC.modCore 0 (fun k => { k with slots := [msg0] }))) (fun t =>
      (t.core 0).aWork == .handler msg0 && (t.core 0).a.pc == 0x10040 && (t.core 0).a.getX 3 == 5) = true ∧
    isNext (exec (.serviceEntry 0) (sC.modCore 0 (fun k => { k with entries := [entryS], svec := 0x10001 }))) (fun t =>
      (t.core 0).aWork == .service entryS none && (t.core 0).a.pc == 0x10000 + BitVec.ofNat 64 (64 * Cause.sysc.code) && (t.core 0).sepc == 0x10008) = true ∧
    Issues .hend (sA0 false) ∧ isNext (exec .hend (sA0 false)) (fun t => t.me.aWork == .idle) = true ∧
    Issues .hend ((sA0 false).modCx (fun k => { k with pend := 8 })) := by decide +kernel

theorem test_hyp_sret : Issues (.sret { d := 0 }) (sA0 true) ∧ (sA0 true).me.sstatus.getLsbD 2 = false ∧
    isNext (exec (.sret { d := 0 }) (sA0 true)) (fun t => t.me.aWork == .idle) = true ∧
    Issues (.sret { d := 0 }) sS ∧ isNext (exec (.sret { d := 0 }) (sS.modCore 0 (fun k => { k with sepc := 0x10040 }))) (fun t =>
      t.cx.pc == 0x10040 && !t.cx.priv) = true ∧
    Issues (.sret { d := 0 }) (sS.modCore 0 (fun k => { k with sstatus := 4 })) := by decide +kernel

theorem test_hyp_trapEntry : (sA0 true).me.aWork = .service entryS none ∧ (sA0 true).curCtx = .a ∧ sQ.curCtx = .u ∧ sQ.me.queue ≠ [] ∧
    sC.me.queue = [] ∧ sC.me.mq = [] ∧ sC.me.long = none ∧ sC.me.gang = .none ∧ sC.persisted 0 .u = true ∧ sC.sendsAnswered 0 .u = true ∧
    sC.consumed 1 { cause := .brk } = none ∧ ((sC.strand 1 1).bind (·.crew)) = none ∧
    (match sC.spillImage (sC.imageU 0) with | .ok (_, a) => a == 0xB0000 | .error _ => false) = true := by decide +kernel

theorem test_hyp_stopsBare : Spec.stopsBare sC 0 := by
  refine ⟨by decide +kernel, by decide +kernel, by decide +kernel⟩

/-! Tasks: a ready record at 0x20000, a tensor cluster 34. -/

def sTask : State := (((sC.setX 4 0x20000).setX 5 0xFFFF).setX 6 34).setX 7 0x00FF000000000040

theorem test_hyp_enqt : Issues (.enqt { h0 with d := 9, a := 4, b := 6 }) sTask ∧
    isNext (exec (.enqt { h0 with d := 9, a := 7, b := 6 }) sTask) (fun t => t.getX 9 == 3) = true ∧
    isNext (exec (.enqt { h0 with d := 9, a := 4, b := 5 }) sTask) (fun t => t.getX 9 == 2) = true ∧
    isNext (exec (.enqt { h0 with d := 9, a := 4, b := 6 }) sTask) (fun t => t.getX 9 == 0 && (t.cluster 34).tasks.length == 1) = true ∧
    sTask.live 544 = true ∧ sTask.cls 544 = .tensor ∧ (sTask.cluster 34).tasks = [] ∧ (sTask.recordWait 1 0x20000).isSome ∧
    Issues (.enqt { h0 with d := 9, a := 3, b := 6 }) sTask ∧ Spec.opAddr sTask 3 % 64 ≠ 0 := by decide +kernel

/-- The record at 0x20000 has state v. -/
def sRec (v : Nat) : State := { sTask with mem := sTask.mem.write 0x110018 8 v }

theorem test_hyp_tdone : Issues (.tdone { h0 with d := 9, a := 4, b := 0 }) (sRec 2) ∧
    isOk ((sRec 2).loadAt .atomic .rw 0x20018 8) (fun (t, _, v) => v == 2 && (t.completeRecord 1 0x20000 0 false).isSome) = true ∧
    isNext (exec (.tdone { h0 with d := 9, a := 4, b := 0 }) (sRec 1)) (fun t => t.getX 9 == BitVec.allOnes 64) = true ∧
    isNext (exec (.tdone { h0 with d := 9, a := 4, b := 0 }) (sRec 2)) (fun t => t.getX 9 == 0) = true ∧
    allIssue sTask [.grun { h0 with d := 9, a := 4, b := 5 }, .cbinv { h0 with d := 0, a := 4, b := 6 }] = true := by decide +kernel

/-- A template at 0x20000 of one record, with one run slot at 0x20400. -/
def sGrun : State :=
  { sTask with mem := (((sTask.mem.write 0x110000 8 0x10001).write 0x110008 8 64).write 0x110018 8 0x20400).write 0x110020 8 1 }

theorem test_hyp_grun : isNext (exec (.grun { h0 with d := 9, a := 4, b := 0 }) sGrun) (fun t => t.runs.length == 1 && t.getX 9 == 0x20400) = true ∧
    isNext (exec (.grun { h0 with d := 9, a := 4, b := 0 }) { sGrun with mem := sGrun.mem.write 0x110400 8 7 }) (fun t => t.getX 9 == 0) = true := by
  decide +kernel

/-! System instructions. -/

def sSys (ring : Nat) : State := { sTask with spaces := [{ space0 with sysVa := ring }] }

theorem test_hyp_sysc : allIssue sTask [.sysc { h0 with d := 9, a := 6, b := 0 }, .wait { h0 with d := 9, a := 4, b := 0 }, .opreq { d := 0, imm := 1 }] = true ∧ (sSys 0).space 1 = some { space0 with sysVa := 0 } ∧ { sTask with spaces := [] }.space 1 = none ∧
    (sSys 0xA8000).space 1 = some space0 ∧ ((sSys 0xA8000).setX 6 0x80000000).getX 6 = 0x80000000 ∧
    isOk ((sSys 0xA8000).sysPlace space0 0) (fun (t0, _) => isOk (t0.sysPlace space0 0) (fun (t, p) => t.sysFree space0 0 p &&
      decide (t.me = (sSys 0xA8000).me) && t.space 1 == some space0)) = true ∧
    isNext (exec (.sysc { h0 with d := 9, a := 6, b := 0 }) (sSys 0xA8000)) (fun t => t.sysReqs.length == 1 && t.cx.pend.getLsbD 9) = true := by decide +kernel

theorem test_hyp_system : isOk (sTask.access (sTask.who .load .r) 0x20000 8) (fun (t, p) => t.placeRead 1 p 8 == 0 && !t.placePoisoned 1 p 8) = true ∧
    isNext (exec (.wait { h0 with d := 9, a := 4, b := 6 }) sTask) (fun t => t.getX 9 == 0) = true ∧
    isNext (exec (.wait { h0 with d := 9, a := 4, b := 0 }) (sTask.modCx (fun k => { k with deadline := some 0 }))) (fun t => t.getX 9 == 0) = true ∧
    (sTask.modCore 0 (fun k => { k with gang := .leader 2 })).mayPark = false ∧
    Issues (.xinv { h0 with d := 0, a := 4, b := 6 }) { sTask with cores := sS.cores } ∧
    isNext (exec (.xinv { h0 with d := 0, a := 4, b := 5 }) { sTask with cores := sS.cores }) = true ∧
    sTask.rangePinned 1 0x20000 0x20022 = false := by decide +kernel

theorem test_hyp_xinv : sTask.rangeMoving 1 0x20000 0x20022 = false ∧ isLocal 0x20000 = false := by decide +kernel

/-- Core 1 runs a second strand of the address space, core 3 one of another; x4 to x7 name cores 1, 2, 5000 and 3. The caller has level S. -/
def sTwo : State :=
  let s := (((sS.setX 4 1).setX 5 2).setX 6 5000).setX 7 3
  { s with cores := s.cores ++ [(1, { core0 false with u := { ctx0 false with strandId := 2 } }), (3, { core0 false with u := { ctx0 false with asid := 2 } })],
           strands := s.strands ++ [{ strand0 with sid := 2, lastCore := 1 }] }

def preempts (a : BitVec 5) (st : Word) : Bool := isNext (exec (.preempt { h0 with d := 9, a, b := 0 }) sTwo) (fun t => t.getX 9 == st)
def streams (s : State) (a b : BitVec 5) (st : Word) : Bool := isNext (exec (.ctxstream { h0 with d := 9, a, b }) s) (fun t => t.getX 9 == st)

theorem test_hyp_preempt : Issues (.preempt { h0 with d := 9, a := 4, b := 0 }) sTwo ∧ preempts 6 3 = true ∧ preempts 5 1 = true ∧ preempts 7 2 = true ∧
    isNext (exec (.preempt { h0 with d := 9, a := 4, b := 0 }) sTwo) (fun t => t.getX 9 == 0 && (t.core 1).uWork == .empty &&
      (t.site 1).overflow.length == 1) = true ∧
    Issues (.ctxstream { h0 with d := 9, a := 4, b := 5 }) sTwo ∧ streams sTwo 6 5 3 = true ∧ streams sTwo 5 4 1 = true ∧ streams sTwo 7 5 2 = true ∧
    isNext (exec (.ctxstream { h0 with d := 9, a := 4, b := 5 }) sTwo) (fun t => t.moves.length == 1 && t.cx.waiting == .move sTwo.nextId) = true ∧
    streams (sTwo.modCx (fun k => { k with waiting := .move 77 })) 4 5 0 = true := by decide +kernel

/-- The strand of core 1 has a request due that came before. -/
def sAsked : State := { sTwo with strands := sTwo.strands.map (fun t => if t.sid = 2 then { t with stopDue := some 0 } else t), nextId := 5 }

theorem test_hyp_preemptWaits : sAsked.askedBefore 1 2 sAsked.nextId = true ∧ Issues (.preempt { h0 with d := 9, a := 4, b := 0 }) sAsked ∧
    isNext (exec (.preempt { h0 with d := 9, a := 4, b := 0 }) sAsked) (fun t => t.cx.waiting == .stop 1 1 2 5 && t.cx.pc == sAsked.cx.pc) = true := by
  decide +kernel


/-! Events of power, errors, hosts, pages and the heap. -/

/-- Tile 0 of the working core asks for OP6; tile 2 has no work, tile 1 is gated. Every site's pool holds `pool` µW. -/
def sPow (pool : Nat) : State :=
  let s := (sC.modCore 0 (fun k => { k with opreq := 6 })).modTile 1 (fun x => { x with gated := true, lent := 0 })
  { s with sites := s.sites.map (fun x => { x with pool }), time := 5000 }

theorem test_hyp_power : (sPow 0).wanted 0 = 6 ∧ ((sPow 0).site ((sPow 0).tileSite 0)).cap = 7 ∧
    0 < Spec.lack (sPow 0) 0 6 ∧ Spec.lack (sPow 100000000) 0 6 ≤ (sPow 100000000).lendable ((sPow 0).tileSite 0) ∧
    isNext (exec (.damperGrant 0) (sPow 100000000)) (fun t => 0 < (t.tile 0).lent) = true ∧
    isNext (exec (.damperGrant 0) (sPow 0)) (fun t => (t.tile 0).refused) = true ∧
    isNext (exec (.pointSwitch 0) (sPow 0)) (fun t => (t.tile 0).point == 3) = true ∧
    isNext (exec (.pointSwitch 0) ((sPow 0).modTile 0 (fun x => { x with lent := 100000000 }))) (fun t => (t.tile 0).point == 6) = true := by
  decide +kernel

theorem test_hyp_asks : Spec.asksAlone (sPow 0) 0 ∧ Spec.wants (sPow 0) 0 6 ∧ ¬Spec.wants (sPow 0) 0 7 := by
  refine ⟨?_, ?_, ?_⟩ <;> simp only [Spec.asksAlone, Spec.wants] <;> decide +kernel

/-- Tile 2 has asked before tile 0. -/
theorem test_hyp_askedFirst : let s := ((sPow 0).modCore 8 (fun k => { k with opreq := 6, uWork := .strand })).modTile 2 (fun x => { x with asked := some 7 })
    s.asksPoint 2 = true ∧ s.tileSite 2 = s.tileSite 0 ∧ s.tileMates 0 = [0] ∧ (s.tile 2).asked = some 7 ∧ s.tablesOk = true ∧
    isNext (exec (.damperGrant 0) s) (fun t => (t.tile 0).asked == some 5000) = true := by decide +kernel

/-- A gang of eight is run by two tiles. -/
theorem test_hyp_tilePair : (((sPow 0).modCore 0 (fun k => { k with gang := .leader 8 })).modCore 4 (fun k => { k with gang := .follower 0 })).tileMates 0 =
    [0, 1] := by decide +kernel

theorem test_hyp_gating : (∀ c ∈ tileCores 2, (sPow 0).hasWork c = false) ∧ ¬(∀ c ∈ tileCores 0, (sPow 0).hasWork c = false) ∧
    isNext (exec (.tileGate 2) (sPow 0)) (fun t => (t.tile 2).idleSince == some 5000) = true ∧
    isNext (exec (.tileGate 2) ((sPow 0).modTile 2 (fun x => { x with idleSince := some 0 }))) (fun t => (t.tile 2).gated) = true ∧
    isNext (exec (.tileWake 1) ((sPow 100000000).modCore 4 (fun k => { k with uWork := .strand }))) (fun t => !(t.tile 1).gated) = true ∧
    isNext (exec (.tileWake 1) ((sPow 0).modCore 4 (fun k => { k with uWork := .strand }))) (fun t => (t.tile 1).waking) = true ∧
    isNext (exec (.opLimitLower 0) (sPow 0)) (fun t => (t.tile 0).retakes == [5000]) = true ∧
    isNext (exec (.opLimitLower 0) ((sPow 0).modTile 0 (fun x => { x with retakes := .replicate 16 4000 }))) (fun t => (t.tile 0).limit == 6) = true ∧
    isNext (exec (.thermalWarning 1) (sPow 0)) (fun t => (t.site 1).warn) = true ∧
    isNext (exec (.conePointRecovery 1) (sPow 0)) (fun t => !(t.site 1).throttle) = true := by decide +kernel

/-- The log has 64 slots at 0x200000, the first of them free. -/
def sLog (lost : Nat) : State := { sC with mgmt := { sC.mgmt with logReg := 0x200006, logLost := lost } }

theorem test_hyp_errors : (sLog 0).logRing = some (0x200000, 64) ∧ (sLog 0).mem.read 0x200000 8 = 0 ∧
    { sLog 0 with mem := sC.mem.write 0x200000 8 5 }.mem.read 0x200000 8 ≠ 0 ∧ (sLog 0).goodPa 0x110000 = true ∧ (sLog 0).goodPa (2 ^ 46) = true ∧
    isNext (exec .errorLogSpace (sLog 9)) (fun t => t.mgmt.logPos == 1 && t.mgmt.logLost == 0 && t.mem.read 0x200020 8 == 9) = true ∧
    isNext (exec (.poisonCreated 0 0 0x110020) (sLog 0)) (fun t => t.mem.poisoned 0x110020 1 && t.mgmt.logPos == 1 && t.mgmt.logLost == 1) = true ∧
    isNext (exec (.poisonCreated 4 32 0x1003) sV) (fun t => (t.core 32).regPoison == [(0, 1, 3)]) = true ∧
    isNext (exec (.pseudoChannelFailing 5) { sLog 0 with pcErrors := [{ pc := 5, lost := 0, recent := [(0, 4097)] }] }) (fun t => t.mgmt.pcFail == [5]) = true ∧
    sC.live 0 = true ∧ isNext (exec (.coreFence 0) sC) (fun t => (t.core 0).status == .fenced) = true ∧
    isNext (exec (.laneRetire 32 3) sV) (fun t => (t.core 32).retLane == some 3) = true ∧
    isNext (exec (.laneRetire 32 3) (sV.modCore 32 (fun k => { k with retLane := some 1 }))) (fun t => (t.core 32).status == .fenced) = true ∧
    isNext (exec (.matrixStepCheckFail 544) (running 0 1 sPanel)) (fun t => (t.core 544).residue == 1) = true ∧
    isNext (exec (.matrixStepCheckFail 544) ((running 0 1 sPanel).modCore 544 (fun k => { k with residue := 1 }))) (fun t =>
      (t.core 544).status == .fenced) = true := by decide +kernel

/-- A corrected error within a millisecond of one that is still in its slot; a follower's register. -/
theorem test_hyp_shared : isNext (exec (.errorCorrected 4 5 0x110000 3)
      { sLog 0 with mem := sC.mem.write 0x200000 8 1, mgmt := { (sLog 0).mgmt with corrLog := [(4, 5, 0, some 0)] } }) (fun t =>
      t.mem.read 0x200020 8 == 3) = true ∧ (sGang.core 33).gang = .follower 32 ∧ (sGang.core 32).gang = .leader 2 ∧
    isNext (exec (.poisonCreated 4 33 0x1003) sGang) (fun t => (t.core 32).regPoison == [(0, 1, 131)]) = true := by decide +kernel

/-- Another core of the site takes the REMOTE report of a core that is fenced. -/
theorem test_hyp_fenceReport : sC.live 1 = true ∧ sC.siteOf 1 = sC.siteOf 0 ∧
    isNext (exec (.coreFence 0) sC) (fun t => (t.core 1).entries.any (fun e => e.cause == .remote && e.sid == 1)) = true := by decide +kernel

def req (pri : Bool) : HostReq := { id := 5, site := 0, asid := 1, port := 0, pasid := 7, page := 0x60, needW := false, pri, since := 0 }
def sHost (pri : Bool) : State := { sC with hostReqs := [req pri], time := 10000000, nextId := 6 }

theorem test_hyp_translation : (sHost true).hostReqs[0]? = some (req true) ∧ (req true).since + 10000000 ≤ (sHost true).time.toNat ∧
    isNext (exec (.atsCompletion 0 0x5000 3) (sHost false)) (fun t => t.ats.length == 1 && t.hostReqs == []) = true ∧
    isNext (exec (.priResponse 0 0) (sHost true)) (fun t => t.hostReqs.map (·.pri) == [false]) = true ∧
    { sHost true with invals := [{ port := 0, pasid := 7, va := 0x60000, len := 4096 }] }.invals[0]? =
      some { port := 0, pasid := 7, va := 0x60000, len := 4096 } ∧
    { sHost true with time := 5 }.time.toNat < 10000000 := by decide +kernel

theorem test_hyp_answered : Spec.seated (sHost true) ∧ (sHost true).makeRoom 0 0x60 = some (sHost true) := by
  exact ⟨by simp only [Spec.seated]; decide +kernel, by unfold State.makeRoom; exact if_pos (by decide +kernel)⟩

/-- A pin that keeps a dropped translation. -/
theorem test_hyp_invals : let a : Ats := { site := 0, asid := 1, port := 0, pasid := 7, page := 0x60, hpa := 5, r := true, w := true, stamp := 0 }
    let s := { sHost true with invals := [{ port := 0, pasid := 7, va := 0x60000, len := 4096 }] }
    isNext (exec (.invalidationCompletion 0) s) (fun t => t.invals == []) = true ∧
    isNext (exec (.invalidationCompletion 0) (s.modHome 0 (fun h => { h with pins := [{ holder := .piece 9, asid := 1, pages := [(2, false)], ats := [a] }] }))) (fun t => t.invals.length == 1) = true := by
  decide +kernel

/-- The syscall ring of the address space lies on a page of host 0, and strand 1 waits for its result in x9. -/
def sRing : State :=
  { (sC.modCx (fun k => { k with pend := 0x200 })) with
    spaces := [{ space0 with sysVa := 0x60000 }], sysReqs := [{ asid := 1, pos := 0, sid := 1, reg := 9, cancelled := false }] }

theorem test_hyp_host : sRing.ringOn 0 { space0 with sysVa := 0x60000 } = true ∧ sRing.hostReqs = [] ∧
    isNext (exec (.hostPortDown 0) sRing) (fun t => t.sysReqs == [] && (t.core 0).u.getX 9 == BitVec.allOnes 64) = true ∧ sC.sysReqs = [] ∧
    sC.hbmEnd ≤ 2 ^ 41 ∧ 0x110000 < sC.hbmEnd ∧ (sC.port 0).up = true ∧
    isNext (exec (.hostMemAccess 0 0x110000 1 7) sC) (fun t => t.mem.read 0x110000 8 == 7) = true ∧
    (sC.space 1).isSome = true ∧ isNext (exec (.nodeQualifiedRemoteAccess 1 0x20000 1 7) sC) (fun t => t.mem.read 0x110000 8 == 7) = true ∧
    isNext (exec (.persistConfirmation 0) (sP false)) (fun t => (t.strands.map (·.persists)) == [[]]) = true := by decide +kernel

def pinReq (n : Nat) : PinReq := { holder := .piece 9, asid := 1, pages := List.replicate n (2, false), ats := [] }

/-- A movement request of OP op stands at 0x20000 for the page `page`, with PA 0x1C0000. -/
def sMove (home op page pa : Nat) : State :=
  { sC with mem := ((sC.mem.write 0x110000 8 (2 ^ 16 + op)).write 0x110008 8 page).write 0x110010 8 pa }.modHome home
    (fun h => { h with moves := [(1, 0x20000)] })

/-- The status that a movement event leaves in the request. -/
def moveStatus (s : State) (i : Instr) (st : Nat) : Bool := isNext (exec i s) (fun t => t.mem.read 0x110020 8 == st)

/-- The page of a request is held with a leaf that takes type `typ` and PA `pa`. -/
def moveFits (s : State) (page typ pa : Nat) : Bool :=
  isOk (s.homeEntry 1 page) (fun (u, e, _) => u.leafOk (Spec.leafAt e.leaf.toNat typ pa) e.big && homeOf page e.big == page / 0x10000 % 4)

theorem test_hyp_pages : ((sMove 1 1 0x10000 0x1C0000).site 1).home.moves = [(1, 0x20000)] ∧
    (sMove 1 1 0x10000 0x1C0000).blocked = false ∧ moveFits (sMove 1 1 0x10000 0x1C0000) 0x10000 0 0x1C0000 = true ∧
    moveFits (sMove 1 2 0x10000 0x22000) 0x10000 2 0x22000 = true ∧ moveFits (sMove 0 3 0x40000 0x1C0000) 0x40000 0 0x1C0000 = true ∧
    sC.goodPa 0x160000 = true ∧ sC.mem.read 0x22018 8 = 0x160000 ∧
    moveStatus (sMove 1 7 0x10000 0x1C0000) (.moveMigrate 1) 2 = true ∧ moveStatus (sMove 1 1 0x10000 (2 ^ 50)) (.moveMigrate 1) 2 = true ∧
    moveStatus (sMove 3 1 0x70000 0x1C0000) (.moveMigrate 3) 3 = true ∧ moveStatus (sMove 3 1 0xF0000 0x1C0000) (.moveMigrate 3) 4 = true ∧
    moveStatus (sMove 0 3 0x80000 0x1C0000) (.moveCollapse 0) 3 = true ∧ moveStatus (sMove 1 4 0x10000 0) (.moveResetHotness 1) 1 = true := by decide +kernel

/-- After its first event a movement is under way; its second ends it. -/
def afterFirst (s : State) (i : Instr) : State := match exec i s with
  | .next t => t
  | _ => s

theorem test_hyp_movement : ((afterFirst (sMove 1 1 0x10000 0x1C0000) (.moveMigrate 1)).site 1).home.moving.isSome = true ∧
    (((afterFirst (sMove 1 1 0x10000 0x1C0000) (.moveMigrate 1)).site 1).home.moving.bind (fun m =>
      m.entry ((afterFirst (sMove 1 1 0x10000 0x1C0000) (.moveMigrate 1)).site 1).home)).isSome = true ∧
    ((afterFirst (sMove 1 2 0x10000 0x22000) (.moveReplicate 1)).site 1).home.moving.isSome = true ∧
    ((afterFirst (sMove 0 3 0x40000 0x1C0000) (.moveCollapse 0)).site 0).home.moving.isSome = true := by decide +kernel

theorem test_hyp_pins2 : isNext (exec (.pinAdmit 1) (sC.modHome 1 (fun h => { h with waiting := [pinReq 3] }))) (fun t => (t.site 1).home.pins == [pinReq 3]) = true ∧
    isNext (exec (.pinAdmit 1) (sC.modHome 1 (fun h => { h with waiting := [pinReq 4097] }))) (fun t => (t.site 1).home.pins == []) = true := by decide +kernel

/-- A heap command of OP op at 0x20000: the set list at 0x20100 names page 9, the copy list at 0x20200 is empty. -/
def sHeap (op : Nat) (cycles : List Cycle) : State :=
  let one : Nat := if op = 1 then 1 else 0
  { sC with cycles, heapCmds := [(1, 0x20000)],
            mem := (((((sC.mem.write 0x110000 8 (2 ^ 16 + op)).write 0x110008 8 (one * 0x20100)).write 0x110010 8 one).write 0x110018 8
              (one * 0x20200)).write 0x110100 8 0x90000) }

def cycle0 (stage : Stage) : Cycle := { asid := 1, poster := 1, stage, set := [(0x90000, 0x20100)], retained := [], fwd := [] }

/-- The status and result that a heap event leaves in the command. -/
def heapGives (s : State) (i : Instr) (st result : Nat) : Bool :=
  isNext (exec i s) (fun t => t.mem.read 0x110030 8 == st && t.mem.read 0x110038 8 == result && t.heapCmds == [])

theorem test_hyp_wedger : (sHeap 1 []).heapHead ≠ none ∧ heapGives (sHeap 1 []) .flip 1 0 = true ∧
    isNext (exec .flip (sHeap 1 [])) (fun t => t.phase && t.cycles == [cycle0 .flipped]) = true ∧
    heapGives (sHeap 1 [cycle0 .flipped]) .flip 3 0 = true ∧ heapGives (sHeap 2 [cycle0 .flipped]) .copy 1 0 = true ∧
    heapGives (sHeap 2 []) .copy 3 0 = true ∧ heapGives (sHeap 3 [cycle0 .copied]) .free 1 1 = true ∧ heapGives (sHeap 3 []) .free 3 0 = true ∧
    (sHeap 3 [cycle0 .copied]).freeWaits (cycle0 .copied) = false ∧
    heapGives (sHeap 1 (List.replicate 8 { cycle0 .flipped with asid := 2 })) .flip 6 0 = true := by decide +kernel

theorem test_hyp_forward : isOk (sC.homeEntry 1 0x30000) (fun (t, e, _) => e.hpin == 0 &&
      t.freshRange { cycle0 .flipped with set := [(0x30000, 0)], fwd := [(0x30000, 0x90000, .pending)] } 2 0x90000 8) = true ∧
    isOk (sC.homeEntry 1 0x30000) (fun (t, _, _) => !t.freshRange (cycle0 .flipped) 2 0x90000 8) = true := by decide +kernel

theorem test_hyp_reset : sC.mgmt.ready = true ∧ State.reset.mgmt.ready = false ∧
    isNext (exec (.modctlWarm 0) sC) (fun t => !t.mgmt.ready && !t.mgmt.lastCold && t.strands == []) = true ∧
    isNext (exec .powerOnReset sC) (fun t => t.mgmt.lastCold) = true := by decide +kernel

/-- An address-space record for ASID 2 at 0x1C0000, no syscall ring. -/
def sBind : State :=
  { sC with mem := ((sC.mem.write 0x1C0000 8 2).write 0x1C0008 8 0x10000).write 0x1C0030 8 4 }

theorem test_hyp_bind : sBind.mgmt.asbindCmd = none ∧ sBind.goodPa 0x1C0000 = true ∧ sBind.space 2 = none ∧
    badSpace ((List.range 16).map (fun i => sBind.mem.read (0x1C0000 + 8 * i) 8)) = false ∧
    isNext (exec (.asbindBind 0 0x1C0080) sBind) (fun t => t.mgmt.asbindResult == 1) = true ∧
    isNext (exec (.asbindUnbind 0 0x1C0000) sBind) (fun t => t.mgmt.asbindResult == 3) = true ∧
    isNext (exec (.asbindUnbind 0 0x8000) { sBind with strands := [], cores := [] }) (fun t => t.space 1 == none && t.mgmt.asbindResult == 0) = true := by
  decide +kernel

theorem test_hyp_bound : badSpace ((List.range 16).map (fun i => (sBind.mem.write 0x1C0000 8 1).read (0x1C0000 + 8 * i) 8)) = false ∧
    (sBind.space 1).isSome = true ∧ isOk (({ sBind with spaces := sBind.spaces ++ [spaceOf 0x1C0000 [2, 0x10000, 0, 0, 0, 0, 4]] } : State).bindRing
      (spaceOf 0x1C0000 [2, 0x10000, 0, 0, 0, 0, 4])) = true := by decide +kernel

/-- A ring whose descriptor breaks R353, and one on a host page whose translation is outstanding. -/
theorem test_hyp_bindRing : let s (ring : Nat) : State := { sC with mem := (((sC.mem.write 0x1C0000 8 2).write 0x1C0008 8 0x10000).write 0x1C0030 8 4).write 0x1C0040 8 ring }
    isNext (exec (.asbindBind 0 0x1C0000) (s 0x20000)) (fun t => t.mgmt.asbindResult == 1) = true ∧
    isNext (exec (.asbindBind 0 0x1C0000) (s 0x60000)) (fun t => t.mgmt.asbindRec.isSome && t.hostReqs.length == 1) = true := by decide +kernel

/-- Training is over; a capture ring of 64 records at 0x400000. -/
def sMgmt (spaces : List Space) : State :=
  { sC with spaces, mgmt := { sC.mgmt with capSince := 0, window := List.replicate 64 0 }, time := 100000000 }

theorem test_hyp_management : sC.mgmt.booted = true ∧ 3 < sC.mgmt.phase ∧ 0x200000 + 4096 ≤ sC.hbmEnd ∧ sC.mem.poisoned 0x200000 32 = false ∧
    (sC.mem.setPoison 0x10000).poisoned 0x200000 32 = true ∧ (sMgmt []).spaces = [] ∧ (sMgmt []).mgmt.ready = true ∧
    (sMgmt []).ringBad 0x400001 6 = true ∧ (sMgmt []).capRoom 1 = true ∧
    isNext (exec (.captureModeOff 0) (sMgmt [space0])) (fun t => t.mgmt.capResult == 1) = true ∧
    isNext (exec (.registerWrite 0 0x208 0x200006) { sMgmt [] with mgmt := { (sMgmt []).mgmt with booted := false } }) (fun t =>
      t.logRing == some (0x200000, 64)) = true ∧
    isNext (exec (.registerWrite 0 0x228 (2 ^ 62 + 5)) (sMgmt [])) (fun t => t.mgmt.capResult == 4) = true ∧
    isNext (exec (.registerWrite 0 0x228 0x400006) (sMgmt [])) (fun t => t.mgmt.capRing == 0x400000 && t.mgmt.capLogn == 6) = true ∧
    isNext (exec (.attestRequest 0 0x200000) (sMgmt [])) (fun t => t.mgmt.attReq.isSome &&
      isNext (exec (.attestRequest 0 0x200000) t) (fun u => decide (u.mgmt = t.mgmt))) = true ∧
    isNext (exec (.registerWrite 0 0x1008 7) (sMgmt [])) (fun t => t.mgmt.window[8]? == some 7) = true := by decide +kernel

/-- The flash after reset holds an image that runs, and none with a fused counter above the images' versions. -/
theorem test_hyp_image : State.reset.flash.image ≠ none ∧ { State.reset.flash with counter := 1 }.image = none := by
  have h : State.reset.flash.runs State.reset.flash.bank0 = true := by
    simp [Flash.runs, Flash.verifies, State.reset, Flash.default]
  exact ⟨by simp [Flash.image, h], by simp [Flash.image, Flash.runs, State.reset, Flash.default]⟩

/-! Queues: record 0x20000 with entry 0x10040, a job for it in slot 0 of the ring at 0x20800, queue 0 of address space 1. -/

def queue0 (ready : List ReadyRec) : LQueue :=
  { ring := 0x20800, prio := 3, weight := 1, slots := 4, t1 := 100, t2 := 200, t3 := 300, bad := false, ready, lastCore := 0, lastDispatch := 0,
    eprio := 3, raisedAt := 0 }

def sQueue (status : Nat) (ready : List ReadyRec) : State :=
  { sC with mem := (((sC.mem.write 0x110000 8 0x10040).write 0x110018 8 status).write 0x110800 8 1).write 0x110810 8 0x20000,
            spaces := [{ space0 with queues := [queue0 ready] }], time := 900000 }

theorem test_hyp_launch : (sQueue 0 []).space 1 = some { space0 with queues := [queue0 []] } ∧ (sQueue 0 []).queueRuns 1 0 = true ∧
    isNext (exec (.jobTake 1 0) (sQueue 0 [])) (fun t => t.jobs.length == 1 && (t.space 1).any (fun p => p.queues.any (fun q => q.ready.length == 1)) &&
      t.mem.read 0x191020 8 == 1 && t.mem.read 0x110800 8 == 4) = true ∧
    isNext (exec (.jobTake 1 0) { sQueue 0 [] with mem := (sQueue 0 []).mem.write 0x110808 8 2 }) (fun t => t.jobs == [] && t.mem.read 0x191020 8 == 1) = true ∧
    (match (sQueue 0 []).recordWait 1 0x20000 with | some (t, w) => w == 0 && (t.casStatus 1 0x20000 0 1).isSome | none => false) = true := by
  decide +kernel

theorem test_hyp_dispatch : ((sQueue 1 [{ record := 0x20000, since := 0 }]).space 1).isSome = true ∧
    ((sQueue 1 []).unready 1 0 0x20000).casStatus 1 0x20000 1 2 ≠ none ∧ (sQueue 1 []).mayEnter 1 = true ∧ (sQueue 1 []).kept = [] ∧
    isNext (exec (.eprioRaise 1 0) (sQueue 1 [{ record := 0x20000, since := 0 }])) (fun t =>
      (t.space 1).any (fun p => p.queues.any (fun q => q.eprio == 4))) = true ∧
    isNext (exec (.eprioRaise 1 0) (sQueue 1 [{ record := 0x20000, since := 500000 }])) (fun t =>
      (t.space 1).any (fun p => p.queues.any (fun q => q.eprio == 3))) = true ∧
    (sC.site 0).reserve = none := by decide +kernel

theorem test_hyp_seat : ((sQueue 1 [{ record := 0x20000, since := 0 }]).dispatchable 0).length = 1 ∧ (sQueue 1 []).dispatchable 0 = [] := by decide +kernel

/-- A job of KIND 1 for the template of `sGrun`, whose run slot is free when `busy` is 0; one whose record is not pending. -/
def sRunJob (busy : Nat) : State :=
  { sGrun with mem := ((((sGrun.mem.write 0x110800 8 1).write 0x110808 8 1).write 0x110810 8 0x20000).write 0x110400 8 busy),
               spaces := [{ space0 with queues := [queue0 []] }] }

theorem test_hyp_jobKinds : isNext (exec (.jobTake 1 0) (sRunJob 0)) (fun t => t.runs.length == 1 && t.jobs.map (·.waits) == [none]) = true ∧
    isNext (exec (.jobTake 1 0) (sRunJob 7)) (fun t => t.jobs.map (·.waits) == [some (0x20000, 0)] && t.mem.read 0x191020 8 == 1) = true ∧
    isNext (exec (.jobTake 1 0) (sQueue 2 [])) (fun t => t.jobs == [] && t.mem.read 0x191020 8 == 1) = true := by decide +kernel

/-- The record's crew of two has waited since TIME 0; the queue is to be cancelled with the record in it. -/
def sCrewJob : State := { sQueue 1 [{ record := 0x20000, since := 0 }] with mem := (sQueue 1 []).mem.write 0x110008 8 (2 * 2 ^ 48) }

theorem test_hyp_reserve : ((sCrewJob.queueCrews ++ sCrewJob.clusterCrews).map (·.1)) = [0] ∧ sCrewJob.reservedSite 1 0x20000 = none ∧
    isNext (exec (.crewReservation (sCrewJob.bestSite 0)) sCrewJob) (fun t => (t.site (sCrewJob.bestSite 0)).reserve.isSome) = true ∧
    isNext (exec (.queueCancel 1 0) { sCrewJob with mem := sCrewJob.mem.write 0x191028 8 2 }) (fun t =>
      t.mem.read 0x110018 8 == 5 && t.mem.read 0x191028 8 == 0) = true ∧
    (sC.modCore 5 (fun k => { k with long := some { kind := 0, acc := 0, next := 0, mcKey := [], panels := [0] } })).panelsRead 0 = true := by
  decide +kernel

/-- An entry of cluster 34's task queue names the record. -/
def sClTask : State := (sQueue 1 []).modCluster 34 (fun q => { q with tasks := [{ asid := 1, record := 0x20000, origin := 0 }] })

theorem test_hyp_clusterTask : ((sClTask.readRec 1 0x20000).map (fun r => (r.status, r.cls, r.size))) = some (1, 0, 0) ∧
    sClTask.reservedSite 1 0x20000 = none ∧ sClTask.queueRuns 1 0 = true ∧
    sClTask.seatTask 34 { asid := 1, record := 0x20000, origin := 0 } { entry := 0x10040, size := 0, cls := 0, status := 1, wait := 0, deps := 0, count := 0, args := [0, 0, 0, 0] } = some [544] ∧
    isNext (exec (.clusterTaskDispatch 34) sClTask) (fun t => (t.core 544).uWork == .strand && (t.cluster 34).tasks == []) = true := by decide +kernel

/-- The event ring of four slots at 0xA4000, the first free; one held event. -/
def ev0 : Event := { cause := 3, queue := 0, va := 0, detail := 5 }
def sEv (held : List Event) (lost : Nat) : State := { sQueue 0 [] with spaces := [{ space0 with held, lost, queues := [queue0 []] }] }

theorem test_hyp_rings : isNext (exec (.queueCancel 1 0) { sQueue 0 [] with mem := (sQueue 0 []).mem.write 0x191028 8 2 }) (fun t =>
      t.mem.read 0x191028 8 == 0) = true ∧ (match (sQueue 0 []).queueState 1 0 with | some (_, v) => v == 0 | none => false) = true ∧
    isNext (exec (.eventsLostReport 1) (sEv [ev0] 0)) (fun t => (t.space 1).any (fun p => p.held == [])) = true ∧
    isNext (exec (.eventsLostReport 1) (sEv [] 9)) (fun t => (t.space 1).any (fun p => p.lost == 0)) = true ∧
    { sEv [] 0 with mem := (sEv [] 0).mem.write 0x194000 8 77 }.putEvent { space0 with held := [ev0], queues := [queue0 []] } ev0 = none := by decide +kernel

/-- A request at position 0 that has been answered. -/
def sAns : State :=
  { sSys 0xA8000 with
    mem := (sSys 0xA8000).mem.write 0x198040 8 4, sysReqs := [{ asid := 1, pos := 0, sid := 1, reg := 9, cancelled := true }] }

theorem test_hyp_syscRing : isOk ((sSys 0xA8000).sysPlace space0 0) (fun (t, p) => t.sysFree space0 0 p && !t.placePoisoned 1 p 16) = true ∧
    isOk ((sSys 0xA8000).sysFreeRun space0 (deviceWho 1 0 .rw) 1 0) (fun (_, n) => n == 1) = true ∧
    isNext (exec (.syscRingRetry 1) { sSys 0xA8000 with spaces := [{ space0 with sysWait := [1] }] }) (fun t =>
      (t.space 1).any (fun p => p.sysWait == [])) = true ∧
    isNext (exec (.syscResult 1 0) sAns) (fun t => t.sysReqs == []) = true := by decide +kernel

/-- The image of strand 1 is on its way from core 0 to core 1. -/
def move0 (s : State) : Move := { id := 4, img := s.imageU 0, src := 0, dst := 1, kind := .migrate, toU := false, needed := 7 }
def sAck (dst : Nat) : State := { (sC.modCore 0 (fun k => { k with uWork := .reserved 1 })) with moves := [{ move0 sC with dst }] }

/-- The window before has asked strand 1 to go to a class. -/
def sMix (k : Cls) : State := sC.modCore 0 (fun x => { x with mix := { issued := 0, control := 0, vector := 0, tensor := 0, due := some k } })

theorem test_hyp_moves : isNext (exec (.liveMoveAck 4) (sAck 1)) (fun t => (t.core 1).uWork == .strand && t.moves == []) = true ∧
    isNext (exec (.liveMoveAck 4) (sAck 5000)) (fun t => (t.core 1).uWork == .empty && t.moves == []) = true ∧
    oldestReady (sC.core 0).arrival = none ∧ sC.mixMayMove 0 = true ∧ sC.mayLeave 0 = true ∧
    isNext (exec (.measuredMigration 0) (sMix .vector)) (fun t => t.moves.length == 1 && (t.core 0).uWork == .reserved 1 && (t.core 0).mix.due == none) = true ∧
    ((sC.modCore 0 (fun k => { k with mix := { issued := 4096, control := 0, vector := 600, tensor := 0 } })).closeWindow 0).core 0 = (sMix .vector).core 0 ∧
    isNext (exec (.measuredMigration 0) (sMix .vector |>.modCore 0 (fun k => { k with gang := .leader 2 }))) (fun t =>
      t.moves == [] && (t.core 0).mix.due == none) = true := by decide +kernel

/-- A core whose owner's messages must go on to a full core keeps a move waiting; a fenced source loses it; an image may hold poison. -/
theorem test_hyp_moveEnds :
    isNext (exec (.liveMoveAck 4) ((sAck 1).modCore 0 (fun k => { k with status := .fenced }))) (fun t => (t.core 1).uWork == .strand) = true ∧
    isNext (exec (.liveMoveAck 4) ((sAck 5000).modCore 0 (fun k => { k with status := .fenced }))) (fun t => t.moves == []) = true ∧
    isNext (exec (.liveMoveAck 4) { sAck 1 with moves := [{ move0 sC with img := { sC.imageU 0 with poison := [(2, 0, 0)] } }] }) (fun t =>
      (t.strands.map (·.heldAt.isSome)) == [true]) = true ∧
    (sAck 1).mailFits 0 0 = true := by decide +kernel

/-- Core 1's queue holds a strand: ready since 0, or waiting for the word at 0x20000. -/
def sPark (st : ParkState) : State :=
  { (sTwo.modCore 1 (fun k => { k with arrival := [{ img := newImage 0x10040 1 3 (.replicate 4 0), state := st }] })) with time := 100000 }

theorem test_hyp_queues : { sPark (.ready 0) with cur := 1, curCtx := .u }.mayPark = true ∧ ((sPark (.ready 0)).core 1).u.priv = false ∧
    isNext (exec (.aging 1) (sPark (.ready 0))) (fun t => (t.core 1).u.sid == 3 && (t.core 1).arrival.length == 1) = true ∧
    isNext (exec (.parkedWaitCheck 1 0) (sPark (.waitJoin 0x20000))) (fun t => (t.core 1).arrival.map (·.state) == [.ready 100000]) = true ∧
    isNext (exec (.parkedWaitCheck 1 0) (sPark (.waitWord 0x20000 0))) (fun t => (t.core 1).arrival.map (·.state) == [.waitWord 0x20000 0]) = true ∧
    isNext (exec (.waitTimeout 1 3) (sPark (.waitJoin 0x20000))) (fun t => (t.core 1).arrival.map (·.state) == [.ready 100000]) = true ∧
    isNext (exec (.occupantZeroingDone 0) (sC.modCore 0 (fun k => { k with zeroing := true, owner := none }))) (fun t => (t.core 0).owner == some 1) = true := by
  decide +kernel

/-- Strand 1 has left core 0 for the overflow list of its site. -/
def sOver : State := match sC.overflow (sC.imageU 0) 1 7 none 0 with
  | .ok t => t.leaveU 0
  | .error _ => sC

theorem test_hyp_overflow : (sOver.site 1).overflow.length = 1 ∧ sOver.live 0 = true ∧ sOver.canLand 0 false = true ∧
    isNext (exec (.overflowAdmit 0) sOver) (fun t => (t.site 1).overflow == [] && (t.core 0).uWork == .strand && (t.core 0).u.pc == 0x10000) = true := by
  decide +kernel

/-- Strand 1 was dispatched at TIME 0 from queue 0. -/
def sDog (us : Nat) : State :=
  { sQueue 2 [] with strands := [{ strand0 with dispatched := some 0, record := 0x20000 }], time := BitVec.ofNat 64 (100 * us) }

theorem test_hyp_watchdog : (sDog 50).strand 1 1 = some { strand0 with dispatched := some 0, record := 0x20000 } ∧ (sDog 50).residentAt 1 1 = some 0 ∧
    (sDog 50).mayLeave 0 = true ∧ (sDog 50).asks 1 1 = [] ∧ (sDog 50).limits { strand0 with dispatched := some 0, record := 0x20000 } = (100, 200, 300) ∧
    isNext (exec (.watchdogT1 1 1) (sDog 150)) (fun t => (t.strands.map (·.t1Done)) == [true] && (t.core 0).uWork == .empty) = true ∧
    isNext (exec (.watchdogT2 1 1) (sDog 250)) (fun t => t.strands == []) = true ∧
    isNext (exec (.watchdogT3 1 1) { sDog 350 with strands := (sDog 350).strands.map (fun x => { x with dying := true }) }) (fun t =>
      (t.core 0).status == .fenced) = true := by decide +kernel

end Sys2Proof.Test
end

section
/-! The CSR map and the rights to it: what each CSR reads as and what a write leaves (R21 to R24), the checks of R20 and the waits of R95,
and the statement O16 from them. -/

namespace Sys2Proof.Machine

/-! ### Values (R21, R22, R24) -/

/-- R222: the four fields of MBOXSTAT side by side are their weighted sum. -/
theorem mboxstat_fields (full abs acc : BitVec 16) (n : Nat) :
    full ++ abs ++ acc ++ BitVec.ofNat 16 (n % 64) =
      BitVec.ofNat 64 (full.toNat * 2 ^ 48 + abs.toNat * 2 ^ 32 + acc.toNat * 2 ^ 16 + n % 64) := by
  apply BitVec.eq_of_toNat_eq
  simp only [BitVec.toNat_append, BitVec.toNat_ofNat]
  have hn : n % 64 < 2 ^ 16 := by omega
  rw [Nat.mod_eq_of_lt hn, ← Nat.shiftLeft_add_eq_or_of_lt hn, ← Nat.shiftLeft_add_eq_or_of_lt acc.isLt,
    ← Nat.shiftLeft_add_eq_or_of_lt abs.isLt]
  simp only [Nat.shiftLeft_eq]
  omega

/-- The table of R21 and R22 gives what the executing context reads. -/
theorem State.csr_of_spec {s : State} {n : Nat} {v : Word} (h : Spec.csr s n = some v) : s.csr n = v := by
  unfold Spec.csr at h
  split at h <;> cases h
  case h_3 => simp only [State.csr]; cases s.cls s.cur <;> rfl -- CLASSCAP
  case h_43 => exact (mboxstat_fields _ _ _ _).symm -- MBOXSTAT
  all_goals rfl

/-! ### Writes (R21 to R24, R94) -/

/-- R164: SLIPCFG takes bits 13:8 and 5:0, masked before or after the cut to 16 bits. -/
theorem slipcfg_value (v : Word) : v.setWidth 16 &&& 0x3F3F = (v &&& 0x3F3F).setWidth 16 := by
  simp [BitVec.setWidth_and]

/-- R221: SLOTS of MBOXCFG as a number, 0 and what lies above 32 standing for 32. -/
theorem mboxcfg_slots (v : Word) :
    (if v &&& 0x3F = 0 ∨ 32 < (v &&& 0x3F).toNat then 32 else v &&& 0x3F : Word).toNat =
      if v.toNat % 64 = 0 ∨ 32 < v.toNat % 64 then 32 else v.toNat % 64 := by
  have low : (v &&& 0x3F).toNat = v.toNat % 64 := Nat.and_two_pow_sub_one_eq_mod v.toNat 6
  have zero : v &&& 0x3F = 0 ↔ v.toNat % 64 = 0 := by rw [← low]; exact BitVec.toNat_eq
  rw [apply_ite BitVec.toNat, low]
  simp only [zero]
  rfl

/-- R221: MBOXCFG as stored, its fields as bits of the word written. -/
theorem mboxcfgValue_eq (v : Word) : mboxcfgValue v =
    (v &&& 0x8000) ||| (if v &&& 0x3F = 0 ∨ 32 < (v &&& 0x3F).toNat then 32 else v &&& 0x3F) := by
  have bit15 : (v &&& 0x8000).toNat = bitsOf v.toNat 15 1 <<< 15 := by
    rw [Nat.shiftLeft_eq, bitsOf, pow_one, ← Nat.toNat_testBit]
    exact Nat.and_two_pow v.toNat 15
  apply BitVec.eq_of_toNat_eq
  rw [BitVec.toNat_or, mboxcfg_slots, bit15, ← Nat.shiftLeft_add_eq_or_of_lt (by split <;> omega), Nat.shiftLeft_eq]
  simp only [mboxcfgValue, BitVec.toNat_ofNat, bitsOf, Bool.or_eq_true, decide_eq_true_eq]
  split <;> omega

/-- The table of what each CSR stores gives the whole state after a write. -/
theorem State.writeCsr_of_spec {s : State} {n : Nat} {v : Word} {k : Core} (i : Instr) (h : Spec.csrWritten s v n = some k) :
    s.writeCsr i n v = .ok (s.setCore s.cur k) := by
  unfold Spec.csrWritten at h
  split at h <;> cases h
  case h_2 => simp only [State.writeCsr, slipcfg_value]; rfl -- SLIPCFG
  case h_33 => simp only [State.writeCsr, mboxcfgValue_eq]; rfl -- MBOXCFG
  all_goals rfl

/-! ### Rights and waits (R20, R95) -/

/-- R21: the CSRs that no level writes, and those that only S writes. -/
theorem csrRo_eq_false_iff (n : Nat) (priv : Bool) :
    csrRo n priv = false ↔
      n ∉ [0x000, 0x001, 0x002, 0x004, 0x006, 0x00A, 0x00B, 0x00F] ∧ (n ∈ [0x003, 0x00E, 0x010] → priv = true) := by
  simp only [List.mem_cons, List.not_mem_nil, or_false, not_or]
  unfold csrRo
  split <;> simp_all

/-- R20, checks 2 to 4: an access goes on exactly with the rights that the tables give. -/
theorem csrAccess_ok_iff (i : Instr) (n : Nat) (write : Bool) (s : State) :
    csrAccess i n write s = .ok () ↔ Spec.csrAllowed n s.cx.priv write := by
  have level : (isSCsr n && !s.cx.priv) = false ↔ n < 0x300 → 0x100 ≤ n → s.cx.priv = true := by
    cases s.cx.priv with
    | true => simp
    | false =>
      simp only [isSCsr, Bool.not_false, Bool.and_true, Bool.and_eq_false_iff, decide_eq_false_iff_not, Bool.false_eq_true,
        imp_false]
      omega
  have written : (write && csrRo n s.cx.priv) = false ↔ (write = true → csrRo n s.cx.priv = false) := by cases write <;> simp
  unfold csrAccess Spec.csrAllowed
  rw [← csrRo_eq_false_iff, ← written]
  split
  case isTrue denied =>
    simp only [reduceCtorEq, false_iff]
    rintro ⟨range, user, ro⟩
    simp only [level.2 fun _ => user, ro, Bool.or_false, decide_eq_true_eq] at denied
    omega
  case isFalse passes =>
    simp only [Bool.or_eq_true, not_or, Bool.not_eq_true, decide_eq_false_iff_not, not_le, level] at passes
    obtain ⟨⟨range, user⟩, ro⟩ := passes
    exact iff_of_true rfl ⟨range, user range, ro⟩

/-- R20, R324: an access without the rights raises PRIV with the number. -/
theorem csrAccess_denied {n : Nat} {write : Bool} {s : State} (i : Instr) (h : ¬Spec.csrAllowed n s.cx.priv write) :
    csrAccess i n write s = .error (.trap (privTrap s i n)) := by
  rw [← csrAccess_ok_iff i] at h
  unfold csrAccess at h ⊢
  split at h
  case isTrue denied => exact if_pos denied
  case isFalse => exact absurd rfl h

/-- R95: nothing is queued that the access waits for. -/
theorem csrWaits_eq_false {s : State} {n : Nat} (h : Spec.csrSettled s n) : csrWaits n s = false := by
  obtain ⟨fflags, mstart⟩ := h
  simp only [csrWaits, Bool.or_eq_false_iff, Bool.and_eq_false_imp, beq_iff_eq]
  refine ⟨fun hn => ?_, fun hn => ?_⟩
  · simpa using fflags hn
  · simpa using mstart hn

/-! ### CSR instructions (R94) -/

/-- An allowed number is the number that imm16[11:0] holds (R94). -/
theorem csrNumber_mod {n : Nat} {priv write : Bool} (h : Spec.csrAllowed n priv write) : n % 4096 = n := by
  have := h.1
  omega

/-- R94: with the rights, and nothing to wait for, a read gives x[D] the CSR. -/
theorem csrOp_read {i : Instr} {o : LI16} {s : State} (allowed : Spec.csrAllowed o.imm.toNat s.cx.priv false)
    (settled : Spec.csrSettled s o.imm.toNat) : csrOp i o none true s = .ok (s.retX o.d (s.csr o.imm.toNat)) := by
  simp [csrOp, csrNumber_mod allowed, (csrAccess_ok_iff i _ _ s).2 allowed, csrWaits_eq_false settled]

/-- R94: with the rights, and nothing to wait for, a write stores what the table says, and x[D] follows from the core so written. -/
theorem csrOp_write {i : Instr} {o : LI16} {f : Word → Word → Word} {reads : Bool} {s : State} {k : Core}
    (allowed : Spec.csrAllowed o.imm.toNat s.cx.priv true) (settled : Spec.csrSettled s o.imm.toNat)
    (stored : Spec.csrWritten s (f (s.csr o.imm.toNat) (s.getX o.d)) o.imm.toNat = some k) :
    csrOp i o (some f) reads s = .ok ((s.setCore s.cur k).modCx fun x =>
      (if reads then x.setX o.d (s.csr o.imm.toNat) else x).advance) := by
  simp only [csrOp, csrNumber_mod allowed, Option.isSome_some, (csrAccess_ok_iff i _ _ s).2 allowed, csrWaits_eq_false settled,
    State.writeCsr_of_spec i stored]
  cases reads <;> rfl

/-- R20: without the rights the operation raises PRIV before it reads, waits or writes. -/
theorem csrOp_denied {i : Instr} {o : LI16} {write : Option (Word → Word → Word)} {reads : Bool} {s : State}
    (number : o.imm.toNat < 0x1000) (denied : ¬Spec.csrAllowed o.imm.toNat s.cx.priv write.isSome) :
    csrOp i o write reads s = .error (.trap (privTrap s i o.imm.toNat)) := by
  simp [csrOp, Nat.mod_eq_of_lt number, csrAccess_denied i denied]

/-- A write of the executing core and then of its executing context changes that core alone. -/
theorem setCore_modCx_coreBecomes (s : State) (k : Core) (g : Ctx → Ctx) :
    CoreBecomes s ((s.setCore s.cur k).modCx g) s.cur (k.setCtx s.curCtx (g (k.ctx s.curCtx))) := by
  have me : (s.setCore s.cur k).me = k := s.core_setCore_self s.cur k
  refine ⟨⟨rfl, fun d hd => ?_⟩, ?_, fun _ => rfl⟩
  · calc ((s.setCore s.cur k).modCx g).core d = (s.setCore s.cur k).core d := State.core_modCore_ne _ hd _
      _ = s.core d := State.core_setCore_ne s hd k
  · calc ((s.setCore s.cur k).modCx g).core s.cur = ((s.setCore s.cur k).modCx g).me := rfl
      _ = k.setCtx s.curCtx (g (k.ctx s.curCtx)) := by rw [State.me_modCx, State.cx, me]; rfl

/-- R94: CSRR, which reads, and the four instructions of the table, which write. -/
def CsrForm (i : Instr) (o : LI16) (write : Bool) : Prop :=
  i = .csrr o ∧ write = false ∨ write = true ∧ ∃ f r, Spec.csrWrite i = some (o, f, r)

/-- R80, R94: the CSR instructions have the encoding checks of major 0F. -/
theorem illForm_csr {i : Instr} {o : LI16} {write : Bool} (h : CsrForm i o write) :
    illForm i = ckI16 .x (csrFieldOk o.imm) o := by
  obtain ⟨rfl, -⟩ | ⟨-, f, r, h⟩ := h
  · rfl
  · unfold Spec.csrWrite at h
    split at h <;> cases h <;> rfl

/-- R94: an instruction of the table writes what the table says. -/
theorem exec_csrWrite {i : Instr} {o : LI16} {f : Word → Word → Word} {reads : Bool} (s : State)
    (h : Spec.csrWrite i = some (o, f, reads)) : exec i s = run i s (csrOp i o (some f) reads) := by
  unfold Spec.csrWrite at h
  split at h <;> cases h <;> rfl

/-- R94: each of the five is one CSR operation, which writes or does not. -/
theorem exec_csr {i : Instr} {o : LI16} {write : Bool} (s : State) (h : CsrForm i o write) :
    ∃ w r, w.isSome = write ∧ exec i s = run i s (csrOp i o w r) := by
  obtain ⟨rfl, rfl⟩ | ⟨rfl, f, r, h⟩ := h
  · exact ⟨none, true, rfl, exec_csrr s o⟩
  · exact ⟨some f, r, rfl, exec_csrWrite s h⟩

/-- R20, check 1: an unlisted number below 0x300 fails the check of the field. -/
theorem csrFieldOk_unlisted {imm : BitVec 16} (below : imm.toNat < 0x300) (unlisted : ¬Spec.csrListed imm.toNat) :
    csrFieldOk imm = false := by
  unfold Spec.csrListed at unlisted
  simp only [csrFieldOk, csrListed, Bool.and_eq_false_iff, Bool.or_eq_false_iff, decide_eq_false_iff_not]
  omega

/-- The number of a well-formed CSR instruction has bits 15:12 zero (R94). -/
theorem csrNumber_lt {o : LI16} (h : ckI16 .x (csrFieldOk o.imm) o = none) : o.imm.toNat < 0x1000 := by
  by_contra large
  simp [ckI16, csrFieldOk, large, zeroOk, firstIll] at h

end Sys2Proof.Machine

/-! ### The statement -/

namespace Sys2Proof.Proofs

open Sys2Proof.Machine

/-- `Rule.CsrRead`: the operation succeeds, and x[D] receives what the table gives. -/
theorem csrRead : Rule.CsrRead := by
  intro o s v n issues allowed settled value
  refine ⟨s.retX o.d v, ?_, retX_returns s o.d v⟩
  rw [exec_csrr, execCsrr, run_ok issues (csrOp_read allowed settled), State.csr_of_spec value]

/-- `Rule.CsrWritten`: the core as written, then its executing context with x[D] and the PC. -/
theorem csrWritten : Rule.CsrWritten := by
  intro i o f reads s k n form issues allowed settled stored
  refine ⟨_, ?_, setCore_modCx_coreBecomes s k fun x => (if reads then x.setX o.d (s.csr n) else x).advance⟩
  rw [exec_csrWrite s form, run_ok issues (csrOp_write allowed settled stored)]

/-- `Rule.CsrPrivilege`: an unlisted number stops at the guard, a denied one at the check of the operation. -/
theorem csrPrivilege : Rule.CsrPrivilege := by
  intro i o write s form
  obtain ⟨w, reads, rfl, meaning⟩ := exec_csr s form
  refine ⟨fun below unlisted => ?_, fun issues denied => ?_⟩
  · have ill : illForm i = some .field := by
      simp [illForm_csr form, ckI16, csrFieldOk_unlisted below unlisted, firstIll]
    have stops : Machine.guard i s = some (.trap (illins i 3)) := by simp [Machine.guard, ill, Ill.code]
    rw [meaning, run_guarded stops, finish, illins]
  · have number : o.imm.toNat < 0x1000 := csrNumber_lt ((illForm_csr form).symm.trans issues.1)
    rw [meaning, run_error issues (csrOp_denied number denied), finish, privTrap]
    cases s.cx.priv <;> rfl

/-- Settles O16: reads by the table of R21 and R22, writes by what each CSR stores, rights by the order of R20. -/
theorem csrAccess : Obligations.CsrAccess := ⟨csrRead, csrWritten, csrPrivilege⟩

end Sys2Proof.Proofs
end

section
/-! Decoding gives back the encoding (R69, R72, R81): the tail that TL counts, each layout as the words it is unpacked from, each major of
the opcode map, and the statement O2 from them. -/

namespace Sys2Proof

/-! ### The tail that TL counts (R69) -/

/-- A tail without the halfwords beyond those that a TL code counts (R69). -/
def cutTail (tl : Nat) (t : BitVec 64) : BitVec 64 := (t.setWidth (16 * tlLen tl)).setWidth 64

theorem cutTail_toNat (tl : Nat) (t : BitVec 64) : (cutTail tl t).toNat = t.toNat % 2 ^ (16 * tlLen tl) := by
  have short : t.toNat % 2 ^ (16 * tlLen tl) < 2 ^ 64 := (Nat.mod_le _ _).trans_lt t.isLt
  rw [cutTail, BitVec.toNat_setWidth, BitVec.toNat_setWidth, Nat.mod_eq_of_lt short]

/-- A field that lies within the counted halfwords is the same field of the whole tail. -/
theorem extractLsb'_cutTail {tl start len : Nat} (counted : start + len ≤ 16 * tlLen tl) (fits : start + len ≤ 64) (t : BitVec 64) :
    (cutTail tl t).extractLsb' start len = t.extractLsb' start len := by
  rw [cutTail, BitVec.extractLsb'_setWidth_of_le fits, BitVec.extractLsb'_setWidth_of_le counted]

/-- TL 0 counts nothing. -/
@[simp] theorem cutTail_zero (t : BitVec 64) : cutTail 0 t = 0 := BitVec.eq_of_toNat_eq (by simp [cutTail_toNat, tlLen, Nat.mod_one])

/-- TL 3 counts the whole tail. -/
@[simp] theorem cutTail_three (t : BitVec 64) : cutTail 3 t = t := by simp [cutTail, tlLen]

/-- The words of a head's fields with the counted part of a tail. -/
def cutEnc (maj : BitVec 6) (tl : Nat) (d : BitVec 5) (sub : BitVec 3) (t : BitVec 64) : Enc :=
  { maj, tl := .ofNat 2 tl, d, sub, tail := cutTail tl t }

/-! ### Layouts (R72): the words of what a tail unpacks to

Fields that lie side by side in a tail join into one field of it, down to the whole tail of the layout. The widths stay sums on the way
(`-Nat.reduceAdd`), as the lemma about two fields gives them. -/

section
variable (maj : BitVec 6) (sub : BitVec 3) (d : BitVec 5) (t : BitVec 64)

theorem packH_unpackH : packH (unpackH d t) = t.setWidth 16 := by
  simp only [packH, unpackH, BitVec.extractLsb'_append_extractLsb'_eq_extractLsb',
    BitVec.setWidth_eq_extractLsb', Nat.reduceLeDiff, -Nat.reduceAdd]

theorem packW_unpackW : packW (unpackW d t) = t.setWidth 32 := by
  simp only [packW, unpackW, BitVec.extractLsb'_append_extractLsb'_eq_extractLsb',
    BitVec.setWidth_eq_extractLsb', Nat.reduceLeDiff, -Nat.reduceAdd]

theorem packWI_unpackWI : packWI (unpackWI d t) = t.setWidth 32 := by
  simp only [packWI, unpackWI, BitVec.extractLsb'_append_extractLsb'_eq_extractLsb',
    BitVec.setWidth_eq_extractLsb', Nat.reduceLeDiff, -Nat.reduceAdd]

theorem packM_unpackM : packM (unpackM d t) = t.setWidth 32 := by
  simp only [packM, unpackM, BitVec.extractLsb'_append_extractLsb'_eq_extractLsb',
    BitVec.setWidth_eq_extractLsb', Nat.reduceLeDiff, -Nat.reduceAdd]

theorem packB_unpackB : packB (unpackB d t) = t.setWidth 32 := by
  simp only [packB, unpackB, BitVec.extractLsb'_append_extractLsb'_eq_extractLsb',
    BitVec.setWidth_eq_extractLsb', Nat.reduceLeDiff, -Nat.reduceAdd]

theorem packV_unpackV : packV (unpackV d t) = t.setWidth 32 := by
  simp only [packV, unpackV, BitVec.extractLsb'_append_extractLsb'_eq_extractLsb',
    BitVec.setWidth_eq_extractLsb', Nat.reduceLeDiff, -Nat.reduceAdd]

theorem packXI_unpackXI : packXI (unpackXI d t) = t := by
  simp only [packXI, unpackXI, BitVec.extractLsb'_append_extractLsb'_eq_extractLsb', -Nat.reduceAdd]
  exact BitVec.extractLsb'_eq_self

theorem packX_unpackX : packX (unpackX d t) = t := by
  simp only [packX, unpackX, BitVec.extractLsb'_append_extractLsb'_eq_extractLsb', -Nat.reduceAdd]
  exact BitVec.extractLsb'_eq_self

theorem eH_unpackH : eH maj sub (unpackH d t) = cutEnc maj 1 d sub t := by rw [eH, packH_unpackH]; rfl

theorem eW_unpackW : eW maj sub (unpackW d t) = cutEnc maj 2 d sub t := by rw [eW, packW_unpackW]; rfl

theorem eWI_unpackWI : eWI maj sub (unpackWI d t) = cutEnc maj 2 d sub t := by rw [eWI, packWI_unpackWI]; rfl

theorem eM_unpackM : eM maj sub (unpackM d t) = cutEnc maj 2 d sub t := by rw [eM, packM_unpackM]; rfl

theorem eB_unpackB : eB maj sub (unpackB d t) = cutEnc maj 2 d sub t := by rw [eB, packB_unpackB]; rfl

theorem eV_unpackV : eV maj sub (unpackV d t) = cutEnc maj 2 d sub t := by rw [eV, packV_unpackV]; rfl

theorem eI16_unpackI16 : eI16 maj sub (unpackI16 d t) = cutEnc maj 1 d sub t := by
  rw [eI16, unpackI16, ← BitVec.setWidth_eq_extractLsb' (by decide)]; rfl

theorem eI32_unpackI32 : eI32 maj sub (unpackI32 d t) = cutEnc maj 2 d sub t := by
  rw [eI32, unpackI32, ← BitVec.setWidth_eq_extractLsb' (by decide)]; rfl

theorem eXI_unpackXI : eXI maj sub (unpackXI d t) = cutEnc maj 3 d sub t := by rw [eXI, packXI_unpackXI, cutEnc, cutTail_three]; rfl

theorem eX_unpackX : eX maj sub (unpackX d t) = cutEnc maj 3 d sub t := by rw [eX, packX_unpackX, cutEnc, cutTail_three]; rfl

theorem e64_unpack64 : e64 maj sub (unpack64 d t) = cutEnc maj 3 d sub t := by rw [cutEnc, cutTail_three]; rfl

end

/-! ### The opcode map (R81): what decodes is what the words encode

One lemma for each layout, whose `words` is the row of the encoder; one for each major, row by row in the order of SUB. -/

/-- The answer `r` of the opcode map for these fields and this tail: an instruction in it is encoded by the fields and the counted tail. -/
def Reads (maj tl : Nat) (d : BitVec 5) (sub : Nat) (t : BitVec 64) (r : Except Machine.Ill Instr) : Prop :=
  ∀ i, r = .ok i → encode i = some (cutEnc (.ofNat 6 maj) tl d (.ofNat 3 sub) t)

section
variable {maj tl sub : Nat} {d : BitVec 5} {t : BitVec 64}

theorem reads_error (e : Machine.Ill) : Reads maj tl d sub t (.error e) := fun _ h => nomatch h

/-- A row of the map that takes one TL. -/
theorem reads_layout {n : Nat} {i : Instr} (words : encode i = some (cutEnc (.ofNat 6 maj) n d (.ofNat 3 sub) t)) :
    Reads maj tl d sub t (if tl = n then .ok i else .error .tail) := by
  split
  case isTrue htl => rintro _ ⟨⟩; rw [words, htl]
  case isFalse => exact reads_error _

/-- A row without fields, where D is zero too. -/
theorem reads_k0 {i : Instr} (words : encode i = some (e0 (.ofNat 6 maj) (.ofNat 3 sub))) : Reads maj tl d sub t (k0 tl d i) := by
  unfold k0
  split
  case isTrue htl =>
    split
    case isTrue hd => rintro _ ⟨⟩; rw [words, htl, hd, cutEnc, cutTail_zero]; rfl
    case isFalse => exact reads_error _
  case isFalse => exact reads_error _

/-- A row of the layout without a tail. -/
theorem reads_kN {k : LN → Instr} (words : ∀ o, encode (k o) = some (eN (.ofNat 6 maj) (.ofNat 3 sub) o)) :
    Reads maj tl d sub t (kN tl d t k) :=
  reads_layout (by rw [words, cutEnc, cutTail_zero]; rfl)

theorem reads_kH {k : LH → Instr} (words : ∀ o, encode (k o) = some (eH (.ofNat 6 maj) (.ofNat 3 sub) o)) :
    Reads maj tl d sub t (kH tl d t k) :=
  reads_layout (by rw [words, eH_unpackH])

theorem reads_kI16 {k : LI16 → Instr} (words : ∀ o, encode (k o) = some (eI16 (.ofNat 6 maj) (.ofNat 3 sub) o)) :
    Reads maj tl d sub t (kI16 tl d t k) :=
  reads_layout (by rw [words, eI16_unpackI16])

theorem reads_kI32 {k : LI32 → Instr} (words : ∀ o, encode (k o) = some (eI32 (.ofNat 6 maj) (.ofNat 3 sub) o)) :
    Reads maj tl d sub t (kI32 tl d t k) :=
  reads_layout (by rw [words, eI32_unpackI32])

theorem reads_kW {k : LW → Instr} (words : ∀ o, encode (k o) = some (eW (.ofNat 6 maj) (.ofNat 3 sub) o)) :
    Reads maj tl d sub t (kW tl d t k) :=
  reads_layout (by rw [words, eW_unpackW])

theorem reads_kWI {k : LWI → Instr} (words : ∀ o, encode (k o) = some (eWI (.ofNat 6 maj) (.ofNat 3 sub) o)) :
    Reads maj tl d sub t (kWI tl d t k) :=
  reads_layout (by rw [words, eWI_unpackWI])

theorem reads_kM {k : LM → Instr} (words : ∀ o, encode (k o) = some (eM (.ofNat 6 maj) (.ofNat 3 sub) o)) :
    Reads maj tl d sub t (kM tl d t k) :=
  reads_layout (by rw [words, eM_unpackM])

theorem reads_kB {k : LB → Instr} (words : ∀ o, encode (k o) = some (eB (.ofNat 6 maj) (.ofNat 3 sub) o)) :
    Reads maj tl d sub t (kB tl d t k) :=
  reads_layout (by rw [words, eB_unpackB])

theorem reads_kV {k : LV → Instr} (words : ∀ o, encode (k o) = some (eV (.ofNat 6 maj) (.ofNat 3 sub) o)) :
    Reads maj tl d sub t (kV tl d t k) :=
  reads_layout (by rw [words, eV_unpackV])

theorem reads_kXI {k : LXI → Instr} (words : ∀ o, encode (k o) = some (eXI (.ofNat 6 maj) (.ofNat 3 sub) o)) :
    Reads maj tl d sub t (kXI tl d t k) :=
  reads_layout (by rw [words, eXI_unpackXI])

theorem reads_k64 {k : L64 → Instr} (words : ∀ o, encode (k o) = some (e64 (.ofNat 6 maj) (.ofNat 3 sub) o)) :
    Reads maj tl d sub t (k64 tl d t k) :=
  reads_layout (by rw [words, e64_unpack64])

theorem reads_kX {k : LX → Instr} (words : ∀ o, encode (k o) = some (eX (.ofNat 6 maj) (.ofNat 3 sub) o)) :
    Reads maj tl d sub t (kX tl d t k) :=
  reads_layout (by rw [words, eX_unpackX])

theorem reads_major00 : Reads 0x00 tl d sub t (decodeMajor00 d tl sub t) := by
  unfold decodeMajor00; split
  exact reads_k0 rfl
  exact reads_kI16 fun _ => rfl
  exact reads_error _

theorem reads_major01 : Reads 0x01 tl d sub t (decodeMajor01 d tl sub t) := by
  unfold decodeMajor01; split
  iterate 8 exact reads_kH fun _ => rfl
  exact reads_error _

theorem reads_major02 : Reads 0x02 tl d sub t (decodeMajor02 d tl sub t) := by
  unfold decodeMajor02; split
  iterate 8 exact reads_kH fun _ => rfl
  exact reads_error _

theorem reads_major03 : Reads 0x03 tl d sub t (decodeMajor03 d tl sub t) := by
  unfold decodeMajor03; split
  iterate 8 exact reads_kH fun _ => rfl
  exact reads_error _

theorem reads_major04 : Reads 0x04 tl d sub t (decodeMajor04 d tl sub t) := by
  unfold decodeMajor04; split
  iterate 8 exact reads_kH fun _ => rfl
  exact reads_error _

theorem reads_major05 : Reads 0x05 tl d sub t (decodeMajor05 d tl sub t) := by
  unfold decodeMajor05; split
  iterate 7 exact reads_kH fun _ => rfl
  exact reads_error _

theorem reads_major08 : Reads 0x08 tl d sub t (decodeMajor08 d tl sub t) := by
  unfold decodeMajor08; split
  iterate 8
    split
    · exact reads_kI16 fun _ => rfl
    · exact reads_kWI fun _ => rfl
    · exact reads_kXI fun _ => rfl
    · exact reads_error _
  exact reads_error _

theorem reads_major0C : Reads 0x0C tl d sub t (decodeMajor0C d tl sub t) := by
  unfold decodeMajor0C; split
  exact reads_kH fun _ => rfl
  split
  · exact reads_kWI fun _ => rfl
  · exact reads_kXI fun _ => rfl
  · exact reads_error _
  exact reads_kH fun _ => rfl
  exact reads_kI16 fun _ => rfl
  iterate 3 exact reads_kH fun _ => rfl
  exact reads_error _

theorem reads_major0E : Reads 0x0E tl d sub t (decodeMajor0E d tl sub t) := by
  unfold decodeMajor0E; split
  split
  · exact reads_kI16 fun _ => rfl
  · exact reads_kI32 fun _ => rfl
  · exact reads_k64 fun _ => rfl
  · exact reads_error _
  exact reads_kWI fun _ => rfl
  exact reads_kH fun _ => rfl
  exact reads_error _

theorem reads_major0F : Reads 0x0F tl d sub t (decodeMajor0F d tl sub t) := by
  unfold decodeMajor0F; split
  iterate 5 exact reads_kI16 fun _ => rfl
  exact reads_error _

theorem reads_major10 : Reads 0x10 tl d sub t (decodeMajor10 d tl sub t) := by
  unfold decodeMajor10; split
  iterate 2 exact reads_kWI fun _ => rfl
  exact reads_kH fun _ => rfl
  exact reads_error _

theorem reads_major11 : Reads 0x11 tl d sub t (decodeMajor11 d tl sub t) := by
  unfold decodeMajor11; split
  iterate 8 exact reads_kB fun _ => rfl
  exact reads_error _

theorem reads_major14 : Reads 0x14 tl d sub t (decodeMajor14 d tl sub t) := by
  unfold decodeMajor14; split
  iterate 8 exact reads_kM fun _ => rfl
  exact reads_error _

theorem reads_major15 : Reads 0x15 tl d sub t (decodeMajor15 d tl sub t) := by
  unfold decodeMajor15; split
  iterate 8 exact reads_kM fun _ => rfl
  exact reads_error _

theorem reads_major16 : Reads 0x16 tl d sub t (decodeMajor16 d tl sub t) := by
  unfold decodeMajor16; split
  iterate 2 exact reads_kW fun _ => rfl
  exact reads_kI16 fun _ => rfl
  exact reads_kM fun _ => rfl
  exact reads_k0 rfl
  exact reads_kM fun _ => rfl
  exact reads_error _

theorem reads_major18 : Reads 0x18 tl d sub t (decodeMajor18 d tl sub t) := by
  unfold decodeMajor18; split
  iterate 8 exact reads_kX fun _ => rfl
  exact reads_error _

theorem reads_major1C : Reads 0x1C tl d sub t (decodeMajor1C d tl sub t) := by
  unfold decodeMajor1C; split
  iterate 8 exact reads_kH fun _ => rfl
  exact reads_error _

theorem reads_major1D : Reads 0x1D tl d sub t (decodeMajor1D d tl sub t) := by
  unfold decodeMajor1D; split
  exact reads_kW fun _ => rfl
  iterate 2 exact reads_kH fun _ => rfl
  exact reads_error _

theorem reads_major20 : Reads 0x20 tl d sub t (decodeMajor20 d tl sub t) := by
  unfold decodeMajor20; split
  exact reads_kH fun _ => rfl
  exact reads_kI16 fun _ => rfl
  exact reads_kH fun _ => rfl
  exact reads_kI16 fun _ => rfl
  exact reads_k0 rfl
  exact reads_kH fun _ => rfl
  exact reads_k0 rfl
  exact reads_error _

theorem reads_major21 : Reads 0x21 tl d sub t (decodeMajor21 d tl sub t) := by
  unfold decodeMajor21; split
  iterate 8 exact reads_kV fun _ => rfl
  exact reads_error _

theorem reads_major22 : Reads 0x22 tl d sub t (decodeMajor22 d tl sub t) := by
  unfold decodeMajor22; split
  iterate 8 exact reads_kV fun _ => rfl
  exact reads_error _

theorem reads_major23 : Reads 0x23 tl d sub t (decodeMajor23 d tl sub t) := by
  unfold decodeMajor23; split
  iterate 8 exact reads_kV fun _ => rfl
  exact reads_error _

theorem reads_major24 : Reads 0x24 tl d sub t (decodeMajor24 d tl sub t) := by
  unfold decodeMajor24; split
  iterate 6 exact reads_kX fun _ => rfl
  exact reads_error _

theorem reads_major25 : Reads 0x25 tl d sub t (decodeMajor25 d tl sub t) := by
  unfold decodeMajor25; split
  iterate 8 exact reads_kV fun _ => rfl
  exact reads_error _

theorem reads_major26 : Reads 0x26 tl d sub t (decodeMajor26 d tl sub t) := by
  unfold decodeMajor26; split
  iterate 5 exact reads_kV fun _ => rfl
  exact reads_error _

theorem reads_major27 : Reads 0x27 tl d sub t (decodeMajor27 d tl sub t) := by
  unfold decodeMajor27; split
  iterate 8 exact reads_kH fun _ => rfl
  exact reads_error _

theorem reads_major28 : Reads 0x28 tl d sub t (decodeMajor28 d tl sub t) := by
  unfold decodeMajor28; split
  iterate 8 exact reads_kX fun _ => rfl
  exact reads_error _

theorem reads_major29 : Reads 0x29 tl d sub t (decodeMajor29 d tl sub t) := by
  unfold decodeMajor29; split
  iterate 2 exact reads_kX fun _ => rfl
  exact reads_error _

theorem reads_major30 : Reads 0x30 tl d sub t (decodeMajor30 d tl sub t) := by
  unfold decodeMajor30; split
  iterate 8 exact reads_kX fun _ => rfl
  exact reads_error _

theorem reads_major31 : Reads 0x31 tl d sub t (decodeMajor31 d tl sub t) := by
  unfold decodeMajor31; split
  exact reads_kH fun _ => rfl
  exact reads_k0 rfl
  exact reads_kX fun _ => rfl
  exact reads_kN fun _ => rfl
  exact reads_error _

theorem reads_major36 : Reads 0x36 tl d sub t (decodeMajor36 d tl sub t) := by
  unfold decodeMajor36; split
  iterate 4 exact reads_kM fun _ => rfl
  iterate 3 exact reads_kH fun _ => rfl
  exact reads_kH fun _ => by split <;> rfl
  exact reads_error _

theorem reads_major37 : Reads 0x37 tl d sub t (decodeMajor37 d tl sub t) := by
  unfold decodeMajor37; split
  exact reads_kH fun _ => rfl
  exact reads_error _

theorem reads_major39 : Reads 0x39 tl d sub t (decodeMajor39 d tl sub t) := by
  unfold decodeMajor39; split
  exact reads_kX fun _ => rfl
  iterate 2 exact reads_kH fun _ => rfl
  exact reads_k0 rfl
  exact reads_kH fun _ => rfl
  exact reads_kI16 fun _ => rfl
  iterate 2 exact reads_kH fun _ => rfl
  exact reads_error _

theorem reads_major3A : Reads 0x3A tl d sub t (decodeMajor3A d tl sub t) := by
  unfold decodeMajor3A; split
  iterate 2 exact reads_kH fun _ => rfl
  exact reads_k0 rfl
  exact reads_error _

theorem reads_major3B : Reads 0x3B tl d sub t (decodeMajor3B d tl sub t) := by
  unfold decodeMajor3B; split
  iterate 4 exact reads_kH fun _ => rfl
  exact reads_error _

theorem reads_major3C : Reads 0x3C tl d sub t (decodeMajor3C d tl sub t) := by
  unfold decodeMajor3C; split
  exact reads_kH fun _ => rfl
  exact reads_kN fun _ => rfl
  iterate 2 exact reads_kH fun _ => rfl
  exact reads_kI16 fun _ => rfl
  iterate 2 exact reads_kH fun _ => rfl
  exact reads_error _

/-- R81: the map as a whole, major by major. -/
theorem reads_decodeMap : Reads maj tl d sub t (decodeMap maj d tl sub t) := by
  unfold decodeMap; split
  exacts [reads_major00, reads_major01, reads_major02, reads_major03, reads_major04, reads_major05, reads_major08, reads_major0C,
    reads_major0E, reads_major0F, reads_major10, reads_major11, reads_major14, reads_major15, reads_major16, reads_major18, reads_major1C,
    reads_major1D, reads_major20, reads_major21, reads_major22, reads_major23, reads_major24, reads_major25, reads_major26, reads_major27,
    reads_major28, reads_major29, reads_major30, reads_major31, reads_major36, reads_major37, reads_major39, reads_major3A, reads_major3B,
    reads_major3C, reads_error _]

end

/-! ### Halfwords beyond the counted ones take no part (R69) -/

section
variable (tl : Nat) (d : BitVec 5) (t : BitVec 64)

@[simp] theorem kH_cutTail (k : LH → Instr) : kH tl d (cutTail tl t) k = kH tl d t k :=
  ite_congr rfl (fun htl => by simp [htl, unpackH, extractLsb'_cutTail, tlLen]) fun _ => rfl

@[simp] theorem kI16_cutTail (k : LI16 → Instr) : kI16 tl d (cutTail tl t) k = kI16 tl d t k :=
  ite_congr rfl (fun htl => by simp [htl, unpackI16, extractLsb'_cutTail, tlLen]) fun _ => rfl

@[simp] theorem kI32_cutTail (k : LI32 → Instr) : kI32 tl d (cutTail tl t) k = kI32 tl d t k :=
  ite_congr rfl (fun htl => by simp [htl, unpackI32, extractLsb'_cutTail, tlLen]) fun _ => rfl

@[simp] theorem kW_cutTail (k : LW → Instr) : kW tl d (cutTail tl t) k = kW tl d t k :=
  ite_congr rfl (fun htl => by simp [htl, unpackW, extractLsb'_cutTail, tlLen]) fun _ => rfl

@[simp] theorem kWI_cutTail (k : LWI → Instr) : kWI tl d (cutTail tl t) k = kWI tl d t k :=
  ite_congr rfl (fun htl => by simp [htl, unpackWI, extractLsb'_cutTail, tlLen]) fun _ => rfl

@[simp] theorem kM_cutTail (k : LM → Instr) : kM tl d (cutTail tl t) k = kM tl d t k :=
  ite_congr rfl (fun htl => by simp [htl, unpackM, extractLsb'_cutTail, tlLen]) fun _ => rfl

@[simp] theorem kB_cutTail (k : LB → Instr) : kB tl d (cutTail tl t) k = kB tl d t k :=
  ite_congr rfl (fun htl => by simp [htl, unpackB, extractLsb'_cutTail, tlLen]) fun _ => rfl

@[simp] theorem kV_cutTail (k : LV → Instr) : kV tl d (cutTail tl t) k = kV tl d t k :=
  ite_congr rfl (fun htl => by simp [htl, unpackV, extractLsb'_cutTail, tlLen]) fun _ => rfl

@[simp] theorem kXI_cutTail (k : LXI → Instr) : kXI tl d (cutTail tl t) k = kXI tl d t k :=
  ite_congr rfl (fun htl => by rw [htl, cutTail_three]) fun _ => rfl

@[simp] theorem k64_cutTail (k : L64 → Instr) : k64 tl d (cutTail tl t) k = k64 tl d t k :=
  ite_congr rfl (fun htl => by rw [htl, cutTail_three]) fun _ => rfl

@[simp] theorem kX_cutTail (k : LX → Instr) : kX tl d (cutTail tl t) k = kX tl d t k :=
  ite_congr rfl (fun htl => by rw [htl, cutTail_three]) fun _ => rfl

end

theorem decodeMap_cutTail (maj : Nat) (d : BitVec 5) (tl sub : Nat) (t : BitVec 64) :
    decodeMap maj d tl sub (cutTail tl t) = decodeMap maj d tl sub t := by
  simp only [decodeMap, decodeMajor00, decodeMajor01, decodeMajor02, decodeMajor03, decodeMajor04, decodeMajor05, decodeMajor08,
    decodeMajor0C, decodeMajor0E, decodeMajor0F, decodeMajor10, decodeMajor11, decodeMajor14, decodeMajor15, decodeMajor16, decodeMajor18,
    decodeMajor1C, decodeMajor1D, decodeMajor20, decodeMajor21, decodeMajor22, decodeMajor23, decodeMajor24, decodeMajor25, decodeMajor26,
    decodeMajor27, decodeMajor28, decodeMajor29, decodeMajor30, decodeMajor31, decodeMajor36, decodeMajor37, decodeMajor39, decodeMajor3A,
    decodeMajor3B, decodeMajor3C, kN, kH_cutTail, kI16_cutTail, kI32_cutTail, kW_cutTail, kWI_cutTail, kM_cutTail, kB_cutTail, kV_cutTail,
    kXI_cutTail, k64_cutTail, kX_cutTail]

/-! ### The decoder -/

/-- What decodes comes from the opcode map. -/
theorem decodeMap_of_decode {h : BitVec 16} {t : BitVec 64} {i : Instr} (decoded : decode h t = .ok i) :
    decodeMap (h.extractLsb' 10 6).toNat (h.extractLsb' 3 5) (h.extractLsb' 8 2).toNat (h.extractLsb' 0 3).toNat t = .ok i := by
  unfold decode at decoded
  split at decoded
  case h_1 => contradiction
  case h_2 j mapped =>
    rw [mapped]
    split at decoded
    case h_1 => contradiction
    case h_2 => exact decoded

theorem encode_of_decode {h : BitVec 16} {t : BitVec 64} {i : Instr} (decoded : decode h t = .ok i) :
    encode i = some (cutEnc (h.extractLsb' 10 6) (h.extractLsb' 8 2).toNat (h.extractLsb' 3 5) (h.extractLsb' 0 3) t) := by
  simpa only [BitVec.ofNat_toNat, BitVec.setWidth_eq] using reads_decodeMap i (decodeMap_of_decode decoded)

/-- The four fields of a head make up the head (R69). -/
theorem cutEnc_head (h : BitVec 16) (t : BitVec 64) :
    (cutEnc (h.extractLsb' 10 6) (h.extractLsb' 8 2).toNat (h.extractLsb' 3 5) (h.extractLsb' 0 3) t).head = h := by
  simp only [Enc.head, cutEnc, BitVec.ofNat_toNat, BitVec.setWidth_eq, BitVec.extractLsb'_append_extractLsb'_eq_extractLsb',
    -Nat.reduceAdd]
  exact BitVec.extractLsb'_eq_self

theorem decode_cutTail (h : BitVec 16) (t : BitVec 64) : decode h (cutTail (h.extractLsb' 8 2).toNat t) = decode h t := by
  unfold decode
  rw [decodeMap_cutTail]

/-- The tail lengths 0, 1, 2 and 4 of R69, TL by TL. -/
theorem tlLen_toNat (tl : BitVec 2) : tlLen tl.toNat = if tl = 0 then 0 else if tl = 1 then 1 else if tl = 2 then 2 else 4 := by
  revert tl
  decide

end Sys2Proof

/-! ### The statement -/

namespace Sys2Proof.Proofs

/-- Settles O2: the rows of the opcode map give instructions whose words are the head's fields and the counted tail, and no layout reads
further than the counted tail. -/
theorem encodeOfDecode : Obligations.EncodeOfDecode := by
  intro h tl bits
  have counted (t : BitVec 64) : (cutTail tl.toNat t).toNat = t.toNat % 2 ^ bits := by rw [cutTail_toNat, tlLen_toNat]
  refine ⟨fun t i decoded => ⟨_, encode_of_decode decoded, cutEnc_head h t, rfl, ?_, rfl, rfl, counted t⟩,
    fun t u same => ?_⟩
  · exact (BitVec.ofNat_toNat 2 tl).trans (BitVec.setWidth_eq tl)
  · have cut : cutTail tl.toNat t = cutTail tl.toNat u := BitVec.eq_of_toNat_eq (by rw [counted, counted, same])
    rw [← decode_cutTail, cut, decode_cutTail]

end Sys2Proof.Proofs
end

section
/-! The program counter and jumps: next_pc and the targets of R79, the two ways to ILLINE of R16 and R68, the jumps of R98, and the
statement O14 from them. -/

namespace Sys2Proof.Machine

/-! ### Places of execution (R79) -/

/-- Clearing bits 5:0 of a PC gives its line base. -/
theorem toNat_lineStart (pc : Word) : (pc.setWidth 56 &&& ~~~63#56).toNat = lineBase pc.toNat := by
  have mask : ~~~63#56 = BitVec.allOnes 56 <<< 6 := by decide
  rw [mask, ← BitVec.shiftLeft_ushiftRight]
  simp only [BitVec.toNat_shiftLeft, BitVec.toNat_ushiftRight, BitVec.toNat_setWidth, Nat.shiftLeft_eq, Nat.shiftRight_eq_div_pow,
    lineBase]
  omega

/-- target_WI and target_B, for an offset of any width: a slot of the line so many lines away, modulo 2^56. -/
theorem targetLine_eq_target {w : Nat} (pc : Word) (off : BitVec w) (slot : BitVec 5) :
    targetLine pc.toNat off.toInt slot.toNat = Spec.target pc (off.signExtend 56) slot := by
  have start : pc.setWidth 56 &&& ~~~63#56 = BitVec.ofInt 56 (lineBase pc.toNat) := by
    rw [← toNat_lineStart, BitVec.ofInt_natCast, BitVec.ofNat_toNat, BitVec.setWidth_eq]
  have lines : off.signExtend 56 <<< 6 = BitVec.ofInt 56 (off.toInt * 64) := by
    rw [BitVec.shiftLeft_eq_mul_twoPow, BitVec.ofInt_mul]
    rfl
  rw [targetLine, Spec.target, start, lines, ← BitVec.ofInt_add, BitVec.ofNat_add, BitVec.ofNat_toNat,
    ← BitVec.ofNat_toNat 64 (BitVec.ofInt 56 _), BitVec.toNat_ofInt]
  rfl

theorem lineN_lt (l : BitVec 512) : lineN l < 32 := Nat.mod_lt _ (by decide)

/-- In a line that is held, next_pc is the next slot below N, else slot 0 of the next line. -/
theorem Ctx.nextPc_eq_next {k : Ctx} {l : BitVec 512} (held : k.line = some (lineBase k.pcNat, l)) :
    k.nextPc = Spec.next k.pc (lineN l) := by
  have count : k.lineCount = lineN l := by simp [Ctx.lineCount, held]
  have slot : (k.pc.extractLsb' 0 5).toNat = k.pcNat % 32 := by simp [Ctx.pcNat]
  rw [Ctx.nextPc, Spec.next, count, slot]
  split
  case isTrue inside =>
    have bound := lineN_lt l
    apply BitVec.eq_of_toNat_eq
    simp only [Ctx.pcNat, BitVec.toNat_ofNat, BitVec.toNat_setWidth, BitVec.toNat_add, BitVec.ofNat_eq_ofNat] at inside ⊢
    omega
  case isFalse =>
    rw [← BitVec.ofNat_toNat 64 (_ + _), BitVec.toNat_add, toNat_lineStart]
    rfl

/-! ### Fetches that raise ILLINE (R16, R68) -/

/-- R138: once the entries of the context's image have executed, nothing is replayed. -/
theorem replaying_eq_false {s : State} (replayed : Spec.replayed s) : s.replaying = false := by
  simp only [State.replaying, List.any_eq_false]
  intro e he waiting
  simp only [Bool.and_eq_true, beq_iff_eq] at waiting
  obtain ⟨⟨replay, pending⟩, ctx⟩ := waiting
  simp [replayed e he ctx replay] at pending

/-- Nothing that the context has issued makes an access wait (R111, R128, R136, R250). -/
theorem orderWait_ok_of_unordered {s : State} (h : Spec.unordered s) (oc : BitVec 4) (release : Bool) (ranges : List (Int × Nat)) :
    orderWait oc release ranges s = .ok () := by
  obtain ⟨entries, reads⟩ := h
  have none_queued : s.queuedAccesses = [] := by
    rw [State.queuedAccesses, List.filter_eq_nil_iff]
    intro e he queued
    simp only [Bool.and_eq_true, beq_iff_eq] at queued
    obtain ⟨⟨-, ctx⟩, accesses⟩ := queued
    simp [entries e he ctx] at accesses
  have no_wread : s.wreadPending = false := by
    rw [State.wreadPending, List.any_eq_false]
    intro o ho pending
    simp only [Bool.and_eq_true, beq_iff_eq, Option.isNone_iff_eq_none] at pending
    obtain ⟨⟨⟨⟨⟨kind, running⟩, ctx⟩, asid⟩, sid⟩, -⟩ := pending
    split at kind
    case h_1 va wread => exact reads o ho ctx asid sid running va wread
    case h_2 => contradiction
  exact (orderWait_ok_iff oc release ranges s).2
    ⟨by simp [State.classQueued, none_queued], no_wread, fun r _ => by simp [State.conflictQueued, none_queued]⟩

/-- R16: a PC that names no slot of a line. -/
theorem fetch_illPc {s : State} (going : s.replaying = false) (bad : bitOf s.cx.pcNat 5 = true ∨ 2 ^ 56 ≤ s.cx.pcNat) :
    s.fetch = .error (.trapIn { cause := .illine, saddr := lineBase s.cx.pcNat, sinfo := 5 } s) := by
  have check : (bitOf s.cx.pcNat 5 || decide (s.cx.pcNat ≥ 2 ^ 56)) = true := by simpa using bad
  simp only [State.fetch, going, check, Bool.false_eq_true, if_false, if_true]

/-- R68: a line that breaks a rule of lines, once its 64 bytes have been read. -/
theorem fetch_illLine {s s1 : State} {p : Place} {r : Nat} (going : s.replaying = false) (free : Spec.unordered s)
    (enters : s.cx.line = none) (slot : bitOf s.cx.pcNat 5 = false) (low : s.cx.pcNat < 2 ^ 56)
    (reached : s.access (s.who .fetch .x) (lineBase s.cx.pcNat) 64 = .ok (s1, p)) (clean : s1.placePoisoned s.cx.as p 64 = false)
    (breaks : lineReason (BitVec.ofNat 512 (s1.placeRead s.cx.as p 64)) (s.cx.pcNat % 32) = some r) :
    s.fetch = .error (.trapIn { cause := .illine, saddr := lineBase s.cx.pcNat, sinfo := r } s1) := by
  have check : (bitOf s.cx.pcNat 5 || decide (s.cx.pcNat ≥ 2 ^ 56)) = false := by simpa [slot] using low
  simp only [State.fetch, going, check, enters, orderWait_ok_of_unordered free, reached, clean, breaks, Bool.false_eq_true, if_false]

/-! ### Jumps (R98) -/

/-- R73: J has D as a zero field, and is ILLINS with reason 3 when D is not zero. -/
theorem guard_j {o : LWI} (s : State) (link : o.d ≠ 0) : guard (.j o) s = some (.trap (illins (.j o) 3)) := by
  have ill : illForm (.j o) = some .field := by simpa [illForm, ckWI, zeroOk, firstIll] using link
  simp [guard, ill, Ill.code]

theorem decodeMap_major10 (d : BitVec 5) (tl sub : Nat) (t : BitVec 64) :
    decodeMap (0x10 : BitVec 6).toNat d tl sub t = decodeMajor10 d tl sub t := rfl

/-- R81: SUBs 3 to 7 of major 10 are not listed. -/
theorem decode_major10_unlisted {h : BitVec 16} {t : BitVec 64} (major : h.extractLsb' 10 6 = 0x10)
    (sub : 3 ≤ (h.extractLsb' 0 3).toNat) : decode h t = .error .unlisted := by
  have row : decodeMajor10 (h.extractLsb' 3 5) (h.extractLsb' 8 2).toNat (h.extractLsb' 0 3).toNat t = .error .unlisted := by
    unfold decodeMajor10
    split
    case h_4 => rfl
    all_goals omega
  rw [decode, major, decodeMap_major10, row]

end Sys2Proof.Machine

/-! ### The statement -/

namespace Sys2Proof.Proofs

open Sys2Proof.Machine

/-- `Rule.NextPc`: for the held line of the PC, and for the offsets of both widths. -/
theorem nextPc : Rule.NextPc := fun k _ _ =>
  ⟨Ctx.nextPc_eq_next, targetLine_eq_target k.pc, targetLine_eq_target k.pc⟩

/-- `Rule.FetchIllLine`: reason 5 from the PC, the others from the bytes of the line. -/
theorem fetchIllLine : Rule.FetchIllLine := fun _ replayed =>
  ⟨fetch_illPc (replaying_eq_false replayed), fun _ _ _ => fetch_illLine (replaying_eq_false replayed)⟩

/-- `Rule.JumpResult`: each form from the end that its entry comes to. -/
theorem jumpRule : Rule.JumpResult := by
  intro s
  refine ⟨fun issues => ?_, fun o issues => ?_, fun o issues => ?_, fun o issues => ?_, fun o => ⟨⟨_, rfl⟩, fun link => ?_⟩,
    fun o => ⟨_, rfl⟩, fun o => rfl, fun h t => decode_major10_unlisted⟩
  · exact ⟨s.advance, (exec_nop s).trans (run_ok issues rfl), advance_movesTo s⟩
  · exact ⟨s.jump _, (exec_j s o).trans (run_ok issues rfl), jump_movesTo s _⟩
  · obtain ⟨linked, results⟩ := linkTo_results s o.d (targetLine s.cx.pcNat o.imm.toInt o.a.toNat)
    exact ⟨_, (exec_jal s o).trans (run_ok issues linked), results⟩
  · obtain ⟨linked, results⟩ := linkTo_results s o.d (s.getX o.a)
    exact ⟨_, (exec_jalr s o).trans (run_ok issues linked), results⟩
  · exact (exec_j s o).trans (run_guarded (guard_j s link) _)

/-- Settles O14: the arithmetic of R79, the checks of a fetch, and the ends of NOP, J, JAL and JALR. -/
theorem jumpResult : Obligations.JumpResult := ⟨nextPc, fetchIllLine, jumpRule⟩

end Sys2Proof.Proofs
end

section
/-! Scalar instructions, what they share: an instruction whose only check is on its fields, the ends of a register instruction, and heads
that the opcode map does not list. -/

namespace Sys2Proof.Machine

/-! ### The encoding checks of one instruction (R73, R80) -/

theorem wellFormed_iff_fields {i : Instr} {fields : Bool} (check : illForm i = firstIll fields true true true) :
    i.WellFormed ↔ fields = true := by
  cases fields <;> simp [Instr.WellFormed, check, firstIll]

/-- R80 step 2: an encoding that fails a check raises ILLINS with the reason of the check. -/
theorem exec_illins {i : Instr} {s : State} {body : State → Except Stop State} {e : Ill} (ill : illForm i = some e)
    (runs : exec i s = run i s body) : exec i s = .next (takeTrap (illins i e.code) s) := by
  have stopped : guard i s = some (.trap (illins i e.code)) := by simp [guard, ill]
  rw [runs, run_guarded stopped, finish]

/-! ### Ends of an instruction that issues -/

section
variable {i : Instr} {s : State} {body : State → Except Stop State}

/-- An instruction whose entry writes one register. -/
theorem exec_returns {d : BitVec 5} {v w : Word} (issues : Issues i s) (runs : exec i s = run i s body)
    (ends : body s = .ok (s.retX d v)) (value : v = w) : ∃ t, exec i s = .next t ∧ Returns s t d w :=
  ⟨s.retX d v, runs.trans (run_ok issues ends), value ▸ retX_returns s d v⟩

theorem exec_traps {t : Trap} (issues : Issues i s) (runs : exec i s = run i s body) (stops : body s = .error (.trap t)) :
    exec i s = .next (takeTrap t s) :=
  runs.trans (run_error issues stops)

/-- R99: a branch ends at its target when it is taken, and at next_pc when not. -/
theorem branch_moves {o : LB} {taken : Bool} {condition : Prop} (issues : Issues i s) (runs : exec i s = run i s body)
    (ends : body s = branch o taken s) (decides : taken = true ↔ condition) :
    ∃ t, exec i s = .next t ∧ (condition → MovesTo s t (targetLine s.cx.pcNat o.imm.toInt o.t.toNat)) ∧
      (¬condition → MovesTo s t s.cx.nextPc) := by
  refine ⟨_, runs.trans (run_ok issues ends), fun holds => ?_, fun fails => ?_⟩
  · rw [if_pos (decides.2 holds)]
    exact jump_movesTo s _
  · rw [if_neg (mt decides.1 fails)]
    exact advance_movesTo s

end

/-! ### Heads that are no instruction (R81) -/

theorem decode_error_of_map {h : BitVec 16} {t : BitVec 64} {e : Ill} {maj : BitVec 6} (major : h.extractLsb' 10 6 = maj)
    (row : decodeMap maj.toNat (h.extractLsb' 3 5) (h.extractLsb' 8 2).toNat (h.extractLsb' 0 3).toNat t = .error e) :
    decode h t = .error e := by
  rw [decode, major, row]

/-- Major 05 lists SUBs 0 to 6. -/
theorem decode_major05_unlisted {h : BitVec 16} (t : BitVec 64) (major : h.extractLsb' 10 6 = 0x05) (sub : h.extractLsb' 0 3 = 7) :
    decode h t = .error .unlisted :=
  decode_error_of_map major (by rw [sub]; rfl)

/-- No row of major 08 takes TL 0. -/
theorem decodeMajor08_unlisted (d : BitVec 5) (sub : Nat) (t : BitVec 64) {tl : BitVec 2} (short : tl = 0) :
    ∃ e, decodeMajor08 d tl.toNat sub t = .error e := by
  subst short
  unfold decodeMajor08
  split
  all_goals exact ⟨_, rfl⟩

/-- Major 0C lists neither SUB 7 nor ADDIA with TL 0 or 1. -/
theorem decodeMajor0C_unlisted (d : BitVec 5) (t : BitVec 64) {tl : BitVec 2} {sub : BitVec 3} (free : sub = 7 ∨ sub = 1 ∧ tl < 2) :
    ∃ e, decodeMajor0C d tl.toNat sub.toNat t = .error e := by
  obtain rfl | ⟨rfl, short⟩ := free
  · exact ⟨_, rfl⟩
  · obtain rfl | rfl : tl = 0 ∨ tl = 1 := by bv_omega
    all_goals exact ⟨_, rfl⟩

/-- Major 0E lists LI with TL 1 to 3, LPC with TL 2 and MOV with TL 1. -/
theorem decodeMajor0E_unlisted (d : BitVec 5) (t : BitVec 64) {tl : BitVec 2} {sub : BitVec 3}
    (free : sub = 0 ∧ tl = 0 ∨ sub = 1 ∧ tl ≠ 2 ∨ sub = 2 ∧ tl ≠ 1 ∨ 3 ≤ sub) :
    ∃ e, decodeMajor0E d tl.toNat sub.toNat t = .error e := by
  obtain ⟨rfl, rfl⟩ | ⟨rfl, other⟩ | ⟨rfl, other⟩ | high := free
  · exact ⟨_, rfl⟩
  · exact ⟨_, if_neg fun same => other (BitVec.eq_of_toNat_eq same)⟩
  · exact ⟨_, if_neg fun same => other (BitVec.eq_of_toNat_eq same)⟩
  · unfold decodeMajor0E
    split
    case h_4 => exact ⟨_, rfl⟩
    all_goals bv_omega

/-! ### Bit fields (R9) -/

theorem bitsOf_eq_extractLsb' {w : Nat} (v : BitVec w) (lo len : Nat) : bitsOf v.toNat lo len = (v.extractLsb' lo len).toNat := by
  rw [bitsOf, BitVec.extractLsb'_toNat, Nat.shiftRight_eq_div_pow]

theorem bitOf_eq_getLsbD {w : Nat} (a : BitVec w) (k : Nat) : bitOf a.toNat k = a.getLsbD k := by
  rw [BitVec.getLsbD, Nat.testBit_eq_decide_div_mod_eq]
  rfl

/-- The signed reading of w low bits is that of the word of w bits. -/
theorem sInt_eq_toInt {w v : Nat} (a : BitVec v) : sInt w a.toNat = (a.setWidth w).toInt := by
  rw [sInt, BitVec.toInt_eq_toNat_cond, BitVec.toNat_setWidth]
  cases w with
  | zero => simp [Nat.mod_one]
  | succ w =>
    have signed : (2 : Int) ^ (w + 1) = ((2 * 2 ^ w : Nat) : Int) := by push_cast; exact pow_succ' 2 w
    rw [signed, Nat.pow_succ', Nat.add_sub_cancel]
    generalize 2 ^ w = half
    split <;> split <;> omega

end Sys2Proof.Machine
end

section
/-! Integer operations: each operation of the model is the one that R36 and R90 give, and the statements O10 and O11 from them. -/

namespace Sys2Proof.Machine

/-! ### Sums, products, shifts and comparisons (R90) -/

theorem add_eq_ofInt (a b : Word) : a + b = BitVec.ofInt 64 (a.toInt + b.toInt) := by
  rw [BitVec.ofInt_add, BitVec.ofInt_toInt, BitVec.ofInt_toInt]

theorem sub_eq_ofInt (a b : Word) : a - b = BitVec.ofInt 64 (a.toInt - b.toInt) := by
  rw [Int.sub_eq_add_neg, BitVec.ofInt_add, BitVec.ofInt_neg, BitVec.ofInt_toInt, BitVec.ofInt_toInt, BitVec.sub_eq_add_neg]

theorem mul_eq_ofInt (a b : Word) : a * b = BitVec.ofInt 64 (a.toInt * b.toInt) := by
  rw [BitVec.ofInt_mul, BitVec.ofInt_toInt, BitVec.ofInt_toInt]

/-- The product of two words of 128 bits has bits [127:64] of the product of their values. -/
theorem highWord_eq_highHalf (x y : BitVec 128) : highWord (x.toInt * y.toInt) = Spec.highHalf x y := by
  have product : x * y = BitVec.ofInt 128 (x.toInt * y.toInt) := by rw [BitVec.ofInt_mul, BitVec.ofInt_toInt, BitVec.ofInt_toInt]
  rw [highWord, Spec.highHalf, product]
  apply BitVec.eq_of_toNat_eq
  simp only [BitVec.toNat_ofInt, BitVec.extractLsb'_toNat, Nat.shiftRight_eq_div_pow]
  omega

theorem toInt_signExtend_128 (a : Word) : (a.signExtend 128).toInt = a.toInt := BitVec.toInt_signExtend_of_le (by decide)

theorem toInt_setWidth_128 (a : Word) : (a.setWidth 128).toInt = a.toNat := by
  have wide : (a.setWidth 128).toNat = a.toNat := BitVec.toNat_setWidth_of_le (by decide)
  rw [BitVec.toInt_eq_toNat_of_lt (by omega), wide]

theorem highWord_signed (a b : Word) : highWord (a.toInt * b.toInt) = Spec.highHalf (a.signExtend 128) (b.signExtend 128) := by
  rw [← highWord_eq_highHalf, toInt_signExtend_128, toInt_signExtend_128]

theorem highWord_unsigned (a b : Word) : highWord (a.toNat * b.toNat) = Spec.highHalf (a.setWidth 128) (b.setWidth 128) := by
  rw [← highWord_eq_highHalf, toInt_setWidth_128, toInt_setWidth_128]

theorem highWord_mixed (a b : Word) : highWord (a.toInt * b.toNat) = Spec.highHalf (a.signExtend 128) (b.setWidth 128) := by
  rw [← highWord_eq_highHalf, toInt_signExtend_128, toInt_setWidth_128]

theorem shAmt_eq (b : Word) : shAmt b = (b.extractLsb' 0 6).toNat := by simp [shAmt]

theorem boolWord_slt (a b : Word) : boolWord (a.slt b) = Spec.below a b := by
  simp [boolWord, Spec.below, BitVec.slt_iff_toInt_lt]

theorem boolWord_ult (a b : Word) : boolWord (a.ult b) = Spec.belowU a b := by
  simp [boolWord, Spec.belowU, BitVec.ult_iff_toNat_lt]

theorem boolWord_beq (a b : Word) : boolWord (a == b) = if a = b then 1 else 0 := by
  simp [boolWord]

/-- Values that are equal when their keys are may be chosen by the strict or by the weak order of the keys. -/
theorem ite_lt_eq_ite_le {α β : Type} [LinearOrder β] {m n : β} {c d : α} (same : m = n → c = d) :
    (if m < n then c else d) = if m ≤ n then c else d := by
  obtain less | equal | greater := lt_trichotomy m n
  · rw [if_pos less, if_pos less.le]
  · rw [same equal, ite_self, ite_self]
  · rw [if_neg greater.not_gt, if_neg greater.not_ge]

theorem wMin_eq (a b : Word) : wMin a b = if a.toInt ≤ b.toInt then a else b := by
  simp only [wMin, BitVec.slt_iff_toInt_lt]
  exact ite_lt_eq_ite_le BitVec.eq_of_toInt_eq

theorem wMax_eq (a b : Word) : wMax a b = if a.toInt ≤ b.toInt then b else a := by
  simp only [wMax, BitVec.slt_iff_toInt_lt]
  exact ite_lt_eq_ite_le fun same => (BitVec.eq_of_toInt_eq same).symm

theorem wMinu_eq (a b : Word) : wMinu a b = if a.toNat ≤ b.toNat then a else b := by
  simp only [wMinu, BitVec.ult_iff_toNat_lt]
  exact ite_lt_eq_ite_le BitVec.eq_of_toNat_eq

theorem wMaxu_eq (a b : Word) : wMaxu a b = if a.toNat ≤ b.toNat then b else a := by
  simp only [wMaxu, BitVec.ult_iff_toNat_lt]
  exact ite_lt_eq_ite_le fun same => (BitVec.eq_of_toNat_eq same).symm

/-! ### Quotients and remainders (R36) -/

theorem wDiv_eq (a b : Word) : wDiv a b = Spec.quotient a b :=
  ite_congr rfl (fun _ => rfl) fun _ => by
    apply BitVec.eq_of_toInt_eq
    rw [BitVec.toInt_sdiv, BitVec.toInt_ofInt]

theorem wRem_eq (a b : Word) : wRem a b = Spec.remainder a b :=
  ite_congr rfl (fun _ => rfl) fun _ => by rw [← BitVec.toInt_srem, BitVec.ofInt_toInt]

theorem wDivu_eq (a b : Word) : wDivu a b = Spec.quotientU a b :=
  ite_congr rfl (fun _ => rfl) fun _ => by rw [← BitVec.toNat_udiv, BitVec.ofNat_toNat, BitVec.setWidth_eq]

theorem wRemu_eq (a b : Word) : wRemu a b = Spec.remainderU a b :=
  ite_congr rfl (fun _ => rfl) fun _ => by rw [← BitVec.toNat_umod, BitVec.ofNat_toNat, BitVec.setWidth_eq]

/-! ### Counts of bits (R90) -/

/-- With fuel for every bit, the halvings of a number that is not 0 lead to its highest set bit. -/
theorem log2Fuel_bounds {f n : Nat} (pos : n ≠ 0) (fuel : n < 2 ^ f) : 2 ^ log2Fuel f n ≤ n ∧ n < 2 ^ (log2Fuel f n + 1) := by
  induction f generalizing n with
  | zero => omega
  | succ f ih =>
    rw [log2Fuel]
    split
    case isTrue => omega
    case isFalse =>
      obtain ⟨low, high⟩ := ih (n := n / 2) (by omega) (by omega)
      rw [Nat.add_comm 1, Nat.pow_succ, Nat.pow_succ]
      omega

theorem wClz_eq (a : Word) : wClz a = Spec.leadingZeros a := by
  rw [wClz, Spec.leadingZeros]
  split
  case isTrue zero => simp [zero]
  case isFalse pos =>
    obtain ⟨low, high⟩ := log2Fuel_bounds (n := a.toNat) (by simpa [← BitVec.toNat_inj] using pos) a.isLt
    have size : a.toNat.size = log2Fuel 64 a.toNat + 1 := Nat.le_antisymm (Nat.size_le.2 high) (Nat.lt_size.2 low)
    rw [size]
    congr 1
    omega

theorem wCtz_eq (a : Word) : wCtz a = Spec.trailingZeros a := by
  simp only [wCtz, Spec.trailingZeros, lowestBit, upTo, List.range_eq_range', bitOf_eq_getLsbD]

theorem popBelow_eq_length {w : Nat} (a : BitVec w) (n : Nat) :
    popBelow a.toNat n = ((List.range n).filter (fun k => a.getLsbD k)).length := by
  induction n with
  | zero => rfl
  | succ n ih =>
    rw [popBelow, ih, List.range_succ, List.filter_append, List.length_append, bitOf_eq_getLsbD]
    cases set : a.getLsbD n <;> simp [set]

theorem wPopc_eq (a : Word) : wPopc a = Spec.ones a := by rw [wPopc, popBelow_eq_length, Spec.ones]

/-! ### Bytes and low parts (R90) -/

theorem toNat_append_byte {w : Nat} (x : BitVec w) (b : Byte) : (x ++ b).toNat = b.toNat + 256 * x.toNat := by
  rw [BitVec.toNat_append, ← Nat.shiftLeft_add_eq_or_of_lt b.isLt, Nat.shiftLeft_eq]
  omega

theorem wBswap_eq (a : Word) : wBswap a = Spec.bytesReversed a := by
  have bytes : ofBytes (toBytes 8 a.toNat).reverse = (Spec.bytesReversed a).toNat := by
    simp [Spec.bytesReversed, toNat_append_byte, toBytes, ofBytes, Nat.div_div_eq_div_mul, Nat.shiftRight_eq_div_pow]
  rw [wBswap, bytes, BitVec.ofNat_toNat, BitVec.setWidth_eq]

/-- The width that F names, for the values that name one. -/
theorem lowPart_eq {f : BitVec 6} (names : f < 3) (a : Word) (signed : Bool) : Spec.lowPart f a signed =
    if signed then (a.setWidth (extWidth f)).signExtend 64 else (a.setWidth (extWidth f)).setWidth 64 := by
  obtain rfl | rfl | rfl : f = 0 ∨ f = 1 ∨ f = 2 := by bv_omega
  all_goals rfl

theorem ofInt_sInt_eq_lowPart {f : BitVec 6} (names : f < 3) (a : Word) :
    BitVec.ofInt 64 (sInt (extWidth f) a.toNat) = Spec.lowPart f a true := by
  rw [lowPart_eq names, if_pos rfl, sInt_eq_toInt, BitVec.signExtend]

theorem ofNat_mod_eq_lowPart {f : BitVec 6} (names : f < 3) (a : Word) :
    BitVec.ofNat 64 (a.toNat % 2 ^ extWidth f) = Spec.lowPart f a false := by
  rw [lowPart_eq names, if_neg Bool.false_ne_true, ← BitVec.toNat_setWidth, BitVec.ofNat_toNat]

theorem narrow_add (a b : Word) : narrow (a + b) = (a.setWidth 32 + b.setWidth 32).signExtend 64 := by
  rw [narrow, BitVec.setWidth_add _ _ (by decide)]

theorem narrow_sub (a b : Word) : narrow (a - b) = (a.setWidth 32 - b.setWidth 32).signExtend 64 := by
  rw [narrow, BitVec.sub_eq_add_neg, BitVec.setWidth_add _ _ (by decide), BitVec.setWidth_neg_of_le (by decide), ← BitVec.sub_eq_add_neg]

theorem narrow_mul (a b : Word) : narrow (a * b) = (a.setWidth 32 * b.setWidth 32).signExtend 64 := by
  rw [narrow, BitVec.setWidth_mul _ _ (by decide)]

/-! ### The table of R90 -/

/-- The values that the fields of a row's instruction may have, as `Rule.AluResult` lists them. -/
def AluFields (maj : BitVec 6) (sub : BitVec 3) (o : LH) : Prop :=
  (Spec.oneOperand maj sub → o.b = 0) ∧ (Spec.namesWidth maj sub → o.f < 3) ∧ (¬Spec.namesWidth maj sub → o.f = 0)

section
variable {i : Instr} {maj : BitVec 6} {sub : BitVec 3} {o : LH} {f : Word → Word → Word → Word} {s : State}

theorem encode_of_alu (row : Spec.alu i = some (maj, sub, o, f)) : encode i = some (Spec.wordH maj sub o) := by
  unfold Spec.alu at row
  split at row <;> cases row
  all_goals rfl

/-- Two operands, F zero. -/
theorem fields_two (check : illForm i = firstIll (o.f == 0) true true true) (two : ¬Spec.oneOperand maj sub) :
    i.WellFormed ↔ AluFields maj sub o := by
  have noWidth : ¬Spec.namesWidth maj sub := fun width => two (.inr width)
  simp [AluFields, wellFormed_iff_fields check, two, noWidth]

/-- One operand, F and B zero. -/
theorem fields_one (check : illForm i = firstIll (o.b == 0 && o.f == 0) true true true) (one : Spec.oneOperand maj sub)
    (noWidth : ¬Spec.namesWidth maj sub) : i.WellFormed ↔ AluFields maj sub o := by
  simp [AluFields, wellFormed_iff_fields check, one, noWidth]

theorem wellFormed_iff_width (check : illForm i = firstIll (o.b == 0 && decide (o.f.toNat < 3)) true true true) :
    i.WellFormed ↔ o.b = 0 ∧ o.f < 3 := by
  simp [wellFormed_iff_fields check, BitVec.lt_def]

/-- One operand, F naming a width and B zero. -/
theorem fields_width (check : illForm i = firstIll (o.b == 0 && decide (o.f.toNat < 3)) true true true)
    (width : Spec.namesWidth maj sub) : i.WellFormed ↔ AluFields maj sub o := by
  have one : Spec.oneOperand maj sub := .inr width
  simp [AluFields, wellFormed_iff_width check, one, width]

theorem width_of_issues (issues : Issues i s)
    (check : illForm i = firstIll (o.b == 0 && decide (o.f.toNat < 3)) true true true) : o.f < 3 := by
  obtain ⟨wellFormed, -⟩ := issues
  exact ((wellFormed_iff_width check).1 wellFormed).2

/-- The fields of the table's rows, in its order: two operands but for CLZ to BSWAP, and SEXT and ZEXT. -/
theorem fields_of_alu (row : Spec.alu i = some (maj, sub, o, f)) : i.WellFormed ↔ AluFields maj sub o := by
  unfold Spec.alu at row
  split at row <;> cases row
  iterate 28 exact fields_two rfl (by simp [Spec.oneOperand])
  iterate 4 exact fields_one rfl (by simp [Spec.oneOperand]) (by simp [Spec.namesWidth])
  iterate 2 exact fields_width rfl (by simp [Spec.namesWidth])
  iterate 5 exact fields_two rfl (by simp [Spec.oneOperand])

/-- The end of an operation on x[A] and x[B]. -/
theorem aluH_returns {op : Word → Word → Word} {v : Word} (issues : Issues i s) (runs : exec i s = run i s (aluH o op))
    (value : op (s.getX o.a) (s.getX o.b) = v) : ∃ t, exec i s = .next t ∧ Returns s t o.d v :=
  exec_returns issues runs rfl value

/-- The ends of the table's rows, in its order. -/
theorem returns_of_alu (row : Spec.alu i = some (maj, sub, o, f)) (issues : Issues i s) :
    ∃ t, exec i s = .next t ∧ Returns s t o.d (f (s.getX o.a) (s.getX o.b) (s.getX o.d)) := by
  unfold Spec.alu at row
  split at row <;> cases row
  exacts [
    aluH_returns issues (exec_add s _) (add_eq_ofInt _ _),
    aluH_returns issues (exec_sub s _) (sub_eq_ofInt _ _),
    aluH_returns issues (exec_and s _) rfl,
    aluH_returns issues (exec_or s _) rfl,
    aluH_returns issues (exec_xor s _) rfl,
    aluH_returns issues (exec_andn s _) rfl,
    aluH_returns issues (exec_orn s _) rfl,
    aluH_returns issues (exec_xnor s _) rfl,
    aluH_returns issues (exec_sll s _) (by rw [shAmt_eq]),
    aluH_returns issues (exec_srl s _) (by rw [shAmt_eq]),
    aluH_returns issues (exec_sra s _) (by rw [shAmt_eq]),
    aluH_returns issues (exec_rol s _) (by rw [shAmt_eq]),
    aluH_returns issues (exec_ror s _) (by rw [shAmt_eq]),
    aluH_returns issues (exec_slt s _) (boolWord_slt _ _),
    aluH_returns issues (exec_sltu s _) (boolWord_ult _ _),
    aluH_returns issues (exec_seq s _) (boolWord_beq _ _),
    aluH_returns issues (exec_min s _) (wMin_eq _ _),
    aluH_returns issues (exec_max s _) (wMax_eq _ _),
    aluH_returns issues (exec_minu s _) (wMinu_eq _ _),
    aluH_returns issues (exec_maxu s _) (wMaxu_eq _ _),
    aluH_returns issues (exec_mul s _) (mul_eq_ofInt _ _),
    aluH_returns issues (exec_mulh s _) (highWord_signed _ _),
    aluH_returns issues (exec_mulhu s _) (highWord_unsigned _ _),
    aluH_returns issues (exec_mulhsu s _) (highWord_mixed _ _),
    aluH_returns issues (exec_div s _) (wDiv_eq _ _),
    aluH_returns issues (exec_divu s _) (wDivu_eq _ _),
    aluH_returns issues (exec_rem s _) (wRem_eq _ _),
    aluH_returns issues (exec_remu s _) (wRemu_eq _ _),
    aluH_returns issues (exec_clz s _) (wClz_eq _),
    aluH_returns issues (exec_ctz s _) (wCtz_eq _),
    aluH_returns issues (exec_popc s _) (wPopc_eq _),
    aluH_returns issues (exec_bswap s _) (wBswap_eq _),
    aluH_returns issues (exec_sext s _) (ofInt_sInt_eq_lowPart (width_of_issues issues rfl) _),
    aluH_returns issues (exec_zext s _) (ofNat_mod_eq_lowPart (width_of_issues issues rfl) _),
    aluH_returns issues (exec_addw s _) (narrow_add _ _),
    aluH_returns issues (exec_subw s _) (narrow_sub _ _),
    aluH_returns issues (exec_mulw s _) (narrow_mul _ _),
    exec_returns issues (exec_cmovz s _) rfl rfl,
    exec_returns issues (exec_cmovnz s _) rfl (ite_not _ _ _).symm]

end

/-! ### The table of R91 -/

/-- SHI: the kind from imm[7:6], the amount from imm[5:0]. -/
theorem shiOp_eq (a imm : Word) : shiOp a imm = Spec.shifted a imm := by
  have kind : bitsOf imm.toNat 6 2 = (imm.extractLsb' 6 2).toNat := bitsOf_eq_extractLsb' imm 6 2
  have amount : imm.toNat % 64 = (imm.extractLsb' 0 6).toNat := by simp
  simp only [shiOp, Spec.shifted, kind, amount]
  generalize imm.extractLsb' 6 2 = k
  obtain rfl | rfl | rfl | rfl : k = 0 ∨ k = 1 ∨ k = 2 ∨ k = 3 := by bv_omega
  all_goals rfl

/-- An immediate that a byte holds is its own sign extension. -/
theorem toNat_signExtend_of_byte {w : Nat} (v : BitVec w) (wide : 8 < w) (byte : v.toNat < 2 ^ 8) :
    (v.signExtend 64).toNat = v.toNat := by
  have positive : v.msb = false := by
    rw [BitVec.msb_eq_decide, decide_eq_false_iff_not, Nat.not_le]
    exact byte.trans_le (Nat.pow_le_pow_right (by decide) (by omega))
  rw [BitVec.signExtend_eq_setWidth_of_msb_false positive, BitVec.toNat_setWidth]
  omega

section
variable {i : Instr} {tl : BitVec 2} {sub : BitVec 3} {d a : BitVec 5} {imm : Word} {f : Word → Word → Word} {s : State}

theorem encode_of_immediate (row : Spec.immediate i = some (tl, sub, d, a, imm, f)) :
    ∃ tail, encode i = some { maj := 0x08, tl := tl, d := d, sub := sub, tail := tail } := by
  unfold Spec.immediate at row
  split at row <;> cases row
  all_goals exact ⟨_, rfl⟩

/-- A shift whose immediate, of whatever length, has a bit above bit 7 fails its field check. -/
theorem illForm_shift {w : Nat} {v : BitVec w} (wide : 8 < w)
    (check : illForm i = firstIll (decide (v.toNat < 256)) true true true) (above : 2 ^ 8 ≤ (v.signExtend 64).toNat) :
    illForm i = some .field := by
  have broken : ¬v.toNat < 256 := fun byte => by
    rw [toNat_signExtend_of_byte v wide byte] at above
    omega
  rw [check, decide_eq_false broken]
  rfl

theorem shift_illins (row : Spec.immediate i = some (tl, 6, d, a, imm, f)) (above : 2 ^ 8 ≤ imm.toNat) :
    exec i s = .next (takeTrap (illins i 3) s) := by
  unfold Spec.immediate at row
  split at row <;> cases row
  · exact exec_illins (e := .field) (illForm_shift (by decide) rfl above) (exec_shiI16 s _)
  · exact exec_illins (e := .field) (illForm_shift (by decide) rfl above) (exec_shiWi s _)
  · exact exec_illins (e := .field) (illForm_shift (by decide) rfl above) (exec_shiXi s _)

/-- The ends of the table's rows, in its order. -/
theorem returns_of_immediate (row : Spec.immediate i = some (tl, sub, d, a, imm, f)) (issues : Issues i s) :
    ∃ t, exec i s = .next t ∧ Returns s t d (f (s.getX a) imm) := by
  unfold Spec.immediate at row
  split at row <;> cases row
  exacts [
    exec_returns issues (exec_addiI16 s _) rfl rfl,
    exec_returns issues (exec_addiWi s _) rfl rfl,
    exec_returns issues (exec_addiXi s _) rfl rfl,
    exec_returns issues (exec_andiI16 s _) rfl rfl,
    exec_returns issues (exec_andiWi s _) rfl rfl,
    exec_returns issues (exec_andiXi s _) rfl rfl,
    exec_returns issues (exec_oriI16 s _) rfl rfl,
    exec_returns issues (exec_oriWi s _) rfl rfl,
    exec_returns issues (exec_oriXi s _) rfl rfl,
    exec_returns issues (exec_xoriI16 s _) rfl rfl,
    exec_returns issues (exec_xoriWi s _) rfl rfl,
    exec_returns issues (exec_xoriXi s _) rfl rfl,
    exec_returns issues (exec_sltiI16 s _) rfl (boolWord_slt _ _),
    exec_returns issues (exec_sltiWi s _) rfl (boolWord_slt _ _),
    exec_returns issues (exec_sltiXi s _) rfl (boolWord_slt _ _),
    exec_returns issues (exec_sltiuI16 s _) rfl (boolWord_ult _ _),
    exec_returns issues (exec_sltiuWi s _) rfl (boolWord_ult _ _),
    exec_returns issues (exec_sltiuXi s _) rfl (boolWord_ult _ _),
    exec_returns issues (exec_shiI16 s _) rfl (shiOp_eq _ _),
    exec_returns issues (exec_shiWi s _) rfl (shiOp_eq _ _),
    exec_returns issues (exec_shiXi s _) rfl (shiOp_eq _ _),
    exec_returns issues (exec_muliI16 s _) rfl rfl,
    exec_returns issues (exec_muliWi s _) rfl rfl,
    exec_returns issues (exec_muliXi s _) rfl rfl]

end

end Sys2Proof.Machine

/-! ### The statements -/

namespace Sys2Proof.Proofs

open Sys2Proof.Machine

/-- `Rule.AluResult`: the words, the fields and the ends of the table's rows. -/
theorem aluRule : Rule.AluResult :=
  ⟨fun _ _ _ _ _ _ row => ⟨encode_of_alu row, fields_of_alu row, returns_of_alu row⟩, fun _ t => decode_major05_unlisted t⟩

/-- `Rule.DivisionCases`: signed division is exact but for the one quotient that 64 bits do not hold. -/
theorem divisionCases : Rule.DivisionCases := by
  intro a
  refine ⟨rfl, rfl, rfl, rfl, by decide, by decide, fun b divisor inside => ⟨?_, ?_, ?_, ?_⟩⟩
  · rw [wDiv, if_neg divisor]
    apply BitVec.toInt_sdiv_of_ne_or_ne
    rw [BitVec.neg_one_eq_allOnes]
    exact Decidable.not_or_of_imp inside
  · rw [wRem, if_neg divisor, BitVec.toInt_srem]
  · rw [wDivu, if_neg divisor, BitVec.toNat_udiv]
  · rw [wRemu, if_neg divisor, BitVec.toNat_umod]

/-- Settles O10: every row of the table of R90, operation by operation, and the quotient rule at 64 bits. -/
theorem aluResult : Obligations.AluResult := ⟨aluRule, divisionCases⟩

/-- Settles O11: every row of the table of R91, and the check on the immediate of a shift. -/
theorem immediateResult : Obligations.ImmediateResult := by
  refine ⟨fun i tl sub d a imm f s row => ⟨encode_of_immediate row, ?_, returns_of_immediate row⟩,
    fun h t major short => (decodeMajor08_unlisted _ _ t short).imp fun _ => decode_error_of_map major⟩
  rintro rfl above
  exact shift_illins row above

end Sys2Proof.Proofs
end

section
/-! Addresses, constants and moves: the fat pointers of R92, the values of R93, QCVT from a reference and SELF (R180, R193), and the
statements O12 and O13 from them. -/

namespace Sys2Proof.Machine

/-! ### Fat pointers (R82, R92) -/

theorem addrOf_eq (p : Word) : addrOf p = (p.setWidth 56).toNat := by rw [addrOf, BitVec.toNat_setWidth]

theorem ofNat_addrOf (p : Word) : BitVec.ofNat 64 (addrOf p) = (p.setWidth 56).setWidth 64 := by
  rw [addrOf_eq, BitVec.ofNat_toNat]

/-- The top byte of a pointer beside an address. -/
theorem topByte_or_ofNat (p : Word) (a : BitVec 56) :
    (p &&& 0xFF00000000000000) ||| BitVec.ofNat 64 a.toNat = p.extractLsb' 56 8 ++ a := by
  have mask : (0xFF00000000000000 : Word) = BitVec.allOnes 64 <<< 56 := by decide
  have top : (p >>> 56 <<< 56).toNat = p.toNat >>> 56 <<< 56 := by
    simp only [BitVec.toNat_shiftLeft, BitVec.toNat_ushiftRight, Nat.shiftLeft_eq, Nat.shiftRight_eq_div_pow]
    omega
  have byte : p.toNat >>> 56 < 2 ^ 8 := by
    rw [Nat.shiftRight_eq_div_pow]
    omega
  apply BitVec.eq_of_toNat_eq
  rw [mask, ← BitVec.shiftLeft_ushiftRight, BitVec.toNat_or, top, BitVec.toNat_append, BitVec.extractLsb'_toNat,
    Nat.mod_eq_of_lt byte, BitVec.toNat_ofNat, Nat.mod_eq_of_lt (by omega)]

theorem fatPointer_inRange {n : Int} (p : Word) (low : 0 ≤ n) (high : n < 2 ^ 56) :
    fatPointer p n = .ok (p.extractLsb' 56 8 ++ BitVec.ofInt 56 n) := by
  have address : (BitVec.ofInt 56 n).toNat = n.toNat := by rw [BitVec.toNat_ofInt, Int.emod_eq_of_lt low (by simpa using high)]
  rw [fatPointer, if_pos ⟨low, high⟩, ← topByte_or_ofNat, address]

theorem fatPointer_outOfRange {n : Int} (p : Word) (out : n < 0 ∨ 2 ^ 56 ≤ n) :
    fatPointer p n = .error (.trap { cause := .addrovf }) := if_neg (by omega)

section
variable {i : Instr} {s : State} {tl : BitVec 2} {sub : BitVec 3} {d : BitVec 5} {p : Word} {n : Int}

theorem encode_of_address (row : Spec.address s i = some (tl, sub, d, p, n)) :
    ∃ tail, encode i = some { maj := 0x0C, tl := tl, d := d, sub := sub, tail := tail } := by
  unfold Spec.address at row
  split at row <;> cases row
  all_goals exact ⟨_, rfl⟩

/-- ADDA, ADDIA and SCALEA each move their pointer to the exact address. -/
theorem exec_of_address (row : Spec.address s i = some (tl, sub, d, p, n)) :
    ∃ body, exec i s = run i s body ∧ body s = retPointer s d p n := by
  unfold Spec.address at row
  split at row <;> cases row
  · exact ⟨_, exec_adda s _, by rw [addrOf_eq]⟩
  · exact ⟨_, exec_addiaWi s _, by rw [addrOf_eq]⟩
  · exact ⟨_, exec_addiaXi s _, by rw [addrOf_eq]⟩
  · exact ⟨_, exec_scalea s _, by rw [addrOf_eq, BitVec.extractLsb'_toNat]; rfl⟩

theorem address_inRange (row : Spec.address s i = some (tl, sub, d, p, n)) (issues : Issues i s) (low : 0 ≤ n) (high : n < 2 ^ 56) :
    ∃ t, exec i s = .next t ∧ Returns s t d (p.extractLsb' 56 8 ++ BitVec.ofInt 56 n) := by
  obtain ⟨body, runs, ends⟩ := exec_of_address row
  exact exec_returns issues runs (ends.trans (by rw [retPointer, fatPointer_inRange p low high])) rfl

theorem address_outOfRange (row : Spec.address s i = some (tl, sub, d, p, n)) (issues : Issues i s) (out : n < 0 ∨ 2 ^ 56 ≤ n) :
    exec i s = .next (takeTrap { cause := .addrovf } s) := by
  obtain ⟨body, runs, ends⟩ := exec_of_address row
  exact exec_traps issues runs (ends.trans (by rw [retPointer, fatPointer_outOfRange p out]))

end

/-! ### Parts of a pointer (R92) -/

/-- GFMT: the top byte. -/
theorem ushiftRight_56_eq (p : Word) : p >>> 56 = (p.extractLsb' 56 8).setWidth 64 := by
  apply BitVec.eq_of_toNat_eq
  simp only [BitVec.toNat_ushiftRight, BitVec.toNat_setWidth, BitVec.extractLsb'_toNat, Nat.shiftRight_eq_div_pow]
  omega

section
variable {i : Instr} {s : State} {sub : BitVec 3} {o : LH} {v : Word}

theorem encode_of_pointerPart (row : Spec.pointerPart s i = some (sub, o, v)) : encode i = some (Spec.wordH 0x0C sub o) := by
  unfold Spec.pointerPart at row
  split at row <;> cases row
  all_goals rfl

theorem returns_of_pointerPart (row : Spec.pointerPart s i = some (sub, o, v)) (issues : Issues i s) :
    ∃ t, exec i s = .next t ∧ Returns s t o.d v := by
  unfold Spec.pointerPart at row
  split at row <;> cases row
  · exact exec_returns issues (exec_gfmt s _) rfl (ushiftRight_56_eq _)
  · exact exec_returns issues (exec_clrfmt s _) rfl (ofNat_addrOf _)
  · exact exec_returns issues (exec_suba s _) rfl (by rw [ofNat_addrOf, ofNat_addrOf])

end

/-- The format code of PFMT stands in imm16[7:3]. -/
theorem formatCode_eq_31_iff (v : BitVec 16) : bitsOf v.toNat 3 5 = 31 ↔ v.extractLsb' 3 5 = 31 := by
  rw [bitsOf_eq_extractLsb', ← BitVec.toNat_inj]
  rfl

/-- A new top byte above the address of a pointer. -/
theorem ofNat_topByte_add_addrOf (v : BitVec 16) (p : Word) :
    BitVec.ofNat 64 (v.toNat % 256 * 2 ^ 56 + addrOf p) = v.extractLsb' 0 8 ++ p.setWidth 56 := by
  apply BitVec.eq_of_toNat_eq
  rw [addrOf_eq, BitVec.toNat_append, ← Nat.shiftLeft_add_eq_or_of_lt (p.setWidth 56).isLt, Nat.shiftLeft_eq, BitVec.toNat_ofNat,
    Nat.mod_eq_of_lt (by omega), BitVec.extractLsb'_toNat]
  rfl

theorem pfmt_returns {o : LI16} {s : State} (issues : Issues (.pfmt o) s) (format : o.imm.extractLsb' 3 5 ≠ 31) :
    ∃ t, exec (.pfmt o) s = .next t ∧ Returns s t o.d (o.imm.extractLsb' 0 8 ++ (s.getX o.d).setWidth 56) :=
  exec_returns issues (exec_pfmt s o) (if_neg (mt (formatCode_eq_31_iff o.imm).1 format)) (ofNat_topByte_add_addrOf _ _)

theorem pfmt_fmtbad {o : LI16} {s : State} (issues : Issues (.pfmt o) s) (code : o.imm.extractLsb' 3 5 = 31) :
    exec (.pfmt o) s = .next (takeTrap (fmtbad (.pfmt o) 31 3) s) :=
  exec_traps issues (exec_pfmt s o) (if_pos ((formatCode_eq_31_iff o.imm).2 code))

/-! ### Constants and moves (R79, R93), SELF (R193) -/

section
variable {i : Instr} {s : State} {tl : BitVec 2} {sub : BitVec 3} {d : BitVec 5} {v : Word}

theorem encode_of_moved (row : Spec.moved s i = some (tl, sub, d, v)) :
    ∃ tail, encode i = some { maj := 0x0E, tl := tl, d := d, sub := sub, tail := tail } := by
  unfold Spec.moved at row
  split at row <;> cases row
  all_goals exact ⟨_, rfl⟩

theorem returns_of_moved (row : Spec.moved s i = some (tl, sub, d, v)) (issues : Issues i s) :
    ∃ t, exec i s = .next t ∧ Returns s t d v := by
  unfold Spec.moved at row
  split at row <;> cases row
  · exact exec_returns issues (exec_liI16 s _) rfl rfl
  · exact exec_returns issues (exec_liI32 s _) rfl rfl
  · exact exec_returns issues (exec_liL64 s _) rfl rfl
  · exact exec_returns issues (exec_lpc s _) rfl (targetLine_eq_target _ _ _)
  · exact exec_returns issues (exec_mov s _) rfl rfl

end

/-- The size code of a gang of n cores: log2 of n, rounded down, at most 4. -/
theorem log2Fuel_four (n : Nat) :
    log2Fuel 4 n = if n < 2 then 0 else if n < 4 then 1 else if n < 8 then 2 else if n < 16 then 3 else 4 := by
  simp only [log2Fuel]
  split_ifs <;> omega

theorem selfWord_eq (s : State) : BitVec.ofNat 64 (gangCode s.me * 2 ^ 20 + b2n (s.curCtx == .a) * 2 ^ 19
    + clsCode (s.cls s.cur) * 2 ^ 16 + s.cur % 2 ^ 16) = Spec.selfWord s := by
  have context : b2n (s.curCtx == .a) * 2 ^ 19 = if s.curCtx = .a then 2 ^ 19 else 0 := by cases s.curCtx <;> rfl
  rw [Spec.selfWord, gangCode, context]
  refine congrArg (BitVec.ofNat 64) ?_
  cases s.me.gang with
  | none => ring
  | leader n => simp only [log2Fuel_four]; ring
  | follower n => ring

end Sys2Proof.Machine

/-! ### The statements -/

namespace Sys2Proof.Proofs

open Sys2Proof.Machine

/-- Settles O12: the range of the exact address, the parts of a pointer, and the format code of PFMT. -/
theorem addressResult : Obligations.AddressResult := by
  refine ⟨fun s i tl sub d p n row => ⟨encode_of_address row, fun issues => ⟨?_, address_outOfRange row issues⟩⟩,
    fun s i sub o v row => ⟨encode_of_pointerPart row, returns_of_pointerPart row⟩,
    fun s o => ⟨rfl, fun issues => ⟨pfmt_returns issues, pfmt_fmtbad issues⟩⟩,
    fun h t major free => (decodeMajor0C_unlisted _ t free).imp fun _ => decode_error_of_map major⟩
  rintro ⟨low, high⟩
  exact address_inRange row issues low high

/-- Settles O13: the rows of R93, the heads of major 0E that are none of them, QCVT from a reference, and the word of SELF. -/
theorem moveResult : Obligations.MoveResult :=
  ⟨fun _ _ _ _ _ _ row => ⟨encode_of_moved row, returns_of_moved row⟩,
    fun _ t major free => (decodeMajor0E_unlisted _ t free).imp fun _ => decode_error_of_map major,
    fun s o => ⟨fun issues => exec_returns issues (exec_qcvtFromRef s o) rfl rfl,
      fun issues => exec_returns issues (exec_self s o) rfl (selfWord_eq s)⟩⟩

end Sys2Proof.Proofs
end

section
/-! Branches: the conditions of the compare branches, and what a mask branch meets before it branches (R99, R381), and the statement O15
from them. -/

namespace Sys2Proof.Machine

/-! ### Compare branches (R99) -/

section
variable {i : Instr} {s : State} {sub : BitVec 3} {o : LB} {taken : Prop}

theorem encode_of_branch (row : Spec.branch s i = some (sub, o, taken)) : encode i = some (Spec.wordB sub o) := by
  unfold Spec.branch at row
  split at row <;> cases row
  all_goals rfl

theorem moves_of_branch (row : Spec.branch s i = some (sub, o, taken)) (issues : Issues i s) :
    ∃ t, exec i s = .next t ∧ (taken → MovesTo s t (targetLine s.cx.pcNat o.imm.toInt o.t.toNat)) ∧
      (¬taken → MovesTo s t s.cx.nextPc) := by
  unfold Spec.branch at row
  split at row <;> cases row
  · exact branch_moves issues (exec_beq s _) rfl beq_iff_eq
  · exact branch_moves issues (exec_bne s _) rfl bne_iff_ne
  · exact branch_moves issues (exec_blt s _) rfl BitVec.slt_iff_toInt_lt
  · exact branch_moves issues (exec_bge s _) rfl (by simp [BitVec.slt_eq_decide])
  · exact branch_moves issues (exec_bltu s _) rfl BitVec.ult_iff_toNat_lt
  · exact branch_moves issues (exec_bgeu s _) rfl (by simp [BitVec.ult])

end

/-! ### The bits of a mask (R381) -/

theorem maskPoison_eq_find? (k : Core) (d : BitVec 5) (n : Nat) :
    k.maskPoison d n = (upTo n).find? (fun j => k.elemPoisoned (mReg d, 1, j)) := by
  rw [Core.maskPoison]
  split
  case isTrue empty =>
    have clean (r : RegName × Nat × Nat) : k.elemPoisoned r = false := by simp [Core.elemPoisoned, List.isEmpty_iff.1 empty]
    exact (List.find?_eq_none.2 fun j _ => by simp [clean]).symm
  case isFalse => rfl

theorem maskPoison_eq_some {k : Core} {d : BitVec 5} {n j : Nat} (below : j < n) (poisoned : k.elemPoisoned (mReg d, 1, j) = true)
    (lowest : ∀ h, h < j → k.elemPoisoned (mReg d, 1, h) = false) : k.maskPoison d n = some j := by
  rw [maskPoison_eq_find?, upTo, List.find?_range'_eq_some]
  simpa [below, poisoned] using lowest

theorem maskPoison_eq_none {k : Core} {d : BitVec 5} {n : Nat} (clean : ∀ j, j < n → k.elemPoisoned (mReg d, 1, j) = false) :
    k.maskPoison d n = none := by
  rw [maskPoison_eq_find?, upTo, List.find?_range'_eq_none]
  simpa using clean

theorem anyBit_iff (k : Core) (d n : Nat) : anyBit k d n = true ↔ ∃ j, j < n ∧ k.mBit d j = true := by
  simp [anyBit, upTo]

/-! ### Mask branches (R74, R99) -/

/-- R17, R224: the masks hold values for the issuing context. -/
theorem vectorAllowed_ok {s : State} (i : Instr) (live : s.curCtx = .u ∨ (s.me.uHolds = true ∧ vtEw s.me.u.vtype ≠ 0)) :
    vectorAllowed i true s = .ok () := by
  obtain user | ⟨holds, width⟩ := live
  · simp [vectorAllowed, user]
  · simp [vectorAllowed, holds, width]

/-- R324: FMTBAD with the element format of VTYPE. -/
theorem fmtbad_vtype (i : Instr) (t : BitVec 16) :
    fmtbad i (vtEf t) 1 = { cause := .fmtbad, sinfo := (headOf i).toNat + (t.extractLsb' 0 5).toNat * 2 ^ 16 + 2 ^ 21 } := by
  have code : vtEf t % 32 = (t.extractLsb' 0 5).toNat := by
    rw [vtEf, bitsOf_eq_extractLsb']
    exact Nat.mod_eq_of_lt (BitVec.isLt _)
  rw [fmtbad, code, Nat.one_mul]

section
variable {i : Instr} {o : LB} {s : State} {sense : Bool} (allowed : vectorAllowed i true s = .ok ())
include allowed

theorem maskBranch_width0 (width : vtEw s.vtype = 0) : maskBranch i o sense s = .error (.trap (fmtbad i (vtEf s.vtype) 1)) := by
  simp [maskBranch, allowed, ewLive, width, bind, Except.bind]

theorem maskBranch_queued (width : vtEw s.vtype ≠ 0) (queued : s.me.maskQueued o.d.toNat = true) :
    maskBranch i o sense s = .error .stall := by
  simp [maskBranch, allowed, ewLive, width, queued, bind, Except.bind]

theorem maskBranch_poisoned {j : Nat} (width : vtEw s.vtype ≠ 0) (free : s.me.maskQueued o.d.toNat = false)
    (poison : s.me.maskPoison o.d (s.vlOf o.b) = some j) : maskBranch i o sense s = .error (poisonQfault j) := by
  simp [maskBranch, allowed, ewLive, width, free, poison, bind, Except.bind]

theorem maskBranch_clean (width : vtEw s.vtype ≠ 0) (free : s.me.maskQueued o.d.toNat = false)
    (clean : s.me.maskPoison o.d (s.vlOf o.b) = none) :
    maskBranch i o sense s = branch o (anyBit s.me o.d.toNat (s.vlOf o.b) == sense) s := by
  simp [maskBranch, allowed, ewLive, width, free, clean, bind, Except.bind]

end

/-- BMS and BMC differ in the sense of the branch alone. -/
theorem exec_maskBranch {i : Instr} {o : LB} (s : State) {sense : Prop} (form : i = .bms o ∧ sense ∨ i = .bmc o ∧ ¬sense) :
    ∃ set : Bool, (set = true ↔ sense) ∧ exec i s = run i s (maskBranch i o set) ∧ illForm i = ckB .m .x o := by
  obtain ⟨rfl, holds⟩ | ⟨rfl, fails⟩ := form
  · exact ⟨true, by simp [holds], exec_bms s o, rfl⟩
  · exact ⟨false, by simp [fails], exec_bmc s o, rfl⟩

/-- The masks are m0 to m11. -/
theorem ckB_mask_eq_register {o : LB} (above : 11 < o.d.toNat) : ckB .m .x o = some .register := by
  have out : ¬o.d.toNat < 12 := by omega
  simp [ckB, rangeOk, firstIll, out]

end Sys2Proof.Machine

/-! ### The statement -/

namespace Sys2Proof.Proofs

open Sys2Proof.Machine

/-- `Rule.BranchResult`: the words of major 11, and each compare branch by its condition. -/
theorem branchRule : Rule.BranchResult :=
  ⟨fun _ => ⟨rfl, rfl⟩, fun _ _ _ _ _ row => ⟨encode_of_branch row, moves_of_branch row⟩⟩

/-- `Rule.MaskBranchResult`: what a mask branch meets, in the order in which it meets it. -/
theorem maskBranchRule : Rule.MaskBranchResult := by
  intro o s i sense form
  obtain ⟨set, senses, runs, check⟩ := exec_maskBranch s form
  refine ⟨fun above => exec_illins (e := .register) (check.trans (ckB_mask_eq_register above)) runs, fun issues live => ?_⟩
  have allowed := vectorAllowed_ok i live
  refine ⟨fun width => ?_, fun width queued => ?_, fun width free j below poisoned lowest => ?_, fun width free clean => ?_⟩
  · exact (exec_traps issues runs (maskBranch_width0 allowed width)).trans (by rw [fmtbad_vtype]; rfl)
  · exact runs.trans (run_error issues (maskBranch_queued allowed width queued))
  · exact exec_traps issues runs (maskBranch_poisoned allowed width free (maskPoison_eq_some below poisoned lowest))
  · refine branch_moves issues runs (maskBranch_clean allowed width free (maskPoison_eq_none clean)) ?_
    rw [beq_iff_eq, Bool.eq_iff_iff, anyBit_iff, senses]

/-- Settles O15: the compare branches by their conditions, the mask branches by what they meet. -/
theorem branchResult : Obligations.BranchResult := ⟨branchRule, maskBranchRule⟩

end Sys2Proof.Proofs
end

section
/-! Encoding and then decoding gives the instruction back (R69, R72, R80, R81): each layout unpacks what it has packed, each row of the encoder
is a row of the opcode map, and the statement O1 from them. -/

namespace Sys2Proof

/-! ### Layouts (R72): the fields of what a layout packs

A field of side-by-side fields is cut out of the one in which it lies. The widths stay sums on the way (`-Nat.reduceAdd`), as the lemma
about two fields takes them. -/

theorem unpackH_packH (o : LH) : unpackH o.d ((packH o).setWidth 64) = o := by
  simp [unpackH, packH, BitVec.extractLsb'_setWidth_of_le, BitVec.extractLsb'_append_eq_ite, -Nat.reduceAdd]

theorem unpackI16_imm (o : LI16) : unpackI16 o.d (o.imm.setWidth 64) = o := by
  simp [unpackI16, BitVec.extractLsb'_setWidth_of_le]

theorem unpackI32_imm (o : LI32) : unpackI32 o.d (o.imm.setWidth 64) = o := by
  simp [unpackI32, BitVec.extractLsb'_setWidth_of_le]

theorem unpackW_packW (o : LW) : unpackW o.d ((packW o).setWidth 64) = o := by
  simp [unpackW, packW, BitVec.extractLsb'_setWidth_of_le, BitVec.extractLsb'_append_eq_ite, -Nat.reduceAdd]

theorem unpackWI_packWI (o : LWI) : unpackWI o.d ((packWI o).setWidth 64) = o := by
  simp [unpackWI, packWI, BitVec.extractLsb'_setWidth_of_le, BitVec.extractLsb'_append_eq_ite, -Nat.reduceAdd]

theorem unpackM_packM (o : LM) : unpackM o.d ((packM o).setWidth 64) = o := by
  simp [unpackM, packM, BitVec.extractLsb'_setWidth_of_le, BitVec.extractLsb'_append_eq_ite, -Nat.reduceAdd]

theorem unpackB_packB (o : LB) : unpackB o.d ((packB o).setWidth 64) = o := by
  simp [unpackB, packB, BitVec.extractLsb'_setWidth_of_le, BitVec.extractLsb'_append_eq_ite, -Nat.reduceAdd]

theorem unpackV_packV (o : LV) : unpackV o.d ((packV o).setWidth 64) = o := by
  simp [unpackV, packV, BitVec.extractLsb'_setWidth_of_le, BitVec.extractLsb'_append_eq_ite, -Nat.reduceAdd]

theorem unpackXI_packXI (o : LXI) : unpackXI o.d (packXI o) = o := by
  simp [unpackXI, packXI, BitVec.extractLsb'_append_eq_ite, -Nat.reduceAdd]

theorem unpackX_packX (o : LX) : unpackX o.d (packX o) = o := by
  simp [unpackX, packX, BitVec.extractLsb'_append_eq_ite, -Nat.reduceAdd]

/-! ### The opcode map (R81): the words of an instruction lead to it -/

/-- The opcode map gives i for the fields and the tail of these words. -/
def LeadsTo (e : Enc) (i : Instr) : Prop := decodeMap e.maj.toNat e.d e.tl.toNat e.sub.toNat e.tail = .ok i

section
variable {maj : BitVec 6} {sub : BitVec 3}

/-- A row of the map names the layout and the instruction. -/
theorem leadsTo_e0 {i : Instr} (row : decodeMap maj.toNat 0 0 sub.toNat 0 = k0 0 0 i) : LeadsTo (e0 maj sub) i := row

theorem leadsTo_eN {k : LN → Instr} {o : LN} (row : ∀ d t, decodeMap maj.toNat d 0 sub.toNat t = kN 0 d t k) : LeadsTo (eN maj sub o) (k o) :=
  row _ _

theorem leadsTo_eH {k : LH → Instr} {o : LH} (row : ∀ d t, decodeMap maj.toNat d 1 sub.toNat t = kH 1 d t k) : LeadsTo (eH maj sub o) (k o) :=
  (row _ _).trans (congrArg (fun p => Except.ok (k p)) (unpackH_packH o))

theorem leadsTo_eI16 {k : LI16 → Instr} {o : LI16} (row : ∀ d t, decodeMap maj.toNat d 1 sub.toNat t = kI16 1 d t k) :
    LeadsTo (eI16 maj sub o) (k o) :=
  (row _ _).trans (congrArg (fun p => Except.ok (k p)) (unpackI16_imm o))

theorem leadsTo_eI32 {k : LI32 → Instr} {o : LI32} (row : ∀ d t, decodeMap maj.toNat d 2 sub.toNat t = kI32 2 d t k) :
    LeadsTo (eI32 maj sub o) (k o) :=
  (row _ _).trans (congrArg (fun p => Except.ok (k p)) (unpackI32_imm o))

theorem leadsTo_eW {k : LW → Instr} {o : LW} (row : ∀ d t, decodeMap maj.toNat d 2 sub.toNat t = kW 2 d t k) : LeadsTo (eW maj sub o) (k o) :=
  (row _ _).trans (congrArg (fun p => Except.ok (k p)) (unpackW_packW o))

theorem leadsTo_eWI {k : LWI → Instr} {o : LWI} (row : ∀ d t, decodeMap maj.toNat d 2 sub.toNat t = kWI 2 d t k) :
    LeadsTo (eWI maj sub o) (k o) :=
  (row _ _).trans (congrArg (fun p => Except.ok (k p)) (unpackWI_packWI o))

theorem leadsTo_eM {k : LM → Instr} {o : LM} (row : ∀ d t, decodeMap maj.toNat d 2 sub.toNat t = kM 2 d t k) : LeadsTo (eM maj sub o) (k o) :=
  (row _ _).trans (congrArg (fun p => Except.ok (k p)) (unpackM_packM o))

theorem leadsTo_eB {k : LB → Instr} {o : LB} (row : ∀ d t, decodeMap maj.toNat d 2 sub.toNat t = kB 2 d t k) : LeadsTo (eB maj sub o) (k o) :=
  (row _ _).trans (congrArg (fun p => Except.ok (k p)) (unpackB_packB o))

theorem leadsTo_eV {k : LV → Instr} {o : LV} (row : ∀ d t, decodeMap maj.toNat d 2 sub.toNat t = kV 2 d t k) : LeadsTo (eV maj sub o) (k o) :=
  (row _ _).trans (congrArg (fun p => Except.ok (k p)) (unpackV_packV o))

theorem leadsTo_eXI {k : LXI → Instr} {o : LXI} (row : ∀ d t, decodeMap maj.toNat d 3 sub.toNat t = kXI 3 d t k) :
    LeadsTo (eXI maj sub o) (k o) :=
  (row _ _).trans (congrArg (fun p => Except.ok (k p)) (unpackXI_packXI o))

theorem leadsTo_e64 {k : L64 → Instr} {o : L64} (row : ∀ d t, decodeMap maj.toNat d 3 sub.toNat t = k64 3 d t k) :
    LeadsTo (e64 maj sub o) (k o) :=
  row _ _

theorem leadsTo_eX {k : LX → Instr} {o : LX} (row : ∀ d t, decodeMap maj.toNat d 3 sub.toNat t = kX 3 d t k) : LeadsTo (eX maj sub o) (k o) :=
  (row _ _).trans (congrArg (fun p => Except.ok (k p)) (unpackX_packX o))

end

/-- R180: the two directions of QCVT share their row, and bit 0 of F, which the encoding checks fix, tells them apart. -/
def qcvtOf (o : LH) : Instr := if o.f.toNat % 2 = 1 then .qcvtFromRef o else .qcvtToRef o

theorem qcvtOf_toRef {o : LH} (f : o.f = 0) : qcvtOf o = .qcvtToRef o := by simp [qcvtOf, f]

theorem qcvtOf_fromRef {o : LH} (f : o.f = 1) : qcvtOf o = .qcvtFromRef o := by simp [qcvtOf, f]

theorem leadsTo_qcvt (o : LH) : LeadsTo (eH 0x36 7 o) (qcvtOf o) := leadsTo_eH fun _ _ => rfl

/-- The checks of R80 on a form whose fields other than registers must hold a value include that value. -/
theorem ckH_field {d a b : Machine.Use} {fOk : Bool} {o : LH} (passes : Machine.ckH d a b fOk o = none) : fOk = true := by
  cases fOk with
  | true => rfl
  | false => simp [Machine.ckH, Machine.firstIll] at passes

/-- R81: each instruction with words stands in the row of the opcode map that its words name. -/
theorem leadsTo_of_encode {i : Instr} {e : Enc} (wf : i.WellFormed) (words : encode i = some e) : LeadsTo e i := by
  cases i
  case nop | psync | qsync | ungang | mwait | yield | hend =>
    obtain rfl := Option.some.inj words
    exact leadsTo_e0 rfl
  case mdrop | sret =>
    obtain rfl := Option.some.inj words
    exact leadsTo_eN fun _ _ => rfl
  case brk | addiI16 | andiI16 | oriI16 | xoriI16 | sltiI16 | sltiuI16 | shiI16 | muliI16 | pfmt | liI16 | csrr | csrw | csrs | csrc | csrx | fence |
      vsett | slip | bar | opreq =>
    obtain rfl := Option.some.inj words
    exact leadsTo_eI16 fun _ _ => rfl
  case liI32 =>
    obtain rfl := Option.some.inj words
    exact leadsTo_eI32 fun _ _ => rfl
  case fma | amo | cas =>
    obtain rfl := Option.some.inj words
    exact leadsTo_eW fun _ _ => rfl
  case addiWi | andiWi | oriWi | xoriWi | sltiWi | sltiuWi | shiWi | muliWi | addiaWi | lpc | j | jal =>
    obtain rfl := Option.some.inj words
    exact leadsTo_eWI fun _ _ => rfl
  case ldb | ldbu | ldh | ldhu | ldw | ldwu | ldd | ldaq | stb | sth | stw | std | strl | strlw | ldaqw | mstd | pflush | clwb | ldref | stref |
      ldf | stf =>
    obtain rfl := Option.some.inj words
    exact leadsTo_eM fun _ _ => rfl
  case beq | bne | blt | bge | bltu | bgeu | bms | bmc =>
    obtain rfl := Option.some.inj words
    exact leadsTo_eB fun _ _ => rfl
  case vadd | vsub | vand | vor | vxor | vsll | vsrl | vsra | vmul | vmulh | vmin | vmax | vsadd | vssub | vcmp | vmerge | vfadd | vfsub | vfmul |
      vfdiv | vfmin | vfmax | vfcmp | vfsqrt | vredsum | vfredsum | vredmax | vfredmax | vslide | vperm | vcompress | vexpand | vmovx | vins |
      vsplat | viota | vmov =>
    obtain rfl := Option.some.inj words
    exact leadsTo_eV fun _ _ => rfl
  case addiXi | andiXi | oriXi | xoriXi | sltiXi | sltiuXi | shiXi | muliXi | addiaXi =>
    obtain rfl := Option.some.inj words
    exact leadsTo_eXI fun _ _ => rfl
  case liL64 =>
    obtain rfl := Option.some.inj words
    exact leadsTo_e64 fun _ _ => rfl
  case acopy | acopy2d | agather | acoll | glaze | wbind | wread | acancel | vfma | vfnma | vfcvt | vfclass | vfscale | vfsgn | vld | vldx | vst |
      vstx | vlds | vsts | mld | mst | vldl | vstl | ranka | ranks | mopak | mzero | mrd | mwr | mrowacc | msta | mlda | spawn =>
    obtain rfl := Option.some.inj words
    exact leadsTo_eX fun _ _ => rfl
  case qcvtToRef o =>
    obtain rfl := Option.some.inj words
    exact qcvtOf_toRef (eq_of_beq (ckH_field wf)) ▸ leadsTo_qcvt o
  case qcvtFromRef o =>
    obtain rfl := Option.some.inj words
    exact qcvtOf_fromRef (eq_of_beq (ckH_field wf)) ▸ leadsTo_qcvt o
  case add | sub | and | or | xor | andn | orn | xnor | sll | srl | sra | rol | ror | slt | sltu | seq | min | max | minu | maxu | mul | mulh | mulhu |
      mulhsu | div | divu | rem | remu | clz | ctz | popc | bswap | sext | zext | addw | subw | mulw | cmovz | cmovnz | adda | scalea | gfmt | clrfmt |
      suba | mov | jalr | fadd | fsub | fmul | fdiv | fsqrt | fmin | fmax | fcmp | fcvt | fclass | setvl | vsettx | gang | mand | mor | mxor | mandn |
      mnot | mpop | mfirst | msbf | mstat | pin | unpin | qmov | refeq | join | exit | migrate | crewinfo | self | msend | msenda | enqt | tdone |
      grun | cbinv | sysc | wait | xinv | preempt | ctxstream =>
    obtain rfl := Option.some.inj words
    exact leadsTo_eH fun _ _ => rfl
  all_goals exact nomatch words

/-! ### The head (R69) -/

section
variable (e : Enc)

theorem extractLsb'_head_maj : e.head.extractLsb' 10 6 = e.maj := by
  simp [Enc.head, BitVec.extractLsb'_append_eq_ite, -Nat.reduceAdd]

theorem extractLsb'_head_tl : e.head.extractLsb' 8 2 = e.tl := by
  simp [Enc.head, BitVec.extractLsb'_append_eq_ite, -Nat.reduceAdd]

theorem extractLsb'_head_d : e.head.extractLsb' 3 5 = e.d := by
  simp [Enc.head, BitVec.extractLsb'_append_eq_ite, -Nat.reduceAdd]

theorem extractLsb'_head_sub : e.head.extractLsb' 0 3 = e.sub := BitVec.extractLsb'_append_eq_right

end

end Sys2Proof

/-! ### The statement -/

namespace Sys2Proof.Proofs

/-- Settles O1: each row of the encoder is a row of the opcode map, which a well-formed instruction passes. -/
theorem decodeOfEncode : Obligations.DecodeOfEncode := by
  intro i e wf words
  have row : LeadsTo e i := leadsTo_of_encode wf words
  rw [LeadsTo] at row
  simp only [decode, extractLsb'_head_maj, extractLsb'_head_tl, extractLsb'_head_d, extractLsb'_head_sub, row, wf]

end Sys2Proof.Proofs
end

section
/-! Steps: an event or an instruction on the agenda comes about, nothing is refused, a stopped module stays stopped, and the common checks in
their order; the words of the manual's examples, and resets. The statements O3, O4, O5, O7, O8, O9 and O53. -/

namespace Sys2Proof.Machine

/-! ### No refusal -/

/-- An outcome is no refusal. -/
def Meant (o : Host.Outcome State Fault Refusal) : Prop := ∀ r, o ≠ .refused r

theorem meant_next (s : State) : Meant (.next s) := fun r => next_ne_refused s r

theorem meant_exec (i : Instr) (s : State) : Meant (exec i s) := exec_not_refused i s

theorem meant_ite {b : Bool} {x y : Host.Outcome State Fault Refusal} (hx : Meant x) (hy : Meant y) : Meant (if b then x else y) := by
  cases b
  · exact hy
  · exact hx

/-- The next state of an outcome goes on to a further outcome; any other outcome stands. -/
theorem meant_bind {o : Host.Outcome State Fault Refusal} {f : State → Host.Outcome State Fault Refusal} :
    Meant o → (∀ s, Meant (f s)) → Meant (match o with | .next s => f s | p => p) := by
  intro ho hf
  cases o with
  | next s => exact hf s
  | fault e => exact ho
  | refused r => exact ho

theorem meant_mapNext {f : State → State} {o : Host.Outcome State Fault Refusal} (h : Meant o) : Meant (mapNext f o) := by
  cases o with
  | next s => exact meant_next _
  | fault e => exact nofun
  | refused r => exact absurd rfl (h r)

theorem meant_fetchStop (s : State) (e : Stop) : Meant (fetchStop s e) := by
  have ends : Meant (finish s e) := finish_not_refused s e
  cases e with
  | trap | trapIn => exact meant_ite (meant_next _) ends
  | stall | stallIn | parkHost | fault => exact ends

theorem meant_issueNow (s : State) : Meant (issueNow s).1 := by
  unfold issueNow
  split
  case h_1 e _ => exact meant_fetchStop s e
  case h_2 s1 _ =>
    split
    case h_1 => exact meant_next _
    case h_2 i _ =>
      have effect : Meant (exec i s1) := meant_exec i s1
      split
      case h_1 => exact meant_next _
      case h_2 => exact effect

theorem meant_issueAt (c : Nat) (n : CtxName) (s : State) : Meant (issueAt c n s).1 := meant_issueNow _

/-- R213: whichever context issues, and whichever wait is met first. -/
theorem meant_coreIssue (c : Nat) (s : State) : Meant (coreIssue c s) := by
  have a : ∀ s, Meant (issueAt c .a s).1 := meant_issueAt c .a
  have u : ∀ s, Meant (issueAt c .u s).1 := meant_issueAt c .u
  refine meant_ite (meant_ite (u s) (meant_next s)) (meant_ite (a s) (meant_ite (meant_ite ?_ ?_) ?_))
  · exact meant_bind (u s) a
  · split
    · exact u s
    · exact meant_mapNext (a s)
  · exact meant_bind (a s) u

theorem meant_defaultTurn (s : State) : Meant (defaultTurn s) := by
  refine meant_ite (meant_next _) (meant_ite (meant_next _) ?_)
  cases s.nextCore with
  | none => exact meant_next _
  | some c => exact meant_mapNext (meant_coreIssue c _)

theorem meant_agendaTurn (t : Turn) (s : State) : Meant (agendaTurn t s) := by
  cases t with
  | issue c n =>
    refine meant_ite (meant_next _) ?_
    cases n with
    | a => exact meant_coreIssue c _
    | u => exact meant_ite (meant_issueAt c .u _) (meant_next _)
  | entry | piece => exact meant_next _
  | event i =>
    simp only [agendaTurn]
    cases encode i with
    | none => exact meant_exec i s
    | some e => exact meant_next _

theorem meant_step (s : State) : Meant (step s) := by
  unfold step
  split
  · exact meant_defaultTurn _
  · exact meant_agendaTurn _ _

/-! ### A stopped module (R378) -/

/-- Without an event, a turn of a module that has stopped changes nothing. -/
theorem agendaTurn_stopped {t : Turn} {s : State} (stopped : s.mgmt.stopped = true) (inside : ∀ i, t ≠ .event i) :
    agendaTurn t s = .next s := by
  cases t with
  | issue c n => simp [agendaTurn, stopped]
  | entry c i => simp [agendaTurn, stopped]
  | piece id => simp [agendaTurn, stopped]
  | event i => exact absurd rfl (inside i)

theorem defaultTurn_stopped {s : State} (ready : s.mgmt.ready = true) (stopped : s.mgmt.stopped = true) : defaultTurn s = .next s := by
  simp [defaultTurn, ready, stopped]

/-- A step of a stopped module takes its turn off the agenda, and the clock advances. -/
theorem step_halted {s : State} (halted : s.halted) : step s = .next { s.tick with agenda := s.agenda.tail } := by
  obtain ⟨ready, stopped, inside⟩ := halted
  unfold step
  split
  case h_1 empty =>
    rw [empty]
    exact (defaultTurn_stopped (s := s.tick) ready stopped).trans (by rw [List.tail_nil, ← empty]; rfl)
  case h_2 t rest turns =>
    have first : ∀ i, t ≠ .event i := inside t (by simp [turns])
    rw [turns]
    exact agendaTurn_stopped (s := { s.tick with agenda := rest }) stopped first

/-! ### Turns (R213, R214) -/

/-- The turn of a context of a core that runs. -/
theorem agendaTurn_issue {s : State} {c : Nat} {n : CtxName} (ready : s.mgmt.ready = true) (going : s.mgmt.stopped = false)
    (runs : s.coreRuns c = true) : agendaTurn (.issue c n) s = match n with
      | .a => coreIssue c ((s.noteWork c).tickCore c)
      | .u => if s.ctxWorks c .u then (issueAt c .u ((s.noteWork c).tickCore c)).1 else .next s := by
  unfold agendaTurn
  simp only [ready, going, runs]
  rfl

theorem step_of_agenda {s : State} {t : Turn} {rest : List Turn} (turn : s.agenda = t :: rest) :
    step s = agendaTurn t { s.tick with agenda := rest } := by
  rw [step, turn]

/-- A context whose line is fetched and whose slot decodes issues that instruction. -/
theorem issueNow_decoded {s s1 : State} {i : Instr} (fetched : s.fetch = .ok s1) (decoded : s1.slotInstr = .ok i) :
    (issueNow s).1 = mapNext (afterIssue i s1) (exec i s1) := by
  simp only [issueNow, fetched, decoded]
  cases h : exec i s1 <;> rfl

theorem coreIssue_u {s : State} {c : Nat} (idle : s.ctxWorks c .a = false) (works : s.ctxWorks c .u = true) :
    coreIssue c s = (issueAt c .u s).1 := by
  simp [coreIssue, idle, works]

theorem coreIssue_a {s : State} {c : Nat} (works : s.ctxWorks c .a = true) (idle : s.ctxWorks c .u = false) :
    coreIssue c s = (issueAt c .a s).1 := by
  simp [coreIssue, idle, works]

/-! ### Resets (R21 to R24, R388, R389) -/

/-- R21 to R24: the CSRs of a core and a context as they are after power-on. -/
theorem csr_of_reset {r : State} {n : Nat} (core : r.me = Core.reset) (cx : r.cx = Ctx.reset) (time : r.time = 0) (tiles : r.tiles = [])
    (spaces : r.spaces = []) (listed : n ≤ 0x010 ∨ (0x100 ≤ n ∧ n ≤ 0x107) ∨ (0x110 ≤ n ∧ n ≤ 0x122)) :
    r.csr n = Spec.csrReset r r.cur n := by
  have phase : r.phase = false := by
    simp only [State.phase, core, cx, State.space, spaces]
    cases r.curCtx <;> rfl
  have width : r.vlmaxb r.cur = if r.cls r.cur = .control then 0 else 512 := by
    have me : r.core r.cur = Core.reset := core
    rw [State.vlmaxb, me]
    rfl
  have point : (r.tile (tileOf r.cur)).point = 3 := by rw [State.tile, tiles]; rfl
  unfold State.csr
  split
  case h_3 => cases h : r.cls r.cur <;> simp [Spec.csrReset, h, capOf]
  case h_7 => simp only [width]; cases h : r.cls r.cur <;> simp [Spec.csrReset, h]
  case h_12 => simp only [phase]; rfl
  case h_16 => simp only [point]; rfl
  case h_29 =>
    have other : Spec.csrReset r r.cur n = 0 := by simp_all [Spec.csrReset]
    rw [other]
    split
    · simp [core, Core.reset]
    · split
      · simp [core, Core.reset]
      · rfl
  all_goals simp only [core, cx, time]
  all_goals rfl
/-- Every core of a module that is reset holds nothing. -/
theorem core_doReset (s : State) (cold : Bool) (c : Nat) : ∃ k : Core, (s.doReset cold).core c = k.afterReset ∨ (s.doReset cold).core c = Core.reset := by
  have keyed : (s.doReset cold).core c = ((kvGet c s.cores).map Core.afterReset).getD Core.reset := by
    rw [← kvGet_mapKeyed (fun _ => Core.afterReset)]
    rfl
  rw [keyed]
  cases kvGet c s.cores with
  | none => exact ⟨Core.reset, .inr rfl⟩
  | some k => exact ⟨k, .inl rfl⟩

/-- What a reset keeps of memory, byte by byte. -/
theorem byte_afterReset (m : Memory) (cold : Bool) (a : Nat) :
    (m.afterReset cold).byte a = if (cold = false ∧ a < 2 ^ 46) ∨ (2 ^ 46 ≤ a ∧ a < 2 ^ 48) ∨ 2 ^ 64 ≤ a then m.byte a else 0 := by
  simp only [Memory.byte, Memory.afterReset]
  rw [lookupCell_filter a _ (fun k => (!cold && decide (k < 2 ^ 46)) || (decide (2 ^ 46 ≤ k) && decide (k < 2 ^ 48)) || decide (2 ^ 64 ≤ k)) (fun _ => rfl)]
  simp [or_assoc]

theorem doReset_isReset (s : State) (cold : Bool) : Spec.IsReset s (s.doReset cold) cold := by
  refine ⟨rfl, rfl, rfl, rfl, rfl, rfl, rfl, rfl, rfl, rfl, rfl, rfl, rfl, rfl, rfl, rfl, rfl, rfl, rfl, rfl, rfl, fun c => ?_,
    byte_afterReset _ cold, rfl, rfl, rfl⟩
  obtain ⟨k, held | held⟩ := core_doReset s cold c
  all_goals rw [held]; exact ⟨rfl, rfl, rfl, rfl⟩

/-! ### The common checks, each after those before it (R80, R119, R183) -/

section
variable {i : Instr} {s : State}

theorem guard_ill {e : Ill} (ill : illForm i = some e) : guard i s = some (.trap (illins i e.code)) := by simp [guard, ill]

variable (wf : i.WellFormed)
include wf

theorem guard_waits (waits : isWaiting i = true) (a : s.curCtx = .a) : guard i s = some (.trap (illins i 8)) := by
  simp [guard, wf, waits, a]

variable (free : ¬(isWaiting i = true ∧ s.curCtx = .a))
include free

theorem guard_misused (wrong : misused s i = true) : guard i s = some (.trap (illins i 9)) := by
  simp [guard, wf, free, wrong]

variable (used : misused s i = false)
include used

theorem guard_level (service : isS i = true) (user : s.cx.priv = false) : guard i s = some (.trap (privTrap s i 0)) := by
  simp [guard, wf, free, used, service, user]

variable (allowed : ¬(isS i = true ∧ s.cx.priv = false))
include allowed

theorem guard_lacks (lacks : capHolds (s.cls s.cur) (neededMask i) = false) :
    guard i s = some (.trap { cause := .migclass, sinfo := neededMask i }) := by
  simp [guard, wf, free, used, allowed, lacks]

theorem guard_token (holds : capHolds (s.cls s.cur) (neededMask i) = true) (token : tokenWait s i = true) : guard i s = some .stall := by
  simp [guard, wf, free, used, allowed, holds, token]

end

end Sys2Proof.Machine

/-! ### The statements -/

namespace Sys2Proof.Proofs

open Sys2Proof.Machine

/-- Settles O3: the decoder run on each of the words. -/
theorem sampleWords : Obligations.SampleWords := by
  refine ⟨?_, ?_, ?_, ?_⟩ <;> rfl

/-- `Rule.StepRunsDecoded`: the turn goes to the context that the agenda names. -/
theorem stepRunsDecodedRule : Rule.StepRunsDecoded := by
  intro s s1 c n rest i turn r k ready going runs worksU worksA fetched decoded
  have decodes : (issueAt c n k).1 = mapNext (afterIssue i s1) (exec i s1) := issueNow_decoded fetched decoded
  refine (step_of_agenda turn).trans ((agendaTurn_issue (s := r) ready going runs).trans ?_)
  cases n with
  | a =>
    obtain ⟨a, u⟩ := worksA rfl
    exact (coreIssue_a a u).trans decodes
  | u =>
    have u : r.ctxWorks c .u = true := worksU rfl
    rw [if_pos u]
    exact decodes

/-- `Rule.DefaultTurnRunsDecoded`: the next core's turn, after its background work. -/
theorem defaultTurnRunsDecoded : Rule.DefaultTurnRunsDecoded := by
  intro s s1 c i empty ready going next b idle works fetched decoded
  have turn : coreTurn c s.tick = mapNext (afterIssue i s1) (exec i s1) :=
    (coreIssue_u idle works).trans (issueNow_decoded fetched decoded)
  have ready' : s.tick.mgmt.ready = true := ready
  have going' : s.tick.mgmt.stopped = false := going
  rw [step, empty]
  simp only [defaultTurn, ready', going', next, turn]
  rfl

/-- `Rule.ChoiceOfContext`: the four cases of R213 and R214, both contexts having something to run. -/
theorem choiceOfContext : Rule.ChoiceOfContext := by
  intro s a u c rest ra ru turn r k ready going runs worksA worksU issueA issueU
  have chosen : step s = coreIssue c k := (step_of_agenda turn).trans (agendaTurn_issue (s := r) ready going runs)
  rw [chosen]
  simp only [coreIssue, worksA, worksU, issueA, issueU]
  refine ⟨?_, ?_, ?_, ?_⟩
  · rintro rfl rfl turns
    simp [turns, mapNext]
  · rintro rfl rfl turns
    simp [turns]
  · rintro rfl rfl
    rfl
  · rintro rfl
    rfl

/-- Settles O4: the turn that the agenda names, the default turn, and the choice between the contexts. -/
theorem stepRunsDecoded : Obligations.StepRunsDecoded := ⟨stepRunsDecodedRule, defaultTurnRunsDecoded, choiceOfContext⟩

/-- Settles O5: an event is an instruction without words. -/
theorem stepRunsEvent : Obligations.StepRunsEvent := by
  intro s i rest turn event
  simp only [step_of_agenda turn, agendaTurn, event]

/-- Settles O7: each turn ends as an instruction, an event or a wait does, and none of these is refused. -/
theorem nothingRefused : Obligations.NothingRefused := fun s r => ⟨meant_step s r, fun i => meant_exec i s r⟩

/-- Settles O8: no turn of a stopped module but an event from outside does anything. -/
theorem haltedStaysHalted : Obligations.HaltedStaysHalted := by
  intro s halted idle
  refine ⟨_, step_halted halted, ?_, ?_⟩
  · obtain ⟨ready, stopped, inside⟩ := halted
    exact ⟨ready, stopped, fun t ht => inside t (List.mem_of_mem_tail ht)⟩
  · have same : s.tick = { s with time := s.tick.time, free := s.tick.free, blocked := false } := rfl
    rw [same, ← idle]

/-- Settles O9: the guard of `run` checks in the order of R80. -/
theorem commonChecks : Obligations.CommonChecks := by
  intro i e s words
  obtain ⟨body, runs⟩ := exec_runs i s (by simp [words])
  have stops {x : Stop} (stop : Machine.guard i s = some x) : exec i s = finish s x := runs.trans (run_guarded stop body)
  refine ⟨fun r ill => stops (guard_ill ill), fun wf => ⟨fun waits => stops (guard_waits wf waits.1 waits.2), fun free => ?_⟩⟩
  refine ⟨fun wrong => stops (guard_misused wf free wrong), fun used => ⟨fun service => ?_, fun user => ?_⟩⟩
  · rw [stops (guard_level wf free used service.1 service.2)]
    simp [finish, privTrap, service.2, b2n]
  · exact ⟨fun lacks => stops (guard_lacks wf free used user lacks), fun holds token => stops (guard_token wf free used user holds token)⟩

/-- `Rule.ResetState`: the tables are empty, and each CSR as the table of resets has it. -/
theorem resetStateRule : Rule.ResetState := by
  refine ⟨rfl, rfl, rfl, rfl, rfl, rfl, rfl, rfl, rfl, rfl, rfl, rfl, rfl, rfl, rfl, rfl, fun c x => ⟨rfl, rfl, rfl, fun n listed => ?_⟩⟩
  exact csr_of_reset rfl (by cases x <;> rfl) rfl rfl rfl listed

/-- `Rule.ResetEvents`: each event resets the module or leaves it as it is. -/
theorem resetEvents : Rule.ResetEvents := by
  intro s port
  refine ⟨⟨_, rfl, doReset_isReset s true⟩, fun free => ⟨s.doReset true, ?_, doReset_isReset s true⟩, fun starting cold => ?_,
    fun ready => ⟨s.doReset false, ?_, doReset_isReset s false⟩, fun starting => ?_⟩
  · rw [exec_modctlCold, execModctlCold, modctlCold, if_neg]
    obtain ready | warm := free
    · simp [ready]
    · simp [warm]
  · simp [exec_modctlCold, execModctlCold, modctlCold, starting, cold]
  · simp [exec_modctlWarm, execModctlWarm, modctlWarm, ready]
  · simp [exec_modctlWarm, execModctlWarm, modctlWarm, starting]

/-- Settles O53: the state after power-on, and the three events. -/
theorem resetState : Obligations.ResetState := ⟨resetStateRule, resetEvents⟩

end Sys2Proof.Proofs
end

section
/-! Scalar floating point (R100 to R104): the format and the mode of a rounding, the row of each arithmetic instruction, comparison, class and
conversion, and the statement O17 from them. -/

namespace Sys2Proof.Machine

/-! ### Formats and modes (R41, R101) -/

theorem scalarFc_eq_fpFormat (f : Nat) : scalarFc f = Spec.fpFormat f := by
  have four : f % 4 = 0 ∨ f % 4 = 1 ∨ f % 4 = 2 ∨ f % 4 = 3 := by omega
  obtain h | h | h | h := four <;> simp [scalarFc, Spec.fpFormat, h]

/-- Of the formats of F[1:0] the two IEEE ones take a mode. -/
theorem takesMode_fpFormat (f : Nat) : takesMode (Spec.fpFormat f) = true ↔ Spec.fpFormat f = 1 ∨ Spec.fpFormat f = 4 := by
  unfold Spec.fpFormat
  split
  · decide
  · split
    · decide
    · split <;> decide

theorem checkMode_ok {takes : Bool} {rm : Nat} (i : Instr) (allowed : ¬(takes = true ∧ 5 ≤ rm)) : checkMode i takes rm = .ok () := by
  simpa [checkMode] using allowed

theorem checkMode_traps {takes : Bool} {rm : Nat} (i : Instr) (mode : takes = true) (reserved : 5 ≤ rm) :
    checkMode i takes rm = .error (.trap (illins i 7)) := by
  simp [checkMode, mode, reserved]

/-! ### Results with flags (R58, R100) -/

/-- A word with flags ORed: x[D], FFLAGS and next_pc, and nothing else. -/
theorem orFlags_retX_resultsF (s : State) (d : BitVec 5) (v : Word) (flags : BitVec 5) :
    ResultsF s ((s.orFlags flags).retX d v) d v s.cx.nextPc flags := by
  have merged : (s.orFlags flags).retX d v = s.modCx (fun k => { (k.setX d v).advance with fflags := k.fflags ||| flags }) := by
    simp only [State.orFlags, State.retX, State.modCx_modCx]
    congr 1
    funext k
    simp only [Ctx.setX]
    split <;> rfl
  have results := resultsF_modCx s d v flags (fun k => { k.advance with fflags := k.fflags ||| flags }) s.cx.nextPc
    (fun _ => rfl) rfl (fun _ => rfl) rfl (fun k => by simp) (fun k => by simp)
  rw [merged]
  simpa using results

section
variable {i : Instr} {s : State} {d : BitVec 5} {fc : Nat} {r : Nat → Flagged Nat} {rounds : Bool}

/-- An arithmetic instruction checks the mode that its format takes, and ends with its row's result. -/
theorem exec_of_fp (row : Spec.fp s i = some (d, fc, r, rounds)) :
    ∃ body, exec i s = run i s body ∧
      body s = (do checkMode i (rounds && takesMode fc) s.frm; return s.retF d fc (r s.frm)) := by
  unfold Spec.fp at row
  split at row
  case h_9 => contradiction
  all_goals obtain ⟨rfl, rfl, rfl, rfl⟩ := row; rw [← scalarFc_eq_fpFormat]
  · exact ⟨_, exec_fadd s _, rfl⟩
  · exact ⟨_, exec_fsub s _, rfl⟩
  · exact ⟨_, exec_fmul s _, rfl⟩
  · exact ⟨_, exec_fdiv s _, rfl⟩
  · exact ⟨_, exec_fsqrt s _, rfl⟩
  · exact ⟨_, exec_fmin s _, rfl⟩
  · exact ⟨_, exec_fmax s _, rfl⟩
  · refine ⟨_, exec_fma s _, ?_⟩
    rw [← bitOf_eq_getLsbD, ← bitOf_eq_getLsbD]
    rfl

theorem format_of_fp (row : Spec.fp s i = some (d, fc, r, rounds)) : ∃ f, fc = Spec.fpFormat f := by
  unfold Spec.fp at row
  split at row
  case h_9 => contradiction
  all_goals obtain ⟨rfl, rfl, rfl, rfl⟩ := row; exact ⟨_, rfl⟩

end

/-! ### FCMP, FCLASS and FCVT (R101, R103, R104) -/

/-- FCMP with its relation and its format. -/
def fcmpEnd (o : LH) (s : State) : Flagged Bool :=
  let fc := Spec.fpFormat o.f.toNat
  cmpCode (o.f.extractLsb' 2 3).toNat fc (Spec.fpOperand s o.a fc) (Spec.fpOperand s o.b fc)

theorem exec_fcmp_run (o : LH) (s : State) :
    exec (.fcmp o) s = run (.fcmp o) s (fun s => .ok ((s.orFlags (fcmpEnd o s).2).retX o.d (if (fcmpEnd o s).1 then 1 else 0))) := by
  simp only [exec_fcmp, execFcmp, scalarFc_eq_fpFormat, bitsOf_eq_extractLsb']
  rfl

/-- FCLASS with its format. -/
def fclassBody (o : LH) (s : State) : Except Stop State :=
  let fc := (o.f.extractLsb' 0 5).toNat
  if fc = 0 || fc ≥ 30 then .error (.trap (fmtbad (.fclass o) fc 3))
  else .ok (s.retX o.d (BitVec.ofNat 64 (classMask (s.getF o.a fc) fc)))

/-- FCVT with its two codes. -/
def fcvtBody (o : LH) (s : State) : Except Stop State := do
  let src := (o.f.extractLsb' 0 5).toNat
  let tgt := o.b.toNat
  match fcvtBad src tgt with
  | some c => .error (.trap (fmtbad (.fcvt o) c 3))
  | none =>
    checkMode (.fcvt o) (fcvtMode src tgt) s.frm
    let r := fcvtValue (s.getX o.a) src tgt (o.f.getLsbD 5) s.frm
    return (s.orFlags r.2).retX o.d r.1

theorem lowCode (o : LH) : o.f.toNat % 32 = (o.f.extractLsb' 0 5).toNat := by simp

theorem exec_fclass_run (o : LH) (s : State) : exec (.fclass o) s = run (.fclass o) s (fclassBody o) := by
  simp only [exec_fclass, execFclass, lowCode]
  rfl

theorem exec_fcvt_run (o : LH) (s : State) : exec (.fcvt o) s = run (.fcvt o) s (fcvtBody o) := by
  simp only [exec_fcvt, execFcvt, lowCode, bitOf_eq_getLsbD]
  rfl

/-- R103: both codes name formats, and one of them is no integer. -/
theorem fcvtBad_eq_none {src tgt : Nat} (source : src < 30) (target : tgt < 30) (float : ¬(src = 0 ∧ tgt = 0)) : fcvtBad src tgt = none := by
  simp [fcvtBad, Nat.not_le.2 source, Nat.not_le.2 target, float]

theorem fcvtBad_eq_some {src tgt : Nat} (invalid : 30 ≤ src ∨ 30 ≤ tgt ∨ (src = 0 ∧ tgt = 0)) :
    fcvtBad src tgt = some (if 30 ≤ src then src else if 30 ≤ tgt then tgt else 0) := by
  unfold fcvtBad
  split
  · simp_all
  · split
    · simp_all
    · have both : src = 0 ∧ tgt = 0 := by omega
      simp [both]

/-- R41, R103: an integer, IEEE or binary8 target other than the source takes a mode. -/
theorem fcvtMode_eq_true_iff {src tgt : Nat} (float : ¬(src = 0 ∧ tgt = 0)) :
    fcvtMode src tgt = true ↔ src ≠ tgt ∧ (tgt ≤ 4 ∨ (8 ≤ tgt ∧ tgt ≤ 28)) := by
  simp only [fcvtMode, takesMode, isIeee, isB8, Bool.or_eq_true, Bool.and_eq_true, decide_eq_true_eq]
  omega

/-- R324: FMTBAD names the offending code with its source, an instruction field. -/
theorem fmtbad_field (i : Instr) {code : Nat} (fits : code < 32) :
    fmtbad i code 3 = { cause := .fmtbad, sinfo := (headOf i).toNat + code * 2 ^ 16 + 3 * 2 ^ 21 } := by
  rw [fmtbad, Nat.mod_eq_of_lt fits]

end Sys2Proof.Machine

/-! ### The statement -/

namespace Sys2Proof.Proofs

open Sys2Proof.Machine

/-- `Rule.FloatResult`: the check on the mode, and the result of the row. -/
theorem floatRule : Rule.FloatResult := by
  intro i d fc r rounds s row issues
  obtain ⟨body, runs, entry⟩ := exec_of_fp row
  obtain ⟨f, rfl⟩ := format_of_fp row
  have mode : (rounds && takesMode (Spec.fpFormat f)) = true ↔ rounds = true ∧ (Spec.fpFormat f = 1 ∨ Spec.fpFormat f = 4) := by
    rw [Bool.and_eq_true, takesMode_fpFormat]
  refine ⟨fun allowed => ⟨_, runs.trans (run_ok issues ?_), retF_resultsF s d _ _⟩, fun ⟨rounding, ieee, reserved⟩ => ?_⟩
  · have passes := checkMode_ok i (takes := rounds && takesMode (Spec.fpFormat f)) (rm := s.frm) (by rw [mode]; tauto)
    rw [entry, passes]
    rfl
  · refine exec_traps issues runs (t := illins i 7) ?_
    rw [entry, checkMode_traps i (rm := s.frm) (mode.2 ⟨rounding, ieee⟩) reserved]
    rfl

/-- FCLASS: a code of a floating format gives the class, any other raises FMTBAD. -/
theorem fclassRule (s : State) (o : LH) (issues : Issues (.fclass o) s) : let fc := (o.f.extractLsb' 0 5).toNat
    (fc ≠ 0 ∧ fc < 30 → ∃ t, exec (.fclass o) s = .next t ∧
      Returns s t o.d (BitVec.ofNat 64 (classMask (Spec.fpOperand s o.a fc) fc))) ∧
    (fc = 0 ∨ 30 ≤ fc → exec (.fclass o) s =
      .next (takeTrap { cause := .fmtbad, sinfo := (headOf (.fclass o)).toNat + fc * 2 ^ 16 + 3 * 2 ^ 21 } s)) := by
  intro fc
  refine ⟨fun ⟨float, below⟩ => exec_returns issues (exec_fclass_run o s) ?_ rfl, fun invalid => ?_⟩
  · exact if_neg (by simp only [Bool.or_eq_true, decide_eq_true_eq]; omega)
  · rw [← fmtbad_field _ (o.f.extractLsb' 0 5).isLt]
    exact exec_traps issues (exec_fclass_run o s) (if_pos (by simpa only [Bool.or_eq_true, decide_eq_true_eq] using invalid))

/-- FCVT: the codes are checked first, then the mode. -/
theorem fcvtRule (s : State) (o : LH) (issues : Issues (.fcvt o) s) : let src := (o.f.extractLsb' 0 5).toNat
    let tgt := o.b.toNat
    (src < 30 ∧ tgt < 30 ∧ ¬(src = 0 ∧ tgt = 0) → let mode := src ≠ tgt ∧ (tgt ≤ 4 ∨ (8 ≤ tgt ∧ tgt ≤ 28))
      (¬(mode ∧ 5 ≤ s.cx.frm.toNat) → let r := fcvtValue (s.getX o.a) src tgt (o.f.getLsbD 5) s.cx.frm.toNat
        ∃ t, exec (.fcvt o) s = .next t ∧ ResultsF s t o.d r.1 s.cx.nextPc r.2) ∧
      (mode ∧ 5 ≤ s.cx.frm.toNat →
        exec (.fcvt o) s = .next (takeTrap { cause := .illins, sinfo := (headOf (.fcvt o)).toNat + 7 * 2 ^ 16 } s))) ∧
    (30 ≤ src ∨ 30 ≤ tgt ∨ (src = 0 ∧ tgt = 0) →
      let info := (headOf (.fcvt o)).toNat + (if 30 ≤ src then src else if 30 ≤ tgt then tgt else 0) * 2 ^ 16 + 3 * 2 ^ 21
      exec (.fcvt o) s = .next (takeTrap { cause := .fmtbad, sinfo := info } s)) := by
  intro src tgt
  refine ⟨fun ⟨source, target, float⟩ => ?_, fun invalid => ?_⟩
  · intro mode
    have valid : fcvtBad src tgt = none := fcvtBad_eq_none source target float
    have takes : fcvtMode src tgt = true ↔ mode := fcvtMode_eq_true_iff float
    refine ⟨fun allowed => ⟨_, (exec_fcvt_run o s).trans (run_ok issues ?_), orFlags_retX_resultsF s o.d _ _⟩, fun ⟨rounding, reserved⟩ => ?_⟩
    · have passes := checkMode_ok (.fcvt o) (takes := fcvtMode src tgt) (rm := s.frm) (by rw [takes]; exact allowed)
      simp only [fcvtBody]
      rw [valid, passes]
      rfl
    · refine exec_traps issues (exec_fcvt_run o s) (t := illins (.fcvt o) 7) ?_
      simp only [fcvtBody]
      rw [valid, checkMode_traps (.fcvt o) (rm := s.frm) (takes.2 rounding) reserved]
      rfl
  · intro info
    have fits : (if 30 ≤ src then src else if 30 ≤ tgt then tgt else 0) < 32 := by
      have := (o.f.extractLsb' 0 5).isLt
      have := o.b.isLt
      split <;> [skip; split] <;> omega
    refine exec_traps issues (exec_fcvt_run o s) ?_
    rw [← fmtbad_field _ fits]
    simp only [fcvtBody]
    rw [fcvtBad_eq_some invalid]

/-- `Rule.FloatConversions`: FCMP, FCLASS and FCVT, each with what it refuses. -/
theorem floatConversions : Rule.FloatConversions := fun s o =>
  ⟨fun issues => ⟨_, (exec_fcmp_run o s).trans (run_ok issues rfl), orFlags_retX_resultsF s o.d _ _⟩, fclassRule s o, fcvtRule s o⟩

/-- Settles O17: the arithmetic instructions by their rows, and the three others. -/
theorem floatResult : Obligations.FloatResult := ⟨floatRule, floatConversions⟩

end Sys2Proof.Proofs
end

section
/-! The local window (R234 to R236): the protection entries of R24, the ranges of the window and what each of them reaches, and the statement
O18 from them. -/

namespace Sys2Proof.Machine

/-! ### Protection entries (R24, R235) -/

theorem entryGrants_iff (need : Need) (l : Word) : entryGrants need l.toNat = true ↔ match need with
    | .r => l.getLsbD 60 = true
    | .w => l.getLsbD 61 = true
    | .rw => l.getLsbD 60 = true ∧ l.getLsbD 61 = true
    | .x => l.getLsbD 62 = true
    | .either => l.getLsbD 60 = true ∨ l.getLsbD 61 = true
    | .look => True := by
  cases need <;> simp [entryGrants, bitOf_eq_getLsbD]

theorem entryPasses_iff (k : Core) (w : Who) (va size : Nat) (n : Fin 8) :
    entryPasses k w va size n = true ↔ Spec.entryPasses k.protb[n] k.protl[n] w.asid w.need (va % 2 ^ 48) size := by
  simp only [entryPasses, Spec.entryPasses, Bool.and_eq_true, beq_iff_eq, decide_eq_true_eq, entryGrants_iff, bitOf_eq_getLsbD,
    bitsOf_eq_extractLsb', and_assoc]
  rfl

/-- An address of the local window: its offset is what the entries are compared with. -/
theorem anyEntry_iff {s : State} {w : Who} {va off size : Nat} (offset : va % 2 ^ 48 = off) :
    anyEntry (s.core w.core) w va size = true ↔ Spec.granted s w off size := by
  subst offset
  simp only [anyEntry, List.any_eq_true, List.mem_finRange, true_and, entryPasses_iff, Spec.granted]

/-! ### What an access of the window comes to -/

theorem protInfo_eq (k : AKind) (reason : Nat) : protInfo k reason = Spec.protKind k * 16 + reason := by cases k <;> rfl

/-- The PROT trap of a reason. -/
def protTrap (w : Who) (va reason : Nat) : Trap := { cause := .prot, saddr := va, sinfo := Spec.protKind w.kind * 16 + reason }

section
variable {s : State} {w : Who} {va size : Nat}

theorem access_local (inside : isLocal va = true) : s.access w va size = (s.localAccess w va size).map (fun p => (s, p)) := by
  rw [State.access, if_pos inside]
  cases s.localAccess w va size <;> rfl

theorem localAccess_prot {reason : Nat} (refused : s.localReason w va size = some reason) :
    s.localAccess w va size = .error (.trap (protTrap w va reason)) := by
  simp only [State.localAccess, refused, protInfo_eq, protTrap]

theorem localReason_denied (denied : anyEntry (s.core w.core) w va size = false) : s.localReason w va size = some 1 := by
  simp [State.localReason, denied]

variable (passes : anyEntry (s.core w.core) w va size = true)
include passes

/-- The reason of an access to a scratchpad, by where its range ends. -/
theorem localReason_spad {c o : Nat} (place : localPlace w.core va = .spad c o) (live : s.live c = true) :
    s.localReason w va size = if o + size > spadSize (s.cls c) then some 2 else if o + size > spadSize (s.cls c) - 0x2000 then some 3 else none := by
  simp [State.localReason, passes, place, live]

theorem localReason_site {t o : Nat} (place : localPlace w.core va = .site t o) :
    s.localReason w va size = if o + size ≤ 0x400_0000 then none else some 2 := by
  simp [State.localReason, passes, place]

/-- The usable range of a live core's scratchpad. -/
theorem localAccess_spad {c o : Nat} (place : localPlace w.core va = .spad c o) (live : s.live c = true)
    (below : o + size ≤ spadSize (s.cls c) - 0x2000) : s.localAccess w va size =
      if c ≠ w.core ∧ (s.core c).zeroing then .error .stall
      else if c ≠ w.core ∧ (s.core c).owner ≠ some w.asid then .error (.trap (protTrap w va 4))
      else .ok { key := (Loc.spad c o).key, typ := 8, siteOff := none, home := 0, page := 0, big := false } := by
  have usable : s.localReason w va size = none := by rw [localReason_spad passes place live, if_neg (by omega), if_neg (by omega)]
  simp only [State.localAccess, usable, place, protInfo_eq, protTrap]

theorem localAccess_site {t o : Nat} (place : localPlace w.core va = .site t o) (below : o + size ≤ 2 ^ 26) :
    s.localAccess w va size = .ok { key := (Loc.site t o).key, typ := 8, siteOff := some (t, o), home := 0, page := 0, big := false } := by
  have usable : s.localReason w va size = none := by rw [localReason_site passes place, if_pos (by omega)]
  simp only [State.localAccess, usable, place]

end

/-! ### The ranges of the window (R234) -/

/-- An address of the window by its range and its offset there. -/
theorem window_fields {r o : Nat} (range : r < 256) (offset : o < 2 ^ 40) :
    isLocal (0xFF * 2 ^ 48 + r * 2 ^ 40 + o) = true ∧ (0xFF * 2 ^ 48 + r * 2 ^ 40 + o) % 2 ^ 48 = r * 2 ^ 40 + o ∧
      bitsOf (0xFF * 2 ^ 48 + r * 2 ^ 40 + o) 40 8 = r ∧ (0xFF * 2 ^ 48 + r * 2 ^ 40 + o) % 2 ^ 40 = o := by
  simp only [isLocal, bitsOf, beq_iff_eq]
  omega

theorem localPlace_own (c : Nat) {o : Nat} (offset : o < 2 ^ 40) : localPlace c (0xFF * 2 ^ 48 + 0 * 2 ^ 40 + o) = .spad c o := by
  obtain ⟨-, -, range, low⟩ := window_fields (r := 0) (by decide) offset
  simp only [localPlace, range, low]

theorem localPlace_cluster (c : Nat) {k o : Nat} (member : k < 16) (offset : o < 2 ^ 22) :
    localPlace c (0xFF * 2 ^ 48 + 1 * 2 ^ 40 + (k * 2 ^ 22 + o)) = .spad (c / 16 * 16 + k) o := by
  have below : k * 2 ^ 22 + o < 16 * 0x40_0000 := by omega
  have core : (k * 2 ^ 22 + o) / 0x40_0000 = k := by omega
  have place : (k * 2 ^ 22 + o) % 0x40_0000 = o := by omega
  obtain ⟨-, -, range, low⟩ := window_fields (r := 1) (o := k * 2 ^ 22 + o) (by decide) (by omega)
  simp only [localPlace, range, low, if_pos below, core, place, clusterOf]

theorem localPlace_site (c : Nat) {t o : Nat} (site : t < 4) (offset : o < 2 ^ 32) :
    localPlace c (0xFF * 2 ^ 48 + 2 * 2 ^ 40 + (t * 2 ^ 32 + o)) = .site t o := by
  have which : (t * 2 ^ 32 + o) / 2 ^ 32 = t := by omega
  have place : (t * 2 ^ 32 + o) % 2 ^ 32 = o := by omega
  obtain ⟨-, -, range, low⟩ := window_fields (r := 2) (o := t * 2 ^ 32 + o) (by decide) (by omega)
  simp only [localPlace, range, low, which, if_pos site, place]

theorem spadSize_le (k : Cls) : spadSize k ≤ 2 ^ 21 := by cases k <;> decide

end Sys2Proof.Machine

/-! ### The statement -/

namespace Sys2Proof.Proofs

open Sys2Proof.Machine

section
variable {s : State} {w : Who} {o size : Nat}

/-- The issuing core's own scratchpad. -/
theorem ownScratchpad (offset : o + size < 2 ^ 32) (live : s.live w.core = true) :
    (¬Spec.granted s w o size → s.access w (0xFF * 2 ^ 48 + o) size = .error (.trap (protTrap w (0xFF * 2 ^ 48 + o) 1))) ∧
    (Spec.granted s w o size → let top := spadSize (s.cls w.core)
      (o + size ≤ top - 0x2000 → s.access w (0xFF * 2 ^ 48 + o) size =
        .ok (s, { key := (Loc.spad w.core o).key, typ := 8, siteOff := none, home := 0, page := 0, big := false })) ∧
      (top - 0x2000 < o + size → o + size ≤ top → s.access w (0xFF * 2 ^ 48 + o) size = .error (.trap (protTrap w (0xFF * 2 ^ 48 + o) 3))) ∧
      (top < o + size → s.access w (0xFF * 2 ^ 48 + o) size = .error (.trap (protTrap w (0xFF * 2 ^ 48 + o) 2)))) := by
  obtain ⟨inside, off, -, -⟩ := window_fields (r := 0) (o := o) (by decide) (by omega)
  have place := localPlace_own w.core (o := o) (by omega)
  have entry := anyEntry_iff (s := s) (w := w) (size := size) off
  rw [Nat.zero_mul, Nat.zero_add, Nat.add_zero] at entry
  rw [Nat.zero_mul, Nat.add_zero] at inside place
  rw [access_local inside]
  refine ⟨fun denied => ?_, fun granted => ?_⟩
  · rw [localAccess_prot (localReason_denied (Bool.eq_false_iff.2 (mt entry.1 denied)))]
    rfl
  · have reason := localReason_spad (entry.2 granted) place live
    refine ⟨fun below => ?_, fun above inTop => ?_, fun beyond => ?_⟩
    · rw [localAccess_spad (entry.2 granted) place live below]
      simp [Except.map]
    · rw [localAccess_prot (reason.trans (by rw [if_neg (by omega), if_pos above]))]
      rfl
    · rw [localAccess_prot (reason.trans (by rw [if_pos beyond]))]
      rfl

/-- The scratchpad of another core of the cluster. -/
theorem clusterScratchpad {k c : Nat} (core : c = w.core / 16 * 16 + k) (member : k < 16) (live : s.live c = true)
    (below : o + size ≤ spadSize (s.cls c) - 0x2000) (granted : Spec.granted s w (2 ^ 40 + k * 2 ^ 22 + o) size) :
    s.access w (0xFF * 2 ^ 48 + 2 ^ 40 + k * 2 ^ 22 + o) size = Except.map (fun p => (s, p))
      (if c ≠ w.core ∧ (s.core c).zeroing then .error .stall
        else if c ≠ w.core ∧ (s.core c).owner ≠ some w.asid then .error (.trap (protTrap w (0xFF * 2 ^ 48 + 2 ^ 40 + k * 2 ^ 22 + o) 4))
        else .ok { key := (Loc.spad c o).key, typ := 8, siteOff := none, home := 0, page := 0, big := false }) := by
  have offset : o < 2 ^ 22 := by have := spadSize_le (s.cls c); omega
  have same : 0xFF * 2 ^ 48 + 1 * 2 ^ 40 + (k * 2 ^ 22 + o) = 0xFF * 2 ^ 48 + 2 ^ 40 + k * 2 ^ 22 + o := by omega
  obtain ⟨inside, off, -, -⟩ := window_fields (r := 1) (o := k * 2 ^ 22 + o) (by decide) (by omega)
  have place := localPlace_cluster w.core member offset
  rw [same] at inside off place
  rw [← core] at place
  have entry : anyEntry (s.core w.core) w _ size = true := (anyEntry_iff (off.trans (by omega))).2 granted
  rw [access_local inside, localAccess_spad entry place live below]

theorem siteScratchpad {t : Nat} (site : t < 4) (granted : Spec.granted s w (2 * 2 ^ 40 + t * 2 ^ 32 + o) size)
    (below : o + size ≤ 2 ^ 26) : s.access w (0xFF * 2 ^ 48 + 2 * 2 ^ 40 + t * 2 ^ 32 + o) size =
      .ok (s, { key := (Loc.site t o).key, typ := 8, siteOff := some (t, o), home := 0, page := 0, big := false }) := by
  have same : 0xFF * 2 ^ 48 + 2 * 2 ^ 40 + (t * 2 ^ 32 + o) = 0xFF * 2 ^ 48 + 2 * 2 ^ 40 + t * 2 ^ 32 + o := by omega
  obtain ⟨inside, off, -, -⟩ := window_fields (r := 2) (o := t * 2 ^ 32 + o) (by decide) (by omega)
  have place := localPlace_site w.core site (o := o) (by omega)
  rw [same] at inside off place
  have entry : anyEntry (s.core w.core) w _ size = true := (anyEntry_iff (off.trans (by omega))).2 granted
  rw [access_local inside, localAccess_site entry place below]
  rfl

end

/-- Settles O18: the three ranges of the window, each with its reasons. -/
theorem localAccess : Obligations.LocalAccess := by
  intro s w o size _ offset live
  obtain ⟨denied, granted⟩ := ownScratchpad offset live
  refine ⟨denied, granted, ?_, fun t site passes below => siteScratchpad site passes below⟩
  intro k member c other live below passes still
  rw [clusterScratchpad rfl member live below passes, if_neg (by simp [c, still])]
  refine ⟨fun owned => ?_, fun foreign => ?_⟩
  · rw [if_neg (by simp [c, owned])]
    rfl
  · rw [if_pos ⟨other, foreign⟩]
    rfl

end Sys2Proof.Proofs
end

section
/-! Bytes and memory: little-endian bytes of a value and back (R6), reads of what was written, and which bytes an update may change. -/

namespace Sys2Proof.Machine

/-! ### Little-endian bytes (R6) -/

@[simp] theorem length_toBytes (n v : Nat) : (toBytes n v).length = n := by
  induction n generalizing v with
  | zero => rfl
  | succ n ih => simp [toBytes, ih]

/-- Byte j of a value. -/
theorem toBytes_eq_bytes (n v : Nat) : toBytes n v = Spec.bytes n v := by
  induction n generalizing v with
  | zero => rfl
  | succ n ih =>
    rw [toBytes, ih, Spec.bytes, Spec.bytes, List.range_succ_eq_map, List.map_cons, List.map_map]
    congr 1
    · simp
    · refine List.map_congr_left fun j _ => ?_
      rw [Function.comp_apply, Nat.div_div_eq_div_mul, Nat.mul_succ, Nat.pow_add, Nat.mul_comm (2 ^ (8 * j))]

theorem ofBytes_lt (bs : List Byte) : ofBytes bs < 2 ^ (8 * bs.length) := by
  induction bs with
  | nil => decide
  | cons b t ih =>
    have := b.isLt
    rw [ofBytes, List.length_cons, Nat.mul_succ, Nat.pow_add]
    omega

theorem ofBytes_toBytes (n v : Nat) : ofBytes (toBytes n v) = v % 2 ^ (8 * n) := by
  induction n generalizing v with
  | zero => simp [toBytes, ofBytes, Nat.mod_one]
  | succ n ih =>
    rw [toBytes, ofBytes, ih, BitVec.toNat_ofNat, Nat.mul_succ, Nat.pow_add, Nat.mul_comm (2 ^ (8 * n)), Nat.mod_mul]

/-! ### Reads -/

theorem Memory.read_lt (m : Memory) (a n : Nat) : m.read a n < 2 ^ (8 * n) := by
  have := ofBytes_lt (m.bytes a n)
  rwa [Memory.length_bytes] at this

theorem Memory.bytes_congr {m m' : Memory} {a n : Nat} (same : ∀ j, j < n → m'.byte (a + j) = m.byte (a + j)) : m'.bytes a n = m.bytes a n := by
  refine List.ext_getElem? fun j => ?_
  by_cases inside : j < n
  · rw [Memory.bytes_getElem? _ _ _ _ inside, Memory.bytes_getElem? _ _ _ _ inside, same j inside]
  · rw [List.getElem?_eq_none (by rw [Memory.length_bytes]; omega), List.getElem?_eq_none (by rw [Memory.length_bytes]; omega)]

/-- A read depends on the bytes of its range alone. -/
theorem Memory.read_congr {m m' : Memory} {a n : Nat} (same : ∀ j, j < n → m'.byte (a + j) = m.byte (a + j)) : m'.read a n = m.read a n := by
  rw [Memory.read, Memory.bytes_congr same, Memory.read]

theorem Memory.read_writeBytes (m : Memory) (a : Nat) (bs : List Byte) : (m.writeBytes a bs).read a bs.length = ofBytes bs := by
  rw [Memory.read, Memory.bytes_writeBytes]

theorem Memory.read_write (m : Memory) (a n v : Nat) : (m.write a n v).read a n = v % 2 ^ (8 * n) := by
  have whole := m.read_writeBytes a (toBytes n v)
  rwa [length_toBytes, ofBytes_toBytes] at whole

theorem Memory.byte_write (m : Memory) (a n v x : Nat) :
    (m.write a n v).byte x = if a ≤ x ∧ x < a + n then (toBytes n v).getD (x - a) 0 else m.byte x := by
  rw [Memory.write, Memory.byte_writeBytes, length_toBytes]

/-! ### Which bytes differ -/

/-- From m to m' only bytes in P differ. -/
def Memory.Alters (m m' : Memory) (P : Nat → Prop) : Prop := ∀ a, m'.byte a ≠ m.byte a → P a

namespace Memory.Alters
variable {m m' m'' : Memory} {P Q : Nat → Prop}

theorem refl (m : Memory) (P : Nat → Prop) : m.Alters m P := fun _ differs => absurd rfl differs

theorem trans (first : m.Alters m' P) (second : m'.Alters m'' P) : m.Alters m'' P := by
  intro a differs
  by_cases same : m'.byte a = m.byte a
  · exact second a (same ▸ differs)
  · exact first a same

theorem mono (h : m.Alters m' P) (wider : ∀ a, P a → Q a) : m.Alters m' Q := fun a differs => wider a (h a differs)

theorem of_eq (same : m' = m) (P : Nat → Prop) : m.Alters m' P := same ▸ refl m P

theorem byte_eq (h : m.Alters m' P) {a : Nat} (outside : ¬P a) : m'.byte a = m.byte a := by
  by_contra differs
  exact outside (h a differs)

end Memory.Alters

theorem Memory.alters_writeBytes (m : Memory) (a : Nat) (bs : List Byte) : m.Alters (m.writeBytes a bs) (fun x => a ≤ x ∧ x < a + bs.length) := by
  intro x differs
  by_contra outside
  exact differs (by rw [Memory.byte_writeBytes, if_neg outside])

theorem Memory.alters_write (m : Memory) (a n v : Nat) : m.Alters (m.write a n v) (fun x => a ≤ x ∧ x < a + n) := by
  have bytes := m.alters_writeBytes a (toBytes n v)
  rwa [length_toBytes] at bytes

theorem Memory.alters_zero (m : Memory) (a n : Nat) : m.Alters (m.zero a n) (fun x => a ≤ x ∧ x < a + n) := by
  intro x differs
  by_contra outside
  exact differs (by rw [Memory.byte_zero, if_neg outside])

/-- Zeroing ranges one after the other. -/
theorem Memory.alters_foldl_zero (l : List Nat) (n : Nat) (m : Memory) :
    m.Alters (l.foldl (fun (m : Memory) f => m.zero f n) m) (fun x => ∃ f ∈ l, f ≤ x ∧ x < f + n) := by
  induction l generalizing m with
  | nil => exact .refl _ _
  | cons f t ih =>
    refine .trans ((m.alters_zero f n).mono fun x inside => ⟨f, List.mem_cons_self, inside⟩) ((ih (m.zero f n)).mono ?_)
    rintro x ⟨g, listed, inside⟩
    exact ⟨g, List.mem_cons_of_mem _ listed, inside⟩

end Sys2Proof.Machine
end

section
/-! Translation at the homes (R306 to R317): what each operation of a home's caches can do, which entries and which bytes it may change, and
what an access as a whole leaves as it was. The statement O19. -/

namespace Sys2Proof.Machine

/-! ### Entries and sites that translation keeps -/

/-- An entry e that an entry o has become: its use may be later, and, where `hot` allows it, its hotness record another. -/
def HomeEntry.Becomes (hot : HomeEntry → Prop) (o e : HomeEntry) : Prop :=
  { e with stamp := o.stamp, hot := o.hot } = o ∧ (e.hot = o.hot ∨ hot e)

/-- A property of an entry's page: of its address space, its number and its size alone. -/
def OfPage (P : HomeEntry → Prop) : Prop := ∀ o e : HomeEntry, o.asid = e.asid → o.page = e.page → o.big = e.big → P o → P e

/-- From s to t only what the homes cache of translations, and memory, differ: an entry of t's homes is one of s's, with another use and, where
`hot` allows it, another hotness record, or one that `new` allows; a host translation of t is one of s, with another use. -/
structure Translates (hot new : HomeEntry → Prop) (s t : State) : Prop where
  rest : { t with sites := s.sites, ats := s.ats, mem := s.mem } = s
  site : ∀ i, let h := (s.site i).home
    { t.site i with home := { (t.site i).home with cache := h.cache, walks := h.walks, hints := h.hints, clock := h.clock } } = s.site i
  cache : ∀ i, ∀ e ∈ (t.site i).home.cache, (∃ o ∈ (s.site i).home.cache, o.Becomes hot e) ∨ new e
  ats : ∀ a ∈ t.ats, ∃ b ∈ s.ats, { a with stamp := b.stamp } = b

section
variable {hot new hot' new' : HomeEntry → Prop} {s t u : State}

theorem HomeEntry.Becomes.refl (hot : HomeEntry → Prop) (e : HomeEntry) : e.Becomes hot e := ⟨rfl, .inl rfl⟩

/-- An entry that has become another is of the same page. -/
theorem HomeEntry.Becomes.page {o e : HomeEntry} (h : o.Becomes hot e) : o.asid = e.asid ∧ o.page = e.page ∧ o.big = e.big := by
  obtain ⟨same, -⟩ := h
  rw [← same]
  exact ⟨rfl, rfl, rfl⟩

theorem HomeEntry.Becomes.leafPa {o e : HomeEntry} (h : o.Becomes hot e) : o.leafPa = e.leafPa := by
  obtain ⟨same, -⟩ := h
  rw [← same]

theorem HomeEntry.Becomes.trans (ofPage : OfPage hot) {o p e : HomeEntry} (first : o.Becomes hot p) (second : p.Becomes hot e) :
    o.Becomes hot e := by
  obtain ⟨asid, page, big⟩ := second.page
  obtain ⟨same₁, hot₁⟩ := first
  obtain ⟨same₂, hot₂⟩ := second
  refine ⟨by rw [← same₁, ← same₂], ?_⟩
  obtain kept | allowed := hot₂
  · rw [kept]
    exact hot₁.imp id (ofPage p e asid page big)
  · exact .inr allowed

theorem Translates.refl (hot new : HomeEntry → Prop) (s : State) : Translates hot new s s :=
  ⟨rfl, fun _ => rfl, fun _ e he => .inl ⟨e, he, .refl hot e⟩, fun a ha => ⟨a, ha, rfl⟩⟩

theorem Translates.mono (h : Translates hot new s t) (hots : ∀ e, hot e → hot' e) (news : ∀ e, new e → new' e) : Translates hot' new' s t :=
  { h with cache := fun i e he => (h.cache i e he).imp (fun ⟨o, ho, same, changed⟩ => ⟨o, ho, same, changed.imp id (hots e)⟩) (news e) }

theorem Translates.trans (hotPage : OfPage hot) (newPage : OfPage new) (first : Translates hot new s t) (second : Translates hot new t u) :
    Translates hot new s u := by
  refine ⟨?_, fun i => ?_, fun i e he => ?_, fun a ha => ?_⟩
  · rw [← first.rest, ← second.rest]
  · have one := first.site i
    have two := second.site i
    rw [← one, ← two]
  · obtain ⟨p, hp, after⟩ | fresh := second.cache i e he
    · obtain ⟨o, ho, before⟩ | fresh := first.cache i p hp
      · exact .inl ⟨o, ho, before.trans hotPage after⟩
      · obtain ⟨asid, page, big⟩ := after.page
        exact .inr (newPage p e asid page big fresh)
    · exact .inr fresh
  · obtain ⟨b, hb, after⟩ := second.ats a ha
    obtain ⟨c, hc, before⟩ := first.ats b hb
    exact ⟨c, hc, by rw [← before, ← after]⟩

/-- A home whose lists change. -/
theorem modHome_translates (s : State) (i : Nat) {f : Home → Home}
    (rest : ∀ h, { f h with cache := h.cache, walks := h.walks, hints := h.hints, clock := h.clock } = h)
    (cache : ∀ e ∈ (f (s.site i).home).cache, (∃ o ∈ (s.site i).home.cache, o.Becomes hot e) ∨ new e) : Translates hot new s (s.modHome i f) := by
  have here {j : Nat} (same : j % 4 = i % 4) : (s.modHome i f).site j = { s.site j with home := f (s.site j).home } := by
    have sites : ∀ v : State, v.site j = v.site i := fun v => by simp only [State.site, same]
    rw [sites, State.modHome, State.site_modSite_self, sites]
  refine ⟨rfl, fun j => ?_, fun j e he => ?_, fun a ha => ⟨a, ha, rfl⟩⟩
  · by_cases same : j % 4 = i % 4
    · simp only [here same, rest]
    · simp only [State.modHome, State.site_modSite_ne s same]
  · by_cases same : j % 4 = i % 4
    · have sites : s.site j = s.site i := by simp only [State.site, same]
      rw [here same, sites] at he
      rw [sites]
      exact cache e he
    · rw [State.modHome, State.site_modSite_ne s same] at he
      exact .inl ⟨e, he, .refl hot e⟩

/-- Memory is no part of what the homes cache. -/
theorem setMem_translates (s : State) (m : Memory) : Translates hot new s { s with mem := m } :=
  ⟨rfl, fun _ => rfl, fun _ e he => .inl ⟨e, he, .refl hot e⟩, fun a ha => ⟨a, ha, rfl⟩⟩

theorem setHints_translates (s : State) (p : SizeHint → Bool) :
    Translates hot new s { s with sites := s.sites.map (fun t => { t with home := { t.home with hints := t.home.hints.filter p } }) } := by
  have site (i : Nat) : State.site { s with sites := s.sites.map (fun t => { t with home := { t.home with hints := t.home.hints.filter p } }) } i =
      { s.site i with home := { (s.site i).home with hints := (s.site i).home.hints.filter p } } := by
    simp [State.site]
  refine ⟨rfl, fun i => by simp only [site], fun i e he => .inl ⟨e, ?_, .refl hot e⟩, fun a ha => ⟨a, ha, rfl⟩⟩
  rwa [site] at he

theorem setAts_translates (s : State) {l : List Ats} (ats : ∀ a ∈ l, ∃ b ∈ s.ats, { a with stamp := b.stamp } = b) :
    Translates hot new s { s with ats := l } :=
  ⟨rfl, fun _ => rfl, fun _ e he => .inl ⟨e, he, .refl hot e⟩, ats⟩

end

/-! ### One use, one entry, one hint (R307, R312, R315) -/

section
variable {hot new : HomeEntry → Prop} (s : State)

theorem useEntry_translates (e : HomeEntry) : Translates hot new s (s.useEntry e) := by
  refine modHome_translates s _ (fun _ => rfl) fun o ho => .inl ?_
  obtain ⟨p, hp, rfl⟩ := List.mem_map.1 ho
  refine ⟨p, hp, ?_⟩
  split
  · exact ⟨rfl, .inl rfl⟩
  · exact .refl hot p

theorem useHint_translates (first : Nat) (e : HomeEntry) : Translates hot new s (s.useHint first e) := by
  unfold State.useHint
  split
  · exact .refl hot new s
  · exact modHome_translates s _ (fun _ => rfl) fun o ho => .inl ⟨o, ho, .refl hot o⟩

@[simp] theorem mem_useHint (first : Nat) (e : HomeEntry) : (s.useHint first e).mem = s.mem := by
  unfold State.useHint
  split <;> rfl

@[simp] theorem mem_useEntry (e : HomeEntry) : (s.useEntry e).mem = s.mem := rfl

/-- The walk cache alone changes in a walk. -/
theorem homeWalk_translates (site asid va : Nat) : Translates hot new s (s.homeWalk site asid va).1 := by
  have walked (f : Home → List WalkPtr) : Translates hot new s (s.modHome site (fun h => { h with walks := f h })) :=
    modHome_translates s site (fun _ => rfl) fun o ho => .inl ⟨o, ho, .refl hot o⟩
  unfold State.homeWalk
  split
  · dsimp only
    exact walked _
  · split
    · exact .refl hot new s
    · dsimp only
      exact walked _

@[simp] theorem mem_homeWalk (site asid va : Nat) : (s.homeWalk site asid va).1.mem = s.mem := by
  unfold State.homeWalk
  split
  · rfl
  · split <;> rfl

theorem useAts_translates (a : Ats) : Translates hot new s (s.useAts a) := by
  have stamped : ∀ o ∈ (s.useAts a).ats, ∃ b ∈ s.ats, { o with stamp := b.stamp } = b := by
    intro o ho
    obtain ⟨b, hb, rfl⟩ := List.mem_map.1 ho
    refine ⟨b, hb, ?_⟩
    split <;> rfl
  have clock : Translates hot new s (s.modHome a.site (fun h => { h with clock := h.clock + 1 })) :=
    modHome_translates s _ (fun _ => rfl) fun o ho => .inl ⟨o, ho, .refl hot o⟩
  exact { rest := clock.rest, site := clock.site, cache := clock.cache, ats := stamped }

theorem countHot_translates (asid : Nat) (p : Place) (lo n : Nat) (counted : ∀ e : HomeEntry, e.asid = asid → e.page = p.page → e.big = p.big → hot e) :
    Translates hot new s (s.countHot asid p lo n) := by
  unfold State.countHot
  split
  · exact .refl hot new s
  · refine modHome_translates s _ (fun _ => rfl) fun o ho => .inl ?_
    obtain ⟨q, hq, rfl⟩ := List.mem_map.1 ho
    refine ⟨q, hq, ?_⟩
    split
    case isTrue same => exact ⟨rfl, .inr (counted _ same.1 same.2.1 same.2.2)⟩
    case isFalse => exact .refl hot q

@[simp] theorem mem_countHot (asid : Nat) (p : Place) (lo n : Nat) : (s.countHot asid p lo n).mem = s.mem := by
  unfold State.countHot
  split <;> rfl

/-- An entry that leaves its home. -/
theorem dropEntry_translates (e : HomeEntry) : Translates hot new s (s.dropEntry e) := by
  have out : Translates (fun _ => False) (fun _ => False) s
      ((s.hotBack e).modHome e.site (fun h => { h with cache := h.cache.filter (fun o => !e.same o) })) :=
    (setMem_translates s _).trans (fun _ _ _ _ _ => id) (fun _ _ _ _ _ => id)
      (modHome_translates _ _ (fun _ => rfl) fun o ho => .inl ⟨o, (List.mem_filter.1 ho).1, .refl _ o⟩)
  refine Translates.mono (hot := fun _ => False) (new := fun _ => False) ?_ (fun _ => False.elim) (fun _ => False.elim)
  unfold State.dropEntry
  dsimp only
  split
  · exact out.trans (fun _ _ _ _ _ => id) (fun _ _ _ _ _ => id) (setHints_translates _ _)
  · exact out

/-- The bytes of an entry's hotness record (R308, R315). -/
def HomeEntry.hotBytes (e : HomeEntry) (a : Nat) : Prop := hotPa e.leafPa ≤ a ∧ a < hotPa e.leafPa + 8

theorem mem_dropEntry (e : HomeEntry) : (s.dropEntry e).mem = s.mem.write (hotPa e.leafPa) 8 e.hot.toNat := by
  unfold State.dropEntry
  dsimp only
  split <;> rfl

theorem dropEntry_alters (e : HomeEntry) : s.mem.Alters (s.dropEntry e).mem e.hotBytes := by
  rw [mem_dropEntry]
  exact Memory.alters_write _ _ _ _

end

/-! ### Room in a set (R312) -/

/-- The least recently used free entry of the set leaves it: an entry of the page table, a host translation, or size hints; nothing does where
there is room. -/
theorem makeRoom_cases {s u : State} {site page : Nat} (room : s.makeRoom site page = some u) :
    u = s ∨ (∃ e ∈ (s.site site).home.cache, u = s.dropEntry e) ∨ (∃ a : Ats, u = { s with ats := s.ats.filter (fun o => o != a) }) ∨
      ∃ p : SizeHint → Bool, u = s.modHome site (fun h => { h with hints := h.hints.filter p }) := by
  unfold State.makeRoom at room
  dsimp only at room
  split at room
  · exact .inl (Option.some.inj room).symm
  · split at room
    · contradiction
    · split at room
      case h_1 e found =>
        refine .inr (.inl ⟨e, ?_, (Option.some.inj room).symm⟩)
        exact List.mem_of_mem_filter (List.mem_of_mem_filter (List.mem_of_find?_eq_some found))
      case h_2 a _ _ => exact .inr (.inr (.inl ⟨a, (Option.some.inj room).symm⟩))
      case h_3 => exact .inr (.inr (.inr ⟨_, (Option.some.inj room).symm⟩))

section
variable {hot new : HomeEntry → Prop} {s u : State} {site page : Nat}

theorem makeRoom_translates (room : s.makeRoom site page = some u) : Translates hot new s u := by
  obtain rfl | ⟨e, _, rfl⟩ | ⟨a, rfl⟩ | ⟨p, rfl⟩ := makeRoom_cases room
  · exact .refl hot new u
  · exact dropEntry_translates s e
  · exact setAts_translates s fun b hb => ⟨b, (List.mem_filter.1 hb).1, rfl⟩
  · exact modHome_translates s _ (fun _ => rfl) fun o ho => .inl ⟨o, ho, .refl hot o⟩

/-- Memory takes the hotness record of an entry that leaves. -/
theorem makeRoom_alters (room : s.makeRoom site page = some u) :
    s.mem.Alters u.mem (fun a => ∃ e ∈ (s.site site).home.cache, e.hotBytes a) := by
  obtain rfl | ⟨e, he, rfl⟩ | ⟨a, rfl⟩ | ⟨p, rfl⟩ := makeRoom_cases room
  · exact .refl _ _
  · exact (dropEntry_alters s e).mono fun a inside => ⟨e, he, inside⟩
  · exact .refl _ _
  · exact .refl _ _

end

/-! ### Entries brought in (R307, R310, R315) -/

/-- The bytes that zero-fill of a leaf writes: the leaf's own, and its frames as they are named when it happens (R310). -/
def State.fillBytes (s : State) (l pa : Nat) (big : Bool) (a : Nat) : Prop :=
  bitOf l 54 = true ∧ ((pa ≤ a ∧ a < pa + 8) ∨ ∃ f ∈ s.leafFrames l, f ≤ a ∧ a < f + pageBytes big)

section
variable {hot new : HomeEntry → Prop} (s : State) (asid va l pa : Nat) (big : Bool)

theorem zeroFill_translates : Translates hot new s (s.zeroFill l pa big).1 := by
  unfold State.zeroFill
  split
  · exact setMem_translates s _
  · exact .refl hot new s

theorem zeroFill_alters : s.mem.Alters (s.zeroFill l pa big).1.mem (s.fillBytes l pa big) := by
  unfold State.zeroFill
  split
  case isTrue zf =>
    refine .trans ((Memory.alters_foldl_zero _ _ _).mono ?_) ((Memory.alters_write _ _ _ _).mono ?_)
    · rintro a ⟨f, frame, inside⟩
      exact ⟨zf, .inr ⟨f, frame, inside⟩⟩
    · exact fun a inside => ⟨zf, .inl inside⟩
  case isFalse => exact .refl _ _

theorem newEntry_state : (s.newEntry asid va l pa big).1 = (s.zeroFill l pa big).1 := rfl

/-- The entry that a walk gives is of the address space, and of the page of the address at its size. -/
theorem newEntry_page : let e := (s.newEntry asid va l pa big).2
    e.asid = asid ∧ e.page = pageOf va big ∧ e.big = big ∧ e.leafPa = pa ∧ e.moving = false := ⟨rfl, rfl, rfl, rfl, rfl⟩

end

/-- A hint that is kept already, or for which there is room. -/
theorem keepHint_cases {s t : State} {first : Nat} {e : HomeEntry} (kept : s.keepHint first e = some t) :
    t = s.useHint first e ∨ e.site ≠ first ∧ ∃ u, s.makeRoom first e.page = some u ∧ t = u.useHint first e := by
  unfold State.keepHint at kept
  split at kept
  · exact .inl (Option.some.inj kept).symm
  case isFalse other =>
    simp only [Bool.or_eq_true, decide_eq_true_eq, not_or] at other
    obtain ⟨u, room, rfl⟩ := Option.map_eq_some_iff.1 kept
    exact .inr ⟨other.1, u, room, rfl⟩

theorem keepHint_translates {hot new : HomeEntry → Prop} (hotPage : OfPage hot) (newPage : OfPage new) {s t : State} {first : Nat} {e : HomeEntry}
    (kept : s.keepHint first e = some t) : Translates hot new s t := by
  obtain rfl | ⟨-, u, room, rfl⟩ := keepHint_cases kept
  · exact useHint_translates s first e
  · exact (makeRoom_translates room).trans hotPage newPage (useHint_translates u first e)

/-- Only where the page is another site's may an entry leave for the hint. -/
theorem keepHint_alters {s t : State} {first : Nat} {e : HomeEntry} (kept : s.keepHint first e = some t) :
    s.mem.Alters t.mem (fun a => e.site ≠ first ∧ ∃ o ∈ (s.site first).home.cache, o.hotBytes a) := by
  obtain rfl | ⟨other, u, room, rfl⟩ := keepHint_cases kept
  · exact .of_eq (mem_useHint s first e) _
  · rw [mem_useHint]
    exact (makeRoom_alters room).mono fun a inside => ⟨other, inside⟩

/-- The state in which a walk's entry has joined its home. -/
def State.withEntry (s : State) (e : HomeEntry) : State := s.modHome e.site (fun h => { h with cache := e :: h.cache, clock := h.clock + 1 })

theorem withEntry_translates {hot new : HomeEntry → Prop} (s : State) {e : HomeEntry} (fresh : new e) : Translates hot new s (s.withEntry e) := by
  refine modHome_translates s _ (fun _ => rfl) fun o ho => ?_
  obtain rfl | old := List.mem_cons.1 ho
  · exact .inr fresh
  · exact .inl ⟨o, old, .refl hot o⟩

/-- How the home finds the entry of a page: known to the first home; cached at the owner; or brought in by a walk (R307, R312). -/
inductive HomeFinds (s : State) (asid va : Nat) : State → HomeEntry → Nat → Prop where
  | known {e : HomeEntry} (known : s.known asid va = some e) : HomeFinds s asid va ((s.useEntry e).useHint (homeOf va false) e) e 0
  | owner {s0 t : State} {e : HomeEntry} {l pa level : Nat} {big : Bool} (unknown : s.known asid va = none)
      (walk : s.homeWalk (homeOf va false) asid va = (s0, .leaf l pa big level)) (cached : s0.cached asid va = some e) (size : e.big = big)
      (kept : (s0.useEntry e).keepHint (homeOf va false) e = some t) : HomeFinds s asid va t e 0
  | walk {s0 u t : State} {l pa level : Nat} {big : Bool} (unknown : s.known asid va = none)
      (walk : s.homeWalk (homeOf va false) asid va = (s0, .leaf l pa big level)) (room : s0.makeRoom (homeOf va big) (pageOf va big) = some u)
      (kept : ((u.zeroFill l pa big).1.withEntry (u.newEntry asid va l pa big).2).keepHint (homeOf va false) (u.newEntry asid va l pa big).2 = some t) :
      HomeFinds s asid va t (u.newEntry asid va l pa big).2 level

theorem homeEntry_finds {s t : State} {asid va level : Nat} {e : HomeEntry} (found : s.homeEntry asid va = .ok (t, e, level)) :
    HomeFinds s asid va t e level := by
  unfold State.homeEntry at found
  dsimp only at found
  split at found
  case h_1 known =>
    cases found
    exact .known known
  case h_2 unknown =>
    split at found
    case h_1 => contradiction
    case h_2 s0 l pa big lv walk =>
      split at found
      case h_1 => contradiction
      case h_2 s1 d lv1 got =>
        split at found
        case h_1 => contradiction
        case h_2 s2 kept =>
          cases found
          split at got
          case h_1 cached =>
            cases got
            obtain ⟨cached, size⟩ := Option.filter_eq_some_iff.1 cached
            exact .owner unknown walk cached (eq_of_beq size) kept
          case h_2 =>
            obtain ⟨⟨v, f⟩, brought, same⟩ := Option.map_eq_some_iff.1 got
            cases same
            obtain ⟨u, room, same⟩ := Option.map_eq_some_iff.1 brought
            cases same
            exact .walk unknown walk room kept

end Sys2Proof.Machine
end

section
/-! The frame of an access as a whole (R239, R243, R306 to R316). The statement O19. -/

namespace Sys2Proof.Machine

/-- The entries that keep their hotness record: all of them. -/
def NoEntry : HomeEntry → Prop := fun _ => False

/-- An entry of the page of an address, at either size, in an address space. -/
def EntryOf (asid va : Nat) (e : HomeEntry) : Prop := e.asid = asid ∧ e.page = pageOf va e.big

theorem ofPage_noEntry : OfPage NoEntry := fun _ _ _ _ _ => id

theorem ofPage_entryOf (asid va : Nat) : OfPage (EntryOf asid va) := fun _ _ hasid hpage hbig h => by
  rw [EntryOf, ← hasid, ← hpage, ← hbig]
  exact h

/-- The hotness record of an entry of home i lies at these bytes. -/
def State.homeHot (s : State) (i a : Nat) : Prop := ∃ o ∈ (s.site i).home.cache, o.hotBytes a

/-- What leaves a home that only held entries of s is a record of s. -/
theorem Translates.homeHot {hot : HomeEntry → Prop} {s t : State} (h : Translates hot NoEntry s t) {i a : Nat} (inside : t.homeHot i a) :
    s.homeHot i a := by
  obtain ⟨e, he, inside⟩ := inside
  obtain ⟨o, ho, same⟩ | fresh := h.cache i e he
  · exact ⟨o, ho, by rwa [HomeEntry.hotBytes, same.leafPa]⟩
  · exact fresh.elim

theorem State.homeHot_mayFill {s : State} {asid va i a : Nat} (inside : s.homeHot i a) : Spec.mayFill s asid va a := by
  obtain ⟨e, he, inside⟩ := inside
  exact .inr ⟨i, e, he, inside⟩

theorem HomeEntry.site_lt (e : HomeEntry) : e.site < 4 := by
  unfold HomeEntry.site homeOf
  split <;> exact Nat.mod_lt _ (by decide)

theorem homeOf_lt (va : Nat) (big : Bool) : homeOf va big < 4 := by
  unfold homeOf
  split <;> exact Nat.mod_lt _ (by decide)

/-- A walk's entry joins no other site's home. -/
theorem withEntry_homeHot {s : State} {e : HomeEntry} {i a : Nat} (hi : i < 4) (other : e.site ≠ i) :
    (s.withEntry e).homeHot i a ↔ s.homeHot i a := by
  have apart : i % 4 ≠ e.site % 4 := by
    rw [Nat.mod_eq_of_lt hi, Nat.mod_eq_of_lt e.site_lt]
    exact other.symm
  unfold State.homeHot State.withEntry State.modHome
  rw [State.site_modSite_ne s apart]

/-- The bytes that a walk's leaf makes zero-fill write are among those of the address. -/
theorem State.fillBytes_mayFill {s s0 u : State} {asid va l pa level : Nat} {big : Bool}
    (walk : s.homeWalk (homeOf va false) asid va = (s0, .leaf l pa big level)) (room : s0.makeRoom (homeOf va big) (pageOf va big) = some u ∨ u = s)
    {a : Nat} (inside : u.fillBytes l pa big a) : Spec.mayFill s asid va a := by
  obtain ⟨zf, leaf | ⟨f, frame, inside⟩⟩ := inside
  · exact .inl ⟨l, pa, big, level, by rw [walk], zf, .inl leaf⟩
  · exact .inl ⟨l, pa, big, level, by rw [walk], zf, .inr ⟨u, f, room.symm.imp id (by rw [walk]; exact id), frame, inside⟩⟩

section
variable {s t : State} {asid va level : Nat} {e : HomeEntry}

/-- Finding an entry keeps every entry's hotness, and may bring in one of the page. -/
theorem HomeFinds.translates (h : HomeFinds s asid va t e level) : Translates NoEntry (EntryOf asid va) s t := by
  have join {u v w : State} := @Translates.trans NoEntry (EntryOf asid va) u v w ofPage_noEntry (ofPage_entryOf asid va)
  cases h with
  | known known => exact join (useEntry_translates s e) (useHint_translates _ _ e)
  | @owner s0 _ _ l pa lv big unknown walk cached size kept =>
    have walked : Translates NoEntry (EntryOf asid va) s s0 := by
      have := homeWalk_translates (hot := NoEntry) (new := EntryOf asid va) s (homeOf va false) asid va
      rwa [walk] at this
    exact join (join walked (useEntry_translates s0 e)) (keepHint_translates ofPage_noEntry (ofPage_entryOf asid va) kept)
  | @walk s0 u _ l pa _ big unknown walk room kept =>
    have walked : Translates NoEntry (EntryOf asid va) s s0 := by
      have := homeWalk_translates (hot := NoEntry) (new := EntryOf asid va) s (homeOf va false) asid va
      rwa [walk] at this
    obtain ⟨hasid, hpage, hbig, -, -⟩ := newEntry_page u asid va l pa big
    have fresh : EntryOf asid va (u.newEntry asid va l pa big).2 := ⟨hasid, by rw [hpage, hbig]⟩
    have filled := join (join walked (makeRoom_translates room)) (zeroFill_translates u l pa big)
    exact join (join filled (withEntry_translates _ fresh)) (keepHint_translates ofPage_noEntry (ofPage_entryOf asid va) kept)

theorem HomeFinds.alters (h : HomeFinds s asid va t e level) : s.mem.Alters t.mem (Spec.mayFill s asid va) := by
  cases h with
  | known known => exact .of_eq (by simp) _
  | @owner s0 _ _ l pa lv big unknown walk cached size kept =>
    have walked : Translates NoEntry NoEntry s s0 := by
      have := homeWalk_translates (hot := NoEntry) (new := NoEntry) s (homeOf va false) asid va
      rwa [walk] at this
    have same : s0.mem = s.mem := by
      have := mem_homeWalk s (homeOf va false) asid va
      rwa [walk] at this
    have hint := keepHint_alters kept
    rw [mem_useEntry, same] at hint
    refine hint.mono ?_
    rintro a ⟨-, inside⟩
    exact State.homeHot_mayFill ((walked.trans ofPage_noEntry ofPage_noEntry (useEntry_translates s0 e)).homeHot inside)
  | @walk s0 u _ l pa _ big unknown walk room kept =>
    have walked : Translates NoEntry NoEntry s s0 := by
      have := homeWalk_translates (hot := NoEntry) (new := NoEntry) s (homeOf va false) asid va
      rwa [walk] at this
    have same : s0.mem = s.mem := by
      have := mem_homeWalk s (homeOf va false) asid va
      rwa [walk] at this
    have roomed : Translates NoEntry NoEntry s u := walked.trans ofPage_noEntry ofPage_noEntry (makeRoom_translates room)
    have filled : Translates NoEntry NoEntry s (u.zeroFill l pa big).1 :=
      roomed.trans ofPage_noEntry ofPage_noEntry (zeroFill_translates u l pa big)
    have out := makeRoom_alters room
    rw [same] at out
    refine (out.mono fun a inside => State.homeHot_mayFill (walked.homeHot inside)).trans ?_
    refine ((zeroFill_alters u l pa big).mono fun a inside => State.fillBytes_mayFill walk (.inl room) inside).trans ?_
    refine (keepHint_alters kept).mono ?_
    rintro a ⟨other, inside⟩
    exact State.homeHot_mayFill (filled.homeHot ((withEntry_homeHot (homeOf_lt va false) other).1 inside))

end

/-! ### The entry that serves an access, and what serving it uses -/

section
variable {s t : State} {w : Who} {va level : Nat} {e : HomeEntry}

/-- The home finds the entry, or, for the device, one is served from the walk itself. -/
theorem entryFor_cases (found : s.entryFor w va = .ok (t, e, level)) : HomeFinds s w.asid va t e level ∨
    ∃ s0 l pa big, s.homeWalk (homeOf va false) w.asid va = (s0, .leaf l pa big level) ∧ (t, e) = s0.newEntry w.asid va l pa big := by
  unfold State.entryFor at found
  split at found
  · split at found
    · unfold State.uncached at found
      split at found
      · contradiction
      case h_2 s0 l pa big lv walk =>
        cases found
        exact .inr ⟨s0, l, pa, big, walk, rfl⟩
    · contradiction
  · exact .inl (homeEntry_finds found)

theorem entryFor_translates (found : s.entryFor w va = .ok (t, e, level)) : Translates NoEntry (EntryOf w.asid va) s t := by
  obtain home | ⟨s0, l, pa, big, walk, new⟩ := entryFor_cases found
  · exact home.translates
  · cases new
    have walked := homeWalk_translates (hot := NoEntry) (new := EntryOf w.asid va) s (homeOf va false) w.asid va
    rw [walk] at walked
    exact walked.trans ofPage_noEntry (ofPage_entryOf w.asid va) (zeroFill_translates s0 l pa big)

theorem entryFor_alters (found : s.entryFor w va = .ok (t, e, level)) : s.mem.Alters t.mem (Spec.mayFill s w.asid va) := by
  obtain home | ⟨s0, l, pa, big, walk, new⟩ := entryFor_cases found
  · exact home.alters
  · cases new
    have same := mem_homeWalk s (homeOf va false) w.asid va
    rw [walk] at same
    have filled := zeroFill_alters s0 l pa big
    have frames : s0.fillBytes l pa big = s.fillBytes l pa big := by
      unfold State.fillBytes State.leafFrames State.replicas
      rw [same]
    rw [same, frames] at filled
    exact filled.mono fun a inside => State.fillBytes_mayFill walk (.inr rfl) inside

/-- The entry that a first home knows serves without a change of memory. -/
theorem entryFor_known {k : HomeEntry} (known : s.known w.asid va = some k) (found : s.entryFor w va = .ok (t, e, level)) :
    e = k ∧ t.mem = s.mem := by
  have home : s.homeEntry w.asid va = .ok ((s.useEntry k).useHint (homeOf va false) k, k, 0) := by
    unfold State.homeEntry
    simp only [known]
  unfold State.entryFor at found
  rw [home] at found
  cases found
  exact ⟨rfl, by simp⟩

/-- A host translation in use, and nothing else: a served access changes no more. -/
theorem hostPlace_ok {rep : Nat} {p : Place} (reached : s.hostPlace w rep va e level = .ok (t, p)) : ∃ a, t = s.useAts a := by
  have gone {port pg : Nat} {post : Bool → State} (h : State.hostPlace.go s w va e port pg post = .ok (t, p)) : ∃ a, t = s.useAts a := by
    unfold State.hostPlace.go at h
    dsimp only at h
    split at h
    case h_1 a _ =>
      split at h
      · cases h
        exact ⟨a, rfl⟩
      · split at h
        · split at h <;> contradiction
        · split at h <;> contradiction
    · split at h <;> contradiction
  unfold State.hostPlace at reached
  dsimp only at reached
  split at reached
  · contradiction
  · split at reached
    · split at reached
      · contradiction
      · exact gone reached
    · exact gone reached

theorem serve_ok {rep : Nat} {p : Place} (served : s.serve w rep va e level = .ok (t, p)) : t = s ∨ ∃ a, t = s.useAts a := by
  unfold State.serve at served
  dsimp only at served
  split at served
  · contradiction
  · split at served
    · contradiction
    split at served
    · exact .inr (hostPlace_ok served)
    split at served
    · contradiction
    split at served
    · contradiction
    split at served
    · contradiction
    · cases served
      exact .inl rfl

theorem serve_translates {hot new : HomeEntry → Prop} {rep : Nat} {p : Place} (served : s.serve w rep va e level = .ok (t, p)) :
    Translates hot new s t := by
  obtain rfl | ⟨a, rfl⟩ := serve_ok served
  · exact .refl hot new t
  · exact useAts_translates s a

theorem mem_serve {rep : Nat} {p : Place} (served : s.serve w rep va e level = .ok (t, p)) : t.mem = s.mem := by
  obtain rfl | ⟨a, rfl⟩ := serve_ok served
  · rfl
  · rfl

/-- The page of the address is served, or, in a window, the page of its buffer (R126, R311). -/
theorem translate_cases {p : Place} (reached : s.translate w va = .ok (t, p)) :
    ∃ s1 e level, s.entryFor w va = .ok (s1, e, level) ∧
      ((leafType e.leaf.toNat ≠ 4 ∧ s1.serve w va va e level = .ok (t, p)) ∨
       ∃ u, leafType e.leaf.toNat = 4 ∧ s1.windowAt w.asid va = some u ∧ ∃ s2 be lv q,
         s1.entryFor w (u.buffer va (w.need == .w || w.need == .rw)) = .ok (s2, be, lv) ∧
         s2.serve w va (u.buffer va (w.need == .w || w.need == .rw)) be lv = .ok (t, q) ∧ p = { q with win := true }) := by
  unfold State.translate at reached
  split at reached
  · contradiction
  case h_2 s1 e level found =>
    refine ⟨s1, e, level, found, ?_⟩
    dsimp only at reached
    split at reached
    case isTrue other => exact .inl ⟨other, reached⟩
    case isFalse window =>
      right
      split at reached
      · split at reached
        · contradiction
        · split at reached <;> contradiction
      case h_2 u inside =>
        split at reached
        · contradiction
        · split at reached
          · contradiction
          case h_2 s2 be lv found2 =>
            split at reached
            · contradiction
            case h_2 s3 q served =>
              cases reached
              exact ⟨u, not_not.1 window, inside, s2, be, lv, q, found2, served, rfl⟩

end

/-! ### The frame of a global access -/

/-- The bytes that an access may write besides its own effect: those of its address and, in a window, of its buffer. -/
def State.accessFills (s : State) (w : Who) (va a : Nat) : Prop :=
  Spec.mayFill s w.asid va a ∨ ∃ s1 e level u, s.entryFor w va = .ok (s1, e, level) ∧ leafType e.leaf.toNat = 4 ∧ s1.windowAt w.asid va = some u ∧
    Spec.mayFill s1 w.asid (u.buffer va (w.need == .w || w.need == .rw)) a

/-- An entry that an access may bring in: of the page of the address, or of a window's buffer. -/
def State.accessEntry (s : State) (w : Who) (va : Nat) (e : HomeEntry) : Prop :=
  e.asid = w.asid ∧ (e.page = pageOf va e.big ∨
    ∃ u x, u ∈ s.windows ∧ x = u.buffer va (w.need == .w || w.need == .rw) ∧ e.page = pageOf x e.big)

theorem ofPage_accessEntry (s : State) (w : Who) (va : Nat) : OfPage (s.accessEntry w va) := fun _ _ hasid hpage hbig h => by
  rw [State.accessEntry, ← hasid, ← hpage, ← hbig]
  exact h

section
variable {s t : State} {w : Who} {va : Nat} {p : Place}

theorem Translates.windows {hot new : HomeEntry → Prop} (h : Translates hot new s t) : t.windows = s.windows := (congrArg State.windows h.rest :)

theorem translate_translates (reached : s.translate w va = .ok (t, p)) : Translates NoEntry (s.accessEntry w va) s t := by
  have join {u v x : State} := @Translates.trans NoEntry (s.accessEntry w va) u v x ofPage_noEntry (ofPage_accessEntry s w va)
  obtain ⟨s1, e, level, found, ⟨-, served⟩ | ⟨u, -, inside, s2, be, lv, q, buffer, served, -⟩⟩ := translate_cases reached
  · exact join ((entryFor_translates found).mono (fun _ => id) fun e ⟨hasid, hpage⟩ => ⟨hasid, .inl hpage⟩) (serve_translates served)
  · have first := (entryFor_translates found).mono (hot' := NoEntry) (new' := s.accessEntry w va) (fun _ => id)
      fun e ⟨hasid, hpage⟩ => ⟨hasid, .inl hpage⟩
    have listed : u ∈ s.windows := (entryFor_translates found).windows ▸ List.mem_of_find?_eq_some inside
    refine join (join first ((entryFor_translates buffer).mono (fun _ => id) ?_)) (serve_translates served)
    exact fun e ⟨hasid, hpage⟩ => ⟨hasid, .inr ⟨u, _, listed, rfl, hpage⟩⟩

theorem translate_alters (reached : s.translate w va = .ok (t, p)) : s.mem.Alters t.mem (s.accessFills w va) := by
  obtain ⟨s1, e, level, found, ⟨-, served⟩ | ⟨u, window, inside, s2, be, lv, q, buffer, served, -⟩⟩ := translate_cases reached
  · rw [mem_serve served]
    exact (entryFor_alters found).mono fun a => .inl
  · rw [mem_serve served]
    refine ((entryFor_alters found).mono fun a => .inl).trans ((entryFor_alters buffer).mono fun a inside' => ?_)
    exact .inr ⟨s1, e, level, u, found, window, inside, inside'⟩

theorem translate_known {k : HomeEntry} (known : s.known w.asid va = some k) (plain : leafType k.leaf.toNat ≠ 4)
    (reached : s.translate w va = .ok (t, p)) : t.mem = s.mem := by
  obtain ⟨s1, e, level, found, ⟨-, served⟩ | ⟨u, window, -⟩⟩ := translate_cases reached
  · rw [mem_serve served, (entryFor_known known found).2]
  · rw [(entryFor_known known found).1] at window
    exact absurd window plain

/-- What is not stopped before it goes on. -/
theorem ok_of_unless {ε α : Type} {c : Prop} [Decidable c] {e : ε} {x : Except ε α} {y : α} (h : (if c then .error e else x) = .ok y) : x = .ok y := by
  split at h
  · contradiction
  · exact h

/-- A global access hits in L1, or goes on from its translation with a count in the hotness record of its page; then only caches of lines
change. -/
theorem globalAccess_cases {size : Nat} (reached : s.globalAccess w va size = .ok (t, p)) :
    OnlyCaches s t ∨ ∃ s1 q, s.translate w va = .ok (s1, q) ∧ p.page = q.page ∧ p.big = q.big ∧
      ∃ s2, (s2 = s1 ∨ s2 = s1.countHot w.asid { q with due := w.late && w.counts } 0 1) ∧ OnlyCaches s2 t := by
  unfold State.globalAccess at reached
  dsimp only at reached
  split at reached
  case h_1 c _ =>
    obtain ⟨rfl, -⟩ := Prod.mk.inj (Except.ok.inj (ok_of_unless reached))
    left
    split
    · exact State.storeHit_onlyCaches s _ _
    · exact .refl s
  case h_2 =>
    right
    split at reached
    · contradiction
    case h_2 s1 q reach =>
      replace reached := ok_of_unless reached
      generalize counts : (if w.counts && !w.late && !(w.need != Need.w && s1.badRange q.key size) then
        s1.countHot w.asid { q with due := w.late && w.counts } 0 1 else s1) = s2 at reached
      have counted : s2 = s1 ∨ s2 = s1.countHot w.asid { q with due := w.late && w.counts } 0 1 := by
        split at counts
        · exact .inr counts.symm
        · exact .inl counts.symm
      refine ⟨s1, q, reach, ?_⟩
      split at reached
      · split at reached
        · split at reached
          · cases reached
            exact ⟨rfl, rfl, s2, counted, State.fillInstr_onlyCaches _ _ _⟩
          · cases reached
            exact ⟨rfl, rfl, s2, counted, State.fillData_onlyCaches _ _ _ _⟩
        · obtain ⟨rfl, rfl⟩ := Prod.mk.inj (Except.ok.inj reached)
          refine ⟨rfl, rfl, _, counted, ?_⟩
          split
          · exact .refl _
          · exact State.performHome_onlyCaches _ _ _ _
      · cases reached
        exact ⟨rfl, rfl, _, counted, .refl _⟩

/-- The hotness of the page reached may differ. -/
def CountedAt (asid : Nat) (p : Place) (e : HomeEntry) : Prop := e.asid = asid ∧ e.page = p.page ∧ e.big = p.big

theorem ofPage_countedAt (asid : Nat) (p : Place) : OfPage (CountedAt asid p) := fun _ _ hasid hpage hbig h => by
  rw [CountedAt, ← hasid, ← hpage, ← hbig]
  exact h

/-- The whole frame: a translation, with the count of R316, and then only caches of lines. -/
theorem globalAccess_frame {size : Nat} (reached : s.globalAccess w va size = .ok (t, p)) :
    ∃ u, Translates (CountedAt w.asid p) (s.accessEntry w va) s u ∧ OnlyCaches u t ∧ s.mem.Alters u.mem (s.accessFills w va) ∧
      ∀ k, s.known w.asid va = some k → leafType k.leaf.toNat ≠ 4 → u.mem = s.mem := by
  obtain caches | ⟨s1, q, reach, page, big, s2, counted, caches⟩ := globalAccess_cases reached
  · exact ⟨s, .refl _ _ s, caches, .refl _ _, fun _ _ _ => rfl⟩
  · have same : s2.mem = s1.mem := by
      obtain rfl | rfl := counted
      · rfl
      · exact mem_countHot s1 _ _ _ _
    have count : Translates (CountedAt w.asid p) (s.accessEntry w va) s1 s2 := by
      obtain rfl | rfl := counted
      · exact .refl _ _ _
      · exact countHot_translates s1 w.asid _ 0 1 fun e hasid hpage hbig => ⟨hasid, hpage.trans page.symm, hbig.trans big.symm⟩
    refine ⟨s2, ?_, caches, ?_, fun k known plain => same.trans (translate_known known plain reach)⟩
    · exact ((translate_translates reach).mono (fun _ => False.elim) fun _ => id).trans (ofPage_countedAt _ _) (ofPage_accessEntry s w va) count
    · rw [same]
      exact translate_alters reach

end

/-- R239, R243, R306 to R316: what an access changes besides its own effect. -/
theorem accessFrame_rule : Rule.AccessFrame := by
  intro s t w va size p reached write
  unfold State.access at reached
  split at reached
  case isTrue loc =>
    have same : t = s := by
      split at reached
      · contradiction
      · cases reached
        rfl
    subst same
    refine ⟨⟨rfl, fun _ => rfl⟩, fun _ => rfl, fun i e he => .inl ⟨e, he, rfl, .inl rfl⟩, fun a ha => ⟨a, ha, rfl⟩, ?_, fun _ => rfl, ?_⟩
    · exact fun a differs => absurd rfl differs
    · exact fun _ _ _ _ => rfl
  case isFalse glob =>
    obtain ⟨u, translates, caches, alters, known⟩ := globalAccess_frame reached
    obtain ⟨same, cores⟩ := id caches
    have sites : t.sites = u.sites := (congrArg State.sites same :)
    have site (i : Nat) : t.site i = u.site i := by rw [State.site, State.site, sites]
    have ats : t.ats = u.ats := (congrArg State.ats same :)
    have listed : u.cores = s.cores := (congrArg State.cores translates.rest :)
    have slices : u.l2 = s.l2 := (congrArg State.l2 translates.rest :)
    have core (c : Nat) : u.core c = s.core c := by rw [State.core, State.core, listed]
    refine ⟨⟨?_, fun c => ?_⟩, fun i => ?_, fun i e he => ?_, fun a ha => ?_, fun a differs => ?_, fun here => absurd here glob, fun k hk plain a => ?_⟩
    · have rest := translates.rest
      rw [listed, slices] at same
      rw [← same] at rest
      exact rest
    · rw [← core c]
      exact cores c
    · dsimp only
      rw [site i]
      exact translates.site i
    · rw [site i] at he
      exact translates.cache i e he
    · exact translates.ats a (ats ▸ ha)
    · rw [caches.mem] at differs
      exact alters a differs
    · rw [caches.mem, known k hk plain]

/-! ### The first access to a page with ZF (R310) -/

section
variable {s : State} {asid va l pa level : Nat}

/-- A home whose walk cache is empty walks from the root. -/
theorem homeWalk_of_root (walk : s.walk asid va = .leaf l pa false level) {i : Nat} (none : (s.site i).home.walks = []) :
    ∃ f : Home → List WalkPtr, s.homeWalk i asid va = (s.modHome i (fun h => { h with walks := f h }), .leaf l pa false level) := by
  have start : (s.site i).home.walkStart asid va = Option.none := by
    unfold Home.walkStart
    rw [none]
    rfl
  unfold State.walk at walk
  unfold State.homeWalk
  rw [start]
  split at walk
  · contradiction
  case h_2 sp bound =>
    dsimp only
    rw [walk]
    exact ⟨_, rfl⟩

/-- A change of the walk cache leaves what a home holds of entries and hints. -/
theorem home_walks (s : State) (i j : Nat) (f : Home → List WalkPtr) :
    let t := s.modHome i (fun h => { h with walks := f h })
    (t.site j).home.cache = (s.site j).home.cache ∧ (t.site j).home.hints = (s.site j).home.hints ∧ (t.site j).home.pins = (s.site j).home.pins := by
  dsimp only
  by_cases same : j % 4 = i % 4
  · have sites : ∀ v : State, v.site j = v.site i := fun v => by simp only [State.site, same]
    rw [sites, sites s, State.home_modHome_self]
    exact ⟨rfl, rfl, rfl⟩
  · rw [State.modHome, State.site_modSite_ne s same]
    exact ⟨rfl, rfl, rfl⟩

theorem cached_walks (s : State) (i : Nat) (f : Home → List WalkPtr) :
    (s.modHome i (fun h => { h with walks := f h })).cached asid va = s.cached asid va := by
  have caches (j : Nat) : ((s.modHome i (fun h => { h with walks := f h })).site j).home.cache = (s.site j).home.cache := (home_walks s i j f).1
  unfold State.cached
  simp only [caches]

/-- A set that holds fewer than its 16 entries has room. -/
theorem makeRoom_of_room {i page : Nat}
    (few : ((s.site i).home.cache.filter (fun e => homeSet e.page == homeSet page)).length +
      (s.ats.filter (fun a => homeSet a.page == homeSet page)).length +
      ((s.site i).home.hints.filter (fun z => homeSet z.page == homeSet page)).length < 16) : s.makeRoom i page = some s := by
  have fewer : (s.ats.filter (fun a => a.site == i % 4 && homeSet a.page == homeSet page)).length ≤
      (s.ats.filter (fun a => homeSet a.page == homeSet page)).length := by
    rw [← List.countP_eq_length_filter, ← List.countP_eq_length_filter]
    refine List.countP_mono_left fun a _ both => ?_
    exact (Bool.and_eq_true_iff.1 both).2
  unfold State.makeRoom
  dsimp only
  rw [if_pos (by omega)]

/-- The entry of a small page belongs to the home of the address. -/
theorem site_of_small {e : HomeEntry} (page : e.page = pageOf va false) (big : e.big = false) : e.site = homeOf va false := by
  unfold HomeEntry.site homeOf
  rw [page, big]
  simp only [pageOf, pageBytes, Bool.false_eq_true, if_false, bitsOf]
  omega

end

/-- The bytes of memory after zero-fill of a page of one frame: the frame is zero, and ZF clears in the leaf. -/
theorem zeroFill_bytes {m : Memory} {l pa : Nat} (long : l < 2 ^ 64) (apart : pa + 8 ≤ leafAddr l ∨ leafAddr l + 2 ^ 16 ≤ pa) :
    let m' := (m.zero (leafAddr l) (2 ^ 16)).write pa 8 (l - 2 ^ 54)
    (∀ j, j < 2 ^ 16 → m'.byte (leafAddr l + j) = 0) ∧ m'.read pa 8 = l - 2 ^ 54 ∧
      ∀ a, (a < leafAddr l ∨ leafAddr l + 2 ^ 16 ≤ a) → (a < pa ∨ pa + 8 ≤ a) → m'.byte a = m.byte a := by
  refine ⟨fun j hj => ?_, ?_, fun a frame leaf => ?_⟩
  · rw [Memory.byte_write, if_neg (by omega), Memory.byte_zero, if_pos (by omega)]
  · rw [Memory.read_write]
    exact Nat.mod_eq_of_lt (by omega)
  · rw [Memory.byte_write, if_neg (by omega), Memory.byte_zero, if_neg (by omega)]

/-- R310, R312, R315: zero-fill at the first access to a page. -/
theorem zeroFill_rule : Rule.ZeroFill := by
  intro s asid va l pa level uncached walk h mine walks few long zf single apart
  obtain ⟨f, walked⟩ := homeWalk_of_root walk walks
  obtain ⟨cache, hints, -⟩ := home_walks s (homeOf va false) (homeOf va false) f
  have missed : (s.modHome (homeOf va false) (fun h => { h with walks := f h })).cached asid va = none := by rw [cached_walks, uncached]
  generalize moved : s.modHome (homeOf va false) (fun h => { h with walks := f h }) = s0 at *
  have ats : s0.ats = s.ats := by
    rw [← moved]
    rfl
  have mem : s0.mem = s.mem := by
    rw [← moved]
    rfl
  have set (page : Nat) : mine page = (homeSet page == homeSet (pageOf va false)) := by
    simp only [mine, homeSet, pageOf, Bool.false_eq_true, if_false]
    rfl
  have room : s0.makeRoom (homeOf va false) (pageOf va false) = some s0 := by
    refine makeRoom_of_room ?_
    rw [cache, hints, ats]
    simp only [set] at few
    exact few
  obtain ⟨hasid, hpage, hbig, -, -⟩ := newEntry_page s0 asid va l pa false
  have site := site_of_small hpage hbig
  have unknown : s.known asid va = none := by
    unfold State.known
    rw [uncached]
    rfl
  have frames : s0.leafFrames l = [leafAddr l] := by rw [State.leafFrames, if_neg single]
  have filled : s0.zeroFill l pa false = ({ s0 with mem := (s0.mem.zero (leafAddr l) (2 ^ 16)).write pa 8 (l - 2 ^ 54) }, l - 2 ^ 54) := by
    unfold State.zeroFill
    rw [if_pos zf, frames]
    rfl
  refine ⟨(s0.zeroFill l pa false).1.withEntry (s0.newEntry asid va l pa false).2, (s0.newEntry asid va l pa false).2, ?_, ?_, ?_⟩
  · unfold State.homeEntry
    rw [unknown]
    dsimp only
    rw [walked]
    dsimp only
    rw [missed]
    dsimp only [Option.filter]
    unfold State.bringIn
    rw [room]
    dsimp only [Option.map]
    have kept (u : State) : u.keepHint (homeOf va false) (s0.newEntry asid va l pa false).2 = some u := by
      unfold State.keepHint State.useHint
      simp only [site, decide_true, Bool.true_or, if_true]
    rw [kept]
    rfl
  · have leaf : (s0.newEntry asid va l pa false).2.leaf = BitVec.ofNat 64 (s0.zeroFill l pa false).2 := rfl
    rw [leaf, filled, BitVec.toNat_ofNat]
    exact Nat.mod_eq_of_lt (by omega)
  · have memory : ((s0.zeroFill l pa false).1.withEntry (s0.newEntry asid va l pa false).2).mem =
        (s.mem.zero (leafAddr l) (2 ^ 16)).write pa 8 (l - 2 ^ 54) := by
      rw [filled, ← mem]
      rfl
    rw [memory]
    exact zeroFill_bytes long apart

end Sys2Proof.Machine

namespace Sys2Proof.Proofs

/-- Settles O19: the two rules together. -/
theorem accessFrame : Obligations.AccessFrame := ⟨Machine.accessFrame_rule, Machine.zeroFill_rule⟩

end Sys2Proof.Proofs
end

section
/-! Writes at a place (R107, R236, R242, R357) and the accesses of the scalar memory instructions (R105 to R118). The statements O20 to O25. -/

namespace Sys2Proof.Machine

/-! ### What only caches of lines leaves -/

section
variable {s t : State}

theorem OnlyCaches.cx (h : OnlyCaches s t) : t.cx = s.cx := by
  obtain ⟨same, cores⟩ := h
  have cur : t.cur = s.cur := (congrArg State.cur same :)
  have ctx : t.curCtx = s.curCtx := (congrArg State.curCtx same :)
  unfold State.cx State.me
  rw [cur, ctx, ← cores s.cur]
  rfl

theorem OnlyCaches.cxlDeadIn (h : OnlyCaches s t) (key n : Nat) : t.cxlDeadIn key n = s.cxlDeadIn key n := by
  have ports : t.ports = s.ports := (congrArg State.ports h.1 :)
  have dead : t.poolDead = s.poolDead := (congrArg State.poolDead h.1 :)
  unfold State.cxlDeadIn State.port
  rw [ports, dead]

/-- A dead byte makes its range dead. -/
theorem cxlDeadIn_of_first {key n : Nat} (long : 0 < n) (dead : s.cxlDead key = true) : s.cxlDeadIn key n = true := by
  unfold State.cxlDead State.cxlDeadIn at dead
  unfold State.cxlDeadIn
  simp only [Bool.and_eq_true, Bool.or_eq_true, List.any_eq_true, decide_eq_true_eq] at dead ⊢
  obtain ⟨range, port | ⟨r, listed, before, after⟩⟩ := dead
  · exact ⟨range, .inl port⟩
  · exact ⟨range, .inr ⟨r, listed, before, by omega⟩⟩

theorem writeAlive_dead {key : Nat} {bs : List Byte} (dead : ∀ j, j < bs.length → s.cxlDead (key + j) = true) : s.writeAlive key bs = s := by
  induction bs generalizing key with
  | nil => rfl
  | cons b bs ih =>
    have first := dead 0 (by simp)
    rw [Nat.add_zero] at first
    rw [State.writeAlive, if_pos first]
    refine ih fun j inside => ?_
    rw [Nat.add_right_comm]
    exact dead (j + 1) (by simpa using inside)

theorem writeAlive_mem (s : State) (key : Nat) (bs : List Byte) : ∃ m, s.writeAlive key bs = { s with mem := m } := by
  induction bs generalizing s key with
  | nil => exact ⟨s.mem, rfl⟩
  | cons b bs ih =>
    rw [State.writeAlive]
    split
    · exact ih s (key + 1)
    · exact ih { s with mem := s.mem.writeBytes key [b] } (key + 1)

/-- Caches hold no bytes of their own (log 7). -/
theorem OnlyCaches.withMem (h : OnlyCaches s t) (m : Memory) (tags : List (Nat × Nat)) :
    OnlyCaches { s with mem := m, siteTags := tags } { t with mem := m, siteTags := tags } :=
  ⟨congrArg (fun u : State => { u with mem := m, siteTags := tags }) h.1, h.2⟩

/-! ### A write at a place -/

/-- The blocks that a write takes over: none where the place is no site scratchpad's. -/
def State.claimFor (s : State) (asid : Nat) (p : Place) (n : Nat) : State :=
  match p.siteOff with
  | some (t, o) => (s.claimBlock asid t (o / 0x1_0000)).claimBlock asid t ((o + n - 1) / 0x1_0000)
  | none => s

/-- A write at a place claims its blocks, may change caches, and writes the bytes, those that are alive where some are not. -/
theorem placeWrite_cases (s : State) (asid : Nat) (p : Place) (bs : List Byte) :
    ∃ c, OnlyCaches (s.claimFor asid p bs.length) c ∧
      ((c.cxlDeadIn p.key bs.length = true ∧ s.placeWrite asid p bs = c.writeAlive p.key bs) ∨
       (c.cxlDeadIn p.key bs.length = false ∧ s.placeWrite asid p bs = { c with mem := c.mem.writeBytes p.key bs })) := by
  let claimed := s.claimFor asid p bs.length
  refine ⟨if p.typ = 8 || p.typ = 1 || p.inL1 then claimed else claimed.performHome p.key bs.length true, ?_, ?_⟩
  · split
    · exact .refl _
    · exact State.performHome_onlyCaches _ _ _ _
  · by_cases dead : State.cxlDeadIn (if p.typ = 8 || p.typ = 1 || p.inL1 then claimed else claimed.performHome p.key bs.length true) p.key bs.length = true
    · refine .inl ⟨dead, ?_⟩
      exact (if_pos dead :)
    · refine .inr ⟨Bool.eq_false_iff.2 dead, ?_⟩
      exact (if_neg dead :)

theorem claimBlock_tags (s : State) (asid t b : Nat) : ∃ m tags, s.claimBlock asid t b = { s with mem := m, siteTags := tags } := by
  unfold State.claimBlock
  split
  · exact ⟨s.mem, s.siteTags, rfl⟩
  · exact ⟨_, _, rfl⟩

theorem claimFor_tags (s : State) (asid : Nat) (p : Place) (n : Nat) : ∃ m tags, s.claimFor asid p n = { s with mem := m, siteTags := tags } := by
  unfold State.claimFor
  split
  case h_1 t o _ =>
    obtain ⟨m, tags, first⟩ := claimBlock_tags s asid t (o / 0x1_0000)
    rw [first]
    exact claimBlock_tags { s with mem := m, siteTags := tags } asid t ((o + n - 1) / 0x1_0000)
  · exact ⟨s.mem, s.siteTags, rfl⟩

/-- Writing at a place changes caches, memory and the tags of site scratchpads. -/
theorem placeWrite_frame (s : State) (asid : Nat) (p : Place) (bs : List Byte) :
    OnlyCaches s { s.placeWrite asid p bs with mem := s.mem, siteTags := s.siteTags } := by
  obtain ⟨c, caches, written⟩ := placeWrite_cases s asid p bs
  obtain ⟨m, tags, claimed⟩ := claimFor_tags s asid p bs.length
  rw [claimed] at caches
  have frame := caches.withMem s.mem s.siteTags
  obtain ⟨-, same⟩ | ⟨-, same⟩ := written
  · obtain ⟨m', alive⟩ := writeAlive_mem c p.key bs
    rw [same, alive]
    exact frame
  · rw [same]
    exact frame

theorem placeWrite_cx (s : State) (asid : Nat) (p : Place) (bs : List Byte) : (s.placeWrite asid p bs).cx = s.cx :=
  (placeWrite_frame s asid p bs).cx

/-! ### The rule of writes at a place -/

/-- Writing bytes puts them there and leaves the others. -/
theorem Memory.writeBytes_bytes (m : Memory) (k : Nat) (bs : List Byte) :
    (∀ j, j < bs.length → (m.writeBytes k bs).byte (k + j) = bs.getD j 0) ∧
      ∀ a, (a < k ∨ k + bs.length ≤ a) → (m.writeBytes k bs).byte a = m.byte a := by
  refine ⟨fun j inside => ?_, fun a outside => ?_⟩
  · rw [Memory.byte_writeBytes, if_pos (by omega), Nat.add_sub_cancel_left]
  · rw [Memory.byte_writeBytes, if_neg (by omega)]

/-- A write at a place that is no site scratchpad's, of a range that is alive. -/
theorem placeWrite_alive {s : State} {p : Place} {bs : List Byte} (asid : Nat) (plain : p.siteOff = none)
    (alive : s.cxlDeadIn p.key bs.length = false) : (s.placeWrite asid p bs).mem = s.mem.writeBytes p.key bs ∧
      OnlyCaches s { s.placeWrite asid p bs with mem := s.mem } := by
  obtain ⟨c, caches, written⟩ := placeWrite_cases s asid p bs
  have claimed : s.claimFor asid p bs.length = s := by
    unfold State.claimFor
    rw [plain]
  rw [claimed] at caches
  obtain ⟨dead, -⟩ | ⟨-, same⟩ := written
  · rw [caches.cxlDeadIn, alive] at dead
    contradiction
  · rw [same]
    exact ⟨by rw [caches.mem], congrArg (fun u : State => { u with mem := s.mem }) caches.1, caches.2⟩

/-- A write to a range that is dead at every byte. -/
theorem placeWrite_dead {s : State} {p : Place} {bs : List Byte} (asid : Nat) (plain : p.siteOff = none)
    (dead : ∀ j, j < bs.length → s.cxlDead (p.key + j) = true) : SameBytes s (s.placeWrite asid p bs) := by
  intro a
  obtain ⟨c, caches, written⟩ := placeWrite_cases s asid p bs
  have claimed : s.claimFor asid p bs.length = s := by
    unfold State.claimFor
    rw [plain]
  rw [claimed] at caches
  obtain ⟨-, same⟩ | ⟨alive, same⟩ := written
  · rw [same, writeAlive_dead fun j inside => ?_, caches.mem]
    rw [State.cxlDead, caches.cxlDeadIn]
    exact dead j inside
  · have empty : bs = [] := by
      by_contra some
      have long : 0 < bs.length := List.length_pos_iff.2 some
      have first := dead 0 long
      rw [Nat.add_zero] at first
      rw [caches.cxlDeadIn, cxlDeadIn_of_first long first] at alive
      contradiction
    rw [same, empty, ← caches.mem]
    exact (Memory.byte_writeBytes c.mem p.key [] a).trans (if_neg (by simp only [List.length_nil]; omega))

/-- Local memory is no part of the pool. -/
theorem cxlDeadIn_local (s : State) {key : Nat} (n : Nat) (high : 2 ^ 47 ≤ key) : s.cxlDeadIn key n = false := by
  unfold State.cxlDeadIn
  rw [decide_eq_false (Nat.not_lt.2 high)]
  simp

theorem tag_claimBlock (s : State) (asid t b : Nat) : (s.claimBlock asid t b).tag t b = asid := by
  unfold State.claimBlock
  split
  case isTrue mine => exact mine
  case isFalse => simp only [State.tag, kvGet_set_self, Option.getD_some]

/-- A write within one block of a site scratchpad: the block is taken over, and the bytes are written. -/
theorem placeWrite_site {s : State} {p : Place} {bs : List Byte} {site o : Nat} (asid : Nat) (place : p.siteOff = some (site, o))
    (key : p.key = (Loc.site site o).key) (some : bs ≠ []) (block : o % 2 ^ 16 + bs.length ≤ 2 ^ 16) :
    (s.placeWrite asid p bs).mem = (s.claimBlock asid site (o / 2 ^ 16)).mem.writeBytes p.key bs ∧
      (s.placeWrite asid p bs).siteTags = (s.claimBlock asid site (o / 2 ^ 16)).siteTags := by
  have long : 0 < bs.length := List.length_pos_iff.2 some
  have last : (o + bs.length - 1) / 2 ^ 16 = o / 2 ^ 16 := by omega
  have claimed : s.claimFor asid p bs.length = s.claimBlock asid site (o / 2 ^ 16) := by
    unfold State.claimFor
    rw [place]
    dsimp only
    rw [show (0x1_0000 : Nat) = 2 ^ 16 from rfl, last, State.claimBlock, if_pos (tag_claimBlock s asid site (o / 2 ^ 16))]
  obtain ⟨c, caches, written⟩ := placeWrite_cases s asid p bs
  rw [claimed] at caches
  have high : 2 ^ 47 ≤ p.key := by
    rw [key, Loc.key]
    omega
  obtain ⟨dead, -⟩ | ⟨-, same⟩ := written
  · rw [cxlDeadIn_local c _ high] at dead
    contradiction
  · rw [same]
    exact ⟨by rw [caches.mem], (congrArg State.siteTags caches.1 :)⟩

/-- The memory of a block taken over: zeroed where another owned it. -/
theorem mem_claimBlock (s : State) (asid t b : Nat) : (s.claimBlock asid t b).mem =
    if s.tag t b = asid then s.mem else s.mem.zero (Loc.site t (b * 2 ^ 16)).key (2 ^ 16) := by
  unfold State.claimBlock
  split <;> rfl

/-- R107, R236, R357: writes at a place. -/
theorem placeWrite_rule : Rule.PlaceWrite := by
  intro s asid p bs t
  refine ⟨fun plain alive => ?_, fun site o place key inside some hsite block => ?_, placeWrite_dead asid⟩
  · obtain ⟨mem, frame⟩ := placeWrite_alive asid plain alive
    obtain ⟨there, elsewhere⟩ := s.mem.writeBytes_bytes p.key bs
    rw [← mem] at there elsewhere
    exact ⟨there, elsewhere, frame⟩
  · obtain ⟨mem, tags⟩ := placeWrite_site (s := s) asid place key some block
    obtain ⟨there, elsewhere⟩ := (s.claimBlock asid site (o / 2 ^ 16)).mem.writeBytes_bytes p.key bs
    rw [← mem] at there elsewhere
    have memory := mem_claimBlock s asid site (o / 2 ^ 16)
    refine ⟨there, ?_, placeWrite_frame s asid p bs, fun mine => ?_, fun other => ⟨fun a outside => ?_, fun a low high outside => ?_⟩⟩
    · have tag := tag_claimBlock s asid site (o / 2 ^ 16)
      unfold State.tag at tag ⊢
      rwa [tags]
    · rw [memory, if_pos mine] at elsewhere
      exact elsewhere
    · rw [elsewhere a (by rw [key, Loc.key]; rw [Loc.key] at outside; omega), memory, if_neg other, Memory.byte_zero,
        if_neg (by omega)]
    · rw [elsewhere a outside, memory, if_neg other, Memory.byte_zero, if_pos ⟨low, high⟩]

end
end Sys2Proof.Machine
end

section
/-! Loads, stores and atomics (R105 to R116). The statements O20 to O22. -/

namespace Sys2Proof.Machine

/-! ### Addresses and their checks (R106) -/

section
variable {s : State} {kind : AKind} {ea : Int} {size : Nat}

theorem eaM_eq_ea (s : State) (a : BitVec 5) (imm : BitVec 20) : s.eaM a imm = Spec.ea s a imm := by
  rw [State.eaM, Spec.ea, State.addr, BitVec.toNat_setWidth]

theorem addr_eq_setWidth (s : State) (a : BitVec 5) : s.addr a = ((s.getX a).setWidth 56).toNat := by
  rw [State.addr, BitVec.toNat_setWidth]

theorem checkAddr_ok (aligned : ea % size = 0) (low : 0 ≤ ea) (high : ea < 2 ^ 56) : checkAddr kind ea size = .ok ea.toNat := by
  rw [checkAddr, checkAlign, if_pos aligned]
  exact if_pos ⟨low, high⟩

theorem checkAddr_align (odd : ea % size ≠ 0) :
    checkAddr kind ea size = .error (.trap { cause := .align, saddr := wrapAddr ea, sinfo := kind.code * 16 + sizeLog size }) := by
  rw [checkAddr, checkAlign, if_neg odd]

theorem checkAddr_range (aligned : ea % size = 0) (out : ea < 0 ∨ 2 ^ 56 ≤ ea) :
    checkAddr kind ea size = .error (.trap { cause := .addrovf, saddr := wrapAddr ea, sinfo := kind.code * 16 }) := by
  rw [checkAddr, checkAlign, if_pos aligned]
  exact if_neg (by omega)

theorem deviceLoad_plain {va : Nat} (plain : Spec.plain s va) : s.deviceLoad va = none := by
  unfold State.deviceLoad
  split
  · rfl
  case isFalse priv =>
    obtain low | ⟨-, -, health, node, table, group⟩ := plain
    · simp [low] at priv
    · rw [if_neg health, if_neg node, if_neg (by omega), State.groupWord, if_neg (by omega)]
      rfl

theorem deviceStore_plain {va : Nat} (v : Nat) (plain : Spec.plain s va) : s.deviceStore va v = none := by
  unfold State.deviceStore
  split
  · rfl
  case isFalse priv =>
    obtain low | ⟨move, heap, health, node, table, group⟩ := plain
    · simp [low] at priv
    · rw [if_neg (by simpa using move), if_neg (by simpa using heap), if_neg health, if_neg node, if_neg (by omega), State.groupWord, if_neg (by omega)]
      rfl

end

/-! ### The shape of a scalar access: the wait for older ones, the checks of its address, then what it does there -/

/-- An access of the M layout whose own effect at its address is k. -/
def checked (kind : AKind) (o : LM) (size : Nat) (release : Bool) (k : Nat → State → Except Stop State) (s : State) : Except Stop State := do
  orderWait o.oc release [(s.eaM o.a o.imm, size)] s
  let va ← checkAddr kind (s.eaM o.a o.imm) size
  k va s

/-- What a load does at its address. -/
def loadFrom (o : LM) (size : Nat) (ext : Nat → Word) (va : Nat) (s : State) : Except Stop State :=
  match if size = 8 then s.deviceLoad va else none with
  | some v => .ok (s.retX o.d (ext v))
  | none => do
    let (s1, _, v) ← s.loadAt .load .r va size
    return s1.retX o.d (ext v)

/-- What a store does at its address: MSTD writes every copy of a replicated page. -/
def storeTo (o : LM) (size : Nat) (multi : Bool) (va : Nat) (s : State) : Except Stop State :=
  match if size = 8 then s.deviceStore va (s.getX o.d).toNat else none with
  | some s1 => (s.whole s1).map (·.advance)
  | none => do
    let (s1, p) ← s.access { s.who .store .w with mstd := multi } va size
    if multi = true ∧ p.typ = 2 then return (s1.writeCopies s.cx.as p (toBytes size (s.getX o.d).toNat)).advance
    else return (s1.placeWrite s.cx.as p (toBytes size (s.getX o.d).toNat)).advance

theorem loadM_eq_checked (o : LM) (size : Nat) (ext : Nat → Word) : loadM o size ext = checked .load o size false (loadFrom o size ext) := by
  funext s
  unfold loadM checked loadFrom
  rfl

theorem storeM_eq_checked (o : LM) (size : Nat) (release : Bool) :
    storeM o size release = checked .store o size release (storeTo o size false) := by
  funext s
  unfold storeM checked storeTo
  simp only [Bool.false_eq_true, false_and, if_false] <;> rfl

theorem execMstd_eq_checked (o : LM) (s : State) : execMstd o s = run (.mstd o) s (checked .store o 8 false (storeTo o 8 true)) := by
  unfold execMstd checked storeTo
  simp only [true_and, if_true] <;> rfl

/-- The access waits for nothing and its address is in range: its own effect follows. -/
theorem checked_ok {kind : AKind} {o : LM} {size : Nat} {release : Bool} {k : Nat → State → Except Stop State} {s : State}
    (free : Spec.unordered s) (aligned : Spec.ea s o.a o.imm % size = 0) (low : 0 ≤ Spec.ea s o.a o.imm) (high : Spec.ea s o.a o.imm < 2 ^ 56) :
    checked kind o size release k s = k (Spec.ea s o.a o.imm).toNat s := by
  unfold checked
  rw [orderWait_ok_of_unordered free, eaM_eq_ea, checkAddr_ok aligned low high]
  rfl

/-- An address that fails one of its checks. -/
theorem checked_error {kind : AKind} {o : LM} {size : Nat} {release : Bool} {k : Nat → State → Except Stop State} {s : State} {x : Stop}
    (free : Spec.unordered s) (fails : checkAddr kind (Spec.ea s o.a o.imm) size = .error x) : checked kind o size release k s = .error x := by
  unfold checked
  rw [orderWait_ok_of_unordered free, eaM_eq_ea, fails]
  rfl

/-! ### Which access each instruction makes (R109, R112, R113) -/

/-- The sizes of scalar accesses. -/
def scalarSize (size : Nat) : Prop := size = 1 ∨ size = 2 ∨ size = 4 ∨ size = 8

theorem sInt_ofNat (w v : Nat) : sInt w v = (BitVec.ofNat w v).toInt := by
  have whole := sInt_eq_toInt (w := w) (BitVec.ofNat w v)
  rw [BitVec.setWidth_eq] at whole
  rw [← whole, sInt, sInt, BitVec.toNat_ofNat, Nat.mod_mod]

theorem sextBytes_eq_signExtend (size v : Nat) : sextBytes size v = (BitVec.ofNat (8 * size) v).signExtend 64 := by
  rw [sextBytes, sInt_ofNat, BitVec.signExtend]

theorem zextBytes_eq_setWidth {w v : Nat} (small : v < 2 ^ w) : zextBytes v = (BitVec.ofNat w v).setWidth 64 := by
  refine BitVec.eq_of_toNat_eq ?_
  rw [zextBytes, BitVec.toNat_setWidth, BitVec.toNat_ofNat, BitVec.toNat_ofNat, Nat.mod_eq_of_lt small]

theorem load_checked {i : Instr} {o : LM} {size : Nat} {ext : Nat → Word} (load : Spec.load i = some (o, size, ext)) :
    scalarSize size ∧ ∃ e, (∀ v < 2 ^ (8 * size), e v = ext v) ∧ ∀ s, exec i s = run i s (checked .load o size false (loadFrom o size e)) := by
  unfold Spec.load at load
  split at load
  case h_10 => contradiction
  all_goals cases load
  · exact ⟨.inl rfl, sextBytes 1, fun v _ => sextBytes_eq_signExtend 1 v, fun s => by rw [← loadM_eq_checked]; rfl⟩
  · exact ⟨.inl rfl, zextBytes, fun v small => zextBytes_eq_setWidth small, fun s => by rw [← loadM_eq_checked]; rfl⟩
  · exact ⟨.inr (.inl rfl), sextBytes 2, fun v _ => sextBytes_eq_signExtend 2 v, fun s => by rw [← loadM_eq_checked]; rfl⟩
  · exact ⟨.inr (.inl rfl), zextBytes, fun v small => zextBytes_eq_setWidth small, fun s => by rw [← loadM_eq_checked]; rfl⟩
  · exact ⟨.inr (.inr (.inl rfl)), sextBytes 4, fun v _ => sextBytes_eq_signExtend 4 v, fun s => by rw [← loadM_eq_checked]; rfl⟩
  · exact ⟨.inr (.inr (.inl rfl)), zextBytes, fun v small => zextBytes_eq_setWidth small, fun s => by rw [← loadM_eq_checked]; rfl⟩
  · exact ⟨.inr (.inr (.inr rfl)), zextBytes, fun v _ => rfl, fun s => by rw [← loadM_eq_checked]; rfl⟩
  · exact ⟨.inr (.inr (.inr rfl)), zextBytes, fun v _ => rfl, fun s => by rw [← loadM_eq_checked]; rfl⟩
  · exact ⟨.inr (.inr (.inl rfl)), zextBytes, fun v small => zextBytes_eq_setWidth small, fun s => by rw [← loadM_eq_checked]; rfl⟩

theorem store_checked {i : Instr} {o : LM} {size : Nat} {multi : Bool} (store : Spec.store i = some (o, size, multi)) :
    scalarSize size ∧ ∃ release, ∀ s, exec i s = run i s (checked .store o size release (storeTo o size multi)) := by
  unfold Spec.store at store
  split at store
  case h_8 => contradiction
  all_goals cases store
  · exact ⟨.inl rfl, false, fun s => by rw [← storeM_eq_checked]; rfl⟩
  · exact ⟨.inr (.inl rfl), false, fun s => by rw [← storeM_eq_checked]; rfl⟩
  · exact ⟨.inr (.inr (.inl rfl)), false, fun s => by rw [← storeM_eq_checked]; rfl⟩
  · exact ⟨.inr (.inr (.inr rfl)), false, fun s => by rw [← storeM_eq_checked]; rfl⟩
  · exact ⟨.inr (.inr (.inr rfl)), true, fun s => by rw [← storeM_eq_checked]; rfl⟩
  · exact ⟨.inr (.inr (.inl rfl)), true, fun s => by rw [← storeM_eq_checked]; rfl⟩
  · exact ⟨.inr (.inr (.inr rfl)), false, fun s => by rw [exec_mstd, execMstd_eq_checked]⟩

/-! ### What an access does at its address -/

section
variable {o : LM} {size : Nat} {va : Nat} {s t : State} {p : Place}

theorem placeRead_lt (s : State) (asid : Nat) (p : Place) (n : Nat) : s.placeRead asid p n < 2 ^ (8 * n) := by
  have length : (s.placeBytes asid p n).length = n := by
    unfold State.placeBytes
    split
    · simp [upTo]
    · exact Memory.length_bytes _ _ _
  have small := ofBytes_lt (s.placeBytes asid p n)
  rwa [length] at small

theorem loadAt_ok {kind : AKind} {need : Need} (reached : s.access (s.who kind need) va size = .ok (t, p))
    (clean : t.placePoisoned s.cx.as p size = false) : s.loadAt kind need va size = .ok (t, p, t.placeRead s.cx.as p size) := by
  unfold State.loadAt
  dsimp only
  rw [reached]
  have asid : (s.who kind need).asid = s.cx.as := rfl
  simp only [asid, clean, bind, Except.bind]
  rfl

theorem loadAt_poison {kind : AKind} {need : Need} (reached : s.access (s.who kind need) va size = .ok (t, p))
    (poison : t.placePoisoned s.cx.as p size = true) :
    s.loadAt kind need va size = .error (.trapIn (poisonTrap t (s.who kind need) p size va) t) := by
  unfold State.loadAt
  dsimp only
  rw [reached]
  have asid : (s.who kind need).asid = s.cx.as := rfl
  simp only [asid, poison, bind, Except.bind]
  rfl

theorem loadAt_error {kind : AKind} {need : Need} {x : Stop} (stopped : s.access (s.who kind need) va size = .error x) :
    s.loadAt kind need va size = .error x := by
  unfold State.loadAt
  dsimp only
  rw [stopped]
  rfl

/-- A load that meets no word of the device. -/
theorem loadFrom_memory {ext : Nat → Word} (plain : size = 8 → Spec.plain s va) :
    loadFrom o size ext va s = (s.loadAt .load .r va size).map (fun r => r.1.retX o.d (ext r.2.2)) := by
  have device : (if size = 8 then s.deviceLoad va else none) = none := by
    split
    case isTrue whole => exact deviceLoad_plain (plain whole)
    case isFalse => rfl
  unfold loadFrom
  rw [device]
  cases s.loadAt .load .r va size with
  | error x => rfl
  | ok r => rfl

/-- A store that meets no word of the device. -/
theorem storeTo_memory {multi : Bool} (plain : size = 8 → Spec.plain s va) :
    storeTo o size multi va s = (s.access { s.who .store .w with mstd := multi } va size).map (fun r =>
      (if multi = true ∧ r.2.typ = 2 then r.1.writeCopies s.cx.as r.2 (toBytes size (s.getX o.d).toNat)
       else r.1.placeWrite s.cx.as r.2 (toBytes size (s.getX o.d).toNat)).advance) := by
  have device : (if size = 8 then s.deviceStore va (s.getX o.d).toNat else none) = none := by
    split
    case isTrue whole => exact deviceStore_plain _ (plain whole)
    case isFalse => rfl
  unfold storeTo
  rw [device]
  cases s.access { s.who .store .w with mstd := multi } va size with
  | error x => rfl
  | ok r =>
    simp only [bind, Except.bind, Except.map]
    split <;> rfl

end

end Sys2Proof.Machine

namespace Sys2Proof.Machine

/-! ### Atomics (R114 to R116) -/

theorem amoOp_eq_amo (op w old b : Nat) : amoOp op w old b = Spec.amo op w old b := by
  unfold amoOp Spec.amo
  split
  case h_6 => simp [sInt_ofNat]
  case h_7 => simp [sInt_ofNat]
  case h_9 h0 h1 h2 h3 h4 h5 h6 h7 =>
    rw [if_neg h0, if_neg h1, if_neg h2, if_neg h3, if_neg h4, if_neg h5, if_neg h6, if_neg h7]
  all_goals rfl

/-- What an atomic writes is what the table of R115 and R116 says. -/
theorem atomic_runs {i : Instr} {o : LW} {f : Nat → Nat → Option Nat} {s : State} (atomic : Spec.atomic s i = some (o, f)) :
    exec i s = run i s (atomicW o f) := by
  unfold Spec.atomic at atomic
  split at atomic
  case h_1 o' =>
    cases atomic
    rw [exec_amo, execAmo]
    congr 2
    funext w old
    rw [amoOp_eq_amo, bitsOf_eq_extractLsb']
  case h_2 => cases atomic; rfl
  case h_3 => contradiction

theorem size_of_atomic (o : LW) : (if bitOf o.f.toNat 2 then 8 else 4) = Spec.atomicSize o := by
  rw [bitOf_eq_getLsbD]
  rfl

theorem sextBytes_atomic (o : LW) (v : Nat) : sextBytes (Spec.atomicSize o) v =
    if Spec.atomicSize o = 8 then BitVec.ofNat 64 v else (BitVec.ofNat 32 v).signExtend 64 := by
  rw [sextBytes_eq_signExtend]
  have sizes : Spec.atomicSize o = 8 ∨ Spec.atomicSize o = 4 := by
    unfold Spec.atomicSize
    split
    · exact .inl rfl
    · exact .inr rfl
  generalize Spec.atomicSize o = size at sizes
  obtain rfl | rfl := sizes
  · exact BitVec.signExtend_eq _
  · rfl

/-- The state that an atomic leaves at its place. -/
def atomicAt (f : Nat → Nat → Option Nat) (asid size : Nat) (p : Place) (t : State) : State :=
  match f (8 * size) (t.placeRead asid p size) with
  | some v => t.placeWrite asid p (toBytes size v)
  | none => t

theorem atomicW_ok {o : LW} {f : Nat → Nat → Option Nat} {s t : State} {p : Place} (free : Spec.unordered s)
    (aligned : s.addr o.a % Spec.atomicSize o = 0)
    (reached : s.access (s.who .atomic .rw) (s.addr o.a) (Spec.atomicSize o) = .ok (t, p))
    (clean : t.placePoisoned s.cx.as p (Spec.atomicSize o) = false) :
    atomicW o f s = .ok ((atomicAt f s.cx.as (Spec.atomicSize o) p t).retX o.d
      (sextBytes (Spec.atomicSize o) (t.placeRead s.cx.as p (Spec.atomicSize o)))) := by
  unfold atomicW
  dsimp only
  rw [size_of_atomic, orderWait_ok_of_unordered free,
    checkAddr_ok (by omega) (Int.natCast_nonneg _) (by have := Nat.mod_lt (s.getX o.a).toNat (Nat.two_pow_pos 56); rw [State.addr]; omega)]
  simp only [bind, Except.bind]
  rw [Int.toNat_natCast, loadAt_ok reached clean]
  rfl

theorem atomicAt_cx (f : Nat → Nat → Option Nat) (asid size : Nat) (p : Place) (t : State) : (atomicAt f asid size p t).cx = t.cx := by
  unfold atomicAt
  split
  · exact placeWrite_cx _ _ _ _
  · rfl

/-- A place of one copy holds what the atomic wrote, or what it read; no other byte changes. -/
theorem atomicAt_mem {f : Nat → Nat → Option Nat} {asid size : Nat} {p : Place} {t : State} (plain : p.siteOff = none)
    (alive : t.cxlDeadIn p.key size = false) :
    (atomicAt f asid size p t).mem.read p.key size = ((f (8 * size) (t.placeRead asid p size)).getD (t.placeRead asid p size)) % 2 ^ (8 * size) ∧
      SameBytesOutside t (atomicAt f asid size p t) p.key size := by
  unfold atomicAt
  split
  case h_1 v new =>
    have alive : t.cxlDeadIn p.key (toBytes size v).length = false := by rwa [length_toBytes]
    obtain ⟨mem, -⟩ := placeWrite_alive asid plain alive
    rw [new, SameBytesOutside, mem]
    refine ⟨Memory.read_write t.mem p.key size v, fun a outside => ?_⟩
    exact (t.mem.writeBytes_bytes p.key (toBytes size v)).2 a (by rwa [length_toBytes])
  case h_2 kept =>
    have read : t.placeRead asid p size = t.mem.read p.key size := by
      unfold State.placeRead State.placeBytes
      rw [plain]
      rfl
    rw [kept, Option.getD_none, read, Nat.mod_eq_of_lt (Memory.read_lt _ _ _)]
    exact ⟨rfl, fun a _ => rfl⟩

end Sys2Proof.Machine

namespace Sys2Proof.Proofs
open Machine

/-- Settles O20: the access completes and its value is extended. -/
theorem loadResult : Obligations.LoadResult := by
  intro i o size ext s t p load issues free ea low high aligned plain reached clean
  obtain ⟨-, e, extended, runs⟩ := load_checked load
  refine ⟨t.retX o.d (e (t.placeRead s.cx.as p size)), ?_, ?_⟩
  · rw [runs, run_ok issues]
    rw [checked_ok free aligned low high, loadFrom_memory plain, loadAt_ok reached clean]
    rfl
  · rw [extended _ (placeRead_lt t s.cx.as p size)]
    exact retX_returns t o.d _

/-- Settles O22: the old value goes to x[D], the new one to the place. -/
theorem atomicResult : Obligations.AtomicResult := by
  intro i o f s t p atomic issues free size va aligned reached clean old written
  have address : va = s.addr o.a := (addr_eq_setWidth s o.a).symm
  have done : written = atomicAt f s.cx.as size p t := by
    unfold written atomicAt
    simp only [toBytes_eq_bytes]
    rfl
  rw [address] at aligned reached
  refine ⟨written.retX o.d (sextBytes size old), ?_, ?_, fun plain alive => ?_⟩
  · rw [atomic_runs atomic, done]
    exact run_ok issues (atomicW_ok free aligned reached clean)
  · rw [sextBytes_atomic]
    exact retX_returns written o.d _
  · obtain ⟨read, outside⟩ := atomicAt_mem (f := f) (asid := s.cx.as) plain alive
    rw [← done] at read outside
    exact ⟨read, outside⟩

/-! ### MSTD where the configuration names no site -/

/-- A module whose configuration gives every compute die site 4, which no module has: a strand on core 0, the replicated page 4 at its home, and a
word behind the page's replica descriptor that is no frame. -/
def strayed : State :=
  { State.reset with
    cfg := { State.reset.cfg with places := .replicate 16 (4, 0) }
    cores := [(0, { Core.reset with uWork := .strand, u := ({ Ctx.reset with asid := 1, pc := 0x10000 }.setX 4 0x40000).setX 9 1 })]
    mem := ([(0x22000, 0x130000), (0x22008, 0x140000), (0x22010, 0x150000), (0x22018, 0x160000), (0x22020, 8)] : List (Nat × Nat)).foldl
      (fun m p => m.write p.1 8 p.2) { cells := [], poison := [] }
    sites := State.reset.sites.set 0 { Site.reset with home := { Site.reset.home with cache := [
      { asid := 1, page := 4, big := false, leaf := BitVec.ofNat 64 (2 ^ 63 + 2 ^ 62 + 2 * 2 ^ 59 + 6 * 2 ^ 56 + 0x22000), leafPa := 0x1C020, hot := 0, stamp := 0,
        moving := false }] } } }

/-- MSTD of x9 to the page that x4 names. -/
def strayedStore : LM := { d := 9, imm := 0, sc := 0, oc := 0, a := 4 }

/-- The store reaches the page, whose entry the home holds. -/
theorem strayed_reaches : (match strayed.access { strayed.who .store .w with mstd := true } 0x40000 8 with
    | .ok (t, p) => decide (p.typ = 2) && (t.cached strayed.cx.as 0x40000).any (fun e =>
        !e.big && decide (t.leafFrames e.leaf.toNat = [0x130000, 0x140000, 0x150000, 0x160000]))
    | .error _ => false) = true := by decide +kernel

/-- The value misses the first byte of the first copy by the 8 bytes that the word read as a frame is out of place. -/
theorem strayed_misses : (match exec (.mstd strayedStore) strayed with | .next u => decide (u.mem.byte 0x130000 = 0) | _ => true) = true := by
  decide +kernel

/-- Refutes O21: a module's configuration may name a site beyond 3 for a compute die, and then the place of a replicated page is read from behind its
replica descriptor; MSTD takes the offset in the page from that place, and misses the copies. -/
theorem not_storeResult : ¬ Obligations.StoreResult := by
  intro h
  have reaches := strayed_reaches
  split at reaches
  case h_2 => contradiction
  case h_1 t p reached =>
    simp only [Bool.and_eq_true, decide_eq_true_eq, Option.any_eq_true, Bool.not_eq_true'] at reaches
    obtain ⟨replicated, e, held, small, frames⟩ := reaches
    have issues : Issues (.mstd strayedStore) strayed := by decide +kernel
    have free : Spec.unordered strayed := ⟨by decide +kernel, fun o ho => absurd ho List.not_mem_nil⟩
    have address : Spec.ea strayed strayedStore.a strayedStore.imm = 0x40000 := by decide +kernel
    have value : strayed.getX strayedStore.d = 1 := by decide +kernel
    have stored := h (.mstd strayedStore) strayedStore 8 true strayed t p rfl issues free
    rw [address, value] at stored
    obtain ⟨u, ran, -, copies⟩ := stored (by decide) (by decide) (by decide) (fun _ => .inl (by decide +kernel)) reached
    obtain ⟨-, -, there, -⟩ := copies e rfl replicated held small (by rw [frames]; decide)
    have first := there 0x130000 (by rw [frames]; decide) 0 (by decide)
    have missed := strayed_misses
    rw [ran] at missed
    have zero := of_decide_eq_true missed
    rw [show (0x130000 + Int.toNat 0x40000 % 2 ^ 16 + 0 : Nat) = 0x130000 from rfl, zero] at first
    exact absurd first (by decide)

end Sys2Proof.Proofs
end

section
/-! The device's own words, the order of an access's checks, and fences and persistence (R106, R111, R117, R118, R320, R340, R356, R379). The
statements O23 to O25. -/

namespace Sys2Proof.Machine

/-! ### Words of the device (R320, R340, R358, R379, R397) -/

section
variable {o : LM} {va : Nat} {s : State}

theorem loadFrom_device {ext : Nat → Word} {v : Nat} (word : s.deviceLoad va = some v) : loadFrom o 8 ext va s = .ok (s.retX o.d (ext v)) := by
  unfold loadFrom
  rw [if_pos rfl, word]

theorem storeTo_device {multi : Bool} {t : State} (word : s.deviceStore va (s.getX o.d).toNat = some t) (open_ : t.blocked = false) :
    storeTo o 8 multi va s = .ok t.advance := by
  unfold storeTo
  rw [if_pos rfl, word]
  simp only [State.whole, open_]
  rfl

theorem deviceLoad_health (priv : s.cx.priv = true) : s.deviceLoad s.cfg.healthVa = some s.health := by
  unfold State.deviceLoad
  rw [priv]
  exact if_pos rfl

theorem deviceLoad_node (priv : s.cx.priv = true) (other : s.cfg.nodeVa ≠ s.cfg.healthVa) : s.deviceLoad s.cfg.nodeVa = some s.mgmt.node := by
  unfold State.deviceLoad
  rw [priv]
  exact (if_neg other).trans (if_pos rfl)

/-- A home that moves no page queues a request that finds room. -/
theorem postMove_queues {h asid block : Nat} (still : (s.site h).home.moving = none) (room : (s.site h).home.moves.length < 64) :
    s.postMove h asid block = s.modHome h (fun m => { m with moves := m.moves ++ [(asid, block)] }) := by
  have idle : s.pageBusy h asid block = false := by
    unfold State.pageBusy
    rw [still]
  unfold State.postMove
  rw [idle, if_pos room]
  rfl

theorem deviceStore_move {h v : Nat} (priv : s.cx.priv = true) (door : s.cfg.moveDoor[h]? = some va)
    (first : ∀ j, j < h → s.cfg.moveDoor[j]? ≠ some va) : s.deviceStore va v = some (s.postMove h s.cx.as (v % 2 ^ 56)) := by
  have listed : va ∈ s.cfg.moveDoor := List.mem_of_getElem? door
  have index : s.cfg.moveDoor.idxOf va = h := by
    have there : s.cfg.moveDoor[s.cfg.moveDoor.idxOf va]? = some va := by
      rw [List.getElem?_eq_getElem (List.idxOf_lt_length_of_mem listed), List.getElem_idxOf]
    have notBefore : ¬s.cfg.moveDoor.idxOf va < h := fun before => first _ before there
    obtain ⟨inside, value⟩ := List.getElem?_eq_some_iff.1 door
    have notAfter : ¬h < s.cfg.moveDoor.idxOf va := fun before => by
      have unlike := List.not_of_lt_findIdx before
      rw [value, beq_self_eq_true] at unlike
      contradiction
    omega
  unfold State.deviceStore
  rw [priv, index]
  exact if_pos (List.contains_iff_mem.2 listed)

theorem deviceStore_heap {v : Nat} (priv : s.cx.priv = true) (other : va ∉ s.cfg.moveDoor) (door : va ∈ s.cfg.heapDoor) :
    s.deviceStore va v = some (s.postHeap s.cx.as (v % 2 ^ 56)) := by
  unfold State.deviceStore
  rw [priv]
  exact (if_neg (mt List.contains_iff_mem.1 other)).trans (if_pos (List.contains_iff_mem.2 door))

theorem deviceStore_health {v : Nat} (priv : s.cx.priv = true) (move : s.cfg.healthVa ∉ s.cfg.moveDoor) (heap : s.cfg.healthVa ∉ s.cfg.heapDoor) :
    s.deviceStore s.cfg.healthVa v = some s := by
  unfold State.deviceStore
  rw [priv]
  exact (if_neg (mt List.contains_iff_mem.1 move)).trans ((if_neg (mt List.contains_iff_mem.1 heap)).trans (if_pos rfl))

end

/-- R320, R340, R358, R379, R397: the device's own words. -/
theorem deviceWords_rule : Rule.DeviceWords := by
  intro s o priv open_ free ea block low high aligned
  have loads {v : Nat} (word : s.deviceLoad ea.toNat = some v) (issues : Issues (.ldd o) s) :
      ∃ t, exec (.ldd o) s = .next t ∧ Returns s t o.d (BitVec.ofNat 64 v) := by
    refine exec_returns (body := checked .load o 8 false (loadFrom o 8 zextBytes)) issues ?_ ?_ (rfl : zextBytes v = BitVec.ofNat 64 v)
    · rw [← loadM_eq_checked]
      rfl
    · rw [checked_ok free aligned low high, loadFrom_device word]
  have stores {t : State} (word : s.deviceStore ea.toNat (s.getX o.d).toNat = some t) (still : t.blocked = false) (cx : t.cx = s.cx)
      (issues : Issues (.std o) s) : ∃ u, exec (.std o) s = .next u ∧ MovesTo t u s.cx.nextPc := by
    refine ⟨t.advance, ?_, cx ▸ advance_movesTo t⟩
    have runs : exec (.std o) s = run (.std o) s (checked .store o 8 false (storeTo o 8 false)) := by
      rw [← storeM_eq_checked]
      rfl
    rw [runs]
    exact run_ok issues (by rw [checked_ok free aligned low high, storeTo_device word still])
  refine ⟨fun issues health => ?_, fun issues node other => ?_, fun issues => ⟨fun h _ door first room still => ?_, fun heap move room => ?_, fun health move heap => ?_⟩⟩
  · exact loads (health ▸ deviceLoad_health priv) issues
  · exact loads (node ▸ deviceLoad_node priv (node ▸ other)) issues
  · have word := deviceStore_move (v := (s.getX o.d).toNat) priv door first
    rw [postMove_queues still room] at word
    exact stores word open_ rfl issues
  · have word := deviceStore_heap (v := (s.getX o.d).toNat) priv move heap
    rw [State.postHeap, if_pos room] at word
    exact stores word open_ rfl issues
  · rw [health] at move heap
    exact stores (health ▸ deviceStore_health priv move heap) open_ rfl issues

/-! ### The order of an access's checks (R106) -/

/-- An instruction whose access traps. -/
theorem run_traps {i : Instr} {s : State} {body : State → Except Stop State} {x : Trap} (issues : Issues i s) (stops : body s = .error (.trap x)) :
    run i s body = .next (takeTrap x s) := run_error issues stops

/-- An instruction whose access traps in the state that it has reached. -/
theorem run_trapsIn {i : Instr} {s t : State} {body : State → Except Stop State} {x : Trap} (issues : Issues i s)
    (stops : body s = .error (.trapIn x t)) : run i s body = .next (if t.trapWaits x then s.readied x else takeTrap x t) := run_error issues stops

theorem sizeLog_eq {size : Nat} (scalar : scalarSize size) : sizeLog size = if size = 1 then 0 else if size = 2 then 1 else if size = 4 then 2 else 3 := by
  obtain rfl | rfl | rfl | rfl := scalar <;> rfl

theorem wrapAddr_eq (ea : Int) : wrapAddr ea = (ea % 2 ^ 64).toNat := rfl

/-- The instruction of R106: a scalar load or store makes one checked access. -/
theorem scalar_checked {i : Instr} {o : LM} {size : Nat} {kind : AKind} {multi : Bool}
    (one : (kind = .load ∧ multi = false ∧ ∃ ext, Spec.load i = some (o, size, ext)) ∨ (kind = .store ∧ Spec.store i = some (o, size, multi))) :
    scalarSize size ∧ ∃ release k, ∀ s, exec i s = run i s (checked kind o size release k) := by
  obtain ⟨rfl, -, ext, load⟩ | ⟨rfl, store⟩ := one
  · obtain ⟨scalar, e, -, runs⟩ := load_checked load
    exact ⟨scalar, false, _, runs⟩
  · obtain ⟨scalar, release, runs⟩ := store_checked store
    exact ⟨scalar, release, _, runs⟩

/-- An access that does not reach its place stops the instruction. -/
theorem scalar_stops {i : Instr} {o : LM} {size : Nat} {kind : AKind} {multi : Bool}
    (one : (kind = .load ∧ multi = false ∧ ∃ ext, Spec.load i = some (o, size, ext)) ∨ (kind = .store ∧ Spec.store i = some (o, size, multi)))
    {s : State} (free : Spec.unordered s) (aligned : Spec.ea s o.a o.imm % size = 0) (low : 0 ≤ Spec.ea s o.a o.imm)
    (high : Spec.ea s o.a o.imm < 2 ^ 56) (plain : size = 8 → Spec.plain s (Spec.ea s o.a o.imm).toNat) {x : Stop}
    (stopped : s.access { s.who kind (if kind = .load then .r else .w) with mstd := multi } (Spec.ea s o.a o.imm).toNat size = .error x) :
    ∃ body, exec i s = run i s body ∧ body s = .error x := by
  obtain ⟨rfl, rfl, ext, load⟩ | ⟨rfl, store⟩ := one
  · obtain ⟨-, e, -, runs⟩ := load_checked load
    have failed : s.access (s.who .load .r) (Spec.ea s o.a o.imm).toNat size = .error x := stopped
    refine ⟨_, runs s, ?_⟩
    rw [checked_ok free aligned low high, loadFrom_memory plain, loadAt_error failed]
    rfl
  · obtain ⟨-, release, runs⟩ := store_checked store
    rw [if_neg (by decide)] at stopped
    refine ⟨_, runs s, ?_⟩
    rw [checked_ok free aligned low high, storeTo_memory plain, stopped]
    rfl

/-- R106: the checks of an access in their order. -/
theorem accessTraps_rule : Rule.AccessTraps := by
  intro i o size kind multi s one issues free ea
  obtain ⟨scalar, release, k, runs⟩ := scalar_checked one
  refine ⟨fun odd => ?_, fun aligned out => ?_, fun aligned low high plain => ⟨fun x stopped => ?_, fun x t stopped => ?_, ?_⟩⟩
  · rw [runs, run_traps issues (checked_error free (checkAddr_align odd)), sizeLog_eq scalar, wrapAddr_eq]
  · rw [runs, run_traps issues (checked_error free (checkAddr_range aligned out)), wrapAddr_eq]
  · obtain ⟨body, runs, stops⟩ := scalar_stops one free aligned low high plain stopped
    rw [runs, run_traps issues stops]
  · obtain ⟨body, runs, stops⟩ := scalar_stops one free aligned low high plain stopped
    rw [runs, run_trapsIn issues stops]
  · intro t p loads reached poison
    subst loads
    obtain ⟨-, rfl, ext, load⟩ | ⟨store, -⟩ := one
    · obtain ⟨-, e, -, runs⟩ := load_checked load
      have there : s.access (s.who .load .r) ea.toNat size = .ok (t, p) := reached
      rw [runs]
      refine run_trapsIn issues ?_
      rw [checked_ok free aligned low high, loadFrom_memory plain, loadAt_poison there poison]
      rfl
    · contradiction

/-! ### Ordering classes (R111, R117) -/

theorem classQueued_of_entry {s : State} {e : VEntry} {c : Nat} {p : Nat → Bool} (queued : e ∈ s.me.queue) (pending : e.done = false)
    (mine : e.ctx = s.curCtx) (cls : entryClass e.instr = some c) (named : p c = true) : s.classQueued p = true := by
  refine List.any_eq_true.2 ⟨e, List.mem_filter.2 ⟨queued, ?_⟩, ?_⟩
  · simp [pending, mine, cls]
  · simp [cls, named]

/-- An access of the class of a queued entry waits. -/
theorem checked_waits {kind : AKind} {o : LM} {size : Nat} {release : Bool} {k : Nat → State → Except Stop State} {s : State}
    (queued : s.classQueued (fun c => release || c == o.oc.toNat) = true) : checked kind o size release k s = .error .stall := by
  unfold checked orderWait
  rw [queued]
  rfl

/-- R111, R117, R136: waits for ordering classes. -/
theorem orderedAccessWaits_rule : Rule.OrderedAccessWaits := by
  intro s e c queued pending mine cls
  have waits {p : Nat → Bool} := classQueued_of_entry (p := p) queued pending mine cls
  refine ⟨fun i o size ext load oc issues => ?_, fun i o size multi store oc issues => ?_, fun o named issues => ?_⟩
  · obtain ⟨-, e, -, runs⟩ := load_checked load
    rw [runs, run_error issues (checked_waits (waits (by simp [oc])))]
    rfl
  · obtain ⟨-, release, runs⟩ := store_checked store
    rw [runs, run_error issues (checked_waits (waits (by simp [oc])))]
    rfl
  · have held : s.classQueued (fun c => bitOf o.imm.toNat c) = true := waits (by rw [bitOf_eq_getLsbD, named])
    have runs : exec (.fence o) s = execFence o s := rfl
    rw [runs, execFence, run_error issues (if_pos held)]
    rfl

end Sys2Proof.Machine

namespace Sys2Proof.Proofs
open Machine

/-- Settles O23: the two rules together. -/
theorem deviceWords : Obligations.DeviceWords := ⟨placeWrite_rule, deviceWords_rule⟩

/-- Settles O24: the two rules together. -/
theorem accessTraps : Obligations.AccessTraps := ⟨accessTraps_rule, orderedAccessWaits_rule⟩

end Sys2Proof.Proofs
end

section
/-! Fences, write-back and persistence (R117, R118, R356). The statement O25. -/

namespace Sys2Proof.Machine

/-! ### What the end of an instruction leaves of cores -/

theorem Core.l1d_setCtx (k : Core) (n : CtxName) (x : Ctx) : (k.setCtx n x).l1d = k.l1d := by cases n <;> rfl

/-- An instruction that only goes on leaves every L1 copy. -/
theorem l1d_advance (s : State) (c : Nat) : (s.advance.core c).l1d = (s.core c).l1d := by
  by_cases mine : c = s.cur
  · subst mine
    rw [State.advance, State.modCx, State.setCx, State.core_modCore_self, Core.l1d_setCtx]
  · rw [State.advance, State.modCx, State.setCx, State.core_modCore_ne s mine]

/-! ### Pending persists (R118) -/

section
variable (s : State) (f : List (Nat × Nat) → List (Nat × Nat))

theorem strand_modStrand {a b : Nat} {g : Strand → Strand} (keeps : ∀ x, (g x).asid = x.asid ∧ (g x).sid = x.sid) :
    (s.modStrand a b g).strand a b = (s.strand a b).map g := by
  have test (x : Strand) : ((if x.asid = a ∧ x.sid = b then g x else x).asid == a && (if x.asid = a ∧ x.sid = b then g x else x).sid == b) =
      (x.asid == a && x.sid == b) := by
    split
    · rw [(keeps x).1, (keeps x).2]
    · rfl
  unfold State.strand State.modStrand
  rw [List.find?_map]
  simp only [Function.comp_def, test]
  refine Option.map_congr fun x found => ?_
  have named := List.find?_some found
  simp only [Bool.and_eq_true, beq_iff_eq] at named
  exact if_pos named

/-- The strand of the executing context is the one of its address space and identifier. -/
theorem myStrand_named {x : Strand} (mine : s.myStrand = some x) : x.asid = s.cx.as ∧ x.sid = s.cx.sid := by
  have named := List.find?_some mine
  simpa only [Bool.and_eq_true, beq_iff_eq] using named

theorem cx_modPersists : (s.modPersists f).cx = s.cx := by
  unfold State.modPersists
  split
  · rfl
  · unfold State.cx State.me
    rw [State.modCore_cur, State.core_modCore_self]
    rfl

/-- The persists of the executing context: its strand's, or those of its A context. -/
theorem persists_here : s.persists s.cur s.curCtx = (match s.myStrand with | some x => x.persists | none => s.me.aPersists) := rfl

theorem persists_modPersists : (s.modPersists f).persists s.cur s.curCtx = f (s.persists s.cur s.curCtx) := by
  have cx := cx_modPersists s f
  rw [persists_here s]
  have cur : (s.modPersists f).cur = s.cur := by
    unfold State.modPersists
    split <;> rfl
  have ctx : (s.modPersists f).curCtx = s.curCtx := by
    unfold State.modPersists
    split <;> rfl
  have here := persists_here (s.modPersists f)
  rw [cur, ctx] at here
  rw [here]
  unfold State.myStrand
  rw [cx]
  cases mine : s.strand s.cx.as s.cx.sid with
  | some x =>
    obtain ⟨asid, sid⟩ := myStrand_named s mine
    have changed : s.modPersists f = s.modStrand s.cx.as s.cx.sid (fun t => { t with persists := f t.persists }) := by
      unfold State.modPersists State.myStrand
      rw [mine, ← asid, ← sid]
    rw [changed, strand_modStrand s (g := fun t => { t with persists := f t.persists }) fun _ => ⟨rfl, rfl⟩, mine]
    rfl
  | none =>
    have changed : s.modPersists f = s.modCore s.cur (fun k => { k with aPersists := f k.aPersists }) := by
      unfold State.modPersists State.myStrand
      rw [mine]
    have strands : (s.modPersists f).strand s.cx.as s.cx.sid = none := by
      rw [changed]
      exact mine
    rw [strands]
    dsimp only
    unfold State.me
    rw [cur, changed, State.core_modCore_self]

theorem persists_advance : s.advance.persists s.cur s.curCtx = s.persists s.cur s.curCtx := by
  have here := persists_here s.advance
  have same : s.advance.myStrand = s.myStrand := by
    unfold State.myStrand
    rw [State.advance, State.cx_modCx]
    rfl
  have core : s.advance.me.aPersists = s.me.aPersists := by
    have known : (s.me.setCtx s.curCtx s.cx.advance).aPersists = s.me.aPersists := by cases s.curCtx <;> rfl
    rw [← known, State.advance, State.modCx, State.setCx]
    exact congrArg Core.aPersists (State.core_modCore_self s s.cur _)
  rw [same, core] at here
  exact here

end

/-! ### A line written back (R118, R240, R242) -/

theorem cleaned_clean (x : Moesi) : x.cleaned ≠ .m ∧ x.cleaned ≠ .o := by cases x <;> decide

theorem core_mapCores (s : State) (f : Core → Core) (c : Nat) (reset : f Core.reset = Core.reset) : (s.mapCores f).core c = f (s.core c) := by
  have mapped : kvGet c (s.mapCores f).cores = (kvGet c s.cores).map f := kvGet_mapKeyed (fun _ => f) c s.cores
  unfold State.core
  rw [mapped]
  cases kvGet c s.cores with
  | none => exact reset.symm
  | some k => rfl

/-- A core whose L1 copies of line n are clean. -/
def cleanCore (n : Nat) (k : Core) : Core :=
  { k with l1d := k.l1d.map (fun l => if l.key / 256 = n then { l with state := l.state.cleaned } else l) }

/-- A slice that holds no dirty sector of line n, and whose directory knows no modified copy of it. -/
def cleanSlice (n : Nat) (t : L2Slice) : L2Slice :=
  { t with
    lines := t.lines.map (fun l => if l.line = n then { l with dirty := 0 } else l)
    dir := t.dir.map (fun e => if e.line = n then { e with sectors := e.sectors.map (fun d => { d with state := d.state.cleaned }) } else e) }

theorem cleanLine_eq (s : State) (key : Nat) :
    s.cleanLine key = (s.mapCores (cleanCore (key / 256))).modL2 (s.sliceAt (256 * (key / 256))) (cleanSlice (key / 256)) := rfl

/-- No L1 copy of the line is modified after its write-back, and its slice holds no dirty sector of it. -/
theorem cleanLine_clean (s : State) (key : Nat) :
    (∀ c, ∀ l ∈ ((s.cleanLine key).core c).l1d, l.key / 256 = key / 256 → l.state ≠ .m ∧ l.state ≠ .o) ∧
      ∀ l ∈ ((s.cleanLine key).l2Slice (s.sliceAt (key / 256 * 256))).lines, l.line = key / 256 → l.dirty = 0 := by
  rw [cleanLine_eq]
  refine ⟨fun c l held same => ?_, fun l held same => ?_⟩
  · have core : ((s.mapCores (cleanCore (key / 256))).modL2 (s.sliceAt (256 * (key / 256))) (cleanSlice (key / 256))).core c =
        cleanCore (key / 256) (s.core c) := core_mapCores s (cleanCore (key / 256)) c rfl
    rw [core] at held
    obtain ⟨o, -, rfl⟩ := List.mem_map.1 held
    split at same
    case isTrue inside =>
      rw [if_pos inside]
      exact cleaned_clean o.state
    case isFalse outside => exact absurd same outside
  · rw [State.l2Slice, State.modL2, Nat.mul_comm (key / 256) 256, kvGet_set_self, Option.getD_some] at held
    obtain ⟨o, -, rfl⟩ := List.mem_map.1 held
    split at same
    case isTrue inside => rw [if_pos inside]
    case isFalse outside => exact absurd same outside

theorem writeBack_onlyCaches (s : State) (p : Place) : OnlyCaches s (s.writeBack (some p)) := by
  unfold State.writeBack
  dsimp only
  split
  · exact .refl s
  · exact State.cleanLine_onlyCaches s p.key

/-- The line of a place stands clean in every cache. -/
def Clean (t : State) (p : Place) (u : State) : Prop :=
  p.typ ≠ 1 → (∀ c, ∀ l ∈ (u.core c).l1d, l.key / 256 = p.key / 256 → l.state ≠ .m ∧ l.state ≠ .o) ∧
    ∀ l ∈ (u.l2Slice (t.sliceAt (p.key / 256 * 256))).lines, l.line = p.key / 256 → l.dirty = 0

theorem writeBack_clean (s : State) (p : Place) : Clean s p (s.writeBack (some p)) := by
  intro cached
  unfold State.writeBack
  dsimp only
  rw [if_neg cached]
  exact cleanLine_clean s p.key

/-- What keeps the L1 copies and the slices keeps a line clean. -/
theorem Clean.congr {t u v : State} {p : Place} (clean : Clean t p u) (copies : ∀ c, (v.core c).l1d = (u.core c).l1d) (slices : v.l2 = u.l2) :
    Clean t p v := by
  intro cached
  unfold State.l2Slice
  simp only [copies, slices]
  exact clean cached

/-! ### The address of CLWB and PFLUSH -/

section
variable {o : LM} {s : State} (free : Spec.unordered s) (low : 0 ≤ Spec.ea s o.a o.imm) (high : Spec.ea s o.a o.imm < 2 ^ 56)
include free low high

theorem flushCheck_global {t : State} {p : Place} (far : isLocal (Spec.ea s o.a o.imm).toNat = false)
    (reached : s.translate (s.who .load .either) (Spec.ea s o.a o.imm).toNat = .ok (t, p)) :
    flushCheck o s = .ok (t, (Spec.ea s o.a o.imm).toNat, some p) := by
  have range : checkRange .load (Spec.ea s o.a o.imm) = .ok (Spec.ea s o.a o.imm).toNat := if_pos ⟨low, high⟩
  unfold flushCheck
  rw [orderWait_ok_of_unordered free, eaM_eq_ea, range]
  simp only [bind, Except.bind, far, Bool.false_eq_true, if_false, reached]
  rfl

theorem flushCheck_local {p : Place} (near : isLocal (Spec.ea s o.a o.imm).toNat = true)
    (reached : s.localAccess (s.who .load .either) (Spec.ea s o.a o.imm).toNat 1 = .ok p) :
    flushCheck o s = .ok (s, (Spec.ea s o.a o.imm).toNat, none) := by
  have range : checkRange .load (Spec.ea s o.a o.imm) = .ok (Spec.ea s o.a o.imm).toNat := if_pos ⟨low, high⟩
  unfold flushCheck
  rw [orderWait_ok_of_unordered free, eaM_eq_ea, range]
  simp only [bind, Except.bind, near, if_true, reached]
  rfl

end

theorem classQueued_of_unordered {s : State} (free : Spec.unordered s) (p : Nat → Bool) : s.classQueued p = false := by
  obtain ⟨all, -, -⟩ := (orderWait_ok_iff 0 true [] s).1 (orderWait_ok_of_unordered free 0 true [])
  by_contra queued
  obtain ⟨e, listed, named⟩ := List.any_eq_true.1 (Bool.eq_true_of_not_eq_false queued)
  refine Bool.eq_false_iff.1 all (List.any_eq_true.2 ⟨e, listed, ?_⟩)
  cases cls : entryClass e.instr with
  | none => simp [cls] at named
  | some c => simp

/-! ### PFLUSH of a persistent page (R118) -/

/-- A line joins the pending persists once. -/
def addLine (line : Nat × Nat) (l : List (Nat × Nat)) : List (Nat × Nat) := if l.contains line then l else l ++ [line]

theorem addLine_eq (line : Nat × Nat) (l : List (Nat × Nat)) : addLine line l = if line ∈ l then l else l ++ [line] := by
  unfold addLine
  by_cases listed : line ∈ l
  · rw [if_pos listed, if_pos (List.contains_iff_mem.2 listed)]
  · rw [if_neg listed, if_neg (mt List.contains_iff_mem.1 listed)]

theorem modPersists_caches (s : State) (f : List (Nat × Nat) → List (Nat × Nat)) :
    (∀ c, ((s.modPersists f).core c).l1d = (s.core c).l1d) ∧ (s.modPersists f).l2 = s.l2 := by
  unfold State.modPersists
  split
  · exact ⟨fun _ => rfl, rfl⟩
  · refine ⟨fun c => ?_, rfl⟩
    by_cases mine : c = s.cur
    · subst mine
      rw [State.core_modCore_self]
    · rw [State.core_modCore_ne s mine]

/-- What the write-back of a line leaves of the executing context and its pending persists. -/
theorem OnlyCaches.persists {s t : State} (h : OnlyCaches s t) : t.cur = s.cur ∧ t.curCtx = s.curCtx ∧ t.cx = s.cx ∧ t.myStrand = s.myStrand ∧
    t.persists s.cur s.curCtx = s.persists s.cur s.curCtx := by
  have cur : t.cur = s.cur := (congrArg State.cur h.1 :)
  have ctx : t.curCtx = s.curCtx := (congrArg State.curCtx h.1 :)
  have strands : t.strands = s.strands := (congrArg State.strands h.1 :)
  have mine : t.myStrand = s.myStrand := by rw [State.myStrand, State.strand, h.cx, strands]; rfl
  have core : t.me.aPersists = s.me.aPersists := by
    unfold State.me
    rw [cur, ← h.2 s.cur]
  refine ⟨cur, ctx, h.cx, mine, ?_⟩
  have here := persists_here t
  rw [cur, ctx, mine, core] at here
  exact here

theorem pflush_persistent {s t : State} {va : Nat} {p : Place} {o : LM} (checked : flushCheck o s = .ok (t, va, some p)) (typ : p.typ = 5)
    (issues : Issues (.pflush o) s) :
    exec (.pflush o) s = .next ((t.writeBack (some p)).modPersists (addLine (va / 256 * 256, p.key / 256 * 256))).advance := by
  rw [exec_pflush, execPflush]
  refine run_ok issues ?_
  simp only [checked, bind, Except.bind, typ, if_true]
  rfl

theorem pflush_other {s t : State} {va : Nat} {p : Place} {o : LM} (checked : flushCheck o s = .ok (t, va, some p)) (typ : p.typ ≠ 5)
    (issues : Issues (.pflush o) s) : exec (.pflush o) s = .next (t.writeBack (some p)).advance := by
  rw [exec_pflush, execPflush]
  refine run_ok issues ?_
  simp only [checked, bind, Except.bind, typ, if_false]
  rfl

theorem pflush_none {s t : State} {va : Nat} {o : LM} (checked : flushCheck o s = .ok (t, va, none)) (issues : Issues (.pflush o) s) :
    exec (.pflush o) s = .next t.advance := by
  rw [exec_pflush, execPflush]
  refine run_ok issues ?_
  simp only [checked, bind, Except.bind]
  rfl

theorem clwb_checked {s t : State} {va : Nat} {p : Option Place} {o : LM} (checked : flushCheck o s = .ok (t, va, p)) (issues : Issues (.clwb o) s) :
    exec (.clwb o) s = .next (t.writeBack p).advance := by
  rw [exec_clwb, execClwb]
  refine run_ok issues ?_
  simp only [checked, bind, Except.bind]
  rfl

/-- A translation changes neither the turn nor the executing context. -/
theorem translate_turn {s t : State} {w : Who} {va : Nat} {p : Place} (reached : s.translate w va = .ok (t, p)) :
    t.cur = s.cur ∧ t.curCtx = s.curCtx := by
  have rest := (translate_translates reached).rest
  exact ⟨(congrArg State.cur rest :), (congrArg State.curCtx rest :)⟩

/-- PFLUSH of a persistent page: the line, clean in every cache, joins the pending persists of the context. -/
theorem pflush_joins {s t : State} {va : Nat} {p : Place} {o : LM} (checked : flushCheck o s = .ok (t, va, some p)) (typ : p.typ = 5)
    (turn : t.cur = s.cur ∧ t.curCtx = s.curCtx) (issues : Issues (.pflush o) s) :
    ∃ w u, exec (.pflush o) s = .next u ∧ OnlyCaches t w ∧ Clean t p u ∧
      (let line := (va / 256 * 256, p.key / 256 * 256)
       let add (l : List (Nat × Nat)) := if line ∈ l then l else l ++ [line]
       u.persists s.cur s.curCtx = add (t.persists s.cur s.curCtx) ∧
       (∀ x, t.myStrand = some x → MovesTo (w.modStrand x.asid x.sid (fun x => { x with persists := add x.persists })) u t.cx.nextPc) ∧
       (t.myStrand = none → MovesTo (w.modCore s.cur (fun k => { k with aPersists := add k.aPersists })) u t.cx.nextPc)) := by
  have caches := writeBack_onlyCaches t p
  generalize hf : addLine (va / 256 * 256, p.key / 256 * 256) = f
  obtain ⟨copies, slices⟩ := modPersists_caches (t.writeBack (some p)) f
  obtain ⟨cur, ctx, cx, strand, persists⟩ := caches.persists
  obtain ⟨turn, turnCtx⟩ := turn
  have ran := pflush_persistent checked typ issues
  rw [hf] at ran
  refine ⟨t.writeBack (some p), _, ran, caches, ((writeBack_clean t p).congr copies slices).congr (l1d_advance _) rfl, ?_⟩
  dsimp only
  simp only [← addLine_eq, hf]
  have moves := advance_movesTo ((t.writeBack (some p)).modPersists f)
  rw [cx_modPersists, cx] at moves
  have changed : (t.writeBack (some p)).modPersists f = (match t.myStrand with
      | some x => (t.writeBack (some p)).modStrand x.asid x.sid (fun x => { x with persists := f x.persists })
      | none => (t.writeBack (some p)).modCore t.cur (fun k => { k with aPersists := f k.aPersists })) := by
    unfold State.modPersists
    rw [strand, cur] <;> rfl
  refine ⟨?_, fun x mine => ?_, fun none => ?_⟩
  · have after := persists_advance ((t.writeBack (some p)).modPersists f)
    have joined := persists_modPersists (t.writeBack (some p)) f
    rw [cur, ctx, turn, turnCtx] at joined
    rw [turn, turnCtx] at persists
    rw [persists] at joined
    have here : ((t.writeBack (some p)).modPersists f).cur = s.cur ∧ ((t.writeBack (some p)).modPersists f).curCtx = s.curCtx := by
      rw [← turn, ← turnCtx, ← cur, ← ctx]
      unfold State.modPersists
      split <;> exact ⟨rfl, rfl⟩
    rw [here.1, here.2, joined] at after
    exact after
  · rw [changed, mine] at moves ⊢
    exact moves
  · rw [changed, none, turn] at moves ⊢
    exact moves

/-! ### PSYNC (R118, R356) -/

theorem find?_lost {s : State} {first rest : List (Nat × Nat)} {l : Nat × Nat} (kept : ∀ e ∈ first, s.lineLost e.2 = false)
    (lost : s.lineLost l.2 = true) : (first ++ l :: rest).find? (fun l => s.lineLost l.2) = some l := by
  rw [List.find?_append, List.find?_eq_none.2 (fun e he => by simp [kept e he])]
  exact (List.find?_cons_of_pos (p := fun l : Nat × Nat => s.lineLost l.2) lost :)

theorem modPersists_frame (s : State) (f : List (Nat × Nat) → List (Nat × Nat)) :
    { s.modPersists f with strands := s.strands, cores := s.cores } = s := by
  unfold State.modPersists
  split <;> rfl

theorem psync_runs (s : State) (issues : Issues .psync s) : exec .psync s =
    (match (match (s.persists s.cur s.curCtx).find? (fun l => s.lineLost l.2) with
      | some l => Except.error (Stop.trapIn { cause := .poison, saddr := l.1, sinfo := 2 * 16 + 4 } (s.modPersists (fun _ => [])))
      | none => if (s.persists s.cur s.curCtx).isEmpty then Except.ok s.advance else Except.error Stop.stall) with
    | .ok t => .next t
    | .error e => finish s e) := by
  rw [exec_psync, execPsync, run_issues issues] <;> rfl

end Sys2Proof.Machine

namespace Sys2Proof.Proofs
open Machine

/-- Settles O25: fences complete or wait, lines are written back, persists are pending until they are durable. -/
theorem fenceAndPersist : Obligations.FenceAndPersist := by
  intro s
  refine ⟨fun o issues free => ⟨s.advance, ?_, advance_movesTo s⟩, ?_, ?_, ?_⟩
  · rw [exec_fence, execFence]
    exact run_ok issues (if_neg (Bool.eq_false_iff.1 (classQueued_of_unordered free _)))
  · intro o t p free ea low high far reached back
    have caches := writeBack_onlyCaches t p
    have checked := flushCheck_global free low high far reached
    have clean := (writeBack_clean t p).congr (l1d_advance _) rfl
    have moves := advance_movesTo (t.writeBack (some p))
    rw [caches.cx] at moves
    refine ⟨fun issues => ⟨_, _, clwb_checked checked issues, caches, clean, moves⟩, fun issues => ?_⟩
    by_cases typ : p.typ = 5
    · obtain ⟨w, u, ran, caches, clean, persists, strand, none⟩ := pflush_joins checked typ (translate_turn reached) issues
      exact ⟨w, u, ran, caches, clean, fun other => absurd typ other, fun _ => ⟨persists, strand, none⟩⟩
    · exact ⟨_, _, pflush_other checked typ issues, caches, clean, fun _ => moves, fun same => absurd same typ⟩
  · intro o p free ea low high near reached
    exact ⟨fun issues => ⟨_, clwb_checked (flushCheck_local free low high near reached) issues, advance_movesTo s⟩,
      fun issues => ⟨_, pflush_none (flushCheck_local free low high near reached) issues, advance_movesTo s⟩⟩
  · intro issues mine
    have here : s.persists s.cur s.curCtx = mine := rfl
    rw [psync_runs s issues, here]
    refine ⟨fun empty => ⟨s.advance, ?_, advance_movesTo s⟩, fun pending kept => ?_, fun first l rest split kept lost => ?_⟩
    · rw [empty]
      rfl
    · rw [List.find?_eq_none.2 fun l listed => by simp [kept l listed]]
      dsimp only
      rw [if_neg (by simpa using pending)]
      rfl
    · refine ⟨s.modPersists (fun _ => []), persists_modPersists s _, modPersists_frame s _, ?_⟩
      rw [split, find?_lost kept lost]
      rfl

end Sys2Proof.Proofs
end

section
/-! The cluster copy engines: issue (R119 to R128, R235, R360). The statements O27 and O28. -/

namespace Sys2Proof.Machine

/-! ### Issue of an operation (R119, R120, R235) -/

section
variable {s : State} {d : BitVec 5} {oc : BitVec 4} {release : Bool}

theorem engineChecks_ok (free : Spec.tokenFree s d) : engineChecks d oc release s = .ok () := by
  obtain ⟨zero, two, tokens, idle, queued, unordered⟩ := free
  have few : ¬popCount32 s.cx.pend ≥ 16 := by
    rw [popCount32, popBelow_eq_length]
    omega
  have room : ¬s.queuedOps (clusterOf s.cur) ≥ 64 := by
    have same : (s.ops.filter (fun o => o.cluster == clusterOf s.cur && o.ended.isNone)) =
        s.ops.filter (fun o => o.cluster = s.cur / 16 ∧ o.ended = none) := List.filter_congr fun o _ => by
        have ended : o.ended.isNone = decide (o.ended = none) := by cases o.ended <;> rfl
        rw [ended, Bool.decide_and]
        rfl
    rw [State.queuedOps, same]
    omega
  have token : tokenCheck s d = none := by
    unfold tokenCheck
    rw [if_neg zero, if_neg two, if_neg few]
  unfold engineChecks
  rw [token]
  dsimp only
  rw [if_neg (by simp [idle, room]), orderWait_ok_of_unordered unordered]

theorem engineChecks_zero : engineChecks 0 oc release s = .error (.trap { cause := .tokbad, sinfo := 32 }) := rfl

theorem engineChecks_two : engineChecks 2 oc release s = .error (.trap { cause := .tokbad, sinfo := 2 + 64 }) := rfl

theorem endNow_status (s : State) (d : BitVec 5) (st : Nat) : endNow s d 0 st = .ok (s.retX d (BitVec.ofNat 64 st)) := by
  rw [endNow, Nat.zero_min, Nat.zero_mul, Nat.zero_add]

/-- A range whose local part lies in no range of R234, or passes its check. -/
theorem engineRange_eq (s : State) (need : Need) (va n : Nat) : engineRange s need va n =
    match Spec.localPart va n with
    | none => .ok ()
    | some (lo, m) => match s.localReason (s.who .engine need) lo m with
      | some r => .error (.trap { cause := .prot, saddr := lo, sinfo := 5 * 16 + r })
      | none => .ok () := by
  unfold engineRange Spec.localPart
  dsimp only
  have base : localBase = 0xFF * 2 ^ 48 := rfl
  rw [base]
  by_cases inside : max va (0xFF * 2 ^ 48) < va + n
  · rw [if_pos inside, if_neg (Nat.not_le.2 inside)]
    rfl
  · rw [if_neg inside, if_pos (Nat.not_lt.1 inside)]

/-- The ranges of an operation, checked in order. -/
def engineRanges (s : State) : List (Need × Nat × Nat) → Except Stop Unit
  | [] => .ok ()
  | r :: rest => do
    engineRange s r.1 r.2.1 r.2.2
    engineRanges s rest

theorem engineRanges_one {α : Type} (a : Need × Nat × Nat) (k : Except Stop α) :
    (do engineRanges s [a]; k) = (do engineRange s a.1 a.2.1 a.2.2; k) := by
  simp only [engineRanges, bind, Except.bind]
  cases engineRange s a.1 a.2.1 a.2.2 <;> rfl

theorem engineRanges_two {α : Type} (a b : Need × Nat × Nat) (k : Except Stop α) :
    (do engineRanges s [a, b]; k) = (do engineRange s a.1 a.2.1 a.2.2; engineRange s b.1 b.2.1 b.2.2; k) := by
  simp only [engineRanges, bind, Except.bind]
  cases engineRange s a.1 a.2.1 a.2.2 with
  | error e => rfl
  | ok u => cases engineRange s b.1 b.2.1 b.2.2 <;> rfl

theorem engineRanges_ok {l : List (Need × Nat × Nat)} (pass : Spec.rangesPass s l) : engineRanges s l = .ok () := by
  induction l with
  | nil => rfl
  | cons r rest ih =>
    have first : engineRange s r.1 r.2.1 r.2.2 = .ok () := by
      rw [engineRange_eq]
      cases part : Spec.localPart r.2.1 r.2.2 with
      | none => rfl
      | some p =>
        have passes := pass r List.mem_cons_self p.1 p.2 part
        dsimp only
        rw [passes]
    rw [engineRanges, first]
    exact ih fun q listed => pass q (List.mem_cons_of_mem _ listed)

theorem engineRanges_fails {first rest : List (Need × Nat × Nat)} {need : Need} {va n lo m r : Nat} (pass : Spec.rangesPass s first)
    (part : Spec.localPart va n = some (lo, m)) (fails : s.localReason (s.who .engine need) lo m = some r) :
    engineRanges s (first ++ (need, va, n) :: rest) = .error (.trap { cause := .prot, saddr := lo, sinfo := 5 * 16 + r }) := by
  induction first with
  | nil =>
    rw [List.nil_append, engineRanges, engineRange_eq, part]
    dsimp only
    rw [fails]
    rfl
  | cons q first ih =>
    have one : engineRanges s [q] = .ok () := engineRanges_ok fun p listed => by
      obtain rfl := List.mem_singleton.1 listed
      exact pass p List.mem_cons_self
    have here : engineRange s q.1 q.2.1 q.2.2 = .ok () := by
      rw [engineRanges, engineRanges] at one
      cases step : engineRange s q.1 q.2.1 q.2.2 with
      | ok u => rfl
      | error e => rw [step] at one; contradiction
    rw [List.cons_append, engineRanges, here]
    exact ih fun p listed => pass p (List.mem_cons_of_mem _ listed)

/-- An update of the executing context alone. -/
theorem modCx_coreBecomes (s : State) (f : Ctx → Ctx) : CoreBecomes s (s.modCx f) s.cur (s.me.setCtx s.curCtx (f s.cx)) := by
  refine ⟨⟨rfl, fun c other => ?_⟩, ?_, fun _ => rfl⟩
  · exact State.core_modCore_ne s other _
  · exact State.core_modCore_self s s.cur _

/-- The operation joins the queue and x[D] is pending. -/
theorem queueOp_queued (s : State) (o : LX) (kind : OpKind) : ∃ t, queueOp s o.d o.sc kind = .ok t ∧ Spec.Queued s t o kind := by
  refine ⟨_, rfl, ?_⟩
  have owners : (upTo 16).map (fun i => (16 * clusterOf s.cur + i, (s.core (16 * clusterOf s.cur + i)).changes)) =
      (List.range 16).map (fun i => (16 * (s.cur / 16) + i, (s.core (16 * (s.cur / 16) + i)).changes)) := by
    rw [upTo, ← List.range_eq_range', clusterOf]
  rw [owners, State.setPending, State.advance, State.modCx_modCx]
  exact modCx_coreBecomes _ _

end

/-! ### One shape for the engine instructions but ACOLL -/

/-- The checks of an engine instruction, then what its operands give: a token that ends at once, or an operation. -/
def engineBody (o : LX) (release : Bool) (out : Nat ⊕ (OpKind × List (Need × Nat × Nat))) (s : State) : Except Stop State := do
  engineChecks o.d o.oc release s
  match out with
  | .inl st => endNow s o.d 0 st
  | .inr (kind, ranges) => do
    engineRanges s ranges
    queueOp s o.d o.sc kind

theorem engineBody_eq {o : LX} {release : Bool} {out : Nat ⊕ (OpKind × List (Need × Nat × Nat))} {s : State} {k : Except Stop State}
    (same : k = match out with
      | .inl st => endNow s o.d 0 st
      | .inr (kind, ranges) => do
        engineRanges s ranges
        queueOp s o.d o.sc kind) : (do engineChecks o.d o.oc release s; k) = engineBody o release out s := by
  rw [same]
  rfl

theorem crosses_iff (va n : Nat) : crosses va n = true ↔ va + n > 2 ^ 56 := by simp [crosses]

theorem opAddr_eq (s : State) (r : BitVec 5) : Spec.opAddr s r = s.addr r := (addr_eq_setWidth s r).symm

theorem bitsOf_low (v n : Nat) : bitsOf v 0 n = v % 2 ^ n := by rw [bitsOf, Nat.pow_zero, Nat.div_one]

theorem extract_ne_zero {w : Nat} (v : BitVec w) (lo n : Nat) : bitsOf v.toNat lo n ≠ 0 ↔ v.extractLsb' lo n ≠ 0 := by
  rw [bitsOf_eq_extractLsb', ne_eq, ne_eq, not_iff_not, ← BitVec.toNat_inj]
  rfl

/-- That an instruction issues as `Spec.engine` says: its body, at this state, is the common shape. -/
def EngineIssues (s : State) (i : Instr) (o : LX) (out : Nat ⊕ (OpKind × List (Need × Nat × Nat))) : Prop :=
  ∃ release body, exec i s = run i s body ∧ body s = engineBody o release out s

section
variable (o : LX) (s : State) {out : Nat ⊕ (OpKind × List (Need × Nat × Nat))}

theorem acopy_issues (named : Spec.engine s (.acopy o) = some (o, out)) : EngineIssues s (.acopy o) o out := by
  obtain rfl := (Prod.mk.inj (Option.some.inj named)).2
  rw [EngineIssues, exec_acopy, execAcopy]
  refine ⟨false, _, rfl, engineBody_eq ?_⟩
  dsimp only
  simp only [opAddr_eq, ← bitsOf_eq_extractLsb', bitsOf_low, ← bitOf_eq_getLsbD]
  generalize s.addr o.a = dst, s.addr o.b = src, (s.getX o.c).toNat = c, bitOf o.f16.toNat 0 = reads
  generalize c % 2 ^ 48 = n, bitsOf c 48 15 = node, bitOf c 63 = far
  have bad : (crosses dst n || crosses src n || decide (node > 8191) || far && decide (o.sc.toNat ≠ 4)) = true ↔
      (dst + n > 2 ^ 56 ∨ src + n > 2 ^ 56 ∨ 8191 < node ∨ far = true ∧ o.sc ≠ 4) := by
    simp [crosses, or_assoc, ← BitVec.toNat_inj]
  have remote : (far && decide (node ≠ s.mgmt.node)) = true ↔ far = true ∧ node ≠ s.mgmt.node := by simp
  simp only [bad]
  by_cases ill : dst + n > 2 ^ 56 ∨ src + n > 2 ^ 56 ∨ 8191 < node ∨ far = true ∧ o.sc ≠ 4
  · simp only [if_pos ill]
  · by_cases empty : n = 0
    · simp only [if_neg ill, if_pos empty]
    · by_cases away : far = true ∧ node ≠ s.mgmt.node
      · simp only [if_neg ill, if_neg empty, if_pos away, remote.2 away]
        cases reads with
        | true =>
          simp only [if_true]
          exact (engineRanges_one (.w, dst, n) _).symm
        | false =>
          simp only [Bool.false_eq_true, if_false]
          exact (engineRanges_one (.r, src, n) _).symm
      · simp only [if_neg ill, if_neg empty, if_neg away, Bool.eq_false_iff.2 (mt remote.1 away)]
        exact (engineRanges_two (.w, dst, n) (.r, src, n) _).symm

theorem acopy2d_issues (named : Spec.engine s (.acopy2d o) = some (o, out)) : EngineIssues s (.acopy2d o) o out := by
  obtain rfl := (Prod.mk.inj (Option.some.inj named)).2
  rw [EngineIssues, exec_acopy2d, execAcopy2d]
  refine ⟨false, _, rfl, engineBody_eq ?_⟩
  dsimp only [rowExtent]
  simp only [opAddr_eq, ← bitsOf_eq_extractLsb', bitsOf_low, ← extract_ne_zero, Spec.rowsLow, Spec.rowsHigh]
  generalize s.addr o.a = dst, s.addr o.b = src, (s.getX o.c).toNat = c, (s.getX (o.a + 1)).toInt = ds, (s.getX (o.b + 1)).toInt = ss
  generalize c % 2 ^ 24 = row, bitsOf c 24 24 = rows
  by_cases high : bitsOf c 48 16 ≠ 0
  · simp only [if_pos high]
  · by_cases empty : row = 0 ∨ rows = 0
    · simp only [if_neg high, if_pos empty, Bool.or_eq_true, decide_eq_true_eq]
    · simp only [if_neg high, if_neg empty, Bool.or_eq_true, decide_eq_true_eq, or_assoc, gt_iff_lt]
      split
      · rfl
      · simp only [engineRanges_two]

theorem agather_issues (named : Spec.engine s (.agather o) = some (o, out)) : EngineIssues s (.agather o) o out := by
  obtain rfl := (Prod.mk.inj (Option.some.inj named)).2
  rw [EngineIssues, exec_agather, execAgather]
  refine ⟨false, _, rfl, engineBody_eq ?_⟩
  dsimp only
  have low : (o.f16.extractLsb' 0 3).toNat = o.f16.toNat % 8 := (bitsOf_eq_extractLsb' o.f16 0 3).symm.trans (bitsOf_low _ 3)
  simp only [opAddr_eq, low, ← bitOf_eq_getLsbD, Bool.or_eq_true, crosses_iff]
  by_cases ill : s.addr o.a + (s.getX (o.c + 1)).toNat * 2 ^ (o.f16.toNat % 8) > 2 ^ 56 ∨
      s.addr o.c + (s.getX (o.c + 1)).toNat * (if bitOf o.f16.toNat 3 = true then 8 else 4) > 2 ^ 56
  · simp only [if_pos ill]
  · by_cases empty : (s.getX (o.c + 1)).toNat = 0
    · simp only [if_neg ill, if_pos empty]
    · simp only [if_neg ill, if_neg empty, engineRanges_two]

theorem glaze_issues (named : Spec.engine s (.glaze o) = some (o, out)) : EngineIssues s (.glaze o) o out := by
  obtain rfl := (Prod.mk.inj (Option.some.inj named)).2
  rw [EngineIssues, exec_glaze, execGlaze]
  refine ⟨true, _, rfl, engineBody_eq ?_⟩
  rw [opAddr_eq]
  cases s.windowAt s.cx.as (s.addr o.a) with
  | none => rfl
  | some w => rfl

theorem wread_issues (named : Spec.engine s (.wread o) = some (o, out)) : EngineIssues s (.wread o) o out := by
  obtain rfl := (Prod.mk.inj (Option.some.inj named)).2
  rw [EngineIssues, exec_wread, execWread]
  refine ⟨false, _, rfl, engineBody_eq ?_⟩
  rw [opAddr_eq]
  cases s.windowAt s.cx.as (s.addr o.a) with
  | none => rfl
  | some w => rfl

theorem wbind_issues (named : Spec.engine s (.wbind o) = some (o, out)) : EngineIssues s (.wbind o) o out := by
  obtain rfl := (Prod.mk.inj (Option.some.inj named)).2
  rw [EngineIssues, exec_wbind, execWbind]
  refine ⟨false, _, rfl, engineBody_eq ?_⟩
  simp only [opAddr_eq, crosses_iff]
  split
  · rfl
  · split
    · rfl
    · exact (engineRanges_one (.r, s.addr o.b, 64) _).symm

end

theorem engine_issues {i : Instr} {o : LX} {s : State} {out : Nat ⊕ (OpKind × List (Need × Nat × Nat))} (named : Spec.engine s i = some (o, out)) :
    EngineIssues s i o out := by
  have operands := named
  unfold Spec.engine at operands
  split at operands
  case h_7 => contradiction
  all_goals
    obtain ⟨rfl, -⟩ := Prod.mk.inj (Option.some.inj operands)
  · exact acopy_issues _ s named
  · exact acopy2d_issues _ s named
  · exact agather_issues _ s named
  · exact glaze_issues _ s named
  · exact wread_issues _ s named
  · exact wbind_issues _ s named

end Sys2Proof.Machine

namespace Sys2Proof.Machine

/-! ### Collectives (R124, R360) -/

section
variable {o : LX} {s : State}

/-- What ACOLL does after its checks. -/
def collTail (o : LX) (s : State) (op red fmt n r : Nat) : Except Stop State :=
  let h := o.imm.toNat
  let size := collSize op fmt
  let call := (kvGet h s.collCalls).getD 0
  let s1 := { s with collCalls := kvSet h (call + 1) s.collCalls }
  if r = 0 || s.myRank h ≥ r then endNow s o.d 0 6
  else if crosses (s.addr o.b) (n * size) || crosses (s.addr o.a) (collOutBytes op size n r) || (op = 2 && n % r ≠ 0) then endNow s1 o.d 0 6
  else do
    engineRange s .w (s.addr o.a) (collOutBytes op size n r)
    engineRange s .r (s.addr o.b) (n * size)
    queueOp s1 o.d o.sc (.coll (s.addr o.a) (s.addr o.b) n op red fmt h call)

theorem acoll_ok {t : State} (issues : Issues (.acoll o) s) (free : Spec.tokenFree s o.d)
    (format : collFmtOk (o.f16.extractLsb' 0 4).toNat (o.f16.extractLsb' 6 5).toNat = true)
    (ends : collTail o s (o.f16.extractLsb' 0 4).toNat (o.f16.extractLsb' 4 2).toNat (o.f16.extractLsb' 6 5).toNat (s.getX o.c).toNat
      (s.ranks o.imm.toNat) = .ok t) : exec (.acoll o) s = .next t := by
  rw [exec_acoll, execAcoll]
  refine run_ok issues ?_
  have op : (o.f16.extractLsb' 0 4).toNat = o.f16.toNat % 16 := (bitsOf_eq_extractLsb' o.f16 0 4).symm.trans (bitsOf_low _ 4)
  rw [op, ← bitsOf_eq_extractLsb'] at format
  rw [op, ← bitsOf_eq_extractLsb', ← bitsOf_eq_extractLsb'] at ends
  simp only [format, engineChecks_ok free, bind, Except.bind]
  exact ends

theorem ranks_of_group {g : Group} {h : Nat} (found : s.groups.find? (fun g => g.handle == h) = some g) :
    s.ranks h = g.nodes.length ∧ s.myRank h = g.nodes.idxOf s.mgmt.node := by
  unfold State.ranks State.myRank State.group
  rw [found]
  exact ⟨rfl, rfl⟩

theorem ranks_of_none {h : Nat} (missing : s.groups.find? (fun g => g.handle == h) = none) : s.ranks h = 0 := by
  unfold State.ranks State.group
  rw [missing]
  rfl

theorem collRead_eq (o : LX) (n : Nat) :
    Spec.collRead o n = n * collSize (o.f16.extractLsb' 0 4).toNat (o.f16.extractLsb' 6 5).toNat := by
  have op : (o.f16.extractLsb' 0 4 = 1) = ((o.f16.extractLsb' 0 4).toNat = 1) := propext (BitVec.toNat_inj (y := 1)).symm
  have fmt : (o.f16.extractLsb' 6 5 = 0) = ((o.f16.extractLsb' 6 5).toNat = 0) := propext (BitVec.toNat_inj (y := 0)).symm
  simp only [Spec.collRead, collSize, op, fmt]

theorem collWritten_eq (o : LX) (n : Nat) {r : Nat} (some : 0 < r) :
    Spec.collWritten o n r = collOutBytes (o.f16.extractLsb' 0 4).toNat (collSize (o.f16.extractLsb' 0 4).toNat (o.f16.extractLsb' 6 5).toNat) n r := by
  have zero : (o.f16.extractLsb' 0 4 = 0) = ((o.f16.extractLsb' 0 4).toNat = 0) := propext (BitVec.toNat_inj (y := 0)).symm
  have one : (o.f16.extractLsb' 0 4 = 1) = ((o.f16.extractLsb' 0 4).toNat = 1) := propext (BitVec.toNat_inj (y := 1)).symm
  simp only [Spec.collWritten, collRead_eq, zero, one]
  generalize (o.f16.extractLsb' 0 4).toNat = op
  match op with
  | 0 => rfl
  | 1 => simp [collOutBytes, collSize]
  | op + 2 =>
    have share (size : Nat) : collOutBytes (op + 2) size n r = n / max 1 r * size := rfl
    rw [if_neg (by omega), if_neg (by omega), share, Nat.max_eq_right some]

/-- The formats of R124. -/
theorem collFmtOk_of {op fmt : Nat} (format : if op = 1 then fmt = 0 else fmt ≤ 3 ∨ (5 ≤ fmt ∧ fmt ≤ 7)) : collFmtOk op fmt = true := by
  unfold collFmtOk
  split at format
  case isTrue gather => rw [if_pos gather, format]; rfl
  case isFalse other =>
    rw [if_neg other]
    simpa using format

theorem collTail_none {op red fmt n r : Nat} (outside : r = 0 ∨ r ≤ s.myRank o.imm.toNat) :
    collTail o s op red fmt n r = .ok (s.retX o.d 6) := by
  unfold collTail
  dsimp only
  rw [if_pos (by simpa using outside)]
  exact endNow_status s o.d 6

theorem collTail_bad {op red fmt n r : Nat} (member : s.myRank o.imm.toNat < r)
    (bad : op = 2 ∧ n % r ≠ 0 ∨ 2 ^ 56 < s.addr o.b + n * collSize op fmt ∨ 2 ^ 56 < s.addr o.a + collOutBytes op (collSize op fmt) n r) :
    collTail o s op red fmt n r =
      .ok ({ s with collCalls := kvSet o.imm.toNat ((kvGet o.imm.toNat s.collCalls).getD 0 + 1) s.collCalls }.retX o.d 6) := by
  unfold collTail
  dsimp only
  rw [if_neg (by simp only [Bool.or_eq_true, decide_eq_true_eq]; omega), if_pos]
  · exact endNow_status _ o.d 6
  · simp only [Bool.or_eq_true, crosses_iff, Bool.and_eq_true, decide_eq_true_eq]
    tauto

theorem collTail_queues {op red fmt n r : Nat} (member : s.myRank o.imm.toNat < r) (even : op = 2 → n % r = 0)
    (source : s.addr o.b + n * collSize op fmt ≤ 2 ^ 56) (target : s.addr o.a + collOutBytes op (collSize op fmt) n r ≤ 2 ^ 56)
    (pass : Spec.rangesPass s [(.w, s.addr o.a, collOutBytes op (collSize op fmt) n r), (.r, s.addr o.b, n * collSize op fmt)]) :
    let call := (kvGet o.imm.toNat s.collCalls).getD 0
    let s1 := { s with collCalls := kvSet o.imm.toNat (call + 1) s.collCalls }
    ∃ t, collTail o s op red fmt n r = .ok t ∧ Spec.Queued s1 t o (.coll (s.addr o.a) (s.addr o.b) n op red fmt o.imm.toNat call) := by
  intro call s1
  obtain ⟨t, joined, queued⟩ := queueOp_queued s1 o (.coll (s.addr o.a) (s.addr o.b) n op red fmt o.imm.toNat call)
  refine ⟨t, ?_, queued⟩
  unfold collTail
  dsimp only
  rw [if_neg (by simp only [Bool.or_eq_true, decide_eq_true_eq]; omega), if_neg]
  · rw [← engineRanges_two (.w, s.addr o.a, collOutBytes op (collSize op fmt) n r) (.r, s.addr o.b, n * collSize op fmt), engineRanges_ok pass]
    exact joined
  · simp only [Bool.or_eq_true, crosses_iff, Bool.and_eq_true, decide_eq_true_eq]
    omega

end

end Sys2Proof.Machine

namespace Sys2Proof.Machine

/-! ### ACANCEL (R128, R336) -/

/-- An operation with the identifier of e ends with what e has written, cancelled. -/
def cancelAs (e o : EngineOp) : EngineOp := if o.id = e.id then { o with ended := some (e.written, 3), waitSvc := false } else o

theorem cancelAs_fold_other {l : List EngineOp} {o : EngineOp} (other : ∀ e ∈ l, e.id ≠ o.id) : l.foldl (fun o e => cancelAs e o) o = o := by
  induction l with
  | nil => rfl
  | cons e l ih =>
    have unlike : cancelAs e o = o := if_neg (other e List.mem_cons_self).symm
    rw [List.foldl_cons, unlike]
    exact ih fun e listed => other e (List.mem_cons_of_mem _ listed)

theorem cancelAs_fold_mem {l : List EngineOp} {o : EngineOp} (distinct : (l.map (·.id)).Nodup) (listed : o ∈ l) :
    l.foldl (fun o e => cancelAs e o) o = { o with ended := some (o.written, 3), waitSvc := false } := by
  induction l with
  | nil => contradiction
  | cons e l ih =>
    rw [List.map_cons, List.nodup_cons] at distinct
    obtain ⟨fresh, rest⟩ := distinct
    rw [List.foldl_cons]
    obtain rfl | later := List.mem_cons.1 listed
    · have here : cancelAs o o = { o with ended := some (o.written, 3), waitSvc := false } := if_pos rfl
      rw [here, cancelAs_fold_other]
      intro e inside same
      exact fresh (List.mem_map.2 ⟨e, inside, same⟩)
    · have unlike : cancelAs e o = o := if_neg fun same => fresh (List.mem_map.2 ⟨o, later, same⟩)
      rw [unlike]
      exact ih rest later

/-- Ending operations that hold no pins changes the table of operations alone. -/
theorem endOp_fold (l : List EngineOp) (s : State) (free : ∀ e ∈ l, s.hasPins (.piece e.id) = false) :
    l.foldl (fun (t : State) e => t.endOp e.id e.written 3) s = { s with ops := s.ops.map (fun o => l.foldl (fun o e => cancelAs e o) o) } := by
  induction l generalizing s with
  | nil => simp only [List.foldl_nil, List.map_id']
  | cons e l ih =>
    have pins : (s.modOp e.id (fun o => { o with ended := some (e.written, 3), waitSvc := false })).hasPins (.piece e.id) = false :=
      free e List.mem_cons_self
    have one : s.endOp e.id e.written 3 = { s with ops := s.ops.map (cancelAs e) } := by
      unfold State.endOp State.unpin
      rw [pins]
      rfl
    rw [List.foldl_cons, one]
    refine (ih { s with ops := s.ops.map (cancelAs e) } fun e listed => free e (List.mem_cons_of_mem _ listed)).trans ?_
    simp only [List.map_map]
    rfl

/-- The operations of the executing context that a register's token stands for. -/
theorem ownOp_iff (s : State) (r : Nat) (e : EngineOp) : (s.ownOp e && e.reg == r) = true ↔ e.ctx = s.curCtx ∧ e.asid = s.cx.as ∧ e.sid = s.cx.sid ∧
    (s.curCtx = .a → e.core = s.cur) ∧ e.reg = r ∧ e.ended = none := by
  have turn : (s.curCtx == .u || e.core == s.cur) = true ↔ (s.curCtx = .a → e.core = s.cur) := by
    cases s.curCtx <;> simp
  unfold State.ownOp
  rw [Bool.and_eq_true, Bool.and_eq_true, Bool.and_eq_true, Bool.and_eq_true, Bool.and_eq_true, turn]
  simp only [beq_iff_eq, Option.isNone_iff_eq_none]
  tauto

end Sys2Proof.Machine

namespace Sys2Proof.Proofs
open Machine

/-- Settles O27: the operation joins its queue, the token ends at once, or the check that fails is taken. -/
theorem engineIssue : Obligations.EngineIssue := by
  intro i o s
  refine ⟨fun st named issues free => ?_, fun kind ranges named issues free => ⟨fun pass => ?_, ?_⟩, fun out named issues => ⟨fun zero => ?_, fun two => ?_⟩⟩
  · obtain ⟨release, body, runs, shape⟩ := engine_issues named
    refine ⟨_, ?_, retX_returns s o.d (BitVec.ofNat 64 st)⟩
    rw [runs]
    refine run_ok issues ?_
    rw [shape, engineBody, engineChecks_ok free]
    exact endNow_status s o.d st
  · obtain ⟨release, body, runs, shape⟩ := engine_issues named
    obtain ⟨t, joined, queued⟩ := queueOp_queued s o kind
    refine ⟨t, ?_, queued⟩
    rw [runs]
    refine run_ok issues ?_
    rw [shape, engineBody, engineChecks_ok free]
    simp only [bind, Except.bind, engineRanges_ok pass, joined]
  · intro first need va n rest lo m r split pass part fails
    obtain ⟨release, body, runs, shape⟩ := engine_issues named
    rw [runs]
    refine run_traps issues ?_
    rw [shape, engineBody, engineChecks_ok free, split]
    simp only [bind, Except.bind, engineRanges_fails pass part fails]
  · obtain ⟨release, body, runs, shape⟩ := engine_issues named
    rw [runs]
    refine run_traps issues ?_
    rw [shape]
    unfold engineBody
    rw [zero, engineChecks_zero]
    rfl
  · obtain ⟨release, body, runs, shape⟩ := engine_issues named
    rw [runs]
    refine run_traps issues ?_
    rw [shape]
    unfold engineBody
    rw [two, engineChecks_two]
    rfl

/-- Settles O28: ACOLL queues its call or ends with status 6; ACANCEL ends what is pending. -/
theorem collectiveIssue : Obligations.CollectiveIssue := by
  intro o s
  refine ⟨?_, ?_⟩
  · intro issues free op fmt n call format
    have ends {t : State} := acoll_ok (t := t) issues free (collFmtOk_of format)
    refine ⟨fun g found member even source target pass => ?_, fun g found member bad => ?_, fun g found absent => ?_, fun missing => ?_⟩
    · obtain ⟨ranks, rank⟩ := ranks_of_group found
      have inside : s.myRank o.imm.toNat < g.nodes.length := rank ▸ List.idxOf_lt_length_of_mem member
      rw [collWritten_eq o n (by omega)] at target pass
      rw [collRead_eq] at source pass
      rw [opAddr_eq] at source target pass ⊢
      rw [opAddr_eq] at pass ⊢
      obtain ⟨t, queues, queued⟩ := collTail_queues (red := (o.f16.extractLsb' 4 2).toNat) inside even source target pass
      exact ⟨t, ends (ranks ▸ queues), queued⟩
    · obtain ⟨ranks, rank⟩ := ranks_of_group found
      have inside : s.myRank o.imm.toNat < g.nodes.length := rank ▸ List.idxOf_lt_length_of_mem member
      rw [collWritten_eq o n (by omega), collRead_eq, opAddr_eq, opAddr_eq] at bad
      exact ⟨_, ends (ranks ▸ collTail_bad (red := (o.f16.extractLsb' 4 2).toNat) inside bad), retX_returns _ o.d 6⟩
    · obtain ⟨ranks, rank⟩ := ranks_of_group found
      have outside : g.nodes.length ≤ s.myRank o.imm.toNat := by rw [rank, List.idxOf_eq_length absent]
      exact ⟨_, ends (ranks ▸ collTail_none (.inr outside)), retX_returns s o.d 6⟩
    · exact ⟨_, ends (collTail_none (.inl (ranks_of_none missing))), retX_returns s o.d 6⟩
  · intro issues zero two distinct mine free
    let pending := s.ops.filter (fun e => s.ownOp e && e.reg == o.d.toNat)
    have listed {e : EngineOp} : e ∈ pending ↔ e ∈ s.ops ∧ mine e := by
      rw [List.mem_filter, ownOp_iff]
      rfl
    have cancelled : s.ops.map (fun o => pending.foldl (fun o e => cancelAs e o) o) =
        s.ops.map (fun e => if mine e then { e with ended := some (e.written, 3), waitSvc := false } else e) := by
      refine List.map_congr_left fun e inside => ?_
      split
      case isTrue own =>
        exact cancelAs_fold_mem (distinct.sublist (List.filter_sublist.map _)) (listed.2 ⟨inside, own⟩)
      case isFalse other =>
        refine cancelAs_fold_other fun f mineToo same => ?_
        obtain ⟨there, own⟩ := listed.1 mineToo
        exact other (List.inj_on_of_nodup_map distinct there inside same ▸ own)
    have fold := endOp_fold pending s fun e own => free e (listed.1 own).1 (listed.1 own).2
    rw [cancelled] at fold
    refine ⟨_, ?_, advance_movesTo _⟩
    rw [exec_acancel, execAcancel, ← fold]
    refine run_ok issues ?_
    have named : ¬(o.d = 0 ∨ o.d = 2) := not_or.2 ⟨zero, two⟩
    simp only [Bool.or_eq_true, decide_eq_true_eq, if_neg named] <;> rfl

end Sys2Proof.Proofs
end

section
/-! The cluster copy engines: pieces of a copy, and the other events (R119, R121, R123, R127, R246, R359, R360). The statement O29. -/

namespace Sys2Proof.Machine

/-! ### One operation of the table -/

section
variable {s : State} {o : EngineOp}

theorem op_named {id : Nat} (found : s.op id = some o) : o.id = id := by
  have named := List.find?_some found
  simpa using named

theorem op_listed {id : Nat} (found : s.op id = some o) : o ∈ s.ops := List.mem_of_find?_eq_some found

/-- The operation after its own update. -/
theorem op_modOp {id : Nat} (found : s.op id = some o) {f : EngineOp → EngineOp} (named : ∀ e, e.id = id → (f e).id = id) :
    (s.modOp id f).op id = some (f o) := by
  have test (e : EngineOp) : ((if e.id = id then f e else e).id == id) = (e.id == id) := by
    split
    case isTrue same => rw [named e same, same]
    case isFalse => rfl
  unfold State.op at found ⊢
  unfold State.modOp
  rw [List.find?_map]
  simp only [Function.comp_def, test]
  rw [found, Option.map_some, if_pos (op_named found)]

/-- The operation leaves the table. -/
def State.withoutOp (s : State) (id : Nat) : State := { s with ops := s.ops.filter (fun e => e.id != id) }

theorem op_withoutOp (s : State) (id : Nat) : (s.withoutOp id).op id = none := by
  unfold State.op
  rw [List.find?_eq_none]
  intro e listed
  have other := (List.mem_filter.1 listed).2
  simp only [bne_iff_ne, ne_eq] at other
  simp [other]

/-- The end of an operation that holds no pins. -/
theorem endOp_free {id val st : Nat} (free : s.hasPins (.piece id) = false) :
    s.endOp id val st = s.modOp id (fun o => { o with ended := some (val, st), waitSvc := false }) := by
  have pins : (s.modOp id (fun o => { o with ended := some (val, st), waitSvc := false })).hasPins (.piece id) = false := free
  unfold State.endOp State.unpin
  rw [pins]
  rfl

end

/-- An update of one core. -/
theorem modCore_coreBecomes (s : State) (c : Nat) (f : Core → Core) : CoreBecomes s (s.modCore c f) c (f (s.core c)) :=
  ⟨⟨rfl, fun _ other => State.core_modCore_ne s other _⟩, State.core_modCore_self s c f, fun _ => rfl⟩

/-- The word of a token: VAL in bits 63:16, STATUS in bits 15:0. -/
theorem tokenWord_eq {val st : Nat} (hval : val < 2 ^ 48) (hst : st < 2 ^ 16) :
    BitVec.ofNat 64 (min val (2 ^ 48 - 1) * 2 ^ 16 + st) = BitVec.ofNat 48 val ++ BitVec.ofNat 16 st := by
  refine BitVec.eq_of_toNat_eq ?_
  rw [BitVec.toNat_append, BitVec.toNat_ofNat, BitVec.toNat_ofNat, BitVec.toNat_ofNat, Nat.mod_eq_of_lt hval, Nat.mod_eq_of_lt hst,
    ← Nat.shiftLeft_add_eq_or_of_lt hst, Nat.shiftLeft_eq, Nat.min_eq_left (by omega), Nat.mod_eq_of_lt (by omega)]

/-! ### The events of an engine but its pieces -/

section
variable {s : State} {o : EngineOp} (found : s.op o.id = some o)
include found

theorem tokenCompletion_ended {val st : Nat} (ended : o.ended = some (val, st)) : tokenCompletion o.id s =
    (s.withoutOp o.id).deliver o.core o.asid o.sid o.ctx o.reg
      (BitVec.ofNat 64 (min val (2 ^ 48 - 1) * 2 ^ 16 + st)) (st != 0) := by
  unfold tokenCompletion
  rw [found]
  dsimp only
  rw [ended] <;> rfl

theorem windowExchange_exchanges {va : Nat} {w : Window} (kind : o.kind = .glaze va) (pending : o.ended = none) (bound : s.windowAt o.asid va = some w)
    (first : ∀ e ∈ s.ops, e.id < o.id → e.asid = o.asid → e.sid = o.sid → e.ctx = o.ctx → e.ended ≠ none) :
    windowExchange o.id s = State.modOp { s with windows := s.windows.map (fun (v : Window) => if v.asid = w.asid ∧ v.va = w.va
      then { v with swapped := !v.swapped, version := v.version + 1 } else v) } o.id (fun o => { o with ended := some (w.version + 1, 0) }) := by
  have none_earlier : s.ops.any (fun e => e.id < o.id && e.asid == o.asid && e.sid == o.sid && e.ctx == o.ctx && e.ended.isNone) = false := by
    rw [List.any_eq_false]
    intro e listed earlier
    simp only [Bool.and_eq_true, decide_eq_true_eq, beq_iff_eq, Option.isNone_iff_eq_none] at earlier
    obtain ⟨⟨⟨⟨older, asid⟩, sid⟩, ctx⟩, running⟩ := earlier
    exact first e listed older asid sid ctx running
  unfold windowExchange
  rw [found]
  dsimp only
  rw [kind, pending]
  dsimp only
  rw [none_earlier, bound]
  rfl

theorem collectiveTimeout_eq {dst src n op red fmt g call : Nat} (kind : o.kind = .coll dst src n op red fmt g call) (pending : o.ended = none) :
    collectiveTimeout o.id s = if !o.waitSvc && s.now ≥ o.issuedAt + oneSecond && s.callMissing g call then s.endOp o.id 0 7 else s := by
  unfold collectiveTimeout
  rw [found]
  dsimp only
  rw [kind, pending]

theorem remoteTimeout_eq {dst src n node : Nat} {far : Bool} (kind : o.kind = .remote dst src n node far) (pending : o.ended = none) :
    remoteTimeout o.id s = if !o.waitSvc && s.now ≥ o.issuedAt + oneSecond then s.endOp o.id o.written 7 else s := by
  unfold remoteTimeout
  rw [found]
  dsimp only
  rw [kind, pending]

end

/-- The call of some other member is missing (R360). -/
theorem callMissing_iff (s : State) (g call : Nat) : s.callMissing g call = true ↔
    ∃ gr k, s.groups.find? (fun x => x.handle == g) = some gr ∧ k < gr.nodes.length ∧ k ≠ gr.nodes.idxOf s.mgmt.node ∧
      ∀ p ∈ s.peers, ¬(p.group = g ∧ p.rank = k ∧ p.call = call) := by
  have absent (k : Nat) : (!s.peers.any (fun p => p.group == g && p.rank == k && p.call == call)) = true ↔
      ∀ p ∈ s.peers, ¬(p.group = g ∧ p.rank = k ∧ p.call = call) := by
    simp only [Bool.not_eq_true', List.any_eq_false, Bool.and_eq_true, beq_iff_eq, and_assoc]
  unfold State.callMissing
  cases found : s.groups.find? (fun x => x.handle == g) with
  | none =>
    rw [ranks_of_none found]
    simp [upTo]
  | some gr =>
    obtain ⟨ranks, rank⟩ := ranks_of_group found
    rw [ranks, rank, List.any_eq_true]
    constructor
    · rintro ⟨k, listed, missing⟩
      obtain ⟨inside, other⟩ := List.mem_filter.1 listed
      rw [upTo, ← List.range_eq_range', List.mem_range] at inside
      exact ⟨gr, k, rfl, inside, by simpa using other, (absent k).1 missing⟩
    · rintro ⟨_, k, same, inside, other, missing⟩
      cases same
      refine ⟨k, List.mem_filter.2 ⟨?_, by simpa using other⟩, (absent k).2 missing⟩
      rwa [upTo, ← List.range_eq_range', List.mem_range]

/-- R119, R121, R127, R359, R360: the events of an engine but its pieces. -/
theorem engineEvents_rule : Rule.EngineEvents := by
  intro s o found
  refine ⟨?_, ?_, ?_, ?_⟩
  · intro val st ended hval hst _ _ v
    have word : BitVec.ofNat 64 (min val (2 ^ 48 - 1) * 2 ^ 16 + st) = v := tokenWord_eq hval hst
    have completes := tokenCompletion_ended found ended
    rw [word] at completes
    refine ⟨fun ctx pending => ?_, fun ctx c k holds => ?_⟩
    · have delivered : tokenCompletion o.id s = (s.withoutOp o.id).modCore o.core
          (fun k => { k with a := k.a.complete o.reg v }) := by
        rw [completes, ctx]
        exact if_pos pending
      refine ⟨tokenCompletion o.id s, rfl, ?_⟩
      rw [delivered]
      exact ⟨op_withoutOp s o.id, modCore_coreBecomes (s.withoutOp o.id) o.core fun k => { k with a := k.a.complete o.reg v }⟩
    · have delivered : tokenCompletion o.id s = (s.withoutOp o.id).modCore c
          (fun k => { k with u := k.u.complete o.reg v }) := by
        rw [completes, ctx]
        have here : (s.withoutOp o.id).cores = s.cores := rfl
        unfold State.deliver
        dsimp only
        rw [here, holds]
      refine ⟨tokenCompletion o.id s, rfl, ?_⟩
      rw [delivered]
      exact ⟨op_withoutOp s o.id, modCore_coreBecomes (s.withoutOp o.id) c fun k => { k with u := k.u.complete o.reg v }⟩
  · intro va w kind pending bound first
    refine ⟨windowExchange o.id s, rfl, ?_⟩
    rw [windowExchange_exchanges found kind pending bound first]
    exact ⟨op_modOp found fun _ same => same, rfl, rfl⟩
  · intro dst src n op red fmt g call kind pending free missing due
    have dueIff : (!o.waitSvc && decide (s.now ≥ o.issuedAt + oneSecond) && s.callMissing g call) = true ↔ due := by
      simp only [Bool.and_eq_true, Bool.not_eq_true', decide_eq_true_eq, callMissing_iff, and_assoc]
      rfl
    refine ⟨collectiveTimeout o.id s, rfl, ?_⟩
    rw [collectiveTimeout_eq found kind pending]
    by_cases now : due
    · rw [if_pos (dueIff.2 now), endOp_free free]
      exact ⟨rfl, fun _ => op_modOp found fun _ same => same, fun no => absurd now no⟩
    · rw [if_neg (mt dueIff.1 now)]
      exact ⟨rfl, fun yes => absurd yes now, fun _ => rfl⟩
  · intro dst src n node far kind pending free
    have dueIff : (!o.waitSvc && decide (s.now ≥ o.issuedAt + oneSecond)) = true ↔ o.waitSvc = false ∧ o.issuedAt + 100000000 ≤ s.time.toNat := by
      simp only [Bool.and_eq_true, Bool.not_eq_true', decide_eq_true_eq]
      rfl
    refine ⟨remoteTimeout o.id s, rfl, ?_⟩
    rw [remoteTimeout_eq found kind pending]
    by_cases now : o.waitSvc = false ∧ o.issuedAt + 100000000 ≤ s.time.toNat
    · rw [if_pos (dueIff.2 now), if_pos now, endOp_free free]
      exact ⟨rfl, op_modOp found fun _ same => same⟩
    · rw [if_neg (mt dueIff.1 now), if_neg now]
      exact ⟨rfl, found⟩

/-! ### Whose turn it is (R246) -/

/-- The fold of `State.engineTurn`: the core nearest ahead, of those that it has met. -/
def nearer (ahead : Nat → Nat) (best : Option Nat) (o : EngineOp) : Option Nat :=
  match best with
  | none => some o.core
  | some b => if ahead o.core < ahead b then some o.core else some b

theorem nearer_keeps {ahead : Nat → Nat} {c : Nat} {l : List EngineOp} (nearest : ∀ e ∈ l, e.core = c ∨ ahead c < ahead e.core) :
    l.foldl (nearer ahead) (some c) = some c := by
  induction l with
  | nil => rfl
  | cons e l ih =>
    have kept : nearer ahead (some c) e = some c := by
      unfold nearer
      dsimp only
      obtain same | far := nearest e List.mem_cons_self
      · rw [same, if_neg (Nat.lt_irrefl _)]
      · exact if_neg (by omega)
    rw [List.foldl_cons, kept]
    exact ih fun e listed => nearest e (List.mem_cons_of_mem _ listed)

theorem nearer_finds {ahead : Nat → Nat} {o : EngineOp} {l : List EngineOp} (listed : o ∈ l)
    (nearest : ∀ e ∈ l, e.core = o.core ∨ ahead o.core < ahead e.core) {best : Option Nat} (worse : ∀ b, best = some b → b = o.core ∨ ahead o.core < ahead b) :
    l.foldl (nearer ahead) best = some o.core := by
  induction l generalizing best with
  | nil => contradiction
  | cons e l ih =>
    rw [List.foldl_cons]
    have rest : ∀ f ∈ l, f.core = o.core ∨ ahead o.core < ahead f.core := fun f inside => nearest f (List.mem_cons_of_mem _ inside)
    obtain rfl | later := List.mem_cons.1 listed
    · have found : nearer ahead best o = some o.core := by
        unfold nearer
        cases best with
        | none => rfl
        | some b =>
          dsimp only
          obtain rfl | far := worse b rfl
          · rw [if_neg (Nat.lt_irrefl _)]
          · rw [if_pos far]
      rw [found]
      exact nearer_keeps rest
    · refine ih later rest fun b picked => ?_
      have here := nearest e List.mem_cons_self
      unfold nearer at picked
      split at picked
      · cases picked
        exact here
      · split at picked
        · cases picked
          exact here
        · cases picked
          exact worse _ rfl

theorem engineTurn_of_coreTurn {s : State} {o : EngineOp} (listed : o ∈ s.ops) (active : o.active = true) (turn : Spec.coreTurn s o) :
    s.engineTurn o.cluster = some o.core := by
  have mine : o ∈ s.ops.filter (fun e => e.cluster == o.cluster && e.active) := List.mem_filter.2 ⟨listed, by rw [beq_self_eq_true, active]; rfl⟩
  refine nearer_finds (ahead := fun c => (c % 16 + 31 - (s.cluster o.cluster).lastServed % 16) % 16) (best := none) mine (fun e inside => ?_)
    (fun b none => nomatch none)
  obtain ⟨there, same⟩ := List.mem_filter.1 inside
  simp only [Bool.and_eq_true, beq_iff_eq, EngineOp.active, Option.isNone_iff_eq_none, Bool.not_eq_true'] at same
  obtain ⟨cluster, ⟨running, waits⟩, -⟩ := same
  exact turn e there cluster running waits

/-! ### A piece within the issuing core's own scratchpad (R121, R123) -/

/-- The place of offset `off` of a core's scratchpad. -/
def spadPlace (c off : Nat) : Place := { key := (Loc.spad c off).key, typ := 8, siteOff := none, home := 0, page := 0, big := false }

section
variable {s : State} {o : EngineOp}

theorem isLocal_own {off : Nat} (small : off < 2 ^ 40) : isLocal (0xFF * 2 ^ 48 + off) = true := by
  have window := (window_fields (r := 0) (by decide) small).1
  rwa [Nat.zero_mul, Nat.add_zero] at window

theorem localPlace_spad (c : Nat) {off : Nat} (small : off < 2 ^ 40) : localPlace c (0xFF * 2 ^ 48 + off) = .spad c off := by
  have own := localPlace_own c small
  rwa [Nat.zero_mul, Nat.add_zero] at own

theorem place_own {need : Need} {off n : Nat} (small : off < 2 ^ 40) (owner : (s.core o.core).owner = some o.asid) (still : (s.core o.core).zeroing = false)
    (same : ∀ p ∈ o.dstOwners, p.1 = o.core → p.2 = (s.core o.core).changes) :
    o.place need (0xFF * 2 ^ 48 + off) n s = .ok (s, spadPlace o.core off) := by
  have unchanged : o.dstOwners.any (fun p => p.1 == o.core && p.2 != (s.core o.core).changes) = false := by
    rw [List.any_eq_false]
    intro p listed changed
    simp only [Bool.and_eq_true, beq_iff_eq, bne_iff_ne] at changed
    exact changed.2 (same p listed changed.1)
  unfold EngineOp.place
  rw [isLocal_own small, localPlace_spad _ small]
  simp only [if_true, still, unchanged, Bool.or_false, Bool.and_false, Bool.false_eq_true, if_false, owner, ne_eq, not_true_eq_false]
  rfl

/-- A range within one granule lies at one place. -/
theorem rangePlaces_one {need : Need} {va n fuel : Nat} {p : Place} (some : 0 < n) (within : n ≤ granuleLeft va) (there : o.place need va n s = .ok (s, p)) :
    o.rangePlaces need (fuel + 2) va n s = .ok (s, [(p, va, n)]) := by
  have whole : min n (granuleLeft va) = n := Nat.min_eq_left within
  rw [EngineOp.rangePlaces, if_neg (by omega)]
  dsimp only
  rw [whole, there]
  dsimp only
  rw [EngineOp.rangePlaces, if_pos (Nat.sub_self n)]

theorem operandPlaces_two {va vb n m : Nat} {p q : Place} (readSome : 0 < n) (readWithin : n ≤ granuleLeft va) (read : o.place .r va n s = .ok (s, p))
    (writeSome : 0 < m) (writeWithin : m ≤ granuleLeft vb) (write : o.place .w vb m s = .ok (s, q)) :
    o.operandPlaces [(.r, va, n), (.w, vb, m)] s = .ok (s, [(.r, p), (.w, q)]) := by
  simp only [EngineOp.operandPlaces, rangePlaces_one readSome readWithin read, rangePlaces_one writeSome writeWithin write]
  rfl

/-- A holder without pins or requests asks nothing of a home for places in local memory. -/
theorem pinAll_local {h : Holder} {asid : Nat} {pls : List Place} (free : s.hasPins h = false) (here : ∀ p ∈ pls, p.typ = 8) :
    s.pinAll h asid pls = (s, true) := by
  have nobody (i : Nat) : ∀ q ∈ (s.site i).home.pins ++ (s.site i).home.waiting, (q.holder == h) = false := by
    intro q held
    by_contra mine
    have holder := Bool.eq_true_of_not_eq_false mine
    refine absurd ?_ (Bool.eq_false_iff.1 free)
    unfold State.hasPins
    rw [Vector.any_eq_true]
    refine ⟨i % 4, Nat.mod_lt _ (by decide), ?_⟩
    rw [Bool.or_eq_true, List.any_eq_true, List.any_eq_true]
    obtain pinned | waiting := List.mem_append.1 held
    · exact .inl ⟨q, pinned, holder⟩
    · exact .inr ⟨q, waiting, holder⟩
  have fit : s.pinsFit h pls = true := by
    unfold State.pinsFit
    rw [List.all_eq_true]
    intro i _
    rw [List.all_eq_true]
    intro q held
    simp [bne, nobody i q held]
  have none_asked (i : Nat) : pagesAt i pls = [] := by
    unfold pagesAt
    rw [List.filter_eq_nil_iff.2 fun p listed => by simp [here p listed]]
    rfl
  unfold State.pinAll
  rw [fit]
  have site (i : Nat) : s.pinSite h asid i (pagesAt i pls) = (s, true) := by
    rw [none_asked]
    rfl
  simp only [if_true, List.foldl_cons, List.foldl_nil, site]

theorem anyMoving_local {asid : Nat} {pls : List Place} (here : ∀ p ∈ pls, p.typ = 8) : s.anyMoving asid pls = false := by
  unfold State.anyMoving
  rw [List.any_eq_false]
  intro p listed
  simp [State.placeMoving, here p listed]

theorem unpin_free {h : Holder} (free : s.hasPins h = false) : s.unpin h = s := by
  unfold State.unpin
  rw [free]
  rfl

/-- Poison of a range is poison of a longer one. -/
theorem Memory.poisoned_mono {m : Memory} {a n k : Nat} (clean : m.poisoned a k = false) (shorter : n ≤ k) : m.poisoned a n = false := by
  unfold Memory.poisoned at clean ⊢
  rw [List.any_eq_false] at clean ⊢
  intro p listed bad
  refine clean p listed ?_
  simp only [Bool.and_eq_true, decide_eq_true_eq] at bad ⊢
  omega

theorem spadKey_high (c off : Nat) : 2 ^ 47 ≤ (Loc.spad c off).key := by
  rw [Loc.key]
  omega

/-- A write in a scratchpad changes memory alone. -/
theorem placeWrite_spad (s : State) (asid c off : Nat) (bs : List Byte) :
    s.placeWrite asid (spadPlace c off) bs = { s with mem := s.mem.writeBytes (Loc.spad c off).key bs } := by
  have alive : s.cxlDeadIn (Loc.spad c off).key bs.length = false := cxlDeadIn_local s _ (spadKey_high c off)
  unfold State.placeWrite spadPlace
  simp only [decide_true, Bool.true_or, if_true, alive, Bool.false_eq_true, if_false]

theorem placePoisoned_spad {asid c off n : Nat} (clean : s.mem.poisoned (Loc.spad c off).key n = false) :
    s.placePoisoned asid (spadPlace c off) n = false := by
  have alive : s.cxlDeadIn (Loc.spad c off).key n = false := cxlDeadIn_local s _ (spadKey_high c off)
  unfold State.placePoisoned spadPlace
  simp only [clean, alive, Bool.or_self]

/-- A local place counts nowhere. -/
theorem countHot_local {asid lo n : Nat} {p : Place} (here : p.typ = 8) : s.countHot asid p lo n = s := if_pos here

/-- A piece moved within a scratchpad. -/
theorem move_own {goesOn : Bool} {dst src m lo total : Nat} (near : dst < 2 ^ 40) (nearToo : src < 2 ^ 40)
    (owner : (s.core o.core).owner = some o.asid) (still : (s.core o.core).zeroing = false)
    (same : ∀ p ∈ o.dstOwners, p.1 = o.core → p.2 = (s.core o.core).changes) (clean : s.mem.poisoned (Loc.spad o.core src).key m = false) :
    o.move goesOn (0xFF * 2 ^ 48 + dst) (0xFF * 2 ^ 48 + src) m lo total s =
      .ok ({ s with mem := s.mem.writeBytes (Loc.spad o.core dst).key (s.mem.bytes (Loc.spad o.core src).key m) },
        { o with next := o.next + m, written := o.written + m }.done total) := by
  have read : o.read1 (0xFF * 2 ^ 48 + src) m s = .ok (s, spadPlace o.core src, s.mem.bytes (Loc.spad o.core src).key m) := by
    unfold EngineOp.read1
    rw [place_own nearToo owner still same]
    simp only [placePoisoned_spad clean]
    rfl
  have wrote (bs : List Byte) : o.write1 (0xFF * 2 ^ 48 + dst) bs s =
      .ok ({ s with mem := s.mem.writeBytes (Loc.spad o.core dst).key bs }, spadPlace o.core dst) := by
    have other : (spadPlace o.core dst).typ ≠ 2 := (by decide : (8 : Nat) ≠ 2)
    unfold EngineOp.write1
    rw [place_own near owner still same]
    dsimp only
    rw [if_neg other, placeWrite_spad]
  unfold EngineOp.move
  rw [read]
  dsimp only
  rw [wrote]
  dsimp only
  rw [countHot_local rfl, countHot_local rfl]

theorem granuleLeft_own (off : Nat) : granuleLeft (0xFF * 2 ^ 48 + off) = 4096 - off % 4096 := by
  unfold granuleLeft
  omega

/-- What a piece of m bytes leaves of its operation. -/
def EngineOp.moved (o : EngineOp) (m total : Nat) : EngineOp := { o with next := o.next + m, written := o.written + m }.done total

/-- The next piece of a copy within a scratchpad, with its pins, of which it has none. -/
theorem pinnedPiece_own {ko kd n : Nat} (kind : o.kind = .copy (0xFF * 2 ^ 48 + kd) (0xFF * 2 ^ 48 + ko) n) (left : o.next < n)
    (near : kd + n < 2 ^ 21) (nearToo : ko + n < 2 ^ 21) (free : s.hasPins (.piece o.id) = false)
    (owner : (s.core o.core).owner = some o.asid) (still : (s.core o.core).zeroing = false)
    (same : ∀ p ∈ o.dstOwners, p.1 = o.core → p.2 = (s.core o.core).changes)
    (clean : s.mem.poisoned (Loc.spad o.core (ko + o.next)).key 4096 = false) :
    let m := min (min 4096 (n - o.next)) (min (4096 - (kd + o.next) % 4096) (4096 - (ko + o.next) % 4096))
    o.pinnedPiece s = .ok ({ s with mem := s.mem.writeBytes (Loc.spad o.core (kd + o.next)).key (s.mem.bytes (Loc.spad o.core (ko + o.next)).key m) },
      o.moved m n) := by
  intro m
  have dst : 0xFF * 2 ^ 48 + kd + o.next = 0xFF * 2 ^ 48 + (kd + o.next) := Nat.add_assoc _ _ _
  have src : 0xFF * 2 ^ 48 + ko + o.next = 0xFF * 2 ^ 48 + (ko + o.next) := Nat.add_assoc _ _ _
  have readLeft := granuleLeft_own (ko + o.next)
  have writeLeft := granuleLeft_own (kd + o.next)
  have ranges : o.ranges s = [(.r, 0xFF * 2 ^ 48 + (ko + o.next), min (min 4096 (n - o.next)) (granuleLeft (0xFF * 2 ^ 48 + (ko + o.next)))),
      (.w, 0xFF * 2 ^ 48 + (kd + o.next), min (min 4096 (n - o.next)) (granuleLeft (0xFF * 2 ^ 48 + (kd + o.next))))] := by
    unfold EngineOp.ranges
    rw [kind]
    dsimp only
    rw [dst, src]
  have places := operandPlaces_two (s := s) (o := o) (va := 0xFF * 2 ^ 48 + (ko + o.next)) (vb := 0xFF * 2 ^ 48 + (kd + o.next))
    (n := min (min 4096 (n - o.next)) (granuleLeft (0xFF * 2 ^ 48 + (ko + o.next)))) (m := min (min 4096 (n - o.next)) (granuleLeft (0xFF * 2 ^ 48 + (kd + o.next))))
    (by rw [readLeft]; omega) (Nat.min_le_right _ _) (place_own (by omega) owner still same)
    (by rw [writeLeft]; omega) (Nat.min_le_right _ _) (place_own (by omega) owner still same)
  have piece : o.piece s = .ok ({ s with mem := s.mem.writeBytes (Loc.spad o.core (kd + o.next)).key (s.mem.bytes (Loc.spad o.core (ko + o.next)).key m) },
      o.moved m n) := by
    have short : m ≤ 4096 := by omega
    have moved := move_own (goesOn := o.next != 0) (lo := 0) (total := n) (dst := kd + o.next) (by omega) (by omega) owner still same
      (Memory.poisoned_mono clean short)
    unfold EngineOp.piece
    rw [kind]
    dsimp only
    unfold copyPiece
    dsimp only
    rw [dst, src, readLeft, writeLeft]
    exact moved
  unfold EngineOp.pinnedPiece
  rw [ranges, places]
  dsimp only
  rw [pinAll_local free (by simp [spadPlace])]
  dsimp only
  have quiet (mem : Memory) : State.unpin { s with mem := mem } (.piece o.id) = { s with mem := mem } := unpin_free (s := { s with mem := mem }) free
  rw [anyMoving_local (by simp [spadPlace]), piece]
  simp only [Bool.not_true, Bool.or_self, Bool.false_eq_true, if_false, quiet]

end

/-- R121, R123, R246: a piece of a copy within a scratchpad. -/
theorem copyPiece_rule : Rule.CopyPiece := by
  intro s o ko kd n found turn free pending serves kind left near nearToo owner still same clean m done
  have active : o.active = true := by
    unfold EngineOp.active
    rw [pending, serves, kind]
    rfl
  let s0 := s.modCluster o.cluster (fun k => { k with lastServed := o.core })
  have moved := pinnedPiece_own (s := s0) kind left near nearToo free owner still same clean
  have length : (s.mem.bytes (Loc.spad o.core (ko + o.next)).key m).length = m := Memory.length_bytes _ _ _
  have wrote := s.mem.writeBytes_bytes (Loc.spad o.core (kd + o.next)).key (s.mem.bytes (Loc.spad o.core (ko + o.next)).key m)
  rw [length] at wrote
  obtain ⟨there, elsewhere⟩ := wrote
  generalize memory : s.mem.writeBytes (Loc.spad o.core (kd + o.next)).key (s.mem.bytes (Loc.spad o.core (ko + o.next)).key m) = mem at there elsewhere
  have ran : enginePiece o.id s = State.modOp { s0 with mem := mem } o.id (fun _ => o.moved m n) := by
    have mine : (!o.active || s.engineTurn o.cluster != some o.core) = false := by
      rw [active, engineTurn_of_coreTurn (op_listed found) active turn]
      simp
    unfold enginePiece
    rw [found]
    dsimp only
    rw [mine, moved, ← memory]
    rfl
  have named : (o.moved m n).id = o.id := by
    unfold EngineOp.moved EngineOp.done
    split <;> rfl
  refine ⟨enginePiece o.id s, rfl, ?_⟩
  rw [ran]
  refine ⟨fun j inside => (there j inside).trans ?_, elsewhere, rfl, ?_, ?_⟩
  · rw [List.getD_eq_getElem?_getD, Memory.bytes_getElem? _ _ _ _ inside]
    rfl
  · have served : (State.cluster s0 o.cluster).lastServed = o.core := by
      unfold s0 State.modCluster State.cluster
      rw [kvGet_set_self]
      rfl
    exact served
  · refine (op_modOp found fun _ _ => named).trans (congrArg some ?_)
    unfold EngineOp.moved EngineOp.done
    dsimp only
    by_cases last : o.next + m = n
    · rw [if_pos (by omega)]
      simp only [done, last, decide_true, if_true]
    · rw [if_neg (by omega)]
      simp only [done, last, decide_false, Bool.false_eq_true, if_false, pending]

end Sys2Proof.Machine

namespace Sys2Proof.Proofs
open Machine

/-- Settles O29: the two rules together. -/
theorem engineEvents : Obligations.EngineEvents := ⟨copyPiece_rule, engineEvents_rule⟩

end Sys2Proof.Proofs
end

section
/-! Vector configuration and the writes of VTYPE (R25, R76, R94, R140, R224, R382). The statement O30. -/

namespace Sys2Proof.Machine

/-! ### The fields of VTYPE (R25) and lengths (R76) -/

theorem vtEw_eq (t : BitVec 16) : vtEw t = (t.extractLsb' 5 3).toNat := bitsOf_eq_extractLsb' t 5 3

theorem vtEf_eq (t : BitVec 16) : vtEf t = (t.extractLsb' 0 5).toNat := bitsOf_eq_extractLsb' t 0 5

theorem vtBl_eq (t : BitVec 16) : vtBl t = (t.extractLsb' 8 3).toNat := bitsOf_eq_extractLsb' t 8 3

theorem vtEw_eq_zero_iff (t : BitVec 16) : vtEw t = 0 ↔ t.extractLsb' 5 3 = 0 := by
  rw [vtEw_eq]
  exact BitVec.toNat_inj (y := (0 : BitVec 3))

theorem vtBl_eq_zero_iff (t : BitVec 16) : vtBl t = 0 ↔ t.extractLsb' 8 3 = 0 := by
  rw [vtBl_eq]
  exact BitVec.toNat_inj (y := (0 : BitVec 3))

theorem widthOf_eq (t : BitVec 16) : Spec.widthOf t = ewBits (vtEw t) := by
  unfold Spec.widthOf
  rw [vtEw_eq]
  generalize t.extractLsb' 5 3 = e
  revert e
  decide

/-- The bits of VTYPE that a write leaves zero belong to no field (R25). -/
theorem vtype_masked (t : BitVec 16) : vtEw (t &&& 0x3FFF) = vtEw t ∧ vtBl (t &&& 0x3FFF) = vtBl t := by
  rw [vtEw_eq, vtEw_eq, vtBl_eq, vtBl_eq]
  have kept (lo : Nat) (low : lo + 3 ≤ 14) : (t &&& 0x3FFF).extractLsb' lo 3 = t.extractLsb' lo 3 := by
    refine BitVec.eq_of_getLsbD_eq fun i hi => ?_
    have one : (0x3FFF#16).getLsbD (lo + i) = true := by
      have all : ∀ j < 14, (0x3FFF#16).getLsbD j = true := by decide
      exact all (lo + i) (by omega)
    simp [BitVec.getLsbD_extractLsb', one]
  rw [kept 5 (by decide), kept 8 (by decide)]
  exact ⟨rfl, rfl⟩

theorem cutBlocks_eq (t : BitVec 16) (n : Nat) :
    cutBlocks t n = if t.extractLsb' 8 3 = 0 then n else n - n % 2 ^ ((t.extractLsb' 8 3).toNat + 2) := by
  have whole (m : Nat) : n / m * m = n - n % m := by
    have := Nat.div_add_mod' n m
    omega
  unfold cutBlocks
  rw [whole, vtBl_eq]
  exact if_congr (BitVec.toNat_inj (y := (0 : BitVec 3))) rfl rfl

theorem vlmaxAt_eq (s : State) (w : Nat) : s.vlmaxAt s.cur w = if w = 0 then 0 else Spec.vlmax s w := by
  unfold State.vlmaxAt State.vlmaxb Core.gangSize Spec.vlmax
  split
  · rfl
  · split
    · simp
    · rfl

/-- vl_of a request at VTYPE's width. -/
theorem cutBlocks_lengthOf (s : State) (t : BitVec 16) (req : Nat) :
    cutBlocks t (min req (s.vlmaxAt s.cur (ewBits (vtEw t)))) = Spec.lengthOf s t req := by
  rw [cutBlocks_eq, vlmaxAt_eq, ← widthOf_eq]
  unfold Spec.lengthOf
  dsimp only
  by_cases dead : Spec.widthOf t = 0
  · rw [if_pos dead, if_pos dead, Nat.min_zero]
  · rw [if_neg dead, if_neg dead]

theorem setvlResult_eq (s : State) (req : Nat) : s.setvlResult req = BitVec.ofNat 64 (Spec.lengthOf s s.cx.vtype req) := by
  rw [State.setvlResult]
  exact congrArg _ (cutBlocks_lengthOf s s.cx.vtype req)

theorem vtypeOk_iff (t : BitVec 16) : vtypeOk t = true ↔ Spec.vtypeLegal t := by
  unfold vtypeOk Spec.vtypeLegal registerWidth
  rw [widthOf_eq, ← vtEw_eq, ← vtEf_eq]
  dsimp only
  generalize vtEf t = f
  have format : ((1 ≤ f && f ≤ 3) || (5 ≤ f && f ≤ 28)) = true ↔ (1 ≤ f ∧ f ≤ 3) ∨ (5 ≤ f ∧ f ≤ 28) := by simp
  have wide : ((1 ≤ f ∧ f ≤ 3) ∨ (5 ≤ f ∧ f ≤ 28)) → fmtWidth f ≠ 0 := by
    intro listed
    have all : ∀ f < 29, ((1 ≤ f ∧ f ≤ 3) ∨ (5 ≤ f ∧ f ≤ 28)) → fmtWidth f ≠ 0 := by decide
    exact all f (by omega) listed
  by_cases listed : (1 ≤ f ∧ f ≤ 3) ∨ (5 ≤ f ∧ f ≤ 28)
  · rw [if_pos (format.2 listed)]
    simp [wide listed, listed]
  · rw [if_neg (mt format.1 listed)]
    simp [listed]

theorem flips_iff (s : State) (t : BitVec 16) : ((vtEw s.vtype == 0) != (vtEw t == 0)) = true ↔
    ¬(s.cx.vtype.extractLsb' 5 3 = 0 ↔ t.extractLsb' 5 3 = 0) := by
  rw [← vtEw_eq_zero_iff, ← vtEw_eq_zero_iff, bne_iff_ne, ne_eq, Bool.eq_iff_iff, beq_iff_eq, beq_iff_eq]
  rfl

theorem vtypeWaits_iff (s : State) (t : BitVec 16) : vtypeWaits t s = true ↔ ¬Spec.vtypeReady s t := by
  unfold vtypeWaits Spec.vtypeReady
  rw [Bool.and_eq_true, Bool.and_eq_true, flips_iff, beq_iff_eq, Bool.not_eq_true', List.isEmpty_eq_false_iff]
  tauto

/-- A VTYPE write changes the executing core alone (R12, R17, R25). -/
theorem setVtype_eq (s : State) (t : BitVec 16) : s.setVtype t = s.setCore s.cur (Spec.vtypeWritten s t) := by
  have masked : vtEw (t &&& 0x3FFF) = vtEw t := (vtype_masked t).1
  have flips := flips_iff s t
  unfold State.setVtype Spec.vtypeWritten
  dsimp only
  rw [masked]
  have one : s.modCx (fun k => { k with vtype := t &&& 0x3FFF }) = s.setCore s.cur (s.me.setCtx s.curCtx { s.cx with vtype := t &&& 0x3FFF }) := rfl
  by_cases user : s.curCtx = .u
  · by_cases change : ¬(s.cx.vtype.extractLsb' 5 3 = 0 ↔ t.extractLsb' 5 3 = 0)
    · rw [if_pos (by simp [user, flips.2 change]), if_pos (And.intro user change), one, State.modCore, State.setCore_setCore,
        State.core_setCore_self, State.cx, user]
      rfl
    · rw [if_neg (by simp [mt flips.1 change]), if_neg (fun both => change both.2)]
      rfl
  · rw [if_neg (by simp [user]), if_neg (fun both => user both.1)]
    rfl

/-! ### Rights of major 20 (R224) -/

theorem configAllowed_ok {s : State} (i : Instr) (here : Spec.strandHere s) : configAllowed i s = .ok () := by
  obtain user | holds := here
  · simp [configAllowed, vectorAllowed, user]
  · simp [configAllowed, vectorAllowed, holds]

theorem configAllowed_denied {s : State} (i : Instr) (handler : s.curCtx = .a) (none : s.me.uHolds = false) :
    configAllowed i s = .error (.trap (illins i 10)) := by
  simp [configAllowed, vectorAllowed, handler, none]

/-! ### The remap to 15 lanes (R382) -/

theorem remapLanes_mapped {s : State} (mapped : Spec.mapped s) : remapLanes s = .ok s := by
  unfold remapLanes
  obtain handler | whole | done := mapped
  · simp [handler]
  · simp [whole]
  · simp [done]

section
variable {s : State} {lane : Nat} (user : s.curCtx = .u) (retired : s.me.retLane = some lane) (unmapped : s.me.remapped = false)
include user retired unmapped

theorem remapLanes_waits (queued : s.me.queue ≠ []) : remapLanes s = .error .stall := by
  simp [remapLanes, user, retired, unmapped, queued]

theorem remapLanes_retired (empty : s.me.queue = []) : remapLanes s = .ok (Spec.remap s lane) := by
  simp only [remapLanes, user, retired, unmapped, empty]
  rfl

end

/-- What the remap makes of its core. -/
def Core.fifteenLanes (k : Core) : Core :=
  { k with remapped := true, v := k.v.map (fun r => (r.setWidth 3840).setWidth 32768), m := k.m.map (fun r => (r.setWidth 480).setWidth 4096) }

theorem me_remap (s : State) (lane : Nat) : (Spec.remap s lane).me = s.me.fifteenLanes :=
  State.core_modCore_self s s.cur Core.fifteenLanes

theorem mapped_remap (s : State) (lane : Nat) : Spec.mapped (Spec.remap s lane) := Or.inr (Or.inr (congrArg Core.remapped (me_remap s lane)))

theorem cx_remap (s : State) (lane : Nat) : (Spec.remap s lane).cx = s.cx := by
  unfold State.cx
  rw [me_remap]
  change Core.ctx _ s.curCtx = _
  cases s.curCtx <;> rfl

theorem guard_remap (i : Instr) (s : State) (lane : Nat) : guard i (Spec.remap s lane) = guard i s := by
  have work : (Spec.remap s lane).me.aWork = s.me.aWork := by rw [me_remap]; rfl
  have strand : (Spec.remap s lane).myStrand = s.myStrand := by
    unfold State.myStrand
    rw [cx_remap]
    rfl
  have wrong : misused (Spec.remap s lane) i = misused s i := by
    cases i with
    | hend => simp only [misused, work, strand]; rfl
    | sret o => rfl
    | _ => rfl
  have token : tokenWait (Spec.remap s lane) i = tokenWait s i := by rw [tokenWait, cx_remap, tokenWait]
  have priv : privTrap (Spec.remap s lane) i 0 = privTrap s i 0 := by rw [privTrap, cx_remap, privTrap]
  unfold guard
  rw [wrong, token, priv, cx_remap]
  rfl

theorem issues_remap {i : Instr} {s : State} (issues : Issues i s) (lane : Nat) : Issues i (Spec.remap s lane) :=
  (guard_eq_none_iff i _).1 ((guard_remap i s lane).trans ((guard_eq_none_iff i s).2 issues))

theorem getX_remap (s : State) (lane : Nat) (r : BitVec 5) : (Spec.remap s lane).getX r = s.getX r := by
  rw [State.getX, cx_remap, State.getX]

/-! ### SETVL, VSETT and VSETTX once the lanes are mapped (R25, R140) -/

theorem writeVtype_ok {s : State} {t : BitVec 16} (i : Instr) (legal : Spec.vtypeLegal t) (ready : Spec.vtypeReady s t) :
    writeVtype i t s = .ok (s.setCore s.cur (Spec.vtypeWritten s t)) := by
  have free : vtypeWaits t s = false := Bool.eq_false_iff.2 fun waits => (vtypeWaits_iff s t).1 waits ready
  simp only [writeVtype, (vtypeOk_iff t).2 legal, free, setVtype_eq]
  rfl

theorem writeVtype_waits {s : State} {t : BitVec 16} (i : Instr) (legal : Spec.vtypeLegal t) (pending : ¬Spec.vtypeReady s t) :
    writeVtype i t s = .error .stall := by
  simp only [writeVtype, (vtypeOk_iff t).2 legal, (vtypeWaits_iff s t).2 pending]
  rfl

theorem writeVtype_illegal {t : BitVec 16} (i : Instr) (s : State) (illegal : ¬Spec.vtypeLegal t) :
    writeVtype i t s = .error (.trap (fmtbad i (vtEf t) 1)) := by
  simp only [writeVtype, Bool.eq_false_iff.2 fun ok => illegal ((vtypeOk_iff t).1 ok)]
  rfl

/-- VLMAX is of the core alone, so a VTYPE write changes no length but by the type itself. -/
theorem setvlResult_written (s : State) (t : BitVec 16) (req : Nat) :
    (s.setCore s.cur (Spec.vtypeWritten s t)).setvlResult req = BitVec.ofNat 64 (Spec.lengthOf s t req) := by
  have core : (s.setCore s.cur (Spec.vtypeWritten s t)).me = Spec.vtypeWritten s t := State.core_setCore_self s s.cur _
  have type : (s.setCore s.cur (Spec.vtypeWritten s t)).cx.vtype = t &&& 0x3FFF := by
    rw [State.cx, core]
    change ((Spec.vtypeWritten s t).ctx s.curCtx).vtype = _
    unfold Spec.vtypeWritten
    cases s.curCtx <;> rfl
  have lanes : (Spec.vtypeWritten s t).remapped = s.me.remapped ∧ (Spec.vtypeWritten s t).gang = s.me.gang := by
    unfold Spec.vtypeWritten
    dsimp only
    split <;> cases s.curCtx <;> exact ⟨rfl, rfl⟩
  have longest (w : Nat) : Spec.vlmax (s.setCore s.cur (Spec.vtypeWritten s t)) w = Spec.vlmax s w := by
    unfold Spec.vlmax
    rw [core, lanes.1, lanes.2]
    rfl
  have width : Spec.widthOf (t &&& 0x3FFF) = Spec.widthOf t := by rw [widthOf_eq, widthOf_eq, (vtype_masked t).1]
  have block : (t &&& 0x3FFF).extractLsb' 8 3 = t.extractLsb' 8 3 := by
    have := (vtype_masked t).2
    rw [vtBl_eq, vtBl_eq] at this
    exact BitVec.eq_of_toNat_eq this
  rw [setvlResult_eq, type]
  unfold Spec.lengthOf
  simp only [width, block, longest]

/-- What VSETT and VSETTX do on a legal type. -/
theorem typed_returns (s : State) (t : BitVec 16) (d : BitVec 5) (req : Nat) :
    CoreBecomes s ((s.setCore s.cur (Spec.vtypeWritten s t)).retX d ((s.setCore s.cur (Spec.vtypeWritten s t)).setvlResult req)) s.cur
      (Spec.returned (Spec.vtypeWritten s t) s.curCtx d (BitVec.ofNat 64 (Spec.lengthOf s t req))) := by
  rw [setvlResult_written]
  exact setCore_modCx_coreBecomes s _ fun k => (k.setX d _).advance

section
variable {s t : State}

theorem exec_setvl_of {o : LH} (here : Spec.strandHere s) (issues : Issues (.setvl o) s) (maps : remapLanes s = .ok t) :
    exec (.setvl o) s = .next (t.retX o.d (t.setvlResult (s.getX o.a).toNat)) := by
  refine (exec_setvl s o).trans (run_ok issues ?_)
  simp only [configAllowed_ok _ here, maps]
  rfl

theorem exec_vsett_of {o : LI16} (here : Spec.strandHere s) (issues : Issues (.vsett o) s) (legal : Spec.vtypeLegal o.imm)
    (maps : remapLanes s = .ok t) (ready : Spec.vtypeReady t o.imm) :
    exec (.vsett o) s = .next ((t.setCore t.cur (Spec.vtypeWritten t o.imm)).retX o.d
      ((t.setCore t.cur (Spec.vtypeWritten t o.imm)).setvlResult (2 ^ 64))) := by
  refine (exec_vsett s o).trans (run_ok issues ?_)
  simp only [configAllowed_ok _ here, maps, (vtypeOk_iff _).2 legal, bind, Except.bind, writeVtype_ok _ legal ready]
  rfl

theorem exec_vsettx_of {o : LH} (here : Spec.strandHere s) (issues : Issues (.vsettx o) s) (small : (s.getX o.a).toNat < 2 ^ 16)
    (legal : Spec.vtypeLegal ((s.getX o.a).setWidth 16)) (maps : remapLanes s = .ok t)
    (ready : Spec.vtypeReady t ((s.getX o.a).setWidth 16)) :
    exec (.vsettx o) s = .next ((t.setCore t.cur (Spec.vtypeWritten t ((s.getX o.a).setWidth 16))).retX o.d
      ((t.setCore t.cur (Spec.vtypeWritten t ((s.getX o.a).setWidth 16))).setvlResult (s.getX o.b).toNat)) := by
  refine (exec_vsettx s o).trans (run_ok issues ?_)
  simp only [configAllowed_ok _ here, maps, (vtypeOk_iff _).2 legal, bind, Except.bind, writeVtype_ok _ legal ready,
    ge_iff_le, not_le.2 small]
  rfl

theorem exec_vsett_waits {o : LI16} (here : Spec.strandHere s) (issues : Issues (.vsett o) s) (legal : Spec.vtypeLegal o.imm)
    (waits : remapLanes s = .error .stall ∨ (remapLanes s = .ok s ∧ ¬Spec.vtypeReady s o.imm)) : exec (.vsett o) s = .next s := by
  refine (exec_vsett s o).trans (run_error (e := .stall) issues ?_)
  simp only [configAllowed_ok _ here, (vtypeOk_iff _).2 legal, bind, Except.bind]
  obtain maps | ⟨maps, pending⟩ := waits
  · rw [maps]
    rfl
  · simp only [maps, writeVtype_waits _ legal pending]
    rfl

theorem exec_vsett_illegal {o : LI16} (here : Spec.strandHere s) (issues : Issues (.vsett o) s) (illegal : ¬Spec.vtypeLegal o.imm) :
    exec (.vsett o) s = .next (takeTrap (fmtbad (.vsett o) (vtEf o.imm) 1) s) := by
  refine (exec_vsett s o).trans (run_traps issues ?_)
  simp only [configAllowed_ok _ here, Bool.eq_false_iff.2 fun ok => illegal ((vtypeOk_iff _).1 ok), bind, Except.bind]
  rfl

theorem exec_vsettx_waits {o : LH} (here : Spec.strandHere s) (issues : Issues (.vsettx o) s) (small : (s.getX o.a).toNat < 2 ^ 16)
    (legal : Spec.vtypeLegal ((s.getX o.a).setWidth 16))
    (waits : remapLanes s = .error .stall ∨ (remapLanes s = .ok s ∧ ¬Spec.vtypeReady s ((s.getX o.a).setWidth 16))) :
    exec (.vsettx o) s = .next s := by
  refine (exec_vsettx s o).trans (run_error (e := .stall) issues ?_)
  simp only [configAllowed_ok _ here, (vtypeOk_iff _).2 legal, bind, Except.bind, ge_iff_le, not_le.2 small]
  obtain maps | ⟨maps, pending⟩ := waits
  · rw [maps]
    rfl
  · simp only [maps, writeVtype_waits _ legal pending]
    rfl

theorem exec_vsettx_illegal {o : LH} (here : Spec.strandHere s) (issues : Issues (.vsettx o) s)
    (illegal : 2 ^ 16 ≤ (s.getX o.a).toNat ∨ ¬Spec.vtypeLegal ((s.getX o.a).setWidth 16)) :
    exec (.vsettx o) s = .next (takeTrap (fmtbad (.vsettx o) (vtEf ((s.getX o.a).setWidth 16)) 1) s) := by
  have bad : (decide ((s.getX o.a).toNat ≥ 2 ^ 16) || !vtypeOk ((s.getX o.a).setWidth 16)) = true := by
    obtain wide | reserved := illegal
    · rw [decide_eq_true wide, Bool.true_or]
    · simp [Bool.eq_false_iff.2 fun ok => reserved ((vtypeOk_iff _).1 ok)]
  refine (exec_vsettx s o).trans (run_traps issues ?_)
  simp only [configAllowed_ok _ here, bind, Except.bind, bad]
  rfl

/-- R224: an instruction of major 20 but GANG first asks whether a strand is here. -/
theorem exec_major20_denied {i : Instr} (issues : Issues i s) (major : Spec.major20 i) (handler : s.curCtx = .a) (none : s.me.uHolds = false) :
    exec i s = .next (takeTrap (illins i 10) s) := by
  have denied := configAllowed_denied i handler none
  unfold Spec.major20 at major
  split at major
  case h_1 o => exact (exec_setvl s o).trans (run_traps issues (by simp only [denied]; rfl))
  case h_2 o => exact (exec_vsett s o).trans (run_traps issues (by simp only [denied]; rfl))
  case h_3 o => exact (exec_vsettx s o).trans (run_traps issues (by simp only [denied]; rfl))
  case h_4 o => exact (exec_slip s o).trans (run_traps issues (by simp only [denied]; rfl))
  case h_5 => exact (exec_qsync s).trans (run_traps issues (by simp only [denied]; rfl))
  case h_6 => exact (exec_ungang s).trans (run_traps issues (by simp only [denied]; rfl))
  case h_7 => exact absurd major id

theorem exec_gang_waits {o : LH} (issues : Issues (.gang o) s) (maps : remapLanes s = .error .stall) : exec (.gang o) s = .next s := by
  refine (exec_gang s o).trans (run_error (e := .stall) issues ?_)
  rw [maps]
  rfl

/-- GANG once the lanes are mapped and nothing is queued (R141). -/
theorem exec_gang_of {o : LH} (issues : Issues (.gang o) s) (maps : remapLanes s = .ok t) (empty : t.me.queue = []) :
    exec (.gang o) s = .next ((if gangStatus t (2 ^ (o.f.toNat % 4)) = 0 then t.formGang (2 ^ (o.f.toNat % 4)) else t).retX o.d
      (BitVec.ofNat 64 (gangStatus t (2 ^ (o.f.toNat % 4))))) := by
  refine (exec_gang s o).trans (run_ok issues ?_)
  simp only [maps, bind, Except.bind, empty]
  rfl

end

/-! ### A CSR write of VTYPE (R94) -/

section
variable {i : Instr} {o : LI16} {f : Word → Word → Word} {reads : Bool} {s : State}

theorem csrOp_vtype (vtype : o.imm = 0x005) : csrOp i o (some f) reads s =
    (match writeVtype i ((f (s.cx.vtype.setWidth 64) (s.getX o.d)).setWidth 16) s with
      | .error e => .error e
      | .ok s1 => .ok (if reads then s1.retX o.d (s.cx.vtype.setWidth 64) else s1.advance)) := by
  have allowed : csrAccess i 5 true s = .ok () :=
    (csrAccess_ok_iff i 5 true s).2 ⟨by decide, fun service => absurd service (by decide), fun _ => ⟨by decide, fun service => absurd service (by decide)⟩⟩
  have settled : csrWaits 5 s = false := csrWaits_eq_false ⟨fun other => absurd other (by decide), fun other => absurd other (by decide)⟩
  have number : o.imm.toNat % 4096 = 5 := by rw [vtype]; rfl
  have old : s.csr 5 = s.cx.vtype.setWidth 64 := rfl
  simp only [csrOp, number, Option.isSome_some, allowed, settled, old]
  rfl

theorem exec_csrWrite_vtype (form : Spec.csrWrite i = some (o, f, reads)) (issues : Issues i s) (vtype : o.imm = 0x005)
    (legal : Spec.vtypeLegal ((f (s.cx.vtype.setWidth 64) (s.getX o.d)).setWidth 16))
    (ready : Spec.vtypeReady s ((f (s.cx.vtype.setWidth 64) (s.getX o.d)).setWidth 16)) :
    exec i s = .next ((s.setCore s.cur (Spec.vtypeWritten s ((f (s.cx.vtype.setWidth 64) (s.getX o.d)).setWidth 16))).modCx fun x =>
      (if reads then x.setX o.d (s.cx.vtype.setWidth 64) else x).advance) := by
  refine (exec_csrWrite s form).trans (run_ok issues ?_)
  rw [csrOp_vtype vtype, writeVtype_ok i legal ready]
  cases reads <;> rfl

theorem exec_csrWrite_vtype_waits (form : Spec.csrWrite i = some (o, f, reads)) (issues : Issues i s) (vtype : o.imm = 0x005)
    (legal : Spec.vtypeLegal ((f (s.cx.vtype.setWidth 64) (s.getX o.d)).setWidth 16))
    (pending : ¬Spec.vtypeReady s ((f (s.cx.vtype.setWidth 64) (s.getX o.d)).setWidth 16)) : exec i s = .next s := by
  refine (exec_csrWrite s form).trans (run_error (e := .stall) issues ?_)
  rw [csrOp_vtype vtype, writeVtype_waits i legal pending]

theorem exec_csrWrite_vtype_illegal (form : Spec.csrWrite i = some (o, f, reads)) (issues : Issues i s) (vtype : o.imm = 0x005)
    (illegal : ¬Spec.vtypeLegal ((f (s.cx.vtype.setWidth 64) (s.getX o.d)).setWidth 16)) :
    exec i s = .next (takeTrap (fmtbad i (vtEf ((f (s.cx.vtype.setWidth 64) (s.getX o.d)).setWidth 16)) 1) s) := by
  refine (exec_csrWrite s form).trans (run_traps issues ?_)
  rw [csrOp_vtype vtype, writeVtype_illegal i s illegal]

end

end Sys2Proof.Machine

/-! ### The statement -/

namespace Sys2Proof.Proofs

open Sys2Proof.Machine

/-- `Rule.VectorConfig`: the lanes are mapped, so each instruction is its VTYPE write and its length. -/
theorem vectorConfigRule : Rule.VectorConfig := by
  intro s here
  refine ⟨fun o issues mapped => ?_, fun o issues mapped legal ready => ?_, fun o issues => ?_, fun o issues => ⟨?_, ?_⟩, fun o issues => ?_⟩
  · refine ⟨_, exec_setvl_of here issues (remapLanes_mapped mapped), ?_⟩
    rw [setvlResult_eq]
    exact retX_returns s o.d _
  · exact ⟨_, exec_vsett_of here issues legal (remapLanes_mapped mapped) ready, typed_returns s o.imm o.d _⟩
  · intro v small mapped legal ready
    exact ⟨_, exec_vsettx_of here issues small legal (remapLanes_mapped mapped) ready, typed_returns s v o.d _⟩
  · exact fun mapped legal pending => exec_vsett_waits here issues legal (.inr ⟨remapLanes_mapped mapped, pending⟩)
  · intro illegal
    rw [exec_vsett_illegal here issues illegal, fmtbad_vtype]
  · intro v
    refine ⟨fun small mapped legal pending => exec_vsettx_waits here issues small legal (.inr ⟨remapLanes_mapped mapped, pending⟩), fun illegal => ?_⟩
    rw [exec_vsettx_illegal here issues illegal, fmtbad_vtype]

/-- `Rule.VectorConfigElse`: the remap leaves the lanes mapped, so the instruction does there what it does on the remapped core. -/
theorem vectorConfigElse : Rule.VectorConfigElse := by
  intro i s issues
  refine ⟨fun major handler none => exec_major20_denied issues major handler none, fun form lane user retired unmapped => ⟨fun queued => ?_, fun empty => ?_⟩⟩
  · have here : Spec.strandHere s := .inl user
    have waits := remapLanes_waits user retired unmapped queued
    obtain ⟨o, rfl⟩ | ⟨o, rfl, legal⟩ | ⟨o, rfl, small, legal⟩ | ⟨o, rfl⟩ := form
    · exact (exec_setvl s o).trans (run_error (e := .stall) issues (by simp only [configAllowed_ok _ here, waits]; rfl))
    · exact exec_vsett_waits here issues legal (.inl waits)
    · exact exec_vsettx_waits here issues small legal (.inl waits)
    · exact exec_gang_waits issues waits
  · have here : Spec.strandHere s := .inl user
    have here' : Spec.strandHere (Spec.remap s lane) := .inl user
    have issues' := issues_remap issues lane
    have maps := remapLanes_retired user retired unmapped empty
    have maps' := remapLanes_mapped (mapped_remap s lane)
    have empty' : (Spec.remap s lane).me.queue = [] := by rw [me_remap]; exact empty
    have ready (v : BitVec 16) : Spec.vtypeReady (Spec.remap s lane) v := fun _ _ => empty'
    obtain ⟨o, rfl⟩ | ⟨o, rfl, legal⟩ | ⟨o, rfl, small, legal⟩ | ⟨o, rfl⟩ := form
    · rw [exec_setvl_of here issues maps, exec_setvl_of here' issues' maps', getX_remap]
    · rw [exec_vsett_of here issues legal maps (ready _), exec_vsett_of here' issues' legal maps' (ready _)]
    · rw [exec_vsettx_of here issues small legal maps (ready _),
        exec_vsettx_of here' issues' (by rwa [getX_remap]) (by rwa [getX_remap]) maps' (ready _), getX_remap, getX_remap]
    · rw [exec_gang_of issues maps empty', exec_gang_of issues' maps' empty']

/-- `Rule.VtypeCsr`: the write of number 5 is a VTYPE write. -/
theorem vtypeCsr : Rule.VtypeCsr := by
  intro i o f reads s form issues vtype old v k
  refine ⟨fun legal ready => ?_, exec_csrWrite_vtype_waits form issues vtype, fun illegal => ?_⟩
  · exact ⟨_, exec_csrWrite_vtype form issues vtype legal ready,
      setCore_modCx_coreBecomes s k fun x => (if reads then x.setX o.d old else x).advance⟩
  · rw [exec_csrWrite_vtype_illegal form issues vtype illegal, fmtbad_vtype]

/-- Settles O30: the three instructions, their traps, waits and remap, and the CSR writes of VTYPE. -/
theorem vectorConfig : Obligations.VectorConfig := ⟨vectorConfigRule, vectorConfigElse, vtypeCsr⟩

end Sys2Proof.Proofs
end

section
/-! Vector lengths, and the instructions that read vector state into an x register (R76, R130, R145, R146). The statement O33. -/

namespace Sys2Proof.Machine

/-! ### Lengths -/

theorem upTo_eq (n : Nat) : upTo n = List.range n := (List.range_eq_range' (n := n)).symm

theorem vlmaxAt_eq_vlmax (s : State) (w : Nat) : s.vlmaxAt s.cur w = Spec.vlmax s w := by
  rw [vlmaxAt_eq]
  split
  case isTrue dead => rw [dead, Spec.vlmax, Nat.div_zero, ite_self]
  case isFalse => rfl

/-- vl_of(L) is the length for the register's value, and for L = 0 VLMAX, which 2^64 bounds unless a gang is larger than any machine. -/
theorem vlOf_eq (s : State) (l : BitVec 5) (small : l = 0 → Spec.vlmax s (Spec.widthOf s.cx.vtype) ≤ 2 ^ 64) : s.vlOf l = Spec.vl s l := by
  unfold State.vlOf State.vlOfAt Spec.vl
  rw [← cutBlocks_lengthOf]
  dsimp only
  by_cases all : l = 0
  · rw [if_pos all, if_pos all, Nat.min_eq_right]
    · rfl
    · rw [vlmaxAt_eq, ← widthOf_eq]
      split
      · exact Nat.zero_le _
      · exact small all
  · rw [if_neg all, if_neg all]
    rfl

/-- A length cut to whole blocks keeps what lies below the last multiple of 512. -/
theorem cutBlocks_ge (t : BitVec 16) {n : Nat} (large : 2 ^ 64 ≤ n) : 4096 ≤ cutBlocks t n := by
  have small : 2 ^ ((t.extractLsb' 8 3).toNat + 2) ≤ 2 ^ 10 := by
    have := (t.extractLsb' 8 3).isLt
    exact Nat.pow_le_pow_right (by decide) (by omega)
  have rest := Nat.mod_lt n (Nat.two_pow_pos ((t.extractLsb' 8 3).toNat + 2))
  rw [cutBlocks_eq]
  split <;> omega

/-- Otherwise both lengths lie beyond the 4,096 bits of a mask register. -/
theorem vlOf_cases (s : State) (l : BitVec 5) : s.vlOf l = Spec.vl s l ∨ (4096 ≤ s.vlOf l ∧ 4096 ≤ Spec.vl s l) := by
  by_cases small : l = 0 → Spec.vlmax s (Spec.widthOf s.cx.vtype) ≤ 2 ^ 64
  · exact .inl (vlOf_eq s l small)
  · rw [Classical.not_imp, Nat.not_le] at small
    obtain ⟨all, large⟩ := small
    have wide : Spec.widthOf s.cx.vtype ≠ 0 := by
      intro dead
      rw [dead] at large
      unfold Spec.vlmax at large
      split at large <;> omega
    have vm : s.vlmaxAt s.cur (ewBits (vtEw s.cx.vtype)) = Spec.vlmax s (Spec.widthOf s.cx.vtype) := by
      rw [vlmaxAt_eq, ← widthOf_eq, if_neg wide]
    refine .inr ⟨?_, ?_⟩
    · unfold State.vlOf State.vlOfAt
      dsimp only
      rw [if_pos all]
      refine cutBlocks_ge _ ?_
      change 2 ^ 64 ≤ s.vlmaxAt s.cur (ewBits (vtEw s.cx.vtype))
      rw [vm]
      exact large.le
    · unfold Spec.vl
      rw [if_pos all, ← cutBlocks_lengthOf, vm, Nat.min_eq_left large.le]
      exact cutBlocks_ge _ (Nat.le_refl _)

/-! ### Bits of a mask register -/

theorem mBit_beyond (k : Core) (r : Nat) {i : Nat} (beyond : 4096 ≤ i) : k.mBit r i = false := BitVec.getLsbD_of_ge _ _ beyond

/-- What holds of no index beyond m is found among the first m. -/
theorem filter_range_of_beyond {p : Nat → Bool} {m n : Nat} (beyond : ∀ i, m ≤ i → p i = false) (large : m ≤ n) :
    (List.range n).filter p = (List.range m).filter p := by
  obtain ⟨k, rfl⟩ := Nat.exists_eq_add_of_le large
  have none : ((List.range k).map (m + ·)).filter p = [] := by
    rw [List.filter_eq_nil_iff]
    intro i hi
    obtain ⟨j, -, rfl⟩ := List.mem_map.1 hi
    simp [beyond]
  rw [List.range_add, List.filter_append, none, List.append_nil]

theorem find_range_of_beyond {p : Nat → Bool} {m n : Nat} (beyond : ∀ i, m ≤ i → p i = false) (large : m ≤ n) :
    (List.range n).find? p = (List.range m).find? p := by
  rw [← List.head?_filter, ← List.head?_filter, filter_range_of_beyond beyond large]

theorem mask_range (s : State) (k : Core) (r : Nat) (l : BitVec 5) :
    (List.range (s.vlOf l)).filter (k.mBit r) = (List.range (Spec.vl s l)).filter (k.mBit r) := by
  obtain same | ⟨model, spec⟩ := vlOf_cases s l
  · rw [same]
  · rw [filter_range_of_beyond (fun _ => mBit_beyond k r) model, filter_range_of_beyond (fun _ => mBit_beyond k r) spec]

/-! ### The checks that every instruction of majors 21 to 29 makes first -/

theorem vectorChecks_ok {s : State} (i : Instr) (live : Spec.vectorLive s) : vectorChecks i s = .ok () := by
  obtain ⟨width, here⟩ := live
  have allowed : vectorAllowed i true s = .ok () :=
    vectorAllowed_ok i (here.imp id (And.imp id fun other => mt (vtEw_eq_zero_iff _).1 other))
  have wide : vtEw s.vtype ≠ 0 := mt (vtEw_eq_zero_iff _).1 width
  simp only [vectorChecks, allowed, ewLive, wide]
  rfl

theorem scalarHalf_ok {s : State} (i : Instr) (r : RegName) (live : Spec.vectorLive s) (empty : s.me.queue = []) :
    scalarHalf i r s = .ok () := by
  simp only [scalarHalf, vectorChecks_ok i live, empty]
  rfl

theorem elemPoisoned_none {k : Core} (clean : k.regPoison = []) (r : RegName × Nat × Nat) : k.elemPoisoned r = false := by
  simp [Core.elemPoisoned, clean]

theorem maskPoison_none {k : Core} (clean : k.regPoison = []) (d : BitVec 5) (n : Nat) : k.maskPoison d n = none := by
  simp [Core.maskPoison, clean]

theorem vElem_eq (k : Core) (r : BitVec 5) (w j : Nat) : k.vElem r.toNat w j = ((k.v[r.toNat]'r.isLt).extractLsb' (j * w) w).toNat := by
  have number : r.toNat % 32 = r.toNat := Nat.mod_eq_of_lt r.isLt
  simp only [Core.vElem, number]

section
variable {s : State} (live : Spec.vectorLive s) (empty : s.me.queue = []) (clean : s.me.regPoison = [])
include live empty clean

theorem exec_vmovx_of {o : LV} (issues : Issues (.vmovx o) s) : exec (.vmovx o) s = .next (s.retX o.d
    (if Spec.vlmax s (Spec.ew s) ≤ (s.getX o.b).toNat then 0
      else if o.f.getLsbD 0 then ((s.me.v[o.a.toNat]'o.a.isLt).extractLsb' ((s.getX o.b).toNat * Spec.ew s) (Spec.ew s)).setWidth 64
      else ((s.me.v[o.a.toNat]'o.a.isLt).extractLsb' ((s.getX o.b).toNat * Spec.ew s) (Spec.ew s)).signExtend 64)) := by
  have width : ewBits (vtEw s.vtype) = Spec.ew s := (widthOf_eq _).symm
  refine (exec_vmovx s o).trans (run_ok issues ?_)
  simp only [scalarHalf_ok _ _ live empty, bind, Except.bind, width, vlmaxAt_eq_vlmax, elemPoisoned_none clean, ge_iff_le,
    Bool.false_eq_true, if_false, vElem_eq, bitOf_eq_getLsbD, pure, Except.pure]
  split
  · rfl
  · split
    · rw [BitVec.ofNat_toNat]
    · rw [sInt_eq_toInt, BitVec.setWidth_eq]
      rfl

theorem maskRead_ok {i : Instr} {o : LH} (f : Core → Nat → Nat → Word) :
    maskRead i o f s = .ok (s.retX o.d (f s.me o.a.toNat (s.vlOf (o.f.setWidth 5)))) := by
  simp only [maskRead, scalarHalf_ok _ _ live empty, bind, Except.bind, maskPoison_none clean]
  rfl

end

end Sys2Proof.Machine

/-! ### The statement -/

namespace Sys2Proof.Proofs

open Sys2Proof.Machine

/-- Settles O33: nothing is queued and no register is poisoned, so each gives what it reads. -/
theorem vectorToScalar : Obligations.VectorToScalar := by
  intro s live empty clean
  refine ⟨fun o issues => ?_, fun o issues => ?_, fun o issues => ?_⟩
  · exact ⟨_, exec_vmovx_of live empty clean issues, retX_returns s o.d _⟩
  · refine ⟨_, (exec_mpop s o).trans (run_ok issues (maskRead_ok live empty clean _)), ?_⟩
    rw [upTo_eq, mask_range]
    exact retX_returns s o.d _
  · refine ⟨_, (exec_mfirst s o).trans (run_ok issues (maskRead_ok live empty clean _)), ?_⟩
    rw [firstBit, upTo_eq, ← List.head?_filter, mask_range, List.head?_filter]
    exact retX_returns s o.d _

end Sys2Proof.Proofs
end

section
/-! Issue of queued vector instructions. The statement O32. -/

namespace Sys2Proof.Proofs

open Sys2Proof.Machine

/-- A strand on a vector core that leads a gang of 2^62 cores, with bytes as elements: more of them than the 2^64 that `Spec.vl` asks for when L is 0. -/
def vastGang : State :=
  { State.reset with
    cur := 300
    cores := [(300, { Core.reset with uWork := .strand, gang := .leader (2 ^ 62), u := { Ctx.reset with asid := 1, pc := 0x10000, vtype := 0x20 } })] }

/-- VADD of v0 and v0 into v0 at every element. -/
def wholeAdd : LV := { d := 0, f := 0, z := 0, msk := 0, cB := 0, cA := 0, l := 0, b := 0, a := 0 }

/-- The entry's length is VLMAX. -/
theorem vastGang_length : (match exec (.vadd wholeAdd) vastGang with
    | .next t => decide ((t.core 300).queue.map (·.vl) = [2 ^ 71]) | _ => false) = true := by decide +kernel

/-- Refutes O32: a leader's gang may be of any size in a state, and with L = 0 the entry's length is VLMAX, not the least of VLMAX and 2^64. -/
theorem not_vectorIssue : ¬ Obligations.VectorIssue := by
  intro h
  have issues : Issues (.vadd wholeAdd) vastGang := by decide +kernel
  have live : Spec.vectorLive vastGang := ⟨by decide +kernel, .inl rfl⟩
  have room : Spec.room vastGang (.vadd wholeAdd) :=
    ⟨by decide +kernel, fun e he => absurd he List.not_mem_nil, fun _ o ho => absurd ho List.not_mem_nil⟩
  have length : Spec.vl vastGang wholeAdd.l = 2 ^ 64 := by decide +kernel
  obtain ⟨t, ran, -, core, -⟩ := h.1 (.vadd wholeAdd) vastGang _ _ _ rfl issues live trivial room
  have long := vastGang_length
  rw [ran] at long
  have queue := of_decide_eq_true long
  have core' := congrArg (fun k => k.queue.map (·.vl)) core
  have least : (t.core 300).queue.map (·.vl) = [Spec.vl vastGang wholeAdd.l] := core'
  rw [queue, length] at least
  exact absurd least (by decide)

end Sys2Proof.Proofs
end

section
/-! Matrix instructions: issue, and what the oldest short entry does (R154 to R160, R167, R168, R170). The statements O35 and O36. -/

namespace Sys2Proof.Machine

/-! ### Checks at issue -/

theorem matrixChecks_ok {s : State} {names : Bool} (i : Instr) (live : Spec.matrixLive s names) : matrixChecks i names s = .ok () := by
  obtain ⟨here, width⟩ := live
  have allowed : vectorAllowed i names s = .ok () := by
    obtain user | ⟨holds, other⟩ := here
    · simp [vectorAllowed, user]
    · cases names with
      | false => simp [vectorAllowed, holds]
      | true =>
        have wide : vtEw s.me.u.vtype ≠ 0 := mt (vtEw_eq_zero_iff _).1 (other rfl)
        simp [vectorAllowed, holds, wide]
  cases names with
  | false => simp [matrixChecks, allowed]
  | true =>
    have wide : vtEw s.vtype ≠ 0 := mt (vtEw_eq_zero_iff _).1 (width rfl)
    simp [matrixChecks, allowed, ewLive, wide]

theorem mfmt_of (f16 : BitVec 16) : (mfmt f16).of = (f16.extractLsb' 2 5).toNat := bitsOf_eq_extractLsb' f16 2 5

theorem mfmt_af (f16 : BitVec 16) : (mfmt f16).af = (f16.extractLsb' 0 2).toNat := by
  have := bitsOf_eq_extractLsb' f16 0 2
  rw [← this]
  simp [mfmt, bitsOf]

theorem mfmt_af_eq_two (f16 : BitVec 16) : (mfmt f16).af = 2 ↔ f16.extractLsb' 0 2 = 2 := by
  rw [mfmt_af]
  exact BitVec.toNat_inj (y := (2 : BitVec 2))

theorem ofCheck_ok {f16 : BitVec 16} (i : Instr) (legal : Spec.pairLegal f16) : ofCheck i (mfmt f16) = .ok () := by
  obtain ⟨notFour, listed, pairs⟩ := legal
  have same : ((mfmt f16).of == 0) = ((mfmt f16).af == 2) := by
    rw [Bool.eq_iff_iff, beq_iff_eq, beq_iff_eq, mfmt_af_eq_two, mfmt_of]
    exact pairs
  have fine : ¬((mfmt f16).of = 4 ∨ (mfmt f16).of ≥ 29 ∨ (((mfmt f16).of == 0) != ((mfmt f16).af == 2)) = true) := by
    rw [same, mfmt_of]
    simp only [bne_self_eq_false, Bool.false_eq_true, or_false]
    omega
  simp only [ofCheck, if_neg fine]

theorem vecPoison_none {k : Core} (clean : k.regPoison = []) (regs : List RegName) (w n : Nat) : vecPoison k regs w n = none := by
  simp [vecPoison, clean]

theorem accPoison_none {k : Core} (clean : k.regPoison = []) (d lo n : Nat) : k.accPoison d lo n = none := by
  simp [Core.accPoison, clean]

theorem mqCount_eq (k : Core) : k.mqCount = k.mq.length + (if k.long = none then 0 else 1) := by
  cases h : k.long <;> simp [Core.mqCount, h]

/-- A change of the executing core that keeps its contexts, and then next_pc. -/
theorem modCore_advance_coreBecomes (s : State) (f : Core → Core) (u : (f s.me).u = s.me.u) (a : (f s.me).a = s.me.a) :
    CoreBecomes s (s.modCore s.cur f).advance s.cur ((f s.me).setCtx s.curCtx s.cx.advance) := by
  have becomes := setCore_modCx_coreBecomes s (f s.me) Ctx.advance
  have kept : (f s.me).ctx s.curCtx = s.cx := by
    unfold State.cx
    cases s.curCtx
    · exact u
    · exact a
  rw [kept] at becomes
  exact becomes

theorem issueShort_joins {s : State} (i : Instr) (a b : Word) (room : s.me.mq.length + (if s.me.long = none then 0 else 1) < 8)
    (written : ∀ e ∈ s.me.queue, e.done = true ∨ meets (entryWrites e.instr) (mqReads i) = false) :
    ∃ t, issueShort i a b s = .ok t ∧
      CoreBecomes s t s.cur { s.meNext with mq := s.me.mq ++ [{ instr := i, ctx := s.curCtx, op1 := a, op2 := b }] } := by
  have free : ¬(s.me.mqCount ≥ 8) := by rw [mqCount_eq]; omega
  have ready : s.me.queue.any (fun e => !e.done && meets (entryWrites e.instr) (mqReads i)) = false := by
    rw [List.any_eq_false]
    intro e he
    obtain finished | apart := written e he
    · simp [finished]
    · simp [apart]
  refine ⟨_, if_neg (by simp [free, ready]), ?_⟩
  have becomes := modCore_advance_coreBecomes s
    (fun k => { k with mq := k.mq ++ [{ instr := i, ctx := s.curCtx, op1 := a, op2 := b }] }) rfl rfl
  have joined : ({ s.meNext with mq := s.me.mq ++ [{ instr := i, ctx := s.curCtx, op1 := a, op2 := b }] } : Core) =
      ({ s.me with mq := s.me.mq ++ [{ instr := i, ctx := s.curCtx, op1 := a, op2 := b }] } : Core).setCtx s.curCtx s.cx.advance := by
    unfold State.meNext
    cases s.curCtx <;> rfl
  rw [joined]
  exact becomes

section
variable {s : State} {i : Instr} {a b : Word} {names : Bool} {legal : Prop}

/-- The body of every short instruction, once its registers are legal and clean. -/
theorem short_joins (form : Spec.short s i = some (a, b, names, legal)) (live : Spec.matrixLive s names) (fits : legal)
    (clean : s.me.regPoison = []) (issues : Issues i s) {t : State} (joins : issueShort i a b s = .ok t) : exec i s = .next t := by
  have checks := matrixChecks_ok i live
  unfold Spec.short at form
  split at form <;> cases form
  case h_1 o =>
    refine (exec_ranka s o).trans (run_ok issues ?_)
    simp only [issueRank, checks, ofCheck_ok _ fits, vecPoison_none clean, accPoison_none clean, bind, Except.bind]
    exact joins
  case h_2 o =>
    refine (exec_ranks s o).trans (run_ok issues ?_)
    simp only [issueRank, checks, ofCheck_ok _ fits, vecPoison_none clean, accPoison_none clean, bind, Except.bind]
    exact joins
  case h_3 o =>
    refine (exec_mwr s o).trans (run_ok issues ?_)
    simp only [checks, ofCheck_ok _ fits, vecPoison_none clean, bind, Except.bind]
    exact joins
  case h_4 o =>
    refine (exec_mrowacc s o).trans (run_ok issues ?_)
    simp only [checks, ofCheck_ok _ fits, vecPoison_none clean, accPoison_none clean, bind, Except.bind]
    exact joins
  case h_5 o =>
    refine (exec_mzero s o).trans (run_ok issues ?_)
    simp only [checks, bind, Except.bind]
    exact joins
  case h_6 o =>
    refine (exec_mdrop s o).trans (run_ok issues ?_)
    simp only [checks, bind, Except.bind]
    exact joins

end

theorem exec_mstat_of {s : State} {o : LH} (issues : Issues (.mstat o) s) (live : Spec.matrixLive s false) :
    exec (.mstat o) s = .next (s.retX o.d (BitVec.ofNat 64
      ((if s.me.lastJoined then 2 ^ 13 else 0) + min 8 (s.me.mq.length + (if s.me.long = none then 0 else 1)) * 2 ^ 8 +
        (match s.me.long with | some l => 2 ^ (l.acc % 4) | none => 0) * 2 ^ 4 + s.me.acLive.toNat))) := by
  refine (exec_mstat s o).trans (run_ok issues ?_)
  simp only [matrixChecks_ok _ live, bind, Except.bind, mqCount_eq]
  have joined : b2n s.me.lastJoined * 2 ^ 13 = if s.me.lastJoined then 2 ^ 13 else 0 := by cases s.me.lastJoined <;> rfl
  rw [joined]
  cases s.me.long <;> rfl

section
variable {s : State} (issues : Issues .mwait s) (live : Spec.matrixLive s false)
include issues live

theorem exec_mwait_done (done : ∀ e ∈ s.me.mq, e.ctx ≠ s.curCtx) : exec .mwait s = .next s.advance := by
  have none : s.me.mq.any (fun e => e.ctx == s.curCtx) = false := by
    rw [List.any_eq_false]
    exact fun e he => mt beq_iff_eq.1 (done e he)
  refine (exec_mwait s).trans (run_ok issues ?_)
  simp only [matrixChecks_ok _ live, bind, Except.bind, none]
  rfl

theorem exec_mwait_waits (waits : ∃ e ∈ s.me.mq, e.ctx = s.curCtx) : exec .mwait s = .next s := by
  obtain ⟨e, he, same⟩ := waits
  have some : s.me.mq.any (fun e => e.ctx == s.curCtx) = true := List.any_eq_true.2 ⟨e, he, beq_iff_eq.2 same⟩
  refine (exec_mwait s).trans (run_error (e := .stall) issues ?_)
  simp only [matrixChecks_ok _ live, bind, Except.bind, some]
  rfl

end

end Sys2Proof.Machine

namespace Sys2Proof.Proofs

open Sys2Proof.Machine

/-- Settles O35: a short instruction joins MQ, MSTAT reads, and MWAIT waits for the context's entries. -/
theorem matrixIssue : Obligations.MatrixIssue := by
  intro s
  refine ⟨fun i a b names legal form issues live fits room clean written => ?_, fun o issues live => ?_, fun issues live => ⟨fun done => ?_, fun waits => ?_⟩⟩
  · obtain ⟨t, joins, becomes⟩ := issueShort_joins i a b room written
    exact ⟨t, short_joins form live fits clean issues joins, becomes⟩
  · exact ⟨_, exec_mstat_of issues live, retX_returns s o.d _⟩
  · exact ⟨_, exec_mwait_done issues live done, advance_movesTo s⟩
  · exact exec_mwait_waits issues live waits

end Sys2Proof.Proofs
end

section
/-! Fields of numbers and elements of accumulators; what the oldest short matrix entry does (R63 to R66, R155 to R160, R167, R168, R170). The
statement O36. -/

namespace Sys2Proof.Machine

/-! ### Fields of numbers -/

theorem testBit_bitsOf (n lo len i : Nat) : (bitsOf n lo len).testBit i = (decide (i < len) && n.testBit (lo + i)) := by
  rw [bitsOf, Nat.testBit_mod_two_pow, Nat.testBit_div_two_pow, Nat.add_comm]

theorem testBit_setBits (n lo len v i : Nat) :
    (setBits n lo len v).testBit i = if lo ≤ i ∧ i < lo + len then v.testBit (i - lo) else n.testBit i := by
  have parts : n = 2 ^ lo * (2 ^ len * (n / 2 ^ lo / 2 ^ len) + bitsOf n lo len) + n % 2 ^ lo := by
    rw [bitsOf, Nat.div_add_mod, Nat.div_add_mod]
  have low : n % 2 ^ lo < 2 ^ lo := Nat.mod_lt _ (Nat.two_pow_pos lo)
  have field : v % 2 ^ len < 2 ^ len := Nat.mod_lt _ (Nat.two_pow_pos len)
  have replaced : setBits n lo len v = 2 ^ lo * (2 ^ len * (n / 2 ^ lo / 2 ^ len) + v % 2 ^ len) + n % 2 ^ lo := by
    have rest : n - bitsOf n lo len * 2 ^ lo = 2 ^ lo * (2 ^ len * (n / 2 ^ lo / 2 ^ len)) + n % 2 ^ lo := by
      conv_lhs => lhs; rw [parts]
      rw [Nat.mul_add, Nat.mul_comm (bitsOf n lo len)]
      omega
    rw [setBits, rest, Nat.mul_add, Nat.mul_comm (v % 2 ^ len)]
    omega
  rw [replaced, Nat.testBit_two_pow_mul_add _ low, Nat.testBit_two_pow_mul_add _ field]
  by_cases below : i < lo
  · rw [if_pos below, if_neg (by omega), Nat.testBit_mod_two_pow, decide_eq_true below, Bool.true_and]
  · rw [if_neg below]
    by_cases inside : i - lo < len
    · rw [if_pos inside, if_pos (by omega), Nat.testBit_mod_two_pow, decide_eq_true inside, Bool.true_and]
    · rw [if_neg inside, if_neg (by omega), Nat.testBit_div_two_pow, Nat.testBit_div_two_pow]
      congr 1
      omega

/-- A field inside the one that is replaced. -/
theorem bitsOf_setBits_inside {n lo len v lo' len' : Nat} (above : lo ≤ lo') (below : lo' + len' ≤ lo + len) :
    bitsOf (setBits n lo len v) lo' len' = bitsOf v (lo' - lo) len' := by
  refine Nat.eq_of_testBit_eq fun i => ?_
  rw [testBit_bitsOf, testBit_bitsOf, testBit_setBits]
  by_cases hi : i < len'
  · rw [if_pos (by omega)]
    congr 2
    omega
  · simp [hi]

/-- A field apart from the one that is replaced. -/
theorem bitsOf_setBits_apart {n lo len v lo' len' : Nat} (apart : lo' + len' ≤ lo ∨ lo + len ≤ lo') :
    bitsOf (setBits n lo len v) lo' len' = bitsOf n lo' len' := by
  refine Nat.eq_of_testBit_eq fun i => ?_
  rw [testBit_bitsOf, testBit_bitsOf, testBit_setBits]
  by_cases hi : i < len'
  · rw [if_neg (by omega)]
  · simp [hi]

theorem bitsOf_mod {n w lo len : Nat} (inside : lo + len ≤ w) : bitsOf (n % 2 ^ w) lo len = bitsOf n lo len := by
  refine Nat.eq_of_testBit_eq fun i => ?_
  rw [testBit_bitsOf, testBit_bitsOf, Nat.testBit_mod_two_pow]
  by_cases hi : i < len
  · rw [decide_eq_true (show lo + i < w by omega), Bool.true_and]
  · simp [hi]

theorem bitsOf_ofNat {w n lo len : Nat} (inside : lo + len ≤ w) : bitsOf (BitVec.ofNat w n).toNat lo len = bitsOf n lo len := by
  rw [BitVec.toNat_ofNat, bitsOf_mod inside]

/-! ### Elements of accumulators -/

theorem joinWords_word (ws : List Nat) (i : Nat) : bitsOf (joinWords ws) (32 * i) 32 = ws.getD i 0 % 2 ^ 32 := by
  induction ws generalizing i with
  | nil => simp [joinWords, bitsOf]
  | cons w ws ih =>
    have low : w % 2 ^ 32 < 2 ^ 32 := Nat.mod_lt _ (Nat.two_pow_pos 32)
    have step : joinWords (w :: ws) = 2 ^ 32 * joinWords ws + w % 2 ^ 32 := Nat.add_comm _ _
    rw [step, bitsOf]
    cases i with
    | zero =>
      rw [Nat.mul_zero, Nat.pow_zero, Nat.div_one, Nat.mul_add_mod, Nat.mod_mod]
      rfl
    | succ i =>
      rw [Nat.mul_succ, Nat.add_comm (32 * i), Nat.pow_add, ← Nat.div_div_eq_div_mul, Nat.mul_add_div (Nat.two_pow_pos 32),
        Nat.div_eq_of_lt low, Nat.add_zero]
      exact ih i

/-- The elements of rows of 64, in order. -/
theorem rows_getElem? {α : Type} (g : Nat → Nat → α) (m : Nat) {r j : Nat} (hr : r < m) (hj : j < 64) :
    ((List.range m).flatMap (fun i => (List.range 64).map (g i)))[64 * r + j]? = some (g r j) := by
  have length (n : Nat) : ((List.range n).flatMap (fun i => (List.range 64).map (g i))).length = 64 * n := by
    simp [List.length_flatMap, Nat.mul_comm]
  induction m with
  | zero => omega
  | succ m ih =>
    rw [List.range_succ (n := m), List.flatMap_append]
    by_cases last : r = m
    · rw [List.getElem?_append_right (by rw [length]; omega), length, last]
      simp [hj]
    · rw [List.getElem?_append_left (by rw [length]; omega)]
      exact ih (by omega)

theorem accWord_eq (a : BitVec 131072) (r j : Nat) : accWord a r j = bitsOf a.toNat (32 * (64 * r + j)) 32 := by
  rw [accWord, ← bitsOf_eq_extractLsb', Nat.mul_comm]

theorem accWord_ofNat {n r j : Nat} (hr : r < 64) (hj : j < 64) :
    accWord (BitVec.ofNat 131072 n) r j = bitsOf n (32 * (64 * r + j)) 32 := by
  have inside : 32 * (64 * r + j) + 32 ≤ 131072 := by omega
  rw [accWord_eq, bitsOf_ofNat inside]

theorem accWord_zero (r j : Nat) : accWord 0 r j = 0 := by simp [accWord]

theorem accWord_accAll (a : BitVec 131072) (f : Nat → Nat → Nat → Flagged Nat) {r j : Nat} (hr : r < 64) (hj : j < 64) :
    accWord (accAll a f).1 r j = (f r j (accWord a r j)).1 % 2 ^ 32 := by
  unfold accAll
  dsimp only
  rw [accWord_ofNat hr hj, joinWords_word, upTo_eq, List.getD_eq_getElem?_getD, List.getElem?_map,
    rows_getElem? (fun i j => f i j (accWord a i j)) 64 hr hj]
  rfl

theorem accWord_accRow (a : BitVec 131072) (row : Nat) (f : Nat → Nat → Flagged Nat) {r j : Nat} (hr : r < 64) (hj : j < 64) :
    accWord (accRow a row f).1 r j = if r = row then (f j (accWord a row j)).1 % 2 ^ 32 else accWord a r j := by
  unfold accRow
  dsimp only
  rw [accWord_ofNat hr hj]
  split
  case isTrue same =>
    subst same
    rw [bitsOf_setBits_inside (by omega) (by omega), show 32 * (64 * r + j) - 2048 * r = 32 * j by omega, joinWords_word,
      upTo_eq, List.getD_eq_getElem?_getD, List.getElem?_map, List.getElem?_map, List.getElem?_range hj]
    rfl
  case isFalse other =>
    rw [bitsOf_setBits_apart (by omega), ← accWord_eq]

theorem acc_setAcc_self (k : Core) (d lo n : Nat) (a : BitVec 131072) : (k.setAcc d lo n a).acc d = a := by
  simp [Core.acc, Core.setAcc]

theorem acc_setAcc_ne (k : Core) {d e : Nat} (other : e % 4 ≠ d % 4) (lo n : Nat) (a : BitVec 131072) : (k.setAcc d lo n a).acc e = k.acc e := by
  simp [Core.acc, Core.setAcc, other.symm]

theorem acLive_setAcc (k : Core) (d lo n : Nat) (a : BitVec 131072) : (k.setAcc d lo n a).acLive.getLsbD (d % 4) = true := by
  have : d % 4 < 4 := Nat.mod_lt _ (by decide)
  simp [Core.setAcc, this]

theorem acc_dropAcc_self (k : Core) (d : Nat) : (k.dropAcc d).acc d = 0 := by simp [Core.acc, Core.dropAcc]

theorem acc_dropAcc_ne (k : Core) {d e : Nat} (other : e % 4 ≠ d % 4) : (k.dropAcc d).acc e = k.acc e := by
  simp [Core.acc, Core.dropAcc, other.symm]

theorem acLive_dropAcc (k : Core) (d : Nat) : (k.dropAcc d).acLive.getLsbD (d % 4) = false := by
  have : d % 4 < 4 := Nat.mod_lt _ (by decide)
  simp [Core.dropAcc, this]

/-! ### MATRIX_ENTRY_EXECUTE -/

/-- What a core keeps when its oldest short entry executes, beside the accumulator that the entry names. -/
structure Spec.EntryKeeps (k l : Core) (d : BitVec 5) : Prop where
  v : l.v = k.v
  m : l.m = k.m
  queue : l.queue = k.queue
  others : ∀ d' : BitVec 5, d'.toNat % 4 ≠ d.toNat % 4 → l.acc d'.toNat = k.acc d'.toNat

theorem setAcc_keeps (k : Core) (d : BitVec 5) (lo n : Nat) (a : BitVec 131072) : Spec.EntryKeeps k (k.setAcc d.toNat lo n a) d :=
  ⟨rfl, rfl, rfl, fun _ other => acc_setAcc_ne k other lo n a⟩

/-- The core once the entry has left MQ and its flags are in. -/
def entryDone (k1 : Core) (rest : List MEntry) (c : CtxName) (f : BitVec 5) : Core :=
  { k1 with mq := rest, residue := 0 }.setCtx c { k1.ctx c with fflags := (k1.ctx c).fflags ||| f }

section
variable {s : State} {c : Nat} {e : MEntry} {rest : List MEntry} {k1 : Core} {f : BitVec 5}

theorem exec_matrixEntry (head : (s.core c).mq = e :: rest) (does : shortEntry (s.core c) e = some (k1, f)) :
    exec (.matrixEntryExecute c) s = .next (s.setCore c (entryDone k1 rest e.ctx f)) := by
  have one : matrixEntry c s = s.setCore c (entryDone k1 rest e.ctx f) := by
    simp only [matrixEntry, head, does]
    rfl
  exact congrArg Host.Outcome.next one

theorem entryDone_fields (k1 : Core) (rest : List MEntry) (c : CtxName) (f : BitVec 5) : (entryDone k1 rest c f).mq = rest ∧
    (entryDone k1 rest c f).v = k1.v ∧ (entryDone k1 rest c f).m = k1.m ∧ (entryDone k1 rest c f).queue = k1.queue ∧
    (entryDone k1 rest c f).ac = k1.ac ∧ (entryDone k1 rest c f).acLive = k1.acLive := by
  cases c <;> exact ⟨rfl, rfl, rfl, rfl, rfl, rfl⟩

theorem core_entryDone (s : State) (c : Nat) (k1 : Core) (rest : List MEntry) (x : CtxName) (f : BitVec 5) :
    ((s.setCore c (entryDone k1 rest x f)).core c).acLive = k1.acLive ∧ ∀ d, ((s.setCore c (entryDone k1 rest x f)).core c).acc d = k1.acc d := by
  rw [State.core_setCore_self]
  cases x <;> exact ⟨rfl, fun _ => rfl⟩

/-- What MDROP leaves of its core when no long instruction owns the accumulator: MSTART goes with an accumulator that it names. -/
def dropped (k : Core) (d : Nat) : Core :=
  if mstartPend k.u.mstart && mstartAcc k.u.mstart == d then { k.dropAcc d with u := { (k.dropAcc d).u with mstart := 0 } } else k.dropAcc d

theorem shortEntry_mdrop {o : LN} (form : e.instr = .mdrop o) (free : (s.core c).long = none) :
    shortEntry (s.core c) e = some (dropped (s.core c) (o.d.toNat % 4), 0) := by
  have owner : (s.core c).owns (o.d.toNat % 4) = false := by simp [Core.owns, free]
  simp only [shortEntry, form, owner]
  rfl

theorem dropped_keeps (k : Core) (d : BitVec 5) : Spec.EntryKeeps k (dropped k (d.toNat % 4)) d ∧
    (dropped k (d.toNat % 4)).acc d.toNat = 0 ∧ (dropped k (d.toNat % 4)).acLive.getLsbD (d.toNat % 4) = false := by
  have low : d.toNat % 4 % 4 = d.toNat % 4 := Nat.mod_mod _ _
  have gone : (k.dropAcc (d.toNat % 4)).acc d.toNat = 0 := by simp [Core.acc, Core.dropAcc]
  have dead : (k.dropAcc (d.toNat % 4)).acLive.getLsbD (d.toNat % 4) = false := by
    have := acLive_dropAcc k (d.toNat % 4)
    rwa [low] at this
  have others (d' : BitVec 5) (other : d'.toNat % 4 ≠ d.toNat % 4) : (k.dropAcc (d.toNat % 4)).acc d'.toNat = k.acc d'.toNat :=
    acc_dropAcc_ne k (by rwa [low])
  unfold dropped
  split <;> exact ⟨⟨rfl, rfl, rfl, others⟩, gone, dead⟩

/-- The frame of every short entry. -/
theorem entry_frame {d : BitVec 5} (keeps : Spec.EntryKeeps (s.core c) k1 d) (x : CtxName) (f : BitVec 5) :
    let t := s.setCore c (entryDone k1 rest x f)
    OnlyCore s t c ∧ SameBytes s t ∧ (t.core c).mq = rest ∧ (t.core c).v = (s.core c).v ∧ (t.core c).m = (s.core c).m ∧
      (t.core c).queue = (s.core c).queue ∧ ∀ d' : BitVec 5, d'.toNat % 4 ≠ d.toNat % 4 → (t.core c).acc d'.toNat = (s.core c).acc d'.toNat := by
  intro t
  obtain ⟨mq, v, m, queue, -, -⟩ := entryDone_fields k1 rest x f
  have core : t.core c = entryDone k1 rest x f := State.core_setCore_self s c _
  refine ⟨⟨rfl, fun _ other => State.core_setCore_ne s other _⟩, fun _ => rfl, ?_, ?_, ?_, ?_, fun d' other => ?_⟩
  · rw [core, mq]
  · rw [core, v, keeps.v]
  · rw [core, m, keeps.m]
  · rw [core, queue, keeps.queue]
  · rw [(core_entryDone s c k1 rest x f).2, keeps.others d' other]

/-- An entry that writes its accumulator. -/
theorem entry_writes {d : BitVec 5} {lo n : Nat} {a : BitVec 131072} (head : (s.core c).mq = e :: rest)
    (does : shortEntry (s.core c) e = some ((s.core c).setAcc d.toNat lo n a, f)) :
    ∃ t, exec (.matrixEntryExecute c) s = .next t ∧ (OnlyCore s t c ∧ SameBytes s t ∧ (t.core c).mq = rest ∧ (t.core c).v = (s.core c).v ∧
      (t.core c).m = (s.core c).m ∧ (t.core c).queue = (s.core c).queue ∧ ∀ d' : BitVec 5, d'.toNat % 4 ≠ d.toNat % 4 →
        (t.core c).acc d'.toNat = (s.core c).acc d'.toNat) ∧ (t.core c).acLive.getLsbD (d.toNat % 4) = true ∧ (t.core c).acc d.toNat = a := by
  refine ⟨_, exec_matrixEntry head does, entry_frame (setAcc_keeps (s.core c) d lo n a) e.ctx f, ?_, ?_⟩
  · rw [(core_entryDone s c _ rest e.ctx f).1]
    exact acLive_setAcc _ _ _ _ _
  · rw [(core_entryDone s c _ rest e.ctx f).2]
    exact acc_setAcc_self _ _ _ _ _

end

theorem row_index (w : Word) : w.toNat % 64 = (w.extractLsb' 0 6).toNat := by
  rw [← bitsOf_eq_extractLsb', bitsOf_low]
  rfl

/-! ### Integer steps (R157, R159) -/

theorem opInt_eq (f16 : BitVec 16) (integer : f16.extractLsb' 2 5 = 0) (c : Nat) : (mfmt f16).opInt c = Spec.intOperand f16 c := by
  have of : bitsOf f16.toNat 2 5 = 0 := by
    rw [bitsOf_eq_extractLsb', integer]
    rfl
  have width : (mfmt f16).w = 8 * 2 ^ (f16.extractLsb' 12 2).toNat := by
    unfold mfmt
    dsimp only
    rw [if_pos of, bitsOf_eq_extractLsb']
  have unsigned : (mfmt f16).uns = f16.getLsbD 8 := bitOf_eq_getLsbD f16 8
  unfold MFmt.opInt Spec.intOperand
  dsimp only
  rw [unsigned, width, sInt_ofNat]

theorem wrapN_eq (v : Int) : wrapN 32 v = (BitVec.ofInt 32 v).toNat := by
  rw [BitVec.toNat_ofInt]
  rfl

theorem integer_mac (f16 : BitVec 16) {old : Nat} (negate : Bool) (ps : List (Nat × Nat)) (acc : f16.extractLsb' 0 2 = 2)
    (integer : f16.extractLsb' 2 5 = 0) :
    let p := (ps.map (fun (a, b) => Spec.intOperand f16 a * Spec.intOperand f16 b)).sum
    (mfmt f16).mac old negate ps = ((BitVec.ofNat 32 old + (if negate then -(BitVec.ofInt 32 p) else BitVec.ofInt 32 p)).toNat, 0) := by
  intro p
  have sum : (ps.map (fun (a, b) => (mfmt f16).opInt a * (mfmt f16).opInt b)).sum = p := by
    congr 1
    refine List.map_congr_left fun (a, b) _ => ?_
    exact congrArg₂ (· * ·) (opInt_eq f16 integer a) (opInt_eq f16 integer b)
  have element : BitVec.ofInt 32 (sInt 32 old) = BitVec.ofNat 32 old := by rw [sInt_ofNat, BitVec.ofInt_toInt]
  unfold MFmt.mac
  dsimp only
  rw [if_pos ((mfmt_af_eq_two f16).2 acc), sum, wrapN_eq]
  cases negate with
  | false =>
    simp only [Bool.false_eq_true, if_false]
    rw [BitVec.ofInt_add, element]
  | true =>
    simp only [if_true]
    rw [Int.sub_eq_add_neg, BitVec.ofInt_add, BitVec.ofInt_neg, element]

end Sys2Proof.Machine

/-! ### The statement -/

namespace Sys2Proof.Proofs

open Sys2Proof.Machine

/-- `Rule.MatrixEntryResult`: each entry writes or drops the accumulator that it names. -/
theorem matrixEntryResultRule : Rule.MatrixEntryResult := by
  intro s c e rest head el done
  refine ⟨fun o form => ?_, fun o form => ?_, fun o form free => ?_, fun o form => ?_, fun o form => ?_⟩
  · intro m
    obtain ⟨f, does⟩ : ∃ f, shortEntry (s.core c) e = some ((s.core c).setAcc o.d.toNat 0 4096
        (accAll ((s.core c).acc o.d.toNat) (fun i j old => m.mac old (decide (e.instr = .ranks o)) (rankPairs m (el m o.a) (el m o.b) i j))).1, f) := by
      obtain add | subtract := form
      · exact ⟨_, by simp only [shortEntry, add]; rfl⟩
      · exact ⟨_, by simp only [shortEntry, subtract, decide_true]; rfl⟩
    obtain ⟨t, ran, frame, live, acc⟩ := entry_writes head does
    refine ⟨t, ran, frame, live, fun r j hr hj => ?_⟩
    unfold Spec.acElem
    rw [acc, accWord_accAll _ _ hr hj]
    rfl
  · obtain ⟨t, ran, frame, live, acc⟩ := entry_writes (d := o.d) (f := 0) head (by simp only [shortEntry, form]; rfl)
    exact ⟨t, ran, frame, acc, live⟩
  · obtain ⟨keeps, gone, dead⟩ := dropped_keeps (s.core c) o.d
    refine ⟨_, exec_matrixEntry head (shortEntry_mdrop form free), entry_frame keeps e.ctx 0, ?_, ?_⟩
    · rw [(core_entryDone s c _ rest e.ctx 0).2, gone]
    · rw [(core_entryDone s c _ rest e.ctx 0).1, dead]
  · intro m row
    obtain ⟨t, ran, frame, -, acc⟩ := entry_writes (d := o.d) head (by simp only [shortEntry, form]; rfl)
    refine ⟨t, ran, frame, fun r j hr hj => ?_⟩
    unfold Spec.acElem
    rw [acc, accWord_accRow _ _ _ hr hj, row_index]
  · intro m row
    obtain ⟨t, ran, frame, -, acc⟩ := entry_writes (d := o.d) head (by simp only [shortEntry, form]; rfl)
    refine ⟨t, ran, frame, fun r j hr hj => ?_⟩
    unfold Spec.acElem
    rw [acc, accWord_accRow _ _ _ hr hj, row_index]
    split
    case isTrue same => rw [same]
    case isFalse => rfl

/-- Settles O36: the entries, and the integer step written out. -/
theorem matrixEntryResult : Obligations.MatrixEntryResult :=
  ⟨matrixEntryResultRule, fun f16 _ negate ps acc integer _ => integer_mac f16 negate ps acc integer⟩

end Sys2Proof.Proofs
end

section
/-! Elements of vector registers, and MRD (R155, R166). The statement O37. -/

namespace Sys2Proof.Machine

/-! ### Elements written into a vector register -/

/-- Elements of width w that do not coincide lie apart. -/
theorem elements_apart {i j w : Nat} (other : i ≠ j) : i * w + w ≤ j * w ∨ j * w + w ≤ i * w := by
  obtain less | more := Nat.lt_or_gt_of_ne other
  · exact .inl (by rw [← Nat.succ_mul]; exact Nat.mul_le_mul_right w less)
  · exact .inr (by rw [← Nat.succ_mul]; exact Nat.mul_le_mul_right w more)

/-- The register's number once the elements of a list have been written. -/
def putMany (w : Nat) (f : Nat → Option (Flagged Nat)) (l : List Nat) (acc : Nat × BitVec 5) : Nat × BitVec 5 :=
  l.foldl (fun (acc : Nat × BitVec 5) i => match f i with
    | some (v, g) => (setBits acc.1 (i * w) w v, acc.2 ||| g)
    | none => acc) acc

theorem putMany_word (w : Nat) (f : Nat → Option (Flagged Nat)) (n j : Nat) (acc : Nat × BitVec 5) :
    bitsOf (putMany w f (List.range n) acc).1 (j * w) w =
      if j < n then ((f j).map (fun v => v.1 % 2 ^ w)).getD (bitsOf acc.1 (j * w) w) else bitsOf acc.1 (j * w) w := by
  induction n with
  | zero => rfl
  | succ n ih =>
    have last : putMany w f (List.range (n + 1)) acc = putMany w f [n] (putMany w f (List.range n) acc) := by
      rw [List.range_succ]
      exact List.foldl_append
    rw [last]
    generalize putMany w f (List.range n) acc = before at ih
    by_cases here : j = n
    · subst here
      rw [if_pos (Nat.lt_succ_self j)]
      rw [if_neg (Nat.lt_irrefl j)] at ih
      cases value : f j with
      | none => simpa [putMany, value] using ih
      | some x =>
        have written : (putMany w f [j] before).1 = setBits before.1 (j * w) w x.1 := by simp [putMany, value]
        rw [written, bitsOf_setBits_inside (Nat.le_refl _) (Nat.le_refl _), Nat.sub_self, bitsOf_low]
        rfl
    · have kept : bitsOf (putMany w f [n] before).1 (j * w) w = bitsOf before.1 (j * w) w := by
        cases value : f n with
        | none => simp [putMany, value]
        | some x =>
          have written : (putMany w f [n] before).1 = setBits before.1 (n * w) w x.1 := by simp [putMany, value]
          rw [written, bitsOf_setBits_apart (elements_apart here)]
      rw [kept, ih]
      simp only [Nat.lt_succ_iff_lt_or_eq, here, or_false]

/-- Elements of a register after a write of the first n of width w. -/
theorem vElem_putElems (k : Core) (d : BitVec 5) (w n : Nat) (f : Nat → Option (Flagged Nat)) {j : Nat} (inside : j * w + w ≤ 32768) :
    (k.putElems d.toNat w n f).1.vElem d.toNat w j =
      if j < n then ((f j).map (fun v => v.1 % 2 ^ w)).getD (k.vElem d.toNat w j) else k.vElem d.toNat w j := by
  have number : d.toNat % 32 = d.toNat := Nat.mod_eq_of_lt d.isLt
  have before : k.vElem d.toNat w j = bitsOf (k.vNat d.toNat) (j * w) w := by
    rw [Core.vElem, ← bitsOf_eq_extractLsb', Core.vNat]
  have after : (k.putElems d.toNat w n f).1.vElem d.toNat w j = bitsOf (putMany w f (List.range n) (k.vNat d.toNat, 0)).1 (j * w) w := by
    have written : (k.putElems d.toNat w n f).1.v[d.toNat % 32]'(Nat.mod_lt _ (by decide)) =
        BitVec.ofNat 32768 (putMany w f (List.range n) (k.vNat d.toNat, 0)).1 := by
      rw [← upTo_eq]
      exact Vector.getElem_set_self _
    rw [Core.vElem, written, ← bitsOf_eq_extractLsb', bitsOf_ofNat inside]
  rw [after, putMany_word, before]

theorem mfmt_w_le (f16 : BitVec 16) : (mfmt f16).w ≤ 64 := by
  have integer : ∀ k < 4, 8 * 2 ^ k ≤ 64 := by decide
  have float : ∀ f < 32, fmtWidth f ≤ 64 := by decide
  unfold mfmt
  dsimp only
  split
  · exact integer _ (Nat.mod_lt _ (by decide))
  · exact float _ (Nat.mod_lt _ (by decide))

/-! ### MRD -/

theorem stepsDone_eq (k : Core) (d : Nat) : k.stepsDone d = match k.long with
    | some l => if l.kind = 0 ∧ l.acc = d then BitVec.ofNat 64 l.next else BitVec.allOnes 64
    | none => BitVec.allOnes 64 := by
  unfold Core.stepsDone
  cases k.long with
  | none => rfl
  | some l => simp

/-- What MRD makes of the executing core, with the flags of its conversions. -/
def mrdWritten (s : State) (o : LX) : Core × BitVec 5 :=
  s.me.putElems o.d.toNat (mfmt o.f16).w 64 (fun j =>
    some ((mfmt o.f16).read s.frm (accWord (s.me.acc o.a.toNat) ((s.getX o.b).toNat % 64) j)))

/-- What MRD makes of the executing context. -/
def mrdContext (s : State) (o : LX) (k : Ctx) : Ctx :=
  (({ k with fflags := k.fflags ||| (mrdWritten s o).2 } : Ctx).setX (o.b + 1) (s.me.stepsDone o.a.toNat)).advance

theorem exec_mrd_of {s : State} {o : LX} (issues : Issues (.mrd o) s) (live : Spec.matrixLive s true) (fits : Spec.pairLegal o.f16)
    (mode : s.cx.frm.toNat < 5) (short : s.me.mq = []) (empty : s.me.queue = []) (clean : s.me.regPoison = []) :
    exec (.mrd o) s = .next ((s.setCore s.cur (mrdWritten s o).1).modCx (mrdContext s o)) := by
  have takes (b : Bool) : checkMode (.mrd o) b s.frm = .ok () := by
    have low : ¬(s.frm ≥ 5) := Nat.not_le.2 mode
    simp [checkMode, low]
  refine (exec_mrd s o).trans (run_ok issues ?_)
  simp only [matrixChecks_ok _ live, ofCheck_ok _ fits, takes, short, empty, accPoison_none clean, bind, Except.bind]
  refine congrArg Except.ok ?_
  exact State.modCx_modCx _ _ _

end Sys2Proof.Machine

/-! ### The statement -/

namespace Sys2Proof.Proofs

open Sys2Proof.Machine

/-- Settles O37: the row is converted element by element into v[D], and x[B + 1] receives the steps done. -/
theorem matrixRead : Obligations.MatrixRead := by
  intro s o m issues live fits mode short empty clean row
  obtain ⟨only, core, bytes⟩ := setCore_modCx_coreBecomes s (mrdWritten s o).1 (mrdContext s o)
  have cx : (((s.setCore s.cur (mrdWritten s o).1).modCx (mrdContext s o))).cx = mrdContext s o s.cx := by
    change (State.core _ s.cur).ctx s.curCtx = _
    rw [core]
    cases hc : s.curCtx <;> simp only [State.cx, hc] <;> rfl
  refine ⟨_, exec_mrd_of issues live fits mode short empty clean, only, bytes, ?_, fun j hj => ?_, fun r other => ?_, fun nonzero => ?_⟩
  · rw [cx]
    exact (Ctx.nextPc_setX _ _ _).trans rfl
  · have inside : j * m.w + m.w ≤ 32768 := by
      have width : m.w ≤ 64 := mfmt_w_le o.f16
      have := Nat.mul_le_mul (show j ≤ 63 by omega) width
      omega
    have element := vElem_putElems s.me o.d m.w 64 (fun j => some (m.read s.frm (accWord (s.me.acc o.a.toNat) ((s.getX o.b).toNat % 64) j))) inside
    rw [if_pos hj] at element
    change (State.core _ s.cur).vElem _ _ _ = _
    have register : ((mrdWritten s o).1.setCtx s.curCtx (mrdContext s o ((mrdWritten s o).1.ctx s.curCtx))).v = (mrdWritten s o).1.v := by
      cases s.curCtx <;> rfl
    rw [row_index] at element
    rw [core, Core.vElem, register]
    exact element
  · change Ctx.getX (State.cx _) r = _
    rw [cx]
    exact Ctx.getX_setX_ne _ other _
  · change Ctx.getX (State.cx _) _ = _
    rw [cx]
    refine ((Ctx.getX_setX_self _ _ _).trans (if_neg nonzero)).trans ((stepsDone_eq _ _).trans ?_)
    cases s.me.long <;> rfl

end Sys2Proof.Proofs
end

section
/-! Long matrix instructions: panels of MOPAK, rows of MSTA and MLDA (R155, R161, R164, R165, R169). The statement O38. -/

namespace Sys2Proof.Machine

/-! ### States that differ in the executing core -/

theorem modCore_setCore (s : State) (c : Nat) (k : Core) (f : Core → Core) : (s.setCore c k).modCore c f = s.setCore c (f k) := by
  rw [State.modCore, State.core_setCore_self, State.setCore_setCore]

theorem modCx_setCore (s : State) (k : Core) (g : Ctx → Ctx) :
    (s.setCore s.cur k).modCx g = s.setCore s.cur (k.setCtx s.curCtx (g (k.ctx s.curCtx))) := by
  have me : (s.setCore s.cur k).me = k := State.core_setCore_self s s.cur k
  unfold State.modCx State.setCx State.cx
  rw [me]
  exact modCore_setCore s s.cur k _

theorem me_setCore (s : State) (k : Core) : (s.setCore s.cur k).me = k := State.core_setCore_self s s.cur k

theorem cx_setCore (s : State) (k : Core) : (s.setCore s.cur k).cx = k.ctx s.curCtx := by
  rw [State.cx, me_setCore]
  rfl

theorem setCore_coreBecomes (s : State) (c : Nat) (k : Core) : CoreBecomes s (s.setCore c k) c k :=
  ⟨⟨rfl, fun _ other => State.core_setCore_ne s other k⟩, State.core_setCore_self s c k, fun _ => rfl⟩

/-! ### The step counter of a long instruction -/

/-- The core after step or row `l.next` of `total`, its last work done. -/
def Core.stepped (k : Core) (l : LongOp) (total : Nat) : Core :=
  if l.next + 1 < total then { k with residue := 0, long := some { l with next := l.next + 1 } }
  else { k with residue := 0, long := none, u := { k.u with mstart := 0 }.advance }

theorem stepLong_setCore {s : State} {k : Core} {l : LongOp} (total : Nat) (user : s.curCtx = .u) (long : k.long = some l) :
    (s.setCore s.cur k).stepLong total = s.setCore s.cur (k.stepped l total) := by
  unfold State.stepLong Core.stepped
  rw [me_setCore, long]
  dsimp only
  split
  · exact modCore_setCore s s.cur k _
  · change ((s.setCore s.cur k).modCore s.cur _).modCx Ctx.advance = _
    rw [modCore_setCore, modCx_setCore, user]
    rfl

/-- A core with flags ORed into its U context. -/
def Core.orU (k : Core) (f : BitVec 5) : Core := { k with u := { k.u with fflags := k.u.fflags ||| f } }

theorem orFlags_setCore {s : State} (k : Core) (f : BitVec 5) (user : s.curCtx = .u) :
    (s.setCore s.cur k).orFlags f = s.setCore s.cur (k.orU f) := by
  rw [State.orFlags, modCx_setCore, user]
  rfl

theorem nextPc_congr {k l : Ctx} (pc : k.pc = l.pc) (line : k.line = l.line) : k.nextPc = l.nextPc := by
  unfold Ctx.nextPc Ctx.lineCount Ctx.pcNat
  rw [pc, line]

theorem orFlags_user {s : State} (f : BitVec 5) (user : s.curCtx = .u) : s.orFlags f = s.setCore s.cur (s.me.orU f) := by
  unfold State.orFlags State.modCx State.setCx State.cx State.modCore
  rw [user]
  rfl

/-- What the frame of a step says of the instruction's end. -/
theorem stepped_frame {s : State} {k : Core} {l : LongOp} {total : Nat} (user : s.curCtx = .u) (pc : k.u.pc = s.cx.pc) (line : k.u.line = s.cx.line) :
    let t := s.setCore s.cur (k.stepped l total)
    (l.next + 1 < total → t.me.long = some { l with next := l.next + 1 } ∧ t.cx.pc = s.cx.pc) ∧
      (l.next + 1 = total → t.me.long = none ∧ t.cx.pc = s.cx.nextPc ∧ t.me.u.mstart = 0) := by
  intro t
  have me : t.me = k.stepped l total := me_setCore s _
  have cx : t.cx = (k.stepped l total).u := by rw [cx_setCore, user]; rfl
  refine ⟨fun more => ?_, fun last => ?_⟩
  · rw [me, cx, Core.stepped, if_pos more]
    exact ⟨rfl, pc⟩
  · have ends : ¬(l.next + 1 < total) := by omega
    have place : k.u.nextPc = s.cx.nextPc := nextPc_congr pc line
    rw [me, cx, Core.stepped, if_neg ends]
    exact ⟨rfl, place, rfl⟩

theorem acc_stepped (k : Core) (l : LongOp) (total d : Nat) : (k.stepped l total).acc d = k.acc d := by
  unfold Core.stepped
  split <;> rfl

/-! ### MOPAK -/

theorem panelBytes_eq (m : MFmt) : panelBytes m = if m.w = 8 then 128 else 64 * (m.w / 8) := rfl

/-- A panel in the executing core's own scratchpad. -/
theorem own_panel {s : State} {n off : Nat} (near : off < 2 ^ 40) (live : s.live s.cur = true)
    (fits : off + n ≤ spadSize (s.cls s.cur) - 0x2000) (passes : Spec.granted s (s.who .load .r) off n) :
    panelPlace (0xFF * 2 ^ 48 + off) n s = .ok (Loc.spad s.cur off).key := by
  have low : (0xFF * 2 ^ 48 + off) % 2 ^ 48 = off := by omega
  have entry : anyEntry (s.core s.cur) (s.who .load .r) (0xFF * 2 ^ 48 + off) n = true := (anyEntry_iff (w := s.who .load .r) low).2 passes
  have size := spadSize_le (s.cls s.cur)
  have access : s.localAccess (s.who .load .r) (0xFF * 2 ^ 48 + off) n =
      .ok { key := (Loc.spad s.cur off).key, typ := 8, siteOff := none, home := 0, page := 0, big := false } := by
    rw [localAccess_spad (w := s.who .load .r) entry (localPlace_spad s.cur near) live fits, if_neg (fun other => other.1 rfl),
      if_neg (fun other => other.1 rfl)]
  unfold panelPlace
  simp only [isLocal_own near, localPlace_spad s.cur near, access, if_neg (show ¬(off + n > 0x40_0000) by omega),
    Bool.not_true, Bool.false_eq_true, if_false, ite_self]

section
variable {s : State} {o : LX} {k ka kb : Nat} {l : LongOp}

/-- The outer product of one step of the panels at ka and kb. -/
def panelStep (o : LX) (m : MFmt) (k ka kb : Nat) (s : State) : Core × BitVec 5 :=
  s.me.rankStep o.d.toNat m m.subt (fun i => bitsOf (s.mem.read (ka + panelBytes m * k) (panelBytes m)) (panelElem m i * m.w) m.w)
    (fun i => bitsOf (s.mem.read (kb + panelBytes m * k) (panelBytes m)) (panelElem m i * m.w) m.w)

theorem mopakStep_ok {m : MFmt} (clean : s.me.regPoison = []) (fineA : s.mem.poisoned (ka + panelBytes m * k) (panelBytes m) = false)
    (fineB : s.mem.poisoned (kb + panelBytes m * k) (panelBytes m) = false) :
    mopakStep o m k ka kb s = .ok ((s.setCore s.cur (panelStep o m k ka kb s).1).orFlags (panelStep o m k ka kb s).2) := by
  unfold mopakStep
  simp only [fineA, fineB, accPoison_none clean]
  rfl

/-- The pairs of products of a step, elements 2i and 2i + 1 of an 8-bit panel lying 64 bytes apart. -/
theorem panelPairs_eq (m : MFmt) (a b r j : Nat) :
    rankPairs m (fun i => bitsOf a (panelElem m i * m.w) m.w) (fun i => bitsOf b (panelElem m i * m.w) m.w) r j =
      let el (x j : Nat) := x / 2 ^ (j * m.w) % 2 ^ m.w
      if m.w = 8 then [(el a r, el b j), (el a (64 + r), el b (64 + j))] else [(el a r, el b j)] := by
  unfold rankPairs panelElem bitsOf
  by_cases narrow : m.w = 8
  · simp only [if_pos narrow]
    have even (i : Nat) : 2 * i % 2 * 64 + 2 * i / 2 = i := by omega
    have odd (i : Nat) : (2 * i + 1) % 2 * 64 + (2 * i + 1) / 2 = 64 + i := by omega
    simp only [even, odd]
  · simp only [if_neg narrow]

variable (fits : Spec.pairLegal o.f16) (hereA : s.addr o.a = 0xFF * 2 ^ 48 + ka) (hereB : s.addr o.b = 0xFF * 2 ^ 48 + kb)
  (nearA : ka < 2 ^ 40) (nearB : kb < 2 ^ 40)
include fits hereA hereB nearA nearB

/-- MOPAK under way performs its next step. -/
theorem mopak_step (long : s.me.long = some l) (clean : s.me.regPoison = [])
    (fineA : s.mem.poisoned ((Loc.spad s.cur ka).key + panelBytes (mfmt o.f16) * l.next) (panelBytes (mfmt o.f16)) = false)
    (fineB : s.mem.poisoned ((Loc.spad s.cur kb).key + panelBytes (mfmt o.f16) * l.next) (panelBytes (mfmt o.f16)) = false) :
    mopak o s = .ok (((s.setCore s.cur (panelStep o (mfmt o.f16) l.next (Loc.spad s.cur ka).key (Loc.spad s.cur kb).key s).1).orFlags
      (panelStep o (mfmt o.f16) l.next (Loc.spad s.cur ka).key (Loc.spad s.cur kb).key s).2).stepLong ((s.getX o.c).toNat % 2 ^ 16)) := by
  unfold mopak
  simp only [ofCheck_ok _ fits, bind, Except.bind, long, hereA, hereB, localPlace_spad s.cur nearA, localPlace_spad s.cur nearB]
  rw [mopakStep_ok clean fineA fineB]
  rfl

theorem mopak_begins (free : s.me.long = none) (short : s.me.mq = []) (unordered : Spec.unordered s) (alignedA : ka % 64 = 0) (alignedB : kb % 64 = 0)
    (some : 0 < (s.getX o.c).toNat % 2 ^ 16) (start : s.me.u.mstart = 0) (alone : o.f16.getLsbD 10 = false)
    (panelA : panelPlace (0xFF * 2 ^ 48 + ka) (panelBytes (mfmt o.f16) * ((s.getX o.c).toNat % 2 ^ 16)) s = .ok (Loc.spad s.cur ka).key)
    (panelB : panelPlace (0xFF * 2 ^ 48 + kb) (panelBytes (mfmt o.f16) * ((s.getX o.c).toNat % 2 ^ 16)) s = .ok (Loc.spad s.cur kb).key)
    (belowA : ka + panelBytes (mfmt o.f16) * ((s.getX o.c).toNat % 2 ^ 16) < 2 ^ 40)
    (belowB : kb + panelBytes (mfmt o.f16) * ((s.getX o.c).toNat % 2 ^ 16) < 2 ^ 40) :
    mopak o s = .ok (s.setCore s.cur { s.me with
      lastJoined := false, long := Option.some { kind := 0, acc := o.d.toNat, next := 0, mcKey := [], panels := [s.cur, s.cur] } }) := by
  have single : (mfmt o.f16).mc = false := by rw [← alone]; exact bitOf_eq_getLsbD o.f16 10
  have ready : longWaits s = false := by simp [longWaits, short]
  have first : startIndex s.me.u.mstart 0 o.d.toNat = 0 := by rw [start]; rfl
  have insideA : mopak.crosses64 (0xFF * 2 ^ 48 + ka) (panelBytes (mfmt o.f16) * ((s.getX o.c).toNat % 2 ^ 16)) = false :=
    decide_eq_false (by omega)
  have insideB : mopak.crosses64 (0xFF * 2 ^ 48 + kb) (panelBytes (mfmt o.f16) * ((s.getX o.c).toNat % 2 ^ 16)) = false :=
    decide_eq_false (by omega)
  have checkA : checkAlign .load ((0xFF * 2 ^ 48 + ka : Nat) : Int) 64 = .ok () := if_pos (by omega)
  have checkB : checkAlign .load ((0xFF * 2 ^ 48 + kb : Nat) : Int) 64 = .ok () := if_pos (by omega)
  unfold mopak
  simp only [ofCheck_ok _ fits, bind, Except.bind, free, hereA, hereB, ready, orderWait_ok_of_unordered unordered, checkA, checkB, insideA, insideB,
    panelA, panelB, first, single, ge_iff_le, Nat.le_zero, Nat.ne_of_gt some, Bool.false_and, Bool.false_eq_true, if_false,
    List.filterMap_cons, List.filterMap_nil, localPlace_spad s.cur nearA, localPlace_spad s.cur nearB]
  exact congrArg Except.ok (modCore_setCore s s.cur { s.me with lastJoined := false } _)

end

/-! ### MSTA and MLDA -/

/-- A place of local memory that is in no site's scratchpad. -/
def wordPlace (key : Nat) : Place := { key, typ := 8, siteOff := none, home := 0, page := 0, big := false }

theorem placeWrite_word {s : State} {key : Nat} {bs : List Byte} (asid : Nat) (alive : s.cxlDeadIn key bs.length = false) :
    s.placeWrite asid (wordPlace key) bs = { s with mem := s.mem.writeBytes key bs } := by
  unfold State.placeWrite wordPlace
  simp only [decide_true, Bool.true_or, if_true, alive, Bool.false_eq_true, if_false]

/-- The places of a row whose every element can be reached. -/
theorem rowPlaces_ok {s : State} {w : Who} {sz : Nat} {address : Nat → Int} {place : Nat → Place} {js : List Nat}
    (range : ∀ j ∈ js, 0 ≤ address j ∧ address j < 2 ^ 56) (reached : ∀ j ∈ js, s.access w (address j).toNat sz = .ok (s, place j))
    (clean : ∀ j ∈ js, s.placePoisoned w.asid (place j) sz = false) : rowPlaces w sz (js.map address) s = .ok (s, js.map place) := by
  induction js with
  | nil => rfl
  | cons j js ih =>
    rw [List.forall_mem_cons] at range reached clean
    have rest := ih range.2 reached.2 clean.2
    have inside : checkRange w.kind (address j) = .ok (address j).toNat := if_pos range.1
    simp only [List.map_cons, rowPlaces, inside, reached.1, clean.1, rest, Bool.and_false, Bool.false_eq_true, if_false]

/-- Memory once the words of a row have been written one after the other. -/
def rowMem (key : Nat) (c : Nat → Nat) (js : List Nat) (m : Memory) : Memory :=
  js.foldl (fun m j => m.writeBytes (key + 4 * j) (toBytes 4 (c j))) m

theorem storeRow_words {s : State} {key : Nat} (asid : Nat) (c : Nat → Nat) {js : List Nat} (alive : ∀ j ∈ js, s.cxlDeadIn (key + 4 * j) 4 = false) :
    s.storeRow asid 4 (js.map (fun j => (wordPlace (key + 4 * j), c j))) = { s with mem := rowMem key c js s.mem } := by
  induction js generalizing s with
  | nil => rfl
  | cons j js ih =>
    rw [List.forall_mem_cons] at alive
    have one : s.placeWrite asid (wordPlace (key + 4 * j)) (toBytes 4 (c j)) = { s with mem := s.mem.writeBytes (key + 4 * j) (toBytes 4 (c j)) } :=
      placeWrite_word asid (by rw [length_toBytes]; exact alive.1)
    simp only [List.map_cons, State.storeRow, one]
    exact ih alive.2

theorem byte_rowMem (key : Nat) (c : Nat → Nat) (n : Nat) (m : Memory) (x : Nat) : (rowMem key c (List.range n) m).byte x =
    if key ≤ x ∧ x < key + 4 * n then (toBytes 4 (c ((x - key) / 4))).getD ((x - key) % 4) 0 else m.byte x := by
  induction n with
  | zero => rw [if_neg (by omega)]; rfl
  | succ n ih =>
    have last : rowMem key c (List.range (n + 1)) m = (rowMem key c (List.range n) m).writeBytes (key + 4 * n) (toBytes 4 (c n)) := by
      unfold rowMem
      rw [List.range_succ, List.foldl_append]
      rfl
    rw [last, Memory.byte_writeBytes, length_toBytes, ih]
    by_cases here : key + 4 * n ≤ x ∧ x < key + 4 * n + 4
    · rw [if_pos here, if_pos (by omega), show (x - key) / 4 = n by omega, show (x - key) % 4 = x - (key + 4 * n) by omega]
    · rw [if_neg here]
      by_cases before : key ≤ x ∧ x < key + 4 * n
      · rw [if_pos before, if_pos (by omega)]
      · rw [if_neg before, if_neg (by omega)]

theorem read_rowMem {key : Nat} {c : Nat → Nat} {n j : Nat} (m : Memory) (hj : j < n) (word : c j < 2 ^ 32) :
    (rowMem key c (List.range n) m).read (key + 4 * j) 4 = c j := by
  have same : (rowMem key c (List.range n) m).read (key + 4 * j) 4 = (m.write (key + 4 * j) 4 (c j)).read (key + 4 * j) 4 := by
    refine Memory.read_congr fun i hi => ?_
    rw [byte_rowMem, if_pos (by omega), Memory.write, Memory.byte_writeBytes, length_toBytes, if_pos (by omega),
      show (key + 4 * j + i - key) / 4 = j by omega, show (key + 4 * j + i - key) % 4 = key + 4 * j + i - (key + 4 * j) by omega]
  rw [same, Memory.read_write, Nat.mod_eq_of_lt word]

theorem foldl_countHot_local {s : State} {asid lo n : Nat} {ps : List Place} (here : ∀ p ∈ ps, p.typ = 8) :
    ps.foldl (fun t p => t.countHot asid p lo n) s = s := by
  induction ps with
  | nil => rfl
  | cons p ps ih =>
    rw [List.forall_mem_cons] at here
    rw [List.foldl_cons, countHot_local here.1, ih here.2]

section
variable {s : State} {o : LX}

/-- The checks of MSTA and MLDA with FC 0. -/
theorem rowFormat_ok (i : Instr) (raw : (s.getX o.a).extractLsb' 56 8 = 0) (plain : o.f16.extractLsb' 0 2 = 2 ∨ o.f16.getLsbD 9 = false) :
    rowFormat i o s = .ok () ∧ ptrFc (s.getX o.a) = 0 := by
  have top : (s.getX o.a).toNat / 2 ^ 56 % 2 ^ 8 = 0 := by
    rw [← bitsOf, bitsOf_eq_extractLsb', raw]
    rfl
  have word := (s.getX o.a).isLt
  have format : ptrFc (s.getX o.a) = 0 := by
    unfold ptrFc bitsOf
    omega
  have block : ptrBl (s.getX o.a) = 0 := by
    unfold ptrBl bitsOf
    omega
  have option : ((mfmt o.f16).af ≠ 2 && (mfmt o.f16).sat) = false := by
    obtain integer | unsaturated := plain
    · simp [(mfmt_af_eq_two o.f16).2 integer]
    · have : (mfmt o.f16).sat = false := (bitOf_eq_getLsbD o.f16 9).trans unsaturated
      simp [this]
  refine ⟨?_, format⟩
  refine if_neg ?_
  simpa [format, block] using option

/-- The word of a row that element j of it moves to or from. -/
def rowWho (store : Bool) (s : State) : Who :=
  { s.who (if store then .store else .load) (if store then .w else .r) with row := true, pinBy := some (.row s.cur) }

/-- The code that MSTART and the long instruction have for a row's direction. -/
def rowCode (store : Bool) : Nat := if store then 1 else 2

/-- What one row stores: the words of the accumulator's row. -/
def rowStored (s : State) (d key r : Nat) : State :=
  State.wroteWhole { s with mem := rowMem key (accWord (s.me.acc d) r) (List.range 64) s.mem }
    ((List.range 64).map (fun j => (key + 4 * j, 4)))

theorem rowStored_sites (s : State) (d key r : Nat) : (rowStored s d key r).sites = s.sites := by
  unfold rowStored State.wroteWhole
  rfl

theorem Memory.byte_clearCovered (m : Memory) (ranges : List (Nat × Nat)) (x : Nat) : (m.clearCovered ranges).byte x = m.byte x := rfl

/-- A stored row is a change of memory alone, and no byte but the row's words is written. -/
theorem rowStored_mem (s : State) (d key r : Nat) : ∃ m : Memory, rowStored s d key r = { s with mem := m } ∧
    ∀ x, m.byte x = (rowMem key (accWord (s.me.acc d) r) (List.range 64) s.mem).byte x := by
  unfold rowStored State.wroteWhole
  exact ⟨_, rfl, fun x => Memory.byte_clearCovered _ _ x⟩

/-- What one row loads. -/
def rowLoaded (s : State) (d key r : Nat) : State :=
  s.setCore s.cur (s.me.setAcc d (64 * r) 64 (accRow (s.me.acc d) r (fun j _ => (s.mem.read (key + 4 * j) 4, 0))).1)

theorem accRow_congr {a : BitVec 131072} {r : Nat} {f g : Nat → Nat → Flagged Nat} (same : ∀ j < 64, ∀ old, f j old = g j old) :
    accRow a r f = accRow a r g := by
  have row : (upTo 64).map (fun j => f j (accWord a r j)) = (upTo 64).map (fun j => g j (accWord a r j)) := by
    refine List.map_congr_left fun j hj => same j ?_ _
    rw [upTo_eq] at hj
    exact List.mem_range.1 hj
  unfold accRow
  rw [row]

theorem foldl_or_zero {α : Type} (l : List α) : l.foldl (fun (g : BitVec 5) _ => g ||| 0) 0 = 0 := by
  induction l with
  | nil => rfl
  | cons a l ih => exact ih

section
variable {store : Bool} {l : LongOp} {key r : Nat} {ea : Int} (raw : ptrFc (s.getX o.a) = 0) (clean : s.me.regPoison = [])
  (free : s.hasPins (.row s.cur) = false)
  (places : ∀ j : Nat, j < 64 → let va := ea + (s.getX o.b).toInt * r + 4 * j
    0 ≤ va ∧ va < 2 ^ 56 ∧ s.mem.poisoned (key + 4 * j) 4 = false ∧ s.cxlDeadIn (key + 4 * j) 4 = false ∧
      s.access (rowWho store s) va.toNat 4 = .ok (s, wordPlace (key + 4 * j)))
include places

theorem rowPlaces_words : rowPlaces (rowWho store s) 4 ((upTo 64).map (fun j => ea + (s.getX o.b).toInt * r + (j * 4 : Nat))) s =
    .ok (s, (List.range 64).map (fun j => wordPlace (key + 4 * j))) := by
  have below {j : Nat} (listed : j ∈ List.range 64) : j < 64 := List.mem_range.1 listed
  have address (j : Nat) : ea + (s.getX o.b).toInt * r + (j * 4 : Nat) = ea + (s.getX o.b).toInt * r + 4 * j := by omega
  rw [upTo_eq]
  simp only [address]
  refine rowPlaces_ok (fun j hj => ?_) (fun j hj => ?_) (fun j hj => ?_)
  · obtain ⟨low, high, -⟩ := places j (below hj)
    exact ⟨low, high⟩
  · obtain ⟨-, -, -, -, reached⟩ := places j (below hj)
    exact reached
  · obtain ⟨-, -, fine, alive, -⟩ := places j (below hj)
    simp [State.placePoisoned, wordPlace, fine, alive]

include raw clean free

theorem rowStep_stores (direction : store = true) : rowStep o store ea 4 r s = .ok ((rowStored s o.d.toNat key r).orFlags 0) := by
  subst direction
  have read := rowPlaces_words places
  have here : ∀ p ∈ (List.range 64).map (fun j => wordPlace (key + 4 * j)), p.typ = 8 := by
    intro p listed
    obtain ⟨j, -, rfl⟩ := List.mem_map.1 listed
    rfl
  have pins := pinAll_local (asid := s.cx.as) free here
  have still := anyMoving_local (s := s) (asid := s.cx.as) here
  simp only [rowWho, if_true, State.who] at read
  have words : ((List.range 64).map (fun j => wordPlace (key + 4 * j))).zip
      (((upTo 64).map (fun j => rowStore (mfmt o.f16) 0 s.frm (accWord (s.me.acc o.d.toNat) r j))).map (·.1)) =
      (List.range 64).map (fun j => (wordPlace (key + 4 * j), accWord (s.me.acc o.d.toNat) r j)) := by
    rw [upTo_eq, List.map_map, List.zip_map']
    rfl
  have stored : s.storeRow s.cx.as 4 ((List.range 64).map (fun j => (wordPlace (key + 4 * j), accWord (s.me.acc o.d.toNat) r j))) =
      { s with mem := rowMem key (accWord (s.me.acc o.d.toNat) r) (List.range 64) s.mem } :=
    storeRow_words s.cx.as _ fun j hj => (places j (List.mem_range.1 hj)).2.2.2.1
  have ranges : ((List.range 64).map (fun j => wordPlace (key + 4 * j))).map (fun p => (p.key, 4)) = (List.range 64).map (fun j => (key + 4 * j, 4)) :=
    List.map_map
  have flags : ((upTo 64).map (fun j => rowStore (mfmt o.f16) 0 s.frm (accWord (s.me.acc o.d.toNat) r j))).foldl (fun g c => g ||| c.2) 0 = 0 := by
    rw [List.foldl_map, upTo_eq]
    exact foldl_or_zero _
  unfold rowStep
  simp only [raw, if_true, State.who, read, pins, still, accPoison_none clean, Bool.not_true, Bool.and_false, Bool.or_false, Bool.false_eq_true, if_false,
    words, stored, flags, foldl_countHot_local here]
  have pinless : (rowStored s o.d.toNat key r).unpin (.row s.cur) = rowStored s o.d.toNat key r := by
    refine unpin_free ?_
    unfold State.hasPins
    rw [rowStored_sites]
    exact free
  rw [ranges, ← rowStored, pinless]

omit clean in
theorem rowStep_loads (direction : store = false) : ∃ f, rowStep o store ea 4 r s = .ok ((rowLoaded s o.d.toNat key r).orFlags f) := by
  subst direction
  have read := rowPlaces_words places
  have here : ∀ p ∈ (List.range 64).map (fun j => wordPlace (key + 4 * j)), p.typ = 8 := by
    intro p listed
    obtain ⟨j, -, rfl⟩ := List.mem_map.1 listed
    rfl
  have pins := pinAll_local (asid := s.cx.as) free here
  simp only [rowWho, Bool.false_eq_true, if_false, State.who] at read
  unfold rowStep
  simp only [raw, Bool.false_eq_true, if_false, State.who, read, pins, Bool.not_true, Bool.false_and, Bool.or_false, 
    foldl_countHot_local here]
  have loaded (j : Nat) (hj : j < 64) : rowLoad (mfmt o.f16) 0 ((((List.range 64).map (fun j => wordPlace (key + 4 * j))).map
      (fun p => s.placeRead s.cx.as p 4)).getD j 0) = (s.mem.read (key + 4 * j) 4, 0) := by
    rw [List.map_map, List.getD_eq_getElem?_getD, List.getElem?_map, List.getElem?_range hj]
    rfl
  rw [accRow_congr (fun j hj _ => loaded j hj)]
  exact ⟨_, congrArg (fun t => Except.ok (State.orFlags t _)) (unpin_free (s := rowLoaded s o.d.toNat key r) free)⟩

end

theorem eaX_eq (a : BitVec 5) (imm : BitVec 14) : s.eaX a imm = (((s.getX a).setWidth 56).toNat : Int) + imm.toInt := by
  rw [State.eaX, addr_eq_setWidth]

section
variable {i : Instr} {store : Bool} {l : LongOp} {s1 : State} (raw : (s.getX o.a).extractLsb' 56 8 = 0)
  (plain : o.f16.extractLsb' 0 2 = 2 ∨ o.f16.getLsbD 9 = false)
include raw plain

theorem rowMove_step (long : s.me.long = some l) (did : rowStep o store (s.eaX o.a o.imm) 4 l.next s = .ok s1) :
    rowMove i o store s = .ok (s1.stepLong (min (s.getX o.c).toNat 64)) := by
  obtain ⟨format, code⟩ := rowFormat_ok i raw plain
  unfold rowMove
  simp only [format, bind, Except.bind, code, ne_eq, not_true_eq_false, decide_false, Bool.and_false, Bool.false_and, checkMode, Bool.false_eq_true,
    if_false, if_true, long, did]
  rfl

theorem rowMove_begins (free : s.me.long = none) (short : s.me.mq = []) (unordered : Spec.unordered s) (low : 0 ≤ s.eaX o.a o.imm)
    (high : s.eaX o.a o.imm < 2 ^ 56) (aligned : s.eaX o.a o.imm % 4 = 0) (strided : (s.getX o.b).toInt % 4 = 0) (start : s.me.u.mstart = 0)
    (some : 0 < min (s.getX o.c).toNat 64) : rowMove i o store s = .ok (s.setCore s.cur { s.me with
      long := Option.some { kind := rowCode store, acc := o.d.toNat, next := 0, mcKey := [], panels := [] } }) := by
  obtain ⟨format, code⟩ := rowFormat_ok i raw plain
  have ready : longWaits s = false := by simp [longWaits, short]
  have first (c : Nat) : startIndex s.me.u.mstart c o.d.toNat = 0 := by rw [start]; rfl
  have place (k : AKind) : checkAlign k (s.eaX o.a o.imm) 4 = .ok () := if_pos aligned
  have range (k : AKind) : checkRange k (s.eaX o.a o.imm) = .ok (s.eaX o.a o.imm).toNat := if_pos ⟨low, high⟩
  have stride : ¬((s.getX o.b).toInt % ((4 : Nat) : Int) ≠ 0) := not_not.2 strided
  unfold rowMove
  simp only [format, bind, Except.bind, code, ne_eq, not_true_eq_false, decide_false, Bool.and_false, Bool.false_and, checkMode, Bool.false_eq_true,
    if_false, if_true, free, place, range, ready, if_neg stride, orderWait_ok_of_unordered unordered, first, ge_iff_le, Nat.le_zero, Nat.ne_of_gt some]
  rfl

end

end

end Sys2Proof.Machine

/-! ### The statement -/

namespace Sys2Proof.Proofs

open Sys2Proof.Machine

/-- `Rule.PanelSteps`: MOPAK begins once its panels pass, and then each step is one outer product. -/
theorem panelStepsRule : Rule.PanelSteps := by
  intro s o ka kb m total n issues user fits clean alone hereA hereB nearA nearB
  rw [opAddr_eq] at hereA hereB
  have steps : (s.getX o.c).toNat % 2 ^ 16 = total := by rw [← bitsOf_low, bitsOf_eq_extractLsb']
  refine ⟨fun free short unordered alignedA alignedB some start belowA belowB live grantedA grantedB => ?_, fun l long kind acc next fineA fineB => ?_⟩
  · have size := spadSize_le (s.cls s.cur)
    have panelA := own_panel nearA live belowA grantedA
    have panelB := own_panel nearB live belowB grantedB
    have begins := mopak_begins fits hereA hereB nearA nearB free short unordered alignedA alignedB (steps ▸ some) start alone
      (steps ▸ panelA) (steps ▸ panelB) (by rw [steps]; change ka + n * total < _; omega) (by rw [steps]; change kb + n * total < _; omega)
    exact ⟨_, (exec_mopak s o).trans (run_ok issues begins), setCore_coreBecomes s s.cur _⟩
  · intro a b el
    have step := mopak_step fits hereA hereB nearA nearB long clean fineA fineB
    let x := panelStep o m l.next (Loc.spad s.cur ka).key (Loc.spad s.cur kb).key s
    rw [steps, orFlags_setCore _ _ user] at step
    have stepped := stepLong_setCore (k := x.1.orU x.2) total user long
    obtain ⟨only, core, bytes⟩ := setCore_coreBecomes s s.cur ((x.1.orU x.2).stepped l total)
    have cx : s.cx = s.me.u := by rw [State.cx, user]; rfl
    obtain ⟨more, last⟩ := stepped_frame (s := s) (k := x.1.orU x.2) (l := l) (total := total) user (by rw [cx]; rfl) (by rw [cx]; rfl)
    refine ⟨_, (exec_mopak s o).trans (run_ok issues (step.trans (congrArg Except.ok stepped))), only, bytes, fun r j hr hj => ?_, more, last⟩
    have element : accWord (x.1.acc o.d.toNat) r j = _ := (congrArg (accWord · r j) (acc_setAcc_self s.me o.d.toNat 0 4096 _)).trans
      (accWord_accAll _ _ hr hj)
    have subtract : m.subt = o.f16.getLsbD 11 := bitOf_eq_getLsbD o.f16 11
    rw [panelPairs_eq, subtract] at element
    unfold Spec.acElem
    rw [core, acc_stepped]
    exact element

/-- MSTA and MLDA are one row move. -/
theorem exec_rowMove {o : LX} {store : Bool} {i : Instr} (form : i = (if store then .msta o else .mlda o)) (s : State) :
    exec i s = run i s (rowMove i o store) := by
  subst form
  cases store <;> rfl

/-- `Rule.RowMoves`: the row's places are given, so the row moves whole. -/
theorem rowMoves : Rule.RowMoves := by
  intro s o store i form issues user raw plain clean base stride total kind code
  have address : s.eaX o.a o.imm = base := eaX_eq o.a o.imm
  have runs := exec_rowMove form s
  have cx : s.cx = s.me.u := by rw [State.cx, user]; rfl
  refine ⟨fun free short unordered low high aligned strided start some => ?_, fun l key long kinds acc next free places => ?_⟩
  · rw [← address] at low high aligned
    have begins := rowMove_begins (i := i) (store := store) raw plain free short unordered low high aligned strided start some
    obtain ⟨only, core, bytes⟩ := setCore_coreBecomes s s.cur
      { s.me with long := Option.some { kind := rowCode store, acc := o.d.toNat, next := 0, mcKey := [], panels := [] } }
    refine ⟨_, runs.trans (run_ok issues begins), only, bytes, ?_, ?_, ?_, ?_⟩
    · rw [cx_setCore, user, cx]
      rfl
    · exact congrArg Core.long (me_setCore s _)
    · rw [me_setCore]
    · rw [me_setCore]
  · obtain ⟨-, format⟩ := rowFormat_ok i raw plain
    rw [← address] at places
    cases store with
    | true =>
      have did := rowStep_stores format clean free places rfl
      obtain ⟨m, stored, bytes⟩ := rowStored_mem s o.d.toNat key l.next
      have moved := rowMove_step (i := i) raw plain long did
      have flags : (rowStored s o.d.toNat key l.next).orFlags 0 = ({ s with mem := m } : State).setCore s.cur (s.me.orU 0) :=
        (congrArg (State.orFlags · 0) stored).trans (orFlags_user (s := { s with mem := m }) 0 user)
      rw [flags] at moved
      have stepped := stepLong_setCore (s := { s with mem := m }) (k := s.me.orU 0) total user long
      obtain ⟨only, core, -⟩ := setCore_coreBecomes { s with mem := m } s.cur ((s.me.orU 0).stepped l total)
      obtain ⟨more, last⟩ := stepped_frame (s := { s with mem := m }) (k := s.me.orU 0) (l := l) (total := total) user
        (show (s.me.orU 0).u.pc = s.cx.pc by rw [cx]; rfl) (show (s.me.orU 0).u.line = s.cx.line by rw [cx]; rfl)
      refine ⟨_, runs.trans (run_ok issues (moved.trans (congrArg Except.ok stepped))), only, more, last, fun _ => ⟨fun j hj => ?_, ?_, ?_⟩, fun load => absurd load (by decide)⟩
      · have word : accWord (s.me.acc o.d.toNat) l.next j < 2 ^ 32 := BitVec.isLt _
        exact (Memory.read_congr fun i _ => bytes _).trans (read_rowMem s.mem hj word)
      · intro x outside
        exact (bytes x).trans ((byte_rowMem key _ 64 s.mem x).trans (if_neg (by omega)))
      · rw [me_setCore (s := { s with mem := m })]
        unfold Core.stepped
        split <;> rfl
    | false =>
      obtain ⟨f, did⟩ := rowStep_loads format free places rfl
      have moved := rowMove_step (i := i) raw plain long did
      let k := s.me.setAcc o.d.toNat (64 * l.next) 64 (accRow (s.me.acc o.d.toNat) l.next (fun j _ => (s.mem.read (key + 4 * j) 4, 0))).1
      rw [rowLoaded, orFlags_setCore _ _ user] at moved
      have stepped := stepLong_setCore (s := s) (k := k.orU f) total user long
      obtain ⟨only, core, bytes⟩ := setCore_coreBecomes s s.cur ((k.orU f).stepped l total)
      obtain ⟨more, last⟩ := stepped_frame (s := s) (k := k.orU f) (l := l) (total := total) user
        (by rw [cx]; rfl) (by rw [cx]; rfl)
      refine ⟨_, runs.trans (run_ok issues (moved.trans (congrArg Except.ok stepped))), only, more, last, fun stores => absurd stores (by decide), fun _ => ⟨bytes, fun r j hr hj => ?_⟩⟩
      have element : accWord (k.acc o.d.toNat) r j = _ := (congrArg (accWord · r j) (acc_setAcc_self s.me o.d.toNat _ 64 _)).trans
        (accWord_accRow _ _ _ hr hj)
      have word : s.mem.read (key + 4 * j) 4 < 2 ^ 32 := Memory.read_lt _ _ _
      rw [Nat.mod_eq_of_lt word] at element
      unfold Spec.acElem
      rw [core, acc_stepped]
      exact element

/-- Settles O38: panels and rows. -/
theorem panelSteps : Obligations.PanelSteps := ⟨panelStepsRule, rowMoves⟩

end Sys2Proof.Proofs
end

section
/-! References: heal, slots, fields, pins, moves and comparison (R171 to R181, R343). The statement O39. -/

namespace Sys2Proof.Machine

/-! ### The fields of a reference -/

theorem refVa_eq (r : Word) : refVa r = Spec.refAddr r := by
  rw [Spec.refAddr, BitVec.toNat_setWidth, refVa]

theorem refVa_lt (r : Word) : refVa r < 2 ^ 56 := Nat.mod_lt _ (Nat.two_pow_pos 56)

theorem wellFormedRef_iff (r : Word) : wellFormedRef r = true ↔ Spec.isRef r := by
  have top : bitsOf r.toNat 56 6 = 0 ↔ r.extractLsb' 56 6 = 0 := by
    rw [bitsOf_eq_extractLsb']
    exact BitVec.toNat_inj (y := (0 : BitVec 6))
  have low : r.toNat % 8 = 0 ↔ r.extractLsb' 0 3 = 0 := by
    rw [← BitVec.toNat_inj, ← bitsOf_eq_extractLsb', bitsOf_low]
    rfl
  unfold wellFormedRef Spec.isRef
  rw [Bool.and_eq_true, Bool.and_eq_true, beq_iff_eq, beq_iff_eq, top, low, bitOf_eq_getLsbD, and_assoc]

theorem isRef_ne_zero {r : Word} (form : Spec.isRef r) : r ≠ 0 := by
  rintro rfl
  exact absurd form.1 (by decide)

theorem current_iff (s : State) (r : Word) : (refColour r == s.phase) = true ↔ Spec.current s r := by
  rw [beq_iff_eq, refColour, bitOf_eq_getLsbD]
  rfl

theorem mkRef_eq (c : Bool) {n : Nat} (small : n < 2 ^ 56) : mkRef c n = BitVec.ofNat 64 (2 ^ 63 + (if c then 2 ^ 62 else 0) + n) := by
  rw [mkRef, Nat.mod_eq_of_lt small]
  cases c <;> rfl

/-! ### Heal -/

section
variable {s : State} {r : Word}

theorem heal_current (same : Spec.current s r) : heal s r = .ok (s, r) := if_pos ((current_iff s r).2 same)

/-- A heal that goes to the header n of state u, which has met no page out of reach. -/
theorem heal_stale {u : State} {n : Nat} (stale : ¬Spec.current s r) (goes : s.forward s.cx.as (refVa r) = some (u, n)) (reached : u.blocked = false) :
    heal s r = (match u.managedPage (s.who .heal .look) n with
      | .error (.trap t) => .error (.trapIn t u)
      | .error e => .error e
      | .ok (s2, _) => .ok (s2, mkRef s.phase n)) := by
  have whole : s.whole u = .ok u := by simp [State.whole, reached]
  unfold heal
  rw [if_neg (mt (current_iff s r).1 stale), goes]
  dsimp only
  rw [whole] <;> rfl

theorem heal_managed {u t : State} {e : HomeEntry} {n : Nat} (stale : ¬Spec.current s r) (goes : s.forward s.cx.as (refVa r) = some (u, n))
    (reached : u.blocked = false) (small : n < 2 ^ 56) (page : u.managedPage (s.who .heal .look) n = .ok (t, e)) :
    heal s r = .ok (t, BitVec.ofNat 64 (2 ^ 63 + (if s.phase then 2 ^ 62 else 0) + n)) := by
  rw [heal_stale stale goes reached, page, ← mkRef_eq s.phase small]

theorem managedPage_other {w : Who} {t : State} {e : HomeEntry} {n : Nat} (global : isLocal n = false) (page : s.lookPage w n = .ok (t, e))
    (other : leafType e.leaf.toNat ≠ 3) : s.managedPage w n = .error (.trapIn (mhref 3 n) t) := by
  unfold State.managedPage
  rw [if_neg (by simp [global]), page]
  exact if_neg other

/-- Where the settled entries of a cycle send a header. -/
theorem forward_settled {va n : Nat} (settled : (s.fwdOf s.cx.as va = none ∧ n = va) ∨
    (∃ c m, s.fwdOf s.cx.as va = some (c, m, .skipped) ∧ n = va) ∨ ∃ c, s.fwdOf s.cx.as va = some (c, n, .copied)) :
    s.forward s.cx.as va = some (s, n) := by
  unfold State.forward
  obtain ⟨none, rfl⟩ | ⟨c, m, skipped, rfl⟩ | ⟨c, copied⟩ := settled
  · rw [none]
  · rw [skipped]
  · rw [copied]

theorem forward_pending {c : Cycle} {va new : Nat} (pending : s.fwdOf s.cx.as va = some (c, new, .pending)) :
    s.forward s.cx.as va = (s.relocate c va new).map (fun u =>
      (u, if (u.fwdOf s.cx.as va).map (·.2.2) = some .copied then new else va)) := by
  unfold State.forward
  rw [pending]
  refine congrArg (fun f => Option.map f _) (funext fun u => ?_)
  cases u.fwdOf s.cx.as va with
  | none => rfl
  | some x =>
    obtain ⟨d, m, f⟩ := x
    cases f <;> rfl

end

/-! ### The q registers -/

theorem Ctx.setQ_getQ (k : Ctx) (r : BitVec 5) : k.setQ r (k.getQ r) = k := by
  unfold Ctx.setQ Ctx.getQ
  rw [Vector.set_getElem_self]

theorem modCx_congr {s : State} {f g : Ctx → Ctx} (same : f s.cx = g s.cx) : s.modCx f = s.modCx g := congrArg s.setCx same

theorem getQ_setQ_same (s : State) (r : BitVec 5) : (s.setQ r (s.getQ r)).cx = s.cx := by
  rw [State.setQ, State.cx_modCx]
  exact Ctx.setQ_getQ s.cx r

theorem phase_setQ (s : State) (r : BitVec 5) (v : Word) : (s.setQ r v).phase = s.phase := by
  have asid : (s.setQ r v).cx.asid = s.cx.asid := by rw [State.setQ, State.cx_modCx]; rfl
  have me : (s.setQ r v).me = s.me.setCtx s.curCtx (s.cx.setQ r v) := State.me_modCx s _
  have core : (s.setQ r v).me.u.asid = s.me.u.asid ∧ (s.setQ r v).me.heapphase = s.me.heapphase := by
    rw [me]
    unfold State.cx
    cases s.curCtx <;> exact ⟨rfl, rfl⟩
  have as : (s.setQ r v).cx.as = s.cx.as := by rw [State.setQ, State.cx_modCx]; rfl
  unfold State.phase
  rw [asid, core.1, core.2, as]
  rfl

theorem setQ_advance_becomes (s : State) (d : BitVec 5) (v : Word) : CoreBecomes s (s.setQ d v).advance s.cur (Spec.qNext s d v) := by
  have one : (s.setQ d v).advance = s.modCx (fun k => (k.setQ d v).advance) := State.modCx_modCx s _ _
  rw [one]
  exact modCx_coreBecomes s _

theorem refeq_current {s : State} {a b d : BitVec 5} (v : Word) :
    ((s.setQ a (s.getQ a)).setQ b (s.getQ b)).retX d v = s.retX d v := by
  have one : ((s.setQ a (s.getQ a)).setQ b (s.getQ b)).retX d v =
      s.modCx (fun k => (((k.setQ a (s.getQ a)).setQ b (s.getQ b)).setX d v).advance) := by
    unfold State.setQ State.retX
    rw [State.modCx_modCx, State.modCx_modCx]
  rw [one]
  refine modCx_congr ?_
  have first : s.cx.setQ a (s.getQ a) = s.cx := Ctx.setQ_getQ s.cx a
  have second : s.cx.setQ b (s.getQ b) = s.cx := Ctx.setQ_getQ s.cx b
  rw [first, second]

/-! ### Slots -/

/-- What LDREF does with the slot once it has been reached at place p. -/
def slotLoad (o : LM) (asid va : Nat) (t : State) (p : Place) : Except Stop State := do
  let v : Word := BitVec.ofNat 64 (t.placeRead asid p 8)
  if v = 0 then return ((t.countDue p).setQ o.d 0).advance
  else if !wellFormedRef v then .error (.trapIn (mhref 2 va) t)
  else
    let (s2, r) ← (heal t v).mapError (keep t)
    if r = v then return ((s2.countDue p).setQ o.d r).advance
    else
      let (s3, p1) ← (s2.barrierAccess .atomic .rw va).mapError (keep s2)
      let s4 := if s3.placeRead asid p1 8 = v.toNat then s3.placeWrite asid p1 (toBytes 8 r.toNat) else s3
      return ((s4.countDue p).setQ o.d r).advance

section
variable {s t : State} {o : LM} {p : Place} {asid va : Nat}

theorem exec_ldref_of (issues : Issues (.ldref o) s) (free : Spec.unordered s) (low : 0 ≤ Spec.ea s o.a o.imm) (high : Spec.ea s o.a o.imm < 2 ^ 56)
    (aligned : Spec.ea s o.a o.imm % 8 = 0) (reached : s.barrierAccess .load .r (Spec.ea s o.a o.imm).toNat true = .ok (t, p))
    (clean : t.placePoisoned s.cx.as p 8 = false) :
    exec (.ldref o) s = run (.ldref o) s (fun _ => slotLoad o s.cx.as (Spec.ea s o.a o.imm).toNat t p) := by
  have address : checkAddr .load (s.eaM o.a o.imm) 8 = .ok (Spec.ea s o.a o.imm).toNat := by
    rw [eaM_eq_ea]
    exact checkAddr_ok aligned low high
  rw [exec_ldref, execLdref, run_issues issues, run_issues issues]
  simp only [orderWait_ok_of_unordered free, bind, Except.bind, address, reached, clean]
  rfl

theorem slotLoad_fine (fine : BitVec.ofNat 64 (t.placeRead asid p 8) = 0 ∨
    (Spec.isRef (BitVec.ofNat 64 (t.placeRead asid p 8)) ∧ Spec.current t (BitVec.ofNat 64 (t.placeRead asid p 8)))) :
    slotLoad o asid va t p = .ok ((t.countDue p).setQ o.d (BitVec.ofNat 64 (t.placeRead asid p 8))).advance := by
  unfold slotLoad
  dsimp only
  obtain null | ⟨form, current⟩ := fine
  · rw [if_pos null, null]
    rfl
  · have good := (wellFormedRef_iff _).2 form
    rw [if_neg (isRef_ne_zero form), good, heal_current current]
    simp only [bind, Except.bind, Except.mapError, if_true]
    rfl

theorem slotLoad_malformed (some : BitVec.ofNat 64 (t.placeRead asid p 8) ≠ 0) (malformed : ¬Spec.isRef (BitVec.ofNat 64 (t.placeRead asid p 8))) :
    slotLoad o asid va t p = .error (.trapIn { cause := .mhref, saddr := va, sinfo := 2 } t) := by
  have bad := Bool.eq_false_iff.2 (mt (wellFormedRef_iff _).1 malformed)
  unfold slotLoad
  dsimp only
  rw [if_neg some, bad]
  rfl

theorem slotLoad_healed {t2 t3 : State} {r : Word} {q : Place} (some : BitVec.ofNat 64 (t.placeRead asid p 8) ≠ 0)
    (form : Spec.isRef (BitVec.ofNat 64 (t.placeRead asid p 8))) (healed : heal t (BitVec.ofNat 64 (t.placeRead asid p 8)) = .ok (t2, r))
    (other : r ≠ BitVec.ofNat 64 (t.placeRead asid p 8)) (again : t2.barrierAccess .atomic .rw va = .ok (t3, q)) :
    slotLoad o asid va t p = .ok (((if t3.placeRead asid q 8 = (BitVec.ofNat 64 (t.placeRead asid p 8)).toNat then
      t3.placeWrite asid q (toBytes 8 r.toNat) else t3).countDue p).setQ o.d r).advance := by
  have good := (wellFormedRef_iff _).2 form
  unfold slotLoad
  dsimp only
  rw [if_neg some, good, healed]
  simp only [bind, Except.bind, Except.mapError, if_neg other, again]
  rfl

end

/-! ### Fields -/

section
variable {s : State} {o : LM} {kind : AKind} {need : Need}

theorem field_null (null : s.getQ o.a = 0) : s.field o kind need = .error (.trap (mhref 1 0)) := by
  simp only [State.field, null]
  rfl

theorem field_misaligned (some : s.getQ o.a ≠ 0) (odd : o.imm.toNat % 8 ≠ 0) :
    s.field o kind need = .error (.trap { cause := .align, saddr := 0, sinfo := kind.code * 16 + 3 }) := by
  simp only [State.field, if_neg some, if_pos odd]
  rfl

section
variable {s1 t : State} {h : Word} {e : HomeEntry} {lv : Nat} (some : s.getQ o.a ≠ 0) (even : o.imm.toNat % 8 = 0)
  (healed : heal s (s.getQ o.a) = .ok (s1, h)) (low : 0 ≤ (Spec.refAddr h : Int) + o.imm.toInt) (high : (Spec.refAddr h : Int) + o.imm.toInt < 2 ^ 56)
  (global : isLocal ((Spec.refAddr h : Int) + o.imm.toInt).toNat = false)
  (page : (s1.setQ o.a h).homeEntry s.cx.as ((Spec.refAddr h : Int) + o.imm.toInt).toNat = .ok (t, e, lv))
  (granted : protReason { s.who kind need with barrier := true } e.leaf.toNat = none)
include some even healed low high global page granted

theorem field_elsewhere (unmanaged : leafType e.leaf.toNat ≠ 3) (unwindowed : leafType e.leaf.toNat ≠ 4) :
    s.field o kind need = .error (.trapIn (mhref 3 ((Spec.refAddr h : Int) + o.imm.toInt).toNat) t) := by
  have range : checkRange kind ((refVa h : Int) + o.imm.toInt) = .ok ((Spec.refAddr h : Int) + o.imm.toInt).toNat := by
    rw [refVa_eq]
    exact if_pos ⟨low, high⟩
  have who : (s.barrierWho kind need).asid = s.cx.as := rfl
  have rights : protReason (s.barrierWho kind need) e.leaf.toNat = none := granted
  simp only [State.field, if_neg some, even, bind, Except.bind, healed, range, Except.mapError, global, who, page, unwindowed, rights, if_pos unmanaged]
  rfl

theorem field_reached {u : State} {p : Place} (managed : leafType e.leaf.toNat = 3)
    (reached : t.barrierAccess kind need ((Spec.refAddr h : Int) + o.imm.toInt).toNat = .ok (u, p)) :
    s.field o kind need = .ok (u, p, ((Spec.refAddr h : Int) + o.imm.toInt).toNat) := by
  have range : checkRange kind ((refVa h : Int) + o.imm.toInt) = .ok ((Spec.refAddr h : Int) + o.imm.toInt).toNat := by
    rw [refVa_eq]
    exact if_pos ⟨low, high⟩
  have who : (s.barrierWho kind need).asid = s.cx.as := rfl
  have rights : protReason (s.barrierWho kind need) e.leaf.toNat = none := granted
  simp only [State.field, if_neg some, even, bind, Except.bind, healed, range, Except.mapError, global, who, page, managed, rights, reached]
  rfl

end

/-- LDF and STF end as their field does when it is not reached. -/
theorem field_stops {i : Instr} {x : Stop} (form : i = .ldf o ∨ i = .stf o) (issues : Issues i s) (free : Spec.unordered s)
    (stops : s.field o (if i = .ldf o then .load else .store) (if i = .ldf o then .r else .w) = .error x) : exec i s = finish s x := by
  obtain rfl | rfl := form
  · rw [if_pos rfl, if_pos rfl] at stops
    refine (exec_ldf s o).trans (run_error issues ?_)
    simp only [orderWait_ok_of_unordered free, bind, Except.bind, stops]
  · rw [if_neg (by simp), if_neg (by simp)] at stops
    refine (exec_stf s o).trans (run_error issues ?_)
    simp only [orderWait_ok_of_unordered free, bind, Except.bind, stops]

end

/-! ### Pins -/

theorem classQueued_of_empty {s : State} {p : Nat → Bool} (empty : s.me.queue = []) : s.classQueued p = false := by
  simp [State.classQueued, State.queuedAccesses, empty]

theorem find_hpin_none {pages : List HomeEntry} {n : Nat} (room : ∀ e ∈ pages, e.hpin ≠ n) : pages.find? (fun e => e.hpin == n) = none := by
  rw [List.find?_eq_none]
  exact fun e listed => mt beq_iff_eq.1 (room e listed)

section
variable {s s1 t u : State} {a : BitVec 5} {bad reason : Nat} {f : Nat → Nat} {h : Word} {e : HomeEntry} {pages : List HomeEntry}

theorem pinOp_null (null : s.getQ a = 0) : pinOp a bad reason f s = .error (.trap (mhref 1 0)) := by
  simp only [pinOp, null]
  rfl

theorem pinOp_reached (nonzero : s.getQ a ≠ 0) (healed : heal s (s.getQ a) = .ok (s1, h))
    (page : (s1.setQ a h).managedPage (s.who .heal .look) (Spec.refAddr h) = .ok (t, e))
    (clean : t.placePoisoned s.cx.as (t.framePlace (s.who .heal .look) (Spec.refAddr h) e) 8 = false)
    (object : t.objectPages (s.who .heal .look) (objLength t.mem (t.framePlace (s.who .heal .look) (Spec.refAddr h) e).key / 2 ^ 16 + 2)
      (Spec.refAddr h) (objLength t.mem (t.framePlace (s.who .heal .look) (Spec.refAddr h) e).key) = .ok (u, pages)) :
    pinOp a bad reason f s = (match pages.find? (fun e => e.hpin == bad) with
      | some e => .error (.trapIn (mhref reason (e.page * pageBytes e.big)) u)
      | none => .ok (u.pinPages f pages, h)) := by
  have who : (s.who .heal .look).asid = s.cx.as := rfl
  have object' : t.objectPages (s.who .heal .look) (objLength t.mem (t.framePlace (s.who .heal .look) (Spec.refAddr h) e).key / 0x1_0000 + 2)
      (Spec.refAddr h) (objLength t.mem (t.framePlace (s.who .heal .look) (Spec.refAddr h) e).key) = .ok (u, pages) := object
  unfold pinOp
  simp only [if_neg nonzero, bind, Except.bind, healed, refVa_eq, page, Except.mapError, who, clean]
  rw [object']
  rfl

end

end Sys2Proof.Machine

namespace Sys2Proof.Proofs

open Sys2Proof.Machine

/-- `Rule.HealRule`: by where the cycle sends the header. -/
theorem healRule : Rule.HealRule := by
  intro s r form still
  have va := refVa_eq r
  refine ⟨heal_current, fun stale n settled small => ?_, fun stale c new pending small => ⟨fun waits => ?_, fun u t e n copied reached ends page => ?_⟩⟩
  · have goes : s.forward s.cx.as (refVa r) = some (s, n) := forward_settled (by rwa [va])
    refine ⟨fun t e page => heal_managed stale goes still small page, fun t e global page other => ?_⟩
    rw [heal_stale stale goes still, managedPage_other global page other]
    rfl
  · have goes : s.forward s.cx.as (refVa r) = none := by rw [forward_pending (by rwa [va]), va, waits]; rfl
    unfold heal
    rw [if_neg (mt (current_iff s r).1 stale), goes]
  · have goes : s.forward s.cx.as (refVa r) = some (u, n) := by rw [forward_pending (by rwa [va]), va, copied, ends]; rfl
    have below : n < 2 ^ 56 := by
      rw [ends]
      split
      · exact small
      · rw [← va]
        exact refVa_lt r
    exact heal_managed stale goes reached below page

/-- `Rule.ReferenceMoves`: QMOV, QCVT and REFEQ as they are written. -/
theorem referenceMoves : Rule.ReferenceMoves := by
  intro s
  refine ⟨fun o issues => ?_, fun o issues => ?_, fun o issues => ?_⟩
  · exact ⟨_, (exec_qmov s o).trans (run_ok issues rfl), setQ_advance_becomes s o.d _⟩
  · intro v
    refine ⟨fun null => ?_, fun some malformed => ?_, fun t e form page => ?_, fun t e form global page other => ?_⟩
    · exact ⟨_, (exec_qcvtToRef s o).trans (run_ok issues (if_pos null)), setQ_advance_becomes s o.d 0⟩
    · refine (exec_qcvtToRef s o).trans (run_traps issues ?_)
      have bad : wellFormedRef (s.getX o.a) = false := Bool.eq_false_iff.2 (mt (wellFormedRef_iff _).1 malformed)
      have nonzero : s.getX o.a ≠ 0 := some
      simp only [if_neg nonzero, bad, Bool.not_false, if_true]
      rfl
    · have nonzero : s.getX o.a ≠ 0 := isRef_ne_zero form
      have good : wellFormedRef (s.getX o.a) = true := (wellFormedRef_iff _).2 form
      have here : s.managedPage (s.who .heal .look) (refVa (s.getX o.a)) = .ok (t, e) := by rw [refVa_eq]; exact page
      refine ⟨_, (exec_qcvtToRef s o).trans (run_ok issues ?_), setQ_advance_becomes t o.d v⟩
      simp only [if_neg nonzero, good, bind, Except.bind, here]
      rfl
    · have nonzero : s.getX o.a ≠ 0 := isRef_ne_zero form
      have good : wellFormedRef (s.getX o.a) = true := (wellFormedRef_iff _).2 form
      refine (exec_qcvtToRef s o).trans (run_trapsIn issues ?_)
      have stops : s.managedPage (s.who .heal .look) (refVa (s.getX o.a)) = .error (.trapIn (mhref 3 (Spec.refAddr v)) t) := by
        rw [refVa_eq]
        exact managedPage_other global page other
      simp only [if_neg nonzero, good, bind, Except.bind, stops]
      rfl
  · dsimp only
    refine ⟨fun null => ?_, fun someA someB currentA currentB => ?_, fun t ra u rb someA someB healedA => ?_⟩
    · exact ⟨_, (exec_refeq s o).trans (run_ok issues (if_pos null)), retX_returns s o.d _⟩
    · have second : heal (s.setQ o.a (s.getQ o.a)) ((s.setQ o.a (s.getQ o.a)).getQ o.b) = .ok (s.setQ o.a (s.getQ o.a), s.getQ o.b) := by
        have same : (s.setQ o.a (s.getQ o.a)).getQ o.b = s.getQ o.b := congrArg (Ctx.getQ · o.b) (getQ_setQ_same s o.a)
        rw [same]
        refine heal_current ?_
        unfold Spec.current
        rw [phase_setQ]
        exact currentB
      refine ⟨s.retX o.d (if refVa (s.getQ o.a) = refVa (s.getQ o.b) then 1 else 0), (exec_refeq s o).trans (run_ok issues ?_), ?_⟩
      · rw [if_neg (not_or.2 ⟨someA, someB⟩)]
        simp only [bind, Except.bind, heal_current (r := s.getQ o.a) currentA, second, Except.mapError]
        exact congrArg Except.ok (refeq_current (s := s) (a := o.a) (b := o.b) (d := o.d) _)
      · rw [refVa_eq, refVa_eq]
        exact retX_returns s o.d _
    · intro healedB
      refine ⟨_, (exec_refeq s o).trans (run_ok issues ?_), retX_returns (u.setQ o.b rb) o.d _⟩
      rw [if_neg (not_or.2 ⟨someA, someB⟩)]
      simp only [bind, Except.bind, healedA, healedB, Except.mapError, refVa_eq]
      rfl

/-- `Rule.SlotAccess`: the slot is read or written where the barriered access reaches it. -/
theorem slotAccess : Rule.SlotAccess := by
  intro s
  refine ⟨fun o t p issues free => ?_, fun o issues free => ?_⟩
  · dsimp only
    intro low high aligned reached clean
    have runs := exec_ldref_of issues free low high aligned reached clean
    refine ⟨fun fine => ?_, fun some malformed => ?_, fun t2 t3 r q some form healed other again => ?_⟩
    · exact ⟨_, runs.trans (run_ok issues (slotLoad_fine fine)), setQ_advance_becomes _ o.d _⟩
    · exact runs.trans (run_trapsIn issues (slotLoad_malformed some malformed))
    · have moved := slotLoad_healed (o := o) some form healed other again
      rw [toBytes_eq_bytes] at moved
      exact ⟨_, runs.trans (run_ok issues moved), setQ_advance_becomes _ o.d _⟩
  · dsimp only
    intro low high aligned
    have address : checkAddr .store (s.eaM o.a o.imm) 8 = .ok (Spec.ea s o.a o.imm).toNat := by
      rw [eaM_eq_ea]
      exact checkAddr_ok aligned low high
    refine ⟨fun t p fine reached => ?_, fun t1 t2 t3 r p some stale checked healed reached => ?_⟩
    · refine ⟨_, (exec_stref s o).trans (run_ok issues ?_), advance_movesTo _⟩
      have plain : (decide (s.getQ o.d = 0) || refColour (s.getQ o.d) == s.phase) = true := by
        rw [Bool.or_eq_true, decide_eq_true_eq, current_iff]
        exact fine
      simp only [orderWait_ok_of_unordered free, bind, Except.bind, address, plain, if_true, reached, toBytes_eq_bytes]
      rfl
    · refine ⟨_, (exec_stref s o).trans (run_ok issues ?_), advance_movesTo _⟩
      have plain : (decide (s.getQ o.d = 0) || refColour (s.getQ o.d) == s.phase) = false := by
        rw [Bool.or_eq_false_iff, decide_eq_false_iff_not, Bool.eq_false_iff, ne_eq, current_iff]
        exact ⟨some, stale⟩
      simp only [orderWait_ok_of_unordered free, bind, Except.bind, address, plain, Bool.false_eq_true, if_false, checked, healed, reached,
        Except.mapError, toBytes_eq_bytes]
      rfl

/-- `Rule.FieldAccess`: the field is reached from the healed reference, on a managed page. -/
theorem fieldAccess : Rule.FieldAccess := by
  intro s o i form issues free
  dsimp only
  refine ⟨fun null => field_stops form issues free (field_null null), fun some odd => field_stops form issues free (field_misaligned some odd), ?_⟩
  intro s1 h t e lv some even healed low high global page granted
  refine ⟨fun unmanaged unwindowed => ?_, fun u p managed reached => ⟨?_, ?_⟩⟩
  · exact field_stops form issues free (field_elsewhere some even healed low high global page granted unmanaged unwindowed)
  · rintro rfl clean
    simp only [if_true] at reached granted
    have field := field_reached some even healed low high global page granted managed reached
    refine ⟨_, (exec_ldf s o).trans (run_ok issues ?_), retX_returns u o.d _⟩
    simp only [orderWait_ok_of_unordered free, bind, Except.bind, field, clean]
    rfl
  · rintro rfl
    simp only [reduceCtorEq, if_false] at reached granted
    have field := field_reached some even healed low high global page granted managed reached
    refine ⟨_, (exec_stf s o).trans (run_ok issues ?_), advance_movesTo _⟩
    simp only [orderWait_ok_of_unordered free, bind, Except.bind, field, toBytes_eq_bytes]
    rfl

/-- `Rule.PinResult`: the counts of the object's pages change together, or not at all. -/
theorem pinResult : Rule.PinResult := by
  intro s o
  dsimp only
  refine ⟨fun null => ⟨fun issues => ?_, fun issues empty => ?_⟩, fun s1 t u h e pages some healed page clean object => ?_⟩
  · refine (exec_pin s o).trans (run_traps issues ?_)
    simp only [pinOp_null null, bind, Except.bind]
    rfl
  · refine (exec_unpin s o).trans (run_traps issues ?_)
    simp only [classQueued_of_empty empty, pinOp_null null, bind, Except.bind]
    rfl
  · have op (bad reason : Nat) (f : Nat → Nat) := pinOp_reached (bad := bad) (reason := reason) (f := f) some healed page clean object
    refine ⟨fun issues room => ?_, fun issues empty room => ?_, fun e2 full issues => ?_, fun e2 zero issues empty => ?_⟩
    · refine ⟨_, (exec_pin s o).trans (run_ok issues ?_), retX_returns (u.pinPages (· + 1) pages) o.d _⟩
      simp only [op, find_hpin_none room, bind, Except.bind, refVa_eq]
      rfl
    · refine ⟨_, (exec_unpin s o).trans (run_ok issues ?_), advance_movesTo _⟩
      simp only [classQueued_of_empty empty, op, find_hpin_none room, bind, Except.bind]
      rfl
    · refine (exec_pin s o).trans (run_trapsIn issues ?_)
      simp only [op, full, bind, Except.bind]
      rfl
    · refine (exec_unpin s o).trans (run_trapsIn issues ?_)
      simp only [classQueued_of_empty empty, op, zero, bind, Except.bind]
      rfl

/-- Settles O39: heal, and the instructions on references. -/
theorem referenceResult : Obligations.ReferenceResult := ⟨healRule, referenceMoves, slotAccess, fieldAccess, pinResult⟩

end Sys2Proof.Proofs
end

section
/-! The A context: handlers, service code, HEND and SRET (R196, R204 to R206, R223), and taking a trap (R205, R328). The statements O42 and
O43. -/

namespace Sys2Proof.Machine

/-! ### Starting the A context's work -/

section
variable {s : State} {c : Nat}

theorem aFree_of (live : s.live c = true) (idle : (s.core c).aWork = .idle) (lead : ∀ l, (s.core c).gang ≠ .follower l) :
    s.aFree c = true := by
  unfold State.aFree
  rw [live, idle]
  cases gang : (s.core c).gang with
  | follower l => exact absurd gang (lead l)
  | none => rfl
  | leader n => rfl

/-- The core as HANDLER_START leaves it, for a message of the address space of its U strand. -/
def Core.startHandler (k : Core) (m : Msg) (rest : List Msg) : Core :=
  { k with slots := rest, aWork := .handler m, a := handlerCtx k m k.u.strandId }

theorem handlerStart_own {m : Msg} {rest : List Msg} (free : s.aFree c = true) (slots : (s.core c).slots = m :: rest)
    (none : (s.core c).entries = []) (owner : (s.core c).owner = some m.asid) (still : ∀ v ∈ s.moves, v.src ≠ c)
    (onto : m.onto = Option.none) (stays : s.leaving c = false) (strand : (s.core c).uWork = .strand)
    (asid : (s.core c).u.asid.toNat = m.asid) :
    handlerStart c s = s.modCore c (·.startHandler m rest) := by
  have first : (s.core c).slots.findIdx? (fun m => (s.core c).owner == some m.asid && m.onto.isNone) = some 0 := by
    rw [slots, List.findIdx?_cons, owner, onto]
    simp
  have moves : s.moves.any (fun v => v.src == c && v.img.ctx.as == m.asid) = false := by
    rw [List.any_eq_false]
    intro v listed
    simp [still v listed]
  have own : ((s.core c).uWork == .strand && (s.core c).u.as == m.asid) = true := by
    simp [strand, Ctx.as, asid]
  have same : ((s.core c).u.strandId.setWidth 64).setWidth 48 = (s.core c).u.strandId := by
    rw [BitVec.setWidth_setWidth_of_le _ (by decide)]
    exact BitVec.setWidth_eq _
  unfold handlerStart
  simp only [first]
  rw [slots]
  simp only [List.getElem?_cons_zero, free, none, stays, moves, own, List.eraseIdx_cons_zero, List.isEmpty_nil, Bool.not_true, Bool.and_false,
    Bool.or_self, Bool.false_eq_true, if_false, if_true]
  unfold State.modCore Core.startHandler
  rw [same]

theorem serviceEntry_starts {e : SvcEntry} {rest : List SvcEntry} (free : s.aFree c = true) (entries : (s.core c).entries = e :: rest) :
    serviceEntry c s = startService s c e := by
  unfold serviceEntry
  rw [entries]
  exact if_pos free

end

/-! ### The registers of service code -/

theorem and_toNat_of_low (n : Nat) : n &&& 0x00FFFFFFFFFFFFFF = n % 2 ^ 56 := Nat.and_two_pow_sub_one_eq_mod n 56

theorem pcMask_toNat (w : Word) : (pcMask w).toNat = w.toNat % 2 ^ 56 := by
  rw [pcMask, BitVec.toNat_and]
  exact and_toNat_of_low _

/-- The base that SVEC names, at a multiple of 64 below 2^56 (R204). -/
theorem svecBase_toNat (v : Word) : (v &&& 0x00FFFFFFFFFFFFC0).toNat = bitsOf v.toNat 6 50 * 2 ^ 6 := by
  refine Nat.eq_of_testBit_eq fun i => ?_
  have mask : (0x00FFFFFFFFFFFFC0 : Word).toNat = (2 ^ 50 - 1) * 2 ^ 6 := rfl
  rw [BitVec.toNat_and, mask, Nat.testBit_and, Nat.testBit_mul_two_pow, Nat.testBit_mul_two_pow, Nat.testBit_two_pow_sub_one,
    testBit_bitsOf]
  rcases Nat.lt_or_ge i 6 with low | high
  · simp [Nat.not_le.2 low]
  · simp [high, Bool.and_comm]

theorem svecEntry_eq (v : Word) (code : Nat) :
    svecEntry v code =
      ((v &&& 0x00FFFFFFFFFFFFC0) + (if v.getLsbD 0 then BitVec.ofNat 64 (64 * code) else 0)) &&& 0x00FFFFFFFFFFFFFF := by
  refine BitVec.eq_of_toNat_eq ((BitVec.toNat_ofNat _ _).trans ?_)
  refine .trans ?_ (pcMask_toNat _).symm
  rw [BitVec.toNat_add, svecBase_toNat, bitOf_eq_getLsbD]
  cases v.getLsbD 0
  · have zero : (0 : Word).toNat = 0 := rfl
    simp only [Bool.false_eq_true, if_false, zero]
    omega
  · simp only [if_true, BitVec.toNat_ofNat]
    omega

theorem nestedEntry_eq (v : Word) : nestedEntry v = ((v &&& 0x00FFFFFFFFFFFFC0) + 0x7C0) &&& 0x00FFFFFFFFFFFFFF := by
  refine BitVec.eq_of_toNat_eq ((BitVec.toNat_ofNat _ _).trans ?_)
  refine .trans ?_ (pcMask_toNat _).symm
  rw [BitVec.toNat_add, svecBase_toNat]
  have : (0x7C0 : Word).toNat = 64 * 0x1F := rfl
  omega

/-- SSTATUS keeps MIGINT, and takes PPRIV, ACTX and GANGW (R23). -/
theorem sstatusWith_eq (old : Word) (level nested gang : Bool) :
    sstatusWith old (b2n level) nested gang =
      (old &&& 1) ||| (if level then 2 else 0) ||| (if nested then 8 else 0) ||| (if gang then 16 else 0) := by
  have low : old &&& 1 = BitVec.ofNat 64 (old.toNat % 2) := by
    refine BitVec.eq_of_toNat_eq ?_
    rw [BitVec.toNat_and, BitVec.toNat_ofNat]
    have : old.toNat &&& (1 : Word).toNat = old.toNat % 2 := Nat.and_one_is_mod _
    omega
  rw [low, sstatusWith]
  rcases Nat.mod_two_eq_zero_or_one old.toNat with even | odd
  · rw [even]
    cases level <;> cases nested <;> cases gang <;> rfl
  · rw [odd]
    cases level <;> cases nested <;> cases gang <;> rfl

/-! ### HEND and SRET -/

theorem lowestBit_eq {w : BitVec 32} {r : Nat} (set : w.getLsbD r = true) (below : ∀ q, q < r → w.getLsbD q = false) :
    lowestBit w.toNat 32 = r := by
  have range : r < 32 := BitVec.lt_of_getLsbD set
  have found : (List.range 32).find? (fun i => bitOf w.toNat i) = some r := by
    refine List.find?_range_eq_some.2 ⟨?_, List.mem_range.2 range, fun q low => ?_⟩
    · rw [bitOf_eq_getLsbD, set]
    · rw [bitOf_eq_getLsbD, below q low]
      rfl
  rw [lowestBit, upTo_eq, found]
  rfl

section
variable {s : State} {i : Instr}

/-- A state that no page out of reach has blocked is the work done. -/
theorem whole_of {t : State} (reached : t.blocked = false) : s.whole t = .ok t := by
  rw [State.whole, reached]
  rfl

theorem run_attempt {body : State → Except Stop State} {t : State} (issues : Issues i s) (ends : body s = .ok t)
    (reached : t.blocked = false) : run i s (attempt body) = .next t := by
  refine run_ok issues ?_
  unfold attempt
  rw [ends]
  exact whole_of reached

theorem run_attempt_traps {body : State → Except Stop State} {t : Trap} (issues : Issues i s) (ends : body s = .error (.trap t)) :
    run i s (attempt body) = .next (takeTrap t s) := by
  refine run_traps issues ?_
  unfold attempt
  rw [ends]

theorem entriesDone_of (queue : ∀ e ∈ s.me.queue, e.ctx ≠ .a) (mq : ∀ e ∈ s.me.mq, e.ctx ≠ .a) :
    (s.me.queue.all (fun e => e.ctx != .a) && s.me.mq.all (fun e => e.ctx != .a)) = true := by
  rw [Bool.and_eq_true, List.all_eq_true, List.all_eq_true]
  exact ⟨fun e listed => bne_iff_ne.2 (queue e listed), fun e listed => bne_iff_ne.2 (mq e listed)⟩

/-- The core whose A context has become free (R196, R206). -/
def Core.freedA (k : Core) : Core :=
  { k with aWork := .idle, aPersists := [], a := { k.a with priv := false, line := none, pend := 0, tokErr := 0, waiting := .no, deadline := none } }

theorem core_freeA (s : State) (c : Nat) : (s.freeA c).core c = (s.core c).freedA := State.core_modCore_self s c Core.freedA

theorem level_split (w : Word) : bitsOf w.toNat 1 2 = b2n (w.getLsbD 1) + 2 * b2n (w.getLsbD 2) := by
  rw [← bitOf_eq_getLsbD, ← bitOf_eq_getLsbD]
  unfold bitsOf bitOf b2n
  simp only [beq_iff_eq]
  split <;> split <;> omega

end

/-! ### Taking a trap -/

section
variable {s : State} {t : Trap}

theorem logConsumed_of {asid : Nat} (c : Nat) (clean : s.consumed asid t = none) : s.logConsumed asid c t = s := by
  unfold State.logConsumed
  rw [clean]

theorem takeTrap_waits (held : s.trapHeld t = true) (stays : (s.curCtx == .u && s.streams t) = false) : takeTrap t s = s := by
  have waits : s.trapWaits t = true := by rw [State.trapWaits, held, Bool.true_or]
  unfold takeTrap State.readied
  rw [if_pos waits, if_pos held, stays]
  rfl

theorem takeTrap_now (free : s.trapHeld t = false) (reached : (trapNow t s).blocked = false) : takeTrap t s = trapNow t s := by
  have goes : s.trapWaits t = false := by rw [State.trapWaits, free, reached, Bool.or_self]
  unfold takeTrap
  rw [goes]
  rfl

theorem trapHeld_service {e : SvcEntry} {k : Option (Nat × Nat)} (ctx : s.curCtx = .a) (work : s.me.aWork = .service e k) :
    s.trapHeld t = !s.me.aDrained := by
  unfold State.trapHeld
  rw [ctx, work]

/-- The core of service code that has trapped (R205): the CSRs of service code overwritten, the nested entry next. -/
def Core.nested (k : Core) (t : Trap) (pc : Word) : Core :=
  { k with scause := BitVec.ofNat 64 t.cause.code, sepc := pc, saddr := BitVec.ofNat 64 t.saddr, sinfo := BitVec.ofNat 64 t.sinfo,
           sstatus := sstatusWith k.sstatus 1 true false,
           a := { k.a with pc := nestedEntry k.svec, line := none, waiting := .no, deadline := none } }

theorem sstatus_nested (old : Word) : sstatusWith old 1 true false = (old &&& 1) ||| 2 ||| 8 :=
  (sstatusWith_eq old true true false).trans BitVec.or_zero

theorem takeNested_clean (clean : s.consumed s.cx.as t = none) :
    takeNested t s = s.modCore s.cur (·.nested t (trapPc t s.cx)) := by
  unfold takeNested
  rw [logConsumed_of s.cur clean]
  rfl

theorem trapNow_service {e : SvcEntry} {k : Option (Nat × Nat)} (ctx : s.curCtx = .a) (work : s.me.aWork = .service e k) :
    trapNow t s = takeNested t s := by
  unfold trapNow
  rw [ctx]
  dsimp only
  rw [work]

theorem streams_of_ne (cause : t.cause ≠ .migclass) : s.streams t = false := by
  unfold State.streams
  rw [beq_false_of_ne cause]
  rfl

theorem trapHeld_user (ctx : s.curCtx = .u) (cause : t.cause ≠ .migclass) :
    s.trapHeld t = (!s.me.drained || !s.persisted s.cur .u || !s.sendsAnswered s.cur .u) := by
  unfold State.trapHeld
  rw [ctx, streams_of_ne cause, Bool.false_and, Bool.or_false]

theorem interruptLong_bare {c : Nat} (bare : Spec.stopsBare s c) : s.interruptLong c = s := by
  obtain ⟨long, mq, pins⟩ := bare
  unfold State.interruptLong
  rw [unpin_free (pins (.entry c false) (by simp)), unpin_free (pins (.entry c true) (by simp)),
    unpin_free (pins (.row c) (by simp))]
  dsimp only
  rw [long]
  unfold State.finishMq
  rw [mq]
  rfl

theorem trapNow_user (ctx : s.curCtx = .u) (cause : t.cause ≠ .migclass) : trapNow t s = holdTrap t s := by
  unfold trapNow
  rw [ctx]
  dsimp only
  unfold takeTrapU
  rw [streams_of_ne cause]
  rfl

theorem imageU_queue_nil {c : Nat} (empty : (s.core c).queue = []) : (s.imageU c).queue = [] := by
  unfold State.imageU
  dsimp only
  rw [empty]
  rfl

/-- The image of the U strand with a trap recorded. -/
def State.trapImage (s : State) (t : Trap) : Image :=
  let g := s.imageU s.cur
  { g with ctx := recorded g.ctx t (trapPc t (s.core s.cur).u) }

theorem holdTrap_bare (gang : s.me.gang = .none) (bare : Spec.stopsBare s s.cur)
    (clean : s.consumed (s.core s.cur).u.as t = none) :
    holdTrap t s = s.holdU s.cur (s.trapImage t) t (trapPc t (s.core s.cur).u) false := by
  have lone : (s.core s.cur).gang = .none := gang
  unfold holdTrap
  dsimp only
  rw [interruptLong_bare bare, logConsumed_of s.cur clean, lone]
  rfl

/-- The strand of core c is held in its image at `a`: the entry e is queued, and the core is left. -/
def State.heldIn (u : State) (c : Nat) (a : Nat) (e : SvcEntry) : State :=
  (((u.modStrand e.asid e.sid (fun x => { x with heldAt := some a, lastCore := c })).pushEntry c e).onHold e.asid e.sid).leaveU c

theorem heldEntry_bare {g : Image} {a : Nat} {pc : Word} {nested gang : Bool} (queue : g.queue = []) :
    heldEntry g a t pc nested gang =
      { cause := t.cause, sepc := pc, saddr := BitVec.ofNat 64 t.saddr, sinfo := BitVec.ofNat 64 t.sinfo, sqimg := 0, pprv := g.ctx.priv,
        actx := nested, gangw := gang, image := BitVec.ofNat 64 a, asid := g.ctx.as, sid := g.ctx.sid, held := true, engineOp := none } := by
  unfold heldEntry
  rw [queue]
  rfl

theorem holdU_spilled {g : Image} {u : State} {a c : Nat} {pc : Word} (spills : s.spillImage g = .ok (u, a))
    (lone : (s.strand g.ctx.as g.ctx.sid).bind (·.crew) = none) :
    s.holdU c g t pc false = u.heldIn c a (heldEntry g a t pc false false) := by
  unfold State.holdU
  rw [spills]
  dsimp only
  rw [lone]
  rfl

end

end Sys2Proof.Machine

namespace Sys2Proof.Proofs
open Sys2Proof.Machine

/-! ### The A context: O42 -/

section
variable {s : State} {c : Nat}

theorem handlerStart_rule {m : Msg} {rest : List Msg} (live : s.live c = true) (idle : (s.core c).aWork = .idle)
    (lead : ∀ l, (s.core c).gang ≠ .follower l) (slots : (s.core c).slots = m :: rest) (none : (s.core c).entries = [])
    (owner : (s.core c).owner = some m.asid) (still : ∀ v ∈ s.moves, v.src ≠ c) (onto : m.onto = Option.none)
    (stays : s.leaving c = false) (strand : (s.core c).uWork = .strand) (asid : (s.core c).u.asid.toNat = m.asid) :
    ∃ t, exec (.handlerStart c) s = .next t ∧ OnlyCore s t c ∧ SameBytes s t ∧
      (t.core c).slots = rest ∧ (t.core c).aWork = .handler m ∧ (t.core c).u = (s.core c).u ∧ (t.core c).a.pc = m.handler ∧
      (t.core c).a.priv = false ∧ (t.core c).a.asid = (s.core c).u.asid ∧ (t.core c).a.strandId = (s.core c).u.strandId ∧
      (t.core c).a.vtype = (s.core c).u.vtype ∧ (t.core c).a.getX 3 = BitVec.ofNat 64 m.sender ∧
      (t.core c).a.getX 4 = m.payload[0] ∧ (t.core c).a.getX 5 = m.payload[1] ∧ (t.core c).a.getX 6 = m.payload[2] ∧
      (t.core c).a.getX 7 = m.payload[3] := by
  obtain ⟨only, becomes, bytes⟩ := modCore_coreBecomes s c (·.startHandler m rest)
  refine ⟨_, congrArg Host.Outcome.next (handlerStart_own (aFree_of live idle lead) slots none owner still onto stays strand asid), only, bytes, ?_⟩
  rw [becomes]
  refine ⟨rfl, rfl, rfl, rfl, rfl, ?_, rfl, rfl, rfl, rfl, rfl, rfl, rfl⟩
  change BitVec.ofNat 16 m.asid = (s.core c).u.asid
  rw [← asid, BitVec.ofNat_toNat, BitVec.setWidth_eq]

theorem serviceEntry_rule {e : SvcEntry} {rest : List SvcEntry} (live : s.live c = true) (idle : (s.core c).aWork = .idle)
    (lead : ∀ l, (s.core c).gang ≠ .follower l) (entries : (s.core c).entries = e :: rest) :
    ∃ t, exec (.serviceEntry c) s = .next t ∧ OnlyCore s t c ∧ SameBytes s t ∧ (t.core c).entries = rest ∧
      (t.core c).aWork = .service e none ∧ (t.core c).u = (s.core c).u ∧
      (t.core c).a.pc = (((s.core c).svec &&& 0x00FFFFFFFFFFFFC0) +
        (if (s.core c).svec.getLsbD 0 then BitVec.ofNat 64 (64 * e.cause.code) else 0)) &&& 0x00FFFFFFFFFFFFFF ∧
      (t.core c).a.priv = true ∧ (t.core c).a.getX 3 = e.image ∧ (∀ r, r ≠ 3 → (t.core c).a.getX r = (s.core c).a.getX r) ∧
      (t.core c).scause = BitVec.ofNat 64 e.cause.code ∧ (t.core c).sepc = e.sepc ∧ (t.core c).saddr = e.saddr ∧
      (t.core c).sinfo = e.sinfo ∧ (t.core c).sqimg = e.sqimg ∧ (t.core c).svec = (s.core c).svec ∧
      (t.core c).sscratch = (s.core c).sscratch ∧ (t.core c).sstatus = ((s.core c).sstatus &&& 1) ||| (if e.pprv then 2 else 0) |||
        (if e.actx then 8 else 0) ||| (if e.gangw then 16 else 0) := by
  refine ⟨_, congrArg Host.Outcome.next (serviceEntry_starts (aFree_of live idle lead) entries), ?_⟩
  unfold startService
  obtain ⟨only, becomes, bytes⟩ := modCore_coreBecomes s c _
  refine ⟨only, bytes, ?_⟩
  rw [becomes]
  refine ⟨congrArg List.tail entries, rfl, rfl, svecEntry_eq _ _, rfl, (Ctx.getX_setX_self (s.core c).a 3 e.image).trans (if_neg (by decide)),
    fun r other => Ctx.getX_setX_ne (s.core c).a other _, rfl, rfl, rfl, rfl, rfl, rfl, rfl, sstatusWith_eq _ _ _ _⟩

theorem hend_rule (issues : Issues .hend s) (ctx : s.curCtx = .a) (queue : ∀ e ∈ s.me.queue, e.ctx ≠ .a)
    (mq : ∀ e ∈ s.me.mq, e.ctx ≠ .a) (reached : s.blocked = false) :
    (s.cx.pend = 0 → ∃ t, exec .hend s = .next t ∧ t.me.aWork = .idle ∧ t.me.u = s.me.u ∧ t.me.slots = s.me.slots ∧ SameBytes s t) ∧
    (∀ r, s.cx.pend.getLsbD r = true → (∀ q, q < r → s.cx.pend.getLsbD q = false) →
      exec .hend s = .next (takeTrap { cause := .tokbad, sinfo := r + 3 * 32 } s)) := by
  have done := entriesDone_of queue mq
  constructor
  · intro none
    have core := core_freeA s s.cur
    refine ⟨s.freeA s.cur, ?_, congrArg (·.aWork) core, congrArg (·.u) core, congrArg (·.slots) core, fun _ => rfl⟩
    refine (exec_hend s).trans (run_attempt issues ?_ reached)
    simp only [ctx, done, none, Bool.not_true, Bool.false_eq_true, if_false, ne_eq, not_true_eq_false]
  · intro r set below
    have pending : s.cx.pend ≠ 0 := by
      intro none
      rw [none] at set
      simp at set
    refine (exec_hend s).trans (run_attempt_traps issues ?_)
    simp only [ctx, done, pending, lowestBit_eq set below, Bool.not_true, Bool.false_eq_true, if_false, ne_eq, not_false_eq_true, if_true]

theorem sret_rule (o : LN) (issues : Issues (.sret o) s) :
    (s.me.sstatus.getLsbD 2 = true → exec (.sret o) s =
      .next (takeTrap { cause := .illins, sinfo := (headOf (.sret o)).toNat + 11 * 2 ^ 16 } s)) ∧
    (s.me.sstatus.getLsbD 2 = false → s.curCtx = .u → s.blocked = false → ∃ t, exec (.sret o) s = .next t ∧
      CoreBecomes s t s.cur { s.me with
        u := { s.cx with pc := s.me.sepc, priv := s.me.sstatus.getLsbD 1, line := none, waiting := .no, deadline := none } }) ∧
    (∀ e k, s.me.sstatus.getLsbD 2 = false → s.curCtx = .a → s.me.aWork = .service e k → e.engineOp = none → e.held = false →
      s.blocked = false → (∀ q ∈ s.me.queue, q.ctx ≠ .a) → (∀ q ∈ s.me.mq, q.ctx ≠ .a) →
      ∃ t, exec (.sret o) s = .next t ∧ t.me.aWork = .idle ∧ t.me.u = s.me.u ∧ t.me.a.priv = false ∧ SameBytes s t) := by
  have level := level_split s.me.sstatus
  refine ⟨fun bad => ?_, fun good ctx reached => ?_, fun e k good ctx work noOp notHeld reached queue mq => ?_⟩
  · have high : bitsOf s.me.sstatus.toNat 1 2 ≥ 2 := by
      rw [level, bad]
      exact Nat.le_add_left _ _
    refine (exec_sret s o).trans (run_attempt_traps issues ?_)
    simp only [high, if_true]
    rfl
  · rw [good] at level
    have low : ¬ bitsOf s.me.sstatus.toNat 1 2 ≥ 2 := by
      rw [level]
      cases s.me.sstatus.getLsbD 1 <;> decide
    have named : (bitsOf s.me.sstatus.toNat 1 2 == 1) = s.me.sstatus.getLsbD 1 := by
      rw [level]
      cases s.me.sstatus.getLsbD 1 <;> rfl
    refine ⟨s.modCx (fun k => ({ k with priv := s.me.sstatus.getLsbD 1 }).jump s.me.sepc), ?_, ?_⟩
    · refine (exec_sret s o).trans (run_attempt issues ?_ reached)
      simp only [low, if_false, ctx, named]
    · have becomes := modCx_coreBecomes s (fun k => ({ k with priv := s.me.sstatus.getLsbD 1 }).jump s.me.sepc)
      rw [ctx] at becomes
      exact becomes
  · rw [good] at level
    have low : ¬ bitsOf s.me.sstatus.toNat 1 2 ≥ 2 := by
      rw [level]
      cases s.me.sstatus.getLsbD 1 <;> decide
    have core := core_freeA s s.cur
    have frees : serviceReturn s s.cur (bitOf o.d.toNat 0) = s.freeA s.cur := by
      unfold serviceReturn
      rw [show (s.core s.cur).aWork = _ from work]
      simp only [noOp, notHeld, Bool.not_false, Bool.or_true, if_true]
    refine ⟨s.freeA s.cur, ?_, congrArg (·.aWork) core, congrArg (·.u) core, congrArg (·.a.priv) core, fun _ => rfl⟩
    refine (exec_sret s o).trans (run_attempt issues ?_ reached)
    simp only [low, if_false, ctx, entriesDone_of queue mq, Bool.not_true, Bool.false_eq_true, frees]

end

/-- Settles O42. -/
theorem contextAEntries : Obligations.ContextAEntries := by
  unfold Obligations.ContextAEntries
  intro s
  refine ⟨fun c m rest live idle lead slots none owner still onto stays strand asid =>
      handlerStart_rule live idle lead slots none owner still onto stays strand asid,
    fun c e rest live idle lead entries => serviceEntry_rule live idle lead entries,
    hend_rule, fun o issues => sret_rule o issues⟩

/-! ### Taking a trap: O43 -/

theorem brkTraps : Sys2Proof.Rule.BrkTraps := fun o s issues => exec_traps issues (exec_brk s o) rfl

theorem trapEntry_rule : Sys2Proof.Rule.TrapEntry := by
  intro s t clean
  refine ⟨fun e k ctx work busy => ?_, fun e k ctx work done reached => ?_, fun ctx cause busy => ?_,
    fun u a ctx cause empty gang durable answered bare lone => ?_⟩
  · refine takeTrap_waits ((trapHeld_service ctx work).trans (by rw [busy]; rfl)) ?_
    rw [ctx]
    rfl
  · have free : s.trapHeld t = false := (trapHeld_service ctx work).trans (by rw [done]; rfl)
    have nested : trapNow t s = s.modCore s.cur (·.nested t (trapPc t s.cx)) := (trapNow_service ctx work).trans (takeNested_clean clean)
    rw [takeTrap_now free (by rw [nested]; exact reached), nested]
    obtain ⟨only, becomes, bytes⟩ := modCore_coreBecomes s s.cur (·.nested t (trapPc t s.cx))
    refine ⟨only, becomes.trans ?_, bytes⟩
    unfold Core.nested
    rw [sstatus_nested, nestedEntry_eq]
    rfl
  · have held : s.trapHeld t = true := by
      rw [trapHeld_user ctx cause]
      rcases busy with queue | pending | sent
      · have : s.me.drained = false := by
          rw [Core.drained, List.isEmpty_eq_false_iff]
          exact queue
        rw [this]
        rfl
      · rw [pending, Bool.not_false, Bool.or_true, Bool.true_or]
      · rw [sent, Bool.not_false, Bool.or_true]
    exact takeTrap_waits held (by rw [streams_of_ne cause, Bool.and_false])
  · have cx : s.cx = (s.core s.cur).u := by
      unfold State.cx
      rw [ctx]
      rfl
    have free : s.trapHeld t = false := by
      rw [trapHeld_user ctx cause, Core.drained, empty, durable, answered]
      rfl
    rw [cx] at clean lone ⊢
    intro pc g g1 spills v reached
    have now : trapNow t s = v := by
      have spilled : s.spillImage (s.trapImage t) = .ok (u, a) := spills
      have queue : (s.trapImage t).queue = [] := imageU_queue_nil empty
      refine (trapNow_user ctx cause).trans ((holdTrap_bare gang bare clean).trans ((holdU_spilled spilled lone).trans ?_))
      rw [heldEntry_bare queue]
      rfl
    rw [takeTrap_now free (by rw [now]; exact reached), now]

/-- Settles O43. -/
theorem trapEntry : Obligations.TrapEntry := ⟨brkTraps, trapEntry_rule⟩

end Sys2Proof.Proofs
end

section
/-! What an access by virtual address leaves as it was, whether it ends with its place or stops on the way (R106, R310 to R321), and the accesses
of the device to control blocks, rings and images. -/

namespace Sys2Proof.Machine

/-! ### The frame -/

/-- From s to t the machine has looked for pages, read and written: only the homes of the sites, host translations and requests, caches of lines,
memory with its tags, the counts of the error log, and the mark of an attempt that is blocked differ; memory stays canonical. -/
structure Accessed (s t : State) : Prop where
  rest : { t with
    sites := s.sites, ats := s.ats, mem := s.mem, siteTags := s.siteTags, hostReqs := s.hostReqs, nextId := s.nextId, blocked := s.blocked,
    cores := s.cores, l2 := s.l2, mgmt := { t.mgmt with logPos := s.mgmt.logPos, logLost := s.mgmt.logLost } } = s
  core : ∀ c, { t.core c with l1d := (s.core c).l1d, l1i := (s.core c).l1i } = s.core c
  canonical : s.mem.wf = true → t.mem.wf = true
  reserve : ∀ i, (t.site i).reserve = (s.site i).reserve

section
variable {s t u : State}

theorem Accessed.refl (s : State) : Accessed s s := ⟨rfl, fun _ => rfl, id, fun _ => rfl⟩

theorem Accessed.trans (first : Accessed s t) (second : Accessed t u) : Accessed s u := by
  obtain ⟨rest, core, canonical, reserve⟩ := first
  obtain ⟨rest', core', canonical', reserve'⟩ := second
  refine ⟨?_, fun c => ?_, canonical' ∘ canonical, fun i => (reserve' i).trans (reserve i)⟩
  · rw [← rest, ← rest']
  · rw [← core c, ← core' c]

theorem OnlyCaches.accessed (h : OnlyCaches s t) : Accessed s t := by
  refine ⟨?_, h.2, h.mem ▸ id, fun i => ?_⟩
  · rw [← h.1]
  · exact (congrArg (fun x : State => (x.site i).reserve) h.1 :)

theorem Translates.accessed {hot new : HomeEntry → Prop} (h : Translates hot new s t) (canonical : s.mem.wf = true → t.mem.wf = true) :
    Accessed s t := by
  have cores : t.cores = s.cores := (congrArg State.cores h.rest :)
  refine ⟨?_, fun c => ?_, canonical, fun i => (congrArg Site.reserve (h.site i) :)⟩
  · rw [← h.rest]
  · unfold State.core
    rw [cores]

theorem accessed_modHome (s : State) (i : Nat) (f : Home → Home) : Accessed s (s.modHome i f) := by
  refine ⟨rfl, fun _ => rfl, id, fun j => ?_⟩
  by_cases same : j % 4 = i % 4
  · have sites : ∀ v : State, v.site j = v.site i := fun v => by simp only [State.site, same]
    rw [sites, sites, State.modHome, State.site_modSite_self]
  · rw [State.modHome, State.site_modSite_ne s same]

theorem accessed_setMem (s : State) {m : Memory} (canonical : s.mem.wf = true → m.wf = true) : Accessed s { s with mem := m } :=
  ⟨rfl, fun _ => rfl, canonical, fun _ => rfl⟩

theorem accessed_blocked (s : State) (b : Bool) : Accessed s { s with blocked := b } := ⟨rfl, fun _ => rfl, id, fun _ => rfl⟩

theorem Accessed.cur (h : Accessed s t) : t.cur = s.cur := (congrArg State.cur h.rest :)
theorem Accessed.curCtx (h : Accessed s t) : t.curCtx = s.curCtx := (congrArg State.curCtx h.rest :)
theorem Accessed.clusters (h : Accessed s t) : t.clusters = s.clusters := (congrArg State.clusters h.rest :)
theorem Accessed.strands (h : Accessed s t) : t.strands = s.strands := (congrArg State.strands h.rest :)
theorem Accessed.user (h : Accessed s t) (c : Nat) : (t.core c).u = (s.core c).u := (congrArg Core.u (h.core c) :)
theorem Accessed.anchor (h : Accessed s t) (c : Nat) : (t.core c).a = (s.core c).a := (congrArg Core.a (h.core c) :)
theorem Accessed.gang (h : Accessed s t) (c : Nat) : (t.core c).gang = (s.core c).gang := (congrArg Core.gang (h.core c) :)

theorem Accessed.cx (h : Accessed s t) : t.cx = s.cx := by
  unfold State.cx State.me
  rw [h.cur, h.curCtx]
  cases s.curCtx
  · exact h.user s.cur
  · exact h.anchor s.cur

end

/-! ### How an operation ends -/

/-- The state in which a stop leaves the machine, but for what the stop itself brings. -/
def Stop.after (s : State) : Stop → State
  | .trapIn _ t | .stallIn t | .parkHost _ t => t
  | _ => s

/-- The state in which an access ends, with its place or with a stop. -/
def endOf {α : Type} (s : State) : Except Stop (State × α) → State
  | .ok (t, _) => t
  | .error e => e.after s

section
variable {s t : State}

theorem after_waits {e : Stop} (waits : e.waits s = some t) : e.after s = t := by
  cases e with
  | stall => exact Option.some.inj waits
  | stallIn t => exact Option.some.inj waits
  | parkHost r t => exact Option.some.inj waits
  | trap x => contradiction
  | trapIn x t => contradiction
  | fault f => contradiction

/-- What a stop that is no wait leaves is what it leaves, or nothing has changed. -/
theorem left_cases (s : State) (e : Stop) : e.left s = e.after s ∨ e.left s = s := by
  cases e with
  | trapIn x t => exact .inl rfl
  | stall => exact .inr rfl
  | stallIn t => exact .inr rfl
  | parkHost r t => exact .inr rfl
  | trap x => exact .inr rfl
  | fault f => exact .inr rfl

end

/-! ### Memory stays canonical while a home is asked -/

section
variable {s t : State}

theorem canonical_zeroFill (s : State) (l pa : Nat) (big : Bool) (canonical : s.mem.wf = true) : (s.zeroFill l pa big).1.mem.wf = true := by
  unfold State.zeroFill
  split
  · refine Memory.wf_write ?_ _ _ _
    generalize s.leafFrames l = frames
    suffices kept : ∀ m : Memory, m.wf = true → (frames.foldl (fun (m : Memory) f => m.zero f (pageBytes big)) m).wf = true from kept _ canonical
    induction frames with
    | nil => exact fun _ => id
    | cons f rest ih => exact fun m known => ih _ (Memory.wf_zero known _ _)
  · exact canonical

theorem canonical_dropEntry (s : State) (e : HomeEntry) (canonical : s.mem.wf = true) : (s.dropEntry e).mem.wf = true := by
  unfold State.dropEntry
  dsimp only
  split <;> exact Memory.wf_write canonical _ _ _

theorem canonical_makeRoom {site page : Nat} (room : s.makeRoom site page = some t) (canonical : s.mem.wf = true) : t.mem.wf = true := by
  unfold State.makeRoom at room
  dsimp only at room
  split at room
  · cases room
    exact canonical
  · split at room
    · contradiction
    · split at room
      · cases room
        exact canonical_dropEntry s _ canonical
      · cases room
        exact canonical
      · cases room
        exact canonical

theorem canonical_bringIn {asid va l pa : Nat} {big : Bool} {e : HomeEntry} (brought : s.bringIn asid va l pa big = some (t, e))
    (canonical : s.mem.wf = true) : t.mem.wf = true := by
  unfold State.bringIn at brought
  obtain ⟨u, room, ends⟩ := Option.map_eq_some_iff.1 brought
  cases ends
  exact canonical_zeroFill u l pa big (canonical_makeRoom room canonical)

theorem canonical_keepHint {first : Nat} {e : HomeEntry} (kept : s.keepHint first e = some t) (canonical : s.mem.wf = true) :
    t.mem.wf = true := by
  unfold State.keepHint at kept
  split at kept
  · cases kept
    rwa [mem_useHint]
  · obtain ⟨u, room, rfl⟩ := Option.map_eq_some_iff.1 kept
    rw [mem_useHint]
    exact canonical_makeRoom room canonical

theorem canonical_homeEntry {asid va level : Nat} {e : HomeEntry} (found : s.homeEntry asid va = .ok (t, e, level))
    (canonical : s.mem.wf = true) : t.mem.wf = true := by
  unfold State.homeEntry at found
  dsimp only at found
  split at found
  · cases found
    simpa using canonical
  · split at found
    · contradiction
    case h_2 s0 l pa big lv walk =>
      have walked : s0.mem.wf = true := by
        have same := mem_homeWalk s (homeOf va false) asid va
        rw [walk] at same
        exact same ▸ canonical
      split at found
      · contradiction
      case h_2 s1 e1 lv1 got =>
        split at found
        · contradiction
        case h_2 s2 kept =>
          cases found
          refine canonical_keepHint kept ?_
          split at got
          · cases got
            exact walked
          · obtain ⟨⟨s3, e3⟩, brought, ends⟩ := Option.map_eq_some_iff.1 got
            cases ends
            exact canonical_bringIn brought walked

theorem canonical_entryFor {w : Who} {va level : Nat} {e : HomeEntry} (found : s.entryFor w va = .ok (t, e, level))
    (canonical : s.mem.wf = true) : t.mem.wf = true := by
  unfold State.entryFor at found
  split at found
  · split at found
    · unfold State.uncached at found
      split at found
      · contradiction
      case h_2 s0 l pa big lv walk =>
        cases found
        have same := mem_homeWalk s (homeOf va false) w.asid va
        rw [walk] at same
        exact canonical_zeroFill s0 l pa big (same ▸ canonical)
    · contradiction
  · exact canonical_homeEntry found canonical

theorem entryFor_accessed {w : Who} {va level : Nat} {e : HomeEntry} (found : s.entryFor w va = .ok (t, e, level)) : Accessed s t :=
  (entryFor_translates found).accessed (canonical_entryFor found)

end

/-! ### The error log -/

section
variable {s t : State}

theorem accessed_putRing {pa slots p : Nat} {dws : List Nat} (put : s.putRing pa slots p dws = some t) : Accessed s t := by
  unfold State.putRing at put
  dsimp only at put
  split at put
  · contradiction
  · cases put
    exact (State.performHome_onlyCaches s _ _ _).accessed.trans (accessed_setMem _ fun canonical => Memory.wf_writeBytes canonical _ _)

theorem accessed_logCounts (s : State) (p l : Nat) : Accessed s { s with mgmt := { s.mgmt with logPos := p, logLost := l } } :=
  ⟨rfl, fun _ => rfl, id, fun _ => rfl⟩

theorem accessed_logRecord (s : State) (cls unitKind unit pa detail : Nat) : Accessed s (s.logRecord cls unitKind unit pa detail) := by
  have lost := accessed_logCounts s s.mgmt.logPos (s.mgmt.logLost + 1)
  unfold State.logRecord
  dsimp only
  split
  · exact lost
  · split
    · exact lost
    · split
      · exact lost
      case h_2 u put => exact (accessed_putRing put).trans (accessed_logCounts u _ _)

theorem accessed_homeStop (s : State) (w : Who) (rep va : Nat) (x : HomeErr) : Accessed s ((homeStop s w rep va x).after s) := by
  cases x with
  | full => exact .refl s
  | np reason level =>
    unfold homeStop
    dsimp only
    split
    · unfold Stop.after State.logWalk
      dsimp only
      split
      · exact .refl s
      · exact accessed_logRecord s _ _ _ _ _
    · exact .refl s

end

/-! ### Translation -/

section
variable (s : State) (w : Who) (rep va : Nat) (e : HomeEntry) (level : Nat)

theorem accessed_useAts (a : Ats) : Accessed s (s.useAts a) :=
  ⟨rfl, fun _ => rfl, id, (accessed_modHome s a.site (fun h => { h with clock := h.clock + 1 })).reserve⟩

theorem accessed_hostPlace : Accessed s (endOf s (s.hostPlace w rep va e level)) := by
  have goes (port pg : Nat) (post : Bool → State) (posted : ∀ b, Accessed s (post b)) :
      Accessed s (endOf s (State.hostPlace.go s w va e port pg post)) := by
    unfold State.hostPlace.go
    dsimp only
    split
    · split
      · exact accessed_useAts s _
      · split
        · split <;> exact .refl s
        · split
          · exact posted true
          · exact .refl s
    · split
      · exact .refl s
      · exact posted false
  unfold State.hostPlace
  dsimp only
  split
  · exact .refl s
  · split
    · split
      · exact .refl s
      · exact goes _ _ _ fun _ => ⟨rfl, fun _ => rfl, id, fun _ => rfl⟩
    · exact goes _ _ _ fun _ => ⟨rfl, fun _ => rfl, id, fun _ => rfl⟩

theorem accessed_serve : Accessed s (endOf s (s.serve w rep va e level)) := by
  unfold State.serve
  dsimp only
  split
  · exact .refl s
  · split
    · exact .refl s
    split
    · exact accessed_hostPlace s w rep va e level
    split
    · exact .refl s
    split
    · exact .refl s
    split
    · unfold endOf Stop.after
      dsimp only
      split
      · exact .refl s
      · exact accessed_modHome s _ _
    · exact .refl s

end

/-- What an operation that began in a later state leaves. -/
theorem Accessed.endOf {α : Type} {s t : State} {x : Except Stop (State × α)} (first : Accessed s t) (later : Accessed t (endOf t x)) :
    Accessed s (endOf s x) := by
  cases x with
  | ok r => exact first.trans later
  | error e =>
    cases e with
    | trapIn x u => exact first.trans later
    | stallIn u => exact first.trans later
    | parkHost r u => exact first.trans later
    | trap x => exact .refl s
    | stall => exact .refl s
    | fault f => exact .refl s

theorem accessed_translate (s : State) (w : Who) (va : Nat) : Accessed s (endOf s (s.translate w va)) := by
  unfold State.translate
  split
  · exact accessed_homeStop s w va va _
  case h_2 s1 e level found =>
    have first := entryFor_accessed found
    dsimp only
    split
    · exact first.endOf (accessed_serve s1 w va va e level)
    · split
      · split
        · exact first
        · split <;> exact first
      case h_2 win inside =>
        split
        · exact first
        · split
          case h_1 x failed => exact first.endOf (x := .error (homeStop s1 w va _ x)) (accessed_homeStop s1 w va _ x)
          case h_2 s2 be lv found2 =>
            have second := first.trans (entryFor_accessed found2)
            split
            case h_1 x stopped =>
              have served := accessed_serve s2 w va (win.buffer va (w.need == .w || w.need == .rw)) be lv
              rw [stopped] at served
              exact second.endOf served
            case h_2 s3 p served =>
              have served' := accessed_serve s2 w va (win.buffer va (w.need == .w || w.need == .rw)) be lv
              rw [served] at served'
              exact second.trans served'

/-! ### Reading and writing -/

theorem wf_writeAlive (s : State) (key : Nat) (bs : List Byte) (canonical : s.mem.wf = true) : (s.writeAlive key bs).mem.wf = true := by
  induction bs generalizing s key with
  | nil => exact canonical
  | cons b rest ih =>
    refine ih _ (key + 1) ?_
    split
    · exact canonical
    · exact Memory.wf_writeBytes canonical _ _

theorem wf_claimBlock (s : State) (asid t block : Nat) (canonical : s.mem.wf = true) : (s.claimBlock asid t block).mem.wf = true := by
  unfold State.claimBlock
  split
  · exact canonical
  · exact Memory.wf_zero canonical _ _

theorem wf_placeWrite (s : State) (asid : Nat) (p : Place) (bs : List Byte) (canonical : s.mem.wf = true) :
    (s.placeWrite asid p bs).mem.wf = true := by
  have claimed : (s.claimFor asid p bs.length).mem.wf = true := by
    unfold State.claimFor
    split
    · exact wf_claimBlock _ _ _ _ (wf_claimBlock _ _ _ _ canonical)
    · exact canonical
  obtain ⟨c, caches, ⟨-, same⟩ | ⟨-, same⟩⟩ := placeWrite_cases s asid p bs
  · rw [same]
    exact wf_writeAlive c _ _ (caches.mem ▸ claimed)
  · rw [same]
    exact Memory.wf_writeBytes (caches.mem ▸ claimed) _ _

theorem accessed_placeWrite (s : State) (asid : Nat) (p : Place) (bs : List Byte) : Accessed s (s.placeWrite asid p bs) := by
  obtain ⟨rest, core⟩ := placeWrite_frame s asid p bs
  have canonical := wf_placeWrite s asid p bs
  generalize s.placeWrite asid p bs = t at rest core canonical
  refine ⟨?_, core, canonical, fun i => ?_⟩
  · rw [← rest]
  · exact (congrArg (fun x : State => (x.site i).reserve) rest :)

section
variable {s t : State} {asid va n v : Nat}

theorem accessed_devPlace (s : State) (asid va n : Nat) (need : Need) : Accessed s (endOf s (s.devPlace asid va n need)) := by
  unfold State.devPlace
  split
  · exact .refl s
  · exact accessed_translate s _ va

/-- What a wait of the device leaves, its attempt blocked. -/
theorem accessed_waits {α : Type} {x : Except Stop (State × α)} {e : Stop} (h : Accessed s (endOf s x)) (stops : x = .error e)
    (waits : e.waits s = some t) : Accessed s t := by
  rw [stops] at h
  exact after_waits waits ▸ h

theorem accessed_devRead {r : Nat} (read : s.devRead asid va n = some (t, r)) : Accessed s t := by
  have place := accessed_devPlace s asid va n .r
  unfold State.devRead at read
  split at read
  · cases read
    exact .refl s
  · split at read
    case h_1 x stops =>
      obtain ⟨u, waits, ends⟩ := Option.map_eq_some_iff.1 read
      cases ends
      exact (accessed_waits place stops waits).trans (accessed_blocked u true)
    case h_2 u p found =>
      rw [found] at place
      split at read
      · contradiction
      · cases read
        exact place

theorem accessed_devWrite (written : s.devWrite asid va n v = some t) : Accessed s t := by
  have place := accessed_devPlace s asid va n .w
  unfold State.devWrite at written
  split at written
  · cases written
    exact .refl s
  · split at written
    case h_1 x stops =>
      obtain ⟨u, waits, ends⟩ := Option.map_eq_some_iff.1 written
      cases ends
      exact (accessed_waits place stops waits).trans (accessed_blocked u true)
    case h_2 u p found =>
      rw [found] at place
      cases written
      exact place.trans (accessed_placeWrite u asid p _)

theorem accessed_devTouch (s : State) (asid va : Nat) : Accessed s (s.devTouch asid va) := by
  have place := accessed_devPlace s asid va 1 .r
  unfold State.devTouch
  split
  · exact .refl s
  · split
    case h_1 u p found =>
      rw [found] at place
      exact place
    case h_2 x stops =>
      split
      case h_1 u waits => exact (accessed_waits place stops waits).trans (accessed_blocked u true)
      · rw [stops] at place
        obtain same | same := left_cases s x
        · exact same ▸ place
        · rw [same]
          exact .refl s

theorem accessed_devReads {k : Nat} {vs : List Nat} (read : s.devReads asid va k = some (t, vs)) : Accessed s t := by
  induction k generalizing s va vs with
  | zero =>
    cases read
    exact .refl _
  | succ k ih =>
    unfold State.devReads at read
    obtain ⟨⟨s1, v⟩, first, then_⟩ := Option.bind_eq_some_iff.1 read
    obtain ⟨⟨s2, ws⟩, second, ends⟩ := Option.bind_eq_some_iff.1 then_
    cases ends
    exact (accessed_devRead first).trans (ih second)

theorem accessed_devWrites (s : State) (asid va : Nat) (vs : List Nat) : Accessed s (s.devWrites asid va vs) := by
  induction vs generalizing s va with
  | nil => exact .refl s
  | cons v rest ih =>
    refine .trans ?_ (ih _ _)
    cases written : s.devWrite asid va 8 v with
    | none => exact .refl s
    | some t => exact accessed_devWrite written

theorem accessed_devLeft (s : State) (asid va k : Nat) : Accessed s (s.devLeft asid va k) := by
  induction k generalizing s va with
  | zero => exact .refl s
  | succ k ih =>
    unfold State.devLeft
    split
    case h_1 u v read => exact (accessed_devRead read).trans (ih u _)
    · exact accessed_devTouch s asid va

/-! ### Fields of a record (R291, R292) -/

theorem accessed_recordWait (read : s.recordWait asid va = some (t, n)) : Accessed s t := by
  obtain ⟨⟨s1, v⟩, first, ends⟩ := Option.bind_eq_some_iff.1 read
  cases ends
  exact accessed_devRead first

theorem accessed_casStatus {old new : Nat} (swapped : s.casStatus asid va old new = some t) : Accessed s t := by
  obtain ⟨⟨s1, v⟩, first, then_⟩ := Option.bind_eq_some_iff.1 swapped
  dsimp only at then_
  split at then_
  · contradiction
  · exact (accessed_devRead first).trans (accessed_devWrite then_)

end

end Sys2Proof.Machine
end

section
/-! Tasks: ENQT, TDONE, GRUN and CBINV (R197 to R200). The statement O44. -/

namespace Sys2Proof.Machine

theorem toNat_extract_low {w : Nat} (v : BitVec w) (n : Nat) : (v.extractLsb' 0 n).toNat = v.toNat % 2 ^ n := by
  rw [BitVec.extractLsb'_toNat, Nat.shiftRight_zero]

/-! ### ENQT -/

section
variable {s t : State} {asid va k : Nat}

theorem clusterLive_iff : s.clusterLive k = true ↔ ∃ i, i < 16 ∧ s.live (16 * k + i) = true := by
  rw [State.clusterLive, upTo_eq, List.any_eq_true]
  simp only [List.mem_range]

/-- What names an entry of a cluster's queue. -/
def ClEntry.ident (e : ClEntry) : Nat × Nat × Nat := (e.asid, e.record, e.origin)

/-- The entries of a record are ready since now. -/
def Cluster.readySince (q : Cluster) (asid va now : Nat) : Cluster :=
  { q with tasks := q.tasks.map (fun e => if e.asid = asid ∧ e.record = va then { e with since := some now } else e) }

theorem ident_readySince (q : Cluster) (now : Nat) : (q.readySince asid va now).tasks.map ClEntry.ident = q.tasks.map ClEntry.ident := by
  unfold Cluster.readySince
  rw [List.map_map]
  refine List.map_congr_left fun e _ => ?_
  rw [Function.comp_apply]
  split <;> rfl

theorem Accessed.cluster (h : Accessed s t) (k : Nat) : t.cluster k = s.cluster k := by
  unfold State.cluster
  rw [h.clusters]

theorem ident_clusterReady (s : State) (asid va k : Nat) :
    ((s.clusterReady asid va).cluster k).tasks.map ClEntry.ident = (s.cluster k).tasks.map ClEntry.ident := by
  unfold State.clusterReady
  split
  case h_1 s1 read =>
    have first := accessed_recordWait read
    split
    · rw [first.cluster]
    case h_2 s2 swapped =>
      have second := first.trans (accessed_casStatus swapped)
      rw [← second.cluster]
      have keyed := kvGet_mapKeyed (fun _ (q : Cluster) => q.readySince asid va s2.now) k s2.clusters
      refine (congrArg (fun q => (q.getD Cluster.reset).tasks.map ClEntry.ident) keyed).trans ?_
      unfold State.cluster
      cases kvGet k s2.clusters with
      | none => rfl
      | some q => exact ident_readySince q _
  case h_2 s1 n _ read => rw [(accessed_recordWait read).cluster]
  · rfl

/-- The state in which a record has joined a cluster's queue. -/
def State.enqueued (s : State) (k va : Nat) : State :=
  s.modCluster k (fun q => { q with tasks := q.tasks ++ [{ asid := s.cx.as, record := va, origin := s.originOf }] })

theorem ident_enqueued (s : State) (k va : Nat) :
    ((s.enqueued k va).cluster k).tasks.map ClEntry.ident = (s.cluster k).tasks.map ClEntry.ident ++ [(s.cx.as, va, s.originOf)] := by
  unfold State.enqueued
  rw [State.cluster_modCluster_self, List.map_append]
  rfl

/-- The cluster that an operand of ENQT names: the issuing core's own for 0xFFFF. -/
def State.namedCluster (s : State) (sel : Nat) : Nat := if sel = 0xFFFF then s.cur / 16 else sel

theorem enqtStatus_local {sel : Nat} (inside : isLocal va = true) : enqtStatus s va sel = 3 := if_pos inside

theorem enqtStatus_unfit {sel : Nat} (outside : isLocal va = false)
    (unfit : ¬((∃ i, i < 16 ∧ s.live (16 * s.namedCluster sel + i) = true) ∧ s.cls (16 * s.namedCluster sel) = .tensor)) :
    enqtStatus s va sel = 2 := by
  rw [← clusterLive_iff] at unfit
  have bad : (!s.clusterLive (s.namedCluster sel) || decide (s.cls (16 * s.namedCluster sel) ≠ .tensor)) = true := by
    by_cases alive : s.clusterLive (s.namedCluster sel) = true
    · have other : s.cls (16 * s.namedCluster sel) ≠ .tensor := fun tensor => unfit ⟨alive, tensor⟩
      rw [decide_eq_true other, Bool.or_true]
    · rw [Bool.eq_false_iff.2 alive, Bool.not_false, Bool.true_or]
  unfold enqtStatus
  rw [outside]
  exact if_pos bad

theorem enqtStatus_fit {sel : Nat} (outside : isLocal va = false)
    (alive : ∃ i, i < 16 ∧ s.live (16 * s.namedCluster sel + i) = true) (tensor : s.cls (16 * s.namedCluster sel) = .tensor) :
    enqtStatus s va sel = if 256 ≤ (s.cluster (s.namedCluster sel)).tasks.length then 1 else 0 := by
  have good : (!s.clusterLive (s.namedCluster sel) || decide (s.cls (16 * s.namedCluster sel) ≠ .tensor)) = false := by
    rw [clusterLive_iff.2 alive, tensor]
    rfl
  unfold enqtStatus
  rw [outside]
  exact (if_neg Bool.false_ne_true).trans (if_neg (Bool.eq_false_iff.1 good))

theorem makeRun_full {origin : Nat} {tm : Template} {ps : List (Nat × Nat)} (full : (s.freeRunSlot asid tm.slotVas).2 = none) :
    (s.makeRun asid va origin tm ps).2 = 0 := by
  unfold State.makeRun
  rcases found : s.freeRunSlot asid tm.slotVas with ⟨u, slot⟩
  rw [found] at full
  cases (full : slot = none)
  rfl

end

end Sys2Proof.Machine

namespace Sys2Proof.Proofs
open Sys2Proof.Machine

/-! ### Tasks: O44 -/

section
variable {s : State} {o : LH} (free : Spec.unordered s)
include free

theorem enqt_refused (issues : Issues (.enqt o) s) (aligned : s.addr o.a % 64 = 0) (reached : s.blocked = false) {st : Nat}
    (status : enqtStatus s (s.addr o.a) ((s.getX o.b).toNat % 2 ^ 16) = st) (bad : st ≠ 0) :
    ∃ t, exec (.enqt o) s = .next t ∧ Returns s t o.d (BitVec.ofNat 64 st) := by
  refine ⟨s.retX o.d (BitVec.ofNat 64 st), ?_, retX_returns s o.d _⟩
  refine (exec_enqt s o).trans (run_attempt issues ?_ reached)
  simp only [orderWait_ok_of_unordered free, bind, Except.bind, aligned, status, bad, ne_eq, not_true_eq_false, not_false_eq_true, if_true,
    if_false]
  rfl

theorem enqt_joins (issues : Issues (.enqt o) s) (aligned : s.addr o.a % 64 = 0)
    (status : enqtStatus s (s.addr o.a) ((s.getX o.b).toNat % 2 ^ 16) = 0) :
    let ready := (s.enqueued (s.namedCluster ((s.getX o.b).toNat % 2 ^ 16)) (s.addr o.a)).clusterReady s.cx.as (s.addr o.a)
    ready.blocked = false → exec (.enqt o) s = .next (ready.retX o.d 0) := by
  intro ready reached
  refine (exec_enqt s o).trans (run_attempt issues ?_ reached)
  simp only [orderWait_ok_of_unordered free, bind, Except.bind, aligned, status, ne_eq, not_true_eq_false, if_false]
  rfl

theorem enqt_rule (issues : Issues (.enqt o) s) : let va := Spec.opAddr s o.a
    let sel := ((s.getX o.b).extractLsb' 0 16).toNat
    let k := if sel = 0xFFFF then s.cur / 16 else sel
    let alive := ∃ i, i < 16 ∧ s.live (16 * k + i) = true
    va % 64 = 0 → s.blocked = false →
    (isLocal va = true → ∃ t, exec (.enqt o) s = .next t ∧ Returns s t o.d 3) ∧
    (isLocal va = false → ¬(alive ∧ s.cls (16 * k) = .tensor) → ∃ t, exec (.enqt o) s = .next t ∧ Returns s t o.d 2) ∧
    (isLocal va = false → alive → s.cls (16 * k) = .tensor → 256 ≤ (s.cluster k).tasks.length →
      ∃ t, exec (.enqt o) s = .next t ∧ Returns s t o.d 1) ∧
    (isLocal va = false → alive → s.cls (16 * k) = .tensor → (s.cluster k).tasks.length < 256 →
      let u := s.modCluster k (fun q => { q with tasks := q.tasks ++ [{ asid := s.cx.as, record := va, origin := s.originOf }] })
      (u.clusterReady s.cx.as va).blocked = false → ∃ t, exec (.enqt o) s = .next t ∧ Returns (u.clusterReady s.cx.as va) t o.d 0 ∧
        (t.cluster k).tasks.map (fun e => (e.asid, e.record, e.origin)) =
          (s.cluster k).tasks.map (fun e => (e.asid, e.record, e.origin)) ++ [(s.cx.as, va, s.originOf)]) := by
  rw [opAddr_eq, toNat_extract_low]
  dsimp only
  intro aligned reached
  refine ⟨fun inside => ?_, fun outside unfit => ?_, fun outside alive tensor full => ?_, fun outside alive tensor room ready => ?_⟩
  · exact enqt_refused free issues aligned reached (enqtStatus_local inside) (by decide)
  · exact enqt_refused free issues aligned reached (enqtStatus_unfit outside unfit) (by decide)
  · exact enqt_refused free issues aligned reached ((enqtStatus_fit outside alive tensor).trans (if_pos full)) (by decide)
  · have joins := enqt_joins free issues aligned ((enqtStatus_fit outside alive tensor).trans (if_neg (Nat.not_le.2 room))) ready
    exact ⟨_, joins, retX_returns _ o.d 0, (ident_clusterReady _ _ _ _).trans (ident_enqueued s _ _)⟩

theorem enqt_align (issues : Issues (.enqt o) s) (odd : Spec.opAddr s o.a % 64 ≠ 0) :
    exec (.enqt o) s = .next (takeTrap { cause := .align, saddr := Spec.opAddr s o.a, sinfo := 6 } s) := by
  rw [opAddr_eq] at odd ⊢
  refine (exec_enqt s o).trans (run_attempt_traps issues ?_)
  simp only [orderWait_ok_of_unordered free, bind, Except.bind, odd, ne_eq, not_false_eq_true, if_true]

theorem tdone_rule {t : State} {p : Place} {v : Nat} (issues : Issues (.tdone o) s) : let va := Spec.opAddr s o.a
    va % 64 = 0 → s.loadAt .atomic .rw (va + 0x18) 8 = .ok (t, p, v) →
    (v % 256 ≠ 2 → t.blocked = false → ∃ u, exec (.tdone o) s = .next u ∧ Returns t u o.d (BitVec.allOnes 64)) ∧
    (∀ t2 n, v % 256 = 2 → t.completeRecord s.cx.as va s.originOf (o.f.getLsbD 0) = some (t2, n) → t2.blocked = false →
      ∃ u, exec (.tdone o) s = .next u ∧ Returns t2 u o.d (BitVec.ofNat 64 n)) := by
  rw [opAddr_eq, ← bitOf_eq_getLsbD]
  dsimp only
  intro aligned loads
  refine ⟨fun idle reached => ?_, fun t2 n running completes reached => ?_⟩
  · refine ⟨_, (exec_tdone s o).trans (run_attempt issues (t := t.retX o.d (BitVec.allOnes 64)) ?_ reached), retX_returns t o.d _⟩
    simp only [orderWait_ok_of_unordered free, bind, Except.bind, aligned, loads, idle, ne_eq, not_true_eq_false, not_false_eq_true, if_true,
      if_false]
    rfl
  · refine ⟨_, (exec_tdone s o).trans (run_attempt issues (t := t2.retX o.d (BitVec.ofNat 64 n)) ?_ reached), retX_returns t2 o.d _⟩
    simp only [orderWait_ok_of_unordered free, bind, Except.bind, aligned, loads, running, completes, ne_eq, not_true_eq_false, if_false]
    rfl

theorem grun_runs {t1 t2 t3 t4 u : State} {tm : Template} {ps : List (Nat × Nat)} {h : Nat} (issues : Issues (.grun o) s)
    (aligned : s.addr o.a % 64 = 0) (aligned' : s.addr o.b % 8 = 0) (touches : grunTouch (s.addr o.a) (s.addr o.b) s = .ok t1)
    (template : t1.readTemplate s.cx.as (s.addr o.a) = .ok (t2, tm)) (patches : t2.readPatches s.cx.as (s.addr o.b) tm.len = .ok (t3, ps))
    (claims : claimTouch tm tm.slotVas t3 = .ok t4) (made : t4.makeRun s.cx.as (s.addr o.a) s.originOf tm ps = (u, h))
    (reached : u.blocked = false) : exec (.grun o) s = .next (u.retX o.d (BitVec.ofNat 64 h)) := by
  refine (exec_grun s o).trans (run_attempt issues ?_ reached)
  rw [orderWait_ok_of_unordered free]
  refine (if_neg (not_not.2 aligned)).trans ((if_neg (not_not.2 aligned')).trans ?_)
  rw [touches]
  simp only [bind, Except.bind]
  rw [template]
  dsimp only
  rw [patches]
  dsimp only
  rw [claims]
  dsimp only
  rw [made]
  rfl

theorem grun_rule {t1 t2 t3 t4 : State} {tm : Template} {ps : List (Nat × Nat)} (issues : Issues (.grun o) s) : let va := Spec.opAddr s o.a
    let patch := Spec.opAddr s o.b
    va % 64 = 0 → patch % 8 = 0 → grunTouch va patch s = .ok t1 → t1.readTemplate s.cx.as va = .ok (t2, tm) →
    t2.readPatches s.cx.as patch tm.len = .ok (t3, ps) →
    claimTouch tm tm.slotVas t3 = .ok t4 → (t4.makeRun s.cx.as va s.originOf tm ps).1.blocked = false →
    ∃ u, exec (.grun o) s = .next u ∧ Returns (t4.makeRun s.cx.as va s.originOf tm ps).1 u o.d
      (BitVec.ofNat 64 (t4.makeRun s.cx.as va s.originOf tm ps).2) ∧
    ((t4.freeRunSlot s.cx.as tm.slotVas).2 = none → (t4.makeRun s.cx.as va s.originOf tm ps).2 = 0) := by
  rw [opAddr_eq, opAddr_eq]
  dsimp only
  intro aligned aligned' touches template patches claims reached
  exact ⟨_, grun_runs free issues aligned aligned' touches template patches claims rfl reached, retX_returns _ o.d _, makeRun_full⟩

theorem cbinv_rule (issues : Issues (.cbinv o) s) : let n := (s.getX o.b).toNat
    (n = 0 ∨ Spec.opAddr s o.a + n ≤ 2 ^ 56 → ∃ t, exec (.cbinv o) s = .next t ∧ MovesTo s t s.cx.nextPc) ∧
    (n ≠ 0 → 2 ^ 56 < Spec.opAddr s o.a + n →
      exec (.cbinv o) s = .next (takeTrap { cause := .addrovf, saddr := Spec.opAddr s o.a } s)) := by
  rw [opAddr_eq]
  dsimp only
  refine ⟨fun inside => ⟨_, (exec_cbinv s o).trans (run_ok issues (t := s.advance) ?_), advance_movesTo s⟩, fun some beyond => ?_⟩
  · have range : ∃ r, rangeOperand s o.a o.b = .ok r := by
      unfold rangeOperand
      by_cases none : (s.getX o.b).toNat = 0
      · exact ⟨_, if_pos none⟩
      · exact ⟨_, (if_neg none).trans (if_neg (Nat.not_lt.2 (inside.resolve_left none)))⟩
    obtain ⟨r, range⟩ := range
    simp only [orderWait_ok_of_unordered free, bind, Except.bind, range]
    rfl
  · have range : rangeOperand s o.a o.b = .error (.trap { cause := .addrovf, saddr := s.addr o.a }) := by
      unfold rangeOperand
      exact (if_neg some).trans (if_pos beyond)
    refine (exec_cbinv s o).trans (run_traps issues ?_)
    simp only [orderWait_ok_of_unordered free, bind, Except.bind, range]

end

/-- Settles O44. -/
theorem taskResult : Obligations.TaskResult := by
  unfold Obligations.TaskResult
  intro s o free
  exact ⟨enqt_rule free, enqt_align free, fun t p v => tdone_rule free, fun t1 t2 t3 t4 tm ps => grun_rule free, cbinv_rule free⟩

end Sys2Proof.Proofs
end

section
/-! SYSC (R201, R354) and the caches: the statement O45. -/

namespace Sys2Proof.Proofs
open Sys2Proof.Machine

/-! ### A request that is written over a line which the issuing core caches -/

/-- An address space with a syscall ring of one slot at 0x40040. -/
def ringSpace : Space :=
  { asid := 1, recPa := 0, nomig := false, root := 0, spillVa := 0, spillLen := 0, queuesVa := 0, eventVa := 0, eventSlots := 0, notifyVa := 0,
    sysVa := 0x40000, sysSlots := 1, msix := none, sysPort := 0, eventPos := 0, held := [], lost := 0, sysPos := 0, sysWait := [], sysGrant := [],
    colour := false, queues := [], nextSid := 1, digested := false }

/-- A strand on core 0 whose L1 holds the first sector of the ring's slot, at 0x130040 in memory. -/
def ringing : State :=
  { State.reset with
    cores := [(0, { Core.reset with
      uWork := .strand, u := { Ctx.reset with asid := 1, pc := 0x10000 },
      l1d := [{ asid := 1, va := 0x40040 / 32, key := 0x130040, r := true, w := true, so := false, typ := 0, state := .s }] })]
    spaces := [ringSpace]
    sites := State.reset.sites.set 0 { Site.reset with home := { Site.reset.home with cache := [
      { asid := 1, page := 4, big := false, leaf := BitVec.ofNat 64 (2 ^ 63 + 2 ^ 62 + 6 * 2 ^ 56 + 0x130000), leafPa := 0x1C020, hot := 0, stamp := 0,
        moving := false }] } }
    l2 := [(State.reset.sliceAt 0x130040, { lines := [], dir := [
      { line := 0x130040 / 256, sectors := .replicate 8 ⟨.s, some (1, 0x40040 / 32), none, 1⟩ }] })] }

/-- SYSC with the result in x9. -/
def ringCall : LH := { d := 9, f := 0, b := 0, a := 0 }

/-- The slot is reached and free, and the machine is as it was but for what the home caches. -/
theorem ringing_reaches : (match ringing.translate ringing.sysWho (ringSpace.sysSlot ringSpace.sysPos) with
    | .ok (t0, p) => match t0.translate ringing.sysWho (ringSpace.sysSlot ringSpace.sysPos) with
      | .ok (t, q) => t.sysFree ringSpace ringSpace.sysPos q && decide (t.me = ringing.me) && decide (t.space 1 = some ringSpace)
          && decide (t.cur = 0) && decide (t.curCtx = .u)
          && !(t.placeWrite ringSpace.asid p ([ringSpace.sysPos + 1, (ringing.getX ringCall.a).toNat % 2 ^ 31, ringing.cx.strandId.toNat,
            ringing.cur % 2 ^ 16 * 2 ^ 16 + ringing.cx.as, (ringing.getX 4).toNat, (ringing.getX 5).toNat, (ringing.getX 6).toNat,
            (ringing.getX 7).toNat].flatMap (Spec.bytes 8))).blocked
      | .error _ => false
    | .error _ => false) = true := by decide +kernel

/-- The write of the request takes the line from the core's L1. -/
theorem ringing_drops : (match exec (.sysc ringCall) ringing with | .next u => decide ((u.core 0).l1d = []) | _ => true) = true := by
  decide +kernel

/-- Refutes O45: the core that has issued a SYSC may hold a copy of the ring's slot in its L1, which the write of the request invalidates; so it is not
the core from before with x[D] pending. -/
theorem not_systemResult : ¬ Obligations.SystemResult := by
  intro h
  have reaches := ringing_reaches
  split at reaches
  case h_2 => contradiction
  case h_1 t0 p first =>
    split at reaches
    case h_2 => contradiction
    case h_1 t q second =>
      simp only [Bool.and_eq_true, decide_eq_true_eq, Bool.not_eq_true'] at reaches
      obtain ⟨⟨⟨⟨⟨ready, me⟩, space⟩, cur⟩, ctx⟩, reached⟩ := reaches
      have issues : Issues (.sysc ringCall) ringing := by decide +kernel
      have free : Spec.unordered ringing := ⟨by decide +kernel, fun o ho => absurd ho List.not_mem_nil⟩
      have token : Spec.tokenFree ringing ringCall.d := ⟨by decide, by decide, by decide +kernel, by decide +kernel, by decide +kernel, free⟩
      obtain ⟨calls, -⟩ := h ringing ringCall
      obtain ⟨-, -, ring⟩ := calls issues
      obtain ⟨-, request⟩ := ring ringSpace (by decide +kernel) (by decide)
      obtain ⟨x, ran, -, becomes, -⟩ :=
        request t0 t p q (by decide +kernel) token rfl rfl rfl first second ready free me space cur ctx reached
      have dropped := ringing_drops
      rw [ran] at dropped
      have empty : (x.core 0).l1d = [] := of_decide_eq_true dropped
      have line : (Spec.pendingNext ringing ringCall.d).l1d ≠ [] := by decide +kernel
      exact line ((congrArg Core.l1d becomes).symm.trans empty)

end Sys2Proof.Proofs
end

section
/-! PREEMPT and CTXSTREAM (R208, R209, R326, R327). The statement O46. -/

namespace Sys2Proof.Machine

/-! ### A touch that meets no page out of reach numbers nothing -/

/-- A trap that an access ends with leaves the counter of free numbers at n. -/
def Stop.keepsNumber (n : Nat) : Stop → Prop
  | .trapIn _ t => t.nextId = n
  | _ => True

section
variable {s t : State} {w : Who} {rep va : Nat}

theorem OnlyCaches.nextId (h : OnlyCaches s t) : t.nextId = s.nextId := (congrArg State.nextId h.1 :)

theorem nextId_putRing {pa slots p : Nat} {dws : List Nat} (put : s.putRing pa slots p dws = some t) : t.nextId = s.nextId := by
  unfold State.putRing at put
  dsimp only at put
  split at put
  · contradiction
  · have caches := State.performHome_onlyCaches s (pa + p % slots * 64) 64 true
    generalize s.performHome (pa + p % slots * 64) 64 true = u at caches put
    cases put
    exact caches.nextId

theorem nextId_logRecord (s : State) (cls unitKind unit pa detail : Nat) : (s.logRecord cls unitKind unit pa detail).nextId = s.nextId := by
  unfold State.logRecord
  dsimp only
  split
  · rfl
  · split
    · rfl
    · split
      · rfl
      case h_2 u put => exact (nextId_putRing put :)

theorem homeStop_keepsNumber (s : State) (w : Who) (rep va : Nat) (x : HomeErr) : (homeStop s w rep va x).keepsNumber s.nextId := by
  cases x with
  | full => exact trivial
  | np reason level =>
    unfold homeStop
    dsimp only
    split
    · unfold Stop.keepsNumber State.logWalk
      dsimp only
      split
      · rfl
      · exact nextId_logRecord s _ _ _ _ _
    · exact trivial

theorem hostPlace_keepsNumber {e : HomeEntry} {level : Nat} {x : Stop} (stops : s.hostPlace w rep va e level = .error x) :
    x.keepsNumber s.nextId := by
  have goes {port pg : Nat} {post : Bool → State} (h : State.hostPlace.go s w va e port pg post = .error x) : x.keepsNumber s.nextId := by
    unfold State.hostPlace.go at h
    dsimp only at h
    split at h
    · split at h
      · contradiction
      · split at h
        · split at h <;> cases h <;> exact trivial
        · split at h <;> cases h <;> exact trivial
    · split at h <;> cases h <;> exact trivial
  unfold State.hostPlace at stops
  dsimp only at stops
  split at stops
  · cases stops
    exact rfl
  · split at stops
    · split at stops
      · cases stops
        exact rfl
      · exact goes stops
    · exact goes stops

theorem serve_keepsNumber {e : HomeEntry} {level : Nat} {x : Stop} (stops : s.serve w rep va e level = .error x) :
    x.keepsNumber s.nextId := by
  unfold State.serve at stops
  dsimp only at stops
  split at stops
  · cases stops
    exact rfl
  · split at stops
    · cases stops
      exact rfl
    split at stops
    · exact hostPlace_keepsNumber stops
    split at stops
    · cases stops
      exact rfl
    split at stops
    · cases stops
      exact rfl
    split at stops
    · cases stops
      exact trivial
    · contradiction

theorem nextId_entryFor {e : HomeEntry} {level : Nat} (found : s.entryFor w va = .ok (t, e, level)) : t.nextId = s.nextId :=
  (congrArg State.nextId (entryFor_translates found).rest :)

theorem translate_keepsNumber {x : Stop} (stops : s.translate w va = .error x) : x.keepsNumber s.nextId := by
  unfold State.translate at stops
  split at stops
  · cases stops
    exact homeStop_keepsNumber s w va va _
  case h_2 s1 e level found =>
    have first := nextId_entryFor found
    dsimp only at stops
    split at stops
    · exact first ▸ serve_keepsNumber stops
    · split at stops
      · split at stops
        · cases stops
          exact first
        · split at stops <;> cases stops <;> exact first
      case h_2 win inside =>
        split at stops
        · cases stops
          exact first
        · split at stops
          · cases stops
            exact first ▸ homeStop_keepsNumber s1 w va _ _
          case h_2 s2 be lv found2 =>
            have second := (nextId_entryFor found2).trans first
            split at stops
            case h_1 y stopped =>
              cases stops
              exact second ▸ serve_keepsNumber stopped
            · contradiction

theorem nextId_devTouch {asid : Nat} (reached : (s.devTouch asid va).blocked = false) : (s.devTouch asid va).nextId = s.nextId := by
  unfold State.devTouch at reached ⊢
  split
  · rfl
  case isFalse free =>
    rw [if_neg free] at reached
    split
    case h_1 u p found =>
      unfold State.devPlace at found
      split at found
      · contradiction
      · exact (congrArg State.nextId (translate_translates found).rest :)
    case h_2 x stops =>
      rw [stops] at reached
      dsimp only at reached
      split
      case h_1 u waits =>
        rw [waits] at reached
        contradiction
      · unfold State.devPlace at stops
        split at stops
        · cases stops
          rfl
        · have kept := translate_keepsNumber stops
          cases x with
          | trapIn y u => exact kept
          | stall => rfl
          | stallIn u => rfl
          | parkHost r u => rfl
          | trap y => rfl
          | fault f => rfl

theorem nextId_touchAim {c : Nat} (reached : (s.touchAim c).blocked = false) : (s.touchAim c).nextId = s.nextId := by
  unfold State.touchAim at reached ⊢
  split
  case h_1 sid held =>
    rw [held] at reached
    dsimp only at reached
    split
    case h_1 va place =>
      rw [place] at reached
      exact nextId_devTouch reached
    · rfl
  · rfl

theorem touchAim_plain {c : Nat} (plain : ∀ sid, s.aim c ≠ .held sid) : s.touchAim c = s := by
  unfold State.touchAim
  split
  case h_1 sid held => exact absurd held (plain sid)
  · rfl

end

/-! ### The aim of a request -/

section
variable {s : State} {c d : Nat}

theorem aim_empty (empty : (s.core c).uWork = .empty) : s.aim c = .none := by
  unfold State.aim
  dsimp only
  rw [empty]

theorem aim_strand (strand : (s.core c).uWork = .strand) : s.aim c = .live := by
  unfold State.aim
  dsimp only
  rw [strand]

theorem aim_empty_ne_held (empty : (s.core c).uWork = .empty) (sid : Nat) : s.aim c ≠ .held sid := by
  rw [aim_empty empty]
  exact Aim.noConfusion

theorem aim_strand_ne_held (strand : (s.core c).uWork = .strand) (sid : Nat) : s.aim c ≠ .held sid := by
  rw [aim_strand strand]
  exact Aim.noConfusion

theorem aimSid_strand (strand : (s.core c).uWork = .strand) : s.aimSid c = (s.core c).u.sid := by
  unfold State.aimSid
  rw [strand]

/-- A request that arrives now. -/
theorem request_new (fresh : ∀ a e k n, s.cx.waiting ≠ .stop a e k n) : s.request? c = (c, (s.core c).u.as, s.aimSid c, s.nextId) := by
  unfold State.request?
  split
  case h_1 a e k n waits => exact absurd waits (fresh a e k n)
  · rfl

theorem as_ne {k : Ctx} (other : k.asid ≠ s.cx.asid) : k.as ≠ s.cx.as := fun same => other (BitVec.eq_of_toNat_eq same)

/-- The strand of core c is one of the issuing context's own address space. -/
structure State.Mine (s : State) (c : Nat) : Prop where
  live : s.live c = true
  strand : (s.core c).uWork = .strand
  asid : (s.core c).u.asid = s.cx.asid
  here : s.residentAt s.cx.as (s.core c).u.sid = some c

theorem State.Mine.as (mine : s.Mine c) : (s.core c).u.as = s.cx.as := congrArg BitVec.toNat mine.asid

theorem State.Mine.whereIs (mine : s.Mine c) : s.whereIs s.cx.as (s.core c).u.sid = .live c := by
  unfold State.whereIs
  rw [mine.here]

theorem State.Mine.request (mine : s.Mine c) (fresh : ∀ a e k n, s.cx.waiting ≠ .stop a e k n) :
    s.request? c = (c, s.cx.as, (s.core c).u.sid, s.nextId) := by
  rw [request_new fresh, mine.as, aimSid_strand mine.strand]

theorem preemptStatus_dead (dead : s.live c = false) : preemptStatus s c = 3 := by
  unfold preemptStatus
  rw [dead]
  rfl

theorem preemptStatus_empty (live : s.live c = true) (empty : (s.core c).uWork = .empty) : preemptStatus s c = 1 := by
  unfold preemptStatus
  rw [live, aim_empty empty]
  rfl

theorem preemptStatus_other (live : s.live c = true) (strand : (s.core c).uWork = .strand) (other : (s.core c).u.asid ≠ s.cx.asid) :
    preemptStatus s c = 2 := by
  unfold preemptStatus
  rw [live, aim_strand strand]
  exact (if_neg (by decide)).trans ((if_neg (by decide)).trans (if_pos (as_ne other)))

theorem preemptStatus_mine (mine : s.Mine c) : preemptStatus s c = 0 := by
  unfold preemptStatus
  rw [mine.live, aim_strand mine.strand, mine.as]
  exact (if_neg (by decide)).trans ((if_neg (by decide)).trans (if_neg (not_not.2 rfl)))

/-- The state in which the issuing context waits for the strand to be stopped, with the next number. -/
def State.asked? (s : State) (c asid sid : Nat) : State :=
  { s.modCx (fun k => { k with waiting := .stop c asid sid s.nextId }) with nextId := s.nextId + 1 }

theorem askStop_new (asid sid : Nat) : s.askStop c asid sid s.nextId = s.asked? c asid sid := if_neg (Nat.lt_irrefl _)

/-! ### PREEMPT -/

variable {o : LH}

theorem preemptAct_waits (mine : s.Mine c) (early : s.askedBefore s.cx.as (s.core c).u.sid s.nextId = true ∨ s.stopReady c = false) :
    preemptAct o s c s.cx.as (s.core c).u.sid s.nextId = .error (.stallIn (s.asked? c s.cx.as (s.core c).u.sid)) := by
  unfold preemptAct
  rw [askStop_new]
  dsimp only
  by_cases before : s.askedBefore s.cx.as (s.core c).u.sid s.nextId = true
  · exact if_pos before
  · rw [mine.whereIs]
    dsimp only
    rw [early.resolve_left before]
    exact if_neg before

theorem preemptAct_self {u : State} (mine : s.Mine c) (first : s.askedBefore s.cx.as (s.core c).u.sid s.nextId = false)
    (ready : s.stopReady c = true) (own : (decide (c = s.cur) && s.curCtx == .u) = true) (stops : (s.retX o.d 0).stopU c s.cur = .ok u) :
    preemptAct o s c s.cx.as (s.core c).u.sid s.nextId = .ok u := by
  unfold preemptAct
  rw [first, mine.whereIs]
  dsimp only
  rw [ready, own, stops]
  rfl

theorem preemptAct_other {u : State} (mine : s.Mine c) (first : s.askedBefore s.cx.as (s.core c).u.sid s.nextId = false)
    (ready : s.stopReady c = true) (other : (decide (c = s.cur) && s.curCtx == .u) = false) (stops : s.stopU c s.cur = .ok u) :
    preemptAct o s c s.cx.as (s.core c).u.sid s.nextId = .ok (u.retX o.d 0) := by
  unfold preemptAct
  rw [first, mine.whereIs]
  dsimp only
  rw [ready, other, stops]
  rfl

/-- A strand outside crews and gangs, whose stop ends nothing else, goes to the overflow list. -/
theorem stopU_bare {info : Nat} {u : State} (gang : (s.core c).gang = .none)
    (lone : (s.strand (s.core c).u.as (s.core c).u.sid).bind (·.crew) = none) (bare : Spec.stopsBare s c)
    (listed : let g := s.stoppedImage c { cause := .preempt, sinfo := info }
      s.overflow g (s.siteOf c) g.mask none 0 = .ok u) : s.stopU c info = .ok (u.leaveU c) := by
  unfold State.stopU
  dsimp only
  rw [lone]
  change s.stopOne c info 0 (s.siteOf c) 0 = _
  unfold State.stopOne
  rw [interruptLong_bare bare]
  dsimp only
  rw [gang, Nat.or_zero]
  dsimp only
  rw [listed]

/-! ### CTXSTREAM -/

theorem streamStatus_dead (dead : s.live c = false ∨ s.live d = false) : streamStatus s c d = 3 := by
  have some : (!s.live c || !s.live d) = true := by
    rcases dead with dead | dead <;> rw [dead] <;> simp
  unfold streamStatus
  exact if_pos some

theorem both_live (live : s.live c = true) (live' : s.live d = true) : (!s.live c || !s.live d) ≠ true := by
  rw [live, live']
  decide

theorem streamStatus_empty (live : s.live c = true) (live' : s.live d = true) (empty : (s.core c).uWork = .empty) : streamStatus s c d = 1 := by
  unfold streamStatus
  rw [aim_empty empty]
  exact (if_neg (both_live live live')).trans (if_pos rfl)

theorem streamStatus_other (live : s.live c = true) (live' : s.live d = true) (strand : (s.core c).uWork = .strand)
    (other : (s.core c).u.asid ≠ s.cx.asid) : streamStatus s c d = 2 := by
  unfold streamStatus
  rw [aim_strand strand]
  exact (if_neg (both_live live live')).trans ((if_neg (by decide)).trans (if_pos (as_ne other)))

theorem crewSite_lone {asid sid : Nat} (lone : (s.strand asid sid).bind (·.crew) = none) : s.crewSite asid sid = none := by
  unfold State.crewSite
  rw [lone]
  rfl

theorem streamStatus_mine (mine : s.Mine c) (live' : s.live d = true)
    (lone : (s.strand s.cx.as (s.core c).u.sid).bind (·.crew) = none) (able : capHolds (s.cls d) (s.imageU c).mask = true)
    (room : s.canLand d false = true) : streamStatus s c d = 0 := by
  unfold streamStatus
  rw [aim_strand mine.strand, mine.as]
  refine (if_neg (both_live mine.live live')).trans ((if_neg (by decide)).trans ((if_neg (not_not.2 rfl)).trans ?_))
  dsimp only
  rw [crewSite_lone lone, mine.strand]
  unfold State.aimMask
  rw [able]
  exact (if_neg Bool.false_ne_true).trans ((if_neg (by decide)).trans (if_neg (by rw [show (Option.isSome (none : Option Nat) || UWork.strand == .heldInRegs) = false from rfl, room]; decide)))

theorem streamAct_waits (mine : s.Mine c) (lone : (s.strand s.cx.as (s.core c).u.sid).bind (·.crew) = none)
    (early : s.askedBefore s.cx.as (s.core c).u.sid s.nextId = true ∨ s.mayLeave c = false) :
    streamAct o s d c s.cx.as (s.core c).u.sid s.nextId = .error (.stallIn (s.asked? c s.cx.as (s.core c).u.sid)) := by
  have same : s.stopReady c = s.mayLeave c := by
    unfold State.stopReady
    rw [mine.as, lone]
    rfl
  unfold streamAct
  rw [askStop_new]
  dsimp only
  by_cases before : s.askedBefore s.cx.as (s.core c).u.sid s.nextId = true
  · exact if_pos before
  · rw [mine.whereIs]
    dsimp only
    rw [same, early.resolve_left before]
    exact if_neg before

/-- The source of a move keeps its U context reserved for the strand. -/
def Core.sending (k : Core) (g : Image) : Core :=
  { k with uWork := .reserved g.ctx.sid, queue := k.queue.filter (fun q => q.ctx == .a), vfault := none, long := none, acLive := 0,
           u := { k.u with waiting := .no, deadline := none } }

theorem core_startMove (s : State) (c d : Nat) (g : Image) (kind : MoveKind) (toU : Bool) (needed : Nat) :
    (s.startMove c d g kind toU needed).core c = (s.core c).sending g :=
  State.core_modCore_self { s with nextId := s.nextId + 1 } c (·.sending g)

theorem cx_startMove (other : c ≠ s.cur) (g : Image) (kind : MoveKind) (toU : Bool) (needed : Nat) :
    (s.startMove c d g kind toU needed).cx = s.cx :=
  congrArg (fun k => Core.ctx k s.curCtx) (State.core_modCore_ne { s with nextId := s.nextId + 1 } (Ne.symm other) (·.sending g))

/-- The image of core c's U strand that the issuing core has stopped. -/
def State.stoppedFor (s : State) (c : Nat) : Image := s.stoppedImage c { cause := .preempt, sinfo := s.cur }

/-- The state in which the U strand of core c is on its way to core d, and the issuing context waits for the move. -/
def State.streamed (s : State) (c d : Nat) : State :=
  (s.startMove c d (s.stoppedFor c) .stream false (s.stoppedFor c).mask).modCx (fun k => { k with waiting := .move s.nextId })

theorem streamAct_starts (mine : s.Mine c) (lone : (s.strand s.cx.as (s.core c).u.sid).bind (·.crew) = none)
    (first : s.askedBefore s.cx.as (s.core c).u.sid s.nextId = false) (ready : s.mayLeave c = true) (other : c ≠ s.cur)
    (gang : (s.core c).gang = .none) (bare : Spec.stopsBare s c) :
    streamAct o s d c s.cx.as (s.core c).u.sid s.nextId = .error (.stallIn (s.streamed c d)) := by
  have same : s.stopReady c = s.mayLeave c := by
    unfold State.stopReady
    rw [mine.as, lone]
    rfl
  have drops : s.dropArrivals s.cx.as (s.core c).u.sid = s := by
    unfold State.dropArrivals
    rw [lone]
  have begins : s.beginStream c d s.cur =
      (s.startMove c d (s.stoppedFor c) .stream false (s.stoppedFor c).mask, some s.nextId) := by
    unfold State.beginStream
    dsimp only
    rw [interruptLong_bare bare, mine.as, drops, gang, crewSite_lone lone]
    rfl
  have far : (decide (c = s.cur) && s.curCtx == .u) = false := by
    rw [decide_eq_false other, Bool.false_and]
  unfold streamAct
  rw [first, mine.whereIs]
  dsimp only
  rw [same, ready, gang, far, begins]
  rfl

end

end Sys2Proof.Machine

namespace Sys2Proof.Proofs
open Sys2Proof.Machine

/-! ### PREEMPT and CTXSTREAM: O46 -/

section
variable {s : State} {o : LH} {i : Instr}

/-- An instruction whose work in one attempt has it wait. -/
theorem run_attempt_stalls {body : State → Except Stop State} {t : State} (issues : Issues i s) (waits : body s = .error (.stallIn t))
    (reached : t.blocked = false) : run i s (attempt body) = .next t := by
  refine run_error (e := .stallIn t) issues ?_
  unfold attempt
  rw [waits]
  dsimp only
  unfold State.orAsk
  rw [reached]
  rfl

/-- The core that an operand of PREEMPT or CTXSTREAM names. -/
def aimed (s : State) (r : BitVec 5) : Nat := (s.getX r).toNat % 2 ^ 16

/-- The work of PREEMPT, behind the common checks. -/
def preemptWork (o : LH) (s : State) : Except Stop State :=
  let (c, asid, sid, n) := s.request? (aimed s o.a)
  let st := if n < s.nextId then 0 else preemptStatus s c
  if st ≠ 0 then .ok (s.retX o.d (BitVec.ofNat 64 st)) else preemptAct o s c asid sid n

theorem exec_preemptWork (o : LH) (s : State) : exec (.preempt o) s = run (.preempt o) s (attempt (preemptWork o)) := exec_preempt s o

/-- The work of CTXSTREAM, behind the common checks. -/
def streamWork (o : LH) (s : State) : Except Stop State :=
  match s.cx.waiting with
  | .move id => if s.moves.any (fun m => m.id == id) then .error .stall else .ok (s.retX o.d 0)
  | _ =>
    let (c, asid, sid, n) := s.request? (aimed s o.a)
    let u := s.touchAim c
    let st := if n < u.nextId then 0 else streamStatus u c (aimed s o.b)
    if st ≠ 0 then .ok (u.retX o.d (BitVec.ofNat 64 st)) else streamAct o u (aimed s o.b) c asid sid n

theorem exec_streamWork (o : LH) (s : State) : exec (.ctxstream o) s = run (.ctxstream o) s (attempt (streamWork o)) := exec_ctxstream s o

variable (fresh : ∀ a e k n, s.cx.waiting ≠ .stop a e k n)
include fresh

theorem preempt_status (issues : Issues (.preempt o) s) (reached : s.blocked = false) {st : Nat}
    (status : preemptStatus s (aimed s o.a) = st) (bad : st ≠ 0) :
    ∃ t, exec (.preempt o) s = .next t ∧ Returns s t o.d (BitVec.ofNat 64 st) := by
  refine ⟨s.retX o.d (BitVec.ofNat 64 st), (exec_preemptWork o s).trans (run_attempt issues ?_ reached), retX_returns s o.d _⟩
  unfold preemptWork
  simp only [request_new fresh, Nat.lt_irrefl, status, bad, if_false, ne_eq, not_false_eq_true, if_true]

/-- The work of a PREEMPT directed at a strand of the issuing context's own address space. -/
theorem preemptWork_mine (mine : s.Mine (aimed s o.a)) :
    preemptWork o s = preemptAct o s (aimed s o.a) s.cx.as (s.core (aimed s o.a)).u.sid s.nextId := by
  unfold preemptWork
  simp only [mine.request fresh, Nat.lt_irrefl, preemptStatus_mine mine, if_false, ne_eq, not_true_eq_false]

theorem preempt_rule (issues : Issues (.preempt o) s) (reached : s.blocked = false) : let c := aimed s o.a
    let sid := (s.core c).u.sid
    let g := s.imageU c
    let g1 := { g with ctx := { g.ctx with scause := BitVec.ofNat 8 Cause.preempt.code, saddr := 0, sinfo := BitVec.ofNat 64 s.cur,
                                           line := none, waiting := .no } }
    s.Mine c →
    (s.askedBefore s.cx.as sid s.nextId = true ∨ s.stopReady c = false → exec (.preempt o) s = .next (s.asked? c s.cx.as sid)) ∧
    (s.askedBefore s.cx.as sid s.nextId = false → s.stopReady c = true →
      (∀ u, (c ≠ s.cur ∨ s.curCtx = .a) → s.stopU c s.cur = .ok u → u.blocked = false → ∃ t, exec (.preempt o) s = .next t ∧
        Returns u t o.d 0) ∧
      (∀ u, c = s.cur → s.curCtx = .u → (s.retX o.d 0).stopU c s.cur = .ok u → u.blocked = false → exec (.preempt o) s = .next u) ∧
      (∀ u, c ≠ s.cur → (s.core c).gang = .none → (s.strand s.cx.as sid).bind (·.crew) = none → Spec.stopsBare s c →
        s.overflow g1 (s.siteOf c) g1.mask none 0 = .ok u → (u.leaveU c).blocked = false → ∃ t, exec (.preempt o) s = .next t ∧
          Returns (u.leaveU c) t o.d 0)) := by
  intro c sid g g1 mine
  refine ⟨fun early => ?_, fun first ready => ?_⟩
  · exact (exec_preemptWork o s).trans (run_attempt_stalls issues ((preemptWork_mine fresh mine).trans (preemptAct_waits mine early)) reached)
  · have stops {u : State} (other : c ≠ s.cur ∨ s.curCtx = .a) (stops : s.stopU c s.cur = .ok u) (reached : u.blocked = false) :
        ∃ t, exec (.preempt o) s = .next t ∧ Returns u t o.d 0 := by
      have far : (decide (c = s.cur) && s.curCtx == .u) = false := by
        rcases other with core | ctx
        · rw [decide_eq_false core, Bool.false_and]
        · rw [ctx, Bool.and_comm]
          rfl
      exact ⟨u.retX o.d 0, (exec_preemptWork o s).trans
        (run_attempt issues ((preemptWork_mine fresh mine).trans (preemptAct_other mine first ready far stops)) reached), retX_returns u o.d 0⟩
    refine ⟨fun u => stops, fun u core ctx own reached => ?_, fun u core gang lone bare listed reached => ?_⟩
    · have self : (decide (c = s.cur) && s.curCtx == .u) = true := by
        rw [decide_eq_true core, ctx]
        rfl
      exact (exec_preemptWork o s).trans (run_attempt issues ((preemptWork_mine fresh mine).trans (preemptAct_self mine first ready self own)) reached)
    · exact stops (.inl core) (stopU_bare gang (mine.as.symm ▸ lone) bare listed) reached

/-! ### CTXSTREAM -/

variable (idle : ∀ id, s.cx.waiting ≠ .move id)
include idle

/-- The work of a CTXSTREAM that waits for no move yet. -/
theorem streamWork_new (numbers : (s.touchAim (aimed s o.a)).nextId = s.nextId) :
    streamWork o s = (let c := aimed s o.a
      let u := s.touchAim c
      let st := streamStatus u c (aimed s o.b)
      if st ≠ 0 then .ok (u.retX o.d (BitVec.ofNat 64 st)) else streamAct o u (aimed s o.b) c (s.core c).u.as (s.aimSid c) s.nextId) := by
  unfold streamWork
  split
  case h_1 id waits => exact absurd waits (idle id)
  · simp only [request_new fresh, numbers, Nat.lt_irrefl, if_false]

theorem ctxstream_status (issues : Issues (.ctxstream o) s) (reached : (s.touchAim (aimed s o.a)).blocked = false) {st : Nat}
    (status : streamStatus (s.touchAim (aimed s o.a)) (aimed s o.a) (aimed s o.b) = st) (bad : st ≠ 0) :
    ∃ t, exec (.ctxstream o) s = .next t ∧ Returns (s.touchAim (aimed s o.a)) t o.d (BitVec.ofNat 64 st) := by
  refine ⟨_, (exec_streamWork o s).trans (run_attempt issues ?_ (t := (s.touchAim (aimed s o.a)).retX o.d (BitVec.ofNat 64 st)) reached),
    retX_returns _ o.d _⟩
  rw [streamWork_new fresh idle (nextId_touchAim reached)]
  dsimp only
  rw [status]
  exact if_pos bad

/-- An aim at no held strand needs no page. -/
theorem ctxstream_status_plain (issues : Issues (.ctxstream o) s) (reached : s.blocked = false) (plain : ∀ sid, s.aim (aimed s o.a) ≠ .held sid)
    {st : Nat} (status : streamStatus s (aimed s o.a) (aimed s o.b) = st) (bad : st ≠ 0) :
    ∃ t, exec (.ctxstream o) s = .next t ∧ Returns s t o.d (BitVec.ofNat 64 st) := by
  have touch := touchAim_plain plain
  have ends := ctxstream_status fresh idle (o := o) issues (by rw [touch]; exact reached) (by rw [touch]; exact status) bad
  rwa [touch] at ends

/-- The work of a CTXSTREAM directed at a strand of the issuing context's own address space, which may land. -/
theorem streamWork_mine (mine : s.Mine (aimed s o.a)) (live' : s.live (aimed s o.b) = true)
    (lone : (s.strand s.cx.as (s.core (aimed s o.a)).u.sid).bind (·.crew) = none)
    (able : capHolds (s.cls (aimed s o.b)) (s.imageU (aimed s o.a)).mask = true) (room : s.canLand (aimed s o.b) false = true) :
    streamWork o s = streamAct o s (aimed s o.b) (aimed s o.a) s.cx.as (s.core (aimed s o.a)).u.sid s.nextId := by
  have touch : s.touchAim (aimed s o.a) = s := touchAim_plain (aim_strand_ne_held mine.strand)
  rw [streamWork_new fresh idle (by rw [touch])]
  dsimp only
  rw [touch, streamStatus_mine mine live' lone able room, mine.as, aimSid_strand mine.strand]
  exact if_neg (not_not.2 rfl)

theorem ctxstream_mine (issues : Issues (.ctxstream o) s) (reached : s.blocked = false) : let c := aimed s o.a
    let d := aimed s o.b
    let sid := (s.core c).u.sid
    let g := s.imageU c
    let g1 := { g with ctx := { g.ctx with scause := BitVec.ofNat 8 Cause.preempt.code, saddr := 0, sinfo := BitVec.ofNat 64 s.cur,
                                           line := none, waiting := .no } }
    s.Mine c → s.live d = true → (s.strand s.cx.as sid).bind (·.crew) = none →
      capHolds (s.cls d) g.mask = true → s.canLand d false = true →
      (s.askedBefore s.cx.as sid s.nextId = true ∨ s.mayLeave c = false → exec (.ctxstream o) s = .next (s.asked? c s.cx.as sid)) ∧
      (s.askedBefore s.cx.as sid s.nextId = false → s.mayLeave c = true → c ≠ s.cur → (s.core c).gang = .none → Spec.stopsBare s c →
        ∃ t, exec (.ctxstream o) s = .next t ∧ t.moves = s.moves ++
          [{ id := s.nextId, img := g1, src := c, dst := d, kind := .stream, toU := false, needed := g1.mask }] ∧
        (t.core c).uWork = .reserved sid ∧ t.cx.waiting = .move s.nextId ∧ t.cx.pc = s.cx.pc) := by
  intro c d sid g g1 mine live' lone able room
  have work := streamWork_mine fresh idle mine live' lone able room
  refine ⟨fun early => ?_, fun first ready other gang bare => ?_⟩
  · exact (exec_streamWork o s).trans (run_attempt_stalls issues (work.trans (streamAct_waits mine lone early)) reached)
  · refine ⟨s.streamed c d, (exec_streamWork o s).trans
      (run_attempt_stalls issues (work.trans (streamAct_starts mine lone first ready other gang bare)) reached), rfl, ?_, ?_, ?_⟩
    · exact congrArg Core.uWork ((State.core_modCore_ne _ other _).trans (core_startMove s c d _ _ _ _))
    · rw [State.streamed, State.cx_modCx]
    · rw [State.streamed, State.cx_modCx]
      exact (congrArg Ctx.pc (cx_startMove other _ _ _ _) :)

end

theorem ctxstream_moved {s : State} {o : LH} (issues : Issues (.ctxstream o) s) (reached : s.blocked = false) {id : Nat}
    (waits : s.cx.waiting = .move id) (gone : ∀ m ∈ s.moves, m.id ≠ id) :
    ∃ t, exec (.ctxstream o) s = .next t ∧ Returns s t o.d 0 := by
  refine ⟨s.retX o.d 0, (exec_streamWork o s).trans (run_attempt issues ?_ reached), retX_returns s o.d _⟩
  have none : s.moves.any (fun m => m.id == id) = false := by
    rw [List.any_eq_false]
    exact fun m listed same => gone m listed (beq_iff_eq.1 same)
  unfold streamWork
  rw [waits]
  dsimp only
  rw [none]
  rfl

/-- Settles O46. -/
theorem preemptAndStream : Obligations.PreemptAndStream := by
  unfold Obligations.PreemptAndStream
  intro s o
  rw [toNat_extract_low, toNat_extract_low]
  intro c d sid other mine asks g g1 reached fresh
  have own (m : mine) : s.Mine c := ⟨m.1, m.2.1, m.2.2.1, m.2.2.2⟩
  refine ⟨fun issues => ⟨fun dead => preempt_status fresh issues reached (preemptStatus_dead dead) (by decide),
      fun live empty => preempt_status fresh issues reached (preemptStatus_empty live empty) (by decide),
      fun live strand foreign => preempt_status fresh issues reached (preemptStatus_other live strand foreign) (by decide),
      fun m => (preempt_rule fresh issues reached (own m)).1, fun m => (preempt_rule fresh issues reached (own m)).2⟩,
    fun issues => ⟨fun idle reached' dead => ctxstream_status fresh idle issues reached' (streamStatus_dead dead) (by decide),
      fun live live' idle empty => ctxstream_status_plain fresh idle issues reached
        (aim_empty_ne_held empty) (streamStatus_empty live live' empty) (by decide),
      fun live live' idle strand foreign => ctxstream_status_plain fresh idle issues reached
        (aim_strand_ne_held strand) (streamStatus_other live live' strand foreign) (by decide),
      fun m live' idle => ctxstream_mine fresh idle issues reached (own m) live',
      fun id waits gone => ctxstream_moved issues reached waits gone⟩⟩

end Sys2Proof.Proofs
end

section
/-! Strands that come to a core, messages that leave one, and gangs (R141, R217, R219, R225 to R228). The statement O31. -/

namespace Sys2Proof.Machine

/-! ### The frame of a core's coming and going -/

/-- What another core may find changed in a core: messages in its mailbox, and its copies of lines. -/
def Core.Beside (k l : Core) : Prop := { l with slots := k.slots, l1d := k.l1d, l1i := k.l1i } = k

/-- From s to t a strand may have come to core f, or its image been refused there, and messages have gone on to other cores. -/
structure Seats (f : Nat) (s t : State) : Prop where
  rest : { t with
    sites := s.sites, ats := s.ats, mem := s.mem, siteTags := s.siteTags, hostReqs := s.hostReqs, nextId := s.nextId, blocked := s.blocked,
    cores := s.cores, l2 := s.l2, mgmt := { t.mgmt with logPos := s.mgmt.logPos, logLost := s.mgmt.logLost },
    free := s.free, kept := s.kept, strands := s.strands } = s
  core : ∀ c, c ≠ f → (s.core c).Beside (t.core c)
  canonical : s.mem.wf = true → t.mem.wf = true

section
variable {s t u : State} {f c : Nat}

theorem Core.Beside.refl (k : Core) : k.Beside k := rfl

theorem Core.Beside.trans {k l m : Core} (first : k.Beside l) (second : l.Beside m) : k.Beside m := by
  unfold Core.Beside at *
  rw [← first, ← second]

theorem Core.Beside.gang {k l : Core} (h : k.Beside l) : l.gang = k.gang := (congrArg Core.gang h :)
theorem Core.Beside.user {k l : Core} (h : k.Beside l) : l.u = k.u := (congrArg Core.u h :)
theorem Core.Beside.anchor {k l : Core} (h : k.Beside l) : l.a = k.a := (congrArg Core.a h :)
theorem Core.Beside.owner {k l : Core} (h : k.Beside l) : l.owner = k.owner := (congrArg Core.owner h :)

theorem Core.Beside.ctx {k l : Core} (h : k.Beside l) (n : CtxName) : l.ctx n = k.ctx n := by
  cases n
  · exact h.user
  · exact h.anchor

theorem Seats.refl (f : Nat) (s : State) : Seats f s s := ⟨rfl, fun _ _ => rfl, id⟩

theorem Seats.trans (first : Seats f s t) (second : Seats f t u) : Seats f s u := by
  obtain ⟨rest, core, canonical⟩ := first
  obtain ⟨rest', core', canonical'⟩ := second
  refine ⟨?_, fun c other => (core c other).trans (core' c other), canonical' ∘ canonical⟩
  rw [← rest, ← rest']

theorem Accessed.seats (h : Accessed s t) : Seats f s t := by
  refine ⟨?_, fun c _ => ?_, h.canonical⟩
  · rw [← h.rest]
  · unfold Core.Beside
    rw [← h.core c]

theorem seats_modCore (s : State) (f : Nat) (g : Core → Core) : Seats f s (s.modCore f g) :=
  ⟨rfl, fun c other => by rw [State.core_modCore_ne s other]; rfl, id⟩

theorem seats_slots (s : State) (f d : Nat) (g : List Msg → List Msg) : Seats f s (s.modCore d (fun k => { k with slots := g k.slots })) := by
  refine ⟨rfl, fun c _ => ?_, id⟩
  by_cases same : c = d
  · rw [same, State.core_modCore_self]
    rfl
  · rw [State.core_modCore_ne s same]
    rfl

theorem seats_strands (s : State) (f : Nat) (l : List Strand) : Seats f s { s with strands := l } := ⟨rfl, fun _ _ => rfl, id⟩

theorem Seats.cur (h : Seats f s t) : t.cur = s.cur := (congrArg State.cur h.rest :)
theorem Seats.curCtx (h : Seats f s t) : t.curCtx = s.curCtx := (congrArg State.curCtx h.rest :)
theorem Seats.retCore (h : Seats f s t) : t.mgmt.retCore = s.mgmt.retCore := (congrArg (fun v => v.mgmt.retCore) h.rest :)

/-! ### Messages go on (R225) -/

theorem seats_sendOn (s : State) (f c : Nat) : Seats f s (s.sendOn c) := by
  unfold State.sendOn
  generalize (s.core c).slots = l
  induction l generalizing s with
  | nil => exact .refl f s
  | cons m rest ih =>
    refine .trans ?_ (ih _)
    dsimp only
    split
    · exact .refl f s
    · split
      · exact .refl f s
      · exact (seats_slots s f c (·.erase m)).trans (seats_slots _ f _ (· ++ [{ m with onto := none }]))

theorem seats_flushSlots (s : State) (f : Nat) : Seats f s (s.flushSlots f) := by
  unfold State.flushSlots
  exact (seats_modCore s f _).trans (seats_sendOn _ f f)

/-! ### A strand enters (R226 to R231, R333) -/

theorem seats_parseFor {d : List Nat} {g : Image} (parsed : s.parseFor c d = .ok (t, g)) : Seats f s t := by
  unfold State.parseFor at parsed
  dsimp only at parsed
  split at parsed
  · contradiction
  · cases parsed
    exact ⟨rfl, fun _ _ => rfl, id⟩

/-- The state in which a slot's parts are read back, or are to be waited for. -/
theorem seats_unpark {p : Parked} {g : Image} (whole : s.unpark c p = .ok (t, g)) : Seats f s t := by
  unfold State.unpark at whole
  split at whole
  · split at whole
    · contradiction
    case h_2 s1 d read =>
      have reads : Seats f s s1 := (accessed_devReads read).seats
      split at whole
      · contradiction
      · split at whole
        · contradiction
        case h_2 s2 g2 parsed =>
          cases whole
          exact (reads.trans (seats_parseFor parsed)).trans (seats_strands _ f _)
  · cases whole
    exact .refl f _

theorem seats_unpark_wait {p : Parked} (waits : s.unpark c p = .error (.wait t)) : Seats f s t := by
  unfold State.unpark at waits
  split at waits
  · split at waits
    · cases waits
    case h_2 s1 d read =>
      have reads : Seats f s s1 := (accessed_devReads read).seats
      split at waits
      · cases waits
        exact reads
      · split at waits
        case h_1 e failed =>
          cases waits
          unfold State.parseFor at failed
          dsimp only at failed
          split at failed <;> cases failed
        · cases waits
  · cases waits

theorem seats_enterU (s : State) (f : Nat) (g : Image) : Seats f s (s.enterU f g) := by
  unfold State.enterU
  dsimp only
  refine .trans (.trans (.trans (t := { s with kept := s.kept.filter (fun t => !(t.asid == g.ctx.as && t.sid == g.ctx.sid)) })
    ⟨rfl, fun _ _ => rfl, id⟩ (seats_modCore _ f _)) (seats_flushSlots _ f)) (seats_strands _ f _)

theorem seats_refused (s : State) (f asid sid image : Nat) (pc : Word) (why : SvcEntry → SvcEntry) :
    Seats f s (State.refuseImage.refused s f asid sid image pc why) := by
  unfold State.refuseImage.refused
  dsimp only
  have told := (seats_strands s f _).trans (seats_modCore
    (s.modStrand asid sid (fun x => { x with heldAt := some image, lastCore := f })) f (fun k => { k with entries := k.entries ++ [why
      { cause := .remote, sepc := pcMask pc, saddr := 0, sinfo := 0, sqimg := 0, pprv := false, actx := false, gangw := false,
        image := BitVec.ofNat 64 image, asid, sid, held := true, engineOp := none }] }))
  split
  · exact told.trans (seats_modCore _ f _)
  · exact told

theorem seats_refusePark {p : Parked} {e : LoadErr} (waits : ∀ t, e = .wait t → Seats f s t) : Seats f s (s.refusePark f p e) := by
  unfold State.refusePark
  split
  case h_1 t => exact waits _ rfl
  case h_2 form a bytes held _ _ =>
    refine (accessed_devWrites s p.img.ctx.as a (form :: p.img.base.tail)).seats.trans ?_
    unfold State.refuseImage
    split
    case h_1 t => exact (held t rfl).elim
    · exact seats_refused _ f _ _ _ _ _
    · exact seats_refused _ f _ _ _ _ _
  · exact .refl f s

theorem seats_nextU (s : State) (f : Nat) : Seats f s (s.nextU f) := by
  unfold State.nextU
  split
  · exact .refl f s
  · split
    · exact .refl f s
    case h_2 i _ _ =>
      split
      · exact .refl f s
      case h_2 p _ =>
        refine (seats_modCore s f (fun k => { k with arrival := k.arrival.eraseIdx i })).trans ?_
        generalize s.modCore f (fun k => { k with arrival := k.arrival.eraseIdx i }) = v
        dsimp only
        split
        case h_1 s2 g whole => exact (seats_unpark whole).trans (seats_enterU s2 f g)
        case h_2 e failed => exact seats_refusePark fun t same => seats_unpark_wait (same ▸ failed)

/-! ### Gangs -/

/-- What has come about at other cores leaves core c as it was, but for its mailbox and its copies of lines. -/
theorem beside_foldl (c : Nat) (l : List Nat) (act : State → Nat → State) (acts : ∀ u f, f ∈ l → Seats f u (act u f)) (apart : c ∉ l) (s : State) :
    let t := l.foldl act s
    (s.core c).Beside (t.core c) ∧ t.cur = s.cur ∧ t.curCtx = s.curCtx ∧ t.mgmt.retCore = s.mgmt.retCore := by
  induction l generalizing s with
  | nil => exact ⟨rfl, rfl, rfl, rfl⟩
  | cons f rest ih =>
    have first := acts s f List.mem_cons_self
    rw [List.mem_cons, not_or] at apart
    obtain ⟨other, apart⟩ := apart
    obtain ⟨core, cur, ctx, count⟩ := ih (fun u g listed => acts u g (List.mem_cons_of_mem f listed)) apart (act s f)
    exact ⟨(first.core c other).trans core, cur.trans first.cur, ctx.trans first.curCtx, count.trans first.retCore⟩

/-- The members of a gang besides its leader. -/
theorem not_mem_followers (c : Nat) (l : List Nat) : c ∉ l.filter (· ≠ c) := by
  simp

theorem seats_freed (s : State) (f : Nat) (g : Core → Core) (key n : Nat) : Seats f s { s.modCore f g with mem := s.mem.zero key n } := by
  refine ⟨rfl, fun c other => ?_, fun canonical => Memory.wf_zero canonical _ _⟩
  exact congrArg (fun k => Core.Beside (s.core c) k) (State.core_modCore_ne s other g) ▸ Core.Beside.refl _

/-- The core of a leader whose gang has ended. -/
def Core.unled (k : Core) : Core :=
  { k with
    gang := .none, v := k.v.map (fun r => (r.setWidth 4096).setWidth 32768), m := k.m.map (fun r => (r.setWidth 512).setWidth 4096),
    regPoison := k.regPoison.filter (fun p => p.1 == 2 || p.2.2 < (if p.1 = 0 then 128 else 16)) }

theorem Core.Beside.unled {k l : Core} (h : k.Beside l) : k.unled.Beside l.unled := by
  unfold Core.Beside at h
  rw [← h]
  rfl

/-- The core of a follower whose gang has ended. -/
def Core.freed (k : Core) : Core := { k with gang := .none, owner := if k.hasStrandOf k.prevAsid then some k.prevAsid else none }

/-- A gang ends: its leader stands alone, its followers' cores are free for strands. -/
theorem disband_leader {n : Nat} (lead : (s.core c).gang = .leader n) : let t := s.disband c
    (s.core c).unled.Beside (t.core c) ∧ t.cur = s.cur ∧ t.curCtx = s.curCtx ∧ t.mgmt.retCore = s.mgmt.retCore := by
  unfold State.disband
  rw [lead]
  dsimp only
  have apart := not_mem_followers c ((upTo n).map (fun i => c / n * n + i))
  generalize ((upTo n).map (fun i => c / n * n + i)).filter (· ≠ c) = followers at apart
  obtain ⟨core, cur, ctx, count⟩ := beside_foldl c followers
    (fun t f => { t.modCore f Core.freed with mem := t.mem.zero (Loc.slice f 0).key (2 ^ 17) }) (fun u f _ => seats_freed u f _ _ _) apart s
  obtain ⟨core', cur', ctx', count'⟩ := beside_foldl c followers (fun t f => t.nextU f) (fun u f _ => seats_nextU u f) apart
    ((followers.foldl (fun t f => { t.modCore f Core.freed with mem := t.mem.zero (Loc.slice f 0).key (2 ^ 17) }) s).modCore c Core.unled)
  rw [State.core_modCore_self] at core'
  exact ⟨core.unled.trans core', cur'.trans cur, ctx'.trans ctx, count'.trans count⟩

/-! ### UNGANG and GANG -/

theorem Core.gang_setCtx (k : Core) (n : CtxName) (x : Ctx) : (k.setCtx n x).gang = k.gang := by cases n <;> rfl

/-- The executing context of a state whose current core is known but for its mailbox and its copies of lines. -/
theorem Core.Beside.cx {k : Core} (h : k.Beside (t.core s.cur)) (cur : t.cur = s.cur) (ctx : t.curCtx = s.curCtx) : t.cx = k.ctx s.curCtx := by
  unfold State.cx State.me
  rw [cur, ctx]
  exact h.ctx s.curCtx

theorem gang_modCx (f : Ctx → Ctx) (cur : t.cur = s.cur) : ((t.modCx f).core s.cur).gang = (t.core s.cur).gang := by
  rw [← cur]
  exact (congrArg Core.gang (State.me_modCx t f)).trans (Core.gang_setCtx _ _ _)

/-- The follower of a gang that has just been formed. -/
def Core.led (k : Core) (c : Nat) : Core := { k with gang := .follower c, owner := none }

theorem flushSlots_gang (s : State) (f : Nat) :
    ((s.flushSlots f).core f).gang = (s.core f).gang ∧ ((s.flushSlots f).core f).owner = (s.core f).owner := by
  unfold State.flushSlots
  dsimp only
  have on (g : Core → Core) := (seats_sendOn (s.modCore f g) (f + 1) f).core f (Nat.ne_of_lt (Nat.lt_succ_self f))
  refine ⟨(on _).gang.trans ?_, (on _).owner.trans ?_⟩ <;> rw [State.core_modCore_self]

/-- The step of GANG at one follower. -/
def State.lead (s : State) (c f : Nat) : State :=
  let t := (s.modCore f (·.led c)).flushSlots f
  { t with mem := t.mem.zero (Loc.slice f 0).key (2 ^ 17) }

theorem seats_lead (s : State) (c f : Nat) : Seats f s (s.lead c f) :=
  ((seats_modCore s f (·.led c)).trans (seats_flushSlots _ f)).trans ⟨rfl, fun _ _ => rfl, fun canonical => Memory.wf_zero canonical _ _⟩

theorem gang_lead (s : State) (c f : Nat) : ((s.lead c f).core f).gang = .follower c ∧ ((s.lead c f).core f).owner = none := by
  obtain ⟨gang, owner⟩ := flushSlots_gang (s.modCore f (·.led c)) f
  rw [State.core_modCore_self] at gang owner
  exact ⟨gang, owner⟩

theorem gang_leads (c : Nat) (l : List Nat) (s : State) {f : Nat} (listed : f ∈ l) : let t := l.foldl (fun t f => t.lead c f) s
    (t.core f).gang = .follower c ∧ (t.core f).owner = none := by
  induction l generalizing s with
  | nil => contradiction
  | cons g rest ih =>
    by_cases later : f ∈ rest
    · exact ih _ later
    · obtain rfl : f = g := (List.mem_cons.1 listed).resolve_right later
      obtain ⟨core, -⟩ := beside_foldl f rest (fun t f => t.lead c f) (fun u g _ => seats_lead u c g) later (s.lead c f)
      obtain ⟨gang, owner⟩ := gang_lead s c f
      exact ⟨core.gang.trans gang, core.owner.trans owner⟩

/-- A leader of n cores, the registers above its own share zero. -/
def Core.leading (k : Core) (n : Nat) : Core :=
  { k with gang := .leader n, v := k.v.map (fun r => (r.setWidth 4096).setWidth 32768), m := k.m.map (fun r => (r.setWidth 512).setWidth 4096) }

theorem formGang_eq (s : State) (n : Nat) :
    s.formGang n = ((blockOf s.cur n).filter (· ≠ s.cur)).foldl (fun t f => t.lead s.cur f) (s.modCore s.cur (·.leading n)) := rfl

theorem formGang_rule (s : State) (n : Nat) : let t := s.formGang n
    (s.me.leading n).Beside (t.core s.cur) ∧ t.cur = s.cur ∧ t.curCtx = s.curCtx ∧
      ∀ f ∈ blockOf s.cur n, f ≠ s.cur → (t.core f).gang = .follower s.cur ∧ (t.core f).owner = none := by
  rw [formGang_eq]
  obtain ⟨core, cur, ctx, -⟩ := beside_foldl s.cur ((blockOf s.cur n).filter (· ≠ s.cur)) (fun t f => t.lead s.cur f)
    (fun u g _ => seats_lead u _ g) (not_mem_followers _ _) (s.modCore s.cur (·.leading n))
  rw [State.core_modCore_self] at core
  exact ⟨core, cur, ctx, fun f listed other => gang_leads s.cur _ _ (List.mem_filter.2 ⟨listed, decide_eq_true other⟩)⟩

end

end Sys2Proof.Machine

namespace Sys2Proof.Proofs
open Sys2Proof.Machine

/-! ### SLIP, QSYNC, GANG and UNGANG: O31 -/

section
variable {s : State}

theorem slip_rule (here : Spec.strandHere s) (o : LI16) (issues : Issues (.slip o) s) : ∃ t, exec (.slip o) s = .next t ∧ let k := s.meNext
    CoreBecomes s t s.cur { k with u := { k.u with slipcfg := o.imm &&& 0x3F3F } } := by
  refine ⟨_, (exec_slip s o).trans (run_ok issues (t := (s.modU (fun k => { k with slipcfg := o.imm &&& 0x3F3F })).advance) ?_), ?_⟩
  · simp only [configAllowed_ok _ here, bind, Except.bind]
    rfl
  · obtain ⟨only, becomes, bytes⟩ := setCore_modCx_coreBecomes s { s.me with u := { s.me.u with slipcfg := o.imm &&& 0x3F3F } } Ctx.advance
    refine ⟨only, becomes.trans ?_, bytes⟩
    unfold State.meNext State.cx
    cases s.curCtx <;> rfl

theorem qsync_rule (here : Spec.strandHere s) (issues : Issues .qsync s) :
    (s.me.queue = [] → ∃ t, exec .qsync s = .next t ∧ MovesTo s t s.cx.nextPc) ∧ (s.me.queue ≠ [] → exec .qsync s = .next s) := by
  refine ⟨fun empty => ⟨_, (exec_qsync s).trans (run_ok issues (t := s.advance) ?_), advance_movesTo s⟩, fun some => ?_⟩
  · simp only [configAllowed_ok _ here, bind, Except.bind, empty]
    rfl
  · refine (exec_qsync s).trans (run_error (e := .stall) issues ?_)
    simp only [configAllowed_ok _ here, bind, Except.bind, List.isEmpty_eq_false_iff.2 some, Bool.false_eq_true, if_false]

theorem exec_ungang_of (here : Spec.strandHere s) (issues : Issues .ungang s) (empty : s.me.queue = []) :
    exec .ungang s = .next (s.disband s.cur).advance := by
  refine (exec_ungang s).trans (run_ok issues ?_)
  simp only [configAllowed_ok _ here, bind, Except.bind, empty]
  rfl

theorem ungang_alone (here : Spec.strandHere s) (issues : Issues .ungang s) (empty : s.me.queue = []) (alone : ∀ n, s.me.gang ≠ .leader n) :
    ∃ t, exec .ungang s = .next t ∧ MovesTo s t s.cx.nextPc := by
  have same : s.disband s.cur = s := by
    unfold State.disband
    split
    case h_1 n lead => exact absurd lead (alone n)
    · rfl
  exact ⟨_, exec_ungang_of here issues empty, same.symm ▸ advance_movesTo s⟩

theorem ungang_leader {n : Nat} (here : Spec.strandHere s) (issues : Issues .ungang s) (empty : s.me.queue = [])
    (lead : s.me.gang = .leader n) :
    ∃ t, exec .ungang s = .next t ∧ (t.core s.cur).gang = .none ∧ t.cx.pc = s.cx.nextPc := by
  obtain ⟨core, cur, ctx, -⟩ := disband_leader (c := s.cur) lead
  refine ⟨_, exec_ungang_of here issues empty, (gang_modCx _ cur).trans core.gang, ?_⟩
  have cx : (s.disband s.cur).cx = s.cx := (core.cx cur ctx).trans (by unfold State.cx; cases s.curCtx <;> rfl)
  rw [State.advance, State.cx_modCx, cx]
  rfl

/-- The status of GANG for a block in the U context of a core outside a gang. -/
theorem gangStatus_user {n : Nat} (ctx : s.curCtx = .u) (lone : s.me.gang = .none) : gangStatus s n =
    if (blockOf s.cur n).any (fun f => f != s.cur && ((s.core f).uWork.holds || s.heldFor f || (s.core f).gang != .none)) then 1
    else if (blockOf s.cur n).any (fun f => !s.live f || (s.core f).retLane.isSome) then 2 else 0 := by
  unfold gangStatus
  rw [ctx, lone]
  rfl

theorem gangStatus_inside {n : Nat} (inside : s.curCtx = .a ∨ s.me.gang ≠ .none) : gangStatus s n = 3 := by
  refine if_pos ?_
  obtain handler | member := inside
  · rw [handler]
    rfl
  · rw [bne_iff_ne.2 member, Bool.or_true]

theorem holds_iff (w : UWork) : w.holds = true ↔ w ≠ .empty := by cases w <;> simp [UWork.holds]

theorem block_busy_iff (n : Nat) :
    (blockOf s.cur n).any (fun f => f != s.cur && ((s.core f).uWork.holds || s.heldFor f || (s.core f).gang != .none)) = true ↔
      ∃ f ∈ (List.range n).map (fun j => s.cur / n * n + j),
        f ≠ s.cur ∧ ((s.core f).uWork ≠ .empty ∨ s.heldFor f = true ∨ (s.core f).gang ≠ .none) := by
  rw [List.any_eq_true, blockOf, upTo_eq]
  simp only [Bool.and_eq_true, bne_iff_ne, Bool.or_eq_true, holds_iff, or_assoc]

theorem block_broken_iff (n : Nat) : (blockOf s.cur n).any (fun f => !s.live f || (s.core f).retLane.isSome) = true ↔
    ∃ f ∈ (List.range n).map (fun j => s.cur / n * n + j), s.live f = false ∨ (s.core f).retLane ≠ none := by
  rw [List.any_eq_true, blockOf, upTo_eq]
  simp only [Bool.or_eq_true, Bool.not_eq_true', Option.isSome_iff_ne_none]

theorem gang_refused {o : LH} (issues : Issues (.gang o) s) (mapped : Spec.mapped s) (empty : s.me.queue = []) {st : Nat}
    (status : gangStatus s (2 ^ (o.f.toNat % 4)) = st) (bad : st ≠ 0) :
    ∃ t, exec (.gang o) s = .next t ∧ Returns s t o.d (BitVec.ofNat 64 st) := by
  have runs := exec_gang_of issues (remapLanes_mapped mapped) empty
  rw [status, if_neg bad] at runs
  exact ⟨_, runs, retX_returns s o.d _⟩

theorem gang_forms {o : LH} (issues : Issues (.gang o) s) (mapped : Spec.mapped s) (empty : s.me.queue = [])
    (status : gangStatus s (2 ^ (o.f.toNat % 4)) = 0) : let n := 2 ^ (o.f.toNat % 4)
    ∃ t, exec (.gang o) s = .next t ∧ t.getX o.d = 0 ∧ t.cx.pc = s.cx.nextPc ∧ (t.core s.cur).gang = .leader n ∧
      ∀ f ∈ blockOf s.cur n, f ≠ s.cur → (t.core f).gang = .follower s.cur ∧ (t.core f).owner = none := by
  intro n
  have runs := exec_gang_of issues (remapLanes_mapped mapped) empty
  rw [status, if_pos rfl] at runs
  obtain ⟨core, cur, ctx, followers⟩ := formGang_rule s n
  have cx : (s.formGang n).cx = s.cx := (core.cx cur ctx).trans (by unfold State.cx; cases s.curCtx <;> rfl)
  obtain ⟨result, -, pc, -⟩ := retX_returns (s.formGang n) o.d 0
  refine ⟨_, runs, ?_, ?_, ?_, fun f listed other => ?_⟩
  · refine Eq.trans result ?_
    split <;> rfl
  · exact pc.trans (congrArg Ctx.nextPc cx)
  · exact (gang_modCx _ cur).trans core.gang
  · have same : ((s.formGang n).retX o.d 0).core f = (s.formGang n).core f := State.core_modCore_ne _ (by rw [cur]; exact other) _
    rw [show BitVec.ofNat 64 0 = 0 from rfl, same]
    exact followers f listed other

end

/-- `Rule.VectorControl`: GANG by its status, UNGANG by the gang that it ends. -/
theorem vectorControl_rule : Sys2Proof.Rule.VectorControl := by
  intro s
  refine ⟨fun here => ⟨slip_rule here, qsync_rule here, ungang_alone here, fun n => ungang_leader here⟩, fun o issues mapped empty => ?_⟩
  intro n block busy broken
  refine ⟨fun inside => gang_refused issues mapped empty (gangStatus_inside inside) (by decide), fun ctx lone => ?_⟩
  have status := gangStatus_user (n := n) ctx lone
  refine ⟨fun some => ?_, fun none some => ?_, fun none whole => ?_⟩
  · exact gang_refused issues mapped empty (status.trans (if_pos ((block_busy_iff n).2 some))) (by decide)
  · exact gang_refused issues mapped empty
      (status.trans ((if_neg (mt (block_busy_iff n).1 none)).trans (if_pos ((block_broken_iff n).2 some)))) (by decide)
  · obtain ⟨t, runs, result, pc, lead, followers⟩ := gang_forms issues mapped empty
      (status.trans ((if_neg (mt (block_busy_iff n).1 none)).trans (if_neg (mt (block_broken_iff n).1 whole))))
    rw [blockOf, upTo_eq] at followers
    exact ⟨t, runs, result, pc, lead, followers⟩

/-- Settles O31. -/
theorem vectorControl : Obligations.VectorControl := vectorControl_rule

end Sys2Proof.Proofs
end

section
/-! The port that goes down (R348, R351): the statement O50. -/

namespace Sys2Proof.Proofs
open Sys2Proof.Machine

/-! ### A syscall ring whose page table lies in the CXL memory of the port that goes down -/

/-- An address space whose table of level 2 lies in the CXL memory of port 0, and whose syscall ring lies in the memory of the host of port 0. -/
def pooledSpace : Space :=
  { asid := 1, recPa := 0, nomig := false, root := 0x10000, spillVa := 0, spillLen := 0, queuesVa := 0, eventVa := 0, eventSlots := 0, notifyVa := 0,
    sysVa := 0x40000, sysSlots := 1, msix := none, sysPort := 0, eventPos := 0, held := [], lost := 0, sysPos := 0, sysWait := [], sysGrant := [],
    colour := false, queues := [], nextSid := 1, digested := false }

/-- A strand on core 0 that waits for the result of a SYSC in x9. -/
def pooled : State :=
  { State.reset with
    cores := [(0, { Core.reset with uWork := .strand, u := { Ctx.reset with asid := 1, strandId := 1, pend := 0x200 } })]
    spaces := [pooledSpace]
    mem := (((State.reset.mem.write 0x10000 8 (2 ^ 63 + 2 ^ 46)).write (2 ^ 46) 8 (2 ^ 63 + 0x14000)).write 0x14000 8 (2 ^ 63 + 0x18000)).write
      0x18020 8 (2 ^ 63 + 2 ^ 62 + 2 ^ 59)
    sysReqs := [{ asid := 1, pos := 0, sid := 1, reg := 9, cancelled := false }] }

/-- While the port is up, the walk of the ring's page finds its leaf, of the port's host. -/
theorem pooled_ringOn : pooled.ringOn 0 pooledSpace = true := by decide +kernel

/-- Once the port is down, the walk ends at the table that it held, and the request stays. -/
theorem pooled_keeps : (match exec (.hostPortDown 0) pooled with | .next t => t.sysReqs | _ => []) ≠ [] := by decide +kernel

/-- Refutes O50: which requests a port that goes down fails is told by the walk of their rings once the port is down; a ring whose page table lies in the
CXL memory of that port is then not found, and its request stays. -/
theorem not_hostEvents : ¬ Obligations.HostEvents := by
  intro h
  obtain ⟨-, fails, -⟩ := h pooled 0
  obtain ⟨t, ran, empty, -⟩ := fails { asid := 1, pos := 0, sid := 1, reg := 9, cancelled := false } 0 pooledSpace rfl rfl (by decide) (by decide) rfl rfl
    rfl (by decide) pooled_ringOn (by decide +kernel)
  have kept := pooled_keeps
  rw [ran] at kept
  exact kept empty

end Sys2Proof.Proofs
end

section
/-! Pins, hotness records and page movement (R310, R311, R313, R315, R320 to R322): the statement O51. -/

namespace Sys2Proof.Machine

/-! ### Leaves and homes -/

/-- The leaf that a movement writes, field by field (R309). -/
theorem leafWith_eq {l typ pa : Nat} (wide : l < 2 ^ 64) (kind : typ < 8) (inside : pa < 2 ^ 48) : leafWith l typ pa = Spec.leafAt l typ pa := by
  unfold leafWith Spec.leafAt setBits bitsOf
  omega

theorem leafType_lt (l : Nat) : leafType l < 8 := Nat.mod_lt _ (by decide)

theorem pageBytes_eq (big : Bool) : pageBytes big = if big then 2 ^ 26 else 2 ^ 16 := rfl

/-- A leaf of type 2 whose replica descriptor names a frame that is not one of HBM4E breaks R311 and R355. -/
theorem leafOk_replicated {s : State} {l pa : Nat} (kind : leafType l = 2) (addr : leafAddr l = pa) {big : Bool} (ok : s.leafOk l big = true) :
    big = false ∧ ∀ f ∈ s.replicas pa, f % 2 ^ 16 = 0 ∧ f < s.hbmEnd := by
  unfold State.leafOk at ok
  rw [kind, addr] at ok
  dsimp only at ok
  simp only [Bool.and_eq_true, Bool.not_eq_true', State.replicasOk, List.all_eq_true, beq_iff_eq, decide_eq_true_eq] at ok
  exact ⟨ok.2.1.1.2, ok.2.2⟩

theorem leafType_leafAt {l typ pa : Nat} (kind : typ < 8) (inside : pa < 2 ^ 48) : leafType (Spec.leafAt l typ pa) = typ := by
  unfold leafType Spec.leafAt bitsOf
  omega

theorem leafAddr_leafAt {l typ pa : Nat} (inside : pa < 2 ^ 48) : leafAddr (Spec.leafAt l typ pa) = pa := by
  unfold leafAddr Spec.leafAt bitsOf
  omega

/-! ### The events of a movement, case by case (R320, R321) -/

section
variable {s t : State} {i op poster va : Nat} {rest : List (Nat × Nat)}

/-- The four events of movement are one, for the OP of each. -/
theorem exec_move {ev : Instr} (s : State)
    (named : (op, ev) ∈ [(1, Instr.moveMigrate i), (2, .moveReplicate i), (3, .moveCollapse i), (4, .moveResetHotness i)]) :
    exec ev s = .next (moveServe i op s) := by
  simp only [List.mem_cons, Prod.mk.injEq, List.not_mem_nil, or_false] at named
  obtain ⟨rfl, rfl⟩ | ⟨rfl, rfl⟩ | ⟨rfl, rfl⟩ | ⟨rfl, rfl⟩ := named <;> rfl

theorem orAsk_self {s : State} (reached : s.blocked = false) : s.orAsk s = s := by
  rw [State.orAsk, reached]
  rfl

variable (head : (s.site i).home.moves = (poster, va) :: rest)
include head

theorem moveServe_ends {m : Movement} (moving : (s.site i).home.moving = some m) (same : m.op = op) :
    moveServe i op s = s.orAsk (Spec.moveAnswered (s.endMove i m) i poster va 1) := by
  unfold moveServe State.attempt
  dsimp only
  rw [head]
  dsimp only
  rw [moving]
  exact congrArg s.orAsk (if_pos same)

theorem moveServe_other {m : Movement} (moving : (s.site i).home.moving = some m) (differs : m.op ≠ op) : moveServe i op s = s.orAsk s := by
  unfold moveServe State.attempt
  dsimp only
  rw [head]
  dsimp only
  rw [moving]
  exact congrArg s.orAsk (if_neg differs)

variable (idle : (s.site i).home.moving = none)
include idle

theorem moveServe_unread (lost : (s.devTouch poster va).devReads poster va 8 = none) : moveServe i op s =
    s.orAsk ((s.devTouch poster va).modSite i (fun x => { x with home := { x.home with moves := x.home.moves.drop 1 } })) := by
  unfold moveServe State.attempt
  dsimp only
  rw [head]
  dsimp only
  rw [idle]
  dsimp only
  rw [lost]
  rfl

variable {d : List Nat} (read : (s.devTouch poster va).devReads poster va 8 = some (t, d))
include read

theorem moveServe_malformed (shape : moveShape va d = false) : moveServe i op s = s.orAsk (Spec.moveAnswered t i poster va 2) := by
  unfold moveServe State.attempt
  dsimp only
  rw [head]
  dsimp only
  rw [idle]
  dsimp only
  rw [read]
  dsimp only
  rw [shape]
  rfl

theorem moveServe_starts (shape : moveShape va d = true) (same : d.getD 0 0 % 8 = op) :
    moveServe i op s = s.orAsk (t.moveStart i poster va d) := by
  unfold moveServe State.attempt
  dsimp only
  rw [head]
  dsimp only
  rw [idle]
  dsimp only
  rw [read]
  dsimp only
  rw [shape, Bool.not_true, if_neg Bool.false_ne_true, if_pos same]

end

section
variable {t u : State} {i poster va : Nat} {d : List Nat}

theorem page_named {page : Nat} (low : page < 2 ^ 56) (aligned : page % 2 ^ 16 = 0) (remote : isLocal page = false) :
    ¬(decide (page ≥ 2 ^ 56) || decide (page % 2 ^ 16 ≠ 0) || isLocal page) = true := by
  simp only [aligned, remote, ne_eq, not_true_eq_false, decide_false, Bool.or_false, decide_eq_true_eq]
  omega

theorem page_homed {page n h k : Nat} (whole : page % n = 0) (home : h = k) : ¬(decide (page % n ≠ 0) || decide (h ≠ k)) = true := by
  simp [whole, home]

theorem moveStart_outside (bad : 2 ^ 56 ≤ d.getD 1 0 ∨ d.getD 1 0 % 2 ^ 16 ≠ 0 ∨ isLocal (d.getD 1 0) = true) :
    t.moveStart i poster va d = Spec.moveAnswered t i poster va 2 := by
  unfold State.moveStart
  exact if_pos (by simpa [or_assoc] using bad)

variable (low : d.getD 1 0 < 2 ^ 56) (aligned : d.getD 1 0 % 2 ^ 16 = 0) (remote : isLocal (d.getD 1 0) = false)
include low aligned remote

theorem moveStart_absent {r lv : Nat} (lost : t.homeEntry (d.getD 0 0 / 2 ^ 16 % 2 ^ 16) (d.getD 1 0) = .error (.np r lv)) :
    t.moveStart i poster va d = Spec.moveAnswered (t.logWalk (d.getD 0 0 / 2 ^ 16 % 2 ^ 16) 0 (d.getD 1 0) r) i poster va 4 := by
  unfold State.moveStart
  dsimp only [bitsOf]
  rw [if_neg (page_named low aligned remote), lost]
  rfl

theorem moveStart_full (lost : t.homeEntry (d.getD 0 0 / 2 ^ 16 % 2 ^ 16) (d.getD 1 0) = .error .full) : t.moveStart i poster va d = t := by
  unfold State.moveStart
  dsimp only [bitsOf]
  rw [if_neg (page_named low aligned remote), lost]

variable {e : HomeEntry} {lv : Nat} (found : t.homeEntry (d.getD 0 0 / 2 ^ 16 % 2 ^ 16) (d.getD 1 0) = .ok (u, e, lv))
include found

theorem moveStart_misplaced (bad : d.getD 1 0 % pageBytes e.big ≠ 0 ∨ homeOf (d.getD 1 0) e.big ≠ i % 4) :
    t.moveStart i poster va d = Spec.moveAnswered u i poster va 2 := by
  unfold State.moveStart
  dsimp only [bitsOf]
  rw [if_neg (page_named low aligned remote), found]
  exact if_pos (by simpa using bad)

variable (whole : d.getD 1 0 % pageBytes e.big = 0) (home : homeOf (d.getD 1 0) e.big = i % 4)
include whole home

theorem moveStart_resets (reset : d.getD 0 0 % 8 = 4) : t.moveStart i poster va d = Spec.moveAnswered (u.resetHot e) i poster va 1 := by
  unfold State.moveStart
  dsimp only [bitsOf]
  rw [if_neg (page_named low aligned remote), found]
  dsimp only
  rw [if_neg (page_homed whole home), if_pos reset]
  rfl

theorem moveStart_turned {op st : Nat} (same : d.getD 0 0 % 8 = op) (moves : op ≠ 4)
    (turned : u.moveTarget op e (d.getD 2 0) (d.getD 3 0 % 4) = .error st) : t.moveStart i poster va d = Spec.moveAnswered u i poster va st := by
  unfold State.moveStart
  dsimp only [bitsOf]
  rw [if_neg (page_named low aligned remote), found]
  dsimp only
  rw [if_neg (page_homed whole home), same, if_neg moves, turned]
  rfl

theorem moveStart_begins {op : Nat} {m : Movement} (same : d.getD 0 0 % 8 = op) (moves : op ≠ 4)
    (target : u.moveTarget op e (d.getD 2 0) (d.getD 3 0 % 4) = .ok m) : t.moveStart i poster va d = u.beginMove i e m := by
  unfold State.moveStart
  dsimp only [bitsOf]
  rw [if_neg (page_named low aligned remote), found]
  dsimp only
  rw [if_neg (page_homed whole home), same, if_neg moves, target]

end

/-! ### The target of a movement (R311, R320) -/

section
variable {s : State} {e : HomeEntry} {pa kept : Nat}

/-- A movement of an entry's page. -/
def Movement.ofPage (op : Nat) (e : HomeEntry) (src : Nat) (dsts : List Nat) (leaf : Nat) : Movement :=
  { op, asid := e.asid, page := e.page, big := e.big, src, dsts, leaf }

/-- The leaf of type `typ` at `pa` that obeys R309, R311 and R355 in place of the entry's own. -/
def State.fits (s : State) (e : HomeEntry) (typ pa : Nat) : Prop := pa < 2 ^ 48 ∧ s.leafOk (Spec.leafAt e.leaf.toNat typ pa) e.big = true

theorem State.fits_iff {typ : Nat} (kind : typ < 8) :
    s.fits e typ pa ↔ ¬(pa ≥ 2 ^ 48 || !s.leafOk (leafWith e.leaf.toNat typ pa) e.big) = true := by
  simp only [State.fits, Bool.or_eq_true, decide_eq_true_eq, Bool.not_eq_true', not_or, Bool.not_eq_false]
  constructor
  · rintro ⟨inside, ok⟩
    exact ⟨by omega, (leafWith_eq e.leaf.isLt kind inside).symm ▸ ok⟩
  · rintro ⟨inside, ok⟩
    exact ⟨by omega, leafWith_eq e.leaf.isLt kind (by omega : pa < 2 ^ 48) ▸ ok⟩

theorem moveTarget_migrate_kind (other : leafType e.leaf.toNat ≠ 0 ∧ leafType e.leaf.toNat ≠ 3) : s.moveTarget 1 e pa kept = .error 3 := if_pos other

theorem moveTarget_migrate (kind : leafType e.leaf.toNat = 0 ∨ leafType e.leaf.toNat = 3) :
    (¬s.fits e (leafType e.leaf.toNat) pa → s.moveTarget 1 e pa kept = .error 2) ∧
    (s.fits e (leafType e.leaf.toNat) pa → s.moveTarget 1 e pa kept = .ok (Movement.ofPage 1 e (leafAddr e.leaf.toNat) ([pa]) (Spec.leafAt e.leaf.toNat (leafType e.leaf.toNat) pa))) := by
  have target : ¬(leafType e.leaf.toNat ≠ 0 ∧ leafType e.leaf.toNat ≠ 3) := by omega
  constructor
  · intro bad
    rw [State.fits_iff (leafType_lt _), not_not] at bad
    exact (if_neg target).trans (if_pos bad)
  · intro good
    rw [← leafWith_eq e.leaf.isLt (leafType_lt _) good.1]
    rw [State.fits_iff (leafType_lt _)] at good
    exact (if_neg target).trans (if_neg good)

theorem moveTarget_replicate_kind (other : leafType e.leaf.toNat ≠ 0 ∨ e.big = true) : s.moveTarget 2 e pa kept = .error 3 := if_pos other

theorem moveTarget_replicate (kind : leafType e.leaf.toNat = 0) (small : e.big = false) :
    (¬s.fits e 2 pa → s.moveTarget 2 e pa kept = .error 2) ∧
    (s.fits e 2 pa → s.moveTarget 2 e pa kept = .ok (Movement.ofPage 2 e (leafAddr e.leaf.toNat) (s.replicas pa) (Spec.leafAt e.leaf.toNat 2 pa))) := by
  have target : ¬(leafType e.leaf.toNat ≠ 0 ∨ e.big = true) := by simp [kind, small]
  constructor
  · intro bad
    rw [State.fits_iff (by decide), not_not, small] at bad
    exact (if_neg target).trans (if_pos bad)
  · intro good
    rw [← leafWith_eq e.leaf.isLt (by decide) good.1]
    rw [State.fits_iff (by decide), small] at good
    exact (if_neg target).trans (if_neg good)

theorem moveTarget_collapse_kind (other : leafType e.leaf.toNat ≠ 2) : s.moveTarget 3 e pa kept = .error 3 := if_pos other

theorem moveTarget_collapse (kind : leafType e.leaf.toNat = 2) (small : e.big = false) :
    (¬s.fits e 0 pa → s.moveTarget 3 e pa kept = .error 2) ∧
    (s.fits e 0 pa → s.moveTarget 3 e pa kept = .ok (Movement.ofPage 3 e (s.mem.read (leafAddr e.leaf.toNat + 8 * kept) 8) ([pa]) (Spec.leafAt e.leaf.toNat 0 pa))) := by
  have target : ¬(leafType e.leaf.toNat ≠ 2) := by simp [kind]
  constructor
  · intro bad
    rw [State.fits_iff (by decide), not_not, small] at bad
    exact (if_neg target).trans (if_pos bad)
  · intro good
    rw [← leafWith_eq e.leaf.isLt (by decide) good.1]
    rw [State.fits_iff (by decide), small] at good
    exact (if_neg target).trans (if_neg good)

/-- A replica descriptor that names a frame which is not one of HBM4E does not fit. -/
theorem State.not_fits_of_frame {f : Nat} (named : f ∈ (List.range 4).map (fun j => s.mem.read (pa + 8 * j) 8))
    (bad : f % 2 ^ 16 ≠ 0 ∨ s.hbmEnd ≤ f) : ¬s.fits e 2 pa := by
  rintro ⟨inside, ok⟩
  obtain ⟨-, frames⟩ := leafOk_replicated (leafType_leafAt (by decide) inside) (leafAddr_leafAt inside) ok
  have good := frames f (by rw [State.replicas, upTo_eq]; exact named)
  omega

end

/-! ### The two events of a movement (R321, R322) -/

theorem core_setL2 (s : State) (l : List (Nat × L2Slice)) (c : Nat) : State.core { s with l2 := l } c = s.core c := rfl

/-- A copy in an L1 that is left was there before and lies apart from the range. -/
theorem l1d_dropL1Keys {s : State} {lo hi c : Nat} {l : L1Line} (left : l ∈ ((s.dropL1Keys lo hi).core c).l1d) :
    l ∈ (s.core c).l1d ∧ ¬(lo < l.key + 32 ∧ l.key < hi) := by
  rw [State.dropL1Keys, core_setL2, core_mapCores s _ c rfl] at left
  obtain ⟨held, clear⟩ := List.mem_filter.mp left
  exact ⟨held, fun meets => by simp [meets] at clear⟩

/-- After the lines of several ranges have left, no line of any of them is held. -/
theorem l1d_dropped {n : Nat} {frames : List Nat} {s : State} {c : Nat} {l : L1Line}
    (left : l ∈ ((frames.foldl (fun (t : State) f => t.dropL1Keys f (f + n)) s).core c).l1d) :
    l ∈ (s.core c).l1d ∧ ∀ f ∈ frames, ¬(f < l.key + 32 ∧ l.key < f + n) := by
  induction frames generalizing s with
  | nil => exact ⟨left, fun f hf => absurd hf List.not_mem_nil⟩
  | cons f frames ih =>
    obtain ⟨held, apart⟩ := ih left
    obtain ⟨was, clear⟩ := l1d_dropL1Keys held
    exact ⟨was, List.forall_mem_cons.mpr ⟨clear, apart⟩⟩

theorem mem_dropped {n : Nat} (frames : List Nat) (s : State) : (frames.foldl (fun (t : State) f => t.dropL1Keys f (f + n)) s).mem = s.mem := by
  induction frames generalizing s with
  | nil => rfl
  | cons f frames ih => exact ih _

/-- An entry that is changed in place shows the change. -/
theorem cache_modEntry {s : State} {e o : HomeEntry} {f : HomeEntry → HomeEntry}
    (listed : o ∈ ((s.modEntry e f).site e.site).home.cache) (same : e.same o = true) : ∃ x, e.same x = true ∧ o = f x := by
  rw [State.modEntry, State.home_modHome_self] at listed
  obtain ⟨x, -, rfl⟩ := List.mem_map.mp listed
  by_cases was : e.same x = true
  · exact ⟨x, was, if_pos was⟩
  · rw [if_neg was] at same
    exact absurd same was

/-- What a home caches does not tell which movement it does. -/
theorem site_setMoving (s : State) (i k : Nat) (m : Option Movement) :
    ((s.modHome i (fun h => { h with moving := m })).site k).home.cache = (s.site k).home.cache := by
  by_cases same : k % 4 = i % 4
  · have here (t : State) : t.site k = t.site i := by
      simp only [State.site, same]
    rw [here, here, State.home_modHome_self]
  · rw [State.modHome, State.site_modSite_ne _ same]

theorem moving_modEntry (s : State) (e : HomeEntry) (f : HomeEntry → HomeEntry) (k : Nat) :
    ((s.modEntry e f).site k).home.moving = (s.site k).home.moving := by
  by_cases same : k % 4 = e.site % 4
  · have here (t : State) : t.site k = t.site e.site := by
      simp only [State.site, same]
    rw [here, here, State.modEntry, State.home_modHome_self]
  · rw [State.modEntry, State.modHome, State.site_modSite_ne _ same]

/-- Which ranges are dead rests on the ports and the list of dead ranges alone. -/
theorem copyFrames_plain {s : State} {src n : Nat} {dsts : List Nat} (live : ∀ f ∈ src :: dsts, s.cxlDeadIn f n = false) :
    (s.copyFrames src n dsts).mem = dsts.foldl (fun x f => if f = src then x else x.copy src f n) s.mem := by
  refine List.foldl_ext _ _ _ fun x f hf => ?_
  rw [State.copyFrame, live f (List.mem_cons_of_mem _ hf), live src List.mem_cons_self, Bool.or_false]
  by_cases self : f = src <;> simp [self]

/-- The state between the copy of a movement's frames and the marks of its end. -/
def State.moved (s : State) (i : Nat) (m : Movement) (e : HomeEntry) : State :=
  let s2 := (({ s.modHome i (fun h => { h with moving := none }) with agenda := m.stalled ++ s.agenda } : State)).copyFrames m.src (pageBytes e.big) m.dsts
  { s2 with mem := s2.mem.write e.leafPa 8 m.leaf }

theorem endMove_eq {s : State} {i : Nat} {m : Movement} {e : HomeEntry} (entry : m.entry { (s.site i).home with moving := none } = some e) :
    s.endMove i m = ((s.moved i m e).modEntry e (fun o => { o with leaf := BitVec.ofNat 64 m.leaf, moving := false })).hotBack e := by
  have listed : m.entry ((s.modHome i (fun h => { h with moving := none })).site i).home = some e := by
    rw [State.home_modHome_self]
    exact entry
  unfold State.endMove
  dsimp only
  rw [show m.entry (State.site { s.modHome i (fun h => { h with moving := none }) with agenda := m.stalled ++ s.agenda } i).home = some e from listed]
  rfl

theorem entry_named {h : Home} {m : Movement} {e : HomeEntry} (entry : m.entry h = some e) : e.asid = m.asid ∧ e.page = m.page ∧ e.big = m.big := by
  simpa [and_assoc] using List.find?_some entry

end Sys2Proof.Machine

namespace Sys2Proof.Proofs
open Sys2Proof.Machine

/-! ### Pins and hotness records (R313, R315) -/

theorem pinAndHotness : Sys2Proof.Rule.PinAndHotness := by
  intro s i k
  refine ⟨fun q rest waits => ?_, fun e held => ?_⟩
  · have admits : exec (.pinAdmit i) s = .next (if (s.site i).home.pinned + q.pages.length ≤ 4096 then
        s.modHome i (fun h => { h with pins := h.pins ++ [q], waiting := rest }) else s) := by
      rw [exec_pinAdmit, execPinAdmit, pinAdmit, waits]
    rw [admits]
    refine ⟨fun room => ⟨_, congrArg _ (if_pos room), rfl, ?_⟩, fun full => congrArg _ (if_neg (by omega))⟩
    exact State.site_modSite_self ..
  · rw [exec_hotnessWriteback, execHotnessWriteback, held]
    exact congrArg (fun b => Host.Outcome.next { s with mem := s.mem.writeBytes (e.leafPa + 0x2000) b }) (toBytes_eq_bytes 8 e.hot.toNat)

/-! ### The events of a movement (R320) -/

theorem movementEvents : Sys2Proof.Rule.MovementEvents := by
  intro s i poster va rest head reached op ev named
  have runs := exec_move s named
  dsimp only
  rw [runs]
  refine ⟨fun m moving => ⟨fun differs => ?_, fun same => congrArg _ (moveServe_ends head moving same)⟩,
    fun idle lost => congrArg _ (moveServe_unread head idle lost), fun t d idle read => ⟨fun shape => congrArg _ (moveServe_malformed head idle read shape),
      fun shape same => ?_⟩⟩
  · rw [moveServe_other head moving differs, orAsk_self reached]
  have starts (x : State) (step : t.moveStart i poster va d = x) :
      Host.Outcome.next (σ := State) (φ := Fault) (ρ := Refusal) (moveServe i op s) = .next (s.orAsk x) := by
    rw [moveServe_starts head idle read shape same, step]
  refine ⟨fun bad => starts _ (moveStart_outside bad), fun low aligned remote => ⟨fun r lv lost => starts _ (moveStart_absent low aligned remote lost),
    fun lost => starts _ (moveStart_full low aligned remote lost), fun u e lv found => ⟨fun bad => starts _
      (moveStart_misplaced low aligned remote found bad), fun whole home => ?_⟩⟩⟩
  have turned (st : Nat) (moves : op ≠ 4) (target : u.moveTarget op e (d.getD 2 0) (d.getD 3 0 % 4) = .error st) :=
    starts _ (moveStart_turned low aligned remote found whole home same moves target)
  have begins (m : Movement) (moves : op ≠ 4) (target : u.moveTarget op e (d.getD 2 0) (d.getD 3 0 % 4) = .ok m) :=
    starts _ (moveStart_begins low aligned remote found whole home same moves target)
  refine ⟨?_, ?_, ?_, ?_, ?_, ?_, ?_⟩
  · rintro rfl other
    exact turned 3 (by decide) (moveTarget_migrate_kind other)
  · rintro rfl kind
    exact ⟨fun bad => turned 2 (by decide) ((moveTarget_migrate kind).1 bad), fun good => begins _ (by decide) ((moveTarget_migrate kind).2 good)⟩
  · rintro rfl other
    exact turned 3 (by decide) (moveTarget_replicate_kind other)
  · rintro rfl kind small
    have target := moveTarget_replicate (s := u) (pa := d.getD 2 0) (kept := d.getD 3 0 % 4) kind small
    refine ⟨?_, fun bad => turned 2 (by decide) (target.1 bad), fun good => ?_⟩
    · rintro ⟨f, listed, bad⟩
      exact turned 2 (by decide) (target.1 (State.not_fits_of_frame listed bad))
    · have plan := begins _ (by decide) (target.2 good)
      rw [State.replicas, upTo_eq] at plan
      exact plan
  · rintro rfl other
    exact turned 3 (by decide) (moveTarget_collapse_kind other)
  · rintro rfl kind small
    have target := moveTarget_collapse (s := u) (pa := d.getD 2 0) (kept := d.getD 3 0 % 4) kind small
    exact ⟨fun bad => turned 2 (by decide) (target.1 bad), fun good => begins _ (by decide) (target.2 good)⟩
  · rintro rfl
    refine ⟨_, starts _ (moveStart_resets low aligned remote found whole home same), ?_, rfl⟩
    exact congrArg (u.mem.writeBytes _) (toBytes_eq_bytes ..)

/-! ### What the two events of a movement do (R321, R322) -/

theorem movementSteps : Sys2Proof.Rule.MovementSteps := by
  intro s i e m
  refine ⟨⟨mem_dropped _ s, ?_, fun f hf c l held => ?_, fun o listed same => ?_⟩, fun entry => ?_⟩
  · exact congrArg (fun x : Site => x.home.moving) (State.site_modSite_self ..)
  · exact (l1d_dropped held).2 f hf
  · rw [State.beginMove, site_setMoving] at listed
    obtain ⟨x, -, rfl⟩ := cache_modEntry (f := fun o => { o with moving := true }) listed same
    rfl
  · dsimp only
    intro live
    obtain ⟨space, page, size⟩ := entry_named entry
    rw [endMove_eq entry]
    have copied := copyFrames_plain (s := { s.modHome i (fun h => { h with moving := none }) with agenda := m.stalled ++ s.agenda })
      (src := m.src) (n := pageBytes e.big) (dsts := m.dsts) live
    refine ⟨space, page, size, rfl, ?_, fun home => ⟨?_, fun o listed same => ?_⟩⟩
    · calc _ = (((State.copyFrames _ m.src (pageBytes e.big) m.dsts).mem.write e.leafPa 8 m.leaf).write (hotPa e.leafPa) 8 e.hot.toNat) := rfl
        _ = _ := by
          rw [copied, Memory.write, Memory.write, toBytes_eq_bytes, toBytes_eq_bytes]
          rfl
    · have marked := congrArg (fun x : Site => x.home.moving)
        (State.site_modSite_self s i (fun x => { x with home := { x.home with moving := none } }))
      exact (moving_modEntry ..).trans marked
    · have here (t : State) : t.site i = t.site e.site := by
        simp only [State.site, home, Nat.mod_mod]
      rw [here] at listed
      obtain ⟨x, -, rfl⟩ := cache_modEntry (f := fun o => { o with leaf := BitVec.ofNat 64 m.leaf, moving := false }) listed same
      exact ⟨rfl, rfl⟩

/-! ### The statement -/

/-- Settles O51: each branch of the movement event is one equation of `moveServe`, `moveStart` or `moveTarget`; the two steps of a movement by what they
leave of memory, of the L1 lines and of the entry. -/
theorem pageEvents : Obligations.PageEvents := ⟨pinAndHotness, movementEvents, movementSteps⟩

end Sys2Proof.Proofs
end

section
/-! The commands of the managed heap (R340 to R345): the statement O52. -/

namespace Sys2Proof.Machine

/-! ### Serving the oldest command -/

section
variable {s t : State} {op poster va : Nat} {d : List Nat} {serve : Nat → Nat → List Nat → State → State}

theorem heapServe_unread {a v : Nat} {rest : List (Nat × Nat)} (lost : s.heapHead = none) (head : s.heapCmds = (a, v) :: rest) :
    heapServe op serve s = s.orAsk { s.devLeft a v 8 with heapCmds := rest } := by
  unfold heapServe State.attempt
  dsimp only
  rw [lost]
  dsimp only
  rw [head]

variable (head : s.heapHead = some (t, poster, va, d))
include head

theorem heapServe_malformed (shape : heapShape va d = false) : heapServe op serve s = s.orAsk (Spec.heapAnswer t poster va 2 0) := by
  unfold heapServe State.attempt
  dsimp only
  rw [head]
  dsimp only
  rw [shape]
  rfl

theorem heapServe_serves (shape : heapShape va d = true) (same : d.getD 0 0 % 4 = op) : heapServe op serve s = s.orAsk (serve poster va d t) := by
  unfold heapServe State.attempt
  dsimp only
  rw [head]
  dsimp only
  rw [shape, Bool.not_true, if_neg Bool.false_ne_true, if_neg (not_not.mpr same)]

end

/-! ### FLIP (R342) -/

section
variable {t : State} {poster va : Nat} {d : List Nat}

theorem flipServe_running (runs : t.cycle (d.getD 0 0 / 2 ^ 16 % 2 ^ 16) ≠ none) : flipServe poster va d t = Spec.heapAnswer t poster va 3 0 :=
  if_pos (Option.isSome_iff_ne_none.mpr runs)

variable (fresh : t.cycle (d.getD 0 0 / 2 ^ 16 % 2 ^ 16) = none)
include fresh

theorem flipServe_full (full : 8 ≤ t.cycles.length) : flipServe poster va d t = Spec.heapAnswer t poster va 6 0 := by
  unfold flipServe
  dsimp only [bitsOf]
  rw [fresh]
  exact if_pos full

variable (room : t.cycles.length < 8)
include room

theorem flipServe_setLost (lost : t.devReads poster (d.getD 1 0) (d.getD 2 0) = none) :
    flipServe poster va d t = Spec.heapAnswer (t.devLeft poster (d.getD 1 0) (d.getD 2 0)) poster va 5 0 := by
  unfold flipServe
  dsimp only [bitsOf]
  rw [fresh, Option.isSome_none, if_neg Bool.false_ne_true, if_neg (by omega), lost]
  rfl

variable {t1 : State} {sl : List Nat} (set : t.devReads poster (d.getD 1 0) (d.getD 2 0) = some (t1, sl))
include set

theorem flipServe_listLost (lost : t1.devReads poster (d.getD 3 0) (2 * d.getD 4 0) = none) :
    flipServe poster va d t = Spec.heapAnswer (t1.devLeft poster (d.getD 3 0) (2 * d.getD 4 0)) poster va 5 0 := by
  unfold flipServe
  dsimp only [bitsOf]
  rw [fresh, Option.isSome_none, if_neg Bool.false_ne_true, if_neg (by omega), set]
  dsimp only
  rw [lost]
  rfl

/-- The cycle that a FLIP asks for, with the lists that it has read. -/
def flipCycle (poster : Nat) (d sl cl : List Nat) : Cycle :=
  { asid := d.getD 0 0 / 2 ^ 16 % 2 ^ 16, poster, stage := .flipped, retained := []
    set := (sl.map (fun e => e / 2 * 2)).zip ((List.range (d.getD 2 0)).map (fun j => d.getD 1 0 + 8 * j))
    fwd := (pairsOf cl).map (fun p => (p.1, p.2, FwdState.pending)) }

/-- The other colour on every core that runs an address space, with a new cycle (R342). -/
def State.flipped (s : State) (asid : Nat) (c : Cycle) (colour : Bool) : State :=
  State.mapCores { s.modSpace asid (fun p => { p with colour }) with cycles := s.cycles ++ [c] }
    (fun k => if k.u.as = asid then { k with heapphase := colour } else k)

variable {t2 : State} {cl : List Nat} (list : t1.devReads poster (d.getD 3 0) (2 * d.getD 4 0) = some (t2, cl))
include list

theorem flipServe_checked : flipServe poster va d t =
    if !(sl.all (fun e => e / 2 * 2 % 2 ^ 16 == 0 && e < 2 ^ 56)) || !t2.flipOk (flipCycle poster d sl cl) then Spec.heapAnswer t2 poster va 4 0
    else Spec.heapAnswer (t2.flipped (d.getD 0 0 / 2 ^ 16 % 2 ^ 16) (flipCycle poster d sl cl)
      (!(((t2.space (d.getD 0 0 / 2 ^ 16 % 2 ^ 16)).map (·.colour)).getD false))) poster va 1 0 := by
  unfold flipServe
  dsimp only [bitsOf]
  rw [fresh, Option.isSome_none, if_neg Bool.false_ne_true, if_neg (by omega), set]
  dsimp only
  rw [list, upTo_eq]
  rfl

end

/-- A field of an address space that is changed shows the change. -/
theorem space_modSpace {s : State} {asid : Nat} {sp : Space} {f : Space → Space} (keeps : ∀ p, (f p).asid = p.asid) (bound : s.space asid = some sp) :
    (s.modSpace asid f).space asid = some (f sp) := by
  have same (p : Space) : ((if p.asid = asid then f p else p).asid == asid) = (p.asid == asid) := by
    split
    · rw [keeps]
    · rfl
  have found := bound
  rw [State.space] at found
  have named : sp.asid = asid := beq_iff_eq.mp (List.find?_some (p := fun p : Space => p.asid == asid) found)
  rw [State.modSpace, State.space, List.find?_map, Function.comp_def]
  simp only [same]
  rw [found]
  exact congrArg some (if_pos named)

/-! ### COPY (R344) -/

section
variable {t : State} {poster va : Nat} {d : List Nat}

theorem copyServe_unready (none : ∀ c, t.cycle (d.getD 0 0 / 2 ^ 16 % 2 ^ 16) = some c → c.stage = .copied) :
    copyServe poster va d t = Spec.heapAnswer t poster va 3 0 := by
  unfold copyServe
  dsimp only [bitsOf]
  cases found : t.cycle (d.getD 0 0 / 2 ^ 16 % 2 ^ 16) with
  | none => rfl
  | some c => exact if_pos (by rw [none c found]; decide)

variable {c c1 : Cycle} (found : t.cycle (d.getD 0 0 / 2 ^ 16 % 2 ^ 16) = some c) (stage : c.stage = .flipped)
  (after : (t.copyRun (d.getD 0 0 / 2 ^ 16 % 2 ^ 16) c.fwd).cycle (d.getD 0 0 / 2 ^ 16 % 2 ^ 16) = some c1)
include found stage after

theorem copyServe_goesOn (left : Spec.inState c1 .pending ≠ 0) : copyServe poster va d t = t.copyRun (d.getD 0 0 / 2 ^ 16 % 2 ^ 16) c.fwd := by
  unfold copyServe
  dsimp only [bitsOf]
  rw [found]
  dsimp only
  rw [if_neg (not_not.mpr stage), after]
  exact if_pos left

theorem copyServe_ends (ended : Spec.inState c1 .pending = 0) : copyServe poster va d t =
    Spec.heapAnswer ((t.copyRun (d.getD 0 0 / 2 ^ 16 % 2 ^ 16) c.fwd).modCycle (d.getD 0 0 / 2 ^ 16 % 2 ^ 16) (fun c => { c with stage := .copied }))
      poster va 1 (Spec.inState c1 .copied + min 0xFFFF (Spec.inState c1 .skipped) * 2 ^ 32 + min 0xFFFF c1.retained.length * 2 ^ 48) := by
  unfold copyServe
  dsimp only [bitsOf]
  rw [found]
  dsimp only
  rw [if_neg (not_not.mpr stage), after]
  exact if_neg (not_not.mpr ended)

end

theorem copyRun_stops {s : State} {asid : Nat} {e : Nat × Nat × FwdState} {rest : List (Nat × Nat × FwdState)} (waits : s.forward asid e.1 = none) :
    s.copyRun asid (e :: rest) = s := by
  rw [State.copyRun, waits]

theorem copyRun_next {s u : State} {asid n : Nat} {e : Nat × Nat × FwdState} {rest : List (Nat × Nat × FwdState)}
    (goes : s.forward asid e.1 = some (u, n)) (reached : u.blocked = false) : s.copyRun asid (e :: rest) = u.copyRun asid rest := by
  rw [State.copyRun, goes]
  dsimp only
  rw [reached, if_neg Bool.false_ne_true]

/-- Only before a cycle's first copy do the L1 lines of its set pages leave. -/
theorem clearSetL1_later {s : State} {c : Cycle} (later : ∃ e ∈ c.fwd, e.2.2 ≠ .pending) : s.clearSetL1 c = s :=
  if_pos (List.any_eq_true.mpr (later.imp fun _ h => ⟨h.1, bne_iff_ne.mpr h.2⟩))

section
variable {s t : State} {c : Cycle} {old new lv : Nat} {e : HomeEntry} (later : ∃ e ∈ c.fwd, e.2.2 ≠ .pending)
  (found : s.homeEntry c.asid old = .ok (t, e, lv))
include later found

theorem relocate_pinned (pinned : 0 < e.hpin) : s.relocate c old new = some (t.retain c old) := by
  unfold State.relocate
  dsimp only
  rw [clearSetL1_later later, found]
  exact if_pos pinned

/-- The length of the object at `old`, in whole doublewords. -/
def State.moveLength (t : State) (asid old : Nat) (e : HomeEntry) : Nat :=
  (objLength t.mem (t.framePlace (deviceWho asid 0 .look) old e).key + 7) / 8 * 8

theorem relocate_unpinned (free : e.hpin = 0) : s.relocate c old new =
    if !t.freshRange c (t.moveLength c.asid old e / 0x1_0000 + 2) new (t.moveLength c.asid old e) then some (t.retain c old)
    else if t.rangeMoving c.asid old (old + t.moveLength c.asid old e) || t.rangeMoving c.asid new (new + t.moveLength c.asid old e) then none
    else (t.copyObject (deviceWho c.asid 0 .look) (t.moveLength c.asid old e / 0x8000 + 4) old new (t.moveLength c.asid old e)).map
      (fun u => u.modCycle c.asid (fun c => c.mark old .copied)) := by
  unfold State.relocate
  dsimp only
  rw [clearSetL1_later later, found]
  dsimp only
  rw [if_neg (by omega)]
  rfl

end

/-! ### FREE (R345) -/

section
variable {t : State} {poster va : Nat} {d : List Nat}

theorem freeServe_unready (none : ∀ c, t.cycle (d.getD 0 0 / 2 ^ 16 % 2 ^ 16) = some c → c.stage = .flipped) :
    freeServe poster va d t = Spec.heapAnswer t poster va 3 0 := by
  unfold freeServe
  dsimp only [bitsOf]
  cases found : t.cycle (d.getD 0 0 / 2 ^ 16 % 2 ^ 16) with
  | none => rfl
  | some c => exact if_pos (by rw [none c found]; decide)

/-- A page is pinned or is being moved. -/
def State.pageHeld (s : State) (asid p : Nat) : Bool :=
  match s.walk asid p with
  | .leaf _ _ big _ => s.rangePinned asid p (p + pageBytes big) || s.rangeMoving asid p (p + pageBytes big)
  | .np _ _ => false

theorem pageHeld_iff {s : State} {asid p : Nat} : s.pageHeld asid p = true ↔ ∃ l pa big lv, s.walk asid p = .leaf l pa big lv ∧
    (s.rangePinned asid p (p + pageBytes big) = true ∨ s.rangeMoving asid p (p + pageBytes big) = true) := by
  unfold State.pageHeld
  cases s.walk asid p with
  | leaf l pa big lv =>
    refine (Bool.or_eq_true _ _).to_iff.trans ⟨fun held => ⟨l, pa, big, lv, rfl, held⟩, ?_⟩
    rintro ⟨l, pa, big, lv, ⟨⟩, held⟩
    exact held
  | np => simp

/-- The pages that a cycle does not retain. -/
def Cycle.freed (c : Cycle) : List Nat := (c.set.map (·.1)).filter (fun p => !c.retained.contains p)

variable {c : Cycle} (found : t.cycle (d.getD 0 0 / 2 ^ 16 % 2 ^ 16) = some c) (stage : c.stage = .copied)
include found stage

theorem freeServe_copied : freeServe poster va d t =
    (let asid := d.getD 0 0 / 2 ^ 16 % 2 ^ 16
    let t0 := t.touchSpills asid
    if t0.freeWaits c || c.freed.any (t0.pageHeld asid) then t0
    else
      let t1 := c.freed.foldl (Spec.freePage asid) t0
      Spec.heapAnswer { t1 with cycles := t1.cycles.filter (fun o => o.asid != asid) } poster va 1 c.freed.length) := by
  have page : (fun (t : State) p => match t.walk (d.getD 0 0 / 2 ^ 16 % 2 ^ 16) p with
      | .leaf l pa big _ =>
        let t1 := t.dropRange (d.getD 0 0 / 2 ^ 16 % 2 ^ 16) p (p + pageBytes big)
        { t1 with mem := t1.mem.write pa 8 (l % 2 ^ 63) }
      | .np _ _ => t) = Spec.freePage (d.getD 0 0 / 2 ^ 16 % 2 ^ 16) := by
    funext t p
    unfold Spec.freePage
    cases t.walk (d.getD 0 0 / 2 ^ 16 % 2 ^ 16) p with
    | leaf l pa big lv =>
      dsimp only
      rw [Memory.write, toBytes_eq_bytes]
    | np => rfl
  unfold freeServe
  dsimp only [bitsOf]
  rw [found]
  dsimp only
  rw [if_neg (not_not.mpr stage), ← page]
  rfl

end

end Sys2Proof.Machine

namespace Sys2Proof.Proofs
open Sys2Proof.Machine

/-- The three commands of the heap, each served under its OP. -/
theorem exec_heap (s : State) : exec .flip s = .next (heapServe 1 flipServe s) ∧ exec .copy s = .next (heapServe 2 copyServe s) ∧
    exec .free s = .next (heapServe 3 freeServe s) := ⟨rfl, rfl, rfl⟩

/-- Each of the three is a service of the oldest command. -/
theorem exec_heap_serves {ev : Instr} (s : State) (named : ev ∈ [Instr.flip, .copy, .free]) : ∃ op serve, exec ev s = .next (heapServe op serve s) := by
  simp only [List.mem_cons, List.not_mem_nil, or_false] at named
  obtain ⟨flips, copies, frees⟩ := exec_heap s
  obtain rfl | rfl | rfl := named
  · exact ⟨_, _, flips⟩
  · exact ⟨_, _, copies⟩
  · exact ⟨_, _, frees⟩

/-- Settles O52: a command is served by one equation of `flipServe`, `copyServe` or `freeServe` for each of its outcomes. -/
theorem wedgerEvents : Obligations.WedgerEvents := by
  intro s t poster va d
  refine ⟨fun lost ev named a v rest waits => ?_, fun head => ⟨fun shape ev named => ?_, fun shape => ⟨fun flip => ?_, fun copy => ?_, fun free => ?_⟩⟩⟩
  · obtain ⟨op, serve, runs⟩ := exec_heap_serves s named
    rw [runs, heapServe_unread lost waits]
  · obtain ⟨op, serve, runs⟩ := exec_heap_serves s named
    rw [runs, heapServe_malformed head shape]
  · have runs (x : State) (served : flipServe poster va d t = x) : exec .flip s = .next (s.orAsk x) := by
      rw [(exec_heap s).1, heapServe_serves head shape flip, served]
    refine ⟨fun cycle => runs _ (flipServe_running cycle), fun fresh full => runs _ (flipServe_full fresh full),
      fun fresh room lost => runs _ (flipServe_setLost fresh room lost), fun t1 sl fresh room set lost => runs _ (flipServe_listLost fresh room set lost),
      fun t1 t2 sl cl fresh room set list => ?_⟩
    have checked := flipServe_checked (va := va) fresh room set list
    refine ⟨fun bad => runs _ (checked.trans (if_pos ?_)), fun good sp bound => ?_⟩
    · by_contra fits
      exact bad ⟨fun e he => by simp at fits; simpa using fits.1 e he, by simp at fits; exact fits.2⟩
    · obtain ⟨pages, ok⟩ := good
      have colour : (((t2.space (d.getD 0 0 / 2 ^ 16 % 2 ^ 16)).map (·.colour)).getD false) = sp.colour := by rw [bound]; rfl
      rw [if_neg (by simpa using ⟨pages, ok⟩), colour] at checked
      refine ⟨_, runs _ checked, rfl, rfl, ?_, rfl⟩
      exact space_modSpace (f := fun p => { p with colour := !sp.colour }) (fun p => rfl) bound
  · have runs (x : State) (served : copyServe poster va d t = x) : exec .copy s = .next (s.orAsk x) := by
      rw [(exec_heap s).2.1, heapServe_serves head shape copy, served]
    refine ⟨fun unready => runs _ (copyServe_unready unready), fun c c1 found stage after => ⟨fun left => runs _ (copyServe_goesOn found stage after left),
      fun ended => runs _ (copyServe_ends found stage after ended)⟩, fun e rest => ⟨fun waits => copyRun_stops waits,
      fun u n goes reached => copyRun_next goes reached⟩, fun c old new t1 e lv space later found => ?_⟩
    rw [← space] at found ⊢
    have moves (free : e.hpin = 0) := relocate_unpinned (new := new) later found free
    refine ⟨fun pinned => relocate_pinned later found pinned, fun free stale => ?_, fun free fresh moving => ?_, fun free fresh still => ?_⟩
    · exact (moves free).trans (if_pos (by simpa [State.moveLength] using stale))
    · exact (moves free).trans ((if_neg (by simpa [State.moveLength] using fresh)).trans (if_pos (by simpa [State.moveLength] using moving)))
    · exact (moves free).trans ((if_neg (by simpa [State.moveLength] using fresh)).trans (if_neg (by simpa [State.moveLength] using still)))
  · have runs (x : State) (served : freeServe poster va d t = x) : exec .free s = .next (s.orAsk x) := by
      rw [(exec_heap s).2.2, heapServe_serves head shape free, served]
    refine ⟨fun unready => runs _ (freeServe_unready unready), fun c found stage => ?_⟩
    have copied := freeServe_copied (poster := poster) (va := va) found stage
    have held : c.freed.any ((t.touchSpills (d.getD 0 0 / 2 ^ 16 % 2 ^ 16)).pageHeld (d.getD 0 0 / 2 ^ 16 % 2 ^ 16)) = true ↔ _ :=
      List.any_eq_true.trans (exists_congr fun p => and_congr_right fun _ => pageHeld_iff)
    refine ⟨fun waits => runs _ (copied.trans (if_pos ?_)), fun clear apart => runs _ (copied.trans (if_neg ?_))⟩
    · exact (Bool.or_eq_true _ _).mpr (waits.imp_right held.mpr)
    · exact fun busy => ((Bool.or_eq_true _ _).mp busy).elim (fun h => absurd (clear.symm.trans h) (by decide)) (fun h => apart (held.mp h))

end Sys2Proof.Proofs
end

section
/-! Attestation, capture, replay and the registers of BAR 0 (R379, R400 to R406): the statement O55. -/

namespace Sys2Proof.Machine

/-! ### Attestation (R401) -/

section
variable {s : State} {a : Nat}

theorem attestRequest_ignored (held : s.mgmt.booted = false ∨ s.mgmt.attReq ≠ none) : attestRequest a s = s := by
  refine if_pos ?_
  rw [Bool.or_eq_true, Bool.not_eq_true', Option.isSome_iff_ne_none]
  exact held

variable (booted : s.mgmt.booted = true) (idle : s.mgmt.attReq = none)
include booted idle

theorem attestRequest_window (early : s.mgmt.phase ≤ 3) :
    attestRequest a s = { s with mgmt := { s.mgmt with attArea := a, attReq := some (true, a, s.windowNonce) } } := by
  refine (if_neg (by simp [booted, idle])).trans (if_pos early)

theorem attestRequest_late (late : 3 < s.mgmt.phase) : attestRequest a s =
    if a % 64 ≠ 0 || a + 4096 > s.hbmEnd then { s with mgmt := { s.mgmt with attArea := a, attResult := 1 } }
    else if s.mem.poisoned a 32 then { s with mgmt := { s.mgmt with attArea := a, attResult := 2 } }
    else { s with mgmt := { s.mgmt with attArea := a, attReq := some (false, a, s.mem.bytes a 32) } } :=
  (if_neg (by simp [booted, idle])).trans (if_neg (by omega))

theorem attestRequest_badArea (late : 3 < s.mgmt.phase) (bad : a % 64 ≠ 0 ∨ s.hbmEnd < a + 4096) :
    attestRequest a s = { s with mgmt := { s.mgmt with attArea := a, attResult := 1 } } :=
  (attestRequest_late booted idle late).trans (if_pos (by simpa using bad))

variable (late : 3 < s.mgmt.phase) (aligned : a % 64 = 0) (inside : a + 4096 ≤ s.hbmEnd)
include late aligned inside

theorem attestRequest_poisoned (bad : s.mem.poisoned a 32 = true) :
    attestRequest a s = { s with mgmt := { s.mgmt with attArea := a, attResult := 2 } } :=
  (attestRequest_late booted idle late).trans ((if_neg (by simp [aligned, inside])).trans (if_pos bad))

theorem attestRequest_starts (good : s.mem.poisoned a 32 = false) :
    attestRequest a s = { s with mgmt := { s.mgmt with attArea := a, attReq := some (false, a, s.mem.bytes a 32) } } :=
  (attestRequest_late booted idle late).trans ((if_neg (by simp [aligned, inside])).trans (if_neg (by simp [good])))

end

/-- RESULT of a report that has been written (R399, R401). -/
def State.attResult (s : State) : Nat := if s.flash.image = none then 3 else 0

theorem attResult_eq (s : State) : (if s.flash.image.isSome then 0 else 3) = s.attResult := by
  unfold State.attResult
  cases s.flash.image <;> rfl

theorem attestStep_idle {s : State} (idle : s.mgmt.attReq = none) : attestStep s = s := by
  rw [attestStep, idle]

theorem attestStep_window {s : State} {a : Nat} {nonce : List Byte} (asked : s.mgmt.attReq = some (true, a, nonce)) : attestStep s =
    { s with mgmt := { s.mgmt with
      attReq := none, attResult := s.attResult, window := s.windowNonce ++ List.replicate 32 0 ++ s.report nonce } } := by
  rw [attestStep, asked, ← attResult_eq]
  rfl

/-- The report goes to its area, and nothing but caches of lines differs beside it. -/
theorem attestStep_area {s : State} {a : Nat} {nonce : List Byte} (asked : s.mgmt.attReq = some (false, a, nonce)) :
    (attestStep s).mem = s.mem.writeBytes (a + 0x40) (s.report nonce) ∧
    (attestStep s).mgmt = { s.mgmt with attReq := none, attResult := s.attResult } ∧
    OnlyCaches s { attestStep s with mem := s.mem, mgmt := s.mgmt } := by
  have caches := State.performHome_onlyCaches { s with mgmt := { s.mgmt with attReq := none } } (a + 0x40) 3840 true
  have mgmt := congrArg State.mgmt caches.1
  have step : attestStep s = { State.performHome { s with mgmt := { s.mgmt with attReq := none } } (a + 0x40) 3840 true with
      mem := s.mem.writeBytes (a + 0x40) (s.report nonce),
      mgmt := { (State.performHome { s with mgmt := { s.mgmt with attReq := none } } (a + 0x40) 3840 true).mgmt with attResult := s.attResult } } := by
    rw [attestStep, asked, ← attResult_eq]
    rfl
  rw [step]
  refine ⟨rfl, ?_, ?_, fun c => caches.2 c⟩
  · exact congrArg (fun g : Mgmt => { g with attResult := s.attResult }) mgmt
  · exact congrArg (fun t : State => { t with mem := s.mem, mgmt := s.mgmt }) caches.1

/-! ### Capture and replay (R403 to R406) -/

/-- A change of mode is measured by register 5 (R400, R403). -/
theorem setCapMode_new {s : State} {mode : Nat} (other : s.mgmt.capMode ≠ mode) : s.setCapMode mode = { s with mgmt := { s.mgmt with
    capMode := mode, capStall := false, measure := s.mgmt.measure.set 5 (Spec.modeMeasure s mode) } } := by
  rw [State.setCapMode, if_neg other, Spec.modeMeasure, ← toBytes_eq_bytes, ← toBytes_eq_bytes]
  rfl

/-- What a change of mode leaves in the management unit. -/
theorem setCapMode_mgmt (s : State) (mode : Nat) : s.setCapMode mode = { s with mgmt := (s.setCapMode mode).mgmt } ∧
    (s.setCapMode mode).mgmt.capMode = mode ∧
    (s.mgmt.capMode ≠ mode → (s.setCapMode mode).mgmt.capStall = false ∧ (s.setCapMode mode).mgmt.measure[5] = Spec.modeMeasure s mode) := by
  by_cases same : s.mgmt.capMode = mode
  · rw [State.setCapMode, if_pos same]
    exact ⟨rfl, same, fun other => absurd same other⟩
  · rw [setCapMode_new same]
    exact ⟨rfl, rfl, fun _ => ⟨rfl, Vector.getElem_set_self _⟩⟩

theorem captureModeOff_bound {s : State} (bound : s.spaces ≠ []) : captureModeOff s = Spec.capRefused s 1 :=
  if_pos (by simpa using bound)

theorem captureModeOff_ends {s : State} (none : s.spaces = []) :
    captureModeOff s = { s with mgmt := { (s.setCapMode 0).mgmt with capResult := 0 } } := by
  rw [captureModeOff, if_neg (by simp [none]), (setCapMode_mgmt s 0).1]

/-- A mode of capture has begun on a ring. -/
def State.Capturing (s t : State) (mode ring logn : Nat) : Prop :=
  t = { s with mgmt := t.mgmt } ∧ t.mgmt.capMode = mode ∧ t.mgmt.capResult = 0 ∧ t.mgmt.capRing = ring ∧ t.mgmt.capLogn = logn ∧ t.mgmt.capPos = 0 ∧
    (s.mgmt.capMode ≠ mode → t.mgmt.capStall = false ∧ t.mgmt.measure[5] = Spec.modeMeasure s mode)

theorem capStart_capturing (s : State) (mode ring logn : Nat) : s.Capturing (s.capStart mode ring logn) mode ring logn := by
  obtain ⟨rest, capMode, changed⟩ := setCapMode_mgmt s mode
  refine ⟨?_, capMode, rfl, rfl, rfl, rfl, changed⟩
  rw [State.capStart, rest]

section
variable {s : State} {ring logn : Nat}

theorem captureModeOn_early (early : s.mgmt.ready = false) : captureModeOn ring logn s = s := if_pos (by rw [early]; rfl)

theorem replayModeOn_early (early : s.mgmt.ready = false) : replayModeOn ring logn s = s := if_pos (by rw [early]; rfl)

variable (ready : s.mgmt.ready = true)
include ready

theorem captureModeOn_bound (bound : s.spaces ≠ []) : captureModeOn ring logn s = Spec.capRefused s 1 :=
  (if_neg (by simp [ready])).trans (if_pos (by simpa using bound))

theorem replayModeOn_bound (bound : s.spaces ≠ []) : replayModeOn ring logn s = Spec.capRefused s 1 :=
  (if_neg (by simp [ready])).trans (if_pos (by simpa using bound))

variable (none : s.spaces = [])
include none

theorem captureModeOn_badRing (bad : s.ringBad ring logn = true) : captureModeOn ring logn s = Spec.capRefused s 4 :=
  (if_neg (by simp [ready])).trans ((if_neg (by simp [none])).trans (if_pos bad))

theorem replayModeOn_badRing (bad : s.ringBad ring logn = true) : replayModeOn ring logn s = Spec.capRefused s 4 :=
  (if_neg (by simp [ready])).trans ((if_neg (by simp [none])).trans (if_pos bad))

variable (good : s.ringBad ring logn = false)
include good

theorem captureModeOn_starts : captureModeOn ring logn s = s.capStart 1 ring logn :=
  (if_neg (by simp [ready])).trans ((if_neg (by simp [none])).trans (if_neg (by simp [good])))

/-- A replay asks whether the capture is of another grade, and whether its cores live (R403). -/
theorem replayModeOn_checks : replayModeOn ring logn s =
    if Config.freeBool s.free then Spec.capRefused { s with free := s.free + 1 } 3
    else if (s.ringChoices ring logn).any (fun d => (choiceCores d).any (fun c => !s.live c)) then Spec.capRefused { s with free := s.free + 1 } 2
    else State.capStart { s with free := s.free + 1 } 2 ring logn :=
  (if_neg (by simp [ready])).trans ((if_neg (by simp [none])).trans (if_neg (by simp [good])))

end

/-- A core that a choice of the ring names is not live. -/
theorem choices_absent {s : State} {ring logn : Nat} : (s.ringChoices ring logn).any (fun d => (choiceCores d).any (fun c => !s.live c)) = true ↔
    ∃ x ∈ s.ringChoices ring logn, ∃ c ∈ choiceCores x, s.live c = false := by
  simp

theorem captureRingSpace_room {s : State} (room : s.capRoom 1 = true) : captureRingSpace s = { s with mgmt := { s.mgmt with capStall := false } } := by
  rw [captureRingSpace, room, Bool.and_true]
  by_cases stalled : s.mgmt.capStall = true
  · rw [if_pos stalled]
  · rw [if_neg stalled, ← Bool.eq_false_iff.mpr stalled]

section
variable {s : State} {asid queue record : Nat}

theorem replayForceTimeout_none (early : s.mgmt.capMode ≠ 2 ∨ s.time.toNat < s.mgmt.capSince + 100000000 ∨ s.replayNext = none) :
    replayForceTimeout asid queue record s = s := by
  have none : s.lateChoice = none := by
    rw [State.lateChoice]
    split
    · rfl
    · rename_i late
      rw [Bool.or_eq_true, decide_eq_true_eq, decide_eq_true_eq, State.now] at late
      exact (early.resolve_left fun h => late (.inl h)).resolve_left fun h => late (.inr h)
  rw [replayForceTimeout, none]

theorem replayForceTimeout_late {d : List Nat} (replay : s.mgmt.capMode = 2) (next : s.replayNext = some d)
    (late : s.mgmt.capSince + 100000000 ≤ s.time.toNat) : replayForceTimeout asid queue record s =
      (s.setCapMode 0).event ((s.choiceOf d).getD (asid, queue, record)).1 8 (((s.choiceOf d).getD (asid, queue, record)).2.1 % 64)
        ((s.choiceOf d).getD (asid, queue, record)).2.2 s.mgmt.capPos := by
  have due : s.lateChoice = some d := by
    rw [State.lateChoice, if_neg ?_, next]
    rw [Bool.or_eq_true, decide_eq_true_eq, decide_eq_true_eq, State.now]
    omega
  rw [replayForceTimeout, due]

end

/-! ### The registers (R379, R380, R403) -/

section
variable {s : State} {v o : Nat}

theorem registerWrite_log (may : s.mgmt.booted = false ∨ s.flash.image ≠ none) : registerWrite 0x208 v s =
    { s with mgmt := { s.mgmt with logReg := BitVec.ofNat 64 (v % 2 ^ 48), logPos := 0 } } := by
  have low : v % 2 ^ 64 % 2 ^ 48 = v % 2 ^ 48 := Nat.mod_mod_of_dvd _ (by decide)
  have runs : ¬(decide (0x208 = 0x208) && s.mgmt.booted && s.flash.image.isNone) = true := by
    rintro bad
    simp only [decide_true, Bool.true_and, Bool.and_eq_true, Option.isNone_iff_eq_none] at bad
    exact may.elim (fun h => absurd (h.symm.trans bad.1) (by decide)) fun h => h bad.2
  unfold registerWrite
  dsimp only
  rw [if_neg (by decide), if_neg runs, if_pos rfl, low]

theorem registerWrite_log_unimaged (booted : s.mgmt.booted = true) (none : s.flash.image = none) : registerWrite 0x208 v s = s := by
  have unimaged : (decide (0x208 = 0x208) && s.mgmt.booted && s.flash.image.isNone) = true := by
    rw [booted, none]
    rfl
  unfold registerWrite
  dsimp only
  rw [if_neg (by decide), if_pos unimaged]

theorem registerWrite_other (log : o ≠ 0x208) (cap : o ≠ 0x228) (outside : o < 0x1000 ∨ 0x1020 ≤ o) : registerWrite o v s = s := by
  refine (if_neg cap).trans ((if_neg (by simp [log])).trans ((if_neg log).trans (if_neg ?_)))
  simp only [Bool.and_eq_true, decide_eq_true_eq]
  omega

/-- The report window with a doubleword of its nonce written. -/
def State.nonceWritten (s : State) (j v : Nat) : List Byte :=
  s.windowNonce.take (8 * j) ++ toBytes 8 (v % 2 ^ 64) ++ s.windowNonce.drop (8 * j + 8) ++ s.mgmt.window.drop 32

theorem registerWrite_window {j : Nat} (low : j < 4) (booted : s.mgmt.booted = true) :
    registerWrite (0x1000 + 8 * j) v s = { s with mgmt := { s.mgmt with window := s.nonceWritten j v } } := by
  have offset : 0x1000 + 8 * j - 0x1000 = 8 * j := by omega
  have inside : (decide (0x1000 ≤ 0x1000 + 8 * j) && decide (0x1000 + 8 * j < 0x1020) && decide ((0x1000 + 8 * j) % 8 = 0) && s.mgmt.booted) = true := by
    simp only [booted, Bool.and_true, Bool.and_eq_true, decide_eq_true_eq]
    omega
  have log : ¬(decide (0x1000 + 8 * j = 0x208) && s.mgmt.booted && s.flash.image.isNone) = true := by
    simp only [Bool.and_eq_true, decide_eq_true_eq]
    omega
  refine (if_neg (by omega)).trans ((if_neg log).trans ((if_neg (by omega)).trans ((if_pos inside).trans ?_)))
  rw [State.nonceWritten, offset]

theorem length_windowNonce (s : State) : s.windowNonce.length = 32 := by
  rw [State.windowNonce, List.length_take, List.length_append, List.length_replicate]
  omega

theorem getElem?_windowNonce {i : Nat} (low : i < 32) : s.windowNonce[i]? = some (s.mgmt.window.getD i 0) := by
  rw [State.windowNonce, List.getElem?_take_of_lt low, List.getElem?_append, List.getElem?_replicate, List.getD_eq_getElem?_getD]
  by_cases held : i < s.mgmt.window.length
  · rw [if_pos held, List.getElem?_eq_getElem held, Option.getD_some]
  · rw [if_neg held, if_pos (by omega), List.getElem?_eq_none (by omega), Option.getD_none]

theorem nonceWritten_keeps {j : Nat} (low : j < 4) : (s.nonceWritten j v).drop 32 = s.mgmt.window.drop 32 := by
  refine List.drop_left' ?_
  rw [List.length_append, List.length_append, List.length_take, List.length_drop, length_toBytes, length_windowNonce]
  omega

theorem getElem?_nonceWritten {i j : Nat} (low : j < 4) (inside : i < 32) : (s.nonceWritten j v)[i]? =
    if 8 * j ≤ i ∧ i < 8 * j + 8 then (Spec.bytes 8 v)[i - 8 * j]? else some (s.mgmt.window.getD i 0) := by
  have first : (s.windowNonce.take (8 * j)).length = 8 * j := by rw [List.length_take, length_windowNonce]; omega
  have word : toBytes 8 (v % 2 ^ 64) = Spec.bytes 8 v := by
    rw [toBytes_eq_bytes]
    refine List.map_congr_left fun k hk => ?_
    have small : k < 8 := List.mem_range.mp hk
    refine BitVec.eq_of_toNat_eq ?_
    rw [BitVec.toNat_ofNat, BitVec.toNat_ofNat]
    interval_cases k <;> omega
  have all : (s.windowNonce.take (8 * j) ++ Spec.bytes 8 v).length = 8 * j + 8 := by
    rw [List.length_append, first, ← word, length_toBytes]
  rw [State.nonceWritten, word, List.getElem?_append_left (by rw [List.length_append, all, List.length_drop, length_windowNonce]; omega)]
  by_cases before : i < 8 * j
  · rw [if_neg (by omega), List.append_assoc, List.getElem?_append_left (by omega), List.getElem?_take_of_lt before, getElem?_windowNonce inside]
  · by_cases within : i < 8 * j + 8
    · rw [if_pos (by omega), List.getElem?_append_left (by omega), List.getElem?_append_right (by omega), first]
    · rw [if_neg (by omega), List.getElem?_append_right (by omega), all, List.getElem?_drop, show 8 * j + 8 + (i - (8 * j + 8)) = i by omega,
        getElem?_windowNonce inside]

end

/-- A write of CAPCTL is told by its MODE field (R403). -/
theorem registerWrite_capctl {s : State} {v : Nat} (word : v < 2 ^ 64) : registerWrite 0x228 v s = capctlWrite v s := by
  unfold registerWrite
  dsimp only
  rw [if_pos rfl, Nat.mod_eq_of_lt word]

section
variable {s : State} {v : Nat}

theorem capctlWrite_off (mode : v / 2 ^ 62 = 0) : capctlWrite v s =
    if !s.spaces.isEmpty || !s.mgmt.ready then captureModeOff s
    else { captureModeOff s with mgmt := { (captureModeOff s).mgmt with capRing := v / 2 ^ 6 % 2 ^ 42 * 64, capLogn := v % 64 } } := by
  unfold capctlWrite
  rw [mode]
  rfl

theorem capctlWrite_on (mode : v / 2 ^ 62 = 1) : capctlWrite v s = captureModeOn (v / 2 ^ 6 % 2 ^ 42 * 64) (v % 64) s := by
  unfold capctlWrite
  rw [mode]
  rfl

theorem capctlWrite_replay (mode : v / 2 ^ 62 = 2) : capctlWrite v s = replayModeOn (v / 2 ^ 6 % 2 ^ 42 * 64) (v % 64) s := by
  unfold capctlWrite
  rw [mode]
  rfl

theorem capctlWrite_ignored (mode : v / 2 ^ 62 = 3) : capctlWrite v s = s := by
  unfold capctlWrite
  rw [mode]
  rfl

end

end Sys2Proof.Machine

namespace Sys2Proof.Proofs
open Sys2Proof.Machine

/-- Capture or replay is turned on, or refused (R403). -/
theorem captureOn (s : State) (port a b : Nat) (i : Instr) (m : Nat)
    (named : (i = .captureModeOn port a b ∧ m = 1) ∨ (i = .replayModeOn port a b ∧ m = 2)) :
    (s.mgmt.ready = false → exec i s = .next s) ∧
    (s.mgmt.ready = true → s.spaces ≠ [] → exec i s = .next (Spec.capRefused s 1)) ∧
    (s.mgmt.ready = true → s.spaces = [] → s.ringBad a b = true → exec i s = .next (Spec.capRefused s 4)) ∧
    (s.mgmt.ready = true → s.spaces = [] → s.ringBad a b = false →
      let absent := ∃ x ∈ s.ringChoices a b, ∃ c ∈ choiceCores x, s.live c = false
      let other := Config.freeBool s.free = true
      let s1 : State := if m = 2 then { s with free := s.free + 1 } else s
      (m = 2 → other → exec i s = .next (Spec.capRefused s1 3)) ∧
      (m = 2 → ¬other → absent → exec i s = .next (Spec.capRefused s1 2)) ∧
      ((m = 2 → ¬other ∧ ¬absent) → ∃ t, exec i s = .next t ∧ t = { s1 with mgmt := t.mgmt } ∧ t.mgmt.capMode = m ∧ t.mgmt.capResult = 0 ∧
        t.mgmt.capRing = a ∧ t.mgmt.capLogn = b ∧ t.mgmt.capPos = 0 ∧
        (s.mgmt.capMode ≠ m → t.mgmt.capStall = false ∧ t.mgmt.measure[5] = Spec.modeMeasure s m))) := by
  obtain ⟨rfl, rfl⟩ | ⟨rfl, rfl⟩ := named
  · have runs (x : State) (step : captureModeOn a b s = x) : exec (.captureModeOn port a b) s = .next x := congrArg Host.Outcome.next step
    refine ⟨fun early => runs _ (captureModeOn_early early), fun ready bound => runs _ (captureModeOn_bound ready bound),
      fun ready none bad => runs _ (captureModeOn_badRing ready none bad), fun ready none good => ⟨fun h => absurd h (by decide),
        fun h => absurd h (by decide), fun _ => ⟨_, runs _ (captureModeOn_starts ready none good), ?_⟩⟩⟩
    exact capStart_capturing s 1 a b
  · have runs (x : State) (step : replayModeOn a b s = x) : exec (.replayModeOn port a b) s = .next x := congrArg Host.Outcome.next step
    refine ⟨fun early => runs _ (replayModeOn_early early), fun ready bound => runs _ (replayModeOn_bound ready bound),
      fun ready none bad => runs _ (replayModeOn_badRing ready none bad), fun ready none good => ?_⟩
    have checks := replayModeOn_checks ready none good
    refine ⟨fun _ other => runs _ (checks.trans (if_pos other)), fun _ same absent => runs _ (checks.trans ((if_neg same).trans
      (if_pos (choices_absent.mpr absent)))), fun fits => ⟨_, runs _ (checks.trans ((if_neg (fits rfl).1).trans
      (if_neg (mt choices_absent.mp (fits rfl).2)))), ?_⟩⟩
    exact capStart_capturing { s with free := s.free + 1 } 2 a b

/-- Settles O55: one equation for each outcome of an attestation request, of a change of mode, and of a register write. -/
theorem managementEvents : Obligations.ManagementEvents := by
  intro s port a b
  have asks (x : State) (step : attestRequest a s = x) : exec (.attestRequest port a) s = .next x := congrArg Host.Outcome.next step
  have turnsOff (x : State) (step : captureModeOff s = x) : exec (.captureModeOff port) s = .next x := congrArg Host.Outcome.next step
  have forces (asid : Nat) (x : State) (step : replayForceTimeout asid a b s = x) : exec (.replayForceTimeout asid a b) s = .next x :=
    congrArg Host.Outcome.next step
  have writes (o : Nat) (x : State) (step : registerWrite o a s = x) : exec (.registerWrite port o a) s = .next x := congrArg Host.Outcome.next step
  refine ⟨fun held => asks _ (attestRequest_ignored held), fun booted idle => ⟨fun late aligned inside good =>
    asks _ (attestRequest_starts booted idle late aligned inside good), fun late bad => asks _ (attestRequest_badArea booted idle late bad),
    fun late aligned inside bad => asks _ (attestRequest_poisoned booted idle late aligned inside bad),
    fun early => asks _ (attestRequest_window booted idle early)⟩, attestStep_idle, fun nonce asked => attestStep_area asked,
    fun nonce asked => attestStep_window asked, fun bound => turnsOff _ (captureModeOff_bound bound), fun none => ?_, captureOn s port a b,
    fun room => congrArg Host.Outcome.next (captureRingSpace_room room), fun asid d replay next late => ⟨fun x known => forces asid _ ?_,
    fun unknown => forces asid _ ?_⟩, fun asid idle => forces asid _ (replayForceTimeout_none (idle.imp_right .inr)),
    fun asid early => forces asid _ (replayForceTimeout_none (.inr (.inl early))), fun may => writes _ _ (registerWrite_log may),
    fun booted none => writes _ _ (registerWrite_log_unimaged booted none), fun j low booted => ⟨_, writes _ _ (registerWrite_window low booted), rfl,
    nonceWritten_keeps low, fun i inside => getElem?_nonceWritten low inside⟩, fun word => ?_,
    fun o log cap outside => writes _ _ (registerWrite_other log cap outside)⟩
  · obtain ⟨-, capMode, changed⟩ := setCapMode_mgmt s 0
    exact ⟨_, turnsOff _ (captureModeOff_ends none), rfl, capMode, rfl, changed⟩
  · rw [replayForceTimeout_late replay next late, known]
    rfl
  · rw [replayForceTimeout_late replay next late, unknown]
    rfl
  · have write := registerWrite_capctl (s := s) word
    refine ⟨fun mode bound => writes _ _ ?_, fun mode none ready t off => writes _ _ ?_, fun mode => writes _ _ (write.trans (capctlWrite_on mode)),
      fun mode => writes _ _ (write.trans (capctlWrite_replay mode)), fun mode => writes _ _ (write.trans (capctlWrite_ignored mode))⟩
    · exact write.trans ((capctlWrite_off mode).trans ((if_pos (by simp [bound])).trans (captureModeOff_bound bound)))
    · obtain rfl : captureModeOff s = t := Host.Outcome.next.inj off
      exact write.trans ((capctlWrite_off mode).trans (if_neg (by simp [none, ready])))

end Sys2Proof.Proofs
end

section
/-! Events told to an address space, and its binding and unbinding (R289, R290, R300, R352, R353): the statement O54. -/

namespace Sys2Proof.Machine

/-! ### Events told to an address space change beside an access only what the device notes of the space (R300) -/

/-- The address spaces after the device has changed what it notes of them: each keeps its ASID. -/
def Space.Kept (l m : List Space) : Prop := ∃ f : Space → Space, (∀ p, (f p).asid = p.asid) ∧ m = l.map f

/-- Beside an access, only what the device notes of address spaces differs. -/
structure Reported (s t : State) : Prop where
  rest : Accessed s { t with spaces := s.spaces }
  spaces : Space.Kept s.spaces t.spaces

section
variable {s t u : State}

theorem Space.Kept.refl (l : List Space) : Space.Kept l l := ⟨id, fun _ => rfl, (List.map_id l).symm⟩

theorem Space.Kept.trans {l m n : List Space} (first : Space.Kept l m) (second : Space.Kept m n) : Space.Kept l n := by
  obtain ⟨f, keeps, rfl⟩ := first
  obtain ⟨g, keeps', rfl⟩ := second
  exact ⟨g ∘ f, fun p => (keeps' (f p)).trans (keeps p), List.map_map⟩

theorem Accessed.spaces (h : Accessed s t) : t.spaces = s.spaces := (congrArg State.spaces h.rest :)

theorem Accessed.setSpaces (h : Accessed s t) (l : List Space) : Accessed { s with spaces := l } { t with spaces := l } :=
  ⟨congrArg (fun x : State => { x with spaces := l }) h.rest, h.core, h.canonical, h.reserve⟩

theorem Accessed.reported (h : Accessed s t) : Reported s t := by
  refine ⟨?_, h.spaces ▸ Space.Kept.refl _⟩
  have same := h.setSpaces s.spaces
  exact same

theorem Reported.refl (s : State) : Reported s s := (Accessed.refl s).reported

theorem Reported.trans (first : Reported s t) (second : Reported t u) : Reported s u :=
  ⟨first.rest.trans (second.rest.setSpaces s.spaces), first.spaces.trans second.spaces⟩

theorem Reported.canonical (h : Reported s t) : s.mem.wf = true → t.mem.wf = true := h.rest.canonical

theorem reported_modSpace (s : State) (asid : Nat) (f : Space → Space) (keeps : ∀ p, (f p).asid = p.asid) : Reported s (s.modSpace asid f) := by
  refine ⟨.refl s, fun p => if p.asid = asid then f p else p, fun p => ?_, rfl⟩
  dsimp only
  split
  · exact keeps p
  · rfl

theorem accessed_askedBy (s t : State) : Accessed s (s.askedBy t) := ⟨rfl, fun _ => rfl, id, fun _ => rfl⟩

theorem accessed_orAsk (h : Accessed s t) : Accessed s (s.orAsk t) := by
  unfold State.orAsk
  split
  · exact accessed_askedBy s t
  · exact h

theorem reported_putEvent {sp : Space} {e : Event} (put : s.putEvent sp e = some t) : Reported s t := by
  unfold State.putEvent at put
  obtain ⟨⟨s1, q⟩, first, put⟩ := Option.bind_eq_some_iff.1 put
  dsimp only at put
  split at put
  · cases put
  · obtain ⟨s3, third, put⟩ := Option.bind_eq_some_iff.1 put
    obtain ⟨⟨s4, n⟩, fourth, put⟩ := Option.bind_eq_some_iff.1 put
    obtain ⟨s5, fifth, put⟩ := Option.bind_eq_some_iff.1 put
    cases put
    exact ((((((accessed_devTouch ..).trans (accessed_devRead first)).trans (accessed_devWrites ..)).trans (accessed_devWrite third)).trans
      (accessed_devRead fourth)).trans (accessed_devWrite fifth)).reported.trans (reported_modSpace _ _ _ fun _ => rfl)

theorem reported_event (s : State) (asid cause queue va detail : Nat) : Reported s (s.event asid cause queue va detail) := by
  have held (t : State) (e : Event) : Reported t (t.modSpace asid (fun p =>
      if p.held.length < 64 then { p with held := p.held ++ [e] } else { p with lost := p.lost + 1 })) := by
    refine reported_modSpace _ _ _ fun p => ?_
    split <;> rfl
  unfold State.event
  split
  · exact .refl s
  · dsimp only
    split
    · split
      · exact held _ _
      · split
        · exact (accessed_askedBy s _).reported.trans (held _ _)
        · rename_i put _
          exact reported_putEvent put
    · exact held _ _

theorem reported_devWriteOr (s : State) (asid va n v : Nat) : Accessed s ((s.devWrite asid va n v).getD s) := by
  cases written : s.devWrite asid va n v with
  | none => exact .refl s
  | some t => exact accessed_devWrite written

end

/-- An address space is bound. -/
theorem space_isSome (s : State) (asid : Nat) : (s.space asid).isSome = true ↔ ∃ p ∈ s.spaces, p.asid = asid := by
  rw [State.space, List.find?_isSome]
  simp only [beq_iff_eq]

theorem Reported.bound {s t : State} (h : Reported s t) {asid : Nat} (bound : (s.space asid).isSome = true) : (t.space asid).isSome = true := by
  obtain ⟨f, keeps, spaces⟩ := h.spaces
  obtain ⟨p, listed, named⟩ := (space_isSome s asid).mp bound
  exact (space_isSome t asid).mpr ⟨f p, spaces ▸ List.mem_map_of_mem listed, (keeps p).trans named⟩

/-! ### The syscall ring and the queues that a bind reads (R290, R353) -/

section
variable {s t : State}

theorem accessed_ringRead {asid va v : Nat} (read : s.ringRead asid va = .ok (t, v)) : Accessed s t := by
  unfold State.ringRead at read
  extract_lets typ at read
  split at read
  · cases read
  · have access := accessed_translate s (deviceWho asid 0 .r) va
    split at read
    case h_1 s1 p reached =>
      rw [reached] at access
      split at read
      · cases read
      · cases read
        exact access
    all_goals cases read

theorem accessed_ringSlots {s t : State} {asid va : Nat} {slots : List Nat} (read : ringSlots asid va slots s = .ok t) : Accessed s t := by
  induction slots generalizing s with
  | nil =>
    cases read
    exact .refl _
  | cons j slots ih =>
    rw [ringSlots] at read
    cases first : s.ringRead asid (va + 64 + 64 * j) with
    | error e => rw [first] at read; cases read
    | ok r =>
      rw [first] at read
      dsimp only [bind, Except.bind] at read
      split at read
      · cases read
      · exact (accessed_ringRead first).trans (ih read)

/-- Some doublewords of the ring are read one after the other. -/
theorem accessed_ringFold {asid va : Nat} {is : List Nat} {z : Bool} {r : State × Bool}
    (read : is.foldlM (fun (acc : State × Bool) i => do
      let (t, z) ← State.ringRead acc.1 asid (va + 8 * i)
      return (t, acc.2 && z == 0)) (s, z) = (Except.ok r : Except BindStop _)) : Accessed s r.1 := by
  induction is generalizing s z with
  | nil =>
    cases read
    exact .refl s
  | cons i is ih =>
    rw [List.foldlM_cons] at read
    cases first : s.ringRead asid (va + 8 * i) with
    | error e => rw [first] at read; cases read
    | ok r =>
      rw [first] at read
      exact (accessed_ringRead first).trans (ih read)

theorem accessed_bindRing {sp new : Space} (read : s.bindRing sp = .ok (t, new)) : Accessed s t ∧ new.asid = sp.asid := by
  unfold State.bindRing at read
  split at read
  · cases read
    exact ⟨.refl s, rfl⟩
  · dsimp only [bind, Except.bind] at read
    cases first : s.ringRead sp.asid (sp.sysVa + 8 * 0) with
    | error e => rw [first] at read; cases read
    | ok c =>
    rw [first] at read
    dsimp only at read
    cases second : c.1.ringRead sp.asid (sp.sysVa + 8 * 1) with
    | error e => rw [second] at read; cases read
    | ok v =>
    rw [second] at read
    dsimp only at read
    cases third : v.1.ringRead sp.asid (sp.sysVa + 8 * 2) with
    | error e => rw [third] at read; cases read
    | ok p =>
    rw [third] at read
    dsimp only at read
    split at read
    · cases read
    · rename_i r fold
      split at read
      · cases read
      · split at read
        · cases read
        · rename_i s1 slots
          cases read
          exact ⟨((((accessed_ringRead first).trans (accessed_ringRead second)).trans (accessed_ringRead third)).trans
            (accessed_ringFold fold)).trans (accessed_ringSlots slots), rfl⟩

/-- A queue that is bound as stopped, with its event. -/
theorem reported_queueStopped (s : State) (asid q va : Nat) : Reported s
    (State.cbfmtEvent (match s.devRead asid (va + 0x28) 8 with
      | some (u, v) => (u.devWrite asid (va + 0x28) 8 (v - v % 4 + 3)).getD u
      | none => s) asid q va 1) := by
  refine Reported.trans ?_ (reported_event ..)
  split
  · rename_i u v read
    exact ((accessed_devRead read).trans (reported_devWriteOr ..)).reported
  · exact .refl s

theorem reported_bindQueue (s : State) (asid q : Nat) : Reported s (bindQueue asid s q) := by
  have added (t : State) (k : LQueue) : Reported t (t.modSpace asid (fun p => { p with queues := p.queues ++ [k] })) :=
    reported_modSpace _ _ _ fun _ => rfl
  unfold bindQueue
  split
  · exact .refl s
  · dsimp only
    split
    · exact (added _ _).trans (reported_queueStopped ..)
    · rename_i s1 d read
      have got := (accessed_devReads read).reported
      split
      · exact (got.trans (added _ _)).trans (reported_queueStopped ..)
      · exact (got.trans (added _ _)).trans (reported_devWriteOr ..).reported

theorem reported_bindQueues (s : State) (asid : Nat) (qs : List Nat) : Reported s (qs.foldl (bindQueue asid) s) := by
  induction qs generalizing s with
  | nil => exact .refl s
  | cons q qs ih => exact (reported_bindQueue s asid q).trans (ih _)

end

theorem orAsk_reached {s t : State} (reached : t.blocked = false) : s.orAsk t = t := by
  rw [State.orAsk, reached]
  rfl

/-! ### The steps of a bind (R289, R352) -/

theorem bindSpace_ring {s t : State} {sp new : Space} (ring : State.bindRing { s with spaces := s.spaces ++ [sp] } sp = .ok (t, new)) :
    bindSpace sp s = ((upTo 64).foldl (bindQueue sp.asid) (t.modSpace sp.asid (fun _ => new))).bindEnd 0 := by
  rw [bindSpace, ring]

theorem space_bindEnd (s : State) (result asid : Nat) : (s.bindEnd result).space asid = s.space asid := rfl

/-- A space whose ring has been read is bound at the end. -/
theorem bindSpace_bound {s t : State} {sp new : Space} (ring : State.bindRing { s with spaces := s.spaces ++ [sp] } sp = .ok (t, new)) :
    ((bindSpace sp s).space sp.asid).isSome = true := by
  obtain ⟨access, named⟩ := accessed_bindRing ring
  rw [bindSpace_ring ring]
  have listed : ((t.modSpace sp.asid (fun _ => new)).space sp.asid).isSome = true := by
    refine (space_isSome _ _).mpr ⟨new, List.mem_map.mpr ⟨sp, ?_, if_pos rfl⟩, named⟩
    rw [access.spaces]
    exact List.mem_append_right _ (List.mem_singleton_self sp)
  rw [space_bindEnd]
  exact (reported_bindQueues _ sp.asid (upTo 64)).bound listed

section
variable {s : State} {pa : Nat}

/-- The record of a bind, as its first step reads it. -/
def State.recordAt (s : State) (pa : Nat) : List Nat := (List.range 16).map (fun i => s.mem.read (pa + 8 * i) 8)

/-- The record of a bind can be read. -/
def State.readable (s : State) (pa : Nat) : Prop := s.goodPa pa = true ∧ s.goodPa (pa + 127) = true ∧ s.badRange pa 128 = false

theorem bindRecord_unread (first : s.mgmt.asbindRec = none) (lost : ¬s.readable pa) : s.bindRecord pa = none := by
  rw [State.bindRecord, first]
  refine if_pos ?_
  by_contra good
  simp only [Bool.or_eq_true, Bool.not_eq_true', not_or, Bool.not_eq_false, Bool.not_eq_true] at good
  exact lost ⟨good.1.1, good.1.2, good.2⟩

theorem bindRecord_read (first : s.mgmt.asbindRec = none) (read : s.readable pa) : s.bindRecord pa = some (s.recordAt pa) := by
  obtain ⟨low, high, clean⟩ := read
  rw [State.bindRecord, first, State.recordAt, ← upTo_eq]
  exact if_neg (by simp [low, high, clean])

theorem bindStep_bad (first : s.mgmt.asbindRec = none) (bad : ¬s.readable pa ∨ badSpace (s.recordAt pa) = true) : bindStep pa s = s.bindEnd 1 := by
  by_cases read : s.readable pa
  · rw [bindStep, bindRecord_read first read]
    exact if_pos (bad.resolve_left (not_not.mpr read))
  · rw [bindStep, bindRecord_unread first read]

theorem bindStep_shaped (first : s.mgmt.asbindRec = none) (read : s.readable pa) (good : badSpace (s.recordAt pa) = false) : bindStep pa s =
    if (s.space (spaceOf pa (s.recordAt pa)).asid).isSome then s.bindEnd 2
    else ({ s with mgmt := { s.mgmt with asbindRec := some (s.recordAt pa) } }).attempt (bindSpace (spaceOf pa (s.recordAt pa))) := by
  rw [bindStep, bindRecord_read first read]
  exact if_neg (by simp [good])

end

section
variable {s : State} {op : Bool} {record : Nat}

theorem asbindWrite_ignored (held : s.mgmt.ready = false ∨ s.mgmt.asbindCmd ≠ none) : asbindWrite op record s = s :=
  if_pos (by rw [Bool.or_eq_true, Bool.not_eq_true', Option.isSome_iff_ne_none]; exact held)

/-- A command is in progress. -/
def State.commanded (s : State) (op : Bool) (pa : Nat) : State := { s with mgmt := { s.mgmt with asbindCmd := some (op, pa) } }

variable (ready : s.mgmt.ready = true) (idle : s.mgmt.asbindCmd = none)
include ready idle

theorem asbindWrite_bind : asbindWrite true record s =
    bindStep (record / 2 ^ 7 % 2 ^ 41 * 128) (s.commanded true (record / 2 ^ 7 % 2 ^ 41 * 128)) := if_neg (by simp [ready, idle])

theorem asbindWrite_unbind : asbindWrite false record s =
    unbindStep (record / 2 ^ 7 % 2 ^ 41 * 128) (s.commanded false (record / 2 ^ 7 % 2 ^ 41 * 128)) := if_neg (by simp [ready, idle])

end

/-- A command that ends at once leaves its result alone. -/
theorem bindEnd_commanded {s : State} {op : Bool} {pa : Nat} (idle : s.mgmt.asbindCmd = none) (first : s.mgmt.asbindRec = none) (result : Nat) :
    (s.commanded op pa).bindEnd result = { s with mgmt := { s.mgmt with asbindResult := result } } := by
  unfold State.commanded State.bindEnd
  dsimp only
  rw [← idle, ← first]

/-! ### Unbinding (R352) -/

/-- A core whose U context holds a strand, or in whose arrival queue none waits, takes none. -/
theorem nextU_seated {s : State} {c : Nat} (seat : (s.core c).uWork.holds = true ∨ (s.core c).arrival = []) : s.nextU c = s := by
  unfold State.nextU
  split
  · rfl
  · rename_i enters
    rcases seat with holds | empty
    · rw [State.mayEnter] at enters
      simp [holds] at enters
    · rw [empty]
      rfl

theorem nextU_foldl_seated {s : State} (seated : ∀ c, (s.core c).uWork.holds = true ∨ (s.core c).arrival = []) (l : List Nat) :
    l.foldl State.nextU s = s := by
  induction l with
  | nil => rfl
  | cons c l ih => rw [List.foldl_cons, nextU_seated (seated c), ih]

theorem mem_of_kvGet {α : Type} {k : Nat} {v : α} {l : List (Nat × α)} (found : kvGet k l = some v) : (k, v) ∈ l := by
  induction l with
  | nil => cases found
  | cons x l ih =>
    unfold kvGet at found
    split at found
    · rename_i same
      cases found
      exact same ▸ List.mem_cons_self
    · exact List.mem_cons_of_mem _ (ih found)

/-- Of every core a seated machine says it: a core without an entry is as at reset. -/
theorem seated_core {s : State} (seated : Spec.seated s) (c : Nat) : (s.core c).uWork.holds = true ∨ (s.core c).arrival = [] := by
  unfold State.core
  cases listed : kvGet c s.cores with
  | none => exact .inr rfl
  | some k => exact seated _ (mem_of_kvGet listed)

/-- Before the cores go on, a removal leaves out of each list what is of the address space (R352). -/
theorem removeSpace_filters (s : State) (asid : Nat) : ∃ x : State, s.removeSpace asid = (x.cores.map (·.1)).foldl State.nextU x ∧
    x.cores = (s.dropL1Alias asid 0 (2 ^ 56)).cores ∧ x.mem = s.mem ∧ x.spaces = s.spaces.filter (fun p => p.asid ≠ asid) ∧
    x.jobs = s.jobs.filter (fun j => j.asid ≠ asid) ∧ x.runs = s.runs.filter (fun r => r.asid ≠ asid) ∧
    x.windows = s.windows.filter (fun w => w.asid ≠ asid) ∧ x.ats = s.ats.filter (fun a => a.asid ≠ asid) ∧
    x.hostReqs = s.hostReqs.filter (fun q => q.asid ≠ asid) ∧ x.cycles = s.cycles.filter (fun c => c.asid ≠ asid) :=
  ⟨_, rfl, rfl, rfl, rfl, rfl, rfl, rfl, rfl, rfl, rfl⟩

/-- Nothing of an address space is left, while no core takes a strand (R352). -/
theorem removeSpace_empty {s : State} (seated : Spec.seated s) (asid : Nat) : (s.removeSpace asid).space asid = none ∧
    (∀ x ∈ (s.removeSpace asid).jobs, x.asid ≠ asid) ∧ (∀ x ∈ (s.removeSpace asid).runs, x.asid ≠ asid) ∧
    (∀ x ∈ (s.removeSpace asid).windows, x.asid ≠ asid) ∧ (∀ x ∈ (s.removeSpace asid).ats, x.asid ≠ asid) ∧
    (∀ x ∈ (s.removeSpace asid).hostReqs, x.asid ≠ asid) ∧ (∀ x ∈ (s.removeSpace asid).cycles, x.asid ≠ asid) ∧
    (s.removeSpace asid).mem = s.mem := by
  obtain ⟨x, removed, cores, mem, spaces, jobs, runs, windows, ats, hostReqs, cycles⟩ := removeSpace_filters s asid
  have seats (c : Nat) : (x.core c).uWork.holds = true ∨ (x.core c).arrival = [] := by
    have core : x.core c = (s.dropL1Alias asid 0 (2 ^ 56)).core c := congrArg (fun l => (kvGet c l).getD Core.reset) cores
    rw [core, State.dropL1Alias, core_setL2, core_mapCores s _ c rfl]
    exact seated_core seated c
  rw [removed, nextU_foldl_seated seats, State.space, spaces, jobs, runs, windows, ats, hostReqs, cycles]
  have gone {α : Type} {l : List α} {f : α → Nat} : ∀ x ∈ l.filter (fun x => f x ≠ asid), f x ≠ asid :=
    fun x hx => of_decide_eq_true (List.mem_filter.mp hx).2
  refine ⟨?_, gone, gone, gone, gone, gone, gone, mem⟩
  exact List.find?_eq_none.mpr fun p hp => by simpa using gone p hp

/-- An unbind that ends has left nothing of the address space. -/
theorem unbound_empty {s : State} (seated : Spec.seated s) (asid : Nat) : ((s.removeSpace asid).bindEnd 0).mgmt.asbindCmd = none ∧
    ((s.removeSpace asid).bindEnd 0).mgmt.asbindResult = 0 ∧ ((s.removeSpace asid).bindEnd 0).space asid = none ∧
    (∀ x ∈ ((s.removeSpace asid).bindEnd 0).jobs, x.asid ≠ asid) ∧ (∀ x ∈ ((s.removeSpace asid).bindEnd 0).runs, x.asid ≠ asid) ∧
    (∀ x ∈ ((s.removeSpace asid).bindEnd 0).windows, x.asid ≠ asid) ∧ (∀ x ∈ ((s.removeSpace asid).bindEnd 0).ats, x.asid ≠ asid) ∧
    (∀ x ∈ ((s.removeSpace asid).bindEnd 0).hostReqs, x.asid ≠ asid) ∧ (∀ x ∈ ((s.removeSpace asid).bindEnd 0).cycles, x.asid ≠ asid) ∧
    ((s.removeSpace asid).bindEnd 0).mem = s.mem :=
  ⟨rfl, rfl, removeSpace_empty seated asid⟩

/-- Something of an address space still runs. -/
theorem spaceLeft_iff (t : State) (asid : Nat) :
    (t.strands.any (fun x => x.asid == asid) || t.cores.any (fun p => p.2.owner == some asid)) = true ↔
    (∃ x ∈ t.strands, x.asid = asid) ∨ ∃ p ∈ t.cores, p.2.owner = some asid := by
  simp only [Bool.or_eq_true, List.any_eq_true, beq_iff_eq]

section
variable {s : State} {pa : Nat}

theorem unbindStep_unbound (none : s.spaces.find? (fun p => p.recPa == pa) = none) : unbindStep pa s = s.orAsk (s.bindEnd 3) := by
  unfold unbindStep State.attempt
  dsimp only
  rw [none]

variable {sp : Space} (bound : s.spaces.find? (fun p => p.recPa == pa) = some sp)
include bound

theorem unbindStep_bound : unbindStep pa s = s.orAsk (if ((s.stopQueues sp).killSpace sp.asid).strands.any (fun t => t.asid == sp.asid) ||
      ((s.stopQueues sp).killSpace sp.asid).cores.any (fun p => p.2.owner == some sp.asid) then (s.stopQueues sp).killSpace sp.asid
    else (((s.stopQueues sp).killSpace sp.asid).removeSpace sp.asid).bindEnd 0) := by
  unfold unbindStep State.attempt
  dsimp only
  rw [bound]

end

end Sys2Proof.Machine

namespace Sys2Proof.Proofs
open Sys2Proof.Machine

/-- A bind on an idle machine that is ready (R289, R352). -/
theorem bind_idle (s : State) (port record : Nat) (reached : s.blocked = false) (ready : s.mgmt.ready = true) (idle : s.mgmt.asbindCmd = none)
    (first : s.mgmt.asbindRec = none) : let pa := record / 2 ^ 7 % 2 ^ 41 * 128
    let d := s.recordAt pa
    let held : State := { s with mgmt := { s.mgmt with asbindCmd := some (true, pa), asbindRec := some d } }
    (¬s.readable pa ∨ badSpace d = true → exec (.asbindBind port record) s = .next { s with mgmt := { s.mgmt with asbindResult := 1 } }) ∧
    (s.readable pa → badSpace d = false → (s.space (d.getD 0 0 % 2 ^ 16)).isSome = true →
      exec (.asbindBind port record) s = .next { s with mgmt := { s.mgmt with asbindResult := 2 } }) ∧
    (s.readable pa → badSpace d = false → s.space (d.getD 0 0 % 2 ^ 16) = none →
      let ring := ({ held with spaces := s.spaces ++ [spaceOf pa d] }).bindRing (spaceOf pa d);
      (∀ t sp, ring = .ok (t, sp) →
        ∃ u, exec (.asbindBind port record) s = .next (held.orAsk u) ∧ u.mgmt.asbindCmd = none ∧ u.mgmt.asbindResult = 0 ∧
          (u.space (d.getD 0 0 % 2 ^ 16)).isSome = true) ∧
      (ring = .error .bad → exec (.asbindBind port record) s = .next { s with mgmt := { s.mgmt with asbindResult := 1 } }) ∧
      (∀ t, ring = .error (.wait t) → exec (.asbindBind port record) s = .next (held.orAsk { t with spaces := s.spaces }))) := by
  intro pa d held
  have runs (x : State) (step : bindStep pa (s.commanded true pa) = x) : exec (.asbindBind port record) s = .next x :=
    congrArg Host.Outcome.next ((asbindWrite_bind ready idle).trans step)
  have ends (result : Nat) := bindEnd_commanded (op := true) (pa := pa) idle first result
  refine ⟨fun bad => runs _ ((bindStep_bad (s := s.commanded true pa) first bad).trans (ends 1)), fun read good bound => runs _
    (((bindStep_shaped (s := s.commanded true pa) first read good).trans (if_pos bound)).trans (ends 2)), fun read good unbound => ?_⟩
  have step : bindStep pa (s.commanded true pa) = held.orAsk (bindSpace (spaceOf pa d) held) :=
    (bindStep_shaped (s := s.commanded true pa) first read good).trans (if_neg (fun bound => by
      have none : ((s.commanded true pa).space (spaceOf pa ((s.commanded true pa).recordAt pa)).asid) = .none := unbound
      rw [none] at bound
      cases bound))
  refine ⟨fun t sp ring => ⟨_, runs _ step, ?_, ?_, bindSpace_bound ring⟩, fun ring => runs _ (step.trans ?_), fun t ring => runs _ (step.trans ?_)⟩
  · rw [bindSpace_ring ring]
    rfl
  · rw [bindSpace_ring ring]
    rfl
  · rw [bindSpace, show State.bindRing { held with spaces := held.spaces ++ [spaceOf pa d] } (spaceOf pa d) = .error .bad from ring]
    exact (orAsk_reached (s := held) (t := held.bindEnd 1) reached).trans (ends 1)
  · rw [bindSpace, show State.bindRing { held with spaces := held.spaces ++ [spaceOf pa d] } (spaceOf pa d) = .error (.wait t) from ring]

/-- Settles O54: the steps of a bind and of an unbind, one equation each; a space stays bound while its queues are read, since an event changes of address
spaces only what the device notes of them. -/
theorem bindEvents : Obligations.BindEvents := by
  intro s port record reached
  dsimp only
  refine ⟨fun held => ⟨congrArg Host.Outcome.next (asbindWrite_ignored held), congrArg Host.Outcome.next (asbindWrite_ignored held)⟩,
    fun ready idle first => ?_⟩
  obtain ⟨bad, twice, binds⟩ := bind_idle s port record reached ready idle first
  refine ⟨bad, twice, binds, fun none => ?_, fun sp bound => ?_⟩
  · have step := asbindWrite_unbind (record := record) ready idle
    rw [unbindStep_unbound (s := s.commanded false _) none, orAsk_reached (by exact reached), bindEnd_commanded idle first] at step
    exact congrArg Host.Outcome.next step
  · have step := asbindWrite_unbind (record := record) ready idle
    rw [unbindStep_bound (s := s.commanded false _) bound] at step
    refine ⟨fun busy => congrArg Host.Outcome.next (step.trans (congrArg _ (if_pos ((spaceLeft_iff _ _).mpr busy)))), fun clear seated => ?_⟩
    exact ⟨_, congrArg Host.Outcome.next (step.trans (congrArg _ (if_neg (mt (spaceLeft_iff _ _).mp clear)))), unbound_empty seated sp.asid⟩

end Sys2Proof.Proofs
end

section
/-! What fencing a core leaves (R333, R384, R386), and the watchdog (R301, R327): the statement O60. -/

namespace Sys2Proof.Machine

/-! ### Service entries told to cores -/

/-- A core to which service entries have been told; its L1 copies may differ too. -/
def Core.Told (k k' : Core) : Prop := ∃ l, k' = { k with entries := k.entries ++ l, l1d := k'.l1d, l1i := k'.l1i }

/-- Cores may have been told service entries, and caches may differ; the counts of lost cores and what is under way are as before. -/
structure Told (s t : State) : Prop where
  core : ∀ c, (s.core c).Told (t.core c)
  retCore : t.mgmt.retCore = s.mgmt.retCore
  ops : t.ops = s.ops
  flights : t.flights = s.flights

section
variable {s t u : State}

theorem Core.Told.refl (k : Core) : k.Told k := ⟨[], by rw [List.append_nil]⟩

theorem Core.Told.trans {k l m : Core} (first : k.Told l) (second : l.Told m) : k.Told m := by
  obtain ⟨a, first⟩ := first
  obtain ⟨b, second⟩ := second
  refine ⟨a ++ b, ?_⟩
  rw [second, first, List.append_assoc]

theorem Core.Told.status {k l : Core} (h : k.Told l) : l.status = k.status := by
  obtain ⟨_, same⟩ := h
  exact (congrArg Core.status same :)

theorem Core.Told.mem_entries {k l : Core} (h : k.Told l) {e : SvcEntry} (told : e ∈ k.entries) : e ∈ l.entries := by
  obtain ⟨_, same⟩ := h
  exact (congrArg Core.entries same :) ▸ List.mem_append_left _ told

theorem Told.refl (s : State) : Told s s := ⟨fun c => .refl _, rfl, rfl, rfl⟩

theorem Told.trans (first : Told s t) (second : Told t u) : Told s u :=
  ⟨fun c => (first.core c).trans (second.core c), second.retCore.trans first.retCore, second.ops.trans first.ops, second.flights.trans first.flights⟩

theorem Accessed.told (h : Accessed s t) : Told s t := by
  refine ⟨fun c => ⟨[], ?_⟩, (congrArg (fun x : State => x.mgmt.retCore) h.rest :), (congrArg State.ops h.rest :), (congrArg State.flights h.rest :)⟩
  rw [← h.core c, List.append_nil]

theorem told_modCore (s : State) (c : Nat) (l : List SvcEntry) : Told s (s.modCore c (fun k => { k with entries := k.entries ++ l })) := by
  refine ⟨fun d => ?_, rfl, rfl, rfl⟩
  by_cases same : d = c
  · subst same
    rw [State.core_modCore_self]
    exact ⟨l, rfl⟩
  · rw [State.core_modCore_ne s same]
    exact .refl _

theorem told_pushEntry (s : State) (c : Nat) (e : SvcEntry) : Told s (s.pushEntry c e) := told_modCore s c [e]

theorem told_moveLost (s : State) (m : Move) : Told s (s.moveLost m) := by
  unfold State.moveLost
  split
  · exact told_pushEntry s _ _
  · exact .refl s

theorem told_movesLost (s : State) (l : List Move) : Told s (l.foldl State.moveLost s) := by
  induction l generalizing s with
  | nil => exact .refl s
  | cons m l ih => exact (told_moveLost s m).trans (ih _)

theorem accessed_showFenced (s : State) (c : Nat) : Accessed s (s.showFenced c) := by
  unfold State.showFenced
  split
  · exact .refl s
  · dsimp only
    exact (State.performHome_onlyCaches s _ 8 true).accessed.trans
      (accessed_setMem _ fun canonical => Memory.wf_write ((State.performHome_onlyCaches s _ 8 true).mem ▸ canonical) _ _ _)

theorem told_reassess (s : State) : Told s s.reassess := by
  unfold State.reassess
  split
  · exact ⟨fun c => .refl _, rfl, rfl, rfl⟩
  · exact .refl s

/-! ### What a core gives up -/

/-- What a core keeps when it is fenced: its cycle, its last occupant and its retired lane. -/
def Core.fenced (k : Core) : Core :=
  { Core.reset with status := .fenced, cycle := k.cycle, prevAsid := k.prevAsid, retLane := k.retLane, remapped := k.remapped }

theorem mgmt_unpin (s : State) (h : Holder) : (s.unpin h).mgmt = s.mgmt := by
  unfold State.unpin
  split <;> rfl

/-- Operations that end take nothing but their pins along. -/
theorem dropOps_rest (s : State) (p : EngineOp → Bool) : (s.dropOps p).mgmt = s.mgmt ∧ (s.dropOps p).cores = s.cores ∧
    (s.dropOps p).ops = s.ops.filter (fun o => !p o) := by
  have pins (l : List EngineOp) (t : State) : (l.foldl (fun (t : State) o => t.unpin (.piece o.id)) t).mgmt = t.mgmt ∧
      (l.foldl (fun (t : State) o => t.unpin (.piece o.id)) t).cores = t.cores ∧
      (l.foldl (fun (t : State) o => t.unpin (.piece o.id)) t).ops = t.ops := by
    induction l generalizing t with
    | nil => exact ⟨rfl, rfl, rfl⟩
    | cons o l ih =>
      obtain ⟨mgmt, cores, ops⟩ := ih (t.unpin (.piece o.id))
      rw [List.foldl_cons, mgmt, cores, ops]
      unfold State.unpin
      split <;> exact ⟨rfl, rfl, rfl⟩
  exact pins _ _

theorem mgmt_dropPieces (s : State) (k : Core) : (s.dropPieces k).mgmt = s.mgmt := by
  unfold State.dropPieces
  generalize k.arrival = l
  induction l generalizing s with
  | nil => rfl
  | cons p l ih => exact ih _

theorem disband_retCore (s : State) (c : Nat) : (s.disband c).mgmt.retCore = s.mgmt.retCore := by
  cases lead : (s.core c).gang with
  | leader n => exact (disband_leader lead).2.2.2
  | none => rw [State.disband, lead]
  | follower l => rw [State.disband, lead]

end

/-- The strands that a core holds when it is fenced. -/
def Core.standing (k : Core) : List Ctx :=
  (if k.uWork == .strand || k.uWork == .heldInRegs then [k.u] else []) ++ k.arrival.map (·.img.ctx) ++ k.keptA.map (·.ctx)

/-- A core on which nothing stands any more. -/
def Core.vacated (k : Core) : Prop := k.status = .fenced ∧ k.uWork = .empty ∧ k.aWork = .idle ∧ k.arrival = []

theorem Core.vacated_fenced (k : Core) : k.fenced.vacated := ⟨rfl, rfl, rfl, rfl⟩

theorem Core.Told.vacated {k l : Core} (h : k.Told l) (vacant : k.vacated) : l.vacated := by
  obtain ⟨_, same⟩ := h
  unfold Core.vacated at vacant ⊢
  rw [same]
  exact vacant

/-- Core c gives up its gang, its pins, the pieces of its parked strands, its registers and its engine work. -/
def State.cleared (s : State) (c : Nat) : State :=
  ((((((s.disband c).unpin (.entry c false)).unpin (.entry c true)).unpin (.row c)).dropPieces (s.core c)).modCore c Core.fenced).dropOps
    (fun o => o.core == c)

/-- A move whose two ends are lost with core c. -/
def State.endsAt (s : State) (c : Nat) (m : Move) : Bool := (m.src == c && !s.live m.dst) || (m.dst == c && !s.live m.src)

/-- The messages of core c are gone, the moves are lost that it was the last end of, and one more core is lost. -/
def State.abandoned (s : State) (c : Nat) : State :=
  (s.moves.filter (s.endsAt c)).foldl State.moveLost ({ s.cleared c with
    flights := (s.cleared c).flights.filter (fun f => f.core ≠ c), moves := (s.cleared c).moves.filter (fun m => !s.endsAt c m),
    mgmt := { (s.cleared c).mgmt with retCore := (s.cleared c).mgmt.retCore + 1 } }.logRecord 6 1 c 0 0)

theorem fence_eq (s : State) (c : Nat) : s.fence c = State.reassess (State.showFenced (if (s.siteMate c).getD c = c then s.abandoned c
    else (s.abandoned c).modCore ((s.siteMate c).getD c)
      (fun k => { k with entries := k.entries ++ (s.core c).standing.map (lostEntry · 2) ++ (s.core c).entries })) c) := rfl

theorem cleared_rest (s : State) (c : Nat) : ((s.cleared c).core c).vacated ∧ (s.cleared c).mgmt.retCore = s.mgmt.retCore ∧
    ∀ o ∈ (s.cleared c).ops, o.core ≠ c := by
  unfold State.cleared
  generalize pieces : (((s.disband c).unpin (.entry c false)).unpin (.entry c true)).unpin (.row c) = x
  have given : x.mgmt.retCore = s.mgmt.retCore := by
    rw [← pieces, mgmt_unpin, mgmt_unpin, mgmt_unpin, disband_retCore]
  obtain ⟨mgmt, cores, ops⟩ := dropOps_rest ((x.dropPieces (s.core c)).modCore c Core.fenced) (fun o => o.core == c)
  refine ⟨?_, ?_, fun o listed => ?_⟩
  · have fenced := State.core_modCore_self (x.dropPieces (s.core c)) c Core.fenced
    rw [State.core, cores, ← State.core, fenced]
    exact Core.vacated_fenced _
  · rw [mgmt, State.modCore_mgmt, mgmt_dropPieces, given]
  · rw [ops] at listed
    simpa using (List.mem_filter.mp listed).2

theorem abandoned_rest (s : State) (c : Nat) : ((s.abandoned c).core c).vacated ∧ (s.abandoned c).mgmt.retCore = s.mgmt.retCore + 1 ∧
    (∀ o ∈ (s.abandoned c).ops, o.core ≠ c) ∧ ∀ f ∈ (s.abandoned c).flights, f.core ≠ c := by
  obtain ⟨core, count, ops⟩ := cleared_rest s c
  have told : Told { s.cleared c with
      flights := (s.cleared c).flights.filter (fun f => f.core ≠ c), moves := (s.cleared c).moves.filter (fun m => !s.endsAt c m),
      mgmt := { (s.cleared c).mgmt with retCore := (s.cleared c).mgmt.retCore + 1 } } (s.abandoned c) :=
    (accessed_logRecord _ 6 1 c 0 0).told.trans (told_movesLost _ _)
  refine ⟨(told.core c).vacated core, told.retCore.trans (congrArg (· + 1) count), told.ops ▸ ops, ?_⟩
  rw [told.flights]
  exact fun f listed => of_decide_eq_true (List.mem_filter.mp listed).2

/-- What a fenced core leaves: itself as at reset but for what it keeps, its engine work and messages gone, one more core lost, and the strands that
stood on it told to another live core of the site (R333, R384). -/
theorem fence_rule (s : State) (c : Nat) : ((s.fence c).core c).vacated ∧ (s.fence c).mgmt.retCore = s.mgmt.retCore + 1 ∧
    (∀ o ∈ (s.fence c).ops, o.core ≠ c) ∧ (∀ f ∈ (s.fence c).flights, f.core ≠ c) ∧
    ∀ d, s.siteMate c = some d → d ≠ c → ∀ x ∈ (s.core c).standing, lostEntry x 2 ∈ ((s.fence c).core d).entries := by
  obtain ⟨core, count, ops, flights⟩ := abandoned_rest s c
  rw [fence_eq]
  generalize reported : (if (s.siteMate c).getD c = c then s.abandoned c else _) = w
  have told : Told w (w.showFenced c).reassess := (accessed_showFenced w c).told.trans (told_reassess _)
  refine ⟨(told.core c).vacated ?_, told.retCore.trans ?_, ?_, ?_, fun d mate other x stands => (told.core d).mem_entries ?_⟩
  · rw [← reported]
    split
    · exact core
    · rename_i other
      rw [State.core_modCore_ne _ (Ne.symm other)]
      exact core
  · rw [← reported]
    split <;> exact count
  · rw [told.ops, ← reported]
    split <;> exact ops
  · rw [told.flights, ← reported]
    split <;> exact flights
  · rw [← reported, mate, Option.getD_some, if_neg other, State.core_modCore_self]
    exact List.mem_append_left _ (List.mem_append_right _ (List.mem_map_of_mem stands))

/-! ### The watchdog (R301, R327) -/

/-- Of an event, no core learns anything. -/
theorem status_event (s : State) (asid cause queue va detail c : Nat) : ((s.event asid cause queue va detail).core c).status = (s.core c).status :=
  (congrArg Core.status ((reported_event s asid cause queue va detail).rest.core c) :)

section
variable {s : State} {asid sid start : Nat} {x : Strand} (known : s.strand asid sid = some x) (began : x.dispatched = some start)

theorem strand_named (known : s.strand asid sid = some x) : x.asid = asid ∧ x.sid = sid := by
  simpa using List.find?_some known

theorem sinceUs_eq (began : x.dispatched = some start) : s.sinceUs x = (s.time.toNat - start) / 100 := by
  rw [State.sinceUs, began]
  rfl

include known

theorem stopNow_none (idle : x.stopDue = none ∨ s.residentAt asid sid = none) : stopNow asid sid s = s.orAsk s := by
  unfold stopNow State.attempt
  dsimp only
  rw [known]
  cases at' : s.residentAt asid sid with
  | none => rfl
  | some c =>
    dsimp only
    rw [idle.resolve_right (by rw [at']; exact Option.some_ne_none c)]

theorem stopNow_due {c n : Nat} (resident : s.residentAt asid sid = some c) (due : x.stopDue = some n) : stopNow asid sid s =
    s.orAsk (if s.mayLeave c && !(s.asks asid sid).any (· < n) then s.holdWatchdog c x else s) := by
  unfold stopNow State.attempt
  dsimp only
  rw [known, resident]
  dsimp only
  rw [due]

include began

theorem watchdogT1_before (early : (s.time.toNat - start) / 100 < (s.limits x).1 ∨ x.t1Done = true) :
    watchdogT1 asid sid s = stopNow asid sid s := by
  unfold watchdogT1
  rw [known]
  dsimp only
  rw [sinceUs_eq began, began, if_neg]
  rintro at'
  simp only [Option.isSome_some, Bool.true_and, Bool.and_eq_true, Bool.not_eq_true', decide_eq_true_eq] at at'
  exact early.elim (fun h => by omega) fun h => absurd (h.symm.trans at'.1) (by decide)

theorem watchdogT1_first (late : (s.limits x).1 ≤ (s.time.toNat - start) / 100) (first : x.t1Done = false) (lone : x.crew = none) :
    watchdogT1 asid sid s =
      stopNow asid sid ((s.event asid 3 (x.origin % 64) x.record ((s.residentAt asid sid).getD x.lastCore)).markT1 x) := by
  unfold watchdogT1
  rw [known]
  dsimp only
  rw [sinceUs_eq began, began, if_pos (by simp [first, late]), State.clockMates, lone]
  obtain ⟨named, numbered⟩ := strand_named known
  dsimp only [List.foldl_cons, List.foldl_nil]
  rw [named, numbered]

theorem watchdogT2_early (early : (s.time.toNat - start) / 100 < (s.limits x).2.1) : watchdogT2 asid sid s = s.orAsk s := by
  unfold watchdogT2 State.attempt
  dsimp only
  rw [known]
  dsimp only
  rw [sinceUs_eq began, began, if_pos (by simp [early])]

theorem watchdogT2_late (late : (s.limits x).2.1 ≤ (s.time.toNat - start) / 100) : watchdogT2 asid sid s = s.orAsk
    (if x.dying then s.killAll asid sid
    else (s.killAll asid sid).event asid 4 (x.origin % 64) x.record ((s.residentAt asid sid).getD x.lastCore)) := by
  unfold watchdogT2 State.attempt
  dsimp only
  rw [known]
  dsimp only
  rw [sinceUs_eq began, began, if_neg (by simpa using late)]

theorem watchdogT3_not (not : (s.time.toNat - start) / 100 < (s.limits x).2.2 ∨ x.dying = false ∨ x.t3Done = true) :
    watchdogT3 asid sid s = s.orAsk s := by
  unfold watchdogT3 State.attempt
  dsimp only
  rw [known]
  dsimp only
  rw [sinceUs_eq began, began, if_pos]
  simp only [Option.isNone_some, Bool.false_or, Bool.or_eq_true, Bool.not_eq_true', decide_eq_true_eq]
  exact not.elim .inr .inl

/-- The strand's third step has been taken. -/
def State.t3Marked (s : State) (asid sid : Nat) : State := s.modStrand asid sid (fun y => { y with t3Done := true })

theorem watchdogT3_fences (late : (s.limits x).2.2 ≤ (s.time.toNat - start) / 100) (dying : x.dying = true) (first : x.t3Done = false) :
    watchdogT3 asid sid s = s.orAsk ((State.fence (if x.record = 0 then s.t3Marked asid sid
      else (((s.t3Marked asid sid).completeRecord asid x.record x.origin true).map (·.1)).getD (s.t3Marked asid sid))
      ((s.residentAt asid sid).getD x.lastCore)).event asid 5 (x.origin % 64) x.record ((s.residentAt asid sid).getD x.lastCore)) := by
  unfold watchdogT3 State.attempt
  dsimp only
  rw [known]
  dsimp only
  rw [sinceUs_eq began, began, if_neg (by simp [dying, first, late])]
  rfl

end

end Sys2Proof.Machine

namespace Sys2Proof.Proofs
open Sys2Proof.Machine

/-- Settles O60: each step of the watchdog is one equation; a core that step T3 fences is left vacated, which the event leaves as it is. -/
theorem watchdogEvents : Obligations.WatchdogEvents := by
  intro s asid sid x start reached known began
  obtain ⟨named, numbered⟩ := strand_named known
  have still := orAsk_self reached
  have t1 (y : State) (step : watchdogT1 asid sid s = y) : exec (.watchdogT1 asid sid) s = .next y := congrArg Host.Outcome.next step
  have t2 (y : State) (step : watchdogT2 asid sid s = y) : exec (.watchdogT2 asid sid) s = .next y := congrArg Host.Outcome.next step
  have t3 (y : State) (step : watchdogT3 asid sid s = y) : exec (.watchdogT3 asid sid) s = .next y := congrArg Host.Outcome.next step
  refine ⟨fun early => t1 _ (watchdogT1_before known began early), fun late first lone => t1 _ ?_, fun idle => (stopNow_none known idle).trans still,
    fun c n resident due => ⟨fun waits => ?_, fun leaves alone => ?_⟩, fun early => t2 _ ((watchdogT2_early known began early).trans still),
    fun late alive => t2 _ ?_, fun late dying => t2 _ ?_, fun not => t3 _ ((watchdogT3_not known began not).trans still),
    fun late dying first => ⟨_, t3 _ (watchdogT3_fences known began late dying first), ?_, fun u n record done => ?_⟩⟩
  · rw [watchdogT1_first known began late first lone, State.markT1, named, numbered]
    simp only [Bool.or_eq_true, Option.isSome_iff_ne_none, or_assoc]
  · rw [stopNow_due known resident due, if_neg, still]
    rintro at'
    simp only [Bool.and_eq_true, Bool.not_eq_true', List.any_eq_false, decide_eq_true_eq] at at'
    exact waits.elim (fun h => absurd (h.symm.trans at'.1) (by decide)) fun ⟨m, asked, older⟩ => at'.2 m asked older
  · rw [stopNow_due known resident due, if_pos]
    simp only [Bool.and_eq_true, Bool.not_eq_true', List.any_eq_false, decide_eq_true_eq]
    exact ⟨leaves, fun m asked older => alone ⟨m, asked, older⟩⟩
  · rw [watchdogT2_late known began late, if_neg (by simp [alive])]
  · rw [watchdogT2_late known began late, if_pos dying]
  · rw [status_event]
    exact (fence_rule _ _).1.1
  · have completed : (s.t3Marked asid sid).completeRecord asid x.record x.origin true = some (u, n) := done
    rw [if_neg record, completed]
    rfl

end Sys2Proof.Proofs
end

section
/-! Arrival queues, overflow lists and the zeroing of an occupant change (R202, R227 to R229, R236, R247): the statement O59. -/

namespace Sys2Proof.Machine

section
variable {s : State} {c : Nat}

/-! ### Aging (R227) -/

theorem isReady_eq {st : ParkState} {n : Nat} : Parked.isReady st = some n ↔ st = .ready n := by
  cases st <;> simp [Parked.isReady]

/-- A strand of the queue has been ready for 1 ms. -/
theorem agingDue_iff : s.agingDue c = true ↔ ∃ p ∈ (s.core c).arrival, ∃ n, p.state = .ready n ∧ n + 100000 ≤ s.time.toNat := by
  rw [State.agingDue, List.any_eq_true]
  refine exists_congr fun p => and_congr_right fun _ => ?_
  cases state : p.state with
  | ready n =>
    refine decide_eq_true_iff.trans ⟨fun late => ⟨n, rfl, late⟩, ?_⟩
    rintro ⟨n, ⟨⟩, late⟩
    exact late
  | _ => simp [Parked.isReady]

/-- The U strand of the core may be aged out (R184, R227, R326). -/
def State.mayBeAged (s : State) (c : Nat) : Prop :=
  s.asked c = false ∧ s.mayAge c = true ∧ State.mayPark { s with cur := c, curCtx := .u } = true ∧ (s.core c).long = none ∧ (s.core c).ending = false

theorem aging_early (early : s.agingDue c = false) : aging c s = s.orAsk s := by
  unfold aging State.attempt
  dsimp only
  rw [early]
  rfl

theorem aging_empty (due : s.agingDue c = true) (empty : (s.core c).uWork.holds = false) : aging c s = s.orAsk (s.nextU c) := by
  unfold aging State.attempt
  dsimp only
  rw [due, empty]
  rfl

theorem aging_holding (due : s.agingDue c = true) (holds : (s.core c).uWork.holds = true) : aging c s = s.orAsk
    (if s.asked c || !s.mayAge c then s
    else atCtx c .u (fun t => if t.mayPark && (s.core c).long.isNone && !(s.core c).ending then t.parkU (.ready t.now) else t) s) := by
  unfold aging State.attempt
  dsimp only
  rw [due, holds]
  rfl

theorem aging_parks (due : s.agingDue c = true) (holds : (s.core c).uWork.holds = true) (may : s.mayBeAged c) : aging c s = s.orAsk
    { ({ s with cur := c, curCtx := .u } : State).parkU (.ready s.time.toNat) with cur := s.cur, curCtx := s.curCtx } := by
  obtain ⟨asked, ages, parks, long, ending⟩ := may
  rw [aging_holding due holds, asked, ages, atCtx, parks, long, ending]
  rfl

theorem aging_refused (due : s.agingDue c = true) (holds : (s.core c).uWork.holds = true) (may : ¬s.mayBeAged c) : aging c s = s.orAsk s := by
  rw [aging_holding due holds]
  split
  · rfl
  · rename_i free
    rw [Bool.or_eq_true, not_or, Bool.not_eq_true, Bool.not_eq_true', Bool.not_eq_false] at free
    rw [atCtx, if_neg]
    rintro parks
    rw [Bool.and_eq_true, Bool.and_eq_true, Option.isNone_iff_eq_none, Bool.not_eq_true'] at parks
    exact may ⟨free.1, free.2, parks.1.1, parks.1.2, parks.2⟩

/-! ### Waits of parked strands (R202, R228) -/

variable {j : Nat} {p : Parked}

/-- Slot j of the arrival queue of core c becomes ready. -/
def State.slotReady (s : State) (c j : Nat) (p : Parked) : State :=
  s.setCore c { s.core c with arrival := (s.core c).arrival.set j { p with state := .ready s.time.toNat } }

theorem parkedCheck_of (listed : (s.core c).arrival[j]? = some p) : parkedCheck c j s =
    s.orAsk (if !waitOver (s.touchWait p) c p then s.touchWait p else ((s.touchWait p).slotReady c j p).nextU c) := by
  unfold parkedCheck State.attempt
  dsimp only
  rw [listed]
  rfl

theorem holds_slotReady (holds : (s.core c).uWork.holds = true) : (s.slotReady c j p).nextU c = s.slotReady c j p := by
  refine nextU_seated (.inl ?_)
  rw [State.slotReady, State.core_setCore_self]
  exact holds

theorem waitOver_join {va w : Nat} (state : p.state = .waitJoin va) (word : s.waitedWord c p.img.ctx.as va = some w) :
    waitOver s c p = true ↔ w % 2 ^ 32 = 0 := by
  rw [waitOver, state]
  dsimp only
  rw [word]
  exact beq_iff_eq

theorem waitOver_word {va v w : Nat} (state : p.state = .waitWord va v) (word : s.waitedWord c p.img.ctx.as va = some w) :
    waitOver s c p = true ↔ w ≠ v ∨ ∃ d, p.img.ctx.deadline = some d ∧ d ≤ s.time.toNat := by
  rw [waitOver, state]
  dsimp only
  rw [word]
  cases p.img.ctx.deadline <;> simp [State.now, or_comm]

/-- A strand that waits in one slot alone meets its deadline there. -/
theorem waitTimeout_one {asid sid : Nat} (one : (s.cores.flatMap (fun x => (List.range x.2.arrival.length).map (fun i => (x.1, i)))).filter (fun x =>
    ((s.core x.1).arrival[x.2]?).any (fun y => y.img.ctx.as == asid && y.img.ctx.sid == sid)) = [(c, j)]) :
    waitTimeout asid sid s = parkedCheck c j s := by
  have step (t : State) (x : Nat × Nat) : (match (s.core x.1).arrival[x.2]? with
      | some p => if p.img.ctx.as = asid ∧ p.img.ctx.sid = sid then parkedCheck x.1 x.2 t else t
      | none => t) = if ((s.core x.1).arrival[x.2]?).any (fun y => y.img.ctx.as == asid && y.img.ctx.sid == sid) then parkedCheck x.1 x.2 t else t := by
    cases (s.core x.1).arrival[x.2]? <;> simp
  calc waitTimeout asid sid s
      = (s.cores.flatMap (fun x => (List.range x.2.arrival.length).map (fun i => (x.1, i)))).foldl (fun t x =>
          if ((s.core x.1).arrival[x.2]?).any (fun y => y.img.ctx.as == asid && y.img.ctx.sid == sid) then parkedCheck x.1 x.2 t else t) s := by
        unfold waitTimeout
        simp only [upTo_eq]
        exact List.foldl_ext _ _ _ fun t x _ => step t x
    _ = _ := by
        rw [← List.foldl_filter, one]
        rfl

end

/-! ### The overflow list (R216, R229, R333) -/

section
variable {s : State} {c : Nat}

/-- Core c takes an entry of the list of a site. -/
theorem overflowAdmit_live (live : s.live c = true) (plain : s.mgmt.capMode = 0) :
    overflowAdmit c s = s.orAsk (admitFrom c (s.siteOf c) (s.site (s.siteOf c)).overflow s) := by
  have room : s.capRoom 1 = true := by
    rw [State.capRoom, plain]
    rfl
  unfold overflowAdmit State.attempt
  dsimp only
  rw [live, room]
  rfl

theorem overflowAdmit_dead (dead : s.live c = false) : overflowAdmit c s = s.orAsk s := by
  unfold overflowAdmit State.attempt
  dsimp only
  rw [dead]
  rfl

variable {i : Nat} {e : Overflow} {rest : List Overflow}

theorem admitFrom_lone (plain : s.mgmt.capMode = 0) (lone : ((s.strand e.asid e.sid).bind (·.crew)).bind s.crew = none)
    (only : ∀ o, e.only = some o → o = c) (takes : e.takes (s.cls c) = true) (lands : s.canLand c false = true) :
    admitFrom c i (e :: rest) s = s.admitOne i c e := by
  have here : (e.only.map (fun o => decide (o = c))).getD true = true := by
    cases named : e.only with
    | none => rfl
    | some o => exact decide_eq_true (only o named)
  rw [admitFrom, lone]
  exact if_pos (by rw [here, takes, lands, State.mayPlace, plain]; rfl)

theorem admitFrom_crew {w : Crew} {t : State} (crew : ((s.strand e.asid e.sid).bind (·.crew)).bind s.crew = some w)
    (enters : s.mayEnter c = true) (takes : e.takes (s.cls c) = true) (admits : s.admitCrew i w = some t) :
    admitFrom c i (e :: rest) s = t := by
  rw [admitFrom, crew]
  dsimp only
  rw [enters, takes, Bool.and_true, if_pos rfl, admits]

theorem placed_plain {t : State} (plain : t.mgmt.capMode = 0) (what core index : Nat) : t.placed what core index = t := by
  rw [State.placed, plain, if_neg (by decide), State.capture, plain]
  exact if_pos (by decide)

theorem admitOne_seats {t u : State} {g : Image} (loads : (s.dropOverflow i e).admitLoad c e = .ok (t, g))
    (seats : t.seat c g (s.crewOf e.asid e.sid).isSome = some u) (plain : u.mgmt.capMode = 0) : s.admitOne i c e = u := by
  rw [State.admitOne, loads]
  dsimp only
  rw [seats]
  exact placed_plain plain _ _ _

theorem admitOne_bad {err : LoadErr} (bad : (s.dropOverflow i e).admitLoad c e = .error err) :
    s.admitOne i c e = (s.dropOverflow i e).admitBad c e err := by
  rw [State.admitOne, bad]

/-! ### The end of zeroing (R236, R247) -/

theorem zeroingDone_waits (waits : (s.core c).zeroing = false ∨ s.panelsRead c = true) : zeroingDone c s = s.orAsk s := by
  unfold zeroingDone State.attempt
  dsimp only
  rw [if_pos (by rw [Bool.or_eq_true, Bool.not_eq_true']; exact waits)]

theorem zeroingDone_ends (zeroes : (s.core c).zeroing = true) (free : s.panelsRead c = false) :
    zeroingDone c s = s.orAsk ((s.endZeroing c).nextU c) := by
  unfold zeroingDone State.attempt
  dsimp only
  rw [zeroes, free]
  rfl

/-- The core of a new occupant once its zeroing has ended. -/
def Core.zeroed (k : Core) : Core := { k with zeroing := false, owner := if k.hasStrandOf k.prevAsid then some k.prevAsid else none }

/-- The memory of a core's scratchpad and slices once its zeroing has ended. -/
def State.zeroedMem (s : State) (c : Nat) : Memory := (s.mem.zero (Loc.spad c 0).key (spadSize (s.cls c) - 0x2000)).zero (Loc.slice c 0).key (2 ^ 17)

theorem endZeroing_eq (s : State) (c : Nat) : s.endZeroing c = State.modCore { s with mem := s.zeroedMem c } c Core.zeroed := rfl

theorem core_endZeroing (s : State) (c : Nat) : (s.endZeroing c).core c = (s.core c).zeroed := by
  rw [endZeroing_eq, State.core_modCore_self]
  rfl

end

end Sys2Proof.Machine

namespace Sys2Proof.Proofs
open Sys2Proof.Machine

/-- The bytes that a zeroing clears, and those that it leaves. -/
theorem byte_zeroedMem (s : State) (c : Nat) :
    (∀ o, o < spadSize (s.cls c) - 0x2000 → (s.zeroedMem c).byte ((Loc.spad c 0).key + o) = 0) ∧
    (∀ o, o < 2 ^ 17 → (s.zeroedMem c).byte ((Loc.slice c 0).key + o) = 0) ∧
    ∀ a, (a < (Loc.spad c 0).key ∨ (Loc.spad c 0).key + (spadSize (s.cls c) - 0x2000) ≤ a) →
      (a < (Loc.slice c 0).key ∨ (Loc.slice c 0).key + 2 ^ 17 ≤ a) → (s.zeroedMem c).byte a = s.mem.byte a := by
  refine ⟨fun o inside => ?_, fun o inside => ?_, fun a spad slice => ?_⟩
  · rw [State.zeroedMem, Memory.byte_zero, Memory.byte_zero]
    split
    · rfl
    · exact if_pos (by omega)
  · rw [State.zeroedMem, Memory.byte_zero]
    exact if_pos (by omega)
  · rw [State.zeroedMem, Memory.byte_zero, if_neg (by omega), Memory.byte_zero, if_neg (by omega)]

/-- Settles O59: an equation for each outcome of aging, of the check of a wait, of the overflow list and of the end of zeroing. -/
theorem queueEvents : Obligations.QueueEvents := by
  intro s c reached
  have still := orAsk_self reached
  dsimp only
  have ages (t : State) (step : aging c s = t) : exec (.aging c) s = .next t := congrArg Host.Outcome.next step
  have admits (t : State) (step : overflowAdmit c s = t) : exec (.overflowAdmit c) s = .next t := congrArg Host.Outcome.next step
  have ends (t : State) (step : zeroingDone c s = t) : exec (.occupantZeroingDone c) s = .next t := congrArg Host.Outcome.next step
  refine ⟨⟨fun early => ages _ ?_, fun due empty => ages _ (aging_empty (agingDue_iff.mpr due) empty),
      fun due holds may => ages _ (aging_parks (agingDue_iff.mpr due) holds may), fun holds may => ages _ ?_⟩, fun j p listed => ?_, ?_,
    fun idle => ends _ ((zeroingDone_waits (.inl idle)).trans still), fun read => ends _ ((zeroingDone_waits (.inr read)).trans still),
    fun zeroes free holds => ?_⟩
  · exact (aging_early (Bool.eq_false_iff.mpr fun due => early (agingDue_iff.mp due))).trans still
  · by_cases due : s.agingDue c = true
    · exact (aging_refused due holds may).trans still
    · exact (aging_early (Bool.eq_false_iff.mpr due)).trans still
  · have checks (t : State) (step : parkedCheck c j s = t) : exec (.parkedWaitCheck c j) s = .next t := congrArg Host.Outcome.next step
    have of := parkedCheck_of listed
    refine ⟨fun passed => checks _ (of.trans (by rw [passed]; rfl)), holds_slotReady, fun waits => checks _ (of.trans (by rw [waits]; rfl)),
      fun va w state word => waitOver_join state word, fun va v w state word => waitOver_word state word,
      fun asid sid one => congrArg Host.Outcome.next (waitTimeout_one one)⟩
  · refine ⟨fun dead => admits _ ((overflowAdmit_dead dead).trans still), fun e rest live plain list lone only takes lands => ?_,
      fun e rest w t live plain list crew enters takes step => admits _ ?_⟩
    · have one := (overflowAdmit_live live plain).trans (congrArg s.orAsk ((congrArg (admitFrom c (s.siteOf c) · s) list).trans
        (admitFrom_lone plain lone only takes lands)))
      exact ⟨fun t g u loads seats free => admits _ (one.trans (congrArg s.orAsk (admitOne_seats loads seats free))),
        fun err bad => admits _ (one.trans (congrArg s.orAsk (admitOne_bad bad)))⟩
    · rw [overflowAdmit_live live plain, list, admitFrom_crew crew enters takes step]
  · have core := core_endZeroing s c
    have seat : (s.endZeroing c).nextU c = s.endZeroing c := nextU_seated (.inl (by rw [core]; exact holds))
    have step := zeroingDone_ends zeroes free
    rw [seat, orAsk_reached (by exact reached)] at step
    refine ⟨_, ends _ step, ⟨rfl, fun d other => ?_⟩, core, byte_zeroedMem s c⟩
    exact State.core_modCore_ne { s with mem := s.zeroedMem c } other Core.zeroed

end Sys2Proof.Proofs
end

section
/-! Moves of strands, measured migration and pre-emption for priority (R230, R233, R331 to R333): the statement O58. -/

namespace Sys2Proof.Machine

section
variable {s : State} {c : Nat}

/-! ### A core whose U context has become free (R188, R220) -/

/-- The owner of a core whose strands have gone is lost, and its waiting messages go on: the rest of the core stays. -/
theorem core_refreshOwner (s : State) (c : Nat) : { (s.refreshOwner c).core c with
    owner := (s.core c).owner, slots := (s.core c).slots, rabs := (s.core c).rabs, l1d := (s.core c).l1d, l1i := (s.core c).l1i } = s.core c := by
  unfold State.refreshOwner
  split
  · rfl
  · split
    · rfl
    · unfold State.flushSlots
      dsimp only
      generalize flushed : State.modCore (s.modCore c fun k => { k with owner := none }) c _ = t
      have sent := (seats_sendOn t (c + 1) c).core c (Nat.ne_of_lt (Nat.lt_succ_self c))
      have at' : { t.core c with owner := (s.core c).owner, slots := (s.core c).slots, rabs := (s.core c).rabs } = s.core c := by
        rw [← flushed, State.core_modCore_self, State.core_modCore_self]
      unfold Core.Beside at sent
      rw [← sent] at at'
      exact (congrArg (fun k : Core => { k with l1d := (s.core c).l1d, l1i := (s.core c).l1i }) at' :)

theorem seats_refreshOwner (s : State) (c : Nat) : Seats c s (s.refreshOwner c) := by
  unfold State.refreshOwner
  split
  · exact .refl c s
  · split
    · exact .refl c s
    · exact (seats_modCore s c _).trans (seats_flushSlots _ c)

theorem nextU_unready (none : oldestReady (s.core c).arrival = none) : s.nextU c = s := by
  unfold State.nextU
  rw [none]
  split <;> rfl

/-- The core of a strand that has left its U context. -/
def Core.left (k : Core) : Core :=
  { k with uWork := .empty, u := { Ctx.reset with asid := k.u.asid }, acLive := 0, queue := k.queue.filter (fun e => e.ctx == .a), vfault := none,
           long := none, opreq := 3 }

theorem leaveU_unready (none : oldestReady (s.core c).arrival = none) : s.leaveU c = (s.modCore c Core.left).refreshOwner c := by
  have still : (s.modCore c Core.left).nextU c = s.modCore c Core.left := nextU_unready (by rw [State.core_modCore_self]; exact none)
  exact congrArg (·.refreshOwner c) still

/-! ### The acknowledgement of a move (R331) -/

variable {m : Move}

theorem capRoom_plain (plain : s.mgmt.capMode = 0) (n : Nat) : s.capRoom n = true := by
  rw [State.capRoom, plain]
  rfl

/-- The machine without a move. -/
def State.unmoved (s : State) (m : Move) : State := { s with moves := s.moves.filter (fun x => x.id != m.id) }

theorem liveMoveAck_of (found : s.moves.find? (fun x => x.id == m.id) = some m) (plain : s.mgmt.capMode = 0) : liveMoveAck m.id s = s.orAsk
    (if !s.live m.dst || !capHolds (s.cls m.dst) m.img.mask || !s.canLand m.dst m.toU then
      (if s.live m.src then (s.unmoved m).moveFails m else (s.unmoved m).moveLost m)
    else if s.live m.src && !s.mailFits m.src (s.moveFwd m m.dst) then s
    else if !m.img.poison.isEmpty then (s.unmoved m).movePoisoned m m.dst
    else ((((s.unmoved m).seat m.dst m.img m.toU).map (fun u => u.moveLands m m.dst)).getD ((s.unmoved m).moveFails m))) := by
  unfold liveMoveAck State.attempt
  dsimp only
  rw [found]
  dsimp only
  rw [capRoom_plain plain, plain]
  dsimp only [State.unmoved]
  rw [Bool.not_true, if_neg Bool.false_ne_true, decide_eq_false (show ¬(0 = 2) by decide), Bool.false_and, if_neg Bool.false_ne_true,
    if_neg (show ¬(0 = 2) by decide)]
  cases State.seat { s with moves := s.moves.filter (fun x => x.id != m.id) } m.dst m.img m.toU <;> rfl

theorem lands_iff : ¬(!s.live m.dst || !capHolds (s.cls m.dst) m.img.mask || !s.canLand m.dst m.toU) = true ↔
    s.live m.dst = true ∧ capHolds (s.cls m.dst) m.img.mask = true ∧ s.canLand m.dst m.toU = true := by
  simp [and_assoc]

theorem room_iff : ¬(s.live m.src && !s.mailFits m.src (s.moveFwd m m.dst)) = true ↔
    s.live m.src = false ∨ s.mailFits m.src (s.moveFwd m m.dst) = true := by
  cases s.live m.src <;> simp

/-! ### A move that is made, or fails (R229, R233, R331) -/

theorem moveLands_plain {t : State} (d : Nat) (plain : t.mgmt.capMode = 0)
    (leaves : (if s.live m.src then (s.modCore m.src (fun k => { k with fwdcfg := s.moveFwd m d, uWork := .empty })).leaveU m.src else s) = t) :
    s.moveLands m d = t.modStrand m.img.ctx.as m.img.ctx.sid (fun x => { x with lastCore := d, quiet := if m.kind = .measured then 4 else x.quiet }) := by
  unfold State.moveLands
  dsimp only
  rw [leaves]
  exact placed_plain (t := t.modStrand _ _ _) plain _ _ _

theorem moveLands_dead (d : Nat) (plain : s.mgmt.capMode = 0) (dead : s.live m.src = false) : (s.moveLands m d).cores = s.cores := by
  rw [moveLands_plain d plain (if_neg (by simp [dead]))]
  rfl

theorem moveLands_live (d : Nat) (plain : s.mgmt.capMode = 0) (live : s.live m.src = true) (unready : oldestReady (s.core m.src).arrival = none) :
    ((s.moveLands m d).core m.src).uWork = .empty ∧ ((s.moveLands m d).core m.src).arrival = (s.core m.src).arrival ∧
    ((s.moveLands m d).core m.src).fwdcfg = s.moveFwd m d := by
  have leaves := leaveU_unready (s := s.modCore m.src (fun k => { k with fwdcfg := s.moveFwd m d, uWork := .empty })) (c := m.src)
    (by rw [State.core_modCore_self]; exact unready)
  generalize entered : (s.modCore m.src (fun k => { k with fwdcfg := s.moveFwd m d, uWork := .empty })).modCore m.src Core.left = t at leaves
  have core : t.core m.src = Core.left { s.core m.src with fwdcfg := s.moveFwd m d, uWork := .empty } := by
    rw [← entered, State.core_modCore_self, State.core_modCore_self]
  have mode : (t.refreshOwner m.src).mgmt.capMode = 0 := by
    have same := congrArg (fun x : State => x.mgmt.capMode) (seats_refreshOwner t m.src).rest
    exact (same :).trans (by rw [← entered]; exact plain)
  have lands := moveLands_plain d mode ((if_pos live).trans leaves)
  have at' : (s.moveLands m d).core m.src = (t.refreshOwner m.src).core m.src := by
    rw [lands]
    rfl
  have kept := core_refreshOwner t m.src
  rw [at']
  refine ⟨?_, ?_, ?_⟩
  · exact ((congrArg Core.uWork kept :).trans (congrArg Core.uWork core :))
  · exact ((congrArg Core.arrival kept :).trans (congrArg Core.arrival core :))
  · exact ((congrArg Core.fwdcfg kept :).trans (congrArg Core.fwdcfg core :))

theorem moveFails_measured (measured : m.kind = .measured) : s.moveFails m = s.enterU m.src m.img := by
  rw [State.moveFails, measured]
  rfl

theorem moveFails_listed {t : State} (other : m.kind ≠ .measured)
    (lone : ((s.strand m.img.ctx.as m.img.ctx.sid).bind (·.crew)).bind s.crew = none)
    (listed : s.overflow m.img (s.siteOf m.src) m.needed none 0 = .ok t) :
    s.moveFails m = (t.modCore m.src (fun k => { k with uWork := .empty })).leaveU m.src := by
  unfold State.moveFails
  dsimp only
  rw [if_neg (by simpa using other), State.crewOf, lone]
  dsimp only [Option.map_none, Option.getD_none]
  rw [listed]

/-! ### Measured migration (R233) -/

/-- The strand of the core stays, and the window no longer asks for another class. -/
def State.mixStays (s : State) (c : Nat) : State := s.setCore c { s.core c with mix := { (s.core c).mix with due := none } }

theorem measuredMigration_idle (idle : (s.core c).mix.due = none) : measuredMigration c s = s := by
  unfold measuredMigration
  dsimp only
  rw [idle]

/-- The strand of core c is on its way to core d for its instruction mix. -/
def State.mixMoves (s : State) (c d : Nat) : State :=
  ((s.interruptLong c).modCore c (fun k => { k with mix := { k.mix with due := none } })).startMove c d ((s.interruptLong c).imageU c)
    .measured false ((s.interruptLong c).imageU c).mask

theorem moves_startMove (s : State) (c dst : Nat) (g : Image) (kind : MoveKind) (toU : Bool) (needed : Nat) :
    (s.startMove c dst g kind toU needed).moves = s.moves ++ [{ id := s.nextId, img := g, src := c, dst, kind, toU, needed }] := rfl

/-- The core of a strand that is on its way for its instruction mix, and the move. -/
theorem mixMoves_starts (s : State) (c d : Nat) : let g := (s.interruptLong c).imageU c
    ((s.mixMoves c d).core c).uWork = .reserved g.ctx.sid ∧ ((s.mixMoves c d).core c).mix.due = none ∧
    (s.mixMoves c d).moves = (s.interruptLong c).moves ++
      [{ id := (s.interruptLong c).nextId, img := g, src := c, dst := d, kind := .measured, toU := false, needed := g.mask }] := by
  unfold State.mixMoves
  generalize (s.interruptLong c).imageU c = g
  generalize s.interruptLong c = t
  dsimp only
  rw [core_startMove, State.core_modCore_self, moves_startMove]
  exact ⟨rfl, rfl, rfl⟩

theorem measuredMigration_due {cl : Cls} (due : (s.core c).mix.due = some cl) : measuredMigration c s =
    if !s.mixMayMove c then s.mixStays c
    else if (s.core c).long.isSome || s.asked c || (s.agingDue c && s.mayAge c) then s
    else (((s.firstRanked c ((s.candidates c ((s.interruptLong c).imageU c).mask).filter (fun t => s.cls t == cl))).map (fun t =>
      if !s.mayLeave c then s else s.mixMoves c t)).getD (s.mixStays c)) := by
  unfold measuredMigration
  dsimp only
  rw [due]
  dsimp only
  cases (s.firstRanked c ((s.candidates c ((s.interruptLong c).imageU c).mask).filter (fun t => s.cls t == cl))) <;> rfl

/-- Something that comes before a measured migration is due (R326). -/
theorem mixWaits_iff : ((s.core c).long.isSome || s.asked c || (s.agingDue c && s.mayAge c)) = true ↔
    (s.core c).long ≠ none ∨ s.asked c = true ∨
      (∃ p ∈ (s.core c).arrival, ∃ n, p.state = .ready n ∧ n + 100000 ≤ s.time.toNat) ∧ s.mayAge c = true := by
  rw [Bool.or_eq_true, Bool.or_eq_true, Bool.and_eq_true, agingDue_iff, Option.isSome_iff_ne_none, or_assoc]

/-- A class has a count for migration exactly when no other class's count is above 512. -/
theorem mixClass_none (own : Cls) (m : Mix) : mixClass own m = none ↔
    ∀ cl, cl ≠ own → (match cl with | .control => m.control | .vector => m.vector | .tensor => m.tensor) ≤ 512 := by
  have folds (l : List (Cls × Nat)) (b : Cls × Nat) : l.foldl (fun (best : Option (Cls × Nat)) p => match best with
      | none => some p
      | some b => if p.2 > b.2 then some p else some b) (some b) ≠ none := by
    induction l generalizing b with
    | nil => exact Option.some_ne_none b
    | cons p l ih =>
      rw [List.foldl_cons]
      dsimp only
      split <;> exact ih _
  have empty (l : List (Cls × Nat)) : (l.foldl (fun (best : Option (Cls × Nat)) p => match best with
      | none => some p
      | some b => if p.2 > b.2 then some p else some b) none).map (·.1) = none ↔ l = [] := by
    cases l with
    | nil => simp
    | cons p l => simpa using folds l p
  rw [mixClass]
  refine (empty _).trans ?_
  rw [List.filter_eq_nil_iff]
  constructor
  · intro small cl other
    cases cl <;> simp at small <;> grind
  · intro small p listed
    have bound := small p.1
    simp only [List.mem_cons, List.not_mem_nil, or_false] at listed
    obtain rfl | rfl | rfl := listed <;> simp at bound ⊢ <;> exact bound

/-- The core whose window ends counts anew. -/
theorem core_closeWindow (s : State) (c d : Nat) : (s.closeWindow c).core d = (s.modCore c (fun k => { k with
    mix := { issued := 0, control := 0, vector := 0, tensor := 0,
             due := if s.mixMayMove c then mixClass (s.cls c) (s.core c).mix else none } })).core d := rfl

theorem closeWindow_strands (x : Strand) (listed : x ∈ (s.closeWindow c).strands) : x ∈ s.strands ∨
    ∃ y ∈ s.strands, y.asid = (s.core c).u.as ∧ y.sid = (s.core c).u.sid ∧ x = { y with quiet := y.quiet - 1 } := by
  obtain ⟨y, was, rfl⟩ := List.mem_map.mp listed
  by_cases own : y.asid = (s.core c).u.as ∧ y.sid = (s.core c).u.sid
  · exact .inr ⟨y, was, own.1, own.2, if_pos own⟩
  · exact .inl (if_neg own ▸ was)

end

/-! ### Pre-emption for priority (R332) -/

section
variable {s : State} {i : Nat}

/-- The record that makes a strand give way, with its queue, its place in the ready list, and the victim. -/
def State.wayDue (s : State) (i : Nat) : Option (Nat × Nat × LQueue × ReadyRec × Rec × Nat) :=
  (s.siteQueues i).findSome? (fun (a, q, k) =>
    if !s.queueRuns a q then none
    else (k.ready.filter (fun r => r.since + oneMs ≤ s.now)).findSome? (fun r =>
      match s.readRec a r.record with
      | some x =>
        if x.size ≥ 2 || x.status ≠ 1 || !((s.liveIn x.cls).filter s.mayEnter).isEmpty then none
        else (firstVictim (s.victims x.cls k.eprio)).map (fun c => (a, q, k, r, x, c))
      | none => none))

/-- The strand gives way, once it may leave and capture has room. -/
def State.wayStep (s : State) (i : Nat) : Option (Nat × Nat × LQueue × ReadyRec × Rec × Nat) → State
  | none => s
  | some (a, q, k, r, x, c) => if !s.mayLeave c then s else if s.capRoom 1 then s.makeWay i c a q k r.record x else s.capHold

theorem schedulerPreempt_eq : schedulerPreempt i s = s.orAsk ((s.touchReady i).wayStep i ((s.touchReady i).wayDue i)) := rfl

theorem wayStep_some {a q c : Nat} {k : LQueue} {r : ReadyRec} {x : Rec} (plain : s.mgmt.capMode = 0) :
    s.wayStep i (some (a, q, k, r, x, c)) = if s.mayLeave c then s.makeWay i c a q k r.record x else s := by
  rw [State.wayStep, capRoom_plain plain, if_pos rfl]
  by_cases leaves : s.mayLeave c = true
  · rw [if_neg (by simp [leaves]), if_pos leaves]
  · rw [if_pos (by simpa using leaves), if_neg leaves]

theorem wayDue_one {a q c e since : Nat} {k : LQueue} {r : ReadyRec} {x : Rec} (queues : s.siteQueues i = [(a, q, k)])
    (runs : s.queueRuns a q = true) (ready : k.ready = [r]) (late : r.since + 100000 ≤ s.time.toNat) (read : s.readRec a r.record = some x)
    (single : x.size < 2) (status : x.status = 1) (full : ∀ d ∈ s.liveIn x.cls, s.mayEnter d = false)
    (victim : s.victims x.cls k.eprio = [(c, e, since)]) : s.wayDue i = some (a, q, k, r, x, c) := by
  have none : ((s.liveIn x.cls).filter s.mayEnter).isEmpty = true := by
    rw [List.isEmpty_iff, List.filter_eq_nil_iff]
    exact fun d hd => by simp [full d hd]
  have aged : (k.ready.filter (fun r => r.since + oneMs ≤ s.now)) = [r] := by
    rw [ready]
    simp [oneMs, State.now, late]
  unfold State.wayDue
  rw [queues, List.findSome?_singleton]
  dsimp only
  rw [runs, aged, Bool.not_true, if_neg Bool.false_ne_true, List.findSome?_singleton, read]
  dsimp only
  rw [if_neg (by simp [none, status, single]), victim]
  rfl

theorem wayDue_none (early : ∀ x ∈ s.siteQueues i, ∀ r ∈ x.2.2.ready, s.time.toNat < r.since + 100000) : s.wayDue i = none := by
  refine List.findSome?_eq_none_iff.mpr fun x hx => ?_
  have aged : (x.2.2.ready.filter (fun r => r.since + oneMs ≤ s.now)) = [] := by
    refine List.filter_eq_nil_iff.mpr fun r hr late => ?_
    have young := early x hx r hr
    have old : r.since + 100000 ≤ s.time.toNat := of_decide_eq_true late
    omega
  dsimp only
  rw [aged]
  split <;> rfl

end

end Sys2Proof.Machine

namespace Sys2Proof.Proofs
open Sys2Proof.Machine

/-- Settles O58: an equation for each outcome of an acknowledgement, of a window's end, of measured migration and of pre-emption. -/
theorem moveEvents : Obligations.MoveEvents := by
  intro s reached
  have still := orAsk_self reached
  refine ⟨fun m found plain => ?_, fun m d plain => ⟨moveLands_dead d plain, fun live unready => ?_⟩, fun m measured => moveFails_measured measured,
    fun m t other lone listed => moveFails_listed other lone listed, fun c => ⟨rfl, (core_closeWindow s c c).trans (State.core_modCore_self ..),
      fun d other => (core_closeWindow s c d).trans (State.core_modCore_ne s other _), fun x listed => closeWindow_strands x listed⟩, fun c => ?_, mixClass_none, fun i => ?_⟩
  · have acks (t : State) (step : liveMoveAck m.id s = t) : exec (.liveMoveAck m.id) s = .next t := congrArg Host.Outcome.next step
    have of := liveMoveAck_of found plain
    refine ⟨fun u fits room clean seats => acks _ (of.trans ?_), fun fits room clean seats => acks _ (of.trans ?_),
      fun fits room poison => acks _ (of.trans ?_), fun fits full => acks _ (of.trans ?_), fun away live => acks _ (of.trans ?_),
      fun away dead => acks _ (of.trans ?_)⟩
    · have seated : (s.unmoved m).seat m.dst m.img m.toU = some u := seats
      rw [if_neg (lands_iff.mpr fits), if_neg (room_iff.mpr room), if_neg (by simp [clean]), seated]
      rfl
    · have seated : (s.unmoved m).seat m.dst m.img m.toU = none := seats
      rw [if_neg (lands_iff.mpr fits), if_neg (room_iff.mpr room), if_neg (by simp [clean]), seated]
      rfl
    · rw [if_neg (lands_iff.mpr fits), if_neg (room_iff.mpr room), if_pos (by simpa using poison)]
      rfl
    · rw [if_neg (lands_iff.mpr fits), if_pos (not_not.mp (mt room_iff.mp full)), still]
    · rw [if_pos (not_not.mp (mt lands_iff.mp away)), if_pos live]
      rfl
    · rw [if_pos (not_not.mp (mt lands_iff.mp away)), if_neg (by simp [dead])]
      rfl
  · obtain ⟨work, arrival, fwd⟩ := moveLands_live d plain live unready
    exact ⟨work, arrival, fun other => fwd.trans (if_neg other), fun stream => fwd.trans (if_pos stream)⟩
  · have moves (t : State) (step : measuredMigration c s = t) : exec (.measuredMigration c) s = .next t := congrArg Host.Outcome.next step
    refine ⟨fun idle => moves _ (measuredMigration_idle idle), fun due fixed => ?_, fun cl due may => ?_⟩
    · obtain ⟨cl, due⟩ := Option.ne_none_iff_exists'.mp due
      exact moves _ ((measuredMigration_due due).trans (if_pos (by simp [fixed])))
    · have of := (measuredMigration_due due).trans (if_neg (by simp [may]))
      refine ⟨fun before => moves _ (of.trans (if_pos (mixWaits_iff.mpr before))), fun free none => moves _ ?_, fun d free chosen =>
        ⟨fun stays => moves _ ?_, fun leaves => ⟨s.mixMoves c d, moves _ ?_, mixMoves_starts s c d⟩⟩⟩
      · have unmet : ¬((s.core c).long.isSome || s.asked c || (s.agingDue c && s.mayAge c)) = true := mt mixWaits_iff.mp free
        rw [of, if_neg unmet, none]
        rfl
      · have unmet : ¬((s.core c).long.isSome || s.asked c || (s.agingDue c && s.mayAge c)) = true := mt mixWaits_iff.mp free
        rw [of, if_neg unmet, chosen]
        exact if_pos (by simp [stays])
      · have unmet : ¬((s.core c).long.isSome || s.asked c || (s.agingDue c && s.mayAge c)) = true := mt mixWaits_iff.mp free
        rw [of, if_neg unmet, chosen]
        exact if_neg (by simp [leaves])
  · have preempts (t : State) (step : schedulerPreempt i s = t) : exec (.schedulerPreempt i) s = .next t := congrArg Host.Outcome.next step
    refine ⟨fun a q k r x c e since queues runs ready late read single status full victim plain => ?_, fun early => preempts _ ?_⟩
    · have step := schedulerPreempt_eq (s := s) (i := i)
      rw [wayDue_one queues runs ready late read single status full victim, wayStep_some plain] at step
      exact ⟨fun leaves => preempts _ (step.trans (congrArg _ (if_pos leaves))), fun stays => preempts _ (step.trans (congrArg _ (if_neg (by simp [stays]))))⟩
    · rw [schedulerPreempt_eq, wayDue_none early]
      rfl

end Sys2Proof.Proofs
end

section
/-! Jobs, readiness of records, cancellation, and the event and syscall rings (R291, R292, R297, R299, R300, R305, R354): the statement O57. -/

namespace Sys2Proof.Machine

section
variable {s t u : State} {asid q : Nat}

theorem attempt_eq (s : State) (f : State → State) : s.attempt f = s.orAsk (f s) := rfl

theorem capture_plain (plain : s.mgmt.capMode = 0) (head : Nat) (dws : List Nat) : s.capture head dws = s := by
  rw [State.capture, plain]
  exact if_pos (by decide)

/-! ### No job of the queue waits for a run slot (R291) -/

/-- A job of the queue waits for a run slot. -/
def Job.awaits (asid q : Nat) (j : Job) : Bool := j.asid == asid && j.queue == q && j.waits.isSome

theorem awaits_eq_false (none : ∀ j ∈ s.jobs, ¬(j.asid = asid ∧ j.queue = q ∧ j.waits ≠ none)) : ∀ j ∈ s.jobs, ¬Job.awaits asid q j = true := by
  intro j listed waiting
  refine none j listed ?_
  simp only [Job.awaits, Bool.and_eq_true, beq_iff_eq, Option.isSome_iff_ne_none] at waiting
  exact ⟨waiting.1.1, waiting.1.2, waiting.2⟩

theorem retryRuns_none (none : ∀ j ∈ s.jobs, ¬(j.asid = asid ∧ j.queue = q ∧ j.waits ≠ none)) : s.retryRuns asid q = s := by
  have mine : s.jobs.filter (Job.awaits asid q) = [] := List.filter_eq_nil_iff.mpr (awaits_eq_false none)
  unfold State.retryRuns
  dsimp only
  rw [show s.jobs.filter (fun j => j.asid == asid && j.queue == q && j.waits.isSome) = [] from mine]
  rfl

theorem dropRuns_none (none : ∀ j ∈ s.jobs, ¬(j.asid = asid ∧ j.queue = q ∧ j.waits ≠ none)) : s.dropRuns asid q = s := by
  have mine : s.jobs.filter (Job.awaits asid q) = [] := List.filter_eq_nil_iff.mpr (awaits_eq_false none)
  have rest : s.jobs.filter (fun j => !Job.awaits asid q j) = s.jobs :=
    List.filter_eq_self.mpr (fun j listed => by simpa using awaits_eq_false none j listed)
  calc s.dropRuns asid q
      = (s.jobs.filter (Job.awaits asid q)).foldl (fun (t : State) j => t.completeJob j true)
          { s with jobs := s.jobs.filter (fun j => !Job.awaits asid q j) } := rfl
    _ = s := by rw [mine, rest]; rfl

/-! ### Taking the next job of a ring (R291) -/

theorem thaw_running {sp : Space} {k : LQueue} (bound : s.space asid = some sp) (listed : sp.queue q = some k) (running : k.frozen = false) :
    s.thaw asid q = s := by
  rw [State.thaw, bound]
  dsimp only
  rw [listed]
  exact if_neg (by simp [running])

theorem firstTake_plain (plain : s.mgmt.capMode = 0) : s.firstTake asid = s := by
  unfold State.firstTake State.firstDue
  rw [plain]
  rfl

/-- What a queue's next job is, as the device meets it: the descriptor read, the position, and the words of its slot. -/
structure State.NextJob (s : State) (asid q : Nat) (sp : Space) (k : LQueue) (p : Nat) (s2 : State) (d : List Nat) : Prop where
  bound : s.space asid = some sp
  listed : sp.queue q = some k
  runs : s.queueRuns asid q = true
  slots : 0 < k.slots
  read : ∃ s1, s.devRead asid (sp.descVa q + 0x20) 8 = some (s1, p) ∧ s1.devReads asid (k.ring + p % k.slots * 64) 8 = some (s2, d)
  plain : s.mgmt.capMode = 0

variable {sp : Space} {k : LQueue} {p : Nat} {s2 : State} {d : List Nat}

theorem takeNext_of (next : s.NextJob asid q sp k p s2 d) (plain : s2.mgmt.capMode = 0) : takeNext asid q s =
    if d.getD 0 0 ≠ p + 1 then s
    else
      let slot := k.ring + p % k.slots * 64
      let t1 := (s2.devWrite asid slot 8 (p + k.slots)).getD s2
      let w := ((t1.devWrite asid (sp.descVa q + 0x20) 8 (p + 1)).getD t1).startJob asid q slot p d
      if w.mgmt.capMode = 2 then w.replayTake else w.capture (jobHead asid q p) (d.take 5) := by
  obtain ⟨bound, listed, runs, slots, ⟨s1, pos, words⟩, mode⟩ := next
  unfold takeNext
  rw [bound]
  dsimp only
  rw [listed, pos]
  dsimp only
  rw [if_neg (by simp [runs, slots.ne']), words]
  dsimp only
  rw [capRoom_plain mode, firstTake_plain plain, plain, Bool.not_true, if_neg Bool.false_ne_true, decide_eq_false (show ¬(0 = 2) by decide),
    Bool.false_and, if_neg Bool.false_ne_true]

theorem takeNext_unpublished (next : s.NextJob asid q sp k p s2 d) (plain : s2.mgmt.capMode = 0) (other : d.getD 0 0 ≠ p + 1) :
    takeNext asid q s = s := (takeNext_of next plain).trans (if_pos other)

theorem takeNext_published {t1 t : State} (next : s.NextJob asid q sp k p s2 d) (plain : s2.mgmt.capMode = 0) (published : d.getD 0 0 = p + 1)
    (lap : s2.devWrite asid (k.ring + p % k.slots * 64) 8 (p + k.slots) = some t1)
    (head : t1.devWrite asid (sp.descVa q + 0x20) 8 (p + 1) = some t)
    (mode : (t.startJob asid q (k.ring + p % k.slots * 64) p d).mgmt.capMode = 0) :
    takeNext asid q s = t.startJob asid q (k.ring + p % k.slots * 64) p d := by
  rw [takeNext_of next plain, if_neg (not_not.mpr published)]
  dsimp only
  rw [lap, Option.getD_some, head, Option.getD_some, mode, if_neg (by decide), capture_plain mode]

theorem jobTake_of (next : (s.touchQueue asid q).NextJob asid q sp k p s2 d) (running : k.frozen = false)
    (none : ∀ j ∈ (s.touchQueue asid q).jobs, ¬(j.asid = asid ∧ j.queue = q ∧ j.waits ≠ none)) :
    jobTake asid q s = s.orAsk (takeNext asid q (s.touchQueue asid q)) := by
  rw [jobTake, attempt_eq]
  dsimp only
  rw [thaw_running next.bound next.listed running, next.runs, if_pos rfl, retryRuns_none none]

/-! ### What a job does once taken (R291) -/

variable {slot : Nat}

theorem startJob_bad (bad : badJob d = true) : s.startJob asid q slot p d = s.skipJob asid q slot 2 (d.getD 4 0) p := if_pos bad

theorem startJob_run (good : badJob d = false) (kind : d.getD 1 0 = 1) : s.startJob asid q slot p d =
    s.startRun { asid, queue := q, pos := p, record := d.getD 2 0, isRun := true, completion := d.getD 4 0 } (d.getD 2 0) (d.getD 3 0) := by
  unfold State.startJob
  dsimp only
  rw [good, if_neg Bool.false_ne_true, if_neg (by rw [kind]; decide), kind]
  rfl

theorem startJob_record {v : State} {st w : Nat} (good : badJob d = false) (kind : d.getD 1 0 = 0)
    (status : (s.devTouch asid (d.getD 2 0)).recordStatus asid (d.getD 2 0) = some (u, st))
    (wait : (s.devTouch asid (d.getD 2 0)).recordWait asid (d.getD 2 0) = some (v, w)) : s.startJob asid q slot p d =
    if st = 0 ∧ w = 0 then
      State.makeReady { s.devTouch asid (d.getD 2 0) with jobs := (s.devTouch asid (d.getD 2 0)).jobs ++
          [{ asid, queue := q, pos := p, record := d.getD 2 0, isRun := false, completion := d.getD 4 0 }] } asid (d.getD 2 0) q
    else (s.devTouch asid (d.getD 2 0)).skipJob asid q slot 2 (d.getD 4 0) p := by
  unfold State.startJob
  dsimp only
  rw [good, if_neg Bool.false_ne_true, if_pos kind, status, wait, kind]
  cases st with
  | zero => cases w <;> rfl
  | succ st => exact (if_neg (fun both => Nat.succ_ne_zero st both.1)).symm

theorem startRun_error {j : Job} {template patch : Nat} {e} (made : s.instantiate j.asid template patch j.queue = .error e) :
    s.startRun j template patch = s.skipJob j.asid j.queue template 4 j.completion j.pos := by
  rw [State.startRun, made]

theorem startRun_waits {j : Job} {template patch : Nat} (made : s.instantiate j.asid template patch j.queue = .ok (u, 0)) :
    s.startRun j template patch = { u with jobs := u.jobs ++ [{ j with waits := some (template, patch) }] } := by
  rw [State.startRun, made]
  rfl

theorem startRun_made {j : Job} {template patch h : Nat} (made : s.instantiate j.asid template patch j.queue = .ok (u, h)) (named : h ≠ 0) {r : Run}
    (found : u.runs.reverse.find? (fun r => r.asid == j.asid && r.handle == h) = some r) :
    s.startRun j template patch =
      let w : State := { u with jobs := u.jobs ++ [{ j with record := h }] }
      if r.left = 0 then w.endJob j.asid h r.bad else w := by
  unfold State.startRun
  rw [made]
  split
  case h_1 e is => cases is
  case h_2 s1 is =>
    cases is
    exact absurd rfl named
  case h_3 s1 h1 other is =>
    cases is
    dsimp only
    rw [found]

/-! ### Readiness of a record (R292, R297) -/

variable {va w : Nat}

theorem makeReady_waits (wait : s.recordWait asid va = some (t, w)) (left : w ≠ 0) (origin : Nat) : s.makeReady asid va origin = t := by
  rw [State.makeReady, wait]
  exact if_pos left

theorem makeReady_ready (wait : s.recordWait asid va = some (t, 0)) (cas : t.casStatus asid va 0 1 = some u) (origin : Nat) :
    s.makeReady asid va origin = u.modQueue asid origin (fun k => { k with ready := k.ready ++ [{ record := va, since := u.time.toNat }] }) := by
  rw [State.makeReady, wait]
  dsimp only
  rw [cas, if_neg (by simp)]
  rfl

theorem clusterReady_waits (wait : s.recordWait asid va = some (t, w)) (left : w ≠ 0) : s.clusterReady asid va = t := by
  obtain ⟨w, rfl⟩ := Nat.exists_eq_succ_of_ne_zero left
  rw [State.clusterReady, wait]
  rfl

theorem clusterReady_ready (wait : s.recordWait asid va = some (t, 0)) (cas : t.casStatus asid va 0 1 = some u) :
    s.clusterReady asid va = Spec.stamped u asid va := by
  unfold State.clusterReady
  rw [wait]
  split
  case h_1 s1 is =>
    cases is
    rw [cas]
    rfl
  case h_2 s1 w other is =>
    cases is
    exact absurd rfl other
  case h_3 is => cases is

theorem exec_recordReady_run {r : Run} (run : s.runOf asid va = some r) : exec (.recordReady asid va) s =
    .next (s.orAsk (if r.released then s.makeReady asid va r.origin else s)) := by
  refine congrArg Host.Outcome.next ?_
  rw [recordReady, attempt_eq, run]

theorem exec_recordReady_cluster (run : s.runOf asid va = none) (holds : s.clusterHolds asid va = true) :
    exec (.recordReady asid va) s = .next (s.orAsk (s.clusterReady asid va)) := by
  refine congrArg Host.Outcome.next ?_
  rw [recordReady, attempt_eq, run]
  dsimp only
  rw [if_pos holds]

theorem exec_recheck {c j : Nat} {e : ClEntry} (entry : (s.cluster c).tasks[j]? = some e) : exec (.clusterTaskRecheck c j) s =
    .next (s.orAsk (Spec.noted (s.clusterReady e.asid e.record) c j)) := by
  refine congrArg Host.Outcome.next ?_
  rw [clusterRecheck, attempt_eq, entry]
  rfl

theorem since_seen {e : ClEntry} {st : Nat} (status : s.recordStatus e.asid e.record = some (u, st)) : (e.seen s).since =
    if st = 1 then (if e.since = none then some s.time.toNat else e.since) else none := by
  unfold ClEntry.seen
  rw [status]
  by_cases ready : st = 1
  · rw [ready, if_pos rfl]
    cases since : e.since <;> simp [since, State.now]
  · rw [if_neg ready]
    split
    · rename_i one
      exact absurd (congrArg (fun x => (x.map (·.2)).getD 0) one) ready
    · rfl

/-! ### Cancelling a record (R299) -/

theorem unreserve_free (free : s.reservedSite asid va = none) : s.unreserve asid va = s := by
  rw [State.unreserve, free]

theorem cancelOne_of {old : Nat} (either : old = 0 ∨ old = 1) (cas : s.casStatus asid va old 5 = some t)
    (not : s.casStatus asid va (1 - old) 5 = none) (lone : t.runOf asid va = none) (free : t.reservedSite asid va = none) :
    s.cancelOne asid va = ((t.unlist asid va).endJob asid va true, true) := by
  have found : (s.casStatus asid va 0 5).or (s.casStatus asid va 1 5) = some t := by
    rcases either with rfl | rfl
    · rw [cas]
      rfl
    · rw [not, cas]
      rfl
  have lone' : (t.unlist asid va).runOf asid va = none := lone
  rw [State.cancelOne, found]
  dsimp only
  rw [unreserve_free (s := t.unlist asid va) free, lone']

theorem cancelWalk_nil (s : State) (asid fuel : Nat) : s.cancelWalk asid fuel [] = s := by
  cases fuel <;> rfl

/-- One of the records that a queue's cancellation finds is cancelled, with what waits for it. -/
def State.cancelHeld (s : State) (asid va : Nat) : State :=
  let (u, did) := s.cancelOne asid va
  if did then u.cancelWalk asid walkFuel (runRecords (s.serialWaiters asid va)) else u

theorem cancelHeld_lone (lone : s.serialWaiters asid va = []) : s.cancelHeld asid va = (s.cancelOne asid va).1 := by
  unfold State.cancelHeld
  rw [lone]
  dsimp only
  rw [show runRecords [] = [] from rfl, cancelWalk_nil, ite_self]

/-- A cancelled queue's FAULT and STATE are 0 again. -/
def State.queueFreed (s : State) (sp : Space) (asid q : Nat) : State :=
  let s2 := (s.devWrite asid (sp.descVa q + 0x30) 8 0).getD s
  match s2.devRead asid (sp.descVa q + 0x28) 8 with
  | some (s3, v) => (s3.devWrite asid (sp.descVa q + 0x28) 8 (v - v % 4)).getD s3
  | none => s2

theorem queueFreed_of {t1 t2 t3 : State} {v : Nat} (fault : s.devWrite asid (sp.descVa q + 0x30) 8 0 = some t1)
    (read : t1.devRead asid (sp.descVa q + 0x28) 8 = some (t2, v)) (state : t2.devWrite asid (sp.descVa q + 0x28) 8 (v - v % 4) = some t3) :
    s.queueFreed sp asid q = t3 := by
  unfold State.queueFreed
  rw [fault]
  dsimp only [Option.getD_some]
  rw [read]
  dsimp only
  rw [state]
  rfl

theorem queueCancel_cancels (bound : (s.touchQueue asid q).space asid = some sp)
    (state : (s.touchQueue asid q).queueState asid q = some (t, 2)) : queueCancel asid q s = s.orAsk
      ((((s.touchQueue asid q).heldRecords asid q).foldl (fun (t : State) va => t.cancelHeld asid va)
        (((s.touchQueue asid q).dropRuns asid q).modQueue asid q (fun k => { k with frozen := false }))).queueFreed sp asid q) := by
  rw [queueCancel, attempt_eq]
  dsimp only
  rw [bound, state]
  rfl

theorem queueCancel_other {v : Nat} (state : (s.touchQueue asid q).queueState asid q = some (t, v)) (other : v ≠ 2) :
    queueCancel asid q s = s.orAsk (s.touchQueue asid q) := by
  rw [queueCancel, attempt_eq]
  dsimp only
  rw [state]
  split
  · rename_i is
    cases is
    exact absurd rfl other
  · rfl

/-! ### Events told to an address space (R300) -/

variable {e : Event}

theorem asid_of_space (bound : s.space asid = some sp) : sp.asid = asid :=
  beq_iff_eq.mp (List.find?_some (p := fun p : Space => p.asid == asid) bound)

theorem Accessed.space (access : Accessed s t) (asid : Nat) : t.space asid = s.space asid :=
  (congrArg (List.find? (fun p => p.asid == asid)) access.spaces :)

theorem putEvent_space (bound : s.space asid = some sp) (put : s.putEvent sp e = some t) :
    t.space asid = some { sp with eventPos := sp.eventPos + 1 } := by
  unfold State.putEvent at put
  obtain ⟨⟨s1, q⟩, first, put⟩ := Option.bind_eq_some_iff.1 put
  dsimp only at put
  split at put
  · cases put
  · obtain ⟨s3, third, put⟩ := Option.bind_eq_some_iff.1 put
    obtain ⟨⟨s4, n⟩, fourth, put⟩ := Option.bind_eq_some_iff.1 put
    obtain ⟨s5, fifth, put⟩ := Option.bind_eq_some_iff.1 put
    cases put
    have access := ((((accessed_devTouch s _ _).trans (accessed_devRead first)).trans (accessed_devWrites ..)).trans (accessed_devWrite third)).trans
      ((accessed_devRead fourth).trans (accessed_devWrite fifth))
    have named := asid_of_space bound
    subst named
    exact space_modSpace (f := fun p => { p with eventPos := p.eventPos + 1 }) (fun _ => rfl) ((access.space _).trans bound)

/-- An event that cannot be written waits to be reported, or is counted. -/
def Space.hold (e : Event) (p : Space) : Space := if p.held.length < 64 then { p with held := p.held ++ [e] } else { p with lost := p.lost + 1 }

theorem event_held (bound : s.space asid = some sp) (full : s.putEvent sp e = none) :
    s.event asid e.cause e.queue e.va e.detail = s.modSpace asid (Space.hold e) := by
  unfold State.event
  rw [bound]
  dsimp only
  rw [full]
  exact ite_self _

theorem counted_hold (e : Event) (p : Space) : (p.hold e).held.length + (p.hold e).lost = p.held.length + p.lost + 1 := by
  unfold Space.hold
  split
  · simp only [List.length_append, List.length_singleton]
    omega
  · rfl

theorem asid_hold (e : Event) (p : Space) : (p.hold e).asid = p.asid := by
  unfold Space.hold
  split <;> rfl

theorem flushEvents_full {rest : List Event} (bound : s.space asid = some sp) (full : s.putEvent sp e = none) : flushEvents asid (e :: rest) s = s := by
  rw [flushEvents, bound]
  dsimp only
  rw [full]

theorem flushEvents_one (bound : s.space asid = some sp) (put : s.putEvent sp e = some t) :
    flushEvents asid [e] s = s.orAsk (t.modSpace asid (fun p => { p with held := p.held.drop 1 })) := by
  rw [flushEvents, bound]
  dsimp only
  rw [put]
  rfl

/-- What is left of the held events decides whether the count of those lost is reported. -/
def State.lostReport (s : State) (asid : Nat) : State :=
  match s.space asid with
  | none => s
  | some p =>
    if !p.held.isEmpty || p.lost = 0 then s
    else match s.putEvent p { cause := 7, queue := 0, va := 0, detail := p.lost } with
      | none => s
      | some s2 => if s2.blocked then s.askedBy s2 else s2.modSpace asid (fun p => { p with lost := 0 })

theorem eventsLostReport_of (bound : s.space asid = some sp) : eventsLostReport asid s = (flushEvents asid sp.held s).lostReport asid := by
  rw [eventsLostReport, bound]
  rfl

theorem lostReport_idle (bound : s.space asid = some sp) (idle : sp.held ≠ [] ∨ sp.lost = 0) : s.lostReport asid = s := by
  rw [State.lostReport, bound]
  refine if_pos ?_
  rcases idle with held | lost
  · simp [held]
  · simp [lost]

theorem lostReport_put (bound : s.space asid = some sp) (none : sp.held = []) (lost : sp.lost ≠ 0)
    (put : s.putEvent sp { cause := 7, queue := 0, va := 0, detail := sp.lost } = some t) :
    s.lostReport asid = s.orAsk (t.modSpace asid (fun p => { p with lost := 0 })) := by
  rw [State.lostReport, bound]
  dsimp only
  rw [if_neg (by simp [none, lost]), put]
  rfl

theorem eventsLostReport_one (bound : s.space asid = some sp) (held : sp.held = [e]) (lost : sp.lost = 0) (put : s.putEvent sp e = some t) :
    eventsLostReport asid s = s.orAsk (t.modSpace asid (fun p => { p with held := p.held.drop 1 })) := by
  rw [eventsLostReport_of bound, held, flushEvents_one bound put]
  have after : (t.modSpace asid (fun p => { p with held := p.held.drop 1 })).space asid =
      some { sp with eventPos := sp.eventPos + 1, held := sp.held.drop 1 } :=
    space_modSpace (f := fun p => { p with held := p.held.drop 1 }) (fun _ => rfl) (putEvent_space bound put)
  unfold State.orAsk
  split
  · exact lostReport_idle (s := s.askedBy t) (sp := sp) bound (.inl (by simp [held]))
  · exact lostReport_idle after (.inr lost)

/-! ### The syscall ring (R305, R354) -/

theorem accessed_sysFreeRun {w : Who} {n k : Nat} (read : s.sysFreeRun sp w n p = .ok (t, k)) : Accessed s t := by
  induction n generalizing s t p k with
  | zero =>
    cases read
    exact .refl _
  | succ n ih =>
    have access := accessed_translate s w (sp.sysSlot p)
    rw [State.sysFreeRun] at read
    cases reached : s.translate w (sp.sysSlot p) with
    | error x => rw [reached] at read; cases read
    | ok r =>
      obtain ⟨s1, pl⟩ := r
      rw [reached] at read access
      dsimp only [bind, Except.bind] at read
      split at read
      · cases rest : s1.sysFreeRun sp w n (p + 1) with
        | error x => rw [rest] at read; cases read
        | ok r =>
          rw [rest] at read
          cases read
          exact access.trans (ih rest)
      · cases read
        exact access

/-- The strands given a position are ready. -/
def Core.granted (asid : Nat) (next : List Nat) (now : Nat) (k : Core) : Core :=
  { k with arrival := k.arrival.map (fun p => if p.img.ctx.as = asid ∧ next.contains p.img.ctx.sid ∧ p.state = .waitRing
      then { p with state := .ready now } else p) }

/-- Positions of the ring that have become free go to strands that waited longest. -/
def State.ringGrants (s : State) (asid : Nat) (next : List Nat) (now : Nat) : State :=
  (s.modSpace asid (fun p => { p with sysWait := p.sysWait.drop next.length, sysGrant := p.sysGrant ++ next })).mapCores (Core.granted asid next now)

theorem syscRingRetry_none (bound : s.space asid = some sp) (idle : sp.sysWait = []) : syscRingRetry asid s = s.orAsk s := by
  rw [syscRingRetry, attempt_eq, bound]
  dsimp only
  rw [idle]
  rfl

theorem syscRingRetry_free {free : Nat} (bound : s.space asid = some sp) (waits : sp.sysWait ≠ [])
    (run : s.sysFreeRun sp (deviceWho sp.asid s.cur .rw) (sp.sysGrant.length + sp.sysWait.length) sp.sysPos = .ok (t, free)) :
    syscRingRetry asid s = s.orAsk (if free ≤ sp.sysGrant.length then t
      else (s.cores.map (·.1)).foldl State.nextU (t.ringGrants asid (sp.sysWait.take (free - sp.sysGrant.length)) s.time.toNat)) := by
  rw [syscRingRetry, attempt_eq, bound]
  dsimp only
  rw [if_neg (by simp [waits]), run]
  dsimp only
  refine congrArg s.orAsk (ite_congr (propext ?_) (fun _ => rfl) fun _ => rfl)
  rw [List.isEmpty_iff, List.take_eq_nil_iff, Nat.sub_eq_zero_iff_le]
  exact ⟨fun h => h.resolve_right waits, .inl⟩

theorem space_foldl_nextU (l : List Nat) (s : State) (asid : Nat) : (l.foldl State.nextU s).space asid = s.space asid := by
  induction l generalizing s with
  | nil => rfl
  | cons f l ih =>
    refine (ih _).trans ?_
    have kept := congrArg (fun x : State => x.space asid) (seats_nextU s f).rest
    exact (kept :)

/-- A core whose U context holds a strand keeps its arrival queue while others take theirs. -/
theorem arrival_foldl_nextU {c : Nat} (l : List Nat) (s : State) (holds : (s.core c).uWork.holds = true) :
    ((l.foldl State.nextU s).core c).arrival = (s.core c).arrival := by
  induction l generalizing s with
  | nil => rfl
  | cons f l ih =>
    rw [List.foldl_cons]
    by_cases same : c = f
    · rw [nextU_seated (.inl (same ▸ holds))]
      exact ih s holds
    · have beside := (seats_nextU s f).core c same
      unfold Core.Beside at beside
      have work : ((s.nextU f).core c).uWork = (s.core c).uWork := (congrArg Core.uWork beside :)
      have queue : ((s.nextU f).core c).arrival = (s.core c).arrival := (congrArg Core.arrival beside :)
      exact (ih _ (work ▸ holds)).trans queue

theorem core_ringGrants (s : State) (asid : Nat) (next : List Nat) (now c : Nat) :
    (s.ringGrants asid next now).core c = Core.granted asid next now (s.core c) := core_mapCores _ _ _ rfl

variable {r : SysReq} {pos : Nat} {pl : Place}

/-- The request at a position is over. -/
def State.sysTaken (s : State) (asid pos : Nat) : State := { s with sysReqs := s.sysReqs.filter (fun x => !(x.asid == asid && x.pos == pos)) }

theorem syscResult_of (bound : s.space asid = some sp) (found : s.sysReqs.find? (fun x => x.asid == asid && x.pos == pos) = some r)
    (place : s.sysPlace sp pos = .ok (t, pl)) (clean : t.placePoisoned asid pl 16 = false) : syscResult asid pos s =
    if t.placeRead asid pl 8 ≠ pos + sp.sysSlots then s
    else if r.cancelled then t.sysTaken asid pos
    else (t.sysTaken asid pos).deliver 0 asid r.sid .u r.reg (BitVec.ofNat 64 (t.placeRead asid { pl with key := pl.key + 8 } 8)) false := by
  unfold syscResult
  rw [bound, found]
  dsimp only
  rw [place]
  dsimp only
  rw [clean, Bool.false_or]
  by_cases read : t.placeRead asid pl 8 = pos + sp.sysSlots
  · rw [if_neg (by simp [read]), if_neg (not_not.mpr read)]
    rfl
  · rw [if_pos (decide_eq_true read), if_pos read]

theorem deliver_held {c sid reg : Nat} {k : Core} {v : Word} {core : Nat}
    (found : s.cores.find? (fun x => (x.2.uWork == .strand || x.2.uWork == .heldInRegs) && x.2.u.as == asid && x.2.u.sid == sid) = some (c, k)) :
    s.deliver core asid sid .u reg v false = s.modCore c (fun k => { k with u := k.u.complete reg v }) := by
  unfold State.deliver
  dsimp only
  rw [found]

end

end Sys2Proof.Machine

namespace Sys2Proof.Proofs
open Sys2Proof.Machine

/-- A published job is taken, and becomes what its words say (R291). -/
theorem jobTake_rule (s : State) (asid q : Nat) : let s0 := s.touchQueue asid q
    ∀ sp k s1 p s2 d, s0.space asid = some sp → sp.queue q = some k → s0.devRead asid (sp.descVa q + 0x20) 8 = some (s1, p) →
    s0.queueRuns asid q = true → 0 < k.slots → let slot := k.ring + p % k.slots * 64
    s1.devReads asid slot 8 = some (s2, d) → s0.mgmt.capMode = 0 → s2.mgmt.capMode = 0 → k.frozen = false →
    (∀ j ∈ s0.jobs, ¬(j.asid = asid ∧ j.queue = q ∧ j.waits ≠ none)) →
    let g (i : Nat) : Nat := d.getD i 0
    let job (isRun : Bool) : Job := { asid, queue := q, pos := p, record := g 2, isRun, completion := g 4 }
    let head := sp.descVa q + 0x20
    let taken (w : State) : Prop := w.mgmt.capMode = 0 → exec (.jobTake asid q) s = .next (s.orAsk w)
    (g 0 ≠ p + 1 → exec (.jobTake asid q) s = .next (s.orAsk s0)) ∧
    (∀ t1 t, g 0 = p + 1 → s2.devWrite asid slot 8 (p + k.slots) = some t1 → t1.devWrite asid head 8 (p + 1) = some t →
      (badJob d = true → taken (t.skipJob asid q slot 2 (g 4) p)) ∧
      (badJob d = false → g 1 = 0 → let t0 := t.devTouch asid (g 2)
        ∀ u v st w, t0.recordStatus asid (g 2) = some (u, st) → t0.recordWait asid (g 2) = some (v, w) →
        (st = 0 → w = 0 → taken ({ t0 with jobs := t0.jobs ++ [job false] }.makeReady asid (g 2) q)) ∧
        (st ≠ 0 ∨ w ≠ 0 → taken (t0.skipJob asid q slot 2 (g 4) p))) ∧
      (badJob d = false → g 1 = 1 → taken (t.startRun (job true) (g 2) (g 3)))) := by
  intro s0 sp k s1 p s2 d bound listed pos runs slots slot words mode plain running idle g job head taken
  have next : s0.NextJob asid q sp k p s2 d := ⟨bound, listed, runs, slots, ⟨s1, pos, words⟩, mode⟩
  have takes := jobTake_of next running idle
  refine ⟨fun other => congrArg Host.Outcome.next (takes.trans (congrArg s.orAsk (takeNext_unpublished next plain other))),
    fun t1 t published lap up => ?_⟩
  have starts (w : State) (is : t.startJob asid q slot p d = w) : taken w := fun mode =>
    congrArg Host.Outcome.next (takes.trans (congrArg s.orAsk ((takeNext_published next plain published lap up (is ▸ mode)).trans is)))
  refine ⟨fun bad => starts _ (startJob_bad bad), fun good kind => ?_, fun good kind => starts _ (startJob_run good kind)⟩
  intro t0 u v st w status wait
  have made := startJob_record (slot := slot) (q := q) (p := p) good kind status wait
  refine ⟨fun zero empty => starts _ (made.trans (if_pos ⟨zero, empty⟩)), fun other => starts _ (made.trans (if_neg ?_))⟩
  rintro ⟨zero, empty⟩
  exact other.elim (absurd zero) (absurd empty)

theorem launchQueueRule : Rule.LaunchQueueEvents := by
  intro s asid q reached
  refine ⟨jobTake_rule s asid q, fun j template patch => ⟨fun e made => startRun_error made, fun u made => startRun_waits made,
    fun u h made named r found => startRun_made made named found⟩, fun va t u wait cas => ⟨fun r run released => ?_, fun run holds => ?_,
    fun c j e entry as record => ?_⟩, fun va t w wait left => ⟨fun r run released => ?_, fun c j e entry as record => ?_⟩,
    fun e u st status => since_seen status, fun va r run unreleased => ?_⟩
  · rw [exec_recordReady_run run, released, if_pos rfl, makeReady_ready wait cas]
  · rw [exec_recordReady_cluster run holds, clusterReady_ready wait cas]
  · subst as record
    rw [exec_recheck entry, clusterReady_ready wait cas]
  · rw [exec_recordReady_run run, released, if_pos rfl, makeReady_waits wait left]
  · subst as record
    rw [exec_recheck entry, clusterReady_waits wait left]
  · rw [exec_recordReady_run run, unreleased, if_neg Bool.false_ne_true, orAsk_self reached]

/-- A queue's records are cancelled, and its STATE and FAULT cleared (R299). -/
theorem queueCancel_rule (s : State) (asid q : Nat) (sp : Space) : let s0 := s.touchQueue asid q;
    (∀ t u t1 t2 v t3, s0.space asid = some sp → s0.queueState asid q = some (t, 2) →
      (∀ j ∈ s0.jobs, ¬(j.asid = asid ∧ j.queue = q ∧ j.waits ≠ none)) →
      (let w := s0.modQueue asid q (fun k => { k with frozen := false });
        (s0.heldRecords asid q = [] ∧ u = w) ∨
          ∃ va, s0.heldRecords asid q = [va] ∧ w.serialWaiters asid va = [] ∧ u = (w.cancelOne asid va).1) →
      u.devWrite asid (sp.descVa q + 0x30) 8 0 = some t1 → t1.devRead asid (sp.descVa q + 0x28) 8 = some (t2, v) →
      t2.devWrite asid (sp.descVa q + 0x28) 8 (v - v % 4) = some t3 → exec (.queueCancel asid q) s = .next (s.orAsk t3)) ∧
    (∀ t v, s0.queueState asid q = some (t, v) → v ≠ 2 → exec (.queueCancel asid q) s = .next (s.orAsk s0)) := by
  intro s0
  refine ⟨fun t u t1 t2 v t3 bound state idle held fault read cleared => congrArg Host.Outcome.next ?_,
    fun t v state other => congrArg Host.Outcome.next (queueCancel_other state other)⟩
  rw [queueCancel_cancels bound state, dropRuns_none idle]
  have gone : (s0.heldRecords asid q).foldl (fun (t : State) va => t.cancelHeld asid va)
      (s0.modQueue asid q (fun k => { k with frozen := false })) = u := by
    rcases held with ⟨none, rfl⟩ | ⟨va, one, lone, rfl⟩
    · rw [none]
      rfl
    · rw [one]
      exact cancelHeld_lone lone
  rw [gone, queueFreed_of fault read cleared]

theorem ringRule : Rule.RingEvents := by
  intro s asid q sp reached bound
  refine ⟨queueCancel_rule s asid q sp, fun va old t either cas other lone free => cancelOne_of either cas other lone free,
    fun t none lost put => congrArg Host.Outcome.next ?_, fun e rest held full => congrArg Host.Outcome.next ?_,
    fun e t held lost put => congrArg Host.Outcome.next (eventsLostReport_one bound held lost put), fun e full => ⟨fun _ => event_held bound full, ?_⟩,
    fun idle => congrArg Host.Outcome.next ?_, fun waits t free run => ?_, fun pos r t pl found place clean => ?_⟩
  · rw [eventsLostReport_of bound, none]
    exact lostReport_put bound none lost put
  · rw [eventsLostReport_of bound, held, flushEvents_full bound full]
    exact lostReport_idle bound (.inl (by simp [held]))
  · rw [event_held bound full, space_modSpace (asid_hold e) bound]
    exact congrArg some (counted_hold e sp)
  · rw [syscRingRetry_none bound idle, orAsk_self reached]
  · have retry := syscRingRetry_free bound waits run
    refine ⟨fun few => congrArg Host.Outcome.next (retry.trans (congrArg s.orAsk (if_pos few))), fun more => ?_⟩
    refine ⟨_, congrArg Host.Outcome.next (retry.trans (congrArg s.orAsk (if_neg (Nat.not_le.mpr more)))), ?_, fun c holds => ?_⟩
    · have listed := ((accessed_sysFreeRun run).space asid).trans bound
      rw [space_foldl_nextU, listed]
      exact congrArg (Option.map _) (space_modSpace (f := fun p : Space => { p with
        sysWait := p.sysWait.drop (sp.sysWait.take (free - sp.sysGrant.length)).length,
        sysGrant := p.sysGrant ++ sp.sysWait.take (free - sp.sysGrant.length) }) (fun _ => rfl) listed)
    · rw [arrival_foldl_nextU _ _ (by rw [core_ringGrants]; exact holds), core_ringGrants]
      rfl
  · have result := syscResult_of bound found place clean
    refine ⟨fun read => congrArg Host.Outcome.next (result.trans (if_pos read)), fun read => ⟨t.sysTaken asid pos, rfl, rfl, fun gone => ?_,
      fun c k live held => ⟨_, congrArg Host.Outcome.next ((result.trans (if_neg (not_not.mpr read))).trans
        ((if_neg (by simp [live])).trans (deliver_held held))), modCore_coreBecomes ..⟩⟩⟩
    exact congrArg Host.Outcome.next ((result.trans (if_neg (not_not.mpr read))).trans (if_pos gone))

/-- Settles O57: jobs and records by the cases of their words, and the rings by what is free there. -/
theorem launchQueueEvents : Obligations.LaunchQueueEvents := ⟨launchQueueRule, ringRule⟩

end Sys2Proof.Proofs
end

section
/-! ATS and PRI: completions, failures and invalidations (R312, R317 to R319): the statement O49. -/

namespace Sys2Proof.Machine

section
variable {s t : State} {k : Nat} {q : HostReq}

theorem bitOf_eq_testBit (n k : Nat) : bitOf n k = n.testBit k := (Nat.testBit_eq_decide_div_mod_eq ..).symm

/-! ### A Translation Completion (R312, R317) -/

section
variable (listed : s.hostReqs[k]? = some q) (ats : q.pri = false)
include listed ats

theorem atsCompletion_full (full : s.makeRoom q.site q.page = none) (hpa rights : Nat) : atsCompletion k hpa rights s = s := by
  rw [atsCompletion, listed]
  dsimp only
  rw [ats, if_neg Bool.false_ne_true, full]

theorem atsCompletion_room (room : s.makeRoom q.site q.page = some t) (hpa rights : Nat) : atsCompletion k hpa rights s =
    { t.modHome q.site (fun h => { h with clock := h.clock + 1 }) with
      hostReqs := t.hostReqs.eraseIdx k, ats := Spec.atsOf t q hpa rights :: Spec.otherAts t q } := by
  rw [atsCompletion, listed]
  dsimp only
  rw [ats, if_neg Bool.false_ne_true, room]
  dsimp only
  rw [bitOf_eq_testBit, bitOf_eq_testBit]
  rfl

end

theorem makeRoom_room {site page : Nat} (room : ((s.site site).home.cache.filter (fun e => e.page % 4096 == page % 4096)).length +
      (s.ats.filter (fun a => a.site == site % 4 && a.page % 4096 == page % 4096)).length +
      ((s.site site).home.hints.filter (fun z => z.page % 4096 == page % 4096)).length < 16) : s.makeRoom site page = some s :=
  if_pos room

/-! ### What waits on a page request goes on (R318) -/

theorem wakeHost_eq (s : State) (req : Nat) (next : Waiting) :
    s.wakeHost req next = (s.cores.map (·.1)).foldl State.nextU (s.mapCores (Spec.woken s req next)) := rfl

theorem core_woken (s : State) (req : Nat) (next : Waiting) (c : Nat) :
    (s.mapCores (Spec.woken s req next)).core c = Spec.woken s req next (s.core c) := core_mapCores _ _ _ rfl

/-- No core takes a strand that has become ready while every core with an arrival queue runs one. -/
theorem wakeHost_seated (seated : Spec.seated s) (req : Nat) (next : Waiting) : s.wakeHost req next = s.mapCores (Spec.woken s req next) := by
  rw [wakeHost_eq]
  refine nextU_foldl_seated (fun c => ?_) _
  rw [core_woken]
  refine (seated_core seated c).imp id fun empty => ?_
  change ((s.core c).arrival.map _) = []
  rw [empty]
  rfl

/-- Of the machine only operations and pins differ. -/
def State.BesideOps (s t : State) : Prop := { t with ops := s.ops, sites := s.sites } = s

theorem besideOps_foldl (act : State → EngineOp → State) (acts : ∀ (u : State) o, u.BesideOps (act u o)) (l : List EngineOp) (s : State) :
    s.BesideOps (l.foldl act s) := by
  induction l generalizing s with
  | nil => rfl
  | cons o l ih =>
    have first := acts s o
    have rest := ih (act s o)
    unfold State.BesideOps at first rest ⊢
    exact (congrArg (fun x : State => { x with ops := s.ops, sites := s.sites }) rest :).trans first

theorem besideOps_endOp (s : State) (id val st : Nat) : s.BesideOps (s.endOp id val st) := by
  unfold State.endOp State.unpin
  split <;> rfl

theorem ops_unpin (s : State) (h : Holder) : (s.unpin h).ops = s.ops := by
  unfold State.unpin
  split <;> rfl

theorem ops_endOp_one {o : EngineOp} (only : s.ops = [o]) (val st : Nat) :
    (s.endOp o.id val st).ops = [{ o with ended := some (val, st), waitSvc := false }] := by
  rw [State.endOp, ops_unpin]
  change s.ops.map _ = _
  rw [only]
  exact congrArg (· :: []) (if_pos rfl)

theorem opsOn_none {req : Nat} (none : ∀ o ∈ s.ops, o.hostReq ≠ some req) : s.opsOn req = [] :=
  List.filter_eq_nil_iff.mpr (fun o listed => by simpa using none o listed)

theorem opsOn_one {req : Nat} {o : EngineOp} (only : s.ops = [o]) (waits : o.hostReq = some req) : s.opsOn req = [o] := by
  rw [State.opsOn, only, List.filter_cons_of_pos (by simp [waits])]
  rfl

/-- The machine as a page request ends: its page's entry dropped, the requests and what the device finds as given. -/
def State.requestEnds (s : State) (q : HostReq) (reqs : List HostReq) (nextId : Nat) (fails : List (Nat × Nat × Nat)) : State :=
  { s with ats := Spec.otherAts s q, hostReqs := reqs, nextId, devFails := fails }

variable {reqs : List HostReq} {nextId : Nat} {fails : List (Nat × Nat × Nat)}

/-- Its waiters then go on, and the operations among them as given. -/
theorem answered_of (seated : Spec.seated s) (act : State → EngineOp → State) (acts : ∀ (u : State) o, u.BesideOps (act u o)) (next : Waiting) :
    let u := ((s.opsOn q.id).foldl act (s.requestEnds q reqs nextId fails))
    Spec.answered s (u.wakeHost q.id next) q next reqs ∧ (u.wakeHost q.id next).nextId = nextId ∧ (u.wakeHost q.id next).devFails = fails ∧
      (u.wakeHost q.id next).ops = u.ops := by
  intro u
  have beside : (s.requestEnds q reqs nextId fails).BesideOps u := besideOps_foldl act acts _ _
  unfold State.BesideOps at beside
  have cores : u.cores = s.cores := (congrArg State.cores beside :)
  have time : u.time = s.time := (congrArg State.time beside :)
  have wakes := wakeHost_seated (s := u) (by unfold Spec.seated; rw [cores]; exact seated) q.id next
  have same : Spec.woken u q.id next = Spec.woken s q.id next := by
    unfold Spec.woken
    rw [time]
  rw [wakes]
  refine ⟨⟨(congrArg State.hostReqs beside :), (congrArg State.ats beside :), fun c => ?_, fun none => ?_⟩, (congrArg State.nextId beside :),
    (congrArg State.devFails beside :), rfl⟩
  · rw [core_woken, same]
    exact congrArg _ (congrArg (fun l => (kvGet c l).getD Core.reset) cores)
  · have still : u = s.requestEnds q reqs nextId fails := by
      change List.foldl act _ (s.opsOn q.id) = _
      rw [opsOn_none none]
      rfl
    rw [still]
    rfl

theorem failHost_eq (s : State) (k : Nat) (q : HostReq) (reason : Nat) : s.failHost k q reason =
    ((s.opsOn q.id).foldl (fun (t : State) o => t.endOp o.id o.written 4)
      (s.requestEnds q (s.hostReqs.eraseIdx k) s.nextId ((q.asid, q.page, reason) :: s.devFails))).wakeHost q.id (.hostFail q.page reason) := rfl

theorem failHost_ends (seated : Spec.seated s) (k : Nat) (q : HostReq) (reason : Nat) : Spec.endsWith s (s.failHost k q reason) k q reason := by
  rw [failHost_eq]
  obtain ⟨answered, _, fails, ops⟩ := answered_of (q := q) (reqs := s.hostReqs.eraseIdx k) (nextId := s.nextId)
    (fails := (q.asid, q.page, reason) :: s.devFails) seated (fun (t : State) o => t.endOp o.id o.written 4)
    (fun u o => besideOps_endOp u _ _ _) (.hostFail q.page reason)
  refine ⟨answered, fails, fun o only waits => ?_⟩
  rw [ops, opsOn_one only waits]
  exact ops_endOp_one (s := s.requestEnds q _ _ _) only _ _

theorem priResponse_success (listed : s.hostReqs[k]? = some q) (pri : q.pri = true) : priResponse k 0 s =
    ((s.opsOn q.id).foldl (fun (t : State) o => t.modOp o.id (fun o => { o with hostReq := none }))
      (s.requestEnds q (s.hostReqs.eraseIdx k ++ [{ q with id := s.nextId, pri := false, since := s.time.toNat }]) (s.nextId + 1)
        s.devFails)).wakeHost q.id .no := by
  rw [priResponse, listed]
  dsimp only
  rw [pri, Bool.not_true, if_neg Bool.false_ne_true, if_pos rfl]
  rfl

theorem priResponse_failure {code : Nat} (listed : s.hostReqs[k]? = some q) (pri : q.pri = true) (failed : code ≠ 0) :
    priResponse k code s = s.failHost k q (if code = 1 then 1 else 2) := by
  rw [priResponse, listed]
  dsimp only
  rw [pri, Bool.not_true, if_neg Bool.false_ne_true, if_neg failed]

theorem priTimeout_of (listed : s.hostReqs[k]? = some q) :
    priTimeout k s = if q.pri = true ∧ q.since + 10000000 ≤ s.time.toNat then s.failHost k q 3 else s := by
  rw [priTimeout, listed]
  dsimp only
  refine ite_congr (propext ?_) (fun _ => rfl) (fun _ => rfl)
  rw [Bool.and_eq_true, decide_eq_true_iff]
  rfl

/-! ### Invalidation (R319) -/

/-- A translation that an access keeps is in the range of an invalidation. -/
def HostInval.Keeps (v : HostInval) (a : Ats) : Prop :=
  a.port = v.port ∧ a.pasid = v.pasid ∧ a.page * 4096 < v.va + v.len ∧ v.va < (a.page + 1) * 4096

/-- A pinned page is one of the invalidated host's. -/
def State.hostPage (s : State) (v : HostInval) (asid : Nat) (p : Nat × Bool) : Prop := ∃ e, s.cached asid (p.1 * pageBytes p.2) = some e ∧
  leafType e.leaf.toNat = 1 ∧ bitsOf e.leaf.toNat 20 2 = v.port ∧ bitsOf e.leaf.toNat 0 20 = v.pasid

/-- As the device decides it. -/
def State.ofHost (s : State) (v : HostInval) (asid : Nat) (p : Nat × Bool) : Bool := match s.cached asid (p.1 * pageBytes p.2) with
  | some e => leafType e.leaf.toNat == 1 && bitsOf e.leaf.toNat 20 2 == v.port && bitsOf e.leaf.toNat 0 20 == v.pasid
  | none => false

theorem ofHost_iff (s : State) (v : HostInval) (asid : Nat) (p : Nat × Bool) : s.ofHost v asid p = true ↔ s.hostPage v asid p := by
  unfold State.ofHost State.hostPage
  cases s.cached asid (p.1 * pageBytes p.2) <;> simp [and_assoc]

theorem invalHeld_iff (s : State) (v : HostInval) : s.invalHeld v = true ↔ ∃ x ∈ s.sites,
    (∃ q ∈ x.home.pins, ∃ y ∈ q.pages, Spec.pinMeets v.va v.len y ∧ s.hostPage v q.asid y) ∨
    (∃ q ∈ x.home.pins ++ x.home.waiting, ∃ a ∈ q.ats, v.Keeps a) := by
  have meets (y : Nat × Bool) : pageMeets y.1 y.2 v.va (v.va + v.len) = true ↔ Spec.pinMeets v.va v.len y := by
    rw [pageMeets, Bool.and_eq_true, decide_eq_true_iff, decide_eq_true_iff]
    rfl
  have split : s.invalHeld v = s.sites.any (fun t => t.home.pins.any (fun q => q.pages.any (fun p =>
      pageMeets p.1 p.2 v.va (v.va + v.len) && s.ofHost v q.asid p)) || (t.home.pins ++ t.home.waiting).any (fun q => q.ats.any (fun a =>
        a.port == v.port && a.pasid == v.pasid && a.page * 4096 < v.va + v.len && v.va < (a.page + 1) * 4096))) := rfl
  rw [split, ← Vector.any_toList]
  simp only [List.any_eq_true, Vector.mem_toList_iff, Bool.or_eq_true, Bool.and_eq_true, beq_iff_eq, decide_eq_true_eq, meets, ofHost_iff, HostInval.Keeps, and_assoc]

theorem invalidationCompletion_of {v : HostInval} (listed : s.invals[k]? = some v) :
    invalidationCompletion k s = if s.invalHeld v then s else { s with invals := s.invals.eraseIdx k } := by
  rw [invalidationCompletion, listed]

end

end Sys2Proof.Machine

namespace Sys2Proof.Proofs
open Sys2Proof.Machine

/-- Settles O49: what waits on a page request goes on in one pass over cores and operations, and an invalidation is complete once nothing of its range
is held. -/
theorem translationEvents : Obligations.TranslationEvents := by
  intro s k
  refine ⟨fun q listed => ⟨fun hpa rights ats => ⟨fun u room => ?_, fun full => ?_⟩, fun pri seated => ?_, fun code pri failed seated => ?_,
    fun pri late seated => ?_, fun early => ?_⟩, fun site page room => makeRoom_room room, fun port pasid va n small => ?_, fun v listed => ?_⟩
  · exact congrArg Host.Outcome.next (atsCompletion_room listed ats room hpa rights)
  · exact congrArg Host.Outcome.next (atsCompletion_full listed ats full hpa rights)
  · obtain ⟨answered, id, fails, ops⟩ := answered_of (q := q)
      (reqs := s.hostReqs.eraseIdx k ++ [{ q with id := s.nextId, pri := false, since := s.time.toNat }]) (nextId := s.nextId + 1)
      (fails := s.devFails) seated (fun (t : State) o => t.modOp o.id (fun o => { o with hostReq := none })) (fun u o => rfl) .no
    refine ⟨_, congrArg Host.Outcome.next (priResponse_success listed pri), answered, id, fails, fun o only waits => ?_⟩
    rw [ops, opsOn_one only waits]
    change s.ops.map _ = _
    rw [only]
    exact congrArg (· :: []) (if_pos rfl)
  · exact ⟨_, congrArg Host.Outcome.next (priResponse_failure listed pri failed), failHost_ends seated k q _⟩
  · exact ⟨_, congrArg Host.Outcome.next ((priTimeout_of listed).trans (if_pos ⟨pri, late⟩)), failHost_ends seated k q 3⟩
  · exact congrArg Host.Outcome.next ((priTimeout_of listed).trans (if_neg (fun due => Nat.not_le.mpr early due.2)))
  · refine ⟨_, rfl, rfl, ?_, fun a => ?_⟩
    · change s.invals ++ [{ port := port % 4, pasid, va, len := n }] = _
      rw [Nat.mod_eq_of_lt small]
    · change a ∈ s.ats.filter _ ↔ _
      rw [List.mem_filter, Nat.mod_eq_of_lt small, Bool.not_eq_true', ← Bool.not_eq_true]
      simp only [Bool.and_eq_true, beq_iff_eq, decide_eq_true_eq, and_assoc]
  · have complete := invalidationCompletion_of listed
    refine ⟨fun ⟨x, site, held⟩ => ?_, fun ⟨x, site, q, pin, y, page, meets, e, found, host, port, small, pasid⟩ => ?_, fun free unpinned => ?_⟩
    · exact congrArg Host.Outcome.next (complete.trans (if_pos ((invalHeld_iff s v).mpr ⟨x, site, .inr held⟩)))
    · refine congrArg Host.Outcome.next (complete.trans (if_pos ((invalHeld_iff s v).mpr
        ⟨x, site, .inl ⟨q, pin, y, page, meets, e, found, host, ?_, (bitsOf_eq_extractLsb' ..).trans pasid⟩⟩)))
      rw [bitsOf_eq_extractLsb', port, BitVec.toNat_ofNat, Nat.mod_eq_of_lt small]
    · refine congrArg Host.Outcome.next (complete.trans (if_neg (mt (invalHeld_iff s v).mp ?_)))
      rintro ⟨x, site, ⟨q, pin, y, page, meets, _⟩ | held⟩
      · exact unpinned ⟨x, site, q, pin, y, page, meets, trivial⟩
      · exact free ⟨x, site, held⟩

end Sys2Proof.Proofs
end

section
/-! Errors, retirement and fencing (R378 to R386): the statement O48. -/

namespace Sys2Proof.Machine

section
variable {s t : State}

/-! ### The error log (R379, R380) -/

theorem reassess_eq (s : State) : s.reassess = { s with flash := { s.flash with replace := s.flash.replace || s.replaceDue } } := by
  unfold State.reassess
  cases due : s.replaceDue with
  | true => rw [if_pos rfl, Bool.or_true]
  | false => rw [if_neg Bool.false_ne_true, Bool.or_false]

theorem putRing_free {pa slots p : Nat} {dws : List Nat} (free : s.mem.read (pa + p % slots * 64) 8 = p) : s.putRing pa slots p dws =
    some { s.performHome (pa + p % slots * 64) 64 true with
      mem := s.mem.writeBytes (pa + p % slots * 64) (((p + 1) :: dws).flatMap (toBytes 8)) } := by
  unfold State.putRing
  dsimp only
  rw [if_neg (not_not.mpr free), (State.performHome_onlyCaches s _ 64 true).mem]

/-- A record put in a free slot of a ring is published there. -/
theorem published_putRing (s : State) (slot : Nat) (words : List Nat) (logPos logLost : Nat) : Spec.published s
    { s.performHome slot 64 true with
      mem := s.mem.writeBytes slot (words.flatMap (toBytes 8)),
      mgmt := { (s.performHome slot 64 true).mgmt with logPos, logLost } }
    slot (words.flatMap (Spec.bytes 8)) { s.mgmt with logPos, logLost } := by
  have caches := State.performHome_onlyCaches s slot 64 true
  have mgmt : (s.performHome slot 64 true).mgmt = s.mgmt := (congrArg State.mgmt caches.1 :)
  refine ⟨?_, by rw [mgmt], ?_, caches.2⟩
  · rw [funext (toBytes_eq_bytes 8)]
  · exact (congrArg (fun x : State => { x with mem := s.mem, mgmt := s.mgmt }) caches.1 :)

section
variable {base n : Nat} (ring : s.logRing = some (base, n))
include ring

theorem logRecord_published (none : s.mgmt.logLost = 0) (free : s.mem.read (base + s.mgmt.logPos % n * 64) 8 = s.mgmt.logPos)
    (cls kind u pa detail : Nat) : Spec.published s (s.logRecord cls kind u pa detail) (base + s.mgmt.logPos % n * 64)
      (Spec.logSlot s cls kind u pa detail) { s.mgmt with logPos := s.mgmt.logPos + 1 } := by
  have published := published_putRing s (base + s.mgmt.logPos % n * 64)
    ((s.mgmt.logPos + 1) :: logWords cls kind u pa s.time.toNat detail) (s.mgmt.logPos + 1) s.mgmt.logLost
  have mgmt : (s.performHome (base + s.mgmt.logPos % n * 64) 64 true).mgmt = s.mgmt :=
    (congrArg State.mgmt (State.performHome_onlyCaches s _ 64 true).1 :)
  unfold State.logRecord
  dsimp only
  rw [if_neg (not_not.mpr none), ring]
  dsimp only
  rw [putRing_free free]
  rw [mgmt] at published
  dsimp only
  rw [mgmt]
  exact published

theorem logRecord_full (none : s.mgmt.logLost = 0) (full : s.mem.read (base + s.mgmt.logPos % n * 64) 8 ≠ s.mgmt.logPos)
    (cls kind u pa detail : Nat) : s.logRecord cls kind u pa detail = { s with mgmt := { s.mgmt with logLost := s.mgmt.logLost + 1 } } := by
  unfold State.logRecord
  dsimp only
  rw [if_neg (not_not.mpr none), ring]
  dsimp only
  rw [State.putRing, if_pos full]

theorem errorLogSpace_published (lost : s.mgmt.logLost ≠ 0) (free : s.mem.read (base + s.mgmt.logPos % n * 64) 8 = s.mgmt.logPos) :
    Spec.published s (errorLogSpace s) (base + s.mgmt.logPos % n * 64) (Spec.logSlot s 10 0 0 0 s.mgmt.logLost)
      { s.mgmt with logPos := s.mgmt.logPos + 1, logLost := 0 } := by
  have published := published_putRing s (base + s.mgmt.logPos % n * 64)
    ((s.mgmt.logPos + 1) :: logWords 10 0 0 0 s.time.toNat s.mgmt.logLost) (s.mgmt.logPos + 1) 0
  have mgmt : (s.performHome (base + s.mgmt.logPos % n * 64) 64 true).mgmt = s.mgmt :=
    (congrArg State.mgmt (State.performHome_onlyCaches s _ 64 true).1 :)
  unfold errorLogSpace
  rw [ring]
  dsimp only
  rw [if_neg lost, show s.now = s.time.toNat from rfl, putRing_free free]
  rw [mgmt] at published
  dsimp only
  rw [mgmt]
  exact published

end

/-- Of BAR 0 a record changes only the log's position and the count of those lost. -/
theorem mgmt_logRecord (s : State) (cls kind u pa detail : Nat) :
    { (s.logRecord cls kind u pa detail).mgmt with logPos := s.mgmt.logPos, logLost := s.mgmt.logLost } = s.mgmt :=
  (congrArg State.mgmt (accessed_logRecord s cls kind u pa detail).rest :)

/-! ### Corrected errors (R380, R385) -/

variable {kind u a n : Nat}

theorem newCorrected_record (s : State) (kind u a n : Nat) :
    { s.newCorrected kind u a n with mgmt := { (s.newCorrected kind u a n).mgmt with corrLog := s.mgmt.corrLog } } = s.logRecord 1 kind u a n := by
  have same : (s.logRecord 1 kind u a n).mgmt.corrLog = s.mgmt.corrLog := (congrArg Mgmt.corrLog (mgmt_logRecord s 1 kind u a n) :)
  unfold State.newCorrected
  dsimp only
  rw [← same]

theorem logCorrected_new (alone : ∀ e ∈ s.mgmt.corrLog, ¬Spec.sharesRecord s kind u e) (a n : Nat) :
    s.logCorrected kind u a n = s.newCorrected kind u a n := by
  unfold State.logCorrected
  rw [List.find?_eq_none.mpr]
  intro e listed shares
  simp only [Bool.and_eq_true, beq_iff_eq] at shares
  exact alone e listed ⟨shares.1.1, shares.1.2, of_decide_eq_true shares.2⟩

theorem logCorrected_counts {w p base m : Nat} (remembered : s.mgmt.corrLog = [(kind, u, w, some p)]) (recent : s.time.toNat < w + 100000)
    (ring : s.logRing = some (base, m)) (published : s.mem.read (base + p % m * 64) 8 = p + 1) (a n : Nat) : s.logCorrected kind u a n =
      { s with mem := s.mem.write (base + p % m * 64 + 0x20) 8 (s.mem.read (base + p % m * 64 + 0x20) 8 + n) } := by
  unfold State.logCorrected
  rw [remembered, List.find?_cons_of_pos (by simp [logWindow, recent]), ring]
  dsimp only
  rw [if_pos published]

/-- What has been counted for a pseudo-channel. -/
theorem pcCount_eq (s : State) (pc : Nat) : Spec.pcCount s pc = ((s.pcErr pc).corrected s.time.toNat, (s.pcErr pc).lost) := by
  unfold Spec.pcCount State.pcErr
  cases s.pcErrors.find? (fun e => e.pc == pc) <;> rfl

theorem pcErr_countPc_ne {q pc : Nat} (other : q ≠ pc) (corrected lost : Nat) : (s.countPc pc corrected lost).pcErr q = s.pcErr q := by
  have found : (s.countPc pc corrected lost).pcErrors.find? (fun e => e.pc == q) = s.pcErrors.find? (fun e => e.pc == q) := by
    unfold State.countPc
    dsimp only
    rw [List.find?_append, List.find?_filter]
    have last (e : PcErr) (named : e.pc = pc) : [e].find? (fun e => e.pc == q) = none :=
      List.find?_cons_of_neg (by simpa [named] using other.symm)
    rw [last _ rfl, Option.or_none]
    refine List.find?_congr fun e _ => ?_
    by_cases same : e.pc = q
    · simp [same, other]
    · simp [same]
  unfold State.pcErr
  rw [found]

theorem pcErr_countPc_self (s : State) (pc corrected lost : Nat) : (s.countPc pc corrected lost).pcErr pc =
    { pc, lost := (s.pcErr pc).lost + lost, recent :=
        if corrected = 0 then (s.pcErr pc).within s.now else (s.pcErr pc).within s.now ++ [(s.now, corrected)] } := by
  have none : (s.pcErrors.filter (fun e => e.pc != pc)).find? (fun e => e.pc == pc) = .none :=
    List.find?_eq_none.mpr (fun e listed => by simpa using (List.mem_filter.mp listed).2)
  unfold State.countPc
  dsimp only
  generalize State.pcErr s pc = e
  unfold State.pcErr
  rw [List.find?_append, none, Option.none_or, List.find?_cons_of_pos (by simp)]
  rfl

/-- Errors just corrected count within the hour. -/
theorem corrected_countPc (s : State) (pc n : Nat) :
    ((s.countPc pc n 0).pcErr pc).corrected s.time.toNat = (s.pcErr pc).corrected s.time.toNat + n := by
  rw [pcErr_countPc_self]
  unfold PcErr.corrected PcErr.within State.now
  dsimp only
  by_cases none : n = 0
  · rw [if_pos none, List.filter_filter, none]
    simp
  · rw [if_neg none, List.filter_append, List.filter_filter, List.filter_cons_of_pos (by simp)]
    simp

theorem pcCount_countPc (s : State) (pc n q : Nat) : Spec.pcCount (s.countPc pc n 0) q =
    if q = pc then ((Spec.pcCount s pc).1 + n, (Spec.pcCount s pc).2) else Spec.pcCount s q := by
  rw [pcCount_eq]
  change (((s.countPc pc n 0).pcErr q).corrected s.time.toNat, _) = _
  by_cases same : q = pc
  · rw [if_pos same, same, corrected_countPc, pcErr_countPc_self, pcCount_eq]
    rfl
  · rw [if_neg same, pcErr_countPc_ne same, pcCount_eq]

/-- The counts of pseudo-channels as a corrected error finds them. -/
def State.corrCounted (s : State) (kind u n : Nat) : State := if kind = 4 then s.countPc u n 0 else s

theorem exec_errorCorrected_counted (small : kind < 256) :
    exec (.errorCorrected kind u a n) s = .next ((s.corrCounted kind u n).logCorrected kind u a n) := by
  have counted : exec (.errorCorrected kind u a n) s = .next ((s.corrCounted (kind % 256) u n).logCorrected (kind % 256) u a n) := rfl
  rw [counted, Nat.mod_eq_of_lt small]

theorem corrCounted_rest (s : State) (kind u n : Nat) : { s.corrCounted kind u n with pcErrors := s.pcErrors } = s := by
  unfold State.corrCounted
  split <;> rfl

theorem pcCount_corrCounted (s : State) (kind u n q : Nat) : Spec.pcCount (s.corrCounted kind u n) q =
    if kind = 4 ∧ q = u then ((Spec.pcCount s u).1 + n, (Spec.pcCount s u).2) else Spec.pcCount s q := by
  unfold State.corrCounted
  by_cases channel : kind = 4
  · rw [if_pos channel, pcCount_countPc]
    simp [channel]
  · rw [if_neg channel, if_neg (fun both => channel both.1)]

/-! ### Poison (R12, R218, R381) -/

/-- A frame is listed as lost. -/
def State.frameLost (s : State) (frame : Nat) : State := { s with flash := { s.flash with frames := s.flash.frames ++ [frame] } }

theorem frameLost_eq {f : Flash} (flash : s.flash = f) (frame : Nat) :
    s.frameLost frame = { s with flash := { f with frames := f.frames ++ [frame] } } := by
  subst flash
  rfl

/-- A change of the flash lists is undone by restoring them. -/
theorem restored_flash {f g : Flash} (flash : s.flash = f) : ({ ({ s with flash := g } : State) with flash := f } : State) = s := by
  subst flash
  rfl

theorem flash_countPc (s : State) (pc corrected lost : Nat) : (s.countPc pc corrected lost).flash = s.flash := rfl

theorem poisonCreated_pool (u : Nat) (good : s.goodPa a = true) (pool : 2 ^ 46 ≤ a) : poisonCreated 0 u a s =
    (s.poisonKey a).logRecord 2 6 (a / 2 ^ 44 % 4) (a / 32 * 32) 0 := by
  refine (if_neg (by simp [good]) : poisonCreated 0 u a s = _).trans ?_
  dsimp only
  rw [if_pos pool]
  rfl

theorem poisonCreated_hbm (u : Nat) (good : s.goodPa a = true) (memory : a < 2 ^ 46) : poisonCreated 0 u a s =
    ((((s.poisonKey a).logRecord 2 4 (s.pcOf a) (a / 32 * 32) 0).countPc (s.pcOf a) 0 1).logRecord 7 4 (s.pcOf a)
      (a / 2 ^ 16 * 2 ^ 16) (s.pcOf a)).frameLost (a / 2 ^ 16 * 2 ^ 16) := by
  refine (if_neg (by simp [good]) : poisonCreated 0 u a s = _).trans ?_
  dsimp only
  rw [if_neg (Nat.not_le.mpr memory)]
  rfl

theorem flash_logRecord (s : State) (cls kind u pa detail : Nat) : (s.logRecord cls kind u pa detail).flash = s.flash :=
  (congrArg State.flash (accessed_logRecord s cls kind u pa detail).rest :)

/-- The elements of a register of the v, m or ac file of one core. -/
def fileShare (file : Nat) : Nat := [128, 16, 4096].getD file 0

variable {c file reg elem : Nat}

theorem poisonCreated_file (s : State) (file c addr : Nat) (known : file < 3) : poisonCreated (4 + file) c addr s =
    (s.poisonReg c file (addr / 4096 % [32, 12, 4].getD file 0) (addr % 4096)).logRecord 2 1 c 0 0 := by
  match file with
  | 0 => rfl
  | 1 => rfl
  | 2 => rfl
  | file + 3 => exact absurd known (by omega)

theorem poisonCreated_register (known : elem < fileShare file) (held : reg < [32, 12, 4].getD file 0) :
    poisonCreated (4 + file) c (4096 * reg + elem) s = (s.poisonReg c file reg elem).logRecord 2 1 c 0 0 := by
  have files : file < 3 := by
    by_contra beyond
    rw [fileShare, List.getD_eq_default _ _ (Nat.not_lt.mp beyond)] at known
    exact Nat.not_lt_zero _ known
  have small : elem < 4096 := by
    refine Nat.lt_of_lt_of_le known ?_
    match file with
    | 0 => decide
    | 1 => decide
    | 2 => exact Nat.le_refl _
  rw [poisonCreated_file s file c _ files, Nat.mul_add_mod, Nat.mod_eq_of_lt small, Nat.mul_add_div (by decide), Nat.div_eq_of_lt small,
    Nat.add_zero, Nat.mod_eq_of_lt held]

/-- The elements of one core's register of a file, as the device counts them. -/
def regShare (file : Nat) : Nat := match file with | 0 => 128 | 1 => 16 | _ => 4096

theorem lt_regShare (known : elem < fileShare file) : elem < regShare file := by
  match file with
  | 0 => exact known
  | 1 => exact known
  | 2 => exact known
  | file + 3 => exact absurd known (Nat.not_lt_zero _)

theorem elemAt_own (own : ∀ l, (s.core c).gang ≠ .follower l) (known : elem < fileShare file) : s.elemAt c file elem = (c, elem) := by
  have place : s.elemAt c file elem = (c, elem % regShare file) := by
    unfold State.elemAt
    cases gang : (s.core c).gang with
    | follower l => exact absurd gang (own l)
    | none => rfl
    | leader n => rfl
  rw [place, Nat.mod_eq_of_lt (lt_regShare known)]

theorem elemAt_follower {l : Nat} (follows : (s.core c).gang = .follower l) (pooled : file < 2) (known : elem < fileShare file) :
    s.elemAt c file elem = (l, (gangMembers l (s.core l)).idxOf c * [128, 16].getD file 0 + elem) := by
  have place : s.elemAt c file elem = (l, (gangMembers l (s.core l)).idxOf c * [128, 16].getD file 0 + elem % regShare file) := by
    unfold State.elemAt
    rw [follows]
    match file with
    | 0 => rfl
    | 1 => rfl
    | file + 2 => exact absurd pooled (by omega)
  rw [place, Nat.mod_eq_of_lt (lt_regShare known)]

/-- The element is marked where it is held, and no other mark changes. -/
theorem poisonReg_marks {d e : Nat} (held : s.elemAt c file elem = (d, e)) (reg : Nat) : OnlyCore s (s.poisonReg c file reg elem) d ∧
    ∃ l, (s.poisonReg c file reg elem).core d = { s.core d with regPoison := (file, reg, e) :: l } ∧
      ∀ y, y ≠ (file, reg, e) → (y ∈ l ↔ y ∈ (s.core d).regPoison) := by
  unfold State.poisonReg
  rw [held]
  refine ⟨⟨rfl, fun _ other => State.core_modCore_ne s other _⟩, _, State.core_modCore_self .., fun y other => ?_⟩
  rw [List.mem_filter]
  simp [other]

/-! ### A pseudo-channel that fails (R385, R386) -/

/-- A pseudo-channel is listed as failing. -/
def State.pcFails (s : State) (u : Nat) : State := { s with mgmt := { s.mgmt with pcFail := s.mgmt.pcFail ++ [u] } }

theorem exec_failing (s : State) (u : Nat) : exec (.pseudoChannelFailing u) s = .next
    (if (64 < (Spec.pcCount s u).2 ∨ 4096 < (Spec.pcCount s u).1) ∧ u ∉ s.mgmt.pcFail then ((s.pcFails u).logRecord 7 4 u 0 u).reassess else s) := by
  rw [pcCount_eq]
  refine congrArg Host.Outcome.next (ite_congr (propext ?_) (fun _ => rfl) (fun _ => rfl))
  simp only [Bool.and_eq_true, Bool.or_eq_true, decide_eq_true_eq, Bool.not_eq_true', List.contains_eq_mem, decide_eq_false_iff_not]
  rfl

theorem replaceDue_pcFails (s : State) (u : Nat) (spent : s.flash.spares = 0) : ((s.pcFails u).logRecord 7 4 u 0 u).replaceDue = true := by
  have failing : ((s.pcFails u).logRecord 7 4 u 0 u).mgmt.pcFail = s.mgmt.pcFail ++ [u] :=
    (congrArg Mgmt.pcFail (mgmt_logRecord (s.pcFails u) 7 4 u 0 u) :)
  unfold State.replaceDue
  rw [flash_logRecord, failing, show (s.pcFails u).flash.spares = 0 from spent]
  simp

/-! ### Fencing and retirement (R382 to R384) -/

theorem siteMate_of {d : Nat} (other : d ≠ c) (live : s.live d = true) (site : s.siteOf d = s.siteOf c)
    (first : ∀ e, e < d → ¬(e ≠ c ∧ s.live e = true ∧ s.siteOf e = s.siteOf c)) : s.siteMate c = some d := by
  have range : d < s.coreCount := by
    rw [State.live, Bool.and_eq_true, decide_eq_true_eq] at live
    exact live.1
  rw [State.siteMate, upTo_eq]
  refine List.find?_range_eq_some.mpr ⟨by simp [other, live, site], List.mem_range.mpr range, fun e before => ?_⟩
  have not := first e before
  rw [Bool.not_eq_true', ← Bool.not_eq_true]
  simpa only [Bool.and_eq_true, decide_eq_true_eq, beq_iff_eq, and_assoc] using not

theorem execCoreFence_live (live : s.live c = true) : exec (.coreFence c) s = .next (s.fence c) := congrArg Host.Outcome.next (if_pos live)

/-- A retired core is fenced and listed. -/
theorem listRetired_fence (s : State) (c : Nat) : (((s.fence c).listRetired c).core c).status = .fenced ∧
    c ∈ ((s.fence c).listRetired c).flash.retCores :=
  ⟨(fence_rule s c).1.1, List.mem_append_right _ (List.mem_singleton_self c)⟩

/-- The first lane error of a core. -/
def State.laneLost (s : State) (c lane : Nat) : State :=
  let s1 := s.modCore c (fun k => { k with retLane := some lane })
  { s1 with
    flash := { s1.flash with retLanes := s1.flash.retLanes ++ [(c, lane)] },
    mgmt := { s1.mgmt with retLane := s1.mgmt.retLane + 1 } }

theorem laneLost_core (s : State) (c lane : Nat) : OnlyCore s { s.laneLost c lane with flash := s.flash, mgmt := s.mgmt } c ∧
    (s.laneLost c lane).core c = { s.core c with retLane := some lane } :=
  ⟨⟨rfl, fun _ other => State.core_modCore_ne s other (fun k => { k with retLane := some lane })⟩,
    State.core_modCore_self s c (fun k => { k with retLane := some lane })⟩

/-- The leader of the gang that a core is in. -/
def State.leadOf (s : State) (c : Nat) : Nat := match (s.core c).gang with
  | .follower l => l
  | _ => c

section
variable {lane : Nat} (live : s.live c = true) (lanes : s.cls c ≠ .control) (known : lane < 16)
include live lanes known

theorem laneRetire_of : laneRetire c lane s = if (s.core c).retLane.isSome then (s.fence c).listRetired c
    else (((s.laneLost c lane).logRecord 4 1 c 0 lane).modCore (s.leadOf c) (fun k => { k with breakDue := k.gang != .none })).reassess := by
  unfold laneRetire
  dsimp only
  rw [live, if_neg (by simp [lanes, known])]
  rfl

end

theorem matrixFail_of (live : s.live c = true) (step : (s.core c).arrayStep = true) (calm : (s.core c).retireDue = false) :
    matrixFail c s = if (s.core c).residue = 0 then s.modCore c (fun k => { k with residue := 1 })
      else retireStep c (s.modCore c (fun k => { k with retireDue := true })) := by
  unfold matrixFail
  dsimp only
  rw [if_neg (by simp [live, step, calm])]

theorem retireStep_of (s : State) (c : Nat) : retireStep c s =
    if (s.core c).uWork = .strand ∧ s.stopReady c = false then s else ((s.evacuate c).fence c).listRetired c := by
  refine ite_congr (propext ?_) (fun _ => rfl) (fun _ => rfl)
  rw [Bool.and_eq_true, beq_iff_eq, Bool.not_eq_true']

end

end Sys2Proof.Machine

namespace Sys2Proof.Proofs
open Sys2Proof.Machine

/-- A corrected error is counted and recorded (R380, R385). -/
theorem errorCorrected_rule (s : State) (u a kind n : Nat) (small : kind < 256) :
    ∃ t v : State, exec (.errorCorrected kind u a n) s = .next v ∧ { t with pcErrors := s.pcErrors } = s ∧
      ((∀ e ∈ s.mgmt.corrLog, ¬Spec.sharesRecord s kind u e) →
        { v with mgmt := { v.mgmt with corrLog := s.mgmt.corrLog } } = t.logRecord 1 kind u a n) ∧
      (∀ w p base m, s.mgmt.corrLog = [(kind, u, w, some p)] → s.time.toNat < w + 100000 → s.logRing = some (base, m) →
        let slot := base + p % m * 64
        s.mem.read slot 8 = p + 1 → v = { t with mem := t.mem.write (slot + 0x20) 8 (t.mem.read (slot + 0x20) 8 + n) }) ∧
      ∀ q, Spec.pcCount t q = if kind = 4 ∧ q = u then ((Spec.pcCount s u).1 + n, (Spec.pcCount s u).2) else Spec.pcCount s q := by
  have rest := corrCounted_rest s kind u n
  have counts := pcCount_corrCounted s kind u n
  have runs := exec_errorCorrected_counted (s := s) (u := u) (a := a) (n := n) small
  generalize s.corrCounted kind u n = t at rest counts runs
  have mgmt : t.mgmt = s.mgmt := (congrArg State.mgmt rest :)
  have time : t.time = s.time := (congrArg State.time rest :)
  have mem : t.mem = s.mem := (congrArg State.mem rest :)
  refine ⟨t, _, runs, rest, fun alone => ?_, fun w p base m remembered recent ring published => ?_, counts⟩
  · rw [logCorrected_new (by unfold Spec.sharesRecord; rw [mgmt, time]; exact alone), ← mgmt]
    exact newCorrected_record t kind u a n
  · refine logCorrected_counts (s := t) (by rw [mgmt]; exact remembered) (by rw [time]; exact recent) ?_ (by rw [mem]; exact published) a n
    rw [State.logRing, mgmt]
    exact ring

/-- Lost data poisons its atom, and an atom of HBM4E names its frame (R381, R385). -/
theorem poisonMemory_rule (s : State) (u a : Nat) (good : s.goodPa a = true) : let s0 := { s with mem := s.mem.setPoison (a / 32) };
    let s1 := s0.logRecord 2 4 (s.pcOf a) (a / 32 * 32) 0;
    (2 ^ 46 ≤ a → exec (.poisonCreated 0 u a) s = .next (s0.logRecord 2 6 (a / 2 ^ 44 % 4) (a / 32 * 32) 0)) ∧
    (a < 2 ^ 46 → ∃ (t : State) (v : Flash), exec (.poisonCreated 0 u a) s = .next { t with flash := v } ∧
      t = (s1.countPc (s.pcOf a) 0 1).logRecord 7 4 (s.pcOf a) (a / 2 ^ 16 * 2 ^ 16) (s.pcOf a) ∧
      v = { s.flash with frames := s.flash.frames ++ [a / 2 ^ 16 * 2 ^ 16] }) := by
  intro s0 s1
  refine ⟨fun pool => congrArg Host.Outcome.next (poisonCreated_pool u good pool), fun memory => ?_⟩
  have flash : ((s1.countPc (s.pcOf a) 0 1).logRecord 7 4 (s.pcOf a) (a / 2 ^ 16 * 2 ^ 16) (s.pcOf a)).flash = s.flash :=
    ((flash_logRecord ..).trans (flash_countPc ..)).trans (flash_logRecord s0 2 4 (s.pcOf a) (a / 32 * 32) 0)
  exact ⟨_, _, congrArg Host.Outcome.next ((poisonCreated_hbm u good memory).trans (frameLost_eq flash _)), rfl, rfl⟩

/-- Lost data poisons its register element (R12, R218, R381). -/
theorem poisonRegister_rule (s : State) (c file reg elem : Nat) (known : elem < [128, 16, 4096].getD file 0)
    (held : reg < [32, 12, 4].getD file 0) :
    let poisons (d e : Nat) := ∃ t : State,
      exec (.poisonCreated (4 + file) c (4096 * reg + elem)) s = .next (t.logRecord 2 1 c 0 0) ∧ OnlyCore s t d ∧
      ∃ l, t.core d = { s.core d with regPoison := (file, reg, e) :: l } ∧
        ∀ y, y ≠ (file, reg, e) → (y ∈ l ↔ y ∈ (s.core d).regPoison)
    ((∀ l, (s.core c).gang ≠ .follower l) → poisons c elem) ∧
    (∀ l n, (s.core c).gang = .follower l → (s.core l).gang = .leader n → file < 2 →
      poisons l ((gangMembers l (s.core l)).idxOf c * ([128, 16].getD file 0) + elem)) := by
  intro poisons
  have marks (d e : Nat) (place : s.elemAt c file elem = (d, e)) : poisons d e :=
    ⟨_, congrArg Host.Outcome.next (poisonCreated_register known held), poisonReg_marks place reg⟩
  exact ⟨fun own => marks c elem (elemAt_own own known), fun l n follows leads pooled => marks l _ (elemAt_follower follows pooled known)⟩

/-- A pseudo-channel fails beyond its limits (R385, R386). -/
theorem failing_rule (s : State) (u : Nat) : let e := Spec.pcCount s u;
    ((e.1 ≤ 4096 ∧ e.2 ≤ 64) ∨ u ∈ s.mgmt.pcFail → exec (.pseudoChannelFailing u) s = .next s) ∧
    ((4096 < e.1 ∨ 64 < e.2) → u ∉ s.mgmt.pcFail → ∃ t : State, exec (.pseudoChannelFailing u) s = .next t ∧
      t.mgmt.pcFail = s.mgmt.pcFail ++ [u] ∧ (s.flash.spares = 0 → t.flash.replace = true) ∧
      { t with flash := s.flash } = ({ s with mgmt := { s.mgmt with pcFail := s.mgmt.pcFail ++ [u] } }).logRecord 7 4 u 0 u) := by
  intro e
  have runs := exec_failing s u
  refine ⟨fun few => runs.trans (congrArg Host.Outcome.next (if_neg ?_)),
    fun many fresh => ⟨_, runs.trans (congrArg Host.Outcome.next (if_pos ⟨many.symm, fresh⟩)), ?_, fun spent => ?_, ?_⟩⟩
  · rintro ⟨many, fresh⟩
    rcases few with ⟨corrected, lost⟩ | failing
    · exact many.elim (Nat.not_lt.mpr lost) (Nat.not_lt.mpr corrected)
    · exact fresh failing
  · rw [reassess_eq]
    exact (congrArg Mgmt.pcFail (mgmt_logRecord (s.pcFails u) 7 4 u 0 u) :)
  · rw [reassess_eq, replaceDue_pcFails s u spent]
    exact Bool.or_true _
  · rw [reassess_eq]
    exact restored_flash (flash_logRecord (s.pcFails u) 7 4 u 0 u)

/-- Fencing a core (R333, R384). -/
theorem coreFence_rule (s : State) (c : Nat) (live : s.live c = true) : ∃ t : State, exec (.coreFence c) s = .next t ∧ (t.core c).status = .fenced ∧
    (t.core c).uWork = .empty ∧ (t.core c).aWork = .idle ∧ (t.core c).arrival = [] ∧ t.mgmt.retCore = s.mgmt.retCore + 1 ∧
    (∀ o ∈ t.ops, o.core ≠ c) ∧ (∀ f ∈ t.flights, f.core ≠ c) ∧
    ∀ d, d ≠ c → s.live d = true → s.siteOf d = s.siteOf c →
      (∀ e, e < d → ¬(e ≠ c ∧ s.live e = true ∧ s.siteOf e = s.siteOf c)) → (s.core c).uWork = .strand →
      ∃ e ∈ (t.core d).entries, e.cause = .remote ∧ e.sinfo = 2 ∧ e.asid = (s.core c).u.as ∧ e.sid = (s.core c).u.sid ∧
        e.held = true := by
  obtain ⟨⟨status, u, a, arrival⟩, count, ops, flights, told⟩ := fence_rule s c
  refine ⟨_, execCoreFence_live live, status, u, a, arrival, count, ops, flights, fun d other alive site first runs => ?_⟩
  have stands : (s.core c).u ∈ (s.core c).standing := by
    unfold Core.standing
    rw [runs]
    exact List.mem_append_left _ (List.mem_append_left _ (List.mem_singleton_self _))
  exact ⟨_, told d (siteMate_of other alive site first) other _ stands, rfl, rfl, rfl, rfl, rfl⟩

/-- The failures of a matrix array step (R378, R384). -/
theorem matrixFail_rule (s : State) (c : Nat) (live : s.live c = true) (step : (s.core c).arrayStep = true) (calm : (s.core c).retireDue = false) :
    ((s.core c).residue = 0 → ∃ t : State, exec (.matrixStepCheckFail c) s = .next t ∧ CoreBecomes s t c { s.core c with residue := 1 }) ∧
    ((s.core c).residue ≠ 0 → let w := s.modCore c (fun k => { k with retireDue := true })
      ((s.core c).uWork ≠ .strand ∨ w.stopReady c = true → ∃ t : State, exec (.matrixStepCheckFail c) s = .next t ∧
        (t.core c).status = .fenced ∧ c ∈ t.flash.retCores) ∧
      ((s.core c).uWork = .strand → w.stopReady c = false → exec (.matrixStepCheckFail c) s = .next w)) := by
  have fails := matrixFail_of live step calm
  refine ⟨fun first => ⟨_, congrArg Host.Outcome.next (fails.trans (if_pos first)), modCore_coreBecomes ..⟩, fun second => ?_⟩
  intro w
  have work : (w.core c).uWork = (s.core c).uWork := by
    have core := State.core_modCore_self s c (fun k => { k with retireDue := true })
    exact (congrArg Core.uWork core :)
  have retires := (fails.trans (if_neg second)).trans (retireStep_of w c)
  rw [work] at retires
  refine ⟨fun may => ⟨_, congrArg Host.Outcome.next (retires.trans (if_neg ?_)), listRetired_fence (w.evacuate c) c⟩,
    fun runs waits => congrArg Host.Outcome.next (retires.trans (if_pos ⟨runs, waits⟩))⟩
  rintro ⟨runs, waits⟩
  exact may.elim (absurd runs) fun ready => absurd (ready.symm.trans waits) (by decide)

/-- Settles O48: each error event is one equation over the log, the poison, or the fence of a core. -/
theorem errorEvents : Obligations.ErrorEvents := by
  intro s c u a
  refine ⟨reassess_eq s, fun cls kind pa detail none base n ring => ⟨fun free => logRecord_published ring none free _ _ _ _ _,
      fun full => logRecord_full ring none full _ _ _ _ _⟩, fun base n lost ring free => ⟨_, rfl, errorLogSpace_published ring lost free⟩,
    fun kind n small => errorCorrected_rule s u a kind n small, fun good => poisonMemory_rule s u a good,
    fun range => congrArg Host.Outcome.next (if_pos range), fun range => congrArg Host.Outcome.next (if_pos range), fun range site => ?_,
    fun file reg elem known held => poisonRegister_rule s c file reg elem known held, failing_rule s u, fun link => ?_, rfl,
    coreFence_rule s c, fun lane live lanes known => ⟨fun first => ?_, fun second => ?_⟩, matrixFail_rule s c⟩
  · refine (congrArg Host.Outcome.next (if_pos range) : exec (.poisonCreated 3 u a) s = _).trans ?_
    rw [Nat.mod_eq_of_lt site]
    rfl
  · refine ⟨_, ?_, rfl⟩
    change Host.Outcome.next _ = _
    rw [Nat.mod_eq_of_lt link]
    simp only [List.contains_eq_mem, decide_eq_true_eq]
  · obtain ⟨only, becomes⟩ := laneLost_core s c lane
    refine ⟨s.laneLost c lane, only, becomes, rfl, rfl, ?_⟩
    exact congrArg Host.Outcome.next ((laneRetire_of live lanes known).trans (if_neg (by simp [first])))
  · exact ⟨_, congrArg Host.Outcome.next ((laneRetire_of live lanes known).trans (if_pos (Option.isSome_iff_ne_none.mpr second))),
      listRetired_fence s c⟩

end Sys2Proof.Proofs
end

section
/-! Operating points, grants, gating, limits and temperature (R262 to R269, R407): the statement O47. -/

namespace Sys2Proof.Machine

/-! ### Tables of tiles -/

section
variable {s t u : State} {k : Nat}

theorem tile_modTile_self (s : State) (k : Nat) (f : Tile → Tile) : (s.modTile k f).tile k = f (s.tile k) := by
  rw [State.tile, State.modTile, kvGet_set_self]
  rfl

theorem tile_modTile_ne (s : State) {j k : Nat} (other : j ≠ k) (f : Tile → Tile) : (s.modTile k f).tile j = s.tile j := by
  rw [State.tile, State.modTile, kvGet_set_ne other]
  rfl

/-- One entry of a table is set: the others stay, but for at most one of that key. -/
theorem kvSet_split {α : Type} (k : Nat) (v : α) (l : List (Nat × α)) :
    ∃ a b c, kvSet k v l = a ++ (k, v) :: c ∧ l = a ++ b ∧ (b = c ∨ ∃ w, b = (k, w) :: c) := by
  induction l with
  | nil => exact ⟨[], [], [], rfl, rfl, .inl rfl⟩
  | cons p l ih =>
    obtain ⟨j, w⟩ := p
    rw [kvSet]
    split
    · exact ⟨[], (j, w) :: l, (j, w) :: l, rfl, rfl, .inl rfl⟩
    · split
      · rename_i same
        exact ⟨[], (j, w) :: l, l, rfl, rfl, .inr ⟨w, by rw [same]⟩⟩
      · obtain ⟨a, b, c, set, whole, rest⟩ := ih
        exact ⟨(j, w) :: a, b, c, by rw [set]; rfl, by rw [whole]; rfl, rest⟩

theorem mem_of_mem_kvSet {α : Type} {k : Nat} {v : α} {l : List (Nat × α)} {e : Nat × α} (listed : e ∈ kvSet k v l) : e = (k, v) ∨ e ∈ l := by
  obtain ⟨a, b, c, set, rfl, rest⟩ := kvSet_split k v l
  rw [set, List.mem_append, List.mem_cons] at listed
  rw [List.mem_append]
  rcases listed with first | same | last
  · exact .inr (.inl first)
  · exact .inl same
  · rcases rest with rfl | ⟨w, rfl⟩
    · exact .inr (.inr last)
    · exact .inr (.inr (List.mem_cons_of_mem _ last))

theorem mem_kvSet_ne {α : Type} {k : Nat} {v : α} {l : List (Nat × α)} {e : Nat × α} (listed : e ∈ l) (other : e.1 ≠ k) : e ∈ kvSet k v l := by
  obtain ⟨a, b, c, set, rfl, rest⟩ := kvSet_split k v l
  rw [set, List.mem_append, List.mem_cons]
  rcases List.mem_append.mp listed with first | last
  · exact .inl first
  · rcases rest with rfl | ⟨w, rfl⟩
    · exact .inr (.inr last)
    · exact .inr (.inr ((List.mem_cons.mp last).resolve_left (fun same => other (by rw [same]))))

theorem mem_kvSet_self {α : Type} (k : Nat) (v : α) (l : List (Nat × α)) : (k, v) ∈ kvSet k v l := mem_of_kvGet (kvGet_set_self k v l)

/-- A tile of the table that no entry names is as at reset. -/
theorem tile_mem (s : State) (k : Nat) : (k, s.tile k) ∈ s.tiles ∨ s.tile k = Tile.reset := by
  unfold State.tile
  cases found : kvGet k s.tiles with
  | none => exact .inr rfl
  | some x => exact .inl (mem_of_kvGet found)

/-! ### The highest of the points above OP3 (R262, R264) -/

theorem le_foldl_min (l : List Nat) (a r : Nat) : r ≤ l.foldl min a ↔ r ≤ a ∧ ∀ x ∈ l, r ≤ x := by
  induction l generalizing a with
  | nil => simp
  | cons x l ih =>
    rw [List.foldl_cons, ih, Nat.le_min, List.forall_mem_cons, and_assoc]

/-- The highest point above OP3 of which P holds, or OP3. -/
def highest (P : Nat → Prop) [DecidablePred P] : Nat := [4, 5, 6, 7].foldl (fun b p => if P p then p else b) 3

theorem highest_spec (P : Nat → Prop) [DecidablePred P] : 3 ≤ highest P ∧ highest P ≤ 7 ∧ (3 < highest P → P (highest P)) ∧
    ∀ p, 4 ≤ p → p ≤ 7 → P p → p ≤ highest P := by
  unfold highest
  simp only [List.foldl_cons, List.foldl_nil]
  by_cases seven : P 7
  · rw [if_pos seven]
    exact ⟨by decide, Nat.le_refl _, fun _ => seven, fun p _ small _ => small⟩
  by_cases six : P 6
  · rw [if_neg seven, if_pos six]
    exact ⟨by decide, by decide, fun _ => six, fun p _ small holds => Nat.le_of_lt_succ (Nat.lt_of_le_of_ne small (by rintro rfl; exact seven holds))⟩
  by_cases five : P 5
  · rw [if_neg seven, if_neg six, if_pos five]
    refine ⟨by decide, by decide, fun _ => five, fun p _ small holds => ?_⟩
    have : p ≠ 7 := by rintro rfl; exact seven holds
    have : p ≠ 6 := by rintro rfl; exact six holds
    omega
  by_cases four : P 4
  · rw [if_neg seven, if_neg six, if_neg five, if_pos four]
    refine ⟨by decide, by decide, fun _ => four, fun p _ small holds => ?_⟩
    have : p ≠ 7 := by rintro rfl; exact seven holds
    have : p ≠ 6 := by rintro rfl; exact six holds
    have : p ≠ 5 := by rintro rfl; exact five holds
    omega
  rw [if_neg seven, if_neg six, if_neg five, if_neg four]
  refine ⟨Nat.le_refl _, by decide, fun less => absurd less (by decide), fun p large small holds => ?_⟩
  have : p ≠ 7 := by rintro rfl; exact seven holds
  have : p ≠ 6 := by rintro rfl; exact six holds
  have : p ≠ 5 := by rintro rfl; exact five holds
  have : p ≠ 4 := by rintro rfl; exact four holds
  omega

theorem covered_eq (s : State) (k budget : Nat) : s.covered k budget = highest (fun p => s.pointCost k p ≤ budget) := rfl

theorem pointCost_mono (s : State) (k : Nat) {p q : Nat} (le : p ≤ q) (small : q ≤ 7) : s.pointCost k p ≤ s.pointCost k q := by
  have powers : ∀ q ≤ 7, ∀ p ≤ q, relPower p ≤ relPower q := by decide
  exact Nat.div_le_div_right (Nat.mul_le_mul_left _ (Nat.sub_le_sub_right (powers q small p le) 100))

/-- A point above OP3 is covered exactly when its cost is. -/
theorem le_covered (s : State) (k budget : Nat) {p : Nat} (large : 4 ≤ p) (small : p ≤ 7) : p ≤ s.covered k budget ↔ s.pointCost k p ≤ budget := by
  obtain ⟨_, high, covers, above⟩ := highest_spec (fun p => s.pointCost k p ≤ budget)
  rw [covered_eq]
  exact ⟨fun le => Nat.le_trans (pointCost_mono s k le high) (covers (by omega)), above p large small⟩

theorem three_le_covered (s : State) (k budget : Nat) : 3 ≤ s.covered k budget := (highest_spec _).1

theorem le_granted (s : State) (k p : Nat) : p ≤ s.granted k ↔ p ≤ 7 ∧ ∀ v ∈ s.tileMates k, p ≤ s.covered v (s.tile v).keeps := by
  rw [State.granted, le_foldl_min, List.forall_mem_map]

theorem three_le_granted (s : State) (k : Nat) : 3 ≤ s.granted k :=
  (le_granted s k 3).mpr ⟨by decide, fun v _ => three_le_covered ..⟩

theorem le_wanted {p : Nat} (wanted : p ≤ s.wanted k) : p ≤ 7 ∧ ∀ v ∈ s.tileMates k, p ≤ (s.tile v).limit := by
  rw [State.wanted, Nat.le_min, le_foldl_min, List.forall_mem_map] at wanted
  exact wanted.2

theorem tileMates_cases (s : State) (k : Nat) : s.tileMates k = [k] ∨ s.tileMates k = [2 * (k / 2), 2 * (k / 2) + 1] := by
  unfold State.tileMates
  dsimp only
  split
  · exact .inr rfl
  · exact .inl rfl

theorem nodup_tileMates (s : State) (k : Nat) : (s.tileMates k).Nodup := by
  rcases tileMates_cases s k with one | two
  · rw [one]
    exact List.nodup_singleton k
  · rw [two]
    simp

theorem mem_tileMates (s : State) (k : Nat) : k ∈ s.tileMates k := by
  rcases tileMates_cases s k with one | two
  · rw [one]
    exact List.mem_singleton_self k
  · rw [two]
    simp only [List.mem_cons, List.not_mem_nil, or_false]
    omega

/-! ### Budget that returns to the pool (R265) -/

/-- Two tiles differ at most in whether the table has refused one. -/
def Tile.Alike (x y : Tile) : Prop := { y with refused := x.refused } = x

theorem Tile.Alike.refl (x : Tile) : x.Alike x := rfl

theorem Tile.Alike.trans {x y z : Tile} (first : x.Alike y) (second : y.Alike z) : x.Alike z := by
  unfold Tile.Alike at *
  rw [← first, ← second]

/-- A tile of a site whose pool has grown asks again. -/
def State.regrown (s : State) (i t : Nat) (x : Tile) : Tile := if s.tileSite t = i then { x with refused := false } else x

theorem tiles_growPool (s : State) (i n : Nat) : (s.growPool i n).tiles =
    if n = 0 then s.tiles else s.tiles.map (fun p => (p.1, s.regrown i p.1 p.2)) := by
  unfold State.growPool
  split
  · rfl
  · refine List.map_congr_left fun p _ => ?_
    dsimp only [State.regrown]
    split <;> rfl

theorem alike_regrown (s : State) (i j : Nat) (x : Tile) : x.Alike (s.regrown i j x) := by
  unfold State.regrown
  split <;> rfl

theorem tile_growPool (s : State) (i n j : Nat) : (s.tile j).Alike ((s.growPool i n).tile j) := by
  rw [State.tile, State.tile, tiles_growPool]
  split
  · exact .refl _
  · rw [kvGet_mapKeyed (s.regrown i)]
    cases kvGet j s.tiles with
    | none => exact .refl _
    | some x => exact alike_regrown s i j x

theorem pool_growPool (s : State) (i n : Nat) : ((s.growPool i n).site i).pool = (s.site i).pool + n := by
  unfold State.growPool
  split
  · rename_i none
    rw [none]
    rfl
  · exact congrArg Site.pool (State.site_modSite_self s i (fun x => { x with pool := x.pool + n }))

theorem onlyPower_growPool (s : State) (i n : Nat) : Spec.OnlyPower s (s.growPool i n) := by
  unfold State.growPool
  split <;> rfl

theorem onlyPower_modTile (s : State) (k : Nat) (f : Tile → Tile) : Spec.OnlyPower s (s.modTile k f) := rfl

theorem onlyPower_modSite (s : State) (i : Nat) (f : Site → Site) : Spec.OnlyPower s (s.modSite i f) := rfl

theorem tile_modSite (s : State) (i : Nat) (f : Site → Site) (j : Nat) : (s.modSite i f).tile j = s.tile j := rfl

theorem onlyPower_trans (first : Spec.OnlyPower s t) (second : Spec.OnlyPower t u) : Spec.OnlyPower s u := by
  unfold Spec.OnlyPower at *
  rw [← first, ← second]

/-- A tile that keeps at most some of its lent budget. -/
def Tile.cut (x : Tile) (keep : Nat) : Tile := { x with lent := min x.lent keep, called := if x.lent ≤ keep then x.called else 0 }

theorem giveBack_eq (s : State) (v keep : Nat) : s.giveBack v keep = if (s.tile v).lent ≤ keep then s
    else ((s.modTile v (fun x => { x with lent := keep, called := 0 })).modSite (s.tileSite v) (fun y => { y with
      grants := (cutGrants v ((s.tile v).lent - keep) y.grants.reverse).reverse })).growPool (s.tileSite v) ((s.tile v).lent - keep) := rfl

theorem tile_giveBack (s : State) (v keep j : Nat) :
    (if j = v then (s.tile v).cut keep else s.tile j).Alike ((s.giveBack v keep).tile j) := by
  rw [giveBack_eq]
  by_cases fits : (s.tile v).lent ≤ keep
  · rw [if_pos fits]
    by_cases same : j = v
    · rw [if_pos same, same, Tile.cut, if_pos fits, Nat.min_eq_left fits]
      exact .refl _
    · rw [if_neg same]
      exact .refl _
  · rw [if_neg fits]
    refine Tile.Alike.trans ?_ (tile_growPool ..)
    by_cases same : j = v
    · subst same
      rw [if_pos rfl, Tile.cut, if_neg fits, Nat.min_eq_right (Nat.le_of_not_le fits)]
      rw [tile_modSite, tile_modTile_self]
      exact .refl _
    · rw [if_neg same]
      rw [tile_modSite, tile_modTile_ne s same]
      exact .refl _

theorem onlyPower_giveBack (s : State) (v keep : Nat) : Spec.OnlyPower s (s.giveBack v keep) := by
  rw [giveBack_eq]
  split
  · rfl
  · exact onlyPower_trans (onlyPower_trans (onlyPower_modTile ..) (onlyPower_modSite ..)) (onlyPower_growPool ..)

theorem pool_giveBack (s : State) (v keep : Nat) : ((s.giveBack v keep).site (s.tileSite v)).pool =
    (s.site (s.tileSite v)).pool + ((s.tile v).lent - min (s.tile v).lent keep) := by
  rw [giveBack_eq]
  by_cases fits : (s.tile v).lent ≤ keep
  · rw [if_pos fits, Nat.min_eq_left fits, Nat.sub_self]
    rfl
  · rw [if_neg fits, Nat.min_eq_right (Nat.le_of_not_le fits), pool_growPool, State.site_modSite_self]
    rfl

/-! ### Switching dividers (R263, R264, R266) -/

/-- A tile that has switched to a point and gives back what it no longer needs. -/
def Tile.switched (x : Tile) (p cost : Nat) : Tile := { x with point := p }.cut cost

theorem Tile.Alike.switched {x y : Tile} (alike : x.Alike y) (p cost : Nat) : (x.switched p cost).Alike (y.switched p cost) := by
  unfold Tile.Alike at *
  rw [← alike]
  rfl

/-- One tile of a gang switches. -/
def State.switchTile (s u : State) (p v : Nat) : State :=
  if (s.tile v).gated then u else (u.modTile v (fun x => { x with point := p })).giveBack v (s.pointCost v p)

theorem onlyPower_switchTile (s u : State) (p v : Nat) : Spec.OnlyPower u (s.switchTile u p v) := by
  unfold State.switchTile
  split
  · rfl
  · exact onlyPower_trans (onlyPower_modTile ..) (onlyPower_giveBack ..)

theorem tile_switchTile (s u : State) (p v j : Nat) :
    (if j = v ∧ (s.tile v).gated = false then (u.tile v).switched p (s.pointCost v p) else u.tile j).Alike ((s.switchTile u p v).tile j) := by
  unfold State.switchTile
  cases gated : (s.tile v).gated with
  | true =>
    rw [if_neg (by simp), if_pos rfl]
    exact .refl _
  | false =>
    rw [if_neg Bool.false_ne_true]
    have gives := tile_giveBack (u.modTile v (fun x => { x with point := p })) v (s.pointCost v p) j
    rw [tile_modTile_self] at gives
    by_cases same : j = v
    · rw [if_pos same] at gives
      rw [if_pos ⟨same, rfl⟩]
      exact gives
    · rw [if_neg same, tile_modTile_ne u same] at gives
      rw [if_neg (fun both => same both.1)]
      exact gives

/-- The tiles of a gang switch one after the other. -/
theorem tile_switched (s : State) (p : Nat) (l : List Nat) (nodup : l.Nodup) (u : State) :
    Spec.OnlyPower u (l.foldl (fun u v => s.switchTile u p v) u) ∧ ∀ j,
      (if j ∈ l ∧ (s.tile j).gated = false then (u.tile j).switched p (s.pointCost j p) else u.tile j).Alike
        ((l.foldl (fun u v => s.switchTile u p v) u).tile j) := by
  induction l generalizing u with
  | nil => exact ⟨rfl, fun j => by rw [if_neg (by simp)]; exact .refl _⟩
  | cons v l ih =>
    rw [List.nodup_cons] at nodup
    obtain ⟨only, tiles⟩ := ih nodup.2 (s.switchTile u p v)
    refine ⟨onlyPower_trans (onlyPower_switchTile ..) only, fun j => ?_⟩
    have first := tile_switchTile s u p v j
    have rest := tiles j
    rw [List.foldl_cons]
    by_cases same : j = v
    · subst same
      rw [if_neg (fun both => nodup.1 both.1)] at rest
      refine Tile.Alike.trans ?_ rest
      simpa using first
    · rw [if_neg (fun both => same both.1)] at first
      refine Tile.Alike.trans ?_ rest
      simp only [List.mem_cons, same, false_or]
      split
      · exact first.switched p _
      · exact first

theorem pointSwitch_gated (gated : (s.tile k).gated = true) : pointSwitch k s = s := if_pos gated

theorem pointSwitch_folds (runs : (s.tile k).gated = false) :
    pointSwitch k s = (s.tileMates k).foldl (fun u v => s.switchTile u (s.nextPoint k) v) s := if_neg (by simp [runs])

/-! ### Asking for budget (R263, R265, R407) -/

/-- A tile but for the time of its request. -/
def Tile.unasked (x : Tile) : Tile := { x with asked := none }

/-- A tile that has asked. -/
def Tile.asking (x : Tile) (now : Nat) : Tile := { x with asked := some (x.asked.getD now) }

theorem keeps_of_unasked {x y : Tile} (same : x.unasked = y.unasked) : x.keeps = y.keeps := (congrArg Tile.keeps same :)

section
variable (rest : { t with tiles := s.tiles } = s)
include rest

theorem pointCost_rest (v p : Nat) : t.pointCost v p = s.pointCost v p := (congrArg (fun x : State => x.pointCost v p) rest :)

theorem tileMates_rest (v : Nat) : t.tileMates v = s.tileMates v := (congrArg (fun x : State => x.tileMates v) rest :)

theorem tileSite_rest (v : Nat) : t.tileSite v = s.tileSite v := (congrArg (fun x : State => x.tileSite v) rest :)

variable (tiles : ∀ j, (t.tile j).unasked = (s.tile j).unasked)
include tiles

theorem granted_rest (v : Nat) : t.granted v = s.granted v := by
  unfold State.granted State.covered
  rw [tileMates_rest rest]
  simp only [pointCost_rest rest, keeps_of_unasked (tiles _)]

theorem wanted_rest (v : Nat) : t.wanted v = s.wanted v := by
  have asks (c : Nat) : t.request c = s.request c := (congrArg (fun x : State => x.request c) rest :)
  have limits (j : Nat) : (t.tile j).limit = (s.tile j).limit := (congrArg Tile.limit (tiles j) :)
  unfold State.wanted
  dsimp only
  rw [tileMates_rest rest, funext asks]
  simp only [limits]

/-- Whether a tile asks does not depend on when tiles have asked. -/
theorem asksPoint_rest (v : Nat) : t.asksPoint v = s.asksPoint v := by
  have gated (j : Nat) : (t.tile j).gated = (s.tile j).gated := (congrArg Tile.gated (tiles j) :)
  have cap : (t.site (s.tileSite v)).cap = (s.site (s.tileSite v)).cap :=
    (congrArg (fun x : State => (x.site (s.tileSite v)).cap) rest :)
  unfold State.asksPoint
  rw [tileMates_rest rest, granted_rest rest tiles, wanted_rest rest tiles, tileSite_rest rest, cap]
  simp only [gated]

end

/-- A tile alone asks when a point that it wants costs more than it keeps. -/
theorem asksPoint_iff (one : s.tileMates k = [k]) :
    s.asksPoint k = true ↔ (s.tile k).gated = false ∧ ∃ q, Spec.wants s k q ∧ 0 < Spec.lack s k q := by
  have below (q : Nat) (large : 4 ≤ q) (small : q ≤ 7) : q ≤ s.granted k ↔ Spec.lack s k q = 0 := by
    rw [le_granted, one, List.forall_mem_singleton, le_covered s k _ large small]
    exact ⟨fun le => Nat.sub_eq_zero_of_le le.2, fun none => ⟨small, Nat.le_of_sub_eq_zero none⟩⟩
  rw [State.asksPoint, one, List.all_cons, List.all_nil, Bool.and_true, Bool.and_eq_true, Bool.not_eq_true', decide_eq_true_eq, Nat.lt_min]
  refine and_congr_right fun _ => ⟨fun ⟨wanted, allowed⟩ => ?_, fun ⟨q, ⟨large, small, wanted, allowed⟩, lacks⟩ => ?_⟩
  · have small := (le_wanted wanted).1
    have large : 4 ≤ s.granted k + 1 := Nat.succ_le_succ (three_le_granted s k)
    refine ⟨s.granted k + 1, ⟨large, small, wanted, allowed⟩, Nat.pos_of_ne_zero fun none => ?_⟩
    exact Nat.not_succ_le_self _ ((below _ large small).mpr none)
  · have granted : s.granted k < q := Nat.lt_of_not_le fun le => by
      rw [(below q large small).mp le] at lacks
      exact Nat.lt_irrefl 0 lacks
    exact ⟨Nat.lt_of_lt_of_le granted wanted, Nat.lt_of_lt_of_le granted allowed⟩

/-! ### The oldest request (R265) -/

/-- The older of a request and that of an entry. -/
def olderAsk (b : Option (Nat × Nat)) (p : Nat × Tile) : Option (Nat × Nat) :=
  let x := (p.2.asked.getD 0, p.1)
  match b with
  | none => some x
  | some y => if x.1 < y.1 ∨ (x.1 = y.1 ∧ x.2 < y.2) then some x else some y

theorem oldestAsker_eq (s : State) (i : Nat) : s.oldestAsker i =
    ((s.tiles.filter (fun p => p.2.asked.isSome && s.tileSite p.1 == i && s.asksPoint p.1)).foldl olderAsk none).map (·.2) := rfl

theorem foldl_olderAsk (l : List (Nat × Tile)) (b : Nat × Nat) : ∃ y, l.foldl olderAsk (some b) = some y ∧ y.1 ≤ b.1 ∧
    (y = b ∨ ∃ p ∈ l, y = (p.2.asked.getD 0, p.1)) ∧ ∀ p ∈ l, y.1 ≤ p.2.asked.getD 0 := by
  induction l generalizing b with
  | nil => exact ⟨b, rfl, Nat.le_refl _, .inl rfl, fun p listed => by cases listed⟩
  | cons p l ih =>
    rw [List.foldl_cons, olderAsk]
    dsimp only
    split
    · rename_i older
      obtain ⟨y, found, least, from', rest⟩ := ih (p.2.asked.getD 0, p.1)
      have less : p.2.asked.getD 0 ≤ b.1 := by omega
      refine ⟨y, found, Nat.le_trans least less, .inr ?_, List.forall_mem_cons.mpr ⟨least, rest⟩⟩
      rcases from' with same | ⟨e, listed, same⟩
      · exact ⟨p, List.mem_cons_self, same⟩
      · exact ⟨e, List.mem_cons_of_mem _ listed, same⟩
    · rename_i younger
      obtain ⟨y, found, least, from', rest⟩ := ih b
      have more : b.1 ≤ p.2.asked.getD 0 := by omega
      refine ⟨y, found, least, from'.imp id ?_, List.forall_mem_cons.mpr ⟨Nat.le_trans least more, rest⟩⟩
      rintro ⟨e, listed, same⟩
      exact ⟨e, List.mem_cons_of_mem _ listed, same⟩

/-- The oldest request of a table that has one. -/
theorem foldl_olderAsk_none {l : List (Nat × Tile)} (some : l ≠ []) : ∃ y, l.foldl olderAsk none = .some y ∧
    (∃ p ∈ l, y = (p.2.asked.getD 0, p.1)) ∧ ∀ p ∈ l, y.1 ≤ p.2.asked.getD 0 := by
  obtain ⟨p, l, rfl⟩ := List.exists_cons_of_ne_nil some
  obtain ⟨y, found, least, from', rest⟩ := foldl_olderAsk l (p.2.asked.getD 0, p.1)
  refine ⟨y, found, ?_, List.forall_mem_cons.mpr ⟨least, rest⟩⟩
  rcases from' with same | ⟨e, listed, same⟩
  · exact ⟨p, List.mem_cons_self, same⟩
  · exact ⟨e, List.mem_cons_of_mem _ listed, same⟩

theorem mem_askers {i : Nat} {e : Nat × Tile} : e ∈ s.tiles.filter (fun p => p.2.asked.isSome && s.tileSite p.1 == i && s.asksPoint p.1) ↔
    e ∈ s.tiles ∧ e.2.asked.isSome = true ∧ s.tileSite e.1 = i ∧ s.asksPoint e.1 = true := by
  rw [List.mem_filter, Bool.and_eq_true, Bool.and_eq_true, beq_iff_eq, and_assoc]

theorem oldestAsker_only {x : Tile} (alone : ∀ e ∈ s.tiles, e.2.asked.isSome = true → e.1 = k) (listed : (k, x) ∈ s.tiles)
    (asked : x.asked.isSome = true) (asks : s.asksPoint k = true) : s.oldestAsker (s.tileSite k) = some k := by
  obtain ⟨y, found, ⟨p, mem, same⟩, _⟩ := foldl_olderAsk_none (List.ne_nil_of_mem (mem_askers.mpr ⟨listed, asked, rfl, asks⟩))
  obtain ⟨mem, has, _⟩ := mem_askers.mp mem
  rw [oldestAsker_eq, found, same]
  exact congrArg some (alone p mem has)

theorem oldestAsker_other {j a : Nat} {y : Tile} (listed : (j, y) ∈ s.tiles) (asked : y.asked = some a) (asks : s.asksPoint j = true)
    (later : ∀ e ∈ s.tiles, e.1 = k → ∀ b, e.2.asked = some b → a < b) : s.oldestAsker (s.tileSite j) ≠ some k := by
  have mine := mem_askers.mpr ⟨listed, by rw [asked]; rfl, rfl, asks⟩
  obtain ⟨z, found, ⟨p, mem, same⟩, least⟩ := foldl_olderAsk_none (List.ne_nil_of_mem mine)
  obtain ⟨mem, has, _⟩ := mem_askers.mp mem
  have first := least (j, y) mine
  rw [asked, Option.getD_some] at first
  rw [oldestAsker_eq, found, same]
  intro is
  obtain ⟨b, at'⟩ := Option.isSome_iff_exists.mp has
  have after := later p mem (Option.some.inj is) b at'
  rw [same, at', Option.getD_some] at first
  exact Nat.not_lt.mpr first after

/-! ### A request is noted (R265) -/

theorem modMates_rest (s : State) (k : Nat) (f : Tile → Tile) : { s.modMates k f with tiles := s.tiles } = s := by
  unfold State.modMates
  generalize s.tileMates k = l
  suffices h : ∀ u : State, { l.foldl (fun u x => u.modTile x f) u with tiles := u.tiles } = u from h s
  induction l with
  | nil => exact fun u => rfl
  | cons v l ih =>
    intro u
    exact (congrArg (fun x : State => { x with tiles := u.tiles }) (ih (u.modTile v f)) :)

/-- What f leaves of a tile stays. -/
theorem tile_modMates {α : Type} (s : State) (k : Nat) (f : Tile → Tile) (g : Tile → α) (keeps : ∀ x, g (f x) = g x) (j : Nat) :
    g ((s.modMates k f).tile j) = g (s.tile j) := by
  unfold State.modMates
  generalize s.tileMates k = l
  induction l generalizing s with
  | nil => rfl
  | cons v l ih =>
    rw [List.foldl_cons, ih]
    by_cases same : j = v
    · rw [same, tile_modTile_self, keeps]
    · rw [tile_modTile_ne s same]

theorem modMates_one (one : s.tileMates k = [k]) (f : Tile → Tile) : s.modMates k f = s.modTile k f := by
  rw [State.modMates, one]
  rfl

theorem noteAsk_beside (s : State) (k : Nat) : { s.noteAsk k with tiles := s.tiles } = s ∧ ∀ j, ((s.noteAsk k).tile j).unasked = (s.tile j).unasked := by
  unfold State.noteAsk
  dsimp only
  split
  · exact ⟨rfl, fun _ => rfl⟩
  · exact ⟨modMates_rest .., tile_modMates s k _ Tile.unasked fun _ => rfl⟩

section
variable (one : s.tileMates k = [k]) (unrefused : (s.tile k).refused = false) (asks : s.asksPoint k = true)
include one unrefused asks

theorem noteAsk_one : s.noteAsk k = if (s.tile k).asked.isSome then s else s.modTile k (fun x => { x with asked := some s.time.toNat }) := by
  unfold State.noteAsk
  rw [one, asks, modMates_one one]
  simp only [List.any_cons, List.any_nil, unrefused, Bool.or_false, Bool.not_true]
  rfl

/-- The request of a tile alone is in the table, and no other entry changes. -/
theorem noteAsk_tiles : (s.noteAsk k).tile k = (s.tile k).asking s.time.toNat ∧ (∀ j, j ≠ k → (s.noteAsk k).tile j = s.tile j) ∧
    (k, (s.tile k).asking s.time.toNat) ∈ (s.noteAsk k).tiles ∧ (∀ e ∈ s.tiles, e.1 ≠ k → e ∈ (s.noteAsk k).tiles) ∧
    ∀ e ∈ (s.noteAsk k).tiles, e.1 ≠ k ∨ e.2 ≠ s.tile k → e = (k, (s.tile k).asking s.time.toNat) ∨ e ∈ s.tiles := by
  rw [noteAsk_one one unrefused asks]
  cases asked : (s.tile k).asked with
  | none =>
    have set : (s.tile k).asking s.time.toNat = { s.tile k with asked := some s.time.toNat } := by
      rw [Tile.asking, asked]
      rfl
    rw [set, Option.isSome_none, if_neg Bool.false_ne_true]
    exact ⟨tile_modTile_self .., fun j other => tile_modTile_ne s other _, mem_kvSet_self .., fun e listed other => mem_kvSet_ne listed other,
      fun e listed _ => mem_of_mem_kvSet listed⟩
  | some a =>
    have set : (s.tile k).asking s.time.toNat = s.tile k := by
      rw [Tile.asking, asked, Option.getD_some, ← asked]
    rw [set, Option.isSome_some, if_pos rfl]
    refine ⟨rfl, fun _ _ => rfl, (tile_mem s k).resolve_right fun reset => ?_, fun _ listed _ => listed, fun _ listed _ => .inr listed⟩
    rw [reset] at asked
    cases asked

end

/-! ### The damper's answer (R264, R265) -/

/-- What the tiles that move together need for a point beyond what they keep. -/
def State.damperNeed (s : State) (k p : Nat) : Nat := ((s.tileMates k).map (fun v => Spec.lack s v p)).sum

/-- The highest point that is wanted, allowed and covered by the pool. -/
def State.bestPoint (s : State) (k : Nat) : Nat :=
  highest (fun p => p ≤ min (s.wanted k) (s.site (s.tileSite k)).cap ∧ s.damperNeed k p ≤ s.lendable (s.tileSite k))

/-- A request has been answered: with a refusal. -/
def Tile.denied (x : Tile) : Tile := { x with asked := none, refused := true }

theorem damperGrant_content (quiet : s.asksPoint k = false) : damperGrant k s =
    if (s.tileMates k).any (fun u => (s.tile u).asked.isSome) then s.modMates k Tile.unasked else s := by
  unfold damperGrant
  dsimp only
  rw [quiet, Bool.not_false, if_pos rfl]
  rfl

theorem damperGrant_refused (refused : (s.tileMates k).any (fun u => (s.tile u).refused) = true) (asks : s.asksPoint k = true) :
    damperGrant k s = s := by
  unfold damperGrant
  dsimp only
  rw [asks, Bool.not_true, if_neg Bool.false_ne_true, if_pos refused]

theorem damperGrant_answers (unrefused : (s.tileMates k).any (fun u => (s.tile u).refused) = false) (asks : s.asksPoint k = true) :
    damperGrant k s =
      if (((s.noteAsk k).oldestAsker (s.tileSite k)).map (s.tileMates k).contains).getD false = false then s.noteAsk k
      else if s.bestPoint k ≤ s.granted k then (s.noteAsk k).modMates k Tile.denied
      else (s.tileMates k).foldl (fun u x => u.grantPoint x (s.bestPoint k)) (s.noteAsk k) := by
  unfold damperGrant
  dsimp only
  rw [asks, Bool.not_true, if_neg Bool.false_ne_true, unrefused, if_neg Bool.false_ne_true]
  refine ite_congr (Bool.not_eq_true' _) (fun _ => rfl) (fun _ => rfl)

theorem tile_grantPoint_self (s : State) (v p : Nat) :
    (s.grantPoint v p).tile v = { s.tile v with lent := (s.tile v).lent + Spec.lack s v p, asked := none } := by
  have self := tile_modTile_self s v (fun x => { x with lent := x.lent + Spec.lack s v p, asked := none })
  exact self

theorem tile_grantPoint_ne (s : State) {v j : Nat} (other : j ≠ v) (p : Nat) : (s.grantPoint v p).tile j = s.tile j := by
  have same := tile_modTile_ne s other (fun x => { x with lent := x.lent + Spec.lack s v p, asked := none })
  exact same

theorem onlyPower_grantPoint (s : State) (v p : Nat) : Spec.OnlyPower s (s.grantPoint v p) := rfl

theorem site_grantPoint (s : State) (v p : Nat) : (s.grantPoint v p).site (s.tileSite v) =
    { s.site (s.tileSite v) with
      pool := (s.site (s.tileSite v)).pool - Spec.lack s v p,
      grants := if Spec.lack s v p = 0 then (s.site (s.tileSite v)).grants else (s.site (s.tileSite v)).grants ++ [(v, Spec.lack s v p)] } := by
  have self := State.site_modSite_self (s.modTile v (fun x => { x with lent := x.lent + Spec.lack s v p, asked := none })) (s.tileSite v)
    (fun y => { y with pool := y.pool - Spec.lack s v p, grants := if Spec.lack s v p = 0 then y.grants else y.grants ++ [(v, Spec.lack s v p)] })
  exact self

/-- What a tile lacks does not depend on when tiles have asked. -/
theorem lack_rest (rest : { t with tiles := s.tiles } = s) {v : Nat} (tile : (t.tile v).unasked = (s.tile v).unasked) (p : Nat) :
    Spec.lack t v p = Spec.lack s v p := by
  have keeps : Spec.keeps t v = Spec.keeps s v := keeps_of_unasked tile
  rw [Spec.lack, Spec.lack, pointCost_rest rest, keeps]

/-- Tiles that move together are granted the same point, each what it lacks. -/
theorem lent_granted {a b p : Nat} (apart : a ≠ b) (rest : { t with tiles := s.tiles } = s)
    (tiles : ∀ j, (t.tile j).unasked = (s.tile j).unasked) : ∀ v ∈ [a, b],
    (([a, b].foldl (fun u x => u.grantPoint x p) t).tile v).lent = (s.tile v).lent + Spec.lack s v p := by
  have lent (j : Nat) : (t.tile j).lent = (s.tile j).lent := (congrArg Tile.lent (tiles j) :)
  have second : Spec.lack (t.grantPoint a p) b p = Spec.lack t b p := by
    have keeps : Spec.keeps (t.grantPoint a p) b = Spec.keeps t b := congrArg Tile.keeps (tile_grantPoint_ne t apart.symm p)
    rw [Spec.lack, Spec.lack, keeps]
    rfl
  rw [List.foldl_cons, List.foldl_cons, List.foldl_nil]
  refine List.forall_mem_cons.mpr ⟨?_, List.forall_mem_singleton.mpr ?_⟩
  · rw [tile_grantPoint_ne _ apart, tile_grantPoint_self, ← lack_rest rest (tiles a), ← lent a]
  · rw [tile_grantPoint_self, second, tile_grantPoint_ne _ apart.symm, ← lack_rest rest (tiles b), ← lent b]

section
variable (one : s.tileMates k = [k])
include one

theorem damperNeed_one (p : Nat) : s.damperNeed k p = Spec.lack s k p := by
  rw [State.damperNeed, one]
  exact Nat.add_zero _

theorem bestPoint_covered {q : Nat} (wants : Spec.wants s k q) (covered : Spec.lack s k q ≤ s.lendable (s.tileSite k))
    (highest' : ∀ r, q < r → Spec.wants s k r → s.lendable (s.tileSite k) < Spec.lack s k r) : s.bestPoint k = q := by
  obtain ⟨_, high, holds, above⟩ := highest_spec (fun p => p ≤ min (s.wanted k) (s.site (s.tileSite k)).cap ∧
    s.damperNeed k p ≤ s.lendable (s.tileSite k))
  obtain ⟨large, small, wanted, allowed⟩ := wants
  have least : q ≤ s.bestPoint k := above q large small ⟨Nat.le_min.mpr ⟨wanted, allowed⟩, by rw [damperNeed_one one]; exact covered⟩
  refine Nat.le_antisymm (Nat.le_of_not_lt fun more => ?_) least
  obtain ⟨top, need⟩ := holds (Nat.lt_of_lt_of_le large (Nat.le_of_lt more))
  obtain ⟨wanted, allowed⟩ := Nat.le_min.mp top
  rw [damperNeed_one one] at need
  exact Nat.not_lt.mpr need (highest' _ more ⟨Nat.le_trans large (Nat.le_of_lt more), high, wanted, allowed⟩)

theorem bestPoint_uncovered (lacks : ∀ q, Spec.wants s k q → 0 < Spec.lack s k q → s.lendable (s.tileSite k) < Spec.lack s k q) :
    s.bestPoint k ≤ s.granted k := by
  obtain ⟨low, high, holds, above⟩ := highest_spec (fun p => p ≤ min (s.wanted k) (s.site (s.tileSite k)).cap ∧
    s.damperNeed k p ≤ s.lendable (s.tileSite k))
  change 3 ≤ s.bestPoint k at low
  rcases Nat.eq_or_lt_of_le low with three | large
  · rw [← three]
    exact three_le_granted s k
  · obtain ⟨top, need⟩ := holds large
    change s.bestPoint k ≤ _ at top
    change s.damperNeed k (s.bestPoint k) ≤ _ at need
    obtain ⟨wanted, allowed⟩ := Nat.le_min.mp top
    rw [damperNeed_one one] at need
    refine (le_granted s k _).mpr ⟨high, ?_⟩
    rw [one, List.forall_mem_singleton]
    refine (le_covered s k _ large high).mpr (Nat.le_of_sub_eq_zero (Nat.eq_zero_of_not_pos fun lacking => ?_))
    exact Nat.not_lt.mpr need (lacks _ ⟨large, high, wanted, allowed⟩ lacking)

end

/-- A tile that asks alone is the one that is answered. -/
theorem chosen_alone (alone : Spec.asksAlone s k) (asks : s.asksPoint k = true) :
    (((s.noteAsk k).oldestAsker (s.tileSite k)).map (s.tileMates k).contains).getD false = true := by
  obtain ⟨one, _, unrefused, others⟩ := alone
  obtain ⟨rest, tiles⟩ := noteAsk_beside s k
  obtain ⟨_, _, listed, _, entries⟩ := noteAsk_tiles one unrefused asks
  have oldest := oldestAsker_only (s := s.noteAsk k) (k := k) (fun e mem has => by
    by_contra other
    rcases entries e mem (.inl other) with mine | given
    · exact other (by rw [mine])
    · rw [others e given other] at has
      cases has) listed rfl ((asksPoint_rest rest tiles k).trans asks)
  rw [tileSite_rest rest] at oldest
  rw [oldest, one]
  simp

end

end Sys2Proof.Machine

namespace Sys2Proof.Proofs
open Sys2Proof.Machine

/-- A divider that is not gated switches (R263, R264, R266). -/
theorem pointSwitch_rule (s : State) (k : Nat) (runs : (s.tile k).gated = false) : ∃ t : State, exec (.pointSwitch k) s = .next t ∧
    Spec.OnlyPower s t ∧ (∀ j, j ∉ s.tileMates k → { t.tile j with refused := (s.tile j).refused } = s.tile j) ∧
    let q := (t.tile k).point
    q ≤ (s.tile k).limit ∧ q ≤ (s.site (s.tileSite k)).cap ∧ (s.wanted k = 0 → q ≤ (s.tile k).point) ∧ (s.wanted k ≠ 0 → q ≤ s.wanted k) ∧
    (∀ r, q < r → s.wanted k ≠ 0 → r ≤ s.wanted k → r ≤ (s.site (s.tileSite k)).cap →
      4 ≤ r ∧ ∃ v ∈ s.tileMates k, Spec.keeps s v < s.pointCost v r) ∧
    (∀ v ∈ s.tileMates k, (s.tile v).gated = false → (t.tile v).point = q ∧ (3 < q → s.pointCost v q ≤ Spec.keeps s v) ∧
      (t.tile v).lent = min (s.tile v).lent (s.pointCost v q)) ∧
    (s.tileMates k = [k] → (t.site (s.tileSite k)).pool + (t.tile k).lent = (s.site (s.tileSite k)).pool + (s.tile k).lent) := by
  have folds := pointSwitch_folds runs
  obtain ⟨only, tiles⟩ := tile_switched s (s.nextPoint k) (s.tileMates k) (nodup_tileMates s k) s
  rw [← folds] at only tiles
  have switched (v : Nat) (mate : v ∈ s.tileMates k) (on : (s.tile v).gated = false) :
      ((s.tile v).switched (s.nextPoint k) (s.pointCost v (s.nextPoint k))).Alike ((pointSwitch k s).tile v) := by
    have at' := tiles v
    rw [if_pos ⟨mate, on⟩] at at'
    exact at'
  have point (v : Nat) (mate : v ∈ s.tileMates k) (on : (s.tile v).gated = false) : ((pointSwitch k s).tile v).point = s.nextPoint k :=
    (congrArg Tile.point (switched v mate on) :)
  have lent (v : Nat) (mate : v ∈ s.tileMates k) (on : (s.tile v).gated = false) :
      ((pointSwitch k s).tile v).lent = min (s.tile v).lent (s.pointCost v (s.nextPoint k)) := (congrArg Tile.lent (switched v mate on) :)
  refine ⟨_, rfl, only, fun j other => ?_, ?_⟩
  · have at' := tiles j
    rw [if_neg (fun both => other both.1)] at at'
    exact at'
  rw [point k (mem_tileMates s k) runs]
  have next : s.nextPoint k = min (min (if s.wanted k = 0 then (s.tile k).point else s.wanted k) (s.granted k))
      (min (s.site (s.tileSite k)).cap (s.tile k).limit) := rfl
  refine ⟨by omega, by omega, fun none => ?_, fun some => ?_, fun r higher some wanted allowed => ?_, fun v mate on => ⟨point v mate on, fun large => ?_,
    lent v mate on⟩, fun one => ?_⟩
  · rw [if_pos none] at next
    omega
  · rw [if_neg some] at next
    omega
  · rw [if_neg some] at next
    have limit := (le_wanted wanted).2 k (mem_tileMates s k)
    have uncovered : ¬r ≤ s.granted k := by omega
    have large : 4 ≤ r := by
      have := three_le_granted s k
      omega
    refine ⟨large, ?_⟩
    by_contra all
    refine uncovered ((le_granted s k r).mpr ⟨(le_wanted wanted).1, fun v mate => (le_covered s v _ large (le_wanted wanted).1).mpr ?_⟩)
    by_contra lacks
    exact all ⟨v, mate, Nat.lt_of_not_le lacks⟩
  · have granted : s.nextPoint k ≤ s.granted k := by omega
    obtain ⟨small, covered⟩ := (le_granted s k _).mp granted
    exact (le_covered s v _ large small).mp (covered v mate)
  · have pool := pool_giveBack (s.modTile k (fun x => { x with point := s.nextPoint k })) k (s.pointCost k (s.nextPoint k))
    rw [tile_modTile_self] at pool
    have back : pointSwitch k s = (s.modTile k (fun x => { x with point := s.nextPoint k })).giveBack k (s.pointCost k (s.nextPoint k)) := by
      rw [folds, one]
      exact if_neg (by simp [runs])
    have pool' : ((pointSwitch k s).site (s.tileSite k)).pool =
        (s.site (s.tileSite k)).pool + ((s.tile k).lent - min (s.tile k).lent (s.pointCost k (s.nextPoint k))) := by
      rw [back]
      exact pool
    have least := lent k (mem_tileMates s k) runs
    rw [pool', least]
    omega

/-- A tile that asks alone is answered (R264, R265). -/
theorem damper_alone (s : State) (k : Nat) (alone : Spec.asksAlone s k) : let x := s.tile k
    let p := s.tileSite k
    let free := (s.site p).pool
    (∀ q, Spec.wants s k q → 0 < Spec.lack s k q → Spec.lack s k q ≤ s.lendable p →
      (∀ r, q < r → Spec.wants s k r → s.lendable p < Spec.lack s k r) →
      ∃ t : State, exec (.damperGrant k) s = .next t ∧ Spec.OnlyPower s t ∧ (∀ j, j ≠ k → t.tile j = s.tile j) ∧
        t.tile k = { x with lent := x.lent + Spec.lack s k q, asked := none } ∧ (t.site p).pool = free - Spec.lack s k q ∧
        (t.site p).grants = (s.site p).grants ++ [(k, Spec.lack s k q)]) ∧
    ((∃ q, Spec.wants s k q ∧ 0 < Spec.lack s k q) →
      (∀ q, Spec.wants s k q → 0 < Spec.lack s k q → s.lendable p < Spec.lack s k q) →
      ∃ t : State, exec (.damperGrant k) s = .next t ∧ { t with tiles := s.tiles } = s ∧
        t.tile k = { x with asked := none, refused := true }) := by
  intro x p free
  obtain ⟨one, on, unrefused, _⟩ := id alone
  have willing : (s.tileMates k).any (fun u => (s.tile u).refused) = false := by simp [one, unrefused]
  obtain ⟨rest, tiles⟩ := noteAsk_beside s k
  have answers (asks : s.asksPoint k = true) := (damperGrant_answers willing asks).trans (if_neg (by rw [chosen_alone alone asks]; decide))
  refine ⟨fun q wants lacks covered above => ?_, fun some uncovered => ?_⟩
  · have asks := (asksPoint_iff one).mpr ⟨on, q, wants, lacks⟩
    have best := bestPoint_covered one wants covered above
    obtain ⟨mine, others, _⟩ := noteAsk_tiles one unrefused asks
    have uncovered : ¬s.bestPoint k ≤ s.granted k := by
      rw [best, le_granted, one, List.forall_mem_singleton, le_covered s k _ wants.1 wants.2.1]
      exact fun le => Nat.not_le.mpr lacks (Nat.le_of_eq (Nat.sub_eq_zero_of_le le.2))
    have result := (answers asks).trans (if_neg uncovered)
    rw [one, best] at result
    have lack := lack_rest rest (tiles k) q
    have table : (s.noteAsk k).site p = s.site p := (congrArg (fun x : State => x.site p) rest :)
    have at' := site_grantPoint (s.noteAsk k) k q
    rw [tileSite_rest rest, table, lack, if_neg (Nat.pos_iff_ne_zero.mp lacks)] at at'
    refine ⟨_, congrArg Host.Outcome.next result, onlyPower_trans (t := s.noteAsk k) ?_ (onlyPower_grantPoint ..), fun j other => ?_, ?_,
      congrArg Site.pool at', congrArg Site.grants at'⟩
    · exact (congrArg (fun x : State => { x with sites := s.sites }) rest :)
    · exact (tile_grantPoint_ne _ other q).trans (others j other)
    · refine (tile_grantPoint_self (s.noteAsk k) k q).trans ?_
      rw [lack, mine]
      rfl
  · have asks := (asksPoint_iff one).mpr ⟨on, some⟩
    have result := (answers asks).trans (if_pos (bestPoint_uncovered one uncovered))
    refine ⟨_, congrArg Host.Outcome.next result, ?_, ?_⟩
    · exact (congrArg (fun x : State => { x with tiles := s.tiles }) (modMates_rest (s.noteAsk k) k Tile.denied) :).trans rest
    · rw [modMates_one ((tileMates_rest rest k).trans one), tile_modTile_self, (noteAsk_tiles one unrefused asks).1]
      rfl

/-- A tile that needs no more budget asks no longer (R265). -/
theorem damper_content (s : State) (k : Nat) (one : s.tileMates k = [k]) (content : ∀ q, Spec.wants s k q → Spec.lack s k q = 0) :
    ∃ t : State, exec (.damperGrant k) s = .next t ∧ { t with tiles := s.tiles } = s ∧ t.tile k = { s.tile k with asked := none } := by
  have quiet : s.asksPoint k = false := by
    by_contra asks
    obtain ⟨_, q, wants, lacks⟩ := (asksPoint_iff one).mp (by simpa using asks)
    rw [content q wants] at lacks
    exact Nat.lt_irrefl 0 lacks
  have result := damperGrant_content quiet
  rw [one, modMates_one one, List.any_cons, List.any_nil, Bool.or_false] at result
  refine ⟨_, congrArg Host.Outcome.next result, ?_, ?_⟩
  · split <;> rfl
  · cases asked : (s.tile k).asked with
    | none =>
      rw [Option.isSome_none, if_neg Bool.false_ne_true, ← asked]
    | some a =>
      rw [Option.isSome_some, if_pos rfl, tile_modTile_self]
      rfl

/-- A younger request waits (R265). -/
theorem damper_younger (s : State) (k j : Nat) (y : Tile) (a : Nat) (named : ∀ e ∈ s.tiles, e.1 = k → e.2 = s.tile k) (one : s.tileMates k = [k])
    (on : (s.tile k).gated = false) (unrefused : (s.tile k).refused = false) (some : ∃ q, Spec.wants s k q ∧ 0 < Spec.lack s k q)
    (listed : (j, y) ∈ s.tiles) (other : j ≠ k) (site : s.tileSite j = s.tileSite k) (asked : y.asked = .some a) (theirs : s.asksPoint j = true)
    (older : a < (s.tile k).asked.getD s.time.toNat) : ∃ t : State, exec (.damperGrant k) s = .next t ∧ { t with tiles := s.tiles } = s ∧
      t.tile k = { s.tile k with asked := .some ((s.tile k).asked.getD s.time.toNat) } := by
  have asks := (asksPoint_iff one).mpr ⟨on, some⟩
  obtain ⟨rest, tiles⟩ := noteAsk_beside s k
  obtain ⟨mine, _, _, kept, entries⟩ := noteAsk_tiles one unrefused asks
  have willing : (s.tileMates k).any (fun u => (s.tile u).refused) = false := by simp [one, unrefused]
  have oldest := oldestAsker_other (k := k) (kept (j, y) listed other) asked ((asksPoint_rest rest tiles j).trans theirs)
    (fun e mem is b at' => by
      by_cases same : e.2 = s.tile k
      · rw [← same, at'] at older
        exact older
      · rcases entries e mem (.inr same) with set | given
        · rw [set] at at'
          cases at'
          exact older
        · exact absurd (named e given is) same)
  rw [tileSite_rest rest, site] at oldest
  refine ⟨_, congrArg Host.Outcome.next ((damperGrant_answers willing asks).trans (if_pos ?_)), rest, mine⟩
  cases first : (s.noteAsk k).oldestAsker (s.tileSite k) with
  | none => rfl
  | some v =>
    rw [one]
    simp only [Option.map_some, Option.getD_some, List.contains_cons, List.contains_nil, Bool.or_false, beq_eq_false_iff_ne]
    exact fun is => oldest (by rw [first, is])

/-- Both tiles of a gang of eight are granted a point, or neither (R264). -/
theorem damper_pair (s : State) (k a b : Nat) (two : s.tileMates k = [a, b]) :
    (∀ v ∈ [a, b], ((damperGrant k s).tile v).lent = (s.tile v).lent) ∨
      ∃ q, 4 ≤ q ∧ ∀ v ∈ [a, b], ((damperGrant k s).tile v).lent = (s.tile v).lent + Spec.lack s v q := by
  obtain ⟨rest, tiles⟩ := noteAsk_beside s k
  have lent (j : Nat) : ((s.noteAsk k).tile j).lent = (s.tile j).lent := (congrArg Tile.lent (tiles j) :)
  cases asks : s.asksPoint k with
  | false =>
    left
    rw [damperGrant_content asks]
    intro v _
    split
    · exact tile_modMates s k Tile.unasked Tile.lent (fun _ => rfl) v
    · rfl
  | true =>
    cases refused : (s.tileMates k).any (fun u => (s.tile u).refused) with
    | true =>
      rw [damperGrant_refused refused asks]
      exact .inl fun _ _ => rfl
    | false =>
      rw [damperGrant_answers refused asks]
      split
      · exact .inl fun v _ => lent v
      · split
        · exact .inl fun v _ => (tile_modMates (s.noteAsk k) k Tile.denied Tile.lent (fun _ => rfl) v).trans (lent v)
        · rename_i higher
          have apart : a ≠ b := by
            have nodup := nodup_tileMates s k
            rw [two, List.nodup_cons, List.mem_singleton] at nodup
            exact nodup.1
          rw [two]
          have := three_le_granted s k
          exact .inr ⟨s.bestPoint k, by omega, lent_granted apart rest tiles⟩

theorem pointsAndGrants : Rule.PointsAndGrants := by
  intro s k
  refine ⟨fun gated => congrArg Host.Outcome.next (pointSwitch_gated gated), pointSwitch_rule s k, damper_alone s k, damper_content s k,
    fun j y a named one on unrefused some listed other site asked theirs older =>
      damper_younger s k j y a named one on unrefused some listed other site asked theirs older, fun a b t two granted => ?_⟩
  have is : damperGrant k s = t := Host.Outcome.next.inj granted
  exact is ▸ damper_pair s k a b two

end Sys2Proof.Proofs
end

section
/-! Gating, recalls, limits and temperature (R263, R265, R269, R407): the statement O47. -/

namespace Sys2Proof.Machine

section
variable {s t u : State} {k i : Nat}

/-! ### Recalls (R265, R407) -/

/-- All that is lent to a tile is recalled. -/
def Tile.recalled (x : Tile) : Tile := { x with called := x.lent }

theorem recall_foldl (l : List Nat) (s : State) : { l.foldl (fun (u : State) v => u.modTile v Tile.recalled) s with tiles := s.tiles } = s ∧
    ∀ j, (l.foldl (fun (u : State) v => u.modTile v Tile.recalled) s).tile j = if j ∈ l then (s.tile j).recalled else s.tile j := by
  induction l generalizing s with
  | nil => exact ⟨rfl, fun j => (if_neg (by simp)).symm⟩
  | cons v l ih =>
    obtain ⟨rest, tiles⟩ := ih (s.modTile v Tile.recalled)
    refine ⟨(congrArg (fun x : State => { x with tiles := s.tiles }) rest :), fun j => ?_⟩
    rw [List.foldl_cons, tiles j]
    by_cases same : j = v
    · rw [same, tile_modTile_self, if_pos List.mem_cons_self]
      exact ite_self _
    · rw [tile_modTile_ne s same]
      simp [same]

/-- Every grant of a site is recalled, and of its table f says what changes besides. -/
theorem recallAll_rule (s : State) (i : Nat) (f : Site → Site) (grants : ∀ x, (f x).grants = x.grants) :
    Spec.OnlyPower s ((s.modSite i f).recallAll i) ∧ ((s.modSite i f).recallAll i).site i = f (s.site i) ∧
    ∀ g ∈ (s.site i).grants, ((s.modSite i f).recallAll i).tile g.1 = { s.tile g.1 with called := (s.tile g.1).lent } := by
  obtain ⟨rest, tiles⟩ := recall_foldl (((s.modSite i f).site i).grants.map (·.1)) (s.modSite i f)
  change { (s.modSite i f).recallAll i with tiles := s.tiles } = s.modSite i f at rest
  change ∀ j, ((s.modSite i f).recallAll i).tile j = _ at tiles
  refine ⟨?_, ?_, fun g listed => ?_⟩
  · exact (congrArg (fun x : State => { x with sites := s.sites }) rest :)
  · exact ((congrArg (fun x : State => x.site i) rest :).trans (State.site_modSite_self s i f) :)
  · rw [tiles, if_pos]
    · rfl
    · rw [State.site_modSite_self, grants]
      exact List.mem_map_of_mem listed

/-! ### Gating (R263) -/

theorem tileWork_false : s.tileWork k = false ↔ ∀ c ∈ tileCores k, s.hasWork c = false := by
  rw [State.tileWork, List.any_eq_false]
  simp only [Bool.not_eq_true]

/-- A tile that is gated to OP0. -/
def Tile.gateOff (x : Tile) : Tile := { x with gated := true, point := 0, called := 0, asked := none, refused := false, idleSince := none }

section
variable (on : (s.tile k).gated = false)
include on

theorem tileGate_busy (work : s.tileWork k = true) : tileGate k s =
    if (s.tile k).idleSince.isSome then s.modTile k (fun x => { x with idleSince := none }) else s := by
  unfold tileGate
  dsimp only
  rw [on, if_neg Bool.false_ne_true, if_pos work]

variable (idle : s.tileWork k = false)
include idle

theorem tileGate_notes (fresh : (s.tile k).idleSince = none) : tileGate k s = s.modTile k (fun x => { x with idleSince := some s.time.toNat }) := by
  unfold tileGate
  dsimp only
  rw [on, if_neg Bool.false_ne_true, idle, if_neg Bool.false_ne_true, fresh]
  rfl

theorem tileGate_since {a : Nat} (since : (s.tile k).idleSince = some a) : tileGate k s = if s.time.toNat < a + 2000 then s
    else ((s.giveBack k 0).modTile k Tile.gateOff).growPool (s.tileSite k) (s.share k) := by
  unfold tileGate
  dsimp only
  rw [on, if_neg Bool.false_ne_true, idle, if_neg Bool.false_ne_true, since]
  rfl

end

/-- A tile is gated: its budget and its share join the pool. -/
theorem gateOff_rule (s : State) (k : Nat) : let t := ((s.giveBack k 0).modTile k Tile.gateOff).growPool (s.tileSite k) (s.share k)
    Spec.OnlyPower s t ∧
    t.tile k = { s.tile k with
      gated := true, point := 0, lent := 0, called := 0, asked := none, refused := false, idleSince := none } ∧
    (t.site (s.tileSite k)).pool = (s.site (s.tileSite k)).pool + (s.tile k).lent + s.share k := by
  intro t
  refine ⟨onlyPower_trans (onlyPower_trans (onlyPower_giveBack s k 0) (onlyPower_modTile ..)) (onlyPower_growPool ..), ?_, ?_⟩
  · have back := tile_giveBack s k 0 k
    rw [if_pos rfl] at back
    have off : ((s.giveBack k 0).modTile k Tile.gateOff).tile k = ((s.tile k).cut 0).gateOff := by
      rw [tile_modTile_self, ← back]
      rfl
    have tiles : t.tiles = _ := tiles_growPool ..
    have grown := tile_growPool ((s.giveBack k 0).modTile k Tile.gateOff) (s.tileSite k) (s.share k) k
    have refused : (t.tile k).refused = false := by
      rw [State.tile, tiles]
      split
      · change (((s.giveBack k 0).modTile k Tile.gateOff).tile k).refused = false
        rw [off]
        rfl
      · rw [kvGet_mapKeyed]
        have found : kvGet k ((s.giveBack k 0).modTile k Tile.gateOff).tiles = some ((s.giveBack k 0).tile k).gateOff := kvGet_set_self ..
        rw [found]
        change (State.regrown _ _ _ ((s.giveBack k 0).tile k).gateOff).refused = false
        unfold State.regrown
        split <;> rfl
    rw [off] at grown
    have whole : t.tile k = { ((s.tile k).cut 0).gateOff with refused := (t.tile k).refused } := by
      rw [← grown]
    rw [whole, refused]
    simp [Tile.gateOff, Tile.cut]
  · have pool : (t.site (s.tileSite k)).pool = ((s.giveBack k 0).site (s.tileSite k)).pool + s.share k :=
      pool_growPool ((s.giveBack k 0).modTile k Tile.gateOff) (s.tileSite k) (s.share k)
    rw [pool, pool_giveBack, Nat.min_zero, Nat.sub_zero]

/-! ### Waking (R265) -/

theorem takeBack_cons (lack : Nat) (gone : List (Nat × Nat)) (v n : Nat) (older : List (Nat × Nat)) (s : State) :
    takeBack lack gone ((v, n) :: older) s = if lack = 0 then s
    else
      let before := (kvGet v gone).getD (s.tile v).called
      let cut := min lack (n - before)
      takeBack (lack - cut) (kvSet v (before - n) gone) older (s.modTile v (fun x => { x with called := x.called + cut })) := rfl

/-- Of the machine, a recall changes only the tiles of its grants. -/
theorem takeBack_rest (lack : Nat) (gone l : List (Nat × Nat)) (s : State) : { takeBack lack gone l s with tiles := s.tiles } = s ∧
    ∀ j, (∀ g ∈ l, g.1 ≠ j) → (takeBack lack gone l s).tile j = s.tile j := by
  induction l generalizing lack gone s with
  | nil => exact ⟨rfl, fun _ _ => rfl⟩
  | cons g l ih =>
    obtain ⟨v, n⟩ := g
    rw [takeBack_cons]
    split
    · exact ⟨rfl, fun _ _ => rfl⟩
    · dsimp only
      obtain ⟨rest, tiles⟩ := ih (lack - min lack (n - (kvGet v gone).getD (s.tile v).called))
        (kvSet v ((kvGet v gone).getD (s.tile v).called - n) gone)
        (s.modTile v (fun x => { x with called := x.called + min lack (n - (kvGet v gone).getD (s.tile v).called) }))
      refine ⟨(congrArg (fun x : State => { x with tiles := s.tiles }) rest :), fun j others => ?_⟩
      obtain ⟨other, others⟩ := List.forall_mem_cons.mp others
      rw [tiles j others, tile_modTile_ne s (Ne.symm other)]

/-- What is lacking is recalled from the latest grant, and what that leaves from the one before it. -/
theorem takeBack_two {a b m n lack : Nat} (apart : a ≠ b) (lacking : 0 < lack) (none : ∀ j, j = a ∨ j = b → (s.tile j).called = 0) :
    let t := takeBack lack [] [(b, n), (a, m)] s
    (t.tile b).called = min lack n ∧ (t.tile a).called = min (lack - min lack n) m := by
  have calledA := none a (.inl rfl)
  have calledB := none b (.inr rfl)
  have first := tile_modTile_self s b (fun x => { x with called := x.called + min lack n })
  have kept := tile_modTile_ne s apart (fun x => { x with called := x.called + min lack n })
  rw [takeBack_cons, if_neg (Nat.pos_iff_ne_zero.mp lacking)]
  dsimp only
  rw [show kvGet b ([] : List (Nat × Nat)) = .none from rfl, Option.getD_none, calledB, Nat.sub_zero, Nat.zero_sub]
  generalize s.modTile b (fun x => { x with called := x.called + min lack n }) = u at first kept
  have calledB' : (u.tile b).called = min lack n := by
    rw [first, calledB]
    exact Nat.zero_add _
  rw [takeBack_cons]
  split
  · rename_i over'
    rw [over', Nat.zero_min, kept]
    exact ⟨calledB', calledA⟩
  · have gone : kvGet a (kvSet b 0 ([] : List (Nat × Nat))) = .none := kvGet_set_ne apart ..
    dsimp only
    rw [gone, Option.getD_none, kept, calledA, Nat.sub_zero]
    refine ⟨?_, ?_⟩
    · exact (congrArg Tile.called (tile_modTile_ne u apart.symm _)).trans calledB'
    · refine (congrArg Tile.called (tile_modTile_self u a _)).trans ?_
      rw [kept]
      exact (congrArg (· + _) calledA).trans (Nat.zero_add _)

/-- The machine once a waking tile has recalled what the pool lacks. -/
def State.wakeCalls (s : State) (k : Nat) : State :=
  if (s.tile k).waking then s
  else takeBack ((s.modTile k (fun x => { x with waking := true })).lacks (s.tileSite k)) []
    ((s.modTile k (fun x => { x with waking := true })).site (s.tileSite k)).grants.reverse (s.modTile k (fun x => { x with waking := true }))

theorem tileWake_of (gated : (s.tile k).gated = true) (work : s.tileWork k = true) : tileWake k s =
    if ((s.wakeCalls k).site (s.tileSite k)).pool < s.share k then s.wakeCalls k
    else ((s.wakeCalls k).modSite (s.tileSite k) (fun y => { y with pool := y.pool - s.share k })).modTile k
      (fun x => { x with gated := false, waking := false }) := by
  unfold tileWake
  dsimp only
  rw [gated, work, Bool.or_true, if_neg (by decide)]
  rfl

theorem wakeCalls_rest (s : State) (k : Nat) (apart : ∀ g ∈ (s.site (s.tileSite k)).grants, g.1 ≠ k) :
    { s.wakeCalls k with tiles := s.tiles } = s ∧ (s.wakeCalls k).tile k = { s.tile k with waking := true } := by
  unfold State.wakeCalls
  cases waking : (s.tile k).waking with
  | true =>
    rw [if_pos rfl, ← waking]
    exact ⟨rfl, rfl⟩
  | false =>
    rw [if_neg Bool.false_ne_true]
    obtain ⟨rest, tiles⟩ := takeBack_rest ((s.modTile k (fun x => { x with waking := true })).lacks (s.tileSite k)) []
      ((s.modTile k (fun x => { x with waking := true })).site (s.tileSite k)).grants.reverse (s.modTile k (fun x => { x with waking := true }))
    refine ⟨(congrArg (fun x : State => { x with tiles := s.tiles }) rest :), (tiles k fun g listed => ?_).trans (tile_modTile_self ..)⟩
    exact apart g (List.mem_reverse.mp listed)

/-- A waking tile alone lacks its share but for what the pool holds. -/
theorem lacks_alone (asleep : ∀ e ∈ s.tiles, e.2.waking = false) (uncalled : ∀ j, (s.tile j).called = 0) (k : Nat) :
    (s.modTile k (fun x => { x with waking := true })).lacks (s.tileSite k) = s.share k - (s.site (s.tileSite k)).pool := by
  have waking : (s.modTile k (fun x => { x with waking := true })).wakingShares (s.tileSite k) = s.share k := by
    obtain ⟨a, b, c, set, whole, rest⟩ := kvSet_split k { s.tile k with waking := true } s.tiles
    have none (l : List (Nat × Tile)) (part : ∀ e ∈ l, e ∈ s.tiles) :
        l.filter (fun p => p.2.waking && s.tileSite p.1 == s.tileSite k) = [] :=
      List.filter_eq_nil_iff.mpr fun e listed => by simp [asleep e (part e listed)]
    have last : ∀ e ∈ c, e ∈ s.tiles := by
      intro e listed
      rw [whole]
      refine List.mem_append_right _ ?_
      rcases rest with rfl | ⟨w, rfl⟩
      · exact listed
      · exact List.mem_cons_of_mem _ listed
    change (((kvSet k { s.tile k with waking := true } s.tiles).filter (fun p => p.2.waking && s.tileSite p.1 == s.tileSite k)).map
      (fun p => s.share p.1)).sum = s.share k
    rw [set, List.filter_append, none a (fun e listed => whole ▸ List.mem_append_left _ listed), List.nil_append,
      List.filter_cons_of_pos (by simp), none c last]
    exact Nat.add_zero _
  have called : ((s.site (s.tileSite k)).grants.map (fun g => ((s.modTile k (fun x => { x with waking := true })).tile g.1).called)).sum = 0 := by
    refine List.sum_eq_zero fun n listed => ?_
    obtain ⟨g, _, rfl⟩ := List.mem_map.mp listed
    by_cases same : g.1 = k
    · rw [same, tile_modTile_self]
      exact uncalled k
    · rw [tile_modTile_ne s same]
      exact uncalled g.1
  change _ - (s.site (s.tileSite k)).pool - ((s.site (s.tileSite k)).grants.map _).sum = _
  rw [waking, called, Nat.sub_zero]

theorem wakeCalls_two {a b m n : Nat} (grants : (s.site (s.tileSite k)).grants = [(a, m), (b, n)]) (apart : a ≠ b)
    (others : ∀ g ∈ (s.site (s.tileSite k)).grants, g.1 ≠ k) (uncalled : ∀ j, (s.tile j).called = 0)
    (asleep : ∀ e ∈ s.tiles, e.2.waking = false) (lacking : (s.site (s.tileSite k)).pool < s.share k) :
    let lack := s.share k - (s.site (s.tileSite k)).pool
    ((s.wakeCalls k).tile b).called = min lack n ∧ ((s.wakeCalls k).tile a).called = min (lack - min lack n) m := by
  have still : (s.tile k).waking = false := by
    rcases tile_mem s k with listed | reset
    · exact asleep _ listed
    · rw [reset]
      rfl
  have site : (s.modTile k (fun x => { x with waking := true })).site (s.tileSite k) = s.site (s.tileSite k) := rfl
  unfold State.wakeCalls
  rw [still, if_neg Bool.false_ne_true, lacks_alone asleep uncalled, site, grants]
  refine takeBack_two apart (Nat.sub_pos_of_lt lacking) fun j named => ?_
  have other : j ≠ k := by
    rw [grants] at others
    rcases named with rfl | rfl
    · exact others (j, m) (by simp)
    · exact others (j, n) (by simp)
  rw [tile_modTile_ne s other]
  exact uncalled j

/-! ### Repeated stages (R269) -/

/-- The stages that a tile has repeated within the last 1 ms, this one included. -/
def State.retaken (s : State) (k : Nat) : List Nat :=
  (s.tile k).retakes.filter (fun a => s.time.toNat ≤ a + 100000) ++ [s.time.toNat]

theorem opLimitLower_eq (s : State) (k : Nat) : opLimitLower k s =
    if (s.retaken k).length ≤ 16 then s.modTile k (fun x => { x with retakes := s.retaken k }) else s.lowerLimit k := rfl

end

end Sys2Proof.Machine

namespace Sys2Proof.Proofs
open Sys2Proof.Machine

/-- A tile without work is gated after 20 µs (R263). -/
theorem tileGate_rule (s : State) (k : Nat) (on : (s.tile k).gated = false) : let x := s.tile k
    let p := s.tileSite k
    let idle := ∀ c ∈ tileCores k, s.hasWork c = false
    (idle →
      (x.idleSince = none → ∃ t : State, exec (.tileGate k) s = .next t ∧ { t with tiles := s.tiles } = s ∧
        t.tile k = { x with idleSince := some s.time.toNat }) ∧
      (∀ a, x.idleSince = some a → s.time.toNat < a + 2000 → exec (.tileGate k) s = .next s) ∧
      (∀ a, x.idleSince = some a → a + 2000 ≤ s.time.toNat → ∃ t : State, exec (.tileGate k) s = .next t ∧ Spec.OnlyPower s t ∧
        t.tile k = { x with gated := true, point := 0, lent := 0, called := 0, asked := none, refused := false, idleSince := none } ∧
        (t.site p).pool = (s.site p).pool + x.lent + op3Power (s.tileCls k))) ∧
    (¬idle → ∃ t : State, exec (.tileGate k) s = .next t ∧ { t with tiles := s.tiles } = s ∧ t.tile k = { x with idleSince := none }) := by
  intro x p idle
  refine ⟨fun none => ?_, fun some => ?_⟩
  · have work := tileWork_false.mpr none
    refine ⟨fun fresh => ⟨_, congrArg Host.Outcome.next (tileGate_notes on work fresh), rfl, tile_modTile_self ..⟩, fun a since early =>
      congrArg Host.Outcome.next ((tileGate_since on work since).trans (if_pos early)), fun a since late =>
      ⟨_, congrArg Host.Outcome.next ((tileGate_since on work since).trans (if_neg (Nat.not_lt.mpr late))), gateOff_rule s k⟩⟩
  · have work : s.tileWork k = true := by
      by_contra not
      exact some (tileWork_false.mp (by simpa using not))
    refine ⟨_, congrArg Host.Outcome.next (tileGate_busy on work), ?_, ?_⟩
    · split <;> rfl
    · cases since : (s.tile k).idleSince with
      | none => rw [Option.isSome_none, if_neg Bool.false_ne_true, ← since]
      | some a =>
        rw [Option.isSome_some, if_pos rfl]
        exact tile_modTile_self ..

/-- A gated tile with work takes its share, or recalls what the pool lacks (R265). -/
theorem tileWake_rule (s : State) (k : Nat) (gated : (s.tile k).gated = true) (busy : ¬∀ c ∈ tileCores k, s.hasWork c = false)
    (others : ∀ g ∈ (s.site (s.tileSite k)).grants, g.1 ≠ k) : let x := s.tile k
    let p := s.tileSite k
    let free := (s.site p).pool
    let share := op3Power (s.tileCls k)
    ∃ t : State, exec (.tileWake k) s = .next t ∧ Spec.OnlyPower s t ∧
      (share ≤ free → t.tile k = { x with gated := false, waking := false } ∧ (t.site p).pool = free - share) ∧
      (free < share → t.tile k = { x with waking := true } ∧ (t.site p).pool = free ∧
        ∀ a b m n, (s.site p).grants = [(a, m), (b, n)] → a ≠ b → (∀ j, (s.tile j).called = 0) →
          (∀ e ∈ s.tiles, e.2.waking = false) →
          let first := min (share - free) n
          (t.tile b).called = first ∧ (t.tile a).called = min (share - free - first) m) := by
  intro x p free share
  have work : s.tileWork k = true := by
    by_contra not
    exact busy (tileWork_false.mp (by simpa using not))
  obtain ⟨rest, mine⟩ := wakeCalls_rest s k others
  have site : (s.wakeCalls k).site p = s.site p := (congrArg (fun x : State => x.site p) rest :)
  have only : Spec.OnlyPower s (s.wakeCalls k) := (congrArg (fun x : State => { x with sites := s.sites }) rest :)
  have wakes := tileWake_of gated work
  rw [site] at wakes
  by_cases lacking : free < share
  · refine ⟨_, congrArg Host.Outcome.next (wakes.trans (if_pos lacking)), only, fun enough => absurd enough (Nat.not_le.mpr lacking),
      fun _ => ⟨mine, congrArg Site.pool site, fun a b m n grants apart uncalled asleep =>
        wakeCalls_two grants apart others uncalled asleep lacking⟩⟩
  · refine ⟨_, congrArg Host.Outcome.next (wakes.trans (if_neg lacking)), onlyPower_trans only
      (onlyPower_trans (onlyPower_modSite ..) (onlyPower_modTile ..)), fun _ => ⟨?_, ?_⟩, fun less => absurd less lacking⟩
    · rw [tile_modTile_self, tile_modSite, mine]
    · have pool := congrArg Site.pool (State.site_modSite_self (s.wakeCalls k) p (fun y => { y with pool := y.pool - s.share k }))
      rw [site] at pool
      exact pool

theorem gatingAndLimits : Rule.GatingAndLimits := by
  intro s k i x p free share idle recent
  obtain ⟨warnOnly, warnSite, warnTiles⟩ := recallAll_rule s i (fun x => { x with warn := true }) fun _ => rfl
  obtain ⟨hotOnly, hotSite, hotTiles⟩ := recallAll_rule s i (fun x => { x with throttle := true }) fun _ => rfl
  refine ⟨⟨_, rfl, warnOnly, congrArg Site.warn warnSite, (congrArg Site.throttle warnSite :), warnTiles⟩,
    ⟨_, rfl, hotOnly, congrArg Site.throttle hotSite, (congrArg Site.warn hotSite :), hotTiles⟩, rfl,
    ⟨_, rfl, rfl, State.site_modSite_self .., fun j other => State.site_modSite_ne s other _⟩, fun on => (tileGate_rule s k on).1,
    fun on => (tileGate_rule s k on).2, fun gated busy others => tileWake_rule s k gated busy others, fun few => ?_, fun many => ?_⟩
  · exact ⟨_, congrArg Host.Outcome.next ((opLimitLower_eq s k).trans (if_pos few)), rfl, tile_modTile_self ..⟩
  · have tile := tile_modTile_self s k (fun x => { x with limit := max 1 (x.limit - 1), retakes := [] })
    exact ⟨_, congrArg Host.Outcome.next ((opLimitLower_eq s k).trans (if_neg (Nat.not_le.mpr many))), rfl, tile, rfl⟩

/-- Settles O47: dividers and the damper by the highest point that budgets cover, gating and recalls tile by tile. -/
theorem powerEvents : Obligations.PowerEvents := ⟨pointsAndGrants, gatingAndLimits⟩

end Sys2Proof.Proofs
end

section
/-! Dispatch, cluster tasks, crew reservation and effective priority (R26, R292 to R297): the statement O56. -/

namespace Sys2Proof.Machine

/-! ### What a dispatch leaves of the core that it goes to -/

/-- Core c, the reservations of the sites, kept tokens, the clusters and the capture mode are as before; caches may differ. -/
structure Near (c : Nat) (s t : State) : Prop where
  core : { t.core c with l1d := (s.core c).l1d, l1i := (s.core c).l1i } = s.core c
  cfg : t.cfg = s.cfg
  reserve : ∀ i, (t.site i).reserve = (s.site i).reserve
  kept : t.kept = s.kept
  clusters : t.clusters = s.clusters
  mode : t.mgmt.capMode = s.mgmt.capMode

section
variable {s t u : State} {c : Nat}

theorem Near.refl (c : Nat) (s : State) : Near c s s := ⟨rfl, rfl, fun _ => rfl, rfl, rfl, rfl⟩

theorem Near.trans (first : Near c s t) (second : Near c t u) : Near c s u := by
  refine ⟨?_, second.cfg.trans first.cfg, fun i => (second.reserve i).trans (first.reserve i), second.kept.trans first.kept,
    second.clusters.trans first.clusters, second.mode.trans first.mode⟩
  rw [← first.core, ← second.core]

theorem Accessed.near (h : Accessed s t) (c : Nat) : Near c s t :=
  ⟨h.core c, (congrArg State.cfg h.rest :), h.reserve, (congrArg State.kept h.rest :), h.clusters, (congrArg (fun x : State => x.mgmt.capMode) h.rest :)⟩

theorem near_modSpace (c : Nat) (s : State) (asid : Nat) (f : Space → Space) : Near c s (s.modSpace asid f) :=
  ⟨rfl, rfl, fun _ => rfl, rfl, rfl, rfl⟩

theorem near_modSite (c : Nat) (s : State) (i : Nat) (f : Site → Site) (keeps : ∀ x, (f x).reserve = x.reserve) : Near c s (s.modSite i f) := by
  refine ⟨rfl, rfl, fun j => ?_, rfl, rfl, rfl⟩
  by_cases same : j % 4 = i % 4
  · have sites : ∀ v : State, v.site j = v.site i := fun v => by simp only [State.site, same]
    rw [sites, sites, State.site_modSite_self, keeps]
  · rw [State.site_modSite_ne s same]

theorem Near.mayEnter (h : Near c s t) : t.mayEnter c = s.mayEnter c := by
  have status : (t.core c).status = (s.core c).status := (congrArg Core.status h.core :)
  have work : (t.core c).uWork = (s.core c).uWork := (congrArg Core.uWork h.core :)
  have zeroing : (t.core c).zeroing = (s.core c).zeroing := (congrArg Core.zeroing h.core :)
  have queue : (t.core c).queue = (s.core c).queue := (congrArg Core.queue h.core :)
  have gang : (t.core c).gang = (s.core c).gang := (congrArg Core.gang h.core :)
  have count : t.coreCount = s.coreCount := by
    unfold State.coreCount State.controls State.vectors State.tensors State.dieCount
    rw [h.cfg]
  have site : t.siteOf c = s.siteOf c := by
    unfold State.siteOf State.place State.dieOf State.controls State.dieCount
    rw [h.cfg]
  have cls : t.cls c = s.cls c := by
    unfold State.cls State.controls State.vectors State.dieCount
    rw [h.cfg]
  unfold State.mayEnter State.live State.resvAt
  dsimp only
  rw [status, work, zeroing, queue, gang, count, site, h.reserve, cls]

theorem Near.arrival (h : Near c s t) : (t.core c).arrival = (s.core c).arrival := (congrArg Core.arrival h.core :)

theorem Near.reservedSite (h : Near c s t) (asid va : Nat) : t.reservedSite asid va = s.reservedSite asid va := by
  unfold State.reservedSite
  simp only [h.reserve]

/-! ### A strand of a record enters an empty U context (R26, R227) -/

theorem core_flushSlots (s : State) (c : Nat) : { (s.flushSlots c).core c with
    slots := (s.core c).slots, rabs := (s.core c).rabs, l1d := (s.core c).l1d, l1i := (s.core c).l1i } = s.core c := by
  unfold State.flushSlots
  dsimp only
  generalize flushed : State.modCore s c _ = t
  have sent := (seats_sendOn t (c + 1) c).core c (Nat.ne_of_lt (Nat.lt_succ_self c))
  have at' : { t.core c with slots := (s.core c).slots, rabs := (s.core c).rabs } = s.core c := by
    rw [← flushed, State.core_modCore_self]
  unfold Core.Beside at sent
  rw [← sent] at at'
  exact (congrArg (fun k : Core => { k with l1d := (s.core c).l1d, l1i := (s.core c).l1i }) at' :)

/-- A message that is to go on does, when its core has room. -/
def State.sendStep (c : Nat) (t : State) (m : Msg) : State := match m.onto with
  | none => t
  | some d => if d = c || (t.core d).occupied ≥ 32 then t
    else (t.modCore c (fun k => { k with slots := k.slots.erase m })).modCore d (fun k => { k with slots := k.slots ++ [{ m with onto := none }] })

theorem sites_sendOn (s : State) (c : Nat) : (s.sendOn c).sites = s.sites := by
  have steps : s.sendOn c = (s.core c).slots.foldl (State.sendStep c) s := rfl
  rw [steps]
  clear steps
  generalize (s.core c).slots = l
  induction l generalizing s with
  | nil => rfl
  | cons m l ih =>
    rw [List.foldl_cons, ih]
    unfold State.sendStep
    split
    · rfl
    · split <;> rfl

theorem sites_flushSlots (s : State) (c : Nat) : (s.flushSlots c).sites = s.sites := sites_sendOn _ c

/-- What a strand finds in the context that it enters. -/
def Image.entered (g : Image) : Ctx := { g.ctx with tokErr := 0, line := none, mcgroup := 0 }

/-- A strand without kept tokens enters with the context of its image, and sites, clusters and the mode stay. -/
theorem enterU_entered (s : State) (c : Nat) (g : Image) (none : s.kept = []) :
    let t := s.enterU c g
    (t.core c).uWork = .strand ∧ (t.core c).u = g.entered ∧ t.sites = s.sites ∧ t.clusters = s.clusters ∧ t.mgmt.capMode = s.mgmt.capMode ∧
      t.cfg = s.cfg := by
  have same := (seats_enterU s c g).rest
  have fresh : s.kept.filter (fun t => t.asid == g.ctx.as && t.sid == g.ctx.sid) = [] := by rw [none]; rfl
  obtain ⟨s1, becomes, work, context, sites⟩ : ∃ s1 : State,
      s.enterU c g = (s1.flushSlots c).modStrand g.ctx.as g.ctx.sid (fun t => { t with lastCore := c }) ∧ (s1.core c).uWork = .strand ∧
      (s1.core c).u = { deliverKept g.ctx (s.kept.filter (fun t => t.asid == g.ctx.as && t.sid == g.ctx.sid)) with
        tokErr := 0, line := Option.none, mcgroup := 0 } ∧ s1.sites = s.sites :=
    ⟨_, rfl, congrArg Core.uWork (State.core_modCore_self _ c _), congrArg Core.u (State.core_modCore_self _ c _), rfl⟩
  have flushed := core_flushSlots s1 c
  have core : (s.enterU c g).core c = (s1.flushSlots c).core c := by
    rw [becomes]
    rfl
  rw [fresh] at context
  refine ⟨?_, ?_, ?_, (congrArg State.clusters same :), (congrArg (fun x : State => x.mgmt.capMode) same :), (congrArg State.cfg same :)⟩
  · rw [core]
    exact (congrArg Core.uWork flushed :).trans work
  · rw [core]
    exact (congrArg Core.u flushed :).trans context
  · rw [becomes]
    exact (sites_flushSlots s1 c).trans sites

/-- The image of a record's strand starts at the record's entry with the record's arguments. -/
theorem entered_newImage (entry : Word) (asid sid : Nat) (a : Vector Word 4) : let k := (newImage entry asid sid a).entered
    k.pc = entry ∧ k.asid = BitVec.ofNat 16 asid ∧ k.priv = false ∧ k.getX 4 = a[0] ∧ k.getX 5 = a[1] ∧ k.getX 6 = a[2] ∧ k.getX 7 = a[3] :=
  ⟨rfl, rfl, rfl, rfl, rfl, rfl, rfl⟩

theorem near_of (c : Nat) (cores : t.cores = s.cores) (cfg : t.cfg = s.cfg) (sites : t.sites = s.sites) (kept : t.kept = s.kept)
    (clusters : t.clusters = s.clusters) (mgmt : t.mgmt = s.mgmt) : Near c s t := by
  refine ⟨?_, cfg, fun i => ?_, kept, clusters, by rw [mgmt]⟩
  · unfold State.core
    rw [cores]
  · unfold State.site
    rw [sites]

theorem near_newStrand (c : Nat) (s : State) (asid : Nat) (f : Nat → Strand) : Near c s (s.newStrand asid f).1 :=
  near_of c rfl rfl rfl rfl rfl rfl

theorem near_noteActive (c : Nat) (s : State) (asid va origin : Nat) (r : Rec) : Near c s (s.noteActive asid va origin r).freshId.2 :=
  near_of c rfl rfl rfl rfl rfl rfl

/-- One strand of a record is made and takes a seat. -/
theorem startStrand_seat (s : State) (c asid : Nat) (r : Rec) (f : Nat → Strand) (args : Vector Word 4) :
    ∃ (t : State) (sid : Nat), Near c s t ∧ t.sites = s.sites ∧ (s.startStrand c asid r f args false).1 =
      (t.seat c (newImage (BitVec.ofNat 64 r.entry) asid sid args) false).getD t := by
  have near := near_newStrand c s asid f
  have sites : (s.newStrand asid f).1.sites = s.sites := rfl
  unfold State.startStrand
  generalize s.newStrand asid f = made at near sites ⊢
  obtain ⟨t, sid⟩ := made
  exact ⟨t, sid, near, sites, rfl⟩

/-- A single strand of a record is made, and takes a seat. -/
theorem startRecord_seat (s : State) (asid va origin : Nat) {r : Rec} (single : r.size < 2) (c : Nat) (cluster : Bool) (mark : Nat → Nat → State → State) :
    ∃ (t : State) (sid : Nat), Near c s t ∧ t.sites = s.sites ∧ s.startRecord asid va origin r [c] cluster false mark =
      mark c 0 ((t.seat c (newImage (BitVec.ofNat 64 r.entry) asid sid (recArgs r va cluster)) false).getD t) := by
  have direct : decide (r.size ≥ 2) = false := decide_eq_false (Nat.not_le.mpr single)
  have near := near_noteActive c s asid va origin r
  have sites : (s.noteActive asid va origin r).freshId.2.sites = s.sites := rfl
  unfold State.startRecord
  generalize (s.noteActive asid va origin r).freshId = fresh at near sites ⊢
  obtain ⟨id, s0⟩ := fresh
  dsimp only [List.foldl_cons, List.foldl_nil] at near sites ⊢
  rw [if_neg (Nat.not_le.mpr single), direct]
  obtain ⟨t, sid, near', sites', starts⟩ := startStrand_seat s0 c asid r _ (recArgs r va cluster)
  exact ⟨t, sid, near.trans near', sites'.trans sites, congrArg (mark c 0) starts⟩

theorem seat_open {g : Image} (enters : s.mayEnter c = true) (unready : oldestReady (s.core c).arrival = none) :
    s.seat c g false = some (s.enterU c g) := by
  have arrives : s.arrive c g = some (s.enterU c g) := if_pos (by rw [enters, unready]; rfl)
  exact arrives

variable {asid : Nat}

theorem openTo_near (near : Near c s t) (opened : Spec.openTo s c asid) : Spec.openTo t c asid := by
  obtain ⟨enters, unready, prev, kept⟩ := opened
  exact ⟨near.mayEnter.trans enters, by rw [near.arrival]; exact unready, (congrArg Core.prevAsid near.core :).trans prev, near.kept.trans kept⟩

/-- A strand stands at a record's entry. -/
def Core.atRecord (k : Core) (asid : Nat) (r : Rec) (a : Vector Word 4) : Prop :=
  k.uWork = .strand ∧ ∃ sid, k.u = (newImage (BitVec.ofNat 64 r.entry) asid sid a).entered

/-- The strand of a record dispatched to an open core stands there. -/
theorem startRecord_open (opened : Spec.openTo s c asid) (plain : s.mgmt.capMode = 0) (va origin : Nat) {r : Rec} (single : r.size < 2)
    (cluster : Bool) {mark : Nat → Nat → State → State} (marks : ∀ i u, u.mgmt.capMode = 0 → mark c i u = u) :
    let t := s.startRecord asid va origin r [c] cluster false mark
    (t.core c).atRecord asid r (recArgs r va cluster) ∧ t.sites = s.sites ∧ t.clusters = s.clusters ∧ t.mgmt.capMode = 0 ∧ t.cfg = s.cfg := by
  obtain ⟨t, sid, near, sites, starts⟩ := startRecord_seat s asid va origin single c cluster mark
  obtain ⟨enters, unready, _, kept⟩ := openTo_near near opened
  obtain ⟨work, context, same, clusters, mode, cfg⟩ := enterU_entered t c (newImage (BitVec.ofNat 64 r.entry) asid sid (recArgs r va cluster)) kept
  rw [seat_open enters unready, Option.getD_some] at starts
  have plain' := (mode.trans near.mode).trans plain
  rw [marks 0 _ plain'] at starts
  rw [starts]
  exact ⟨⟨work, sid, context⟩, same.trans sites, clusters.trans near.clusters, plain', cfg.trans near.cfg⟩

theorem Near.atRecord (near : Near c s t) {r : Rec} {a : Vector Word 4} (stands : (s.core c).atRecord asid r a) : (t.core c).atRecord asid r a := by
  obtain ⟨work, sid, context⟩ := stands
  exact ⟨(congrArg Core.uWork near.core :).trans work, sid, (congrArg Core.u near.core :).trans context⟩

theorem started_of {r : Rec} {va : Nat} {cluster : Bool} (stands : (t.core c).atRecord asid r (recArgs r va cluster)) :
    Spec.Started t c asid r (if cluster then va else r.args.getD 0 0) := by
  obtain ⟨work, sid, context⟩ := stands
  obtain ⟨pc, named, priv, x4, x5, x6, x7⟩ := entered_newImage (BitVec.ofNat 64 r.entry) asid sid (recArgs r va cluster)
  unfold Spec.Started
  dsimp only
  rw [context]
  refine ⟨work, pc, named, priv, x4.trans ?_, fun i first last => ?_⟩
  · cases cluster <;> rfl
  · match i with
    | 1 => exact x5
    | 2 => exact x6
    | 3 => exact x7

/-! ### A record of a queue is dispatched (R292, R294) -/

variable {q va origin site : Nat} {k : LQueue} {r : Rec}

theorem claimRec_won (cas : s.casStatus asid va 1 2 = some t) : s.claimRec asid va origin = (t, true) := by
  rw [State.claimRec, cas]

theorem claimRec_lost (cas : s.casStatus asid va 1 2 = none) : (s.claimRec asid va origin).2 = false := by
  rw [State.claimRec, cas]
  dsimp only
  split <;> rfl

theorem dispatchOn_lost (cas : (s.unready asid q va).casStatus asid va 1 2 = none) (cores : List Nat) :
    s.dispatchOn site asid q k va r cores false = ((s.unready asid q va).claimRec asid va q).1.unreserve asid va := by
  have lost := claimRec_lost (origin := q) cas
  unfold State.dispatchOn
  generalize State.claimRec (s.unready asid q va) asid va q = claim at lost ⊢
  obtain ⟨u, won⟩ := claim
  cases lost
  rfl

theorem near_setEprio (c : Nat) (s : State) (asid q p : Nat) : Near c s (s.setEprio asid q p) := by
  have queue : Near c s (s.modQueue asid q (fun k => { k with eprio := p })) := near_modSpace c s asid _
  unfold State.setEprio
  dsimp only
  split
  · exact queue
  · exact queue.trans ((reported_devWriteOr ..).near c)

theorem near_modQueue (c : Nat) (s : State) (asid q : Nat) (f : LQueue → LQueue) : Near c s (s.modQueue asid q f) := near_modSpace c s asid _

theorem reserve_of_sites (same : t.sites = s.sites) (i : Nat) : (t.site i).reserve = (s.site i).reserve := by
  rw [State.site, State.site, same]

theorem reservedSite_of_sites (same : t.sites = s.sites) (asid va : Nat) : t.reservedSite asid va = s.reservedSite asid va := by
  unfold State.reservedSite
  simp only [reserve_of_sites same]

/-- A record that wins its status starts on the open core that it goes to. -/
theorem dispatchOn_open (opened : Spec.openTo s c asid) (plain : s.mgmt.capMode = 0) (single : r.size < 2) (free : s.reservedSite asid va = none)
    (cas : (s.unready asid q va).casStatus asid va 1 2 = some t) :
    Spec.Started (s.dispatchOn site asid q k va r [c] false) c asid r (r.args.getD 0 0) := by
  unfold State.dispatchOn
  rw [claimRec_won cas]
  dsimp only
  have near : Near c s (t.modSite site (fun x => x.noteVisit k.eprio asid q (max 1 k.weight))) :=
    ((near_modQueue c s asid q _).trans ((accessed_casStatus cas).near c)).trans (near_modSite c t site _ fun _ => rfl)
  generalize t.modSite site (fun x => x.noteVisit k.eprio asid q (max 1 k.weight)) = u at near
  obtain ⟨stands, sites, _, mode, _⟩ := startRecord_open (openTo_near near opened) (near.mode.trans plain) va q single false
    (mark := fun c i u => u.placed va c i) (fun i u mode => placed_plain mode va c i)
  generalize u.startRecord asid va q r [c] false false (fun c i u => u.placed va c i) = w at stands sites mode
  have free' : w.reservedSite asid va = none := ((reservedSite_of_sites sites asid va).trans (near.reservedSite asid va)).trans free
  rw [unreserve_free free']
  exact started_of (cluster := false) (((near_modQueue c w asid q _).trans (near_setEprio c _ asid q k.prio)).atRecord stands)

/-! ### One decision of a site (R294) -/

theorem nextInRound_one (v : Option Visit) (x : QRef) : nextInRound v [x] = some x := by
  unfold nextInRound
  cases v with
  | none => rfl
  | some v =>
    dsimp only
    split
    · rename_i y found
      have mem := Option.mem_filter_iff.mp found
      exact congrArg some (List.mem_singleton.mp (List.mem_of_find?_eq_some mem.1))
    · have later (p : QRef → Bool) : ([x].find? p).or [x].head? = some x := by
        rw [List.find?_singleton]
        split <;> rfl
      exact later _

/-- What a decision does with the record that it acts on. -/
def State.actOn (s : State) (site a q : Nat) (k : LQueue) (va : Nat) : Seat → State
  | .bad => ((s.dropReady a q va).cbfmtEvent a q va 3).endJob a va true
  | .never => s.unplaceable a q va
  | .on x cores => if s.capRoom x.members then s.dispatchOn site a q k va x cores false else s.capHold
  | .wait => s

theorem dispatchSite_one {rr : ReadyRec} {x : Seat} (one : (s.touchReady site).dispatchable site = [((asid, q, k), rr, x)]) :
    dispatchSite site s = s.orAsk ((s.touchReady site).actOn site asid q k rr.record x) := by
  rw [dispatchSite, attempt_eq]
  dsimp only
  rw [one]
  have top : [((asid, q, k), rr, x)].filter (fun y : QRef × ReadyRec × Seat =>
      y.1.2.2.eprio == (([((asid, q, k), rr, x)].map (fun (y : QRef × ReadyRec × Seat) => y.1.2.2.eprio)).foldl max 0)) = [((asid, q, k), rr, x)] :=
    List.filter_cons_of_pos (by simp)
  rw [top, List.map_singleton, List.map_singleton, nextInRound_one]
  dsimp only
  rw [List.find?_cons_of_pos (by simp)]
  cases x <;> rfl

theorem dispatchSite_none (none : (s.touchReady site).dispatchable site = []) : dispatchSite site s = s.orAsk (s.touchReady site) := by
  have round (v : Option Visit) : nextInRound v (([] : List (QRef × ReadyRec × Seat)).map (fun x => x.1)) = .none := by
    cases v <;> rfl
  rw [dispatchSite, attempt_eq]
  dsimp only
  rw [none, List.filter_nil, round]

/-! ### Cluster tasks (R297) -/

variable {e : ClEntry} {i : Nat}

theorem dispatchTask_open (opened : Spec.openTo s c e.asid) (plain : s.mgmt.capMode = 0) (single : r.size < 2)
    (free : s.reservedSite e.asid e.record = none) (only : (s.cluster i).tasks = [e])
    (cas : (s.freeTask i e).casStatus e.asid e.record 1 2 = some t) :
    Spec.Started (s.dispatchTask i e r [c]) c e.asid r e.record ∧ ((s.dispatchTask i e r [c]).cluster i).tasks = [] ∧
      ((s.dispatchTask i e r [c]).cluster i).lastCore = c := by
  unfold State.dispatchTask
  rw [claimRec_won cas]
  dsimp only
  have access := accessed_casStatus cas
  have near := access.near c
  have tasks : (t.cluster i).tasks = [] := by
    have freed : ((s.freeTask i e).cluster i).tasks = (s.cluster i).tasks.erase e :=
      congrArg (fun o : Option Cluster => (o.getD Cluster.reset).tasks) (kvGet_set_self i _ s.clusters)
    rw [State.cluster, access.clusters, ← State.cluster, freed, only]
    exact List.erase_cons_head e []
  have opened' : Spec.openTo (s.freeTask i e) c e.asid := opened
  have marks (x : Nat) (u : State) (mode : u.mgmt.capMode = 0) :
      ((if u.mgmt.capMode = 2 then u.replayTake else u.capture (taskHead i c) [e.record]).placed e.record c x) = u := by
    rw [mode, if_neg (by decide), capture_plain mode, placed_plain mode]
  obtain ⟨stands, sites, clusters, mode, _⟩ := startRecord_open (openTo_near near opened') (near.mode.trans plain) e.record e.origin single true
    (mark := fun c x u => (if u.mgmt.capMode = 2 then u.replayTake else u.capture (taskHead i c) [e.record]).placed e.record c x) marks
  generalize t.startRecord e.asid e.record e.origin r [c] true false _ = w at stands sites clusters mode
  have free' : w.reservedSite e.asid e.record = none :=
    ((reservedSite_of_sites sites e.asid e.record).trans (near.reservedSite e.asid e.record)).trans free
  rw [unreserve_free free']
  have changed := kvGet_set_self i { w.cluster i with lastCore := c } w.clusters
  refine ⟨started_of (cluster := true) stands, ?_, congrArg (fun o : Option Cluster => (o.getD Cluster.reset).lastCore) changed⟩
  refine (congrArg (fun o : Option Cluster => (o.getD Cluster.reset).tasks) changed).trans ?_
  change (w.cluster i).tasks = []
  rw [State.cluster, clusters, ← State.cluster]
  exact tasks

section
variable {rest : List ClEntry} (runs : s.queueRuns e.asid e.origin = true) (read : s.readRec e.asid e.record = some r) (ready : r.status = 1)
  (fits : r.cls = 0 ∨ r.cls.testBit 2 = true) (small : r.size ≤ 16)
include runs read ready fits small

theorem clusterPick_first : clusterPick i (e :: rest) s =
    if 2 ≤ r.size ∧ (s.clusterCores i).length < r.size then (s.dropTask i e).failCrew e.asid e.origin e.record
    else if s.mgmt.capMode = 2 then
      match s.replayTask i e.record r.members with
      | none => clusterPick i rest s
      | some cores => if (s.asReserved e.asid e.record).canStart r cores then s.dispatchTask i e r cores else s
    else match s.seatTask i e r with
      | none => s
      | some cores => if s.capRoom (2 * cores.length) then s.dispatchTask i e r cores else s.capHold := by
  have kind : ((decide (r.cls ≠ 0) && !bitOf r.cls 2) || decide (r.size > 16)) = false := by
    rw [bitOf_eq_testBit]
    rcases fits with zero | tensor
    · simp [zero, small]
    · simp [tensor, small]
  rw [clusterPick, runs, Bool.not_true, if_neg Bool.false_ne_true, read]
  dsimp only
  rw [if_neg (by rw [ready]; decide), kind, if_neg Bool.false_ne_true, if_neg (not_not.mpr ready)]
  simp only [Bool.and_eq_true, decide_eq_true_eq, ge_iff_le, gt_iff_lt] <;> rfl

theorem clusterPick_fails (crew : 2 ≤ r.size) (few : (s.clusterCores i).length < r.size) :
    clusterPick i (e :: rest) s = (s.dropTask i e).failCrew e.asid e.origin e.record :=
  (clusterPick_first runs read ready fits small).trans (if_pos ⟨crew, few⟩)

variable (room : r.size < 2 ∨ r.size ≤ (s.clusterCores i).length) (plain : s.mgmt.capMode = 0)
include room plain

theorem clusterPick_waits (full : s.seatTask i e r = none) : clusterPick i (e :: rest) s = s := by
  rw [clusterPick_first runs read ready fits small, if_neg (by omega), if_neg (by rw [plain]; decide), full]

theorem clusterPick_seats {cores : List Nat} (seats : s.seatTask i e r = some cores) :
    clusterPick i (e :: rest) s = s.dispatchTask i e r cores := by
  rw [clusterPick_first runs read ready fits small, if_neg (by omega), if_neg (by rw [plain]; decide), seats]
  exact if_pos (capRoom_plain plain _)

end

/-! ### Reservations and effective priority (R294, R296) -/

/-- The older of two crews that wait. -/
def olderCrew (b : Option (Nat × Reservation)) (x : Nat × Reservation) : Option (Nat × Reservation) := match b with
  | none => some x
  | some y => if x.1 < y.1 then some x else some y

theorem foldl_olderCrew {since : Nat} {v : Reservation} (pre post : List (Nat × Reservation)) (older : ∀ x ∈ pre, since < x.1)
    (younger : ∀ x ∈ post, since ≤ x.1) : (pre ++ (since, v) :: post).foldl olderCrew none = some (since, v) := by
  have before (l : List (Nat × Reservation)) (b : Option (Nat × Reservation)) (all : ∀ x ∈ l, since < x.1) (first : ∀ y, b = some y → since < y.1) :
      ∀ y, l.foldl olderCrew b = some y → since < y.1 := by
    induction l generalizing b with
    | nil => exact first
    | cons x l ih =>
      obtain ⟨here, all⟩ := List.forall_mem_cons.mp all
      refine ih _ all fun y is => ?_
      cases b with
      | none =>
        cases is
        exact here
      | some z =>
        rw [olderCrew] at is
        split at is <;> cases is
        · exact here
        · exact first y rfl
  have after (l : List (Nat × Reservation)) (all : ∀ x ∈ l, since ≤ x.1) : l.foldl olderCrew (some (since, v)) = some (since, v) := by
    induction l with
    | nil => rfl
    | cons x l ih =>
      obtain ⟨here, all⟩ := List.forall_mem_cons.mp all
      rw [List.foldl_cons, olderCrew]
      dsimp only
      rw [if_neg (Nat.not_lt.mpr here)]
      exact ih all
  rw [List.foldl_append, List.foldl_cons]
  have least := before pre none older (fun y is => by cases is)
  cases found : pre.foldl olderCrew none with
  | none => exact after post younger
  | some y =>
    rw [olderCrew]
    dsimp only
    rw [if_pos (least y found)]
    exact after post younger

theorem crewReservation_oldest {pre post : List (Nat × Reservation)} {since : Nat} {v : Reservation} (free : (s.site i).reserve = none)
    (waiting : (s.queueCrews ++ s.clusterCrews).filter (fun x => s.siteFor x.2 == i % 4 && (s.reservedSite x.2.asid x.2.record).isNone &&
      s.queueRuns x.2.asid x.2.queue) = pre ++ (since, v) :: post) (older : ∀ x ∈ pre, since < x.1) (younger : ∀ x ∈ post, since ≤ x.1) :
    crewReservation i s = s.modSite i (fun t => { t with reserve := some v }) := by
  have oldest : ((s.queueCrews ++ s.clusterCrews).filter (fun x => s.siteFor x.2 == i % 4 && (s.reservedSite x.2.asid x.2.record).isNone &&
      s.queueRuns x.2.asid x.2.queue)).foldl olderCrew none = some (since, v) := by
    rw [waiting]
    exact foldl_olderCrew pre post older younger
  unfold crewReservation
  rw [free, Option.isSome_none, if_neg Bool.false_ne_true]
  dsimp only
  split
  · rename_i is
    cases oldest.symm.trans is
  · rename_i is
    cases oldest.symm.trans is
    rfl

theorem eprioRaise_of {rr : ReadyRec} {more : List ReadyRec} (listed : (s.space asid).bind (·.queue q) = some k) (ready : k.ready = rr :: more) :
    eprioRaise asid q s = s.orAsk (
      let start := max rr.since (max k.lastDispatch k.raisedAt)
      let n := (s.time.toNat - start) / 800000
      if k.eprio ≥ 7 || n = 0 then s
      else (s.modQueue asid q (fun k => { k with raisedAt := start + n * 800000 })).setEprio asid q (min 7 (k.eprio + n))) := by
  rw [eprioRaise, attempt_eq]
  dsimp only
  rw [listed]
  dsimp only
  rw [ready]
  rfl

/-- The queue of an address space, where its fields are changed. -/
theorem queue_modQueue (listed : (s.space asid).bind (·.queue q) = some k) (f : LQueue → LQueue) :
    ((s.modQueue asid q f).space asid).bind (·.queue q) = some (f k) := by
  obtain ⟨sp, bound, queue⟩ := Option.bind_eq_some_iff.mp listed
  rw [State.modQueue, space_modSpace (f := fun p => { p with queues := p.queues.modify (q % 64) f }) (fun _ => rfl) bound]
  change (sp.queues.modify (q % 64) f)[q % 64]? = some (f k)
  rw [List.getElem?_modify_eq, show sp.queues[q % 64]? = some k from queue]
  rfl

theorem eprio_setEprio (listed : (s.space asid).bind (·.queue q) = some k) (p : Nat) : Spec.eprio (s.setEprio asid q p) asid q = some p := by
  have set := queue_modQueue listed (fun k => { k with eprio := p })
  unfold State.setEprio Spec.eprio
  dsimp only
  split
  · rw [set]
    rfl
  · rw [(reported_devWriteOr ..).space, set]
    rfl

end

end Sys2Proof.Machine

namespace Sys2Proof.Proofs
open Sys2Proof.Machine

/-- A cluster's oldest ready entry (R297). -/
theorem clusterTask_rule (s : State) (i : Nat) : let s0 := s.touchTasks i
    ∀ e rest rec, (s.cluster i).tasks = e :: rest → s0.queueRuns e.asid e.origin = true → s0.readRec e.asid e.record = some rec →
    rec.status = 1 → (rec.cls = 0 ∨ rec.cls.testBit 2 = true) → rec.size ≤ 16 →
    (2 ≤ rec.size → (s0.clusterCores i).length < rec.size →
      exec (.clusterTaskDispatch i) s = .next (s.orAsk ((s0.dropTask i e).failCrew e.asid e.origin e.record))) ∧
    ((rec.size < 2 ∨ rec.size ≤ (s0.clusterCores i).length) → s0.mgmt.capMode = 0 →
      (s0.seatTask i e rec = none → exec (.clusterTaskDispatch i) s = .next (s.orAsk s0)) ∧
      (∀ c t, rest = [] → rec.size < 2 → s0.seatTask i e rec = some [c] → (s0.cluster i).tasks = [e] →
        Spec.openTo s0 c e.asid → s0.reservedSite e.asid e.record = none → (s0.freeTask i e).casStatus e.asid e.record 1 2 = some t →
        ∃ u, exec (.clusterTaskDispatch i) s = .next (s.orAsk u) ∧ Spec.Started u c e.asid rec e.record ∧ (u.cluster i).tasks = [] ∧
          (u.cluster i).lastCore = c)) := by
  intro s0 e rest rec tasks runs read ready fits small
  have picks (u : State) (pick : clusterPick i (e :: rest) s0 = u) : exec (.clusterTaskDispatch i) s = .next (s.orAsk u) := by
    refine congrArg Host.Outcome.next ?_
    rw [clusterDispatch, attempt_eq, tasks]
    exact congrArg s.orAsk pick
  refine ⟨fun crew few => picks _ (clusterPick_fails runs read ready fits small crew few), fun room plain =>
    ⟨fun full => picks _ (clusterPick_waits runs read ready fits small room plain full), fun c t _ single seats only opened free cas =>
      ⟨_, picks _ (clusterPick_seats runs read ready fits small room plain seats), dispatchTask_open opened plain single free only cas⟩⟩⟩

/-- The oldest ready record of a queue raises its priority (R294). -/
theorem eprioRaise_rule (s : State) (reached : s.blocked = false) (a q : Nat) (k : LQueue) (r : ReadyRec) (rest : List ReadyRec)
    (listed : (s.space a).bind (·.queue q) = some k) (ready : k.ready = r :: rest) :
    let since := max r.since (max k.lastDispatch k.raisedAt)
    let due := since + 800000 ≤ s.time.toNat
    (due → k.eprio < 7 → ∃ t, exec (.eprioRaise a q) s = .next (s.orAsk t) ∧
      Spec.eprio t a q = some (min 7 (k.eprio + (s.time.toNat - since) / 800000))) ∧
    (¬due ∨ 7 ≤ k.eprio → exec (.eprioRaise a q) s = .next s) := by
  intro since due
  have raises := eprioRaise_of listed ready
  have levels : (s.time.toNat - since) / 800000 = 0 ↔ ¬due := by
    rw [Nat.div_eq_zero_iff]
    change _ ↔ ¬since + 800000 ≤ s.time.toNat
    omega
  refine ⟨fun late low => ⟨_, congrArg Host.Outcome.next (raises.trans (congrArg s.orAsk (if_neg ?_))), ?_⟩,
    fun early => congrArg Host.Outcome.next ((raises.trans (congrArg s.orAsk (if_pos ?_))).trans (orAsk_self reached))⟩
  · rw [Bool.or_eq_true, decide_eq_true_eq, decide_eq_true_eq]
    rintro (high | none)
    · exact Nat.not_lt.mpr high low
    · exact levels.mp none late
  · exact eprio_setEprio (queue_modQueue listed _) _
  · rw [Bool.or_eq_true, decide_eq_true_eq, decide_eq_true_eq]
    exact early.symm.imp id levels.mpr

/-- Settles O56: a decision acts on one record; that the strand stands where it was sent rests on what a dispatch leaves of an open core. -/
theorem dispatchEvents : Obligations.DispatchEvents := by
  intro s i a q k reached
  refine ⟨fun r x one => ?_, fun none => congrArg Host.Outcome.next (dispatchSite_none none), clusterTask_rule s i,
    fun held => congrArg Host.Outcome.next (if_pos (Option.isSome_iff_ne_none.mpr held)), fun pre since r post free waiting older younger =>
      ⟨_, congrArg Host.Outcome.next (crewReservation_oldest free waiting older younger), rfl, State.site_modSite_self ..⟩,
    fun r rest listed ready => eprioRaise_rule s reached a q k r rest listed ready⟩
  have acts : exec (.dispatch i) s = .next (s.orAsk ((s.touchReady i).actOn i a q k r.record x)) := congrArg Host.Outcome.next (dispatchSite_one one)
  refine ⟨fun bad => ?_, fun never => ?_, fun rec c t on single plain opened free cas => ?_, fun rec cores on plain cas => ?_⟩
  · rw [bad] at acts
    exact acts
  · rw [never] at acts
    exact acts
  · rw [on, State.actOn, if_pos (capRoom_plain plain _)] at acts
    exact ⟨_, acts, dispatchOn_open opened plain single free cas⟩
  · rw [on, State.actOn, if_pos (capRoom_plain plain _), dispatchOn_lost cas] at acts
    exact acts

end Sys2Proof.Proofs
end


section
/-! SUPPORT. Memory stays canonical through every function of a step (O26): what that says of a state and of each kind of result that holds
one, and how a result is taken apart. A function has one lemma, in the order of the model: from a state with canonical memory, whatever
state its result holds has canonical memory. -/

namespace Sys2Proof.Proofs
open Sys2Proof.Machine

/-- Memory is canonical (log 3). -/
def Canonical (s : State) : Prop := s.mem.wf = true

/-- A result that holds no state. -/
def Stateless {α : Type} (_ : α) : Prop := True

/-- The state of a result that also answers something. -/
def CanonicalFst {α : Type} (p : State × α) : Prop := Canonical p.1

/-- The state that comes with a fresh value. -/
def CanonicalSnd {α : Type} (p : α × State) : Prop := Canonical p.2

/-- The state between two other parts of a result. -/
def CanonicalMid {α β : Type} (p : α × State × β) : Prop := Canonical p.2.1

/-- Where there is a result, it is good. -/
inductive IfAny {α : Type} (P : α → Prop) : Option α → Prop
  | none : IfAny P none
  | some {a : α} (h : P a) : IfAny P (some a)

/-- Either result is good. -/
inductive Either {ε α : Type} (E : ε → Prop) (P : α → Prop) : Except ε α → Prop
  | error {e : ε} (h : E e) : Either E P (.error e)
  | ok {a : α} (h : P a) : Either E P (.ok a)

/-- What a stop leaves. -/
inductive CanonicalStop : Stop → Prop
  | trap {t : Trap} : CanonicalStop (.trap t)
  | trapIn {t : Trap} {s : State} (h : Canonical s) : CanonicalStop (.trapIn t s)
  | stall : CanonicalStop .stall
  | stallIn {s : State} (h : Canonical s) : CanonicalStop (.stallIn s)
  | parkHost {req : Nat} {s : State} (h : Canonical s) : CanonicalStop (.parkHost req s)
  | fault {f : Fault} : CanonicalStop (.fault f)

/-- What an image that is not resumed leaves. -/
inductive CanonicalLoadErr : LoadErr → Prop
  | bad {b : BadImage} : CanonicalLoadErr (.bad b)
  | poison : CanonicalLoadErr .poison
  | wait {s : State} (h : Canonical s) : CanonicalLoadErr (.wait s)

/-- What a stop of an engine access leaves. -/
inductive CanonicalEngStop : EngStop → Prop
  | status {n : Nat} {s : State} (h : Canonical s) : CanonicalEngStop (.status n s)
  | service {t : Trap} {s : State} (h : Canonical s) : CanonicalEngStop (.service t s)
  | wait {s : State} (h : Canonical s) : CanonicalEngStop (.wait s)
  | waitHost {req : Nat} {s : State} (h : Canonical s) : CanonicalEngStop (.waitHost req s)

/-- What a stop of a queued entry leaves. -/
inductive CanonicalVStop : VStop → Prop
  | fault {cause : Cause} {saddr elem : Nat} {s : State} (h : Canonical s) : CanonicalVStop (.fault cause saddr elem s)
  | wait {s : State} (h : Canonical s) : CanonicalVStop (.wait s)
  | park {req : Nat} {s : State} (h : Canonical s) : CanonicalVStop (.park req s)

/-- What a stop of a bind leaves. -/
inductive CanonicalBindStop : BindStop → Prop
  | bad : CanonicalBindStop .bad
  | wait {s : State} (h : Canonical s) : CanonicalBindStop (.wait s)

/-- The next state of an outcome. -/
inductive CanonicalNext : Host.Outcome State Fault Refusal → Prop
  | next {s : State} (h : Canonical s) : CanonicalNext (.next s)
  | fault {f : Fault} : CanonicalNext (.fault f)
  | refused {r : Refusal} : CanonicalNext (.refused r)

/-- The next state of a context's turn. -/
def CanonicalTurn {α : Type} (p : Host.Outcome State Fault Refusal × α) : Prop := CanonicalNext p.1

theorem ifAny_stateless {α : Type} {o : Option α} : IfAny Stateless o := by
  cases o with
  | none => exact .none
  | some a => exact .some trivial

theorem wf_clearCovered {m : Memory} (h : m.wf = true) (ranges : List (Nat × Nat)) : (m.clearCovered ranges).wf = true := by
  rw [Memory.wf_iff] at h ⊢
  exact ⟨h.1, h.2.1, h.2.2.filter _⟩

variable {s t : State} {ε α β : Type} {E : ε → Prop} {P : α → Prop} {Q : β → Prop} {o : Option α} {r : Except ε α}

theorem Canonical.update (h : Canonical s) (same : t.mem = s.mem) : Canonical t := (congrArg Memory.wf same).trans h

theorem CanonicalFst.pair {a : α} (h : Canonical s) : CanonicalFst (s, a) := h

/-! What is known of a result is known of what a match finds in it. -/

theorem CanonicalFst.carry {p q : State × α} (h : CanonicalFst p) (e : p = q) : CanonicalFst q := e ▸ h

theorem CanonicalSnd.carry {p q : α × State} (h : CanonicalSnd p) (e : p = q) : CanonicalSnd q := e ▸ h

theorem CanonicalMid.carry {p q : α × State × β} (h : CanonicalMid p) (e : p = q) : CanonicalMid q := e ▸ h

theorem CanonicalTurn.carry {p q : Host.Outcome State Fault Refusal × α} (h : CanonicalTurn p) (e : p = q) : CanonicalTurn q := e ▸ h

theorem IfAny.of_some {a : α} (h : IfAny P o) (e : o = .some a) : P a := by
  obtain _ | h := h
  · cases e
  · cases e
    exact h

theorem Either.of_ok {a : α} (h : Either E P r) (e : r = .ok a) : P a := by
  obtain _ | h := h
  · cases e
  · cases e
    exact h

theorem Either.of_error {x : ε} (h : Either E P r) (e : r = .error x) : E x := by
  obtain h | _ := h
  · cases e
    exact h
  · cases e

theorem CanonicalNext.of_next {o : Host.Outcome State Fault Refusal} (h : CanonicalNext o) (e : o = .next s) : Canonical s := by
  cases h with
  | next h => cases e; exact h
  | fault => cases e
  | refused => cases e

theorem CanonicalStop.of_trapIn {t : Trap} : CanonicalStop (.trapIn t s) → Canonical s | .trapIn h => h
theorem CanonicalStop.of_stallIn : CanonicalStop (.stallIn s) → Canonical s | .stallIn h => h
theorem CanonicalStop.of_parkHost {req : Nat} : CanonicalStop (.parkHost req s) → Canonical s | .parkHost h => h
theorem CanonicalLoadErr.of_wait : CanonicalLoadErr (.wait s) → Canonical s | .wait h => h
theorem CanonicalEngStop.of_status {n : Nat} : CanonicalEngStop (.status n s) → Canonical s | .status h => h
theorem CanonicalEngStop.of_service {t : Trap} : CanonicalEngStop (.service t s) → Canonical s | .service h => h
theorem CanonicalEngStop.of_wait : CanonicalEngStop (.wait s) → Canonical s | .wait h => h
theorem CanonicalEngStop.of_waitHost {req : Nat} : CanonicalEngStop (.waitHost req s) → Canonical s | .waitHost h => h
theorem CanonicalVStop.of_fault {c : Cause} {a n : Nat} : CanonicalVStop (.fault c a n s) → Canonical s | .fault h => h
theorem CanonicalVStop.of_wait : CanonicalVStop (.wait s) → Canonical s | .wait h => h
theorem CanonicalVStop.of_park {req : Nat} : CanonicalVStop (.park req s) → Canonical s | .park h => h
theorem CanonicalBindStop.of_wait : CanonicalBindStop (.wait s) → Canonical s | .wait h => h

theorem keeps_foldl {P : β → Prop} {f : β → α → β} {l : List α} {b : β} (h : P b) (step : ∀ b a, P b → P (f b a)) :
    P (l.foldl f b) := List.foldlRecOn l f h fun b hb a _ => step b a hb

theorem wf_copyFrame {src n dst : Nat} {m : Memory} (h : m.wf = true) : (s.copyFrame src n dst m).wf = true := by
  unfold State.copyFrame
  split
  · exact h
  · have copied := Memory.wf_copy h src dst n
    dsimp only
    split
    · refine keeps_foldl (P := fun m : Memory => m.wf = true) copied fun m i hm => ?_
      split
      · exact Memory.wf_setPoison hm _
      · exact hm
    · exact copied

theorem IfAny.of_forall (h : ∀ a, o = .some a → P a) : IfAny P o := by
  cases o with
  | none => exact .none
  | some a => exact .some (h a rfl)

theorem Either.of_forall (he : ∀ e, r = .error e → E e) (hp : ∀ a, r = .ok a → P a) :
    Either E P r := by
  cases r with
  | error e => exact .error (he e rfl)
  | ok a => exact .ok (hp a rfl)

theorem IfAny.getD {d : α} (ho : IfAny P o) (hd : P d) : P (o.getD d) := by
  cases ho with
  | none => exact hd
  | some h => exact h

theorem IfAny.or {o q : Option α} (ho : IfAny P o) (hq : IfAny P q) : IfAny P (o.or q) := by
  cases ho with
  | none => exact hq
  | some h => exact .some h

theorem IfAny.map {f : α → β} (ho : IfAny P o) (hf : ∀ a, P a → Q (f a)) :
    IfAny Q (o.map f) := by
  cases ho with
  | none => exact .none
  | some h => exact .some (hf _ h)

theorem IfAny.bind {f : α → Option β} (ho : IfAny P o) (hf : ∀ a, P a → IfAny Q (f a)) :
    IfAny Q (o >>= f) := by
  cases ho with
  | none => exact .none
  | some h => exact hf _ h

theorem Either.map {f : α → β} (hr : Either E P r)
    (hf : ∀ a, P a → Q (f a)) : Either E Q (r.map f) := by
  cases hr with
  | error h => exact .error h
  | ok h => exact .ok (hf _ h)

theorem Either.mapError {δ : Type} {D : δ → Prop} {f : ε → δ} (hr : Either E P r)
    (hf : ∀ e, E e → D (f e)) : Either D P (r.mapError f) := by
  cases hr with
  | error h => exact .error (hf _ h)
  | ok h => exact .ok h

theorem Either.bind {f : α → Except ε β} (hr : Either E P r)
    (hf : ∀ a, P a → Either E Q (f a)) : Either E Q (r >>= f) := by
  cases hr with
  | error h => exact .error h
  | ok h => exact hf _ h

theorem Either.foldlM {P : β → Prop} {f : β → α → Except ε β} {l : List α} {b : β} (h : P b)
    (step : ∀ b a, P b → Either E P (f b a)) : Either E P (l.foldlM f b) := by
  induction l generalizing b with
  | nil => exact .ok h
  | cons a l ih =>
    rw [List.foldlM_cons]
    exact (step b a h).bind fun _ => ih

end Sys2Proof.Proofs
end


section
/-! SUPPORT. Every function of a step keeps memory canonical (O26): caches, the error log, translation, and accesses. -/

namespace Sys2Proof.Proofs
open Sys2Proof.Machine

variable {s : State}

/-! ### Reset -/

theorem canonical_reset : Canonical State.reset := reset_mem_wf

/-! ### Accessors -/

theorem canonical_setCore {c : ℕ} {k : Core} (h : Canonical s) : Canonical (s.setCore c k) := h.update rfl

theorem canonical_modCore {c : ℕ} {f : Core → Core} (h : Canonical s) : Canonical (s.modCore c f) := canonical_setCore h

theorem canonical_setCx {x : Ctx} (h : Canonical s) : Canonical (s.setCx x) := canonical_modCore h

theorem canonical_modCx {f : Ctx → Ctx} (h : Canonical s) : Canonical (s.modCx f) := canonical_setCx h

theorem canonical_modSite {i : ℕ} {f : Site → Site} (h : Canonical s) : Canonical (s.modSite i f) := h.update rfl

theorem canonical_modPort {i : ℕ} {f : Port → Port} (h : Canonical s) : Canonical (s.modPort i f) := h.update rfl

theorem canonical_modTile {t : ℕ} {f : Tile → Tile} (h : Canonical s) : Canonical (s.modTile t f) := h.update rfl

theorem canonical_modCluster {k : ℕ} {f : Cluster → Cluster} (h : Canonical s) : Canonical (s.modCluster k f) := h.update rfl

theorem canonical_modSpace {asid : ℕ} {f : Space → Space} (h : Canonical s) : Canonical (s.modSpace asid f) := h.update rfl

theorem canonical_modStrand {asid sid : ℕ} {f : Strand → Strand} (h : Canonical s) : Canonical (s.modStrand asid sid f) := h.update rfl

theorem canonical_modCrew {id : ℕ} {f : Crew → Crew} (h : Canonical s) : Canonical (s.modCrew id f) := h.update rfl

theorem canonical_modOp {id : ℕ} {f : EngineOp → EngineOp} (h : Canonical s) : Canonical (s.modOp id f) := h.update rfl

theorem canonical_freshWord (h : Canonical s) : CanonicalSnd s.freshWord := h.update rfl

theorem canonical_freshId (h : Canonical s) : CanonicalSnd s.freshId := h.update rfl

/-! ### MATRIX_ENTRY_EXECUTE -/

theorem canonical_matrixEntry {c : ℕ} (h : Canonical s) : Canonical (matrixEntry c s) := by
  unfold matrixEntry
  extract_lets k
  split
  · exact h
  · split
    · exact h
    · extract_lets x2
      exact canonical_setCore h

theorem canonical_finishMq {c n : ℕ} (h : Canonical s) : Canonical (s.finishMq c n) := by
  induction n generalizing s c with
  | zero =>
    rw [State.finishMq]
    exact h
  | succ k ih =>
    rw [State.finishMq]
    split
    · exact h
    · exact ih (canonical_matrixEntry h)

/-! ### The home slice of a line (R242, R245) -/

theorem canonical_modL2 {i : ℕ} {f : L2Slice → L2Slice} (h : Canonical s) : Canonical (s.modL2 i f) := h.update rfl

/-! ### L2 lines (R242) -/

theorem canonical_l2Touch {key n : ℕ} {dirty : Bool} (h : Canonical s) :
    Canonical (s.l2Touch key n dirty) := keeps_foldl h (fun _ _ hk => canonical_modL2 hk)

/-! ### The directory (R243) -/

theorem canonical_modSector {c : ℕ} {f : DirSector → DirSector} (h : Canonical s) : Canonical (s.modSector c f) := canonical_modL2 h

theorem canonical_mapCores {f : Core → Core} (h : Canonical s) : Canonical (s.mapCores f) := h.update rfl

theorem canonical_dropCopies {c : ℕ} {keep : Option ℕ} (h : Canonical s) : Canonical (s.dropCopies c keep) := h.update rfl

theorem canonical_invalidate {c : ℕ} {keep : Option ℕ} (h : Canonical s) : Canonical (s.invalidate c keep) := by
  unfold State.invalidate
  extract_lets d s1
  have hs1 : Canonical s1 := by
    unfold s1
    split
    · exact canonical_modL2 h
    · exact h
  split
  · exact h
  · exact canonical_modSector (canonical_dropCopies hs1)

theorem canonical_dropL1Keys {lo hi : ℕ} (h : Canonical s) : Canonical (s.dropL1Keys lo hi) := by
  unfold State.dropL1Keys
  extract_lets s1
  have hs1 : Canonical s1 := by unfold s1; exact canonical_mapCores h
  exact hs1.update rfl

theorem canonical_dropL1Alias {asid lo hi : ℕ} (h : Canonical s) : Canonical (s.dropL1Alias asid lo hi) := by
  unfold State.dropL1Alias
  extract_lets s1
  have hs1 : Canonical s1 := by unfold s1; exact canonical_mapCores h
  exact hs1.update rfl

theorem canonical_downgrade {c : ℕ} (h : Canonical s) : Canonical (s.downgrade c) := by
  unfold State.downgrade
  extract_lets d
  split
  · exact h
  · exact canonical_modSector (canonical_mapCores h)

theorem canonical_performHome {key n : ℕ} {write : Bool} (h : Canonical s) : Canonical (s.performHome key n write) := by
  unfold State.performHome
  refine canonical_l2Touch ?_
  refine keeps_foldl h fun _ _ hk => ?_
  split
  · exact canonical_invalidate hk
  · exact canonical_downgrade hk

theorem canonical_cleanLine {key : ℕ} (h : Canonical s) : Canonical (s.cleanLine key) := by
  unfold State.cleanLine
  extract_lets n s1
  have hs1 : Canonical s1 := by unfold s1; exact canonical_mapCores h
  exact canonical_modL2 hs1

/-! ### Fills, hits and evictions (R239, R240, R243) -/

theorem canonical_evictData {k c : ℕ} (h : Canonical s) : Canonical (s.evictData k c) := by
  unfold State.evictData
  extract_lets d s1
  have hs1 : Canonical s1 := by unfold s1; exact canonical_modCore h
  split
  · exact hs1
  · refine canonical_modSector ?_
    split
    · exact canonical_modL2 hs1
    · exact hs1

theorem canonical_dirAlloc {line : ℕ} (h : Canonical s) : Canonical (s.dirAlloc line) := by
  unfold State.dirAlloc
  extract_lets i t s1
  have hs1 : Canonical s1 := by
    unfold s1
    split
    · exact h
    · exact canonical_modL2 (keeps_foldl h (fun _ _ hk => canonical_invalidate hk))
  split
  · exact h
  · exact canonical_modL2 hs1

theorem canonical_grantSector {k c : ℕ} {tag : ℕ × ℕ} {store instr : Bool} (h : Canonical s) :
    Canonical (s.grantSector k c tag store instr) := by
  unfold State.grantSector
  extract_lets s0 d s1
  have hs0 : Canonical s0 := by unfold s0; exact canonical_l2Touch (canonical_dirAlloc h)
  have hs1 : Canonical s1 := by
    unfold s1
    split
    · exact canonical_invalidate hs0
    · exact canonical_downgrade hs0
  exact canonical_modSector hs1

theorem canonical_fillData {k : ℕ} {line : L1Line} {store : Bool} (h : Canonical s) : Canonical (s.fillData k line store) := by
  unfold State.fillData
  extract_lets c s0 s1 s2 st
  have hs0 : Canonical s0 := by
    unfold s0
    split
    · exact canonical_evictData h
    · exact h
  have hs1 : Canonical s1 := by
    unfold s1
    split
    · exact canonical_evictData hs0
    · exact hs0
  have hs2 : Canonical s2 := by unfold s2; exact canonical_grantSector hs1
  exact canonical_modCore hs2

theorem canonical_fillInstr {k : ℕ} {line : L1Line} (h : Canonical s) : Canonical (s.fillInstr k line) := by
  unfold State.fillInstr
  extract_lets c s1
  have hs1 : Canonical s1 := by unfold s1; exact canonical_grantSector (canonical_grantSector h)
  exact canonical_modCore hs1

theorem canonical_storeHit {k c : ℕ} (h : Canonical s) : Canonical (s.storeHit k c) := by
  unfold State.storeHit
  extract_lets s1
  have hs1 : Canonical s1 := by
    unfold s1
    split
    · exact canonical_modSector h
    · exact canonical_invalidate h
  exact canonical_modCore hs1

/-! ### Rings at physical addresses (R261) -/

theorem canonical_putRing {pa slots p : ℕ} {dws : List ℕ} (h : Canonical s) : IfAny Canonical (s.putRing pa slots p dws) := by
  unfold State.putRing
  extract_lets slot s1
  have hs1 : Canonical s1 := by unfold s1; exact canonical_performHome h
  split
  · exact .none
  · exact .some (Memory.wf_writeBytes hs1 _ _)

/-! ### The error log (R379, R380) -/

theorem canonical_logRecord {cls unitKind : ℕ} {unit pa detail : ℕ} (h : Canonical s) :
    Canonical (s.logRecord cls unitKind unit pa detail) := by
  unfold State.logRecord
  extract_lets src lost
  have hlost : Canonical lost := h.update rfl
  split
  · exact hlost
  · split
    · exact hlost
    · split
      · exact hlost
      · next e1 => exact ((canonical_putRing h).of_some e1 :).update rfl

theorem canonical_newCorrected {unitKind unit : ℕ} {pa count : ℕ} (h : Canonical s) :
    Canonical (s.newCorrected unitKind unit pa count) := by
  unfold State.newCorrected
  extract_lets s1 pos old src
  have hs1 : Canonical s1 := by unfold s1; exact canonical_logRecord h
  exact hs1.update rfl

theorem canonical_logCorrected {unitKind unit : ℕ} {pa count : ℕ} (h : Canonical s) :
    Canonical (s.logCorrected unitKind unit pa count) := by
  unfold State.logCorrected
  split
  · extract_lets slot
    split
    · exact Memory.wf_write h _ _ _
    · exact canonical_newCorrected h
  · exact h
  · exact canonical_newCorrected h

/-! ### The local window (R234 to R236) -/

theorem canonical_localAccess {w : Who} {va size : ℕ} : Either CanonicalStop Stateless (s.localAccess w va size) := by
  unfold State.localAccess
  split
  · exact .error .trap
  · split
    · exact .error .trap
    · exact .ok trivial
    · split
      · exact .error .stall
      · split
        · exact .error .trap
        · exact .ok trivial

/-! ### Page tables (R308 to R311) -/

theorem canonical_logWalk {asid c : ℕ} {va reason : ℕ} (h : Canonical s) : Canonical (s.logWalk asid c va reason) := by
  unfold State.logWalk
  split
  · exact h
  · exact canonical_logRecord h

/-! ### The home translation cache (R307, R312, R315) -/

theorem canonical_modHome {i : ℕ} {f : Home → Home} (h : Canonical s) : Canonical (s.modHome i f) := canonical_modSite h

theorem canonical_modEntry {e : HomeEntry} {f : HomeEntry → HomeEntry} (h : Canonical s) : Canonical (s.modEntry e f) := canonical_modHome h

theorem canonical_hotBack {e : HomeEntry} (h : Canonical s) : Canonical (s.hotBack e) := Memory.wf_write h _ _ _

theorem canonical_dropEntry {e : HomeEntry} (h : Canonical s) : Canonical (s.dropEntry e) := Machine.canonical_dropEntry s e h

theorem canonical_makeRoom {site page : ℕ} (h : Canonical s) :
    IfAny Canonical (s.makeRoom site page) := .of_forall fun _ room => Machine.canonical_makeRoom room h

theorem canonical_homeEntry {asid va : ℕ} (h : Canonical s) : Either Stateless CanonicalFst (s.homeEntry asid va) :=
  .of_forall (fun _ _ => trivial) fun _ found => Machine.canonical_homeEntry found h

theorem canonical_entryFor {w : Who} {va : ℕ} (h : Canonical s) : Either Stateless CanonicalFst (s.entryFor w va) :=
  .of_forall (fun _ _ => trivial) fun _ found => Machine.canonical_entryFor found h

theorem canonical_countHot {asid : ℕ} {p : Place} {lo n : ℕ} (h : Canonical s) : Canonical (s.countHot asid p lo n) := by
  unfold State.countHot
  split
  · exact h
  · exact canonical_modHome h

theorem canonical_useAts {a : Ats} (h : Canonical s) : Canonical (s.useAts a) := by
  unfold State.useAts
  extract_lets t src
  have hsrc : Canonical src := by unfold src; exact canonical_modHome h
  exact hsrc.update rfl

theorem canonical_hostPlace_go {w : Who} {va : ℕ} {e : HomeEntry} {port pg : ℕ} {post : Bool → State} (h : Canonical s)
    (hpost : ∀ (a : Bool), Canonical (post a)) :
    Either CanonicalStop CanonicalFst (State.hostPlace.go s w va e port pg post) := by
  unfold State.hostPlace.go
  extract_lets mine
  split
  · split
    · exact .ok (canonical_useAts h)
    · clear_value mine
      split
      · split
        · exact .error (.parkHost h)
        · exact .error .stall
      · split
        · exact .error (.parkHost (hpost _))
        · exact .error .stall
  · split
    · exact .error .stall
    · exact .error (.stallIn (hpost _))

theorem canonical_hostPlace {w : Who} {rep va : ℕ} {e : HomeEntry} {level : ℕ} (h : Canonical s) :
    Either CanonicalStop CanonicalFst (s.hostPlace w rep va e level) := by
  unfold State.hostPlace
  extract_lets l site port pasid pg fail post
  have hfail : ∀ (r : ℕ), Either CanonicalStop CanonicalFst (fail r) := fun _ => .error (.trapIn h)
  have hpost : ∀ (pri : Bool), Canonical (post pri) := fun _ => h.update rfl
  split
  · exact hfail _
  · split
    · split
      · exact hfail _
      · exact canonical_hostPlace_go h (fun _ => hpost _)
    · exact canonical_hostPlace_go h (fun _ => hpost _)

theorem canonical_homeStop {w : Who} {rep va : ℕ} {x : HomeErr} (h : Canonical s) : CanonicalStop (homeStop s w rep va x) := by
  unfold homeStop
  split
  · extract_lets t
    split
    · exact .trapIn (canonical_logWalk h)
    · exact .trap
  · exact .stall

theorem canonical_noteStalled {site : ℕ} {t : Turn} (h : Canonical s) : Canonical (s.noteStalled site t) := canonical_modHome h

theorem canonical_serve {w : Who} {rep va : ℕ} {e : HomeEntry} {level : ℕ} (h : Canonical s) :
    Either CanonicalStop CanonicalFst (s.serve w rep va e level) := by
  unfold State.serve
  extract_lets l trap
  have htrap : ∀ (c : Cause) (r : ℕ), Either CanonicalStop CanonicalFst (trap c r) := fun _ _ => .error (.trapIn h)
  split
  · exact htrap _ _
  · split
    · exact htrap _ _
    · split
      · exact canonical_hostPlace h
      · split
        · exact htrap _ _
        · split
          · exact htrap _ _
          · split
            · refine .error ?_
              refine .stallIn ?_
              split
              · exact h
              · exact canonical_noteStalled h
            · exact .ok h

theorem canonical_translate {w : Who} {va : ℕ} (h : Canonical s) : Either CanonicalStop CanonicalFst (s.translate w va) := by
  unfold State.translate
  split
  · exact .error (canonical_homeStop h)
  · next e =>
      extract_lets l unbound
      have hunbound : Either CanonicalStop CanonicalFst unbound := by unfold unbound; exact .error (.trapIn ((canonical_entryFor h).of_ok e :))
      split
      · exact canonical_serve ((canonical_entryFor h).of_ok e :)
      · split
        · split
          · exact hunbound
          · split
            · exact .error (.trapIn ((canonical_entryFor h).of_ok e :))
            · exact hunbound
        · split
          · exact .error (.trapIn ((canonical_entryFor h).of_ok e :))
          · extract_lets bva
            split
            · exact .error (canonical_homeStop ((canonical_entryFor h).of_ok e :))
            · next e3 =>
                split
                · next e4 =>
                    exact .error ((canonical_serve ((canonical_entryFor ((canonical_entryFor h).of_ok e :)).of_ok e3 :)).of_error e4 :)
                · next e4 => exact .ok ((canonical_serve ((canonical_entryFor ((canonical_entryFor h).of_ok e :)).of_ok e3 :)).of_ok e4 :)

/-! ### L1 (R239 to R241) -/

theorem canonical_globalAccess {w : Who} {va size : ℕ} (h : Canonical s) :
    Either CanonicalStop CanonicalFst (s.globalAccess w va size) := by
  unfold State.globalAccess
  split
  · extract_lets g p
    split
    · exact .error (.trapIn h)
    · refine .ok ?_
      split
      · exact canonical_storeHit h
      · exact h
  · split
    · next e1 => exact .error ((canonical_translate h).of_error e1 :)
    · next e1 =>
        extract_lets bad p1 s2
        have hs2 : Canonical s2 := by
          unfold s2
          split
          · exact canonical_countHot ((canonical_translate h).of_ok e1 :)
          · exact ((canonical_translate h).of_ok e1 :)
        split
        · exact .error (.trapIn ((canonical_translate h).of_ok e1 :))
        · split
          · split
            · split
              · exact .ok (canonical_fillInstr hs2)
              · exact .ok (canonical_fillData hs2)
            · refine .ok ?_
              split
              · exact hs2
              · exact canonical_performHome hs2
          · exact .ok hs2

theorem canonical_access {w : Who} {va size : ℕ} (h : Canonical s) : Either CanonicalStop CanonicalFst (s.access w va size) := by
  unfold State.access
  split
  · split
    · next e2 => exact .error (canonical_localAccess.of_error e2 :)
    · exact .ok h
  · exact canonical_globalAccess h

/-! ### Reading and writing a place -/

theorem canonical_placeWrite {asid : ℕ} {p : Place} {bs : List Byte} (h : Canonical s) :
    Canonical (s.placeWrite asid p bs) := wf_placeWrite s asid p bs h

theorem canonical_wroteWhole {ranges : List (ℕ × ℕ)} (h : Canonical s) : Canonical (s.wroteWhole ranges) := wf_clearCovered h _

/-! ### Accesses of the device by virtual address (control blocks, rings, images) -/

theorem canonical_devPlace {asid va n : ℕ} {need : Need} (h : Canonical s) :
    Either CanonicalStop CanonicalFst (s.devPlace asid va n need) := by
  unfold State.devPlace
  split
  · exact .error .trap
  · exact canonical_translate h

theorem canonical_stop_waits {x : Stop} (h : Canonical s) (hx : CanonicalStop x) : IfAny Canonical (Stop.waits s x) := by
  unfold Stop.waits
  split
  · exact .some h
  · exact .some hx.of_stallIn
  · exact .some hx.of_parkHost
  · exact .none

theorem canonical_stop_left {x : Stop} (h : Canonical s) (hx : CanonicalStop x) : Canonical (Stop.left s x) := by
  unfold Stop.left
  split
  · exact hx.of_trapIn
  · exact h

theorem canonical_devRead {asid va n : ℕ} (h : Canonical s) : IfAny CanonicalFst (s.devRead asid va n) := by
  unfold State.devRead
  split
  · exact .some h
  · split
    · next e => exact IfAny.map (canonical_stop_waits h ((canonical_devPlace h).of_error e :)) (fun _ hk => hk.update rfl)
    · next e =>
        split
        · exact .none
        · exact .some ((canonical_devPlace h).of_ok e :)

theorem canonical_devWrite {asid va : ℕ} {n v : ℕ} (h : Canonical s) : IfAny Canonical (s.devWrite asid va n v) := by
  unfold State.devWrite
  split
  · exact .some h
  · split
    · next e => exact IfAny.map (canonical_stop_waits h ((canonical_devPlace h).of_error e :)) (fun _ hk => hk.update rfl)
    · next e => exact .some (canonical_placeWrite ((canonical_devPlace h).of_ok e :))

theorem canonical_askedBy {t : State} (hs : Canonical s) : Canonical (s.askedBy t) := hs.update rfl

theorem canonical_orAsk {t : State} (hs : Canonical s) (ht : Canonical t) : Canonical (s.orAsk t) := by
  unfold State.orAsk
  split
  · exact canonical_askedBy hs
  · exact ht

theorem canonical_attemptState {f : State → State} (h : Canonical s) (hf : ∀ t, Canonical t → Canonical (f t)) :
    Canonical (s.attempt f) := canonical_orAsk h (hf _ h)

theorem canonical_whole {t : State} (hs : Canonical s) (ht : Canonical t) : Either CanonicalStop Canonical (s.whole t) := by
  unfold State.whole
  split
  · exact .error (.stallIn (canonical_askedBy hs))
  · exact .ok ht

theorem canonical_attempt {body : State → Except Stop State} (hbody : ∀ t, Canonical t → Either CanonicalStop Canonical (body t)) (h : Canonical s) :
    Either CanonicalStop Canonical (attempt body s) := by
  unfold attempt
  split
  · next e => exact canonical_whole h ((hbody _ h).of_ok e :)
  · next e =>
      refine .error ?_
      split
      · exact .stallIn (canonical_askedBy h)
      · exact .trapIn (((hbody _ h).of_error e).of_trapIn :)
  · next e => exact .error (.stallIn (canonical_orAsk h (((hbody _ h).of_error e).of_stallIn :)))
  · next e1 => exact .error ((hbody _ h).of_error e1 :)

theorem canonical_devTouch {asid va : ℕ} (h : Canonical s) : Canonical (s.devTouch asid va) := by
  unfold State.devTouch
  split
  · exact h
  · split
    · next e => exact ((canonical_devPlace h).of_ok e :)
    · next e =>
        split
        · next e1 => exact ((canonical_stop_waits h ((canonical_devPlace h).of_error e :)).of_some e1 :).update rfl
        · exact canonical_stop_left h ((canonical_devPlace h).of_error e :)

theorem canonical_devReads {asid va n : ℕ} (h : Canonical s) : IfAny CanonicalFst (s.devReads asid va n) := by
  induction n generalizing s asid va with
  | zero =>
    rw [State.devReads]
    exact .some h
  | succ k ih =>
    rw [State.devReads]
    refine IfAny.bind (canonical_devRead h) fun _ hk => ?_
    split
    · refine IfAny.bind (ih hk) fun _ hk1 => ?_
      split
      · exact .some hk1

theorem canonical_devLeft {asid va n : ℕ} (h : Canonical s) : Canonical (s.devLeft asid va n) := by
  induction n generalizing s asid va with
  | zero =>
    rw [State.devLeft]
    exact h
  | succ k ih =>
    rw [State.devLeft]
    split
    · next e => exact ih ((canonical_devRead h).of_some e :)
    · exact canonical_devTouch h

theorem canonical_devWrites {asid va : ℕ} {l : List ℕ} (h : Canonical s) : Canonical (s.devWrites asid va l) := by
  induction l generalizing s asid va with
  | nil =>
    rw [State.devWrites]
    exact h
  | cons q t ih =>
    rw [State.devWrites]
    exact ih (IfAny.getD (canonical_devWrite h) h)

end Sys2Proof.Proofs
end


section
/-! SUPPORT. Every function of a step keeps memory canonical (O26): images, captured choices, pins, events, records and the end of a strand. -/

namespace Sys2Proof.Proofs
open Sys2Proof.Machine

variable {s : State}

/-! ### The capture ring (R404 to R406; log 32, DESIGN CHOICE for the places of the fields) -/

theorem canonical_capHold (h : Canonical s) : Canonical s.capHold := h.update rfl

theorem canonical_capture {head : ℕ} {dws : List ℕ} (h : Canonical s) : Canonical (s.capture head dws) := by
  unfold State.capture
  split
  · exact h
  · split
    · exact h
    · next e => exact ((canonical_putRing h).of_some e :).update rfl

theorem canonical_replayTake (h : Canonical s) : Canonical s.replayTake := Memory.wf_write h _ _ _

theorem canonical_extend {i : ℕ} {d : List Byte} (h : Canonical s) : Canonical (s.extend i d) := by
  unfold State.extend
  extract_lets m src
  exact h.update rfl

theorem canonical_setCapMode {mode : ℕ} (h : Canonical s) : Canonical (s.setCapMode mode) := by
  unfold State.setCapMode
  split
  · exact h
  · exact canonical_extend (h.update rfl)

theorem canonical_endReplay {result : ℕ} (h : Canonical s) : Canonical (s.endReplay result) := by
  unfold State.endReplay
  extract_lets s1 src
  have hs1 : Canonical s1 := by unfold s1; exact canonical_setCapMode h
  exact hs1.update rfl

/-! ### Buffer digests (R404, R405) -/

theorem canonical_devBytes {asid n : ℕ} {n1 n2 : ℕ} (h : Canonical s) : CanonicalFst (s.devBytes asid n n1 n2) := by
  induction n generalizing s asid n1 n2 with
  | zero =>
    rw [State.devBytes]
    exact h
  | succ fuel ih =>
    rw [State.devBytes]
    split
    · exact h
    · extract_lets m
      split
      · exact h
      · next e =>
          split
          · next e1 => exact ((ih ((canonical_devRead h).of_some e :)).carry e1 :)

theorem canonical_capDigest {asid e : ℕ} (h : Canonical s) : CanonicalFst (s.capDigest asid e) := by
  unfold State.capDigest
  split
  · split
    · next e2 =>
        split
        · exact ((canonical_devBytes h).carry e2 :)
        · exact ((canonical_devBytes h).carry e2 :).update rfl

theorem canonical_capDigests {asid : ℕ} (h : Canonical s) : Canonical (s.capDigests asid) := by
  unfold State.capDigests
  extract_lets es s1
  have hs1 : Canonical s1 := by
    unfold s1
    refine keeps_foldl h fun _ _ hk => ?_
    split
    · next e => exact Memory.wf_write ((canonical_capDigest hk).carry e :) _ _ _
  exact canonical_capture hs1

theorem canonical_capAgree {asid : ℕ} (h : Canonical s) : CanonicalFst (s.capAgree asid) := by
  unfold State.capAgree
  refine keeps_foldl (P := CanonicalFst) h fun _ _ hk => ?_
  split
  · next e => exact ((canonical_capDigest hk).carry e :)

theorem canonical_pinSite {h : Holder} {asid site : ℕ} {pages : List (ℕ × Bool)} (hs : Canonical s) :
    CanonicalFst (s.pinSite h asid site pages) := by
  unfold State.pinSite
  extract_lets hm q
  split
  · exact hs
  · split
    · exact hs
    · split <;> exact canonical_modHome hs

theorem canonical_unpin {h : Holder} (hs : Canonical s) : Canonical (s.unpin h) := by
  unfold State.unpin
  split
  · exact hs
  · exact hs.update rfl

theorem canonical_pinAll {h : Holder} {asid : ℕ} {pls : List Place} (hs : Canonical s) : CanonicalFst (s.pinAll h asid pls) := by
  unfold State.pinAll
  extract_lets s0
  have hs0 : Canonical s0 := by
    unfold s0
    split
    · exact hs
    · exact canonical_unpin hs
  refine keeps_foldl hs0 fun _ _ hk => ?_
  split
  · exact canonical_pinSite hk
  · exact hk

theorem canonical_noteMoving {asid : ℕ} {pls : List Place} {t : Turn} (h : Canonical s) :
    Canonical (s.noteMoving asid pls t) := keeps_foldl h (fun _ _ hk => canonical_noteStalled hk)

/-! ### Event rings (R300) -/

theorem canonical_putEvent {s0 : State} {sp : Space} {e : Event} (h : Canonical s0) : IfAny Canonical (s0.putEvent sp e) := by
  unfold State.putEvent
  extract_lets slot s
  have hs : Canonical s := by unfold s; exact canonical_devTouch h
  refine IfAny.bind (canonical_devRead hs) fun _ hk => ?_
  split
  · next x _ _ =>
      extract_lets s2 rest
      have hs2 : Canonical s2 := by unfold s2; exact canonical_devWrites hk
      split
      · exact .none
      · unfold rest
        refine IfAny.bind (canonical_devWrite hs2) fun _ hk1 => ?_
        refine IfAny.bind (canonical_devRead hk1) fun _ hk2 => ?_
        split
        · exact IfAny.bind (canonical_devWrite hk2) (fun _ hk3 => .some (canonical_modSpace hk3))

theorem canonical_event {asid cause : ℕ} {queue va detail : ℕ} (h : Canonical s) : Canonical (s.event asid cause queue va detail) := by
  unfold State.event
  split
  · exact h
  · extract_lets e1 hold
    have hhold : ∀ (t : State), Canonical t → Canonical (hold t) := fun _ hk => canonical_modSpace hk
    split
    · split
      · exact hhold _ h
      · next e3 =>
          split
          · exact hhold _ (canonical_askedBy h)
          · exact ((canonical_putEvent h).of_some e3 :)
    · exact hhold _ h

theorem canonical_cbfmtEvent {asid queue : ℕ} {va kind : ℕ} (h : Canonical s) :
    Canonical (s.cbfmtEvent asid queue va kind) := canonical_event h

/-! ### Join words (R29, R188) -/

theorem canonical_endZeroing {c : ℕ} (h : Canonical s) : Canonical (s.endZeroing c) := by
  unfold State.endZeroing
  extract_lets m
  have hm : m.wf = true := Memory.wf_zero (Memory.wf_zero h _ _) _ _
  exact canonical_modCore hm

theorem canonical_awaitZeroing {core va : ℕ} (h : Canonical s) : IfAny Canonical (s.awaitZeroing core va) := by
  unfold State.awaitZeroing
  split
  · split
    · split
      · exact .none
      · exact .some (canonical_endZeroing h)
    · exact .some h
  · exact .some h

theorem canonical_joinPlace {asid core va : ℕ} (h : Canonical s) : Either CanonicalStop CanonicalFst (s.joinPlace asid core va) := by
  unfold State.joinPlace
  extract_lets src w
  split
  · exact .error .trap
  · split
    · split
      · exact .error .stall
      · next e1 => exact Either.map canonical_localAccess (fun _ _ => ((canonical_awaitZeroing h).of_some e1 :))
    · exact canonical_translate h

theorem canonical_updateWord {asid core va : ℕ} {f : ℕ → ℕ} {fail : State → State} (h : Canonical s) (hfail : ∀ t, Canonical t → Canonical (fail t)) :
    Canonical (s.updateWord asid core va f fail) := by
  unfold State.updateWord
  split
  · exact h
  · split
    · next e =>
        split
        · next e1 => exact ((canonical_stop_waits h ((canonical_joinPlace h).of_error e :)).of_some e1 :).update rfl
        · exact hfail _ (canonical_stop_left h ((canonical_joinPlace h).of_error e :))
    · next e =>
        split
        · exact hfail _ ((canonical_joinPlace h).of_ok e :)
        · exact canonical_placeWrite ((canonical_joinPlace h).of_ok e :)

theorem canonical_joinUpdateAt {asid core va : ℕ} {abnormal : Bool} {ord origin : ℕ} (h : Canonical s) :
    Canonical (s.joinUpdateAt asid core va abnormal ord origin) := canonical_updateWord h (fun _ hk => canonical_cbfmtEvent hk)

theorem canonical_joinUpdate {asid va : ℕ} {abnormal : Bool} {ord : ℕ} (h : Canonical s) :
    Canonical (s.joinUpdate asid va abnormal ord) := by
  unfold State.joinUpdate
  split
  · exact h
  · exact canonical_updateWord h (fun _ hk => hk)

/-! ### Owners and mailboxes (R220, R225) -/

theorem canonical_sendOn {c : ℕ} (h : Canonical s) : Canonical (s.sendOn c) := by
  unfold State.sendOn
  refine keeps_foldl h fun _ _ hk => ?_
  split
  · exact hk
  · split
    · exact hk
    · exact canonical_modCore (canonical_modCore hk)

theorem canonical_flushSlots {c : ℕ} (h : Canonical s) : Canonical (s.flushSlots c) := by
  unfold State.flushSlots
  extract_lets k gone fwd lost
  exact canonical_sendOn (canonical_modCore h)

theorem canonical_refreshOwner {c : ℕ} (h : Canonical s) : Canonical (s.refreshOwner c) := by
  unfold State.refreshOwner
  split
  · exact h
  · split
    · exact h
    · exact canonical_flushSlots (canonical_modCore h)

/-! ### The spill area (R226, R229, R329) -/

theorem canonical_spillWrite {asid va : ℕ} {vs : List ℕ} (h : Canonical s) : Either Stateless Canonical (s.spillWrite asid va vs) := by
  unfold State.spillWrite
  split
  · exact .ok h
  · split
    · next e =>
        split
        · exact .error trivial
        · exact .error trivial
        · refine .ok ?_
          extract_lets src
          have hsrc : Canonical src := by unfold src; exact IfAny.getD (canonical_stop_waits h ((canonical_translate h).of_error e :)) h
          exact hsrc.update rfl
    · next e =>
        split
        · exact .error trivial
        · exact .ok (canonical_placeWrite ((canonical_translate h).of_ok e :))

theorem canonical_spillWrites {asid va : ℕ} {l : List ℕ} (h : Canonical s) : Either Stateless Canonical (s.spillWrites asid va l) := by
  fun_induction State.spillWrites s asid va l with
  | case1 => exact .ok h
  | case2 | case4 | case6 => exact .error trivial
  | case3 s va v0 v1 v2 v3 vs _ s1 e ih => exact ih ((canonical_spillWrite h).of_ok e :)
  | case5 s va v0 v1 v2 v3 vs _ s1 e ih => exact ih ((canonical_spillWrite h).of_ok e :)
  | case7 s va v vs _ s1 e ih => exact ih ((canonical_spillWrite h).of_ok e :)

theorem canonical_spillPoison {g : Image} {a : ℕ} (h : Canonical s) : Canonical (s.spillPoison g a) := by
  unfold State.spillPoison
  refine keeps_foldl h fun _ _ hk => ?_
  split
  · next e => exact Memory.wf_setPoison ((canonical_translate hk).of_ok e :) _
  · exact hk

theorem canonical_spillFrom {g : Image} {lo : ℕ} (h : Canonical s) : Either Stateless CanonicalFst (s.spillFrom g lo) := by
  unfold State.spillFrom
  split
  · exact .error trivial
  · split
    · exact .error trivial
    · split
      · exact .error trivial
      · next e2 => exact .ok (canonical_modStrand (canonical_spillPoison ((canonical_spillWrites h).of_ok e2 :)))

theorem canonical_spillImage {g : Image} (h : Canonical s) : Either Stateless CanonicalFst (s.spillImage g) := canonical_spillFrom h

theorem canonical_overflow {g : Image} {site needed : ℕ} {only : Option ℕ} {cls : ℕ} (h : Canonical s) :
    Either Stateless Canonical (s.overflow g site needed only cls) := by
  unfold State.overflow
  split
  · exact .error trivial
  · next e => exact .ok (canonical_modSite ((canonical_spillImage h).of_ok e :))

theorem canonical_parseFor {c : ℕ} {d : List ℕ} (h : Canonical s) : Either CanonicalLoadErr CanonicalFst (s.parseFor c d) := by
  unfold State.parseFor
  split
  · next e =>
      split
      · exact .error .bad
      · exact .ok ((canonical_freshWord h).carry e :)

theorem canonical_loadImage {asid va c : ℕ} (h : Canonical s) : Either CanonicalLoadErr CanonicalFst (s.loadImage asid va c) := by
  unfold State.loadImage
  split
  · exact .error .poison
  · next e =>
      split
      · exact .error .poison
      · next e1 =>
          split
          · exact .error (.wait ((canonical_devReads ((canonical_devRead h).of_some e :)).of_some e1 :))
          · exact canonical_parseFor ((canonical_devReads ((canonical_devRead h).of_some e :)).of_some e1 :)

/-! ### Service entries for an image that is not resumed (R34, R139, R333) -/

theorem canonical_pushEntry {c : ℕ} {e : SvcEntry} (h : Canonical s) : Canonical (s.pushEntry c e) := canonical_modCore h

theorem canonical_reserveFor {c asid sid : ℕ} (h : Canonical s) : Canonical (s.reserveFor c asid sid) := canonical_modCore h

theorem canonical_reserveU {c sid : ℕ} (h : Canonical s) : Canonical (s.reserveU c sid) := canonical_modCore h

theorem canonical_refuseImage_refused {c asid : ℕ} {sid image : ℕ} {pc : Word} {why : SvcEntry → SvcEntry} (h : Canonical s) :
    Canonical (State.refuseImage.refused s c asid sid image pc why) := by
  unfold State.refuseImage.refused
  extract_lets base s1
  have hs1 : Canonical s1 := by unfold s1; exact canonical_pushEntry (canonical_modStrand h)
  split
  · exact canonical_reserveFor hs1
  · exact hs1

theorem canonical_refuseImage {c asid : ℕ} {sid image : ℕ} {pc : Word} {x : LoadErr} (h : Canonical s) (hx : CanonicalLoadErr x) :
    Canonical (s.refuseImage c asid sid image pc x) := by
  unfold State.refuseImage
  split
  · exact hx.of_wait
  · exact canonical_refuseImage_refused h
  · exact canonical_refuseImage_refused h

/-! ### Arrival queues (R226) -/

theorem canonical_parkImage {g : Image} {st : ParkState} (h : Canonical s) : Either Stateless CanonicalFst (s.parkImage g st) := by
  unfold State.parkImage
  split
  · exact .ok h
  · split
    · exact .error trivial
    · next e => exact .ok ((canonical_spillFrom h).of_ok e :)

theorem canonical_unpark {c : ℕ} {p : Parked} (h : Canonical s) : Either CanonicalLoadErr CanonicalFst (s.unpark c p) := by
  unfold State.unpark
  split
  · split
    · exact .error .poison
    · next e2 =>
        split
        · exact .error (.wait ((canonical_devReads h).of_some e2 :))
        · split
          · next e4 => exact .error ((canonical_parseFor ((canonical_devReads h).of_some e2 :)).of_error e4 :)
          · next e3 => exact .ok (canonical_modStrand ((canonical_parseFor ((canonical_devReads h).of_some e2 :)).of_ok e3 :))
  · exact .ok h

theorem canonical_refusePark {c : ℕ} {p : Parked} {err : LoadErr} (h : Canonical s) (herr : CanonicalLoadErr err) :
    Canonical (s.refusePark c p err) := by
  unfold State.refusePark
  split
  · exact herr.of_wait
  · exact canonical_refuseImage (canonical_devWrites h) herr
  · exact h

/-! ### Entering and leaving the U context -/

theorem canonical_enterU {c : ℕ} {g : Image} (h : Canonical s) : Canonical (s.enterU c g) := by
  unfold State.enterU
  extract_lets asid change back kept src ctx colour s0 s1
  have hs0 : Canonical s0 := h.update rfl
  have hs1 : Canonical s1 := by unfold s1; exact canonical_modCore hs0
  exact canonical_modStrand (canonical_flushSlots hs1)

theorem canonical_nextU {c : ℕ} (h : Canonical s) : Canonical (s.nextU c) := by
  unfold State.nextU
  split
  · exact h
  · split
    · exact h
    · split
      · exact h
      · extract_lets s1
        have hs1 : Canonical s1 := by unfold s1; exact canonical_modCore h
        split
        · next e2 => exact canonical_enterU ((canonical_unpark hs1).of_ok e2 :)
        · next e3 => exact canonical_refusePark hs1 ((canonical_unpark hs1).of_error e3 :)

theorem canonical_leaveU {c : ℕ} (h : Canonical s) : Canonical (s.leaveU c) := by
  unfold State.leaveU
  extract_lets src s1
  have hs1 : Canonical s1 := by unfold s1; exact canonical_modCore h
  exact canonical_refreshOwner (canonical_nextU hs1)

theorem canonical_park {c : ℕ} {g : Image} {st : ParkState} (h : Canonical s) : Either Stateless Canonical (s.park c g st) := by
  unfold State.park
  split
  · exact .error trivial
  · next e => exact .ok (canonical_modCore ((canonical_parkImage h).of_ok e :))

theorem canonical_arrive {c : ℕ} {g : Image} (h : Canonical s) : IfAny Canonical (s.arrive c g) := by
  unfold State.arrive
  split
  · exact .some (canonical_enterU h)
  · split
    · split
      · next e1 => exact .some (canonical_nextU ((canonical_park h).of_ok e1 :))
      · exact .none
    · exact .none

theorem canonical_seat {c : ℕ} {g : Image} {crew : Bool} (h : Canonical s) : IfAny Canonical (s.seat c g crew) := by
  unfold State.seat
  split
  · exact .some (canonical_enterU h)
  · exact canonical_arrive h

/-! ### Records, runs and jobs -/

theorem canonical_modQueue {asid q : ℕ} {f : LQueue → LQueue} (h : Canonical s) : Canonical (s.modQueue asid q f) := canonical_modSpace h

theorem canonical_recordStatus {asid va : ℕ} (h : Canonical s) : IfAny CanonicalFst (s.recordStatus asid va) := by
  unfold State.recordStatus
  refine IfAny.bind (canonical_devRead h) fun _ hk => ?_
  split
  · exact .some hk

theorem canonical_recordWait {asid va : ℕ} (h : Canonical s) : IfAny CanonicalFst (s.recordWait asid va) := by
  unfold State.recordWait
  refine IfAny.bind (canonical_devRead h) fun _ hk => ?_
  split
  · exact .some hk

theorem canonical_casStatus {asid va : ℕ} {old new : ℕ} (h : Canonical s) : IfAny Canonical (s.casStatus asid va old new) := by
  unfold State.casStatus
  refine IfAny.bind (canonical_devRead h) fun _ hk => ?_
  split
  · next x _ _ =>
      extract_lets src
      split
      · exact .none
      · exact canonical_devWrite hk

theorem canonical_makeReady {asid va origin : ℕ} (h : Canonical s) : Canonical (s.makeReady asid va origin) := by
  unfold State.makeReady
  split
  · exact h
  · next e =>
      split
      · exact ((canonical_recordWait h).of_some e :)
      · split
        · exact ((canonical_recordWait h).of_some e :)
        · next e1 => exact canonical_modQueue ((canonical_casStatus ((canonical_recordWait h).of_some e :)).of_some e1 :)

theorem canonical_modRun {id : ℕ} {f : Run → Run} (h : Canonical s) : Canonical (s.modRun id f) := h.update rfl

theorem canonical_releaseRun {r : Run} (h : Canonical s) :
    Canonical (s.releaseRun r) := keeps_foldl (canonical_modRun h) (fun _ _ hk => canonical_makeReady hk)

theorem canonical_completeJob {j : Job} {abnormal : Bool} (h : Canonical s) : Canonical (s.completeJob j abnormal) := by
  unfold State.completeJob
  split
  · exact h
  · exact canonical_joinUpdate h

theorem canonical_endJob {asid va : ℕ} {abnormal : Bool} (h : Canonical s) : Canonical (s.endJob asid va abnormal) := by
  unfold State.endJob
  extract_lets mine
  split
  · exact h
  · exact canonical_completeJob (h.update rfl)

theorem canonical_runRecordEnd {r : Run} {va : ℕ} {how : RecEnd} (h : Canonical s) : Canonical (s.runRecordEnd r va how) := by
  unfold State.runRecordEnd
  extract_lets idx s1 s2
  have hs1 : Canonical s1 := by unfold s1; exact canonical_modRun h
  have hs2 : Canonical s2 := by unfold s2; exact canonical_joinUpdate hs1
  split
  · exact canonical_endJob hs2
  · exact hs2

theorem canonical_asReserved {asid va : ℕ} (h : Canonical s) : Canonical (s.asReserved asid va) := h.update rfl

theorem canonical_unreserve {asid va : ℕ} (h : Canonical s) : Canonical (s.unreserve asid va) := by
  unfold State.unreserve
  split
  · exact h
  · exact keeps_foldl (canonical_asReserved h) (fun _ _ hk => canonical_nextU hk)

theorem canonical_unlist {asid va : ℕ} (h : Canonical s) : Canonical (s.unlist asid va) := canonical_modSpace h

theorem canonical_cancelOne {asid va : ℕ} (h : Canonical s) : CanonicalFst (s.cancelOne asid va) := by
  unfold State.cancelOne
  split
  · exact h
  · next e =>
      extract_lets s2
      have hs2 : Canonical s2 := by
        unfold s2
        exact canonical_unreserve (canonical_unlist ((IfAny.or (canonical_casStatus h) (canonical_casStatus h)).of_some e :))
      split
      · exact canonical_runRecordEnd hs2
      · exact canonical_endJob hs2

theorem canonical_unactive {asid va : ℕ} (h : Canonical s) : Canonical (s.unactive asid va) := h.update rfl

theorem canonical_dependentsAt {asid va : ℕ} (h : Canonical s) : IfAny CanonicalFst (s.dependentsAt asid va) := by
  unfold State.dependentsAt
  split
  · exact .some h
  · refine IfAny.bind (canonical_devRead h) fun _ hk => ?_
    split
    · refine IfAny.bind (canonical_devRead hk) fun _ hk1 => ?_
      split
      · exact .some hk1

theorem canonical_dependents {asid va : ℕ} (h : Canonical s) : CanonicalFst (s.dependents asid va) := by
  unfold State.dependents
  split
  · exact h
  · next e => exact IfAny.getD (canonical_devReads ((canonical_dependentsAt h).of_some e :)) ((canonical_dependentsAt h).of_some e :)

theorem canonical_cancelWalk {asid n : ℕ} {l : List ℕ} (h : Canonical s) : Canonical (s.cancelWalk asid n l) := by
  fun_induction State.cancelWalk s asid n l with
  | case1 => exact h
  | case2 => exact h
  | case3 s fuel va rest next s1 s2 vs e2 e ih => exact ih ((canonical_dependents ((canonical_cancelOne h).carry e :)).carry e2 :)
  | case4 s fuel va rest s1 did e _ ih => exact ih ((canonical_cancelOne h).carry e :)

theorem canonical_serialNext {asid : ℕ} {w : List Run} {how : RecEnd} (h : Canonical s) : Canonical (s.serialNext asid w how) := by
  unfold State.serialNext
  split
  · exact keeps_foldl h (fun _ _ hk => canonical_releaseRun hk)
  · exact canonical_cancelWalk h

theorem canonical_freeze {asid va origin : ℕ} (h : Canonical s) : Canonical (s.freeze asid va origin) := by
  unfold State.freeze
  split
  · exact h
  · extract_lets d s1
    have hs1 : Canonical s1 := by unfold s1; exact canonical_modQueue h
    split
    · next e1 _ =>
        extract_lets t1
        have ht1 : Canonical t1 := by
          unfold t1
          split
          · exact IfAny.getD (canonical_devWrite ((canonical_devRead hs1).of_some e1 :)) ((canonical_devRead hs1).of_some e1 :)
          · exact ((canonical_devRead hs1).of_some e1 :)
        split
        · exact IfAny.getD (canonical_devWrite ht1) ht1
        · exact ht1
    · exact hs1

theorem canonical_thaw {asid q : ℕ} (h : Canonical s) : Canonical (s.thaw asid q) := by
  unfold State.thaw
  split
  · exact h
  · split
    · split
      · exact IfAny.getD (canonical_devWrite (canonical_modQueue h)) h
      · exact h
    · exact h

theorem canonical_faultQueue {asid va origin : ℕ} (h : Canonical s) : Canonical (s.faultQueue asid va origin) := by
  unfold State.faultQueue
  split
  · next e => exact canonical_cancelWalk ((canonical_dependents (canonical_event (canonical_freeze h))).carry e :)

theorem canonical_countDown {asid origin : ℕ} {l : List ℕ} (h : Canonical s) : CanonicalFst (s.countDown asid origin l) := by
  induction l generalizing s asid origin with
  | nil =>
    rw [State.countDown]
    exact h
  | cons q t ih =>
    rw [State.countDown]
    split
    · split
      · next e => exact ((ih (canonical_cbfmtEvent h)).carry e :)
    · split
      · exact ih h
      · next e =>
          extract_lets w s2 zero s3
          have hs2 : Canonical s2 := IfAny.getD (canonical_devWrite ((canonical_devRead h).of_some e :)) ((canonical_devRead h).of_some e :)
          have hs3 : Canonical s3 := by
            unfold s3
            split
            · split
              · exact canonical_makeReady hs2
              · exact hs2
            · exact hs2
          split
          · next e1 => exact ((ih hs3).carry e1 :)

theorem canonical_completeRecord {asid va issuer : ℕ} {faulted : Bool} (h : Canonical s) :
    IfAny CanonicalFst (s.completeRecord asid va issuer faulted) := by
  unfold State.completeRecord
  split
  · exact .none
  · next s1 e =>
      extract_lets how origin next
      split
      · next e1 =>
          extract_lets s3 s4
          have hs3 : Canonical s3 := by
            unfold s3
            refine canonical_unactive ?_
            refine (((?_ : CanonicalFst
  (if faulted = true then (s1.faultQueue asid va origin, 0)
  else
    match s1.dependents asid va with
    | (t, deps) => t.countDown asid origin deps)).carry e1) :)
            split
            · exact canonical_faultQueue ((canonical_casStatus h).of_some e :)
            · split
              · next e2 => exact canonical_countDown ((canonical_dependents ((canonical_casStatus h).of_some e :)).carry e2 :)
          have hs4 : Canonical s4 := by
            unfold s4
            split
            · exact canonical_serialNext (canonical_runRecordEnd hs3)
            · exact canonical_endJob hs3
          exact .some hs4

/-! ### Crews (R192, R215) -/

theorem canonical_leaveCrew {id sid : ℕ} {abnormal : Bool} (h : Canonical s) : CanonicalFst (s.leaveCrew id sid abnormal) := by
  unfold State.leaveCrew
  split
  · exact h
  · extract_lets i w1 last
    split
    · exact h.update rfl
    · exact canonical_modCrew h

/-! ### The end of a strand (R188) -/

theorem canonical_disband {c : ℕ} (h : Canonical s) : Canonical (s.disband c) := by
  unfold State.disband
  split
  · extract_lets followers free s1 s2
    have hs1 : Canonical s1 := by
      unfold s1
      refine keeps_foldl h fun _ _ hk => ?_
      extract_lets src
      exact Memory.wf_zero hk _ _
    have hs2 : Canonical s2 := by unfold s2; exact canonical_modCore hs1
    exact keeps_foldl hs2 (fun _ _ hk => canonical_nextU hk)
  · exact h

theorem canonical_dropOps {p : EngineOp → Bool} (h : Canonical s) :
    Canonical (s.dropOps p) := keeps_foldl (h.update rfl) (fun _ _ hk => canonical_unpin hk)

theorem canonical_cancelTokens {asid sid : ℕ} (h : Canonical s) : Canonical (s.cancelTokens asid sid) := by
  unfold State.cancelTokens
  extract_lets s1
  have hs1 : Canonical s1 := by unfold s1; exact canonical_dropOps h
  exact hs1.update rfl

theorem canonical_finishStrand {asid sid : ℕ} {abnormal : Bool} (h : Canonical s) : Canonical (s.finishStrand asid sid abnormal) := by
  unfold State.finishStrand
  split
  · exact h
  · next t _ =>
      split
      · next e1 =>
          extract_lets s2 s3
          have hs2 : Canonical s2 := by
            unfold s2
            split
            · refine IfAny.getD ?_ ?_
              · refine IfAny.map ?_ (fun _ hk => hk)
                refine canonical_completeRecord ?_
                refine (((?_ : CanonicalFst
  (match t.crew with
  | some id => s.leaveCrew id sid abnormal
  | none => (s, true, abnormal))).carry e1) :)
                split
                · exact canonical_leaveCrew h
                · exact h
              · refine (((?_ : CanonicalFst
  (match t.crew with
  | some id => s.leaveCrew id sid abnormal
  | none => (s, true, abnormal))).carry e1) :)
                split
                · exact canonical_leaveCrew h
                · exact h
            · refine (((?_ : CanonicalFst
  (match t.crew with
  | some id => s.leaveCrew id sid abnormal
  | none => (s, true, abnormal))).carry e1) :)
              split
              · exact canonical_leaveCrew h
              · exact h
          have hs3 : Canonical s3 := by
            unfold s3
            split
            · exact hs2
            · exact canonical_joinUpdateAt hs2
          exact hs3.update rfl

theorem canonical_frameAt {asid core va : ℕ} (h : Canonical s) : IfAny CanonicalFst (s.frameAt asid core va) := by
  unfold State.frameAt
  split
  · split
    · exact .some (h.update rfl)
    · next e1 =>
        split
        · split
          · exact .none
          · exact .some ((canonical_awaitZeroing h).of_some e1 :)
        · exact .none
  · exact canonical_devReads h

theorem canonical_unwind {asid core : ℕ} {origin n n1 : ℕ} (h : Canonical s) : Canonical (s.unwind asid core origin n n1) := by
  induction n generalizing s asid core origin n1 with
  | zero =>
    rw [State.unwind]
    exact h
  | succ k ih =>
    rw [State.unwind]
    split
    · exact canonical_cbfmtEvent h
    · next e =>
        extract_lets w s21
        have hs21 : Canonical s21 := by
          unfold s21
          split
          · exact ((canonical_frameAt h).of_some e :)
          · exact canonical_joinUpdateAt ((canonical_frameAt h).of_some e :)
        split
        · exact ((canonical_frameAt h).of_some e :)
        · split
          · exact canonical_cbfmtEvent ((canonical_frameAt h).of_some e :)
          · exact ih hs21

theorem canonical_killStrand {asid sid : ℕ} {k : Ctx} (h : Canonical s) : Canonical (s.killStrand asid sid k) := by
  unfold State.killStrand
  extract_lets origin core s1 s2
  have hs1 : Canonical s1 := by unfold s1; exact canonical_cancelTokens h
  have hs2 : Canonical s2 := by unfold s2; exact canonical_unwind hs1
  exact canonical_finishStrand hs2

theorem canonical_newStrand {asid : ℕ} {t : ℕ → Strand} (h : Canonical s) : CanonicalFst (s.newStrand asid t) := by
  unfold State.newStrand
  extract_lets used sid s1
  have hs1 : Canonical s1 := by unfold s1; exact canonical_modSpace h
  exact hs1.update rfl

end Sys2Proof.Proofs
end


section
/-! SUPPORT. Every function of a step keeps memory canonical (O26): stopping, holding and moving strands, traps, and the running of an instruction. -/

namespace Sys2Proof.Proofs
open Sys2Proof.Machine

variable {s : State}

/-! ### Order against queued accesses (R111, R136, R250, R252) -/

theorem canonical_orderWait {oc : BitVec 4} {release : Bool} {ranges : List (ℤ × ℕ)} :
    Either CanonicalStop Stateless (orderWait oc release ranges s) := by
  unfold orderWait
  split
  · exact .error .stall
  · exact .ok trivial

/-! ### Poisoned register elements (R381) -/

theorem canonical_poisonQfault {elem : ℕ} : CanonicalStop (poisonQfault elem) := .trap

/-! ### Preconditions for capturing a strand -/

theorem canonical_modPersists {f : List (ℕ × ℕ) → List (ℕ × ℕ)} (h : Canonical s) : Canonical (s.modPersists f) := by
  unfold State.modPersists
  split
  · exact canonical_modStrand h
  · exact canonical_modCore h

/-! ### Trap entry (R204) -/

theorem canonical_logConsumed {asid c : ℕ} {t : Trap} (h : Canonical s) : Canonical (s.logConsumed asid c t) := by
  unfold State.logConsumed
  split
  · exact h
  · exact canonical_logRecord h

theorem canonical_leaveRing {asid sid : ℕ} (h : Canonical s) : Canonical (s.leaveRing asid sid) := by
  unfold State.leaveRing
  split
  · exact canonical_modSpace h
  · exact h

theorem canonical_onHold {asid sid : ℕ} (h : Canonical s) : Canonical (s.onHold asid sid) := by
  unfold State.onHold
  extract_lets crew
  exact canonical_leaveRing (canonical_modStrand h)

theorem canonical_holdU {c : ℕ} {g : Image} {t : Trap} {sepc : Word} {gangw : Bool} (h : Canonical s) :
    Canonical (s.holdU c g t sepc gangw) := by
  unfold State.holdU
  extract_lets asid sid src
  split
  · exact canonical_onHold (canonical_pushEntry (canonical_modCore h))
  · next e =>
      extract_lets s2
      have hs2 : Canonical s2 := by unfold s2; exact canonical_onHold (canonical_pushEntry (canonical_modStrand ((canonical_spillImage h).of_ok e :)))
      split
      · exact canonical_reserveU hs2
      · exact canonical_leaveU hs2

theorem canonical_interruptLong {c : ℕ} (h : Canonical s) : Canonical (s.interruptLong c) := by
  unfold State.interruptLong
  extract_lets s1
  have hs1 : Canonical s1 := by unfold s1; exact canonical_unpin (canonical_unpin (canonical_unpin h))
  split
  · exact canonical_finishMq hs1
  · exact canonical_finishMq (canonical_modCore hs1)

/-! ### Streaming (R230 to R232, R331) -/

theorem canonical_startMove {c dst : ℕ} {g : Image} {kind : MoveKind} {toU : Bool} {needed : ℕ} (h : Canonical s) :
    Canonical (s.startMove c dst g kind toU needed) := by
  unfold State.startMove
  split
  · next e =>
      extract_lets s2
      have hs2 : Canonical s2 := canonical_modCore ((canonical_freshId h).carry e :)
      exact hs2.update rfl

theorem canonical_spillU {c : ℕ} {g : Image} {needed site : ℕ} (h : Canonical s) :
    Either Stateless Canonical (s.spillU c g needed site) := by
  unfold State.spillU
  split
  · exact .error trivial
  · next e => exact .ok (canonical_leaveU ((canonical_overflow h).of_ok e :))

theorem canonical_holdGang {c n info : ℕ} (h : Canonical s) : Canonical (s.holdGang c n info) := by
  unfold State.holdGang
  extract_lets t s1 g s2
  have hs1 : Canonical s1 := by unfold s1; exact canonical_disband h
  have hs2 : Canonical s2 := by unfold s2; exact canonical_holdU hs1
  exact canonical_modStrand hs2

theorem canonical_stopOne {c info : ℕ} {extra site cls : ℕ} (h : Canonical s) :
    Either Stateless Canonical (s.stopOne c info extra site cls) := by
  unfold State.stopOne
  extract_lets s1 g
  have hs1 : Canonical s1 := by unfold s1; exact canonical_interruptLong h
  split
  · exact .ok (canonical_holdGang hs1)
  · split
    · exact .error trivial
    · next e => exact .ok (canonical_leaveU ((canonical_overflow hs1).of_ok e :))

theorem canonical_stopCrew {w : Crew} {target info extra : ℕ} (h : Canonical s) :
    Either Stateless Canonical (s.stopCrew w target info extra) := by
  unfold State.stopCrew
  extract_lets s0 s1
  have hs0 : Canonical s0 := by unfold s0; exact canonical_modCrew h
  have hs1 : Canonical s1 := hs0.update rfl
  refine Either.foldlM hs1 fun _ _ hk => ?_
  extract_lets own
  exact canonical_stopOne hk

theorem canonical_stopU {c info : ℕ} (h : Canonical s) : Either Stateless Canonical (s.stopU c info) := by
  unfold State.stopU
  extract_lets k
  split
  · exact canonical_stopCrew h
  · exact canonical_stopOne h

theorem canonical_streamMigclass {c needed : ℕ} (h : Canonical s) : IfAny (Either Stateless Canonical) (s.streamMigclass c needed) := by
  unfold State.streamMigclass
  extract_lets g0 g mask asid sid able
  split
  · exact .none
  · split
    · extract_lets cands
      split
      · exact .some (.ok (canonical_startMove h))
      · split
        · split
          · exact .some (canonical_stopCrew h)
          · exact .some (.ok h)
        · exact .none
    · split
      · exact .some (.ok (canonical_startMove h))
      · split
        · exact .some (canonical_spillU h)
        · exact .none

/-! ### Taking a trap -/

theorem canonical_holdTrap {t : Trap} (h : Canonical s) : Canonical (holdTrap t s) := by
  unfold holdTrap
  extract_lets c k s1 pc
  have hs1 : Canonical s1 := by unfold s1; exact canonical_logConsumed (canonical_interruptLong h)
  split
  · next x _ _ _ e =>
      extract_lets g
      refine canonical_holdU ?_
      refine (((?_ : CanonicalMid
  (match k.gang with
  | Gang.leader n => (gangTrap t n, s1.disband c, true)
  | x => (t, s1, false))).carry e) :)
      split
      · exact canonical_disband hs1
      · exact hs1

theorem canonical_takeTrapU {t : Trap} (h : Canonical s) : Canonical (takeTrapU t s) := by
  unfold takeTrapU
  split
  · split
    · next e1 => exact ((((canonical_streamMigclass (canonical_interruptLong h)).of_some e1).of_ok rfl) :)
    · exact canonical_holdTrap h
    · exact canonical_holdTrap h
  · exact canonical_holdTrap h

theorem canonical_promoteStrand {c : ℕ} (h : Canonical s) : CanonicalFst (s.promoteStrand c) := by
  unfold State.promoteStrand
  extract_lets k origin own
  exact canonical_newStrand (canonical_modCore h)

theorem canonical_endHandler {c sid : ℕ} (h : Canonical s) : Canonical (s.endHandler c sid) := by
  unfold State.endHandler
  extract_lets src s2
  have hs2 : Canonical s2 := by unfold s2; exact canonical_modCore h
  exact hs2.update rfl

theorem canonical_promote {t : Trap} {resume : Word} (h : Canonical s) : Canonical (promote t s resume) := by
  unfold promote
  extract_lets c k t1 pc
  split
  · next e =>
      extract_lets g g1 s2
      have hs2 : Canonical s2 := canonical_endHandler ((canonical_promoteStrand (canonical_logConsumed h)).carry e :)
      split
      · exact canonical_pushEntry (canonical_modCore hs2)
      · next e1 => exact canonical_pushEntry (canonical_modStrand ((canonical_spillImage hs2).of_ok e1 :))

theorem canonical_takeNested {t : Trap} (h : Canonical s) : Canonical (takeNested t s) := by
  unfold takeNested
  extract_lets pc
  exact canonical_modCore (canonical_logConsumed h)

theorem canonical_trapNow {t : Trap} (h : Canonical s) : Canonical (trapNow t s) := by
  unfold trapNow
  split
  · exact canonical_takeTrapU h
  · split
    · exact canonical_takeNested h
    · exact canonical_promote h
    · exact h

theorem canonical_readied {t : Trap} (h : Canonical s) : Canonical (s.readied t) := by
  unfold State.readied
  split
  · split
    · exact canonical_modCx h
    · exact h
  · exact canonical_askedBy h

theorem canonical_takeTrap {t : Trap} (h : Canonical s) : Canonical (takeTrap t s) := by
  unfold takeTrap
  split
  · exact canonical_readied h
  · exact canonical_trapNow h

theorem canonical_takeQfault {c : ℕ} {f : VFault} {e : VEntry} (h : Canonical s) : Canonical (takeQfault s c f e) := by
  unfold takeQfault
  extract_lets info t s0 s1 k s2
  have hs0 : Canonical s0 := h.update rfl
  have hs1 : Canonical s1 := by unfold s1; exact canonical_modCore hs0
  have hs2 : Canonical s2 := by unfold s2; exact canonical_logConsumed (canonical_interruptLong hs1)
  split
  · split
    · next e2 =>
        extract_lets g
        refine canonical_holdU ?_
        refine (CanonicalMid.carry ?_ e2 :)
        split
        · exact canonical_disband hs2
        · exact hs2
  · split
    · exact canonical_takeNested (canonical_modCore hs1)
    · exact canonical_promote hs1

/-! ### Health (R379, R386) -/

theorem canonical_reassess (h : Canonical s) : Canonical s.reassess := by
  unfold State.reassess
  split
  · exact h.update rfl
  · exact h

theorem canonical_showFenced {c : ℕ} (h : Canonical s) : Canonical (s.showFenced c) := by
  unfold State.showFenced
  split
  · exact h
  · extract_lets a src
    exact Memory.wf_write h _ _ _

/-! ### Fencing a core (R333, R384) -/

theorem canonical_moveLost {m : Move} (h : Canonical s) : Canonical (s.moveLost m) := by
  unfold State.moveLost
  split
  · exact canonical_pushEntry h
  · exact h

theorem canonical_dropPieces {k : Core} (h : Canonical s) :
    Canonical (s.dropPieces k) := keeps_foldl h (fun _ _ hk => canonical_modStrand hk)

theorem canonical_fence {c : ℕ} (h : Canonical s) : Canonical (s.fence c) := by
  unfold State.fence
  extract_lets k other lost both gone s1 src s2 s21 src1 s3 s31 s4
  have hs1 : Canonical s1 := by unfold s1; exact canonical_dropPieces (canonical_unpin (canonical_unpin (canonical_unpin (canonical_disband h))))
  have hs2 : Canonical s2 := by unfold s2; exact canonical_modCore hs1
  have hs21 : Canonical s21 := by unfold s21; exact canonical_dropOps hs2
  have hs3 : Canonical s3 := hs21.update rfl
  have hs31 : Canonical s31 := by unfold s31; exact keeps_foldl (canonical_logRecord hs3) (fun _ _ hk => canonical_moveLost hk)
  have hs4 : Canonical s4 := by
    unfold s4
    split
    · exact hs31
    · exact canonical_modCore hs31
  exact canonical_reassess (canonical_showFenced hs4)

/-! ### Service entry and return (R205, R206, R409) -/

theorem canonical_startService {c : ℕ} {e : SvcEntry} (h : Canonical s) : Canonical (startService s c e) := canonical_modCore h

theorem canonical_freeA {c : ℕ} (h : Canonical s) : Canonical (s.freeA c) := by
  unfold State.freeA
  extract_lets s1
  have hs1 : Canonical s1 := by unfold s1; exact canonical_modCore h
  exact hs1.update rfl

theorem canonical_listStrand {g : Image} {c : ℕ} (h : Canonical s) : Either Stateless Canonical (s.listStrand g c) := by
  unfold State.listStrand
  extract_lets crew
  exact canonical_overflow h

theorem canonical_releaseRegs {r : ℕ} {e : SvcEntry} {priv : Bool} (h : Canonical s) : Canonical (s.releaseRegs r e priv) := by
  unfold State.releaseRegs
  extract_lets s1 g
  have hs1 : Canonical s1 := by unfold s1; exact canonical_modCore h
  split
  · exact hs1
  · split
    · next e1 => exact canonical_leaveU (canonical_modStrand ((canonical_listStrand hs1).of_ok e1 :))
    · exact canonical_pushEntry h

theorem canonical_releaseKept {c : ℕ} {e : SvcEntry} {g0 : Image} {priv : Bool} (h : Canonical s) :
    Canonical (s.releaseKept c e g0 priv) := by
  unfold State.releaseKept
  extract_lets src g s1 go
  have hs1 : Canonical s1 := by unfold s1; exact canonical_modCore h
  have hgo : Either Stateless Canonical go := by
    unfold go
    split
    · exact Either.map (canonical_listStrand hs1) (fun _ hk => canonical_modStrand hk)
    · split
      · exact .ok (canonical_enterU hs1)
      · split
        · exact Either.map (canonical_park hs1) (fun _ hk => canonical_nextU hk)
        · exact canonical_listStrand hs1
  clear_value go
  split
  · exact (hgo.of_ok rfl)
  · exact canonical_pushEntry h

theorem canonical_releaseHeld {c : ℕ} {e : SvcEntry} (h : Canonical s) : Canonical (s.releaseHeld c e) := by
  unfold State.releaseHeld
  extract_lets priv r
  split
  · exact canonical_releaseRegs h
  · split
    · exact canonical_releaseKept h
    · split
      · exact h
      · split
        · exact h
        · split
          · exact canonical_pushEntry h
          · exact canonical_pushEntry h
          · next e4 => exact (((canonical_loadImage h).of_error e4).of_wait :)
          · next e4 =>
              extract_lets src g1 s2 toList
              have hs2 : Canonical s2 := canonical_modStrand ((canonical_loadImage h).of_ok e4 :)
              have htoList : ∀ (s2 : State), Canonical s2 → Canonical (toList s2) := by
                intro _ hk
                unfold toList
                split
                · next e5 => exact ((canonical_listStrand hk).of_ok e5 :)
                · exact canonical_pushEntry h
              clear_value r
              split
              · split
                · exact canonical_leaveU (htoList _ (canonical_modCore hs2))
                · exact canonical_enterU hs2
              · split
                · exact htoList _ hs2
                · split
                  · next e5 => exact canonical_nextU ((canonical_park hs2).of_ok e5 :)
                  · exact canonical_pushEntry h

theorem canonical_spillCtx {asid a : ℕ} (h : Canonical s) : CanonicalFst (s.spillCtx asid a) := by
  unfold State.spillCtx
  split
  · next e => exact ((canonical_devReads h).of_some e :)
  · exact h

theorem canonical_heldCtx {asid sid : ℕ} (h : Canonical s) : CanonicalFst (s.heldCtx asid sid) := by
  unfold State.heldCtx
  split
  · exact canonical_spillCtx h
  · split <;> exact h

theorem canonical_withdraw {asid sid : ℕ} (h : Canonical s) : Canonical (s.withdraw asid sid) := canonical_mapCores h

theorem canonical_awayCtx {asid sid : ℕ} (h : Canonical s) : CanonicalFst (s.awayCtx asid sid) := by
  unfold State.awayCtx
  extract_lets mine
  split
  · exact h
  · split
    · exact canonical_spillCtx h
    · exact h

theorem canonical_forget {asid sid : ℕ} (h : Canonical s) : Canonical (s.forget asid sid) := by
  unfold State.forget
  extract_lets mine s1 s2
  have hs1 : Canonical s1 := by unfold s1; exact canonical_mapCores (canonical_withdraw h)
  have hs2 : Canonical s2 := hs1.update rfl
  exact canonical_leaveRing hs2

theorem canonical_endKilled {c : ℕ} (h : Canonical s) : Canonical (s.endKilled c) := by
  unfold State.endKilled
  extract_lets x
  exact canonical_leaveU (canonical_disband (canonical_killStrand (canonical_forget h)))

theorem canonical_killOne {asid sid : ℕ} (h : Canonical s) : Canonical (s.killOne asid sid) := by
  unfold State.killOne
  split
  · extract_lets s1
    have hs1 : Canonical s1 := by unfold s1; exact canonical_interruptLong h
    split
    · exact canonical_endKilled hs1
    · exact canonical_modStrand hs1
  · extract_lets held
    split
    · next e1 =>
        extract_lets s1
        have hs1 : Canonical s1 := by
          unfold s1
          refine canonical_killStrand ?_
          refine canonical_forget ?_
          refine (CanonicalFst.carry ?_ e1 :)
          split
          · exact canonical_heldCtx h
          · exact canonical_awayCtx h
        split
        · exact canonical_leaveU (canonical_modCore hs1)
        · exact keeps_foldl hs1 (fun _ _ hk => canonical_refreshOwner hk)

theorem canonical_killAll {asid sid : ℕ} (h : Canonical s) : Canonical (s.killAll asid sid) := by
  unfold State.killAll
  split
  · refine keeps_foldl h fun _ _ hk => ?_
    split
    · exact canonical_killOne hk
    · exact hk
  · exact canonical_killOne h

theorem canonical_releaseOp {id : ℕ} {kill : Bool} (h : Canonical s) : Canonical (s.releaseOp id kill) := canonical_modOp h

theorem canonical_serviceReturn {c : ℕ} {kill : Bool} (h : Canonical s) : Canonical (serviceReturn s c kill) := by
  unfold serviceReturn
  split
  · extract_lets s1
    have hs1 : Canonical s1 := by unfold s1; exact canonical_freeA h
    split
    · exact canonical_releaseOp hs1
    · split
      · exact hs1
      · split
        · exact canonical_killAll hs1
        · exact canonical_releaseHeld hs1
  · exact h

/-! ### Program counter (R16, R71, R79) -/

theorem canonical_advance (h : Canonical s) : Canonical s.advance := canonical_modCx h

theorem canonical_jump {t : Word} (h : Canonical s) : Canonical (s.jump t) := canonical_modCx h

theorem canonical_retX {d : BitVec 5} {v : Word} (h : Canonical s) : Canonical (s.retX d v) := canonical_modCx h

/-! ### Fetch (R16, R68, R71) -/

theorem canonical_fetch (h : Canonical s) : Either CanonicalStop Canonical s.fetch := by
  unfold State.fetch
  extract_lets pc va ill
  have hill : ∀ (r : ℕ) (s : State), Canonical s → Either CanonicalStop Canonical (ill r s) := fun _ _ hk => .error (.trapIn hk)
  split
  · exact .error .stall
  · split
    · exact hill _ _ h
    · split
      · split
        · split
          · exact hill _ _ h
          · exact .ok h
        · exact .error .stall
      · split
        · next e2 => exact .error (canonical_orderWait.of_error e2 :)
        · split
          · exact .error .trap
          · next e3 => exact .error ((canonical_access h).of_error e3 :)
          · next e2 =>
              split
              · exact .error (.trapIn ((canonical_access h).of_ok e2 :))
              · extract_lets l
                split
                · exact hill _ _ ((canonical_access h).of_ok e2 :)
                · exact .ok (canonical_modCx ((canonical_access h).of_ok e2 :))

/-! ### The checks of R80 before an instruction's own entry -/

theorem canonical_guard {i : Instr} : IfAny CanonicalStop (Machine.guard i s) := by
  unfold Machine.guard
  split
  · exact .some .trap
  · split
    · exact .some .trap
    · split
      · exact .some .trap
      · split
        · exact .some .trap
        · split
          · exact .some .trap
          · split
            · exact .some .stall
            · exact .none

theorem canonical_parkHost {req : ℕ} (h : Canonical s) : Canonical (parkHost req s) := by
  unfold parkHost
  extract_lets k crew stay s1
  have hstay : Canonical stay := by
    unfold stay
    split
    · exact canonical_modCx h
    · exact h
  have hs1 : Canonical s1 := by unfold s1; exact canonical_interruptLong h
  split
  · split
    · split
      · next e2 =>
          split
          · exact canonical_askedBy hstay
          · exact canonical_leaveU ((canonical_park hs1).of_ok e2 :)
      · exact hstay
    · exact hstay
  · split
    · split
      · split
        · next e3 =>
            split
            · next e4 =>
                split
                · exact canonical_askedBy hstay
                · exact canonical_endHandler ((canonical_park ((canonical_promoteStrand h).carry e3 :)).of_ok e4 :)
            · exact hstay
      · exact hstay
    · exact hstay

theorem canonical_finish {x : Stop} (h : Canonical s) (hx : CanonicalStop x) : CanonicalNext (finish s x) := by
  unfold finish
  split
  · exact .next (canonical_takeTrap h)
  · refine .next ?_
    split
    · exact canonical_readied h
    · exact canonical_takeTrap hx.of_trapIn
  · exact .next h
  · exact .next hx.of_stallIn
  · exact .next (canonical_parkHost hx.of_parkHost)
  · exact .fault

theorem canonical_run {i : Instr} {body : State → Except Stop State} (h : Canonical s)
    (hbody : ∀ t, Canonical t → Either CanonicalStop Canonical (body t)) :
    CanonicalNext (run i s body) := by
  unfold run
  split
  · next e1 => exact canonical_finish h (canonical_guard.of_some e1 :)
  · split
    · next e1 => exact .next ((hbody _ h).of_ok e1 :)
    · next e2 => exact canonical_finish h ((hbody _ h).of_error e2 :)

/-! ### Tokens (R119) -/

theorem canonical_setPending {d : BitVec 5} (h : Canonical s) : Canonical (s.setPending d) := canonical_modCx h

theorem canonical_tokenCheck {d : BitVec 5} : IfAny CanonicalStop (tokenCheck s d) := by
  unfold tokenCheck
  split
  · exact .some .trap
  · split
    · exact .some .trap
    · split
      · exact .some .stall
      · exact .none

theorem canonical_deliver {core asid sid : ℕ} {ctx : CtxName} {reg : ℕ} {v : Word} {err : Bool} (h : Canonical s) :
    Canonical (s.deliver core asid sid ctx reg v err) := by
  unfold State.deliver
  extract_lets setErr kept
  have hkept : Canonical kept := h.update rfl
  split
  · split
    · exact canonical_modCore h
    · exact h
  · split
    · exact canonical_modCore h
    · split
      · exact canonical_modCore h
      · split
        · exact canonical_mapCores h
        · split
          · exact h.update rfl
          · split
            · exact h
            · split
              · exact hkept
              · split
                · next e4 =>
                    split
                    · exact hkept
                    · refine (IfAny.of_some (P := Canonical) ?_ e4 :)
                      refine IfAny.bind (canonical_devRead h) fun _ hk => ?_
                      split
                      · exact IfAny.bind (canonical_devWrite hk) (fun _ hk1 => canonical_devWrite hk1)
                · exact hkept

end Sys2Proof.Proofs
end


section
/-! SUPPORT. Every function of a step keeps memory canonical (O26): scalar and memory instructions, the words of the device, and the engines. -/

namespace Sys2Proof.Proofs
open Sys2Proof.Machine

variable {s : State}

theorem canonical_orFlags {f : BitVec 5} (h : Canonical s) : Canonical (s.orFlags f) := canonical_modCx h

theorem canonical_retF {d : BitVec 5} {fc : ℕ} {r : Flagged ℕ} (h : Canonical s) :
    Canonical (s.retF d fc r) := canonical_retX (canonical_orFlags h)

theorem canonical_checkMode {i : Instr} {takes : Bool} {rm : ℕ} : Either CanonicalStop Stateless (checkMode i takes rm) := by
  unfold checkMode
  split
  · exact .error .trap
  · exact .ok trivial

/-! ### Addresses -/

theorem canonical_checkAlign {kind : AKind} {ea : ℤ} {size : ℕ} : Either CanonicalStop Stateless (checkAlign kind ea size) := by
  unfold checkAlign
  split
  · exact .ok trivial
  · exact .error .trap

theorem canonical_checkRange {kind : AKind} {ea : ℤ} : Either CanonicalStop Stateless (checkRange kind ea) := by
  unfold checkRange
  split
  · exact .ok trivial
  · exact .error .trap

theorem canonical_checkAddr {kind : AKind} {ea : ℤ} {size : ℕ} : Either CanonicalStop Stateless (checkAddr kind ea size) := by
  unfold checkAddr
  split
  · next e1 => exact .error (canonical_checkAlign.of_error e1 :)
  · exact canonical_checkRange

theorem canonical_fatPointer {p : Word} {n : ℤ} : Either CanonicalStop Stateless (fatPointer p n) := by
  unfold fatPointer
  split
  · exact .ok trivial
  · exact .error .trap

/-! ### Vector state as the issuing context meets it -/

theorem canonical_vectorAllowed {i : Instr} {names : Bool} : Either CanonicalStop Stateless (vectorAllowed i names s) := by
  unfold vectorAllowed
  extract_lets k
  split
  · exact .error .trap
  · exact .ok trivial

theorem canonical_ewLive {i : Instr} : Either CanonicalStop Stateless (ewLive i s) := by
  unfold ewLive
  split
  · exact .error .trap
  · exact .ok trivial

theorem canonical_modU {f : Ctx → Ctx} (h : Canonical s) : Canonical (s.modU f) := canonical_modCore h

theorem canonical_setVtype {t : BitVec 16} (h : Canonical s) : Canonical (s.setVtype t) := by
  unfold State.setVtype
  extract_lets t1 flips s1
  have hs1 : Canonical s1 := by unfold s1; exact canonical_modCx h
  split
  · exact canonical_modCore hs1
  · exact hs1

theorem canonical_writeVtype {i : Instr} {t : BitVec 16} (h : Canonical s) : Either CanonicalStop Canonical (writeVtype i t s) := by
  unfold writeVtype
  split
  · exact .error .trap
  · split
    · exact .error .stall
    · exact .ok (canonical_setVtype h)

theorem canonical_writeCsr {i : Instr} {n : ℕ} {v : Word} (h : Canonical s) : Either CanonicalStop Canonical (s.writeCsr i n v) := by
  unfold State.writeCsr
  split
  · exact canonical_writeVtype h
  · refine .ok ?_
    split
    · exact canonical_modCore h
    · exact canonical_modU h
    · exact canonical_modU h
    · exact canonical_modU h
    · exact canonical_modCx h
    · exact canonical_modCx h
    · exact canonical_modCore h
    · exact canonical_modCx h
    · exact canonical_modCore h
    · exact canonical_modCore h
    · exact canonical_modCore h
    · exact canonical_modCore h
    · exact canonical_modCore h
    · exact canonical_modCore h
    · exact canonical_modCore h
    · exact canonical_modCore h
    · exact canonical_modCore h
    · exact canonical_modCore h
    · exact canonical_modCore h
    · split
      · exact canonical_modCore h
      · split
        · exact canonical_modCore h
        · exact h

theorem canonical_csrAccess {i : Instr} {n : ℕ} {writes : Bool} : Either CanonicalStop Stateless (Machine.csrAccess i n writes s) := by
  unfold Machine.csrAccess
  split
  · exact .error .trap
  · exact .ok trivial

theorem canonical_csrOp {i : Instr} {o : LI16} {write : Option (Word → Word → Word)} {reads : Bool} (h : Canonical s) :
    Either CanonicalStop Canonical (csrOp i o write reads s) := by
  unfold csrOp
  extract_lets n c
  split
  · next e1 => exact .error (canonical_csrAccess.of_error e1 :)
  · split
    · exact .error .stall
    · split
      · exact .ok (canonical_retX h)
      · split
        · next e2 => exact .error ((canonical_writeCsr h).of_error e2 :)
        · next e1 =>
            refine .ok ?_
            split
            · exact canonical_retX ((canonical_writeCsr h).of_ok e1 :)
            · exact canonical_advance ((canonical_writeCsr h).of_ok e1 :)

/-! ### Integer register operations (R90) -/

theorem canonical_aluH {o : LH} {f : Word → Word → Word} (h : Canonical s) :
    Either CanonicalStop Canonical (aluH o f s) := .ok (canonical_retX h)

/-! ### Immediate operations (R91): the three forms of each -/

theorem canonical_immForm16 {o : LI16} {f : Word → Word → Word} (h : Canonical s) :
    Either CanonicalStop Canonical (immForm16 o f s) := .ok (canonical_retX h)

theorem canonical_immForm27 {o : LWI} {f : Word → Word → Word} (h : Canonical s) :
    Either CanonicalStop Canonical (immForm27 o f s) := .ok (canonical_retX h)

theorem canonical_immForm59 {o : LXI} {f : Word → Word → Word} (h : Canonical s) :
    Either CanonicalStop Canonical (immForm59 o f s) := .ok (canonical_retX h)

/-! ### Address arithmetic (R92) -/

theorem canonical_retPointer {d : BitVec 5} {p : Word} {n : ℤ} (h : Canonical s) : Either CanonicalStop Canonical (retPointer s d p n) := by
  unfold retPointer
  split
  · exact .ok (canonical_retX h)
  · next e1 => exact .error (canonical_fatPointer.of_error e1 :)

theorem canonical_execPfmt {o : LI16} (h : Canonical s) : CanonicalNext (execPfmt o s) := by
  unfold execPfmt
  refine canonical_run h fun _ hk => ?_
  split
  · exact .error .trap
  · exact .ok (canonical_retX hk)

theorem canonical_linkTo {d : BitVec 5} {t : Word} (h : Canonical s) :
    Either CanonicalStop Canonical (linkTo d t s) := .ok (canonical_modCx h)

theorem canonical_branch {o : LB} {taken : Bool} (h : Canonical s) : Either CanonicalStop Canonical (branch o taken s) := by
  unfold branch
  refine .ok ?_
  split
  · exact canonical_jump h
  · exact canonical_advance h

theorem canonical_maskBranch {i : Instr} {o : LB} {sense : Bool} (h : Canonical s) :
    Either CanonicalStop Canonical (maskBranch i o sense s) := by
  unfold maskBranch
  refine Either.bind canonical_vectorAllowed fun _ _ => ?_
  refine Either.bind canonical_ewLive fun _ _ => ?_
  extract_lets src rest1
  split
  · exact .error .stall
  · unfold rest1
    split
    · exact .error canonical_poisonQfault
    · exact canonical_branch h

theorem canonical_groupWrite {h rank v : ℕ} (hs : Canonical s) : Canonical (s.groupWrite h rank v) := by
  unfold State.groupWrite
  extract_lets nodes next
  exact hs.update rfl

theorem canonical_blockStatus {asid va : ℕ} {off v : ℕ} (h : Canonical s) :
    Canonical (s.blockStatus asid va off v) := IfAny.getD (canonical_devWrite h) h

theorem canonical_postMove {h asid va : ℕ} (hs : Canonical s) : Canonical (s.postMove h asid va) := by
  unfold State.postMove
  split
  · exact canonical_blockStatus hs
  · split
    · exact canonical_modHome hs
    · exact canonical_blockStatus hs

theorem canonical_postHeap {asid va : ℕ} (h : Canonical s) : Canonical (s.postHeap asid va) := by
  unfold State.postHeap
  split
  · exact h.update rfl
  · exact canonical_blockStatus h

theorem canonical_deviceStore {va v : ℕ} (h : Canonical s) : IfAny Canonical (s.deviceStore va v) := by
  unfold State.deviceStore
  split
  · exact .none
  · split
    · exact .some (canonical_postMove h)
    · split
      · exact .some (canonical_postHeap h)
      · split
        · exact .some h
        · split
          · exact .some (h.update rfl)
          · split
            · exact .some (h.update rfl)
            · exact IfAny.map ifAny_stateless (fun _ _ => canonical_groupWrite h)

/-! ### One scalar access (R106 to R108) -/

theorem canonical_loadAt {kind : AKind} {need : Need} {va size : ℕ} (h : Canonical s) :
    Either CanonicalStop CanonicalFst (s.loadAt kind need va size) := by
  unfold State.loadAt
  extract_lets w
  refine Either.bind (canonical_access h) fun _ hk => ?_
  split
  · next x _ _ =>
      extract_lets src
      split
      · exact .error (.trapIn hk)
      · exact .ok hk

theorem canonical_loadM {o : LM} {size : ℕ} {ext : ℕ → Word} (h : Canonical s) : Either CanonicalStop Canonical (loadM o size ext s) := by
  unfold loadM
  refine Either.bind canonical_orderWait fun _ _ => ?_
  refine Either.bind canonical_checkAddr fun _ _ => ?_
  split
  · exact .ok (canonical_retX h)
  · refine Either.bind (canonical_loadAt h) fun _ hk2 => ?_
    split
    · exact .ok (canonical_retX hk2)

theorem canonical_storeM {o : LM} {size : ℕ} {release : Bool} (h : Canonical s) :
    Either CanonicalStop Canonical (storeM o size release s) := by
  unfold storeM
  refine Either.bind canonical_orderWait fun _ _ => ?_
  refine Either.bind canonical_checkAddr fun a1 _ => ?_
  split
  · next e =>
      refine Either.map ?_ (fun _ hk2 => canonical_advance hk2)
      refine canonical_whole h ?_
      refine (((?_ : IfAny Canonical (if size = 8 then s.deviceStore a1 (BitVec.toNat (s.getX o.d)) else none)).of_some e) :)
      split
      · exact canonical_deviceStore h
      · exact .none
  · refine Either.bind (canonical_access h) fun _ hk2 => ?_
    split
    · exact .ok (canonical_advance (canonical_placeWrite hk2))

theorem canonical_writeCopies {asid : ℕ} {p : Place} {bs : List Byte} (h : Canonical s) : Canonical (s.writeCopies asid p bs) := by
  unfold State.writeCopies
  split
  · exact h
  · next e =>
      refine keeps_foldl ((canonical_homeEntry h).of_ok e :) fun _ _ hk => ?_
      extract_lets k src
      exact Memory.wf_writeBytes hk _ _

theorem canonical_execMstd {o : LM} (h : Canonical s) : CanonicalNext (execMstd o s) := by
  unfold execMstd
  refine canonical_run h fun _ hk => ?_
  refine Either.bind canonical_orderWait fun _ _ => ?_
  refine Either.bind canonical_checkAddr fun _ _ => ?_
  split
  · next e => exact Either.map (canonical_whole hk ((canonical_deviceStore hk).of_some e :)) (fun _ hk3 => canonical_advance hk3)
  · extract_lets bs src
    refine Either.bind (canonical_access hk) fun _ hk3 => ?_
    split
    · split
      · exact .ok (canonical_advance (canonical_writeCopies hk3))
      · exact .ok (canonical_advance (canonical_placeWrite hk3))

/-! ### Atomics (R114 to R116) -/

theorem canonical_atomicW {o : LW} {f : ℕ → ℕ → Option ℕ} (h : Canonical s) : Either CanonicalStop Canonical (atomicW o f s) := by
  unfold atomicW
  extract_lets size w
  refine Either.bind canonical_orderWait fun _ _ => ?_
  refine Either.bind canonical_checkAddr fun _ _ => ?_
  refine Either.bind (canonical_loadAt h) fun _ hk2 => ?_
  split
  · extract_lets s2
    have hs2 : Canonical s2 := by
      unfold s2
      split
      · exact canonical_placeWrite hk2
      · exact hk2
    exact .ok (canonical_retX hs2)

/-! ### Fences, write-back and persistence (R117, R118, R356) -/

theorem canonical_execFence {o : LI16} (h : Canonical s) : CanonicalNext (execFence o s) := by
  unfold execFence
  refine canonical_run h fun _ hk => ?_
  split
  · exact .error .stall
  · exact .ok (canonical_advance hk)

theorem canonical_flushCheck {o : LM} (h : Canonical s) : Either CanonicalStop CanonicalFst (flushCheck o s) := by
  unfold flushCheck
  refine Either.bind canonical_orderWait fun _ _ => ?_
  refine Either.bind canonical_checkRange fun _ _ => ?_
  extract_lets w
  split
  · exact Either.bind canonical_localAccess (fun _ _ => .ok h)
  · refine Either.bind (canonical_translate h) fun _ hk2 => ?_
    split
    · exact .ok hk2

theorem canonical_writeBack {x : Option Place} (h : Canonical s) : Canonical (s.writeBack x) := by
  unfold State.writeBack
  split
  · split
    · exact h
    · exact canonical_cleanLine h
  · exact h

theorem canonical_execClwb {o : LM} (h : Canonical s) : CanonicalNext (execClwb o s) := by
  unfold execClwb
  refine canonical_run h fun _ hk => ?_
  refine Either.bind (canonical_flushCheck hk) fun _ hk1 => ?_
  split
  · exact .ok (canonical_advance (canonical_writeBack hk1))

theorem canonical_execPflush {o : LM} (h : Canonical s) : CanonicalNext (execPflush o s) := by
  unfold execPflush
  refine canonical_run h fun _ hk => ?_
  refine Either.bind (canonical_flushCheck hk) fun _ hk1 => ?_
  split
  · split
    · split
      · extract_lets line
        exact .ok (canonical_advance (canonical_modPersists (canonical_writeBack hk1)))
      · exact .ok (canonical_advance (canonical_writeBack hk1))
    · exact .ok (canonical_advance hk1)

theorem canonical_execPsync (h : Canonical s) : CanonicalNext (execPsync s) := by
  unfold execPsync
  refine canonical_run h fun _ hk => ?_
  split
  · exact .error (.trapIn (canonical_modPersists hk))
  · split
    · exact .ok (canonical_advance hk)
    · exact .error .stall

/-! ### Issue (R119, R122, R235) -/

theorem canonical_engineChecks {d : BitVec 5} {oc : BitVec 4} {release : Bool} :
    Either CanonicalStop Stateless (engineChecks d oc release s) := by
  unfold engineChecks
  split
  · next e1 => exact .error (canonical_tokenCheck.of_some e1 :)
  · split
    · exact .error .stall
    · exact canonical_orderWait

theorem canonical_endNow {d : BitVec 5} {val st : ℕ} (h : Canonical s) :
    Either CanonicalStop Canonical (endNow s d val st) := .ok (canonical_retX h)

theorem canonical_engineRange {need : Need} {va n : ℕ} : Either CanonicalStop Stateless (engineRange s need va n) := by
  unfold engineRange
  extract_lets lo
  split
  · exact .ok trivial
  · split
    · exact .error .trap
    · exact .ok trivial

theorem canonical_queueOp {d : BitVec 5} {sc : BitVec 3} {kind : OpKind} (h : Canonical s) :
    Either CanonicalStop Canonical (queueOp s d sc kind) := by
  unfold queueOp
  split
  · next e =>
      extract_lets k op
      exact .ok (canonical_advance (canonical_setPending (((canonical_freshId h).carry e :).update rfl)))

theorem canonical_execAcopy {o : LX} (h : Canonical s) : CanonicalNext (execAcopy o s) := by
  unfold execAcopy
  refine canonical_run h fun _ hk => ?_
  refine Either.bind canonical_engineChecks fun _ _ => ?_
  extract_lets dst src c n node qualified remote remoteSrc last rest
  have hlast : ∀ u, Either CanonicalStop Canonical (last u) := by
    intro u
    unfold last
    split <;> exact canonical_queueOp hk
  have hrest : ∀ u, Either CanonicalStop Canonical (rest u) := by
    intro u
    unfold rest
    split
    · exact Either.bind canonical_engineRange fun _ _ => hlast ()
    · exact hlast ()
  split
  · exact canonical_endNow hk
  · split
    · exact canonical_endNow hk
    · split
      · exact Either.bind canonical_engineRange fun _ _ => hrest ()
      · exact hrest ()

theorem canonical_execAcopy2d {o : LX} (h : Canonical s) : CanonicalNext (execAcopy2d o s) := by
  unfold execAcopy2d
  refine canonical_run h fun _ hk => ?_
  refine Either.bind canonical_engineChecks fun _ _ => ?_
  extract_lets dst src ds ss c row rows
  split
  · exact canonical_endNow hk
  · split
    · exact canonical_endNow hk
    · split
      · split
        · split
          · exact canonical_endNow hk
          · exact Either.bind canonical_engineRange (fun _ _ => Either.bind canonical_engineRange (fun _ _ => canonical_queueOp hk))

theorem canonical_execAgather {o : LX} (h : Canonical s) : CanonicalNext (execAgather o s) := by
  unfold execAgather
  refine canonical_run h fun _ hk => ?_
  refine Either.bind canonical_engineChecks fun _ _ => ?_
  extract_lets dst base idx n size iw
  split
  · exact canonical_endNow hk
  · split
    · exact canonical_endNow hk
    · exact Either.bind canonical_engineRange (fun _ _ => Either.bind canonical_engineRange (fun _ _ => canonical_queueOp hk))

theorem canonical_execAcoll {o : LX} (h : Canonical s) : CanonicalNext (execAcoll o s) := by
  unfold execAcoll
  refine canonical_run h fun _ hk => ?_
  extract_lets f op red fmt h1 dst src n r size call s1 rest1
  have hs1 : Canonical s1 := hk.update rfl
  split
  · exact .error .trap
  · unfold rest1
    refine Either.bind canonical_engineChecks fun _ _ => ?_
    split
    · exact canonical_endNow hk
    · split
      · exact canonical_endNow hs1
      · exact Either.bind canonical_engineRange (fun _ _ => Either.bind canonical_engineRange (fun _ _ => canonical_queueOp hs1))

theorem canonical_execGlaze {o : LX} (h : Canonical s) : CanonicalNext (execGlaze o s) := by
  unfold execGlaze
  refine canonical_run h fun _ hk => ?_
  refine Either.bind canonical_engineChecks fun _ _ => ?_
  split
  · exact canonical_endNow hk
  · exact canonical_queueOp hk

theorem canonical_execWbind {o : LX} (h : Canonical s) : CanonicalNext (execWbind o s) := by
  unfold execWbind
  refine canonical_run h fun _ hk => ?_
  refine Either.bind canonical_engineChecks fun _ _ => ?_
  split
  · exact canonical_queueOp hk
  · split
    · exact canonical_endNow hk
    · exact Either.bind canonical_engineRange (fun _ _ => canonical_queueOp hk)

theorem canonical_execWread {o : LX} (h : Canonical s) : CanonicalNext (execWread o s) := by
  unfold execWread
  refine canonical_run h fun _ hk => ?_
  refine Either.bind canonical_engineChecks fun _ _ => ?_
  split
  · exact canonical_endNow hk
  · exact canonical_queueOp hk

theorem canonical_endOp {id val st : ℕ} (h : Canonical s) : Canonical (s.endOp id val st) := canonical_unpin (canonical_modOp h)

theorem canonical_execAcancel {o : LX} (h : Canonical s) : CanonicalNext (execAcancel o s) := by
  unfold execAcancel
  refine canonical_run h fun _ hk => ?_
  split
  · exact .error .trap
  · exact .ok (canonical_advance (keeps_foldl hk (fun _ _ hk1 => canonical_endOp hk1)))

/-! ### Engine accesses (R121, R123) -/

theorem canonical_engStop_byCause {t : Trap} (h : Canonical s) : CanonicalEngStop (engStop.byCause t s) := by
  unfold engStop.byCause
  split
  · exact .service h
  · exact .status h
  · exact .status h
  · exact .status h
  · exact .status h

theorem canonical_engStop {x : Stop} (h : Canonical s) (hx : CanonicalStop x) : CanonicalEngStop (engStop s x) := by
  unfold engStop
  split
  · exact canonical_engStop_byCause h
  · exact canonical_engStop_byCause hx.of_trapIn
  · exact .wait h
  · exact .wait hx.of_stallIn
  · exact .waitHost hx.of_parkHost
  · exact .wait h

theorem canonical_engineOp_place {o : EngineOp} {need : Need} {va n : ℕ} (h : Canonical s) :
    Either CanonicalEngStop CanonicalFst (o.place need va n s) := by
  unfold EngineOp.place
  split
  · split
    · extract_lets k
      split
      · exact .error (.status h)
      · split
        · exact .error (.wait h)
        · split
          · exact .error (.status h)
          · exact .ok h
    · exact .ok h
    · exact .error (.status h)
  · split
    · next e => exact .ok ((canonical_globalAccess h).of_ok e :)
    · next e1 => exact .error (canonical_engStop h ((canonical_globalAccess h).of_error e1 :))

theorem canonical_engineOp_read1 {o : EngineOp} {va n : ℕ} (h : Canonical s) : Either CanonicalEngStop CanonicalFst (o.read1 va n s) := by
  unfold EngineOp.read1
  split
  · next e1 => exact .error ((canonical_engineOp_place h).of_error e1 :)
  · next e =>
      split
      · exact .error (.status ((canonical_engineOp_place h).of_ok e :))
      · exact .ok ((canonical_engineOp_place h).of_ok e :)

theorem canonical_engineOp_reads {o : EngineOp} {n n1 n2 : ℕ} (h : Canonical s) :
    Either CanonicalEngStop CanonicalFst (o.reads n n1 n2 s) := by
  induction n generalizing o n1 n2 s with
  | zero =>
    rw [EngineOp.reads]
    exact .ok h
  | succ fuel ih =>
    rw [EngineOp.reads]
    split
    · exact .ok h
    · extract_lets m
      split
      · next e1 => exact .error ((canonical_engineOp_read1 h).of_error e1 :)
      · next e =>
          split
          · next e2 => exact .error ((ih ((canonical_engineOp_read1 h).of_ok e :)).of_error e2 :)
          · next e1 => exact .ok ((ih ((canonical_engineOp_read1 h).of_ok e :)).of_ok e1 :)

theorem canonical_engineOp_write1 {o : EngineOp} {va : ℕ} {bs : List Byte} (h : Canonical s) :
    Either CanonicalEngStop CanonicalFst (o.write1 va bs s) := by
  unfold EngineOp.write1
  split
  · next e1 => exact .error ((canonical_engineOp_place h).of_error e1 :)
  · next e =>
      refine .ok ?_
      split
      · exact canonical_writeCopies ((canonical_engineOp_place h).of_ok e :)
      · exact canonical_placeWrite ((canonical_engineOp_place h).of_ok e :)

theorem canonical_engineOp_writes {o : EngineOp} {n n1 : ℕ} {l : List Byte} (h : Canonical s) :
    Either CanonicalEngStop Canonical (o.writes n n1 l s) := by
  induction n generalizing o n1 l s with
  | zero =>
    rw [EngineOp.writes]
    exact .ok h
  | succ fuel ih =>
    rw [EngineOp.writes]
    split
    · exact .ok h
    · extract_lets m
      split
      · next e1 => exact .error ((canonical_engineOp_write1 h).of_error e1 :)
      · next e => exact ih ((canonical_engineOp_write1 h).of_ok e :)

/-! ### One piece (R246) -/

theorem canonical_engineOp_move {o : EngineOp} {goesOn : Bool} {dst src : ℕ} {m lo total : ℕ} (h : Canonical s) :
    Either CanonicalEngStop CanonicalFst (o.move goesOn dst src m lo total s) := by
  unfold EngineOp.move
  split
  · next e1 => exact .error ((canonical_engineOp_read1 h).of_error e1 :)
  · next e =>
      split
      · next e2 => exact .error ((canonical_engineOp_write1 ((canonical_engineOp_read1 h).of_ok e :)).of_error e2 :)
      · next e1 =>
          extract_lets s3
          have hs3 : Canonical s3 := by
            unfold s3
            exact canonical_countHot (canonical_countHot ((canonical_engineOp_write1 ((canonical_engineOp_read1 h).of_ok e :)).of_ok e1 :))
          exact .ok hs3

theorem canonical_copyPiece {o : EngineOp} {dst src n : ℕ} (h : Canonical s) :
    Either CanonicalEngStop CanonicalFst (copyPiece o dst src n s) := by
  unfold copyPiece
  extract_lets d c
  exact canonical_engineOp_move h

theorem canonical_copy2dPiece {o : EngineOp} {dst src : ℕ} {ds ss : ℤ} {row rows : ℕ} (h : Canonical s) :
    Either CanonicalEngStop CanonicalFst (copy2dPiece o dst src ds ss row rows s) := by
  unfold copy2dPiece
  extract_lets r c d f
  exact canonical_engineOp_move h

theorem canonical_engineOp_gatherFrom {o : EngineOp} {base idx : ℕ} {size iw : ℕ} (h : Canonical s) :
    Either CanonicalEngStop CanonicalFst (o.gatherFrom base idx size iw s) := by
  unfold EngineOp.gatherFrom
  split
  · next e1 => exact .error ((canonical_engineOp_reads h).of_error e1 :)
  · next e => exact .ok ((canonical_engineOp_reads h).of_ok e :)

theorem canonical_engineOp_rangePlaces {o : EngineOp} {need : Need} {n n1 n2 : ℕ} (h : Canonical s) :
    Either CanonicalEngStop CanonicalFst (o.rangePlaces need n n1 n2 s) := by
  induction n generalizing o need n1 n2 s with
  | zero =>
    rw [EngineOp.rangePlaces]
    exact .ok h
  | succ fuel ih =>
    rw [EngineOp.rangePlaces]
    split
    · exact .ok h
    · extract_lets m
      split
      · next e1 => exact .error ((canonical_engineOp_place h).of_error e1 :)
      · next e =>
          split
          · next e2 => exact .error ((ih ((canonical_engineOp_place h).of_ok e :)).of_error e2 :)
          · next e1 => exact .ok ((ih ((canonical_engineOp_place h).of_ok e :)).of_ok e1 :)

theorem canonical_countPages {asid lo : ℕ} {ps : List Place} (h : Canonical s) : Canonical (s.countPages asid lo ps) := by
  unfold State.countPages
  refine keeps_foldl (P := CanonicalFst) h fun _ _ hk => ?_
  split
  · exact hk
  · exact canonical_countHot hk

theorem canonical_countAtoms {asid lo : ℕ} {goesOn : Bool} {ps : List (Place × ℕ × ℕ)} (h : Canonical s) :
    Canonical (s.countAtoms asid lo goesOn ps) := keeps_foldl h (fun _ _ hk => canonical_countHot hk)

theorem canonical_gatherPiece {o : EngineOp} {dst base : ℕ} {idx n : ℕ} {size iw : ℕ} (h : Canonical s) :
    Either CanonicalEngStop CanonicalFst (gatherPiece o dst base idx n size iw s) := by
  unfold gatherPiece
  split
  · next e1 => exact .error ((canonical_engineOp_gatherFrom h).of_error e1 :)
  · next e =>
      split
      · exact .error (.status ((canonical_engineOp_gatherFrom h).of_ok e :))
      · split
        · exact .error (.status ((canonical_engineOp_gatherFrom h).of_ok e :))
        · split
          · next e2 => exact .error ((canonical_engineOp_reads ((canonical_engineOp_gatherFrom h).of_ok e :)).of_error e2 :)
          · next e1 =>
              split
              · next e3 =>
                  exact .error ((canonical_engineOp_writes ((canonical_engineOp_reads
                      ((canonical_engineOp_gatherFrom h).of_ok e :)).of_ok e1 :)).of_error e3 :)
              · next e2 =>
                  extract_lets s4 s5
                  have hs4 : Canonical s4 := by
                    unfold s4
                    split
                    · next e3 =>
                        exact canonical_countPages ((canonical_engineOp_rangePlaces ((canonical_engineOp_writes ((canonical_engineOp_reads
                            ((canonical_engineOp_gatherFrom h).of_ok e :)).of_ok e1 :)).of_ok e2 :)).of_ok e3 :)
                    · exact ((canonical_engineOp_writes ((canonical_engineOp_reads
                        ((canonical_engineOp_gatherFrom h).of_ok e :)).of_ok e1 :)).of_ok e2 :)
                  have hs5 : Canonical s5 := by
                    unfold s5
                    split
                    · next e3 => exact canonical_countAtoms ((canonical_engineOp_rangePlaces hs4).of_ok e3 :)
                    · exact hs4
                  exact .ok hs5

/-! ### Collectives (R124, R125, R360) -/

theorem canonical_collPiece {o : EngineOp} {dst src : ℕ} {n op : ℕ} {red fmt : ℕ} {h call : ℕ} (hs : Canonical s) :
    Either CanonicalEngStop CanonicalFst (collPiece o dst src n op red fmt h call s) := by
  unfold collPiece
  extract_lets r me find others size total m data out x part closed o1
  have hclosed : ∀ (t : State), Canonical t → Canonical (closed t) := fun _ hk => hk.update rfl
  split
  · exact .error (.status hs)
  · split
    · split
      · next e1 => exact .error ((canonical_engineOp_read1 hs).of_error e1 :)
      · next e => exact .ok ((canonical_engineOp_read1 hs).of_ok e :)
    · split
      · exact .error (.wait hs)
      · split
        · exact .ok (hclosed _ hs)
        · split
          · next e1 => exact .error ((canonical_engineOp_write1 hs).of_error e1 :)
          · next e =>
              split
              · exact .ok (hclosed _ ((canonical_engineOp_write1 hs).of_ok e :))
              · exact .ok ((canonical_engineOp_write1 hs).of_ok e :)

/-! ### Windows (R126 to R128, R311) -/

theorem canonical_wbindPiece {o : EngineOp} {va desc : ℕ} (h : Canonical s) :
    Either CanonicalEngStop CanonicalFst (wbindPiece o va desc s) := by
  unfold wbindPiece
  split
  · split
    · exact .ok (h.update rfl)
    · exact .error (.status h)
  · split
    · next e1 => exact .error ((canonical_engineOp_reads h).of_error e1 :)
    · next e =>
        split
        · exact .ok (((canonical_engineOp_reads h).of_ok e :).update rfl)
        · exact .error (.status ((canonical_engineOp_reads h).of_ok e :))

theorem canonical_wreadPiece {o : EngineOp} {va : ℕ} (h : Canonical s) : Either CanonicalEngStop CanonicalFst (wreadPiece o va s) := by
  unfold wreadPiece
  split
  · exact .ok h
  · exact .error (.status h)

/-! ### Node-qualified copies (R123, R359) -/

theorem canonical_freshBytes {n : ℕ} (h : Canonical s) : CanonicalSnd (s.freshBytes n) := by
  unfold State.freshBytes
  extract_lets k
  exact h.update rfl

theorem canonical_remoteAnswer (h : Canonical s) : CanonicalSnd s.remoteAnswer := by
  unfold State.remoteAnswer
  split
  · next e => exact ((canonical_freshWord h).carry e :)

theorem canonical_remotePiece {o : EngineOp} {dst src : ℕ} {n node : ℕ} {remoteSrc : Bool} (h : Canonical s) :
    Either CanonicalEngStop CanonicalFst (remotePiece o dst src n node remoteSrc s) := by
  unfold remotePiece
  split
  · exact .error (.status h)
  · split
    · exact .ok h
    · split
      · next e =>
          split
          · split
            · next e1 => exact .ok ((canonical_freshWord ((canonical_remoteAnswer h).carry e :)).carry e1 :)
          · split
            · exact .ok ((canonical_remoteAnswer h).carry e :)
            · split
              · extract_lets d m
                split
                · next e2 =>
                    split
                    · next e4 =>
                        exact .error ((canonical_engineOp_write1 ((canonical_freshBytes
                            ((canonical_remoteAnswer h).carry e :)).carry e2 :)).of_error e4 :)
                    · next e3 =>
                        exact .ok (canonical_countHot ((canonical_engineOp_write1 ((canonical_freshBytes
                            ((canonical_remoteAnswer h).carry e :)).carry e2 :)).of_ok e3 :))
              · extract_lets c m
                split
                · next e2 => exact .error ((canonical_engineOp_read1 ((canonical_remoteAnswer h).carry e :)).of_error e2 :)
                · next e1 => exact .ok (canonical_countHot ((canonical_engineOp_read1 ((canonical_remoteAnswer h).carry e :)).of_ok e1 :))

/-! ### Events -/

theorem canonical_engineFault {o : EngineOp} {t : Trap} (h : Canonical s) : Canonical (s.engineFault o t) := by
  unfold State.engineFault
  extract_lets c e
  exact canonical_pushEntry (canonical_modOp (canonical_unpin h))

theorem canonical_engineOp_piece {o : EngineOp} (h : Canonical s) : Either CanonicalEngStop CanonicalFst (o.piece s) := by
  unfold EngineOp.piece
  split
  · exact canonical_copyPiece h
  · exact canonical_copy2dPiece h
  · exact canonical_gatherPiece h
  · exact canonical_collPiece h
  · exact .error (.wait h)
  · exact canonical_wbindPiece h
  · exact canonical_wreadPiece h
  · exact canonical_remotePiece h

theorem canonical_engineOp_operandPlaces {o : EngineOp} {l : List (Need × ℕ × ℕ)} (h : Canonical s) :
    Either CanonicalEngStop CanonicalFst (o.operandPlaces l s) := by
  induction l generalizing o s with
  | nil =>
    rw [EngineOp.operandPlaces]
    exact .ok h
  | cons e t ih =>
    obtain ⟨need, va, n⟩ := e
    rw [EngineOp.operandPlaces]
    split
    · next e1 => exact .error ((canonical_engineOp_rangePlaces h).of_error e1 :)
    · next e =>
        split
        · next e2 => exact .error ((ih ((canonical_engineOp_rangePlaces h).of_ok e :)).of_error e2 :)
        · next e1 => exact .ok ((ih ((canonical_engineOp_rangePlaces h).of_ok e :)).of_ok e1 :)

theorem canonical_engineOp_pinnedPiece {o : EngineOp} (h : Canonical s) : Either CanonicalEngStop CanonicalFst (o.pinnedPiece s) := by
  unfold EngineOp.pinnedPiece
  split
  · next e1 => exact .error ((canonical_engineOp_operandPlaces h).of_error e1 :)
  · next e =>
      split
      · next e1 =>
          extract_lets writes
          split
          · exact .error (.wait (canonical_noteMoving ((canonical_pinAll ((canonical_engineOp_operandPlaces h).of_ok e :)).carry e1 :)))
          · split
            · next e2 =>
                exact .ok (canonical_unpin ((canonical_engineOp_piece ((canonical_pinAll
                    ((canonical_engineOp_operandPlaces h).of_ok e :)).carry e1 :)).of_ok e2 :))
            · next e3 =>
                exact .error ((canonical_engineOp_piece ((canonical_pinAll
                    ((canonical_engineOp_operandPlaces h).of_ok e :)).carry e1 :)).of_error e3 :)

theorem canonical_enginePiece {id : ℕ} (h : Canonical s) : Canonical (enginePiece id s) := by
  unfold enginePiece
  split
  · exact h
  · split
    · exact h
    · extract_lets s0
      have hs0 : Canonical s0 := by unfold s0; exact canonical_modCluster h
      split
      · next e1 => exact canonical_modOp ((canonical_engineOp_pinnedPiece hs0).of_ok e1 :)
      · next e1 => exact canonical_endOp (((canonical_engineOp_pinnedPiece hs0).of_error e1).of_status :)
      · next e1 => exact canonical_engineFault (((canonical_engineOp_pinnedPiece hs0).of_error e1).of_service :)
      · next e1 => exact (((canonical_engineOp_pinnedPiece hs0).of_error e1).of_wait :)
      · next e1 => exact canonical_modOp (((canonical_engineOp_pinnedPiece hs0).of_error e1).of_waitHost :)

theorem canonical_tokenCompletion {id : ℕ} (h : Canonical s) : Canonical (tokenCompletion id s) := by
  unfold tokenCompletion
  split
  · exact h
  · split
    · exact h
    · extract_lets s1
      have hs1 : Canonical s1 := h.update rfl
      exact canonical_deliver hs1

theorem canonical_windowExchange {id : ℕ} (h : Canonical s) : Canonical (windowExchange id s) := by
  unfold windowExchange
  split
  · exact h
  · split
    · extract_lets earlier
      split
      · exact h
      · split
        · exact canonical_endOp h
        · extract_lets s1
          have hs1 : Canonical s1 := h.update rfl
          exact canonical_modOp hs1
    · exact h

theorem canonical_collectiveTimeout {id : ℕ} (h : Canonical s) : Canonical (collectiveTimeout id s) := by
  unfold collectiveTimeout
  split
  · split
    · split
      · exact canonical_endOp h
      · exact h
    · exact h
  · exact h

theorem canonical_remoteTimeout {id : ℕ} (h : Canonical s) : Canonical (remoteTimeout id s) := by
  unfold remoteTimeout
  split
  · split
    · split
      · exact canonical_endOp h
      · exact h
    · exact h
  · exact h

end Sys2Proof.Proofs
end


section
/-! SUPPORT. Every function of a step keeps memory canonical (O26): page movement, and the instructions of strands, tasks and the system. -/

namespace Sys2Proof.Proofs
open Sys2Proof.Machine

variable {s : State}

/-! ### Dropping translations (R207, R315, R345) -/

theorem canonical_dropRange {asid lo hi : ℕ} (h : Canonical s) : Canonical (s.dropRange asid lo hi) := by
  unfold State.dropRange
  extract_lets gone s1 s2
  have hs1 : Canonical s1 := by unfold s1; exact keeps_foldl h (fun _ _ hk => canonical_dropEntry hk)
  have hs2 : Canonical s2 := hs1.update rfl
  exact canonical_dropL1Alias hs2

/-! ### Events of a home -/

theorem canonical_pinAdmit {site : ℕ} (h : Canonical s) : Canonical (pinAdmit site s) := by
  unfold pinAdmit
  split
  · exact h
  · split
    · exact canonical_modHome h
    · exact h

theorem canonical_execHotnessWriteback {site k : ℕ} (h : Canonical s) : CanonicalNext (execHotnessWriteback site k s) := by
  unfold execHotnessWriteback
  refine .next ?_
  split
  · exact canonical_hotBack h
  · exact h

theorem canonical_hotnessDue {site : ℕ} (h : Canonical s) : Canonical (hotnessDue site s) := by
  unfold hotnessDue
  extract_lets h1
  split
  · exact h
  · exact canonical_modHome (keeps_foldl h (fun _ _ hk => canonical_hotBack hk))

/-! ### Page movement (R320 to R322) -/

theorem canonical_copyFrames {src n : ℕ} {dsts : List ℕ} (h : Canonical s) :
    Canonical (s.copyFrames src n dsts) := keeps_foldl (P := fun m : Memory => m.wf = true) h (fun _ _ hk => wf_copyFrame hk)

theorem canonical_beginMove {site : ℕ} {e : HomeEntry} {m : Movement} (h : Canonical s) : Canonical (s.beginMove site e m) := by
  unfold State.beginMove
  extract_lets s1
  have hs1 : Canonical s1 := by unfold s1; exact keeps_foldl h (fun _ _ hk => canonical_dropL1Keys hk)
  exact canonical_modHome (canonical_modEntry hs1)

theorem canonical_endMove {site : ℕ} {m : Movement} (h : Canonical s) : Canonical (s.endMove site m) := by
  unfold State.endMove
  extract_lets src s1
  have hsrc : Canonical src := by unfold src; exact canonical_modHome h
  have hs1 : Canonical s1 := hsrc.update rfl
  split
  · exact hs1
  · extract_lets s2 s3
    have hs2 : Canonical s2 := by unfold s2; exact canonical_copyFrames hs1
    have hs3 : Canonical s3 := by unfold s3; exact Memory.wf_write hs2 _ _ _
    exact canonical_hotBack (canonical_modEntry hs3)

theorem canonical_resetHot {e : HomeEntry} (h : Canonical s) : Canonical (s.resetHot e) := by
  unfold State.resetHot
  extract_lets h1
  exact canonical_hotBack (canonical_modEntry h)

theorem canonical_moveDone {site poster : ℕ} {va st : ℕ} (h : Canonical s) :
    Canonical (s.moveDone site poster va st) := canonical_blockStatus (canonical_modHome h)

theorem canonical_moveStart {site poster va : ℕ} {d : List ℕ} (h : Canonical s) : Canonical (s.moveStart site poster va d) := by
  unfold State.moveStart
  extract_lets op asid page
  split
  · exact canonical_moveDone h
  · split
    · exact h
    · exact canonical_moveDone (canonical_logWalk h)
    · next e1 =>
        split
        · exact canonical_moveDone ((canonical_homeEntry h).of_ok e1 :)
        · split
          · exact canonical_moveDone (canonical_resetHot ((canonical_homeEntry h).of_ok e1 :))
          · split
            · exact canonical_moveDone ((canonical_homeEntry h).of_ok e1 :)
            · exact canonical_beginMove ((canonical_homeEntry h).of_ok e1 :)

theorem canonical_moveServe {site op : ℕ} (h : Canonical s) : Canonical (moveServe site op s) := by
  unfold moveServe
  refine canonical_attemptState h fun _ hk => ?_
  split
  · exact hk
  · split
    · split
      · exact canonical_moveDone (canonical_endMove hk)
      · exact hk
    · extract_lets s1
      have hs1 : Canonical s1 := by unfold s1; exact canonical_devTouch hk
      split
      · exact canonical_modHome hs1
      · next e2 =>
          split
          · exact canonical_moveDone ((canonical_devReads hs1).of_some e2 :)
          · split
            · exact canonical_moveStart ((canonical_devReads hs1).of_some e2 :)
            · exact ((canonical_devReads hs1).of_some e2 :)

/-! ### SPAWN (R186, R187) -/

theorem canonical_joinCheck {v : Word} (h : Canonical s) : Either CanonicalStop CanonicalFst (joinCheck v s) := by
  unfold joinCheck
  split
  · exact .ok h
  · refine Either.bind canonical_checkAddr fun _ _ => ?_
    refine Either.bind (canonical_access h) fun _ hk1 => ?_
    split
    · exact .ok hk1

theorem canonical_countChild {v : Word} {p : Option Place} (h : Canonical s) : Either CanonicalStop Canonical (countChild v p s) := by
  unfold countChild
  split
  · exact .ok h
  · extract_lets w
    split
    · exact .error (.trapIn h)
    · exact .ok (canonical_placeWrite h)

theorem canonical_framePlaces {base : ℕ} {l : List ℕ} (h : Canonical s) : Either CanonicalStop CanonicalFst (framePlaces base l s) := by
  induction l generalizing base s with
  | nil =>
    rw [framePlaces]
    exact .ok h
  | cons off t ih =>
    rw [framePlaces]
    refine Either.bind canonical_checkAddr fun _ _ => ?_
    refine Either.bind (canonical_access h) fun _ hk1 => ?_
    split
    · refine Either.bind (ih hk1) fun _ hk2 => ?_
      split
      · exact .ok hk2

theorem canonical_writeWords {asid : ℕ} {l : List Place} {vs : List ℕ} (h : Canonical s) : Canonical (writeWords asid l vs s) := by
  fun_induction writeWords asid l vs s with
  | case1 p ps v vs s ih => exact ih (canonical_placeWrite h)
  | case2 => exact h

theorem canonical_spawnInline {o : LX} {ord : ℕ} {jp : Option Place} (h : Canonical s) :
    Either CanonicalStop Canonical (spawnInline o ord jp s) := by
  unfold spawnInline
  extract_lets x2 ret
  refine Either.bind canonical_orderWait fun _ _ => ?_
  refine Either.bind (canonical_framePlaces h) fun _ hk1 => ?_
  split
  · refine Either.bind (canonical_countChild hk1) fun _ hk2 => ?_
    extract_lets s3
    have hs3 : Canonical s3 := by unfold s3; exact canonical_writeWords hk2
    exact .ok (canonical_modCx hs3)

theorem canonical_execSpawn {o : LX} (h : Canonical s) : CanonicalNext (execSpawn o s) := by
  unfold execSpawn
  refine canonical_run h fun _ hk => ?_
  refine canonical_attempt ?_ hk
  intro _ hk1
  refine Either.bind canonical_orderWait fun _ _ => ?_
  extract_lets w asid
  refine Either.bind (canonical_joinCheck hk1) fun _ hk3 => ?_
  split
  · split
    · exact .ok (canonical_retX hk3)
    · split
      · exact canonical_spawnInline hk3
      · refine Either.bind (canonical_countChild hk3) fun _ hk4 => ?_
        split
        · next e1 =>
            extract_lets g
            split
            · next e2 =>
                refine .ok ?_
                refine canonical_retX ?_
                refine (IfAny.of_some (P := Canonical) ?_ e2 :)
                split
                · exact canonical_arrive ((canonical_newStrand hk4).carry e1 :)
                · exact .none
            · split
              · next e3 => exact .ok (canonical_retX ((canonical_overflow ((canonical_newStrand hk4).carry e1 :)).of_ok e3 :))
              · exact .error (.trapIn hk3)

/-! ### Parking (R190, R228, R408) -/

theorem canonical_parkU {st : ParkState} (h : Canonical s) : Canonical (s.parkU st) := by
  unfold State.parkU
  extract_lets s1
  have hs1 : Canonical s1 := by unfold s1; exact canonical_interruptLong h
  split
  · next e => exact canonical_leaveU ((canonical_park hs1).of_ok e :)
  · exact h

theorem canonical_waitOrPark {st : ParkState} (h : Canonical s) : Either CanonicalStop Canonical (waitOrPark st s) := by
  unfold waitOrPark
  refine .error ?_
  refine .stallIn ?_
  split
  · exact canonical_parkU h
  · exact h

/-! ### JOIN, YIELD -/

theorem canonical_execJoin {o : LH} (h : Canonical s) : CanonicalNext (execJoin o s) := by
  unfold execJoin
  refine canonical_run h fun _ hk => ?_
  refine canonical_attempt ?_ hk
  intro _ hk1
  refine Either.bind canonical_orderWait fun _ _ => ?_
  refine Either.bind canonical_checkAddr fun _ _ => ?_
  refine Either.bind (canonical_loadAt hk1) fun _ hk4 => ?_
  split
  · split
    · exact .ok (canonical_retX hk4)
    · split
      · exact .ok (canonical_retX hk4)
      · exact canonical_waitOrPark hk4

theorem canonical_execYield (h : Canonical s) : CanonicalNext (execYield s) := by
  unfold execYield
  refine canonical_run h fun _ hk => ?_
  refine canonical_attempt ?_ hk
  intro _ hk1
  extract_lets s1
  have hs1 : Canonical s1 := by unfold s1; exact canonical_advance hk1
  split
  · exact .ok hs1
  · split
    · exact .error .stall
    · split
      · split
        · exact .ok (canonical_parkU (canonical_disband hs1))
        · exact .error .stall
      · exact .ok (canonical_parkU hs1)

/-! ### EXIT (R188) -/

theorem canonical_loadWords {va n : ℕ} (h : Canonical s) : Either CanonicalStop CanonicalFst (loadWords va n s) := by
  induction n generalizing va s with
  | zero =>
    rw [loadWords]
    exact .ok h
  | succ n ih =>
    rw [loadWords]
    refine Either.bind canonical_checkAddr fun _ _ => ?_
    refine Either.bind (canonical_loadAt h) fun _ hk1 => ?_
    split
    · refine Either.bind (ih hk1) fun _ hk2 => ?_
      split
      · exact .ok hk2

theorem canonical_exitInline {abnormal : Bool} (h : Canonical s) : Either CanonicalStop Canonical (exitInline abnormal s) := by
  unfold exitInline
  refine Either.bind canonical_orderWait fun _ _ => ?_
  extract_lets x2
  refine Either.bind (canonical_loadWords h) fun _ hk1 => ?_
  split
  · next x _ _ =>
      split
      · exact .error (.trapIn hk1)
      · extract_lets w rd join rest
        split
        · exact .error .stall
        · unfold rest
          refine Either.bind (canonical_joinCheck hk1) fun _ hk2 => ?_
          split
          · extract_lets s3
            have hs3 : Canonical s3 := by
              unfold s3
              split
              · exact hk2
              · exact canonical_joinUpdateAt hk2
            exact .ok (canonical_modCx hs3)

theorem canonical_endStrand {abnormal : Bool} (h : Canonical s) : Either CanonicalStop Canonical (endStrand abnormal s) := by
  unfold endStrand
  extract_lets join rest
  split
  · exact .error .stall
  · unfold rest
    refine Either.bind (canonical_joinCheck h) fun _ hk => ?_
    split
    · extract_lets s2 s3
      have hs2 : Canonical s2 := by unfold s2; exact canonical_modStrand hk
      have hs3 : Canonical s3 := by unfold s3; exact canonical_finishStrand hs2
      exact .ok (canonical_leaveU (canonical_disband hs3))

theorem canonical_execExit {o : LH} (h : Canonical s) : CanonicalNext (execExit o s) := by
  unfold execExit
  refine canonical_run h fun _ hk => ?_
  refine canonical_attempt ?_ hk
  intro _ hk1
  split
  · exact canonical_exitInline hk1
  · exact canonical_endStrand hk1

/-! ### MIGRATE (R191, R216) -/

theorem canonical_execMigrate {o : LH} (h : Canonical s) : CanonicalNext (execMigrate o s) := by
  unfold execMigrate
  refine canonical_run h fun _ hk => ?_
  refine canonical_attempt ?_ hk
  intro _ hk1
  extract_lets w s0 g crew
  have hs0 : Canonical s0 := by unfold s0; exact canonical_interruptLong hk1
  split
  · exact .ok (canonical_retX hk1)
  · split
    · exact .ok (canonical_retX hk1)
    · split
      · exact .ok (canonical_retX hk1)
      · split
        · exact .ok (canonical_retX hk1)
        · split
          · exact .error (.stallIn (canonical_modCx hk1))
          · split
            · exact .ok (canonical_startMove hs0)
            · split
              · next e1 => exact .ok (canonical_leaveU ((canonical_overflow hs0).of_ok e1 :))
              · exact .error .trap

/-! ### BAR, CREWINFO, SELF (R192, R193) -/

theorem canonical_execBar {o : LI16} (h : Canonical s) : CanonicalNext (execBar o s) := by
  unfold execBar
  refine canonical_run h fun _ hk => ?_
  refine Either.bind canonical_orderWait fun _ _ => ?_
  extract_lets n
  split
  · exact .ok (canonical_advance hk)
  · extract_lets i w1
    split
    · exact .ok (canonical_advance (canonical_modCrew hk))
    · exact .error (.stallIn (canonical_modCrew hk))

theorem canonical_execCrewinfo {o : LH} (h : Canonical s) : CanonicalNext (execCrewinfo o s) := by
  unfold execCrewinfo
  refine canonical_run h fun _ hk => ?_
  extract_lets crew members i core
  split <;> exact .ok (canonical_retX hk)

/-! ### ENQT (R197) -/

theorem canonical_clusterReady {asid va : ℕ} (h : Canonical s) : Canonical (s.clusterReady asid va) := by
  unfold State.clusterReady
  split
  · next e =>
      split
      · exact ((canonical_recordWait h).of_some e :)
      · next e1 => exact ((canonical_casStatus ((canonical_recordWait h).of_some e :)).of_some e1 :).update rfl
  · next e => exact ((canonical_recordWait h).of_some e :)
  · exact h

theorem canonical_execEnqt {o : LH} (h : Canonical s) : CanonicalNext (execEnqt o s) := by
  unfold execEnqt
  refine canonical_run h fun _ hk => ?_
  refine canonical_attempt ?_ hk
  intro _ hk1
  refine Either.bind canonical_orderWait fun _ _ => ?_
  extract_lets va sel st k s1 rest
  have hs1 : Canonical s1 := by unfold s1; exact canonical_modCluster hk1
  split
  · exact .error .trap
  · unfold rest
    split
    · exact .ok (canonical_retX hk1)
    · exact .ok (canonical_retX (canonical_clusterReady hs1))

/-! ### TDONE (R198) -/

theorem canonical_execTdone {o : LH} (h : Canonical s) : CanonicalNext (execTdone o s) := by
  unfold execTdone
  refine canonical_run h fun _ hk => ?_
  refine canonical_attempt ?_ hk
  intro _ hk1
  refine Either.bind canonical_orderWait fun _ _ => ?_
  extract_lets va rest
  split
  · exact .error .trap
  · unfold rest
    refine Either.bind (canonical_loadAt hk1) fun _ hk3 => ?_
    split
    · split
      · exact .ok (canonical_retX hk3)
      · split
        · exact .ok (canonical_retX hk3)
        · next e => exact .ok (canonical_retX ((canonical_completeRecord hk3).of_some e :))

/-! ### Graph templates (R302, R303) -/

theorem canonical_readTemplate {asid va : ℕ} (h : Canonical s) : Either Stateless CanonicalFst (s.readTemplate asid va) := by
  unfold State.readTemplate
  split
  · exact .error trivial
  · split
    · exact .error trivial
    · next e =>
        split
        · exact .ok ((canonical_devReads h).of_some e :)
        · split
          · exact .error trivial
          · extract_lets g n
            split
            · exact .error trivial
            · next e2 =>
                split
                · exact .ok ((canonical_devReads ((canonical_devReads h).of_some e :)).of_some e2 :)
                · split
                  · exact .error trivial
                  · exact .ok ((canonical_devReads ((canonical_devReads h).of_some e :)).of_some e2 :)

theorem canonical_readPatches {asid va len : ℕ} (h : Canonical s) : Either Stateless CanonicalFst (s.readPatches asid va len) := by
  unfold State.readPatches
  split
  · exact .ok h
  · split
    · exact .error trivial
    · split
      · exact .error trivial
      · next e =>
          split
          · exact .error trivial
          · split
            · exact .error trivial
            · next e1 =>
                split
                · exact .error trivial
                · exact .ok ((canonical_devReads ((canonical_devRead h).of_some e :)).of_some e1 :)

theorem canonical_freeRunSlot {asid : ℕ} {l : List ℕ} (h : Canonical s) : CanonicalFst (s.freeRunSlot asid l) := by
  induction l generalizing s asid with
  | nil =>
    rw [State.freeRunSlot]
    exact h
  | cons q t ih =>
    rw [State.freeRunSlot]
    split
    · next e => exact ((canonical_devRead h).of_some e :)
    · next e => exact ih ((canonical_devRead h).of_some e :)
    · exact ih h

theorem canonical_makeRun {asid va origin : ℕ} {t : Template} {patches : List (ℕ × ℕ)} (h : Canonical s) :
    CanonicalFst (s.makeRun asid va origin t patches) := by
  unfold State.makeRun
  split
  · next e => exact ((canonical_freeRunSlot h).carry e :)
  · next e =>
      extract_lets prev base s11 s2 s3
      have hs11 : Canonical s11 := canonical_devWrites ((canonical_freeRunSlot h).carry e :)
      have hs2 : Canonical s2 := by unfold s2; exact canonical_devWrites hs11
      have hs3 : Canonical s3 := by unfold s3; exact keeps_foldl hs2 (fun _ _ hk => canonical_devWrites hk)
      split
      · next e1 =>
          extract_lets r s5
          have hs5 : Canonical s5 := ((canonical_freshId hs3).carry e1 :).update rfl
          clear_value prev
          split
          · exact canonical_releaseRun hs5
          · split
            · exact hs5
            · split
              · exact canonical_releaseRun hs5
              · exact canonical_cancelWalk hs5

theorem canonical_instantiate {asid va : ℕ} {patch origin : ℕ} (h : Canonical s) :
    Either Stateless CanonicalFst (s.instantiate asid va patch origin) := by
  unfold State.instantiate
  split
  · exact .error trivial
  · next e =>
      split
      · exact .error trivial
      · next e1 => exact .ok (canonical_makeRun ((canonical_readPatches ((canonical_readTemplate h).of_ok e :)).of_ok e1 :))

theorem canonical_touch {need : Need} {n n1 n2 : ℕ} (h : Canonical s) : Either CanonicalStop Canonical (touch need n n1 n2 s) := by
  induction n generalizing need n1 n2 s with
  | zero =>
    rw [touch]
    exact .ok h
  | succ fuel ih =>
    rw [touch]
    split
    · exact .ok h
    · refine Either.bind canonical_checkRange fun _ _ => ?_
      refine Either.bind (canonical_access h) fun _ hk1 => ?_
      split
      · exact ih hk1

theorem canonical_grunTouch {va patch : ℕ} (h : Canonical s) : Either CanonicalStop Canonical (grunTouch va patch s) := by
  unfold grunTouch
  refine Either.bind (canonical_touch h) fun _ hk => ?_
  split
  · exact .ok hk
  · split
    · exact .ok hk
    · extract_lets len
      refine Either.bind (canonical_touch hk) fun _ hk1 => ?_
      split
      · exact .ok hk1
      · refine Either.bind (canonical_touch hk1) fun _ hk2 => ?_
        split
        · exact .ok hk2
        · split
          · exact .ok hk2
          · exact canonical_touch hk2

theorem canonical_claimTouch {t : Template} {l : List ℕ} (h : Canonical s) : Either CanonicalStop Canonical (claimTouch t l s) := by
  induction l generalizing t s with
  | nil =>
    rw [claimTouch]
    exact .ok h
  | cons off t_1 ih =>
    rw [claimTouch]
    refine Either.bind (canonical_touch h) fun _ hk => ?_
    split
    · exact canonical_touch hk
    · exact ih hk

theorem canonical_execGrun {o : LH} (h : Canonical s) : CanonicalNext (execGrun o s) := by
  unfold execGrun
  refine canonical_run h fun _ hk => ?_
  refine canonical_attempt ?_ hk
  intro _ hk1
  refine Either.bind canonical_orderWait fun _ _ => ?_
  extract_lets va patch asid rest rest1
  split
  · exact .error .trap
  · unfold rest1
    split
    · exact .error .trap
    · unfold rest
      refine Either.bind (canonical_grunTouch hk1) fun _ hk3 => ?_
      split
      · exact .error (.trapIn hk3)
      · next e =>
          split
          · exact .error (.trapIn ((canonical_readTemplate hk3).of_ok e :))
          · next e1 =>
              refine Either.bind (canonical_claimTouch ((canonical_readPatches ((canonical_readTemplate hk3).of_ok e :)).of_ok e1 :)) fun _ hk4 => ?_
              split
              · next e2 => exact .ok (canonical_retX ((canonical_makeRun hk4).carry e2 :))

/-! ### CBINV (R200, R304) -/

theorem canonical_rangeOperand {a b : BitVec 5} : Either CanonicalStop Stateless (rangeOperand s a b) := by
  unfold rangeOperand
  extract_lets lo n
  split
  · exact .ok trivial
  · split
    · exact .error .trap
    · exact .ok trivial

/-! ### The syscall ring (R201, R305, R353, R354) -/

theorem canonical_sysPlace {sp : Space} {p : ℕ} (h : Canonical s) :
    Either CanonicalStop CanonicalFst (s.sysPlace sp p) := canonical_translate h

theorem canonical_sysFreeRun {sp : Space} {w : Who} {n n1 : ℕ} (h : Canonical s) :
    Either CanonicalStop CanonicalFst (s.sysFreeRun sp w n n1) := by
  induction n generalizing s sp w n1 with
  | zero =>
    rw [State.sysFreeRun]
    exact .ok h
  | succ k ih =>
    rw [State.sysFreeRun]
    refine Either.bind (canonical_translate h) fun _ hk => ?_
    split
    · split
      · refine Either.bind (ih hk) fun _ hk1 => ?_
        split
        · exact .ok hk1
      · exact .ok hk

theorem canonical_waitRing (h : Canonical s) : Canonical (waitRing s) := by
  unfold waitRing
  extract_lets k may order queued
  refine canonical_modSpace ?_
  split
  · exact canonical_parkU h
  · exact h

theorem canonical_ringMsix {sp : Space} (h : Canonical s) : Canonical (s.ringMsix sp) := by
  unfold State.ringMsix
  split
  · exact h
  · split
    · exact h
    · extract_lets s1 src
      have hs1 : Canonical s1 := by unfold s1; exact canonical_modSpace h
      exact hs1.update rfl

theorem canonical_issueSysc {sp : Space} {o : LH} {pl : Place} (h : Canonical s) : Canonical (issueSysc sp o pl s) := by
  unfold issueSysc
  extract_lets body s1 s2 q
  have hs1 : Canonical s1 := by unfold s1; exact canonical_placeWrite h
  have hs2 : Canonical s2 := by unfold s2; exact canonical_ringMsix (canonical_modSpace hs1)
  exact canonical_advance (canonical_setPending (hs2.update rfl))

theorem canonical_execSysc {o : LH} (h : Canonical s) : CanonicalNext (execSysc o s) := by
  unfold execSysc
  refine canonical_run h fun _ hk => ?_
  refine canonical_attempt ?_ hk
  intro _ hk1
  extract_lets w ring
  clear_value ring
  split
  · exact .error .trap
  · next x _ =>
      split
      · exact .error .trap
      · split
        · next e1 => exact .error (canonical_tokenCheck.of_some e1 :)
        · extract_lets granted need rest
          split
          · exact .error .stall
          · unfold rest
            refine Either.bind canonical_orderWait fun _ _ => ?_
            refine Either.bind (canonical_translate hk1) fun _ hk3 => ?_
            split
            · refine Either.bind (canonical_sysFreeRun hk3) fun _ hk4 => ?_
              split
              · split
                · exact .ok (canonical_issueSysc (canonical_leaveRing hk4))
                · refine .error ?_
                  refine .stallIn ?_
                  split
                  · exact hk4
                  · exact canonical_waitRing hk4

theorem canonical_syscRingRetry {asid : ℕ} (h : Canonical s) : Canonical (syscRingRetry asid s) := by
  unfold syscRingRetry
  refine canonical_attemptState h fun _ hk => ?_
  split
  · exact hk
  · split
    · exact hk
    · split
      · next e1 =>
          exact IfAny.getD (canonical_stop_waits hk ((canonical_sysFreeRun hk).of_error e1 :))
              (canonical_stop_left hk ((canonical_sysFreeRun hk).of_error e1 :))
      · next e1 =>
          extract_lets next s2 s3
          have hs2 : Canonical s2 := canonical_modSpace ((canonical_sysFreeRun hk).of_ok e1 :)
          have hs3 : Canonical s3 := by unfold s3; exact canonical_mapCores hs2
          split
          · exact ((canonical_sysFreeRun hk).of_ok e1 :)
          · exact keeps_foldl hs3 (fun _ _ hk1 => canonical_nextU hk1)

theorem canonical_syscResult {asid pos : ℕ} (h : Canonical s) : Canonical (syscResult asid pos s) := by
  unfold syscResult
  split
  · split
    · next e2 =>
        exact IfAny.getD (canonical_stop_waits h ((canonical_sysPlace h).of_error e2 :))
            (canonical_stop_left h ((canonical_sysPlace h).of_error e2 :))
    · next e2 =>
        split
        · exact h
        · extract_lets v s2
          have hs2 : Canonical s2 := ((canonical_sysPlace h).of_ok e2 :).update rfl
          split
          · exact hs2
          · exact canonical_deliver hs2
  · exact h

/-! ### SRET (R206) -/

theorem canonical_execSret {o : LN} (h : Canonical s) : CanonicalNext (execSret o s) := by
  unfold execSret
  refine canonical_run h fun _ hk => ?_
  refine canonical_attempt ?_ hk
  intro _ hk1
  extract_lets p
  split
  · exact .error .trap
  · split
    · exact .ok (canonical_modCx hk1)
    · split
      · exact .error .stall
      · exact .ok (canonical_serviceReturn hk1)

/-! ### WAIT (R202) -/

theorem canonical_execWait {o : LH} (h : Canonical s) : CanonicalNext (execWait o s) := by
  unfold execWait
  refine canonical_run h fun _ hk => ?_
  refine canonical_attempt ?_ hk
  intro _ hk1
  refine Either.bind canonical_orderWait fun _ _ => ?_
  refine Either.bind canonical_checkAddr fun _ _ => ?_
  refine Either.bind (canonical_loadAt hk1) fun _ hk4 => ?_
  split
  · extract_lets t limit late s2
    have hs2 : Canonical s2 := by unfold s2; exact canonical_modCx hk4
    split
    · exact .ok (canonical_retX hk4)
    · exact canonical_waitOrPark hs2

/-! ### XINV, OPREQ (R203, R207) -/

theorem canonical_execXinv {o : LH} (h : Canonical s) : CanonicalNext (execXinv o s) := by
  unfold execXinv
  refine canonical_run h fun _ hk => ?_
  refine Either.bind canonical_rangeOperand fun _ _ => ?_
  split
  · exact .ok (canonical_advance hk)
  · split
    · exact .ok (canonical_advance hk)
    · split
      · exact .error .stall
      · exact .ok (canonical_advance (canonical_dropRange hk))

/-! ### PREEMPT, CTXSTREAM (R208, R209, R327) -/

theorem canonical_stopHeld {asid sid info : ℕ} (h : Canonical s) : Either Stateless Canonical (s.stopHeld asid sid info) := by
  unfold State.stopHeld
  extract_lets s1
  have hs1 : Canonical s1 := by unfold s1; exact canonical_modStrand h
  split
  · exact canonical_stopCrew hs1
  · exact .ok hs1

theorem canonical_askStop {c asid : ℕ} {sid n : ℕ} (h : Canonical s) : Canonical (s.askStop c asid sid n) := by
  unfold State.askStop
  split
  · exact h
  · extract_lets src
    have hsrc : Canonical src := by unfold src; exact canonical_modCx h
    exact hsrc.update rfl

theorem canonical_preemptAct {o : LH} {c asid : ℕ} {sid n : ℕ} (h : Canonical s) :
    Either CanonicalStop Canonical (preemptAct o s c asid sid n) := by
  unfold preemptAct
  extract_lets wait answer
  have hwait : Either CanonicalStop Canonical wait := by unfold wait; exact .error (.stallIn (canonical_askStop h))
  have hanswer : ∀ (r : Except SpillErr State),
  Either Stateless Canonical r → ∀ (mine : Bool), Either CanonicalStop Canonical (answer r mine) := by
    intro _ hk _
    unfold answer
    split
    · refine .ok ?_
      split
      · exact (hk.of_ok rfl)
      · exact canonical_retX (hk.of_ok rfl)
    · exact .error .trap
  split
  · exact hwait
  · split
    · split
      · exact hwait
      · split
        · exact hanswer _ (canonical_stopU (canonical_retX h)) _
        · exact hanswer _ (canonical_stopU h) _
    · split
      · exact hanswer _ (canonical_stopHeld h) _
      · exact hwait
    · exact hwait
    · exact .ok (canonical_retX h)
    · exact .ok (canonical_retX h)

theorem canonical_execPreempt {o : LH} (h : Canonical s) : CanonicalNext (execPreempt o s) := by
  unfold execPreempt
  refine canonical_run h fun _ hk => ?_
  refine canonical_attempt ?_ hk
  intro _ hk1
  split
  · extract_lets st
    split
    · exact .ok (canonical_retX hk1)
    · exact canonical_preemptAct hk1

theorem canonical_touchAim {a : ℕ} (h : Canonical s) : Canonical (s.touchAim a) := by
  unfold State.touchAim
  split
  · split
    · exact canonical_devTouch h
    · exact h
  · exact h

theorem canonical_fwdTo {a asid b : ℕ} (h : Canonical s) : Canonical (s.fwdTo a asid b) := canonical_modCore h

theorem canonical_moveHeld {a b : ℕ} {asid sid : ℕ} (h : Canonical s) : Canonical (s.moveHeld a b asid sid) := by
  unfold State.moveHeld
  extract_lets mine k es regs reserved g s1 s2 s3 left
  have hs1 : Canonical s1 := by unfold s1; exact canonical_modCore h
  have hs2 : Canonical s2 := by unfold s2; exact canonical_modCore hs1
  have hs3 : Canonical s3 := by unfold s3; exact canonical_modStrand hs2
  have hleft : Canonical left := by unfold left; exact canonical_leaveU (canonical_modCore hs3)
  split
  · exact canonical_modCore (canonical_enterU hleft)
  · split
    · exact canonical_reserveFor hleft
    · exact hs3

theorem canonical_dropArrivals {asid sid : ℕ} (h : Canonical s) : Canonical (s.dropArrivals asid sid) := by
  unfold State.dropArrivals
  split
  · exact canonical_modCrew h
  · exact h

theorem canonical_beginStream {a b info : ℕ} (h : Canonical s) : CanonicalFst (s.beginStream a b info) := by
  unfold State.beginStream
  extract_lets s1 asid sid s11 g
  have hs1 : Canonical s1 := by unfold s1; exact canonical_interruptLong h
  have hs11 : Canonical s11 := by unfold s11; exact canonical_dropArrivals hs1
  clear_value s1 s11 g
  split
  · extract_lets s2
    have hs2 : Canonical s2 := by unfold s2; exact canonical_holdGang (canonical_fwdTo hs11)
    exact canonical_moveHeld (canonical_modStrand hs2)
  · exact CanonicalFst.pair (canonical_startMove hs11)

theorem canonical_streamAct {o : LH} {b c : ℕ} {asid sid n : ℕ} (h : Canonical s) :
    Either CanonicalStop Canonical (streamAct o s b c asid sid n) := by
  unfold streamAct
  extract_lets wait a
  have hwait : Either CanonicalStop Canonical wait := by unfold wait; exact .error (.stallIn (canonical_askStop h))
  split
  · exact hwait
  · split
    · split
      · exact hwait
      · split
        · exact .ok (canonical_beginStream (canonical_retX h))
        · split
          · next e1 => exact .error (.stallIn (canonical_modCx ((canonical_beginStream h).carry e1 :)))
          · next e1 => exact .ok (canonical_retX ((canonical_beginStream h).carry e1 :))
    · split
      · exact hwait
      · exact .ok (canonical_retX (canonical_moveHeld (canonical_dropArrivals (canonical_fwdTo h))))
    · exact hwait
    · exact .ok (canonical_retX h)
    · exact .ok (canonical_retX h)

theorem canonical_execCtxstream {o : LH} (h : Canonical s) : CanonicalNext (execCtxstream o s) := by
  unfold execCtxstream
  refine canonical_run h fun _ hk => ?_
  refine canonical_attempt ?_ hk
  intro _ hk1
  extract_lets b
  split
  · split
    · exact .error .stall
    · exact .ok (canonical_retX hk1)
  · split
    · extract_lets s1 st
      have hs1 : Canonical s1 := by unfold s1; exact canonical_touchAim hk1
      split
      · exact .ok (canonical_retX hs1)
      · exact canonical_streamAct hs1

end Sys2Proof.Proofs
end


section
/-! SUPPORT. Every function of a step keeps memory canonical (O26): scalar floating point, vector memory and entries, and the moves of strands. -/

namespace Sys2Proof.Proofs
open Sys2Proof.Machine

variable {s : State}

theorem canonical_fpArith {i : Instr} {op : FOp} {o : LH} (h : Canonical s) : Either CanonicalStop Canonical (fpArith i op o s) := by
  unfold fpArith
  extract_lets fc
  exact Either.bind canonical_checkMode (fun _ _ => .ok (canonical_retF h))

theorem canonical_execFsqrt {o : LH} (h : Canonical s) : CanonicalNext (execFsqrt o s) := by
  unfold execFsqrt
  refine canonical_run h fun _ hk => ?_
  extract_lets fc
  exact Either.bind canonical_checkMode (fun _ _ => .ok (canonical_retF hk))

theorem canonical_fpMinMax {mx : Bool} {o : LH} (h : Canonical s) : Either CanonicalStop Canonical (fpMinMax mx o s) := by
  unfold fpMinMax
  extract_lets fc
  exact .ok (canonical_retF h)

theorem canonical_execFcmp {o : LH} (h : Canonical s) : CanonicalNext (execFcmp o s) := by
  unfold execFcmp
  refine canonical_run h fun _ hk => ?_
  extract_lets fc r
  exact .ok (canonical_retX (canonical_orFlags hk))

theorem canonical_execFma {o : LW} (h : Canonical s) : CanonicalNext (execFma o s) := by
  unfold execFma
  refine canonical_run h fun _ hk => ?_
  extract_lets fc
  exact Either.bind canonical_checkMode (fun _ _ => .ok (canonical_retF hk))

theorem canonical_execFcvt {o : LH} (h : Canonical s) : CanonicalNext (execFcvt o s) := by
  unfold execFcvt
  refine canonical_run h fun _ hk => ?_
  extract_lets src tgt r
  split
  · exact .error .trap
  · exact Either.bind canonical_checkMode (fun _ _ => .ok (canonical_retX (canonical_orFlags hk)))

theorem canonical_execFclass {o : LH} (h : Canonical s) : CanonicalNext (execFclass o s) := by
  unfold execFclass
  refine canonical_run h fun _ hk => ?_
  extract_lets fc
  split
  · exact .error .trap
  · exact .ok (canonical_retX hk)

/-! ### Issue -/

theorem canonical_issueEntry {i : Instr} {vl : ℕ} {c : Captured} (h : Canonical s) :
    Either CanonicalStop Canonical (issueEntry i vl c s) := by
  unfold issueEntry
  split
  · exact .error .stall
  · extract_lets e
    exact .ok (canonical_advance (canonical_modCore h))

theorem canonical_vectorChecks {i : Instr} : Either CanonicalStop Stateless (vectorChecks i s) := by
  unfold vectorChecks
  split
  · next e1 => exact .error (canonical_vectorAllowed.of_error e1 :)
  · exact canonical_ewLive

theorem canonical_needFloat {i : Instr} : Either CanonicalStop Stateless (needFloat i s) := by
  unfold needFloat
  split
  · exact .ok trivial
  · exact .error .trap

theorem canonical_satAllowed {i : Instr} {sat : Bool} : Either CanonicalStop Stateless (satAllowed i sat s) := by
  unfold satAllowed
  split
  · exact .error .trap
  · exact .ok trivial

/-! ### Issue checks (R131, R147, R148, R151, R152) -/

theorem canonical_plainFormat {i : Instr} {p : Word} {special : Bool} : Either CanonicalStop Stateless (plainFormat i p special s) := by
  unfold plainFormat
  extract_lets fc
  split
  · exact .error .trap
  · exact .ok trivial

theorem canonical_scaledFormat {i : Instr} {p q : Word} : Either CanonicalStop Stateless (scaledFormat i p q s) := by
  unfold scaledFormat
  extract_lets fc
  split
  · exact .error .trap
  · split
    · exact .error .trap
    · split
      · exact .error .trap
      · split
        · exact .error .trap
        · split
          · exact .error .trap
          · exact .ok trivial

theorem canonical_notifyAlign {o : LX} : Either CanonicalStop Stateless (notifyAlign o s) := by
  unfold notifyAlign
  split
  · exact canonical_checkAlign
  · exact .ok trivial

theorem canonical_strideAlign {stride : Word} {ea : ℤ} {size : ℕ} : Either CanonicalStop Stateless (strideAlign stride ea size) := by
  unfold strideAlign
  split
  · exact .ok trivial
  · exact .error .trap

theorem canonical_issuePlain {i : Instr} {o : LX} {store : Bool} (h : Canonical s) :
    Either CanonicalStop Canonical (issuePlain i o store s) := by
  unfold issuePlain
  refine Either.bind canonical_vectorChecks fun _ _ => ?_
  extract_lets p w strided ea size src
  refine Either.bind canonical_plainFormat fun _ _ => ?_
  refine Either.bind canonical_checkMode fun _ _ => ?_
  refine Either.bind canonical_checkAlign fun _ _ => ?_
  split
  · exact Either.bind canonical_strideAlign (fun _ _ => Either.bind canonical_notifyAlign (fun _ _ => Either.bind canonical_checkRange
      (fun _ _ => canonical_issueEntry h)))
  · exact Either.bind canonical_notifyAlign (fun _ _ => Either.bind canonical_checkRange (fun _ _ => canonical_issueEntry h))

theorem canonical_issueIndexed {i : Instr} {o : LX} {store : Bool} (h : Canonical s) :
    Either CanonicalStop Canonical (issueIndexed i o store s) := by
  unfold issueIndexed
  refine Either.bind canonical_vectorChecks fun _ _ => ?_
  extract_lets p w ea
  exact Either.bind canonical_plainFormat (fun _ _ => Either.bind canonical_checkMode (fun _ _ => Either.bind canonical_checkAlign
      (fun _ _ => Either.bind canonical_notifyAlign (fun _ _ => Either.bind canonical_checkRange (fun _ _ => canonical_issueEntry h)))))

theorem canonical_issueScaled {i : Instr} {o : LX} {store : Bool} (h : Canonical s) :
    Either CanonicalStop Canonical (issueScaled i o store s) := by
  unfold issueScaled
  refine Either.bind canonical_vectorChecks fun _ _ => ?_
  extract_lets p fc ea
  exact Either.bind canonical_scaledFormat (fun _ _ => Either.bind canonical_checkMode (fun _ _ => Either.bind canonical_checkAlign
      (fun _ _ => Either.bind canonical_notifyAlign (fun _ _ => Either.bind canonical_checkRange (fun _ _ => canonical_issueEntry h)))))

theorem canonical_issueMaskMem {i : Instr} {o : LX} (h : Canonical s) :
    Either CanonicalStop Canonical (issueMaskMem i o s) := Either.bind canonical_vectorChecks
        (fun _ _ => Either.bind canonical_checkRange (fun _ _ => canonical_issueEntry h))

theorem canonical_issueLane {i : Instr} {o : LX} (h : Canonical s) : Either CanonicalStop Canonical (issueLane i o s) := by
  unfold issueLane
  refine Either.bind canonical_vectorChecks fun _ _ => ?_
  extract_lets src
  split
  · exact Either.bind canonical_checkRange (fun _ _ => canonical_issueEntry h)
  · exact canonical_issueEntry h

/-! ### Checks before any element performs (R150) -/

theorem canonical_vstop {elem : ℕ} {x : Stop} (h : Canonical s) (hx : CanonicalStop x) : CanonicalVStop (vstop elem s x) := by
  unfold vstop
  split
  · exact .fault h
  · exact .fault hx.of_trapIn
  · exact .wait h
  · exact .wait hx.of_stallIn
  · exact .park hx.of_parkHost
  · exact .wait h

theorem canonical_checkPart {w : Who} {p : Part} (h : Canonical s) : Either CanonicalVStop CanonicalFst (checkPart w p s) := by
  unfold checkPart
  split
  · exact .error (.fault h)
  · split
    · exact .error (.fault h)
    · split
      · next e => exact .error (canonical_vstop h ((canonical_access h).of_error e :))
      · next e =>
          split
          · exact .error (.fault ((canonical_access h).of_ok e :))
          · exact .ok ((canonical_access h).of_ok e :)

theorem canonical_checkParts {w : Who} {l : List Part} {x : Option Failure} (h : Canonical s) :
    Either CanonicalVStop CanonicalFst (checkParts w l x s) := by
  fun_induction checkParts w l x s with
  | case1 => exact .ok h
  | case2 => exact .error (.fault h)
  | case3 p t _ _ _ s _ _ _ _ s1 e ih => exact ih (((canonical_checkPart h).of_error e).of_fault :)
  | case4 p t _ _ _ s _ x _ e => exact .error ((canonical_checkPart h).of_error e :)
  | case5 p t _ _ _ s _ s1 _ e ih => exact ih ((canonical_checkPart h).of_ok e :)
  | case6 p t _ _ _ s _ ih => exact ih h
  | case7 p t s _ _ _ s1 e ih => exact ih (((canonical_checkPart h).of_error e).of_fault :)
  | case8 p t s x _ e => exact .error ((canonical_checkPart h).of_error e :)
  | case9 p t s s1 _ e x e2 ih => exact .error ((ih ((canonical_checkPart h).of_ok e :)).of_error e2 :)
  | case10 p t s s1 _ e s2 _ e2 ih => exact .ok ((ih ((canonical_checkPart h).of_ok e :)).of_ok e2 :)

/-! ### Performing an entry -/

theorem canonical_putPart {asid fc : ℕ} {p : Part × Place} {code : ℕ} (h : Canonical s) : Canonical (s.putPart asid fc p code) := by
  unfold State.putPart
  split
  · extract_lets old
    exact canonical_placeWrite h
  · exact canonical_placeWrite h

theorem canonical_storeParts {k : Core} {asid : ℕ} {e : VEntry} {l : List (Part × Place)} (h : Canonical s) :
    CanonicalFst (s.storeParts k asid e l) := by
  induction l generalizing s k asid e with
  | nil =>
    rw [State.storeParts]
    exact h
  | cons p t ih =>
    rw [State.storeParts]
    split
    · next e1 => exact ((ih (canonical_putPart h)).carry e1 :)

theorem canonical_notifyPlace {w : Who} {e : VEntry} (h : Canonical s) : Either CanonicalVStop CanonicalFst (notifyPlace w e s) := by
  unfold notifyPlace
  split
  · exact .ok h
  · split
    · next e3 => exact .error ((canonical_checkPart h).of_error e3 :)
    · next e2 => exact .ok ((canonical_checkPart h).of_ok e2 :)

theorem canonical_countParts {asid lo : ℕ} {l : List (Part × Place)} (h : Canonical s) : Canonical (s.countParts asid lo l) := by
  unfold State.countParts
  refine keeps_foldl h fun _ _ hk => ?_
  split
  · exact hk
  · exact canonical_countHot hk

theorem canonical_memEntry {c : ℕ} {e : VEntry} (h : Canonical s) : Either CanonicalVStop CanonicalFst (memEntry c e s) := by
  unfold memEntry
  extract_lets k loads w
  split
  · next e2 => exact .error ((canonical_checkParts h).of_error e2 :)
  · next e1 =>
      split
      · next e2 => exact .error ((canonical_notifyPlace ((canonical_checkParts h).of_ok e1 :)).of_error e2 :)
      · next e2 =>
          extract_lets places writes
          split
          · next e3 =>
              split
              · exact .error (.wait (canonical_noteMoving ((canonical_pinAll ((canonical_notifyPlace
                  ((canonical_checkParts h).of_ok e1 :)).of_ok e2 :)).carry e3 :)))
              · split
                · next e4 =>
                    extract_lets s5 s6
                    have hs5 : Canonical s5 := by
                      unfold s5
                      refine canonical_countParts ?_
                      refine (CanonicalFst.carry ?_ e4 :)
                      split
                      · extract_lets r
                        exact canonical_setCore ((canonical_pinAll ((canonical_notifyPlace
                            ((canonical_checkParts h).of_ok e1 :)).of_ok e2 :)).carry e3 :)
                      · extract_lets r
                        have hr : CanonicalFst r := by
                          unfold r
                          exact canonical_storeParts ((canonical_pinAll ((canonical_notifyPlace
                              ((canonical_checkParts h).of_ok e1 :)).of_ok e2 :)).carry e3 :)
                        exact canonical_wroteWhole hr
                    have hs6 : Canonical s6 := by
                      unfold s6
                      split
                      · exact canonical_countHot (canonical_placeWrite hs5)
                      · exact hs5
                    exact .ok (canonical_unpin hs6)

/-! ### Lane slices (R153) -/

theorem canonical_sliceEntry {c : ℕ} {o : LX} {load : Bool} {e : VEntry} (h : Canonical s) :
    Either CanonicalVStop CanonicalFst (sliceEntry c o load e s) := by
  unfold sliceEntry
  extract_lets k w
  split
  · exact .error (.fault h)
  · split
    · exact .ok (canonical_setCore h)
    · extract_lets s1
      have hs1 : Canonical s1 := by unfold s1; exact keeps_foldl (P := fun m : Memory => m.wf = true) h (fun _ _ hk => Memory.wf_write hk _ _ _)
      exact .ok (canonical_wroteWhole hs1)

theorem canonical_atCtx {c : ℕ} {n : CtxName} {f : State → State} (hf : ∀ t, Canonical t → Canonical (f t)) (h : Canonical s) :
    Canonical (atCtx c n f s) := by
  unfold atCtx
  extract_lets s1
  have hs1 : Canonical s1 := by unfold s1; exact hf _ (h.update rfl)
  exact hs1.update rfl

/-! ### Completion -/

theorem canonical_completeEntry {c j : ℕ} {flags : BitVec 5} (h : Canonical s) :
    Canonical (completeEntry c j flags s) := canonical_modCore h

theorem canonical_settleFault {c : ℕ} (h : Canonical s) : Canonical (settleFault c s) := by
  unfold settleFault
  extract_lets k
  split
  · exact h
  · split
    · exact h
    · split
      · exact canonical_atCtx (fun _ hk => canonical_takeQfault hk) h
      · exact h

/-! ### The event -/

theorem canonical_performEntry {c : ℕ} {e : VEntry} (h : Canonical s) : Either CanonicalVStop CanonicalFst (performEntry c e s) := by
  unfold performEntry
  extract_lets k r
  split
  · exact .ok h
  · split
    · exact .error (.fault h)
    · split
      · exact canonical_sliceEntry h
      · exact canonical_sliceEntry h
      · exact canonical_memEntry h
      · exact canonical_memEntry h
      · exact canonical_memEntry h
      · exact canonical_memEntry h
      · exact canonical_memEntry h
      · exact canonical_memEntry h
      · exact canonical_memEntry h
      · exact canonical_memEntry h
      · exact .ok (canonical_setCore h)

theorem canonical_vectorEntry {c j : ℕ} (h : Canonical s) : Canonical (vectorEntry c j s) := by
  unfold vectorEntry
  refine canonical_attemptState h fun _ hk => ?_
  split
  · exact canonical_settleFault hk
  · split
    · next e2 => exact canonical_settleFault (canonical_completeEntry ((canonical_performEntry hk).of_ok e2 :))
    · next e2 => exact (((canonical_performEntry hk).of_error e2).of_wait :)
    · next e2 =>
        exact canonical_atCtx (fun _ hk1 => canonical_parkHost hk1) (canonical_modCore (((canonical_performEntry hk).of_error e2).of_park :))
    · next e2 =>
        extract_lets s2
        have hs2 : Canonical s2 := canonical_unpin (((canonical_performEntry hk).of_error e2).of_fault :)
        exact canonical_settleFault (canonical_modCore hs2)

/-! ### Placements under capture and replay (R405, R406) -/

theorem canonical_placed {what core index : ℕ} (h : Canonical s) : Canonical (s.placed what core index) := by
  unfold State.placed
  split
  · split
    · exact canonical_replayTake h
    · exact h
  · exact canonical_capture h

/-! ### LIVE_MOVE_ACK (R331) -/

theorem canonical_stranded {c : ℕ} {g : Image} {e : SpillErr} (h : Canonical s) : Canonical (s.stranded c g e) := by
  unfold State.stranded
  extract_lets s1
  have hs1 : Canonical s1 := by unfold s1; exact canonical_enterU (canonical_modCore h)
  exact canonical_pushEntry (canonical_modCore hs1)

theorem canonical_stopMates {w : Crew} {info : ℕ} (h : Canonical s) : Canonical (s.stopMates w info) := by
  unfold State.stopMates
  extract_lets s1
  have hs1 : Canonical s1 := by unfold s1; exact canonical_modCrew h
  exact hs1.update rfl

theorem canonical_stopMate {c : ℕ} (h : Canonical s) : Canonical (s.stopMate c) := by
  unfold State.stopMate
  extract_lets k s1
  have hs1 : Canonical s1 := by unfold s1; exact canonical_interruptLong h
  split
  · exact h
  · split
    · exact h
    · split
      · next e1 => exact ((canonical_stopOne h).of_ok e1 :)
      · extract_lets g
        exact canonical_pushEntry (canonical_modStrand (canonical_modCore hs1))

theorem canonical_moveFails {m : Move} (h : Canonical s) : Canonical (s.moveFails m) := by
  unfold State.moveFails
  extract_lets asid sid crew
  split
  · exact canonical_enterU h
  · split
    · exact canonical_stranded h
    · next e =>
        extract_lets s2
        have hs2 : Canonical s2 := by unfold s2; exact canonical_leaveU (canonical_modCore ((canonical_overflow h).of_ok e :))
        clear_value crew
        split
        · exact hs2
        · exact canonical_stopMates hs2

theorem canonical_moveLands {m : Move} {t : ℕ} (h : Canonical s) : Canonical (s.moveLands m t) := by
  unfold State.moveLands
  extract_lets s3 s4
  have hs3 : Canonical s3 := by
    unfold s3
    split
    · exact canonical_leaveU (canonical_modCore h)
    · exact h
  have hs4 : Canonical s4 := by unfold s4; exact canonical_modStrand hs3
  exact canonical_placed hs4

theorem canonical_movePoisoned {m : Move} {t : ℕ} (h : Canonical s) : Canonical (s.movePoisoned m t) := by
  unfold State.movePoisoned
  split
  · exact canonical_stranded h
  · next e => exact canonical_moveLands (canonical_refuseImage ((canonical_spillImage h).of_ok e :) .poison)

theorem canonical_liveMoveAck {id : ℕ} (h : Canonical s) : Canonical (liveMoveAck id s) := by
  unfold liveMoveAck
  refine canonical_attemptState h fun _ hk => ?_
  split
  · exact hk
  · split
    · exact canonical_capHold hk
    · extract_lets forced t s1
      have hs1 : Canonical s1 := hk.update rfl
      split
      · exact hk
      · split
        · split
          · exact canonical_moveFails hs1
          · exact canonical_moveLost hs1
        · split
          · exact hk
          · split
            · exact canonical_movePoisoned hs1
            · split
              · next e1 => exact canonical_moveLands ((canonical_seat hs1).of_some e1 :)
              · exact canonical_moveFails hs1

/-! ### MEASURED_MIGRATION (R233) -/

theorem canonical_closeWindow {c : ℕ} (h : Canonical s) : Canonical (s.closeWindow c) := by
  unfold State.closeWindow
  extract_lets k due src
  exact canonical_modStrand (canonical_modCore h)

theorem canonical_measuredMigration {c : ℕ} (h : Canonical s) : Canonical (measuredMigration c s) := by
  unfold measuredMigration
  extract_lets k stay s1 g
  have hstay : Canonical stay := by unfold stay; exact canonical_modCore h
  have hs1 : Canonical s1 := by unfold s1; exact canonical_interruptLong h
  split
  · exact h
  · split
    · exact hstay
    · split
      · exact h
      · split
        · exact hstay
        · split
          · exact h
          · exact canonical_startMove (canonical_modCore hs1)

/-! ### AGING, PARKED_WAIT_CHECK, WAIT_TIMEOUT (R202, R227, R228) -/

theorem canonical_aging {c : ℕ} (h : Canonical s) : Canonical (aging c s) := by
  unfold aging
  refine canonical_attemptState h fun _ hk => ?_
  extract_lets k
  split
  · exact hk
  · split
    · exact canonical_nextU hk
    · split
      · exact hk
      · refine canonical_atCtx ?_ hk
        intro _ hk1
        split
        · exact canonical_parkU hk1
        · exact hk1

theorem canonical_touchWait {p : Parked} (h : Canonical s) : Canonical (s.touchWait p) := by
  unfold State.touchWait
  split
  · split
    · exact h
    · exact canonical_devTouch h
  · split
    · exact h
    · exact canonical_devTouch h
  · exact h

theorem canonical_parkedCheck {c j : ℕ} (h : Canonical s) : Canonical (parkedCheck c j s) := by
  unfold parkedCheck
  refine canonical_attemptState h fun _ hk => ?_
  split
  · exact hk
  · extract_lets s1
    have hs1 : Canonical s1 := by unfold s1; exact canonical_touchWait hk
    split
    · exact hs1
    · exact canonical_nextU (canonical_modCore hs1)

theorem canonical_waitTimeout {asid sid : ℕ} (h : Canonical s) : Canonical (waitTimeout asid sid s) := by
  unfold waitTimeout
  refine keeps_foldl h fun _ _ hk => ?_
  split
  · split
    · split
      · exact canonical_parkedCheck hk
      · exact hk
    · exact hk

/-! ### OVERFLOW_ADMIT (R216, R229, R333) -/

theorem canonical_dropOverflow {site : ℕ} {e : Overflow} (h : Canonical s) : Canonical (s.dropOverflow site e) := canonical_modSite h

theorem canonical_admitBad {c : ℕ} {e : Overflow} {err : LoadErr} (h : Canonical s) (herr : CanonicalLoadErr err) :
    Canonical (s.admitBad c e err) := canonical_refuseImage h herr

theorem canonical_admitLoad {c : ℕ} {e : Overflow} (h : Canonical s) : Either CanonicalLoadErr CanonicalFst (s.admitLoad c e) := by
  unfold State.admitLoad
  split
  · next e2 => exact .error ((canonical_loadImage h).of_error e2 :)
  · next e1 => exact .ok (canonical_modStrand ((canonical_loadImage h).of_ok e1 :))

theorem canonical_admitOne {site c : ℕ} {e : Overflow} (h : Canonical s) : Canonical (s.admitOne site c e) := by
  unfold State.admitOne
  extract_lets s1
  have hs1 : Canonical s1 := by unfold s1; exact canonical_dropOverflow h
  split
  · next e2 => exact canonical_admitBad hs1 ((canonical_admitLoad hs1).of_error e2 :)
  · next e1 =>
      split
      · next e2 => exact canonical_placed ((canonical_seat ((canonical_admitLoad hs1).of_ok e1 :)).of_some e2 :)
      · exact h

theorem canonical_admitCrew {site : ℕ} {w : Crew} (h : Canonical s) : IfAny Canonical (s.admitCrew site w) := by
  unfold State.admitCrew
  extract_lets l
  split
  · exact .none
  · split
    · exact .some (canonical_capHold h)
    · refine IfAny.map ifAny_stateless fun _ _ => ?_
      refine keeps_foldl (canonical_modCrew h) fun _ _ hk1 => ?_
      split
      · exact canonical_admitOne hk1

theorem canonical_admitFrom {c site : ℕ} {l : List Overflow} (h : Canonical s) : Canonical (admitFrom c site l s) := by
  induction l generalizing c site s with
  | nil =>
    rw [admitFrom]
    exact h
  | cons e t ih =>
    rw [admitFrom]
    split
    · split
      · next e2 =>
          refine (IfAny.of_some (P := Canonical) ?_ e2 :)
          split
          · exact canonical_admitCrew h
          · exact .none
      · exact ih h
    · split
      · exact canonical_admitOne h
      · exact ih h

theorem canonical_overflowAdmit {c : ℕ} (h : Canonical s) : Canonical (overflowAdmit c s) := by
  unfold overflowAdmit
  refine canonical_attemptState h fun _ hk => ?_
  extract_lets site
  split
  · exact hk
  · split
    · exact canonical_capHold hk
    · exact canonical_admitFrom hk

/-! ### OCCUPANT_ZEROING_DONE (R28, R220, R247) -/

theorem canonical_zeroingDone {c : ℕ} (h : Canonical s) : Canonical (zeroingDone c s) := by
  unfold zeroingDone
  refine canonical_attemptState h fun _ hk => ?_
  split
  · exact hk
  · exact canonical_nextU (canonical_endZeroing hk)

/-! ### The watchdog (R301, R327) -/

theorem canonical_holdWatchdog {c : ℕ} {t : Strand} (h : Canonical s) : Canonical (s.holdWatchdog c t) := by
  unfold State.holdWatchdog
  extract_lets s1 w
  have hs1 : Canonical s1 := by unfold s1; exact canonical_interruptLong h
  split
  · next e =>
      extract_lets g
      refine canonical_holdU ?_
      refine (CanonicalMid.carry ?_ e :)
      split
      · exact canonical_disband hs1
      · exact hs1

theorem canonical_stopNow {asid sid : ℕ} (h : Canonical s) : Canonical (stopNow asid sid s) := by
  unfold stopNow
  refine canonical_attemptState h fun _ hk => ?_
  split
  · split
    · split
      · exact canonical_holdWatchdog hk
      · exact hk
    · exact hk
  · exact hk

theorem canonical_markT1 {t : Strand} (h : Canonical s) : Canonical (s.markT1 t) := by
  unfold State.markT1
  extract_lets held src
  have hsrc : Canonical src := by unfold src; exact canonical_modStrand h
  exact hsrc.update rfl

theorem canonical_watchdogT1 {asid sid : ℕ} (h : Canonical s) : Canonical (watchdogT1 asid sid s) := by
  unfold watchdogT1
  split
  · exact h
  · split
    · extract_lets mates s1 s2
      have hs1 : Canonical s1 := by unfold s1; exact keeps_foldl (canonical_event h) (fun _ _ hk => canonical_markT1 hk)
      have hs2 : Canonical s2 := by
        unfold s2
        split
        · exact canonical_modCrew hs1
        · exact hs1
      exact keeps_foldl hs2 (fun _ _ hk => canonical_stopNow hk)
    · exact canonical_stopNow h

theorem canonical_watchdogT2 {asid sid : ℕ} (h : Canonical s) : Canonical (watchdogT2 asid sid s) := by
  unfold watchdogT2
  refine canonical_attemptState h fun _ hk => ?_
  split
  · exact hk
  · split
    · exact hk
    · split
      · exact canonical_killAll hk
      · exact canonical_event (canonical_killAll hk)

theorem canonical_watchdogT3 {asid sid : ℕ} (h : Canonical s) : Canonical (watchdogT3 asid sid s) := by
  unfold watchdogT3
  refine canonical_attemptState h fun _ hk => ?_
  split
  · exact hk
  · split
    · exact hk
    · extract_lets s1 c s11
      have hs1 : Canonical s1 := by unfold s1; exact canonical_modStrand hk
      have hs11 : Canonical s11 := by
        unfold s11
        split
        · exact hs1
        · exact IfAny.getD (IfAny.map (canonical_completeRecord hs1) (fun _ hk1 => hk1)) hs1
      exact canonical_event (canonical_fence hs11)

end Sys2Proof.Proofs
end


section
/-! SUPPORT. Every function of a step keeps memory canonical (O26): errors, the managed heap, hosts and ports, and launch. -/

namespace Sys2Proof.Proofs
open Sys2Proof.Machine

variable {s : State}

/-! ### Corrected errors and poison (R378, R381, R385) -/

theorem canonical_countPc {pc corrected lost : ℕ} (h : Canonical s) : Canonical (s.countPc pc corrected lost) := by
  unfold State.countPc
  extract_lets e recent
  exact h.update rfl

theorem canonical_execErrorCorrected {unitKind unit : ℕ} {pa count : ℕ} (h : Canonical s) :
    CanonicalNext (execErrorCorrected unitKind unit pa count s) := by
  unfold execErrorCorrected
  refine .next ?_
  refine canonical_logCorrected ?_
  split
  · exact canonical_countPc h
  · exact h

theorem canonical_poisonKey {key : ℕ} (h : Canonical s) : Canonical (s.poisonKey key) := Memory.wf_setPoison h _

theorem canonical_poisonReg {c file : ℕ} {reg elem : ℕ} (h : Canonical s) : Canonical (s.poisonReg c file reg elem) := by
  unfold State.poisonReg
  split
  · exact canonical_modCore h

theorem canonical_poisonCreated {place unit addr : ℕ} (h : Canonical s) : Canonical (poisonCreated place unit addr s) := by
  unfold poisonCreated
  split
  · split
    · exact h
    · extract_lets atom frame pc s1 s2 src
      have hs1 : Canonical s1 := by unfold s1; exact canonical_logRecord (canonical_poisonKey h)
      have hs2 : Canonical s2 := by unfold s2; exact canonical_logRecord (canonical_countPc hs1)
      split
      · exact canonical_logRecord (canonical_poisonKey h)
      · exact hs2.update rfl
  · split
    · exact canonical_logRecord (canonical_poisonKey h)
    · exact h
  · split
    · exact canonical_logRecord (canonical_poisonKey h)
    · exact h
  · split
    · exact canonical_logRecord (canonical_poisonKey h)
    · exact h
  · exact canonical_logRecord (canonical_poisonReg h)
  · exact canonical_logRecord (canonical_poisonReg h)
  · exact canonical_logRecord (canonical_poisonReg h)
  · exact h

theorem canonical_execPseudoChannelFailing {pc : ℕ} (h : Canonical s) : CanonicalNext (execPseudoChannelFailing pc s) := by
  unfold execPseudoChannelFailing
  refine .next ?_
  split
  · exact canonical_reassess (canonical_logRecord (h.update rfl))
  · exact h

theorem canonical_execLinkDegrade {link : ℕ} (h : Canonical s) : CanonicalNext (execLinkDegrade link s) := by
  unfold execLinkDegrade
  extract_lets k src
  exact .next (canonical_logRecord (h.update rfl))

/-! ### Lanes and cores (R218, R219, R378, R382 to R384) -/

theorem canonical_execCoreFence {core : ℕ} (h : Canonical s) : CanonicalNext (execCoreFence core s) := by
  unfold execCoreFence
  refine .next ?_
  split
  · exact canonical_fence h
  · exact h

theorem canonical_breakGang {lead : ℕ} (h : Canonical s) : Canonical (s.breakGang lead) := by
  unfold State.breakGang
  split
  · extract_lets t s1 g
    have hs1 : Canonical s1 := by unfold s1; exact canonical_disband (canonical_interruptLong h)
    exact canonical_holdU hs1
  · exact h

theorem canonical_breakStep {c : ℕ} (h : Canonical s) : Canonical (breakStep c s) := by
  unfold breakStep
  extract_lets k off
  have hoff : ∀ (s : State), Canonical s → Canonical (off s) := fun _ hk => canonical_modCore hk
  split
  · split
    · exact canonical_breakGang (hoff _ h)
    · exact h
  · exact hoff _ h

theorem canonical_listRetired {c : ℕ} (h : Canonical s) : Canonical (s.listRetired c) := h.update rfl

theorem canonical_laneRetire {c lane : ℕ} (h : Canonical s) : Canonical (laneRetire c lane s) := by
  unfold laneRetire
  extract_lets k s1 src src1 s2 lead
  have hs1 : Canonical s1 := by unfold s1; exact canonical_modCore h
  have hs2 : Canonical s2 := hs1.update rfl
  split
  · exact h
  · split
    · exact canonical_listRetired (canonical_fence h)
    · exact canonical_reassess (canonical_modCore (canonical_logRecord hs2))

theorem canonical_evacuate {c : ℕ} (h : Canonical s) : Canonical (s.evacuate c) := by
  unfold State.evacuate
  extract_lets k sid s1 g
  have hs1 : Canonical s1 := by unfold s1; exact canonical_interruptLong h
  split
  · exact h
  · split
    · split
      · next e1 => exact ((canonical_stopU h).of_ok e1 :)
      · exact h
    · split
      · exact canonical_startMove hs1
      · split
        · next e1 => exact ((canonical_stopOne hs1).of_ok e1 :)
        · exact hs1

theorem canonical_retireStep {c : ℕ} (h : Canonical s) : Canonical (retireStep c s) := by
  unfold retireStep
  split
  · exact h
  · extract_lets s1
    have hs1 : Canonical s1 := by unfold s1; exact canonical_fence (canonical_evacuate h)
    exact canonical_listRetired hs1

theorem canonical_matrixFail {c : ℕ} (h : Canonical s) : Canonical (matrixFail c s) := by
  unfold matrixFail
  extract_lets k
  split
  · exact h
  · split
    · exact canonical_modCore h
    · exact canonical_retireStep (canonical_modCore h)

theorem canonical_moduleStop (h : Canonical s) : Canonical s.moduleStop := h.update rfl

theorem canonical_errorLogSpace (h : Canonical s) : Canonical (errorLogSpace s) := by
  unfold errorLogSpace
  split
  · exact h
  · split
    · exact h
    · split
      · exact h
      · next e1 => exact ((canonical_putRing h).of_some e1 :).update rfl

/-! ### Operating points (R262 to R266) -/

theorem canonical_growPool {site n : ℕ} (h : Canonical s) : Canonical (s.growPool site n) := by
  unfold State.growPool
  split
  · exact h
  · extract_lets s1
    have hs1 : Canonical s1 := by unfold s1; exact canonical_modSite h
    exact hs1.update rfl

theorem canonical_giveBack {t keep : ℕ} (h : Canonical s) : Canonical (s.giveBack t keep) := by
  unfold State.giveBack
  extract_lets x s1
  have hs1 : Canonical s1 := by unfold s1; exact canonical_modSite (canonical_modTile h)
  split
  · exact h
  · exact canonical_growPool hs1

theorem canonical_grantPoint {t p : ℕ} (h : Canonical s) : Canonical (s.grantPoint t p) := by
  unfold State.grantPoint
  extract_lets x more
  exact canonical_modSite (canonical_modTile h)

theorem canonical_modMates {t : ℕ} {f : Tile → Tile} (h : Canonical s) :
    Canonical (s.modMates t f) := keeps_foldl h (fun _ _ hk => canonical_modTile hk)

theorem canonical_noteAsk {t : ℕ} (h : Canonical s) : Canonical (s.noteAsk t) := by
  unfold State.noteAsk
  extract_lets m
  split
  · exact h
  · exact canonical_modMates h

theorem canonical_damperGrant {t : ℕ} (h : Canonical s) : Canonical (damperGrant t s) := by
  unfold damperGrant
  extract_lets m site s1 need top best
  have hs1 : Canonical s1 := by unfold s1; exact canonical_noteAsk h
  split
  · split
    · exact canonical_modMates h
    · exact h
  · split
    · exact h
    · split
      · exact hs1
      · split
        · exact canonical_modMates hs1
        · exact keeps_foldl hs1 (fun _ _ hk => canonical_grantPoint hk)

theorem canonical_tileGate {t : ℕ} (h : Canonical s) : Canonical (tileGate t s) := by
  unfold tileGate
  extract_lets x s1
  have hs1 : Canonical s1 := by unfold s1; exact canonical_modTile (canonical_giveBack h)
  split
  · exact h
  · split
    · split
      · exact canonical_modTile h
      · exact h
    · split
      · exact canonical_modTile h
      · split
        · exact h
        · exact canonical_growPool hs1

theorem canonical_takeBack {lack : ℕ} {gone l : List (ℕ × ℕ)} (h : Canonical s) : Canonical (takeBack lack gone l s) := by
  induction l generalizing lack gone s with
  | nil =>
    rw [takeBack]
    exact h
  | cons e older ih =>
    obtain ⟨t, n⟩ := e
    rw [takeBack]
    split
    · exact h
    · extract_lets before cut
      exact ih (canonical_modTile h)

theorem canonical_tileWake {t : ℕ} (h : Canonical s) : Canonical (tileWake t s) := by
  unfold tileWake
  extract_lets x i s0 s1
  have hs0 : Canonical s0 := by unfold s0; exact canonical_modTile h
  have hs1 : Canonical s1 := by
    unfold s1
    split
    · exact h
    · exact canonical_takeBack hs0
  split
  · exact h
  · split
    · exact hs1
    · exact canonical_modTile (canonical_modSite hs1)

theorem canonical_pointSwitch {t : ℕ} (h : Canonical s) : Canonical (pointSwitch t s) := by
  unfold pointSwitch
  extract_lets p
  split
  · exact h
  · refine keeps_foldl h fun _ _ hk => ?_
    split
    · exact hk
    · exact canonical_giveBack (canonical_modTile hk)

theorem canonical_lowerLimit {t : ℕ} (h : Canonical s) : Canonical (s.lowerLimit t) := by
  unfold State.lowerLimit
  extract_lets x s1 src s2
  have hs1 : Canonical s1 := by unfold s1; exact canonical_modTile h
  have hs2 : Canonical s2 := hs1.update rfl
  exact canonical_logRecord hs2

theorem canonical_opLimitLower {t : ℕ} (h : Canonical s) : Canonical (opLimitLower t s) := by
  unfold opLimitLower
  extract_lets recent
  split
  · exact canonical_modTile h
  · exact canonical_lowerLimit h

/-! ### Temperature (R407) -/

theorem canonical_recallAll {site : ℕ} (h : Canonical s) :
    Canonical (s.recallAll site) := keeps_foldl h (fun _ _ hk => canonical_modTile hk)

/-! ### Pages of an address space -/

theorem canonical_lookPage {w : Who} {va : ℕ} (h : Canonical s) : Either CanonicalStop CanonicalFst (s.lookPage w va) := by
  unfold State.lookPage
  split
  · exact .error (canonical_homeStop h)
  · next e =>
      split
      · exact .error (.trapIn ((canonical_homeEntry h).of_ok e :))
      · exact .ok ((canonical_homeEntry h).of_ok e :)

theorem canonical_managedPage {w : Who} {va : ℕ} (h : Canonical s) : Either CanonicalStop CanonicalFst (s.managedPage w va) := by
  unfold State.managedPage
  split
  · exact .error .trap
  · split
    · next e1 => exact .error ((canonical_lookPage h).of_error e1 :)
    · next e1 =>
        split
        · exact .ok ((canonical_lookPage h).of_ok e1 :)
        · exact .error (.trapIn ((canonical_lookPage h).of_ok e1 :))

/-! ### Copying one object (R344) -/

theorem canonical_modCycle {asid : ℕ} {f : Machine.Cycle → Machine.Cycle} (h : Canonical s) : Canonical (s.modCycle asid f) := h.update rfl

theorem canonical_copyObject {w : Who} {n n1 : ℕ} {n2 n3 : ℕ} (h : Canonical s) : IfAny Canonical (s.copyObject w n n1 n2 n3) := by
  induction n generalizing s w n1 n2 n3 with
  | zero =>
    rw [State.copyObject]
    exact .some h
  | succ fuel ih =>
    rw [State.copyObject]
    split
    · exact .some h
    · extract_lets m
      split
      · exact .none
      · exact .some h
      · next e1 =>
          split
          · exact .none
          · exact .some ((canonical_homeEntry h).of_ok e1 :)
          · next e3 =>
              extract_lets a b s3
              have hs3 : Canonical s3 := by
                unfold s3
                exact canonical_performHome ((canonical_homeEntry ((canonical_homeEntry h).of_ok e1 :)).of_ok e3 :)
              exact ih (Memory.wf_copy hs3 _ _ _)

theorem canonical_retain {c : Machine.Cycle} {old : ℕ} (h : Canonical s) : Canonical (s.retain c old) := by
  unfold State.retain
  split
  · exact canonical_modCycle h
  · extract_lets s1
    have hs1 : Canonical s1 := by
      unfold s1
      split
      · next e1 => exact IfAny.getD (canonical_devWrite ((canonical_devRead h).of_some e1 :)) ((canonical_devRead h).of_some e1 :)
      · exact h
    exact canonical_modCycle hs1

theorem canonical_clearSetL1 {c : Machine.Cycle} (h : Canonical s) : Canonical (s.clearSetL1 c) := by
  unfold State.clearSetL1
  split
  · exact h
  · refine keeps_foldl h fun _ _ hk => ?_
    split
    · exact canonical_dropL1Keys hk
    · exact hk

theorem canonical_relocate {c : Machine.Cycle} {old new : ℕ} (h : Canonical s) : IfAny Canonical (s.relocate c old new) := by
  unfold State.relocate
  extract_lets w s0
  have hs0 : Canonical s0 := by unfold s0; exact canonical_clearSetL1 h
  split
  · exact .none
  · exact .some (canonical_retain hs0)
  · next e1 =>
      split
      · exact .some (canonical_retain ((canonical_homeEntry hs0).of_ok e1 :))
      · extract_lets n
        split
        · exact .some (canonical_retain ((canonical_homeEntry hs0).of_ok e1 :))
        · split
          · exact .none
          · exact IfAny.map (canonical_copyObject ((canonical_homeEntry hs0).of_ok e1 :)) (fun _ hk => canonical_modCycle hk)

theorem canonical_forward {asid va : ℕ} (h : Canonical s) : IfAny CanonicalFst (s.forward asid va) := by
  unfold State.forward
  split
  · exact .some h
  · exact .some h
  · exact .some h
  · refine IfAny.map (canonical_relocate h) fun _ hk => ?_
    split <;> exact hk

theorem canonical_heal {r : Word} (h : Canonical s) : Either CanonicalStop CanonicalFst (heal s r) := by
  unfold heal
  split
  · exact .ok h
  · split
    · exact .error .stall
    · next e =>
        split
        · next e2 => exact .error ((canonical_whole h ((canonical_forward h).of_some e :)).of_error e2 :)
        · next e1 =>
            split
            · exact .error (.trapIn ((canonical_whole h ((canonical_forward h).of_some e :)).of_ok e1 :))
            · next e3 =>
                exact .error ((canonical_managedPage ((canonical_whole h ((canonical_forward h).of_some e :)).of_ok e1 :)).of_error e3 :)
            · next e2 => exact .ok ((canonical_managedPage ((canonical_whole h ((canonical_forward h).of_some e :)).of_ok e1 :)).of_ok e2 :)

/-! ### Wedger commands (R340 to R345) -/

theorem canonical_heapDone {poster va : ℕ} {st result : ℕ} (h : Canonical s) : Canonical (s.heapDone poster va st result) := by
  unfold State.heapDone
  extract_lets s1
  have hs1 : Canonical s1 := h.update rfl
  exact canonical_blockStatus (canonical_blockStatus hs1)

theorem canonical_heapHead (h : Canonical s) : IfAny CanonicalFst s.heapHead := by
  unfold State.heapHead
  split
  · exact .none
  · refine IfAny.map (canonical_devReads h) fun _ hk => ?_
    split
    · exact hk

theorem canonical_heapServe {op : ℕ} {serve : ℕ → ℕ → List ℕ → State → State}
    (hserve : ∀ (asid va : ℕ) (b : List ℕ) (t : State), Canonical t → Canonical (serve asid va b t)) (h : Canonical s) :
    Canonical (heapServe op serve s) := by
  unfold heapServe
  refine canonical_attemptState h fun _ hk => ?_
  split
  · split
    · exact hk
    · extract_lets src
      have hsrc : Canonical src := by unfold src; exact canonical_devLeft hk
      exact hsrc.update rfl
  · next e =>
      split
      · exact canonical_heapDone ((canonical_heapHead hk).of_some e :)
      · split
        · exact ((canonical_heapHead hk).of_some e :)
        · exact hserve _ _ _ _ ((canonical_heapHead hk).of_some e :)

theorem canonical_flipServe {poster va : ℕ} {d : List ℕ} (h : Canonical s) : Canonical (flipServe poster va d s) := by
  unfold flipServe
  extract_lets g asid
  split
  · exact canonical_heapDone h
  · split
    · exact canonical_heapDone h
    · split
      · exact canonical_heapDone (canonical_devLeft h)
      · next e =>
          split
          · exact canonical_heapDone (canonical_devLeft ((canonical_devReads h).of_some e :))
          · next e1 =>
              extract_lets c shape colour src s3
              have hsrc : Canonical src := by
                unfold src
                exact canonical_modSpace ((canonical_devReads ((canonical_devReads h).of_some e :)).of_some e1 :)
              have hs3 : Canonical s3 := hsrc.update rfl
              split
              · exact canonical_heapDone ((canonical_devReads ((canonical_devReads h).of_some e :)).of_some e1 :)
              · exact canonical_heapDone (canonical_mapCores hs3)

theorem canonical_copyRun {asid : ℕ} {l : List (ℕ × ℕ × FwdState)} (h : Canonical s) : Canonical (State.copyRun asid l s) := by
  induction l generalizing asid s with
  | nil =>
    rw [State.copyRun]
    exact h
  | cons e rest ih =>
    rw [State.copyRun]
    split
    · exact h
    · next e1 =>
        split
        · exact ((canonical_forward h).of_some e1 :)
        · exact ih ((canonical_forward h).of_some e1 :)

theorem canonical_copyServe {poster va : ℕ} {d : List ℕ} (h : Canonical s) : Canonical (copyServe poster va d s) := by
  unfold copyServe
  extract_lets asid
  split
  · exact canonical_heapDone h
  · split
    · exact canonical_heapDone h
    · extract_lets s1
      have hs1 : Canonical s1 := by unfold s1; exact canonical_copyRun h
      split
      · exact hs1
      · extract_lets n
        split
        · exact hs1
        · exact canonical_heapDone (canonical_modCycle hs1)

theorem canonical_touchSpills {asid : ℕ} (h : Canonical s) : Canonical (s.touchSpills asid) := by
  unfold State.touchSpills
  refine keeps_foldl h fun _ _ hk => ?_
  split
  · split
    · exact canonical_devTouch (canonical_devTouch hk)
    · exact hk
  · exact hk

theorem canonical_freeServe {poster va : ℕ} {d : List ℕ} (h : Canonical s) : Canonical (freeServe poster va d s) := by
  unfold freeServe
  extract_lets asid s1 held
  have hs1 : Canonical s1 := by unfold s1; exact canonical_touchSpills h
  split
  · exact canonical_heapDone h
  · split
    · exact canonical_heapDone h
    · extract_lets pages s11
      have hs11 : Canonical s11 := by
        unfold s11
        refine keeps_foldl hs1 fun _ _ hk => ?_
        split
        · extract_lets t1
          have ht1 : Canonical t1 := by unfold t1; exact canonical_dropRange hk
          exact Memory.wf_write ht1 _ _ _
        · exact hk
      split
      · exact hs1
      · exact canonical_heapDone (hs11.update rfl)

/-! ### ATS and PRI (R317, R318) -/

theorem canonical_atsCompletion {k hpa rights : ℕ} (h : Canonical s) : Canonical (atsCompletion k hpa rights s) := by
  unfold atsCompletion
  split
  · exact h
  · split
    · exact h
    · split
      · exact h
      · next e1 =>
          extract_lets a s2
          have hs2 : Canonical s2 := canonical_modHome ((canonical_makeRoom h).of_some e1 :)
          exact hs2.update rfl

theorem canonical_wakeHost {req : ℕ} {next : Waiting} (h : Canonical s) : Canonical (s.wakeHost req next) := by
  unfold State.wakeHost
  extract_lets ctx entry s1
  have hs1 : Canonical s1 := by unfold s1; exact canonical_mapCores h
  exact keeps_foldl hs1 (fun _ _ hk => canonical_nextU hk)

theorem canonical_dropAts {q : HostReq} (h : Canonical s) : Canonical (s.dropAts q) := h.update rfl

theorem canonical_failHost {k : ℕ} {q : HostReq} {reason : ℕ} (h : Canonical s) : Canonical (s.failHost k q reason) := by
  unfold State.failHost
  extract_lets src s1
  have hsrc : Canonical src := by unfold src; exact canonical_dropAts h
  have hs1 : Canonical s1 := hsrc.update rfl
  exact canonical_wakeHost (keeps_foldl hs1 (fun _ _ hk => canonical_endOp hk))

theorem canonical_priResponse {k code : ℕ} (h : Canonical s) : Canonical (priResponse k code s) := by
  unfold priResponse
  split
  · exact h
  · split
    · exact h
    · split
      · extract_lets src s1
        have hsrc : Canonical src := by unfold src; exact canonical_dropAts h
        have hs1 : Canonical s1 := hsrc.update rfl
        exact canonical_wakeHost (keeps_foldl hs1 (fun _ _ hk => canonical_modOp hk))
      · exact canonical_failHost h

theorem canonical_priTimeout {k : ℕ} (h : Canonical s) : Canonical (priTimeout k s) := by
  unfold priTimeout
  split
  · exact h
  · split
    · exact canonical_failHost h
    · exact h

/-! ### Invalidation (R319) -/

theorem canonical_atsInvalidation {port pasid : ℕ} {va bytes : ℕ} (h : Canonical s) :
    Canonical (atsInvalidation port pasid va bytes s) := by
  unfold atsInvalidation
  extract_lets hit
  exact h.update rfl

theorem canonical_execAtsInvalidation {port pasid : ℕ} {va bytes : ℕ} (h : Canonical s) :
    CanonicalNext (execAtsInvalidation port pasid va bytes s) := .next (canonical_atsInvalidation h)

theorem canonical_invalidationCompletion {k : ℕ} (h : Canonical s) : Canonical (invalidationCompletion k s) := by
  unfold invalidationCompletion
  split
  · exact h
  · split
    · exact h
    · exact h.update rfl

/-! ### Accesses from outside (R350, R351, R359, R388) -/

theorem canonical_dropL2 {key : ℕ} (h : Canonical s) : Canonical (s.dropL2 key) := canonical_modL2 h

theorem canonical_hostSnoop {port addr : ℕ} (h : Canonical s) : Canonical (hostSnoop port addr s) := by
  unfold hostSnoop
  extract_lets p pool key
  split
  · exact h
  · split
    · next e =>
        split
        · next e1 =>
            split
            · exact ((canonical_freshWord h).carry e :)
            · split
              · extract_lets src
                exact Memory.wf_write ((canonical_freshWord ((canonical_freshWord h).carry e :)).carry e1 :) _ _ _
              · exact Memory.wf_write ((canonical_freshWord ((canonical_freshWord h).carry e :)).carry e1 :) _ _ _

theorem canonical_execHostMemAccess {port pa : ℕ} {write data : ℕ} (h : Canonical s) :
    CanonicalNext (execHostMemAccess port pa write data s) := by
  unfold execHostMemAccess
  extract_lets a s1
  have hs1 : Canonical s1 := by unfold s1; exact canonical_performHome h
  split
  · exact .fault
  · split
    · exact .next h
    · split
      · refine .next ?_
        split
        · exact h
        · exact h.update rfl
      · split
        · exact .next (Memory.wf_write hs1 _ _ _)
        · exact .next (hs1.update rfl)

theorem canonical_remoteAccess {asid va : ℕ} {write data : ℕ} (h : Canonical s) : Canonical (remoteAccess asid va write data s) := by
  unfold remoteAccess
  extract_lets need w fault
  have hfault : ∀ (t : Trap) (s : State), Canonical s → Canonical (fault t s) := by
    intro _ _ hk
    unfold fault
    split
    · exact hk
    · split
      · exact hk
      · split
        · next e1 => exact canonical_pushEntry ((canonical_freshWord hk).carry e1 :)
  split
  · exact h
  · split
    · exact hfault _ _ h
    · next e => exact hfault _ _ (((canonical_globalAccess h).of_error e).of_trapIn :)
    · next e => exact (((canonical_globalAccess h).of_error e).of_stallIn :)
    · next e => exact (((canonical_globalAccess h).of_error e).of_parkHost :)
    · exact h
    · next e =>
        split
        · exact ((canonical_globalAccess h).of_ok e :)
        · split
          · exact canonical_writeCopies ((canonical_globalAccess h).of_ok e :)
          · exact canonical_placeWrite ((canonical_globalAccess h).of_ok e :)

theorem canonical_persistConfirmation {k : ℕ} (h : Canonical s) : Canonical (persistConfirmation k s) := by
  unfold persistConfirmation
  split
  · exact h
  · split
    · exact h
    · extract_lets s1
      have hs1 : Canonical s1 := h.update rfl
      exact canonical_mapCores hs1

/-! ### Failures (R357) and recoveries (R348, R358) -/

theorem canonical_failRings {port : ℕ} (h : Canonical s) : Canonical (s.failRings port) := by
  unfold State.failRings
  extract_lets dead gone
  refine keeps_foldl (h.update rfl) fun _ _ hk => ?_
  split
  · exact hk
  · exact canonical_deliver hk

theorem canonical_hostPortDown {port : ℕ} (h : Canonical s) : Canonical (hostPortDown port s) := by
  unfold hostPortDown
  extract_lets p gone src s1
  have hsrc : Canonical src := by unfold src; exact canonical_modPort h
  have hs1 : Canonical s1 := hsrc.update rfl
  exact canonical_failRings (keeps_foldl hs1 (fun _ _ hk => canonical_wakeHost hk))

theorem canonical_poisonRange {a n : ℕ} (h : Canonical s) :
    Canonical (s.poisonRange a n) := keeps_foldl (P := fun m : Memory => m.wf = true) h (fun _ _ hk => Memory.wf_setPoison hk _)

theorem canonical_execPoolFailure {port offset bytes : ℕ} (h : Canonical s) :
    CanonicalNext (execPoolFailure port offset bytes s) := .next (h.update rfl)

theorem canonical_setFabric {port : ℕ} {up : Bool} (h : Canonical s) : Canonical (s.setFabric port up) := h.update rfl

/-! ### Placing a record -/

theorem canonical_startStrand {c asid : ℕ} {r : Rec} {t : ℕ → Strand} {args : Vector Word 4} {direct : Bool} (h : Canonical s) :
    CanonicalFst (s.startStrand c asid r t args direct) := by
  unfold State.startStrand
  split
  · next e =>
      extract_lets g
      exact IfAny.getD (canonical_seat ((canonical_newStrand h).carry e :)) ((canonical_newStrand h).carry e :)

theorem canonical_noteActive {asid va origin : ℕ} {r : Rec} (h : Canonical s) : Canonical (s.noteActive asid va origin r) := by
  unfold State.noteActive
  extract_lets t
  have ht : Canonical t := by unfold t; exact canonical_unactive h
  exact ht.update rfl

theorem canonical_startRecord {asid va origin : ℕ} {r : Rec} {cores : List ℕ} {cluster direct : Bool} {mark : ℕ → ℕ → State → State}
    (h : Canonical s) (hmark : ∀ (sid c : ℕ) (t : State), Canonical t → Canonical (mark sid c t)) :
    Canonical (s.startRecord asid va origin r cores cluster direct mark) := by
  unfold State.startRecord
  split
  · next e =>
      extract_lets crew site base
      split
      · next s1 _ _ e1 =>
          have started : Canonical s1 := by
            refine (CanonicalFst.carry ?_ e1 :)
            refine keeps_foldl (P := CanonicalFst) ((canonical_freshId (canonical_noteActive h)).carry e :) fun _ _ hk => ?_
            split
            · next e2 => exact hmark _ _ _ ((canonical_startStrand hk).carry e2 :)
          split
          · exact started.update rfl
          · exact started

theorem canonical_claimRec {asid va origin : ℕ} (h : Canonical s) : CanonicalFst (s.claimRec asid va origin) := by
  unfold State.claimRec
  split
  · next e => exact ((canonical_casStatus h).of_some e :)
  · split
    · next e1 => exact ((canonical_recordStatus h).of_some e1 :)
    · exact canonical_cbfmtEvent h

/-! ### The queues (R290, R294) -/

theorem canonical_touchQueue {asid q : ℕ} (h : Canonical s) : Canonical (s.touchQueue asid q) := by
  unfold State.touchQueue
  split
  · exact canonical_devTouch h
  · exact h

theorem canonical_touchRecs {asid : ℕ} {l : List ℕ} (h : Canonical s) :
    Canonical (s.touchRecs asid l) := keeps_foldl h (fun _ _ hk => canonical_devTouch hk)

theorem canonical_setEprio {asid q p : ℕ} (h : Canonical s) : Canonical (s.setEprio asid q p) := by
  unfold State.setEprio
  extract_lets s1
  have hs1 : Canonical s1 := by unfold s1; exact canonical_modQueue h
  split
  · exact hs1
  · exact IfAny.getD (canonical_devWrite hs1) hs1

theorem canonical_unready {asid q va : ℕ} (h : Canonical s) : Canonical (s.unready asid q va) := canonical_modQueue h

theorem canonical_dropReady {asid q va : ℕ} (h : Canonical s) :
    Canonical (s.dropReady asid q va) := canonical_unreserve (canonical_unready h)

theorem canonical_failCrew {asid q va : ℕ} (h : Canonical s) : Canonical (s.failCrew asid q va) := by
  unfold State.failCrew
  split
  · next e =>
      exact IfAny.getD (IfAny.map (canonical_completeRecord ((canonical_claimRec (canonical_event h)).carry e :)) (fun _ hk => hk))
          ((canonical_claimRec (canonical_event h)).carry e :)
  · next e => exact ((canonical_claimRec (canonical_event h)).carry e :)

theorem canonical_unplaceable {asid q va : ℕ} (h : Canonical s) :
    Canonical (s.unplaceable asid q va) := canonical_failCrew (canonical_dropReady h)

theorem canonical_dispatchOn {site asid q : ℕ} {k : LQueue} {va : ℕ} {r : Rec} {cores : List ℕ} {direct : Bool} (h : Canonical s) :
    Canonical (s.dispatchOn site asid q k va r cores direct) := by
  unfold State.dispatchOn
  split
  · next e => exact canonical_unreserve ((canonical_claimRec (canonical_unready h)).carry e :)
  · next e =>
      extract_lets s2 s3
      have hs2 : Canonical s2 := canonical_modSite ((canonical_claimRec (canonical_unready h)).carry e :)
      have hs3 : Canonical s3 := by unfold s3; exact canonical_unreserve (canonical_startRecord hs2 (fun _ _ _ hk => canonical_placed hk))
      exact canonical_setEprio (canonical_modQueue hs3)

theorem canonical_touchReady {site : ℕ} (h : Canonical s) : Canonical (s.touchReady site) := by
  unfold State.touchReady
  refine keeps_foldl h fun _ _ hk => ?_
  split
  · split
    · exact hk
    · exact canonical_touchRecs (canonical_touchQueue hk)

theorem canonical_dispatchSite {site : ℕ} (h : Canonical s) : Canonical (dispatchSite site s) := by
  unfold dispatchSite
  refine canonical_attemptState h fun _ hk => ?_
  extract_lets s1 l top round
  have hs1 : Canonical s1 := by unfold s1; exact canonical_touchReady hk
  split
  · exact hs1
  · split
    · exact hs1
    · exact canonical_endJob (canonical_cbfmtEvent (canonical_dropReady hs1))
    · exact canonical_unplaceable hs1
    · split
      · exact canonical_dispatchOn hs1
      · exact canonical_capHold hs1
    · exact hs1

/-! ### JOB_TAKE (R291, R405, R406) -/

theorem canonical_skipJob {asid q : ℕ} {va kind : ℕ} {completion p : ℕ} (h : Canonical s) :
    Canonical (s.skipJob asid q va kind completion p) := by
  unfold State.skipJob
  extract_lets s1
  have hs1 : Canonical s1 := by unfold s1; exact canonical_cbfmtEvent h
  split
  · exact hs1
  · exact canonical_joinUpdate hs1

theorem canonical_startRun {j : Job} {template patch : ℕ} (h : Canonical s) : Canonical (s.startRun j template patch) := by
  unfold State.startRun
  split
  · exact canonical_skipJob h
  · next e => exact ((canonical_instantiate h).of_ok e :).update rfl
  · next e =>
      extract_lets s2
      have hs2 : Canonical s2 := ((canonical_instantiate h).of_ok e :).update rfl
      split
      · split
        · exact canonical_endJob hs2
        · exact hs2
      · exact hs2

theorem canonical_startJob {asid q : ℕ} {slot p : ℕ} {d : List ℕ} (h : Canonical s) : Canonical (s.startJob asid q slot p d) := by
  unfold State.startJob
  extract_lets g j s1
  have hs1 : Canonical s1 := by unfold s1; exact canonical_devTouch h
  split
  · exact canonical_skipJob h
  · split
    · split
      · exact canonical_makeReady (hs1.update rfl)
      · exact canonical_skipJob hs1
    · exact canonical_startRun h

theorem canonical_retryRuns {asid q : ℕ} (h : Canonical s) : Canonical (s.retryRuns asid q) := by
  unfold State.retryRuns
  extract_lets mine
  refine keeps_foldl h fun _ _ hk => ?_
  split
  · exact canonical_startRun (hk.update rfl)
  · exact hk

theorem canonical_firstTake {asid : ℕ} (h : Canonical s) : Canonical (s.firstTake asid) := by
  unfold State.firstTake
  extract_lets s1
  have hs1 : Canonical s1 := by unfold s1; exact canonical_modSpace h
  split
  · exact h
  · split
    · exact canonical_capDigests hs1
    · split
      · exact h
      · split
        · next e =>
            split
            · exact canonical_replayTake ((canonical_capAgree hs1).carry e :)
            · exact canonical_endReplay ((canonical_capAgree hs1).carry e :)

theorem canonical_takeNext {asid q : ℕ} (h : Canonical s) : Canonical (takeNext asid q s) := by
  unfold takeNext
  split
  · exact h
  · split
    · next e2 =>
        split
        · exact h
        · extract_lets slot
          split
          · exact h
          · next e3 =>
              split
              · exact h
              · split
                · split
                  · exact canonical_capHold h
                  · extract_lets s3 s4 s5
                    have hs3 : Canonical s3 := by
                      unfold s3
                      exact canonical_firstTake ((canonical_devReads ((canonical_devRead h).of_some e2 :)).of_some e3 :)
                    have hs4 : Canonical s4 := by unfold s4; exact IfAny.getD (canonical_devWrite hs3) hs3
                    have hs5 : Canonical s5 := by unfold s5; exact canonical_startJob (IfAny.getD (canonical_devWrite hs4) hs4)
                    split
                    · exact hs3
                    · split
                      · exact canonical_replayTake hs5
                      · exact canonical_capture hs5
                · split
                  · exact canonical_capHold h
                  · extract_lets s3 s4 s5
                    have hs3 : Canonical s3 := by
                      unfold s3
                      exact canonical_firstTake ((canonical_devReads ((canonical_devRead h).of_some e2 :)).of_some e3 :)
                    have hs4 : Canonical s4 := by unfold s4; exact IfAny.getD (canonical_devWrite hs3) hs3
                    have hs5 : Canonical s5 := by unfold s5; exact canonical_startJob (IfAny.getD (canonical_devWrite hs4) hs4)
                    split
                    · exact hs3
                    · split
                      · exact canonical_replayTake hs5
                      · exact canonical_capture hs5
    · exact h

theorem canonical_jobTake {asid q : ℕ} (h : Canonical s) : Canonical (jobTake asid q s) := by
  unfold jobTake
  refine canonical_attemptState h fun _ hk => ?_
  extract_lets s1
  have hs1 : Canonical s1 := by unfold s1; exact canonical_thaw (canonical_touchQueue hk)
  split
  · exact canonical_takeNext (canonical_retryRuns hs1)
  · exact hs1

/-! ### RECORD_READY, CREW_RESERVATION, EPRIO_RAISE (R292, R294, R296, R298) -/

theorem canonical_recordReady {asid va : ℕ} (h : Canonical s) : Canonical (recordReady asid va s) := by
  unfold recordReady
  refine canonical_attemptState h fun _ hk => ?_
  split
  · split
    · exact canonical_makeReady hk
    · exact hk
  · split
    · exact canonical_clusterReady hk
    · exact hk

theorem canonical_crewReservation {site : ℕ} (h : Canonical s) : Canonical (crewReservation site s) := by
  unfold crewReservation
  split
  · exact h
  · extract_lets l
    split
    · exact h
    · exact canonical_modSite h

theorem canonical_eprioRaise {asid q : ℕ} (h : Canonical s) : Canonical (eprioRaise asid q s) := by
  unfold eprioRaise
  refine canonical_attemptState h fun _ hk => ?_
  split
  · exact hk
  · split
    · exact hk
    · extract_lets start n
      split
      · exact hk
      · exact canonical_setEprio (canonical_modQueue hk)

/-! ### Cluster task queues (R297) -/

theorem canonical_freeTask {k : ℕ} {e : ClEntry} (h : Canonical s) : Canonical (s.freeTask k e) := canonical_modCluster h

theorem canonical_dropTask {k : ℕ} {e : ClEntry} (h : Canonical s) :
    Canonical (s.dropTask k e) := canonical_unreserve (canonical_freeTask h)

theorem canonical_dispatchTask {k : ℕ} {e : ClEntry} {r : Rec} {cores : List ℕ} (h : Canonical s) :
    Canonical (s.dispatchTask k e r cores) := by
  unfold State.dispatchTask
  split
  · next e1 => exact canonical_unreserve ((canonical_claimRec (canonical_freeTask h)).carry e1 :)
  · next e1 =>
      extract_lets mark s2
      have hmark : ∀ (c i : ℕ) (u : State), Canonical u → Canonical (mark c i u) := by
        intro _ _ _ hk
        unfold mark
        refine canonical_placed ?_
        split
        · exact canonical_replayTake hk
        · exact canonical_capture hk
      have hs2 : Canonical s2 := by
        unfold s2
        exact canonical_unreserve (canonical_startRecord ((canonical_claimRec (canonical_freeTask h)).carry e1 :) (fun _ _ _ hk => hmark _ _ _ hk))
      exact canonical_modCluster hs2

theorem canonical_clusterPick {k : ℕ} {l : List ClEntry} (h : Canonical s) : Canonical (clusterPick k l s) := by
  induction l generalizing k s with
  | nil =>
    rw [clusterPick]
    exact h
  | cons e t ih =>
    rw [clusterPick]
    split
    · exact ih h
    · split
      · exact canonical_cbfmtEvent (canonical_dropTask h)
      · split
        · exact ih h
        · split
          · exact canonical_cbfmtEvent (canonical_dropTask h)
          · split
            · exact canonical_claimRec (canonical_dropTask h)
            · split
              · exact canonical_failCrew (canonical_dropTask h)
              · split
                · split
                  · exact ih h
                  · split
                    · exact canonical_dispatchTask h
                    · exact h
                · split
                  · exact h
                  · split
                    · exact canonical_dispatchTask h
                    · exact canonical_capHold h

theorem canonical_touchTasks {k : ℕ} (h : Canonical s) :
    Canonical (s.touchTasks k) := keeps_foldl h (fun _ _ hk => canonical_devTouch (canonical_touchQueue hk))

theorem canonical_clusterDispatch {k : ℕ} (h : Canonical s) :
    Canonical (clusterDispatch k s) := canonical_attemptState h (fun _ hk => canonical_clusterPick (canonical_touchTasks hk))

theorem canonical_clusterRecheck {k j : ℕ} (h : Canonical s) : Canonical (clusterRecheck k j s) := by
  unfold clusterRecheck
  refine canonical_attemptState h fun _ hk => ?_
  split
  · exact hk
  · extract_lets s1
    have hs1 : Canonical s1 := by unfold s1; exact canonical_clusterReady hk
    exact canonical_modCluster hs1

/-! ### QUEUE_CANCEL, EVENTS_LOST_REPORT (R299, R300) -/

theorem canonical_dropRuns {asid q : ℕ} (h : Canonical s) : Canonical (s.dropRuns asid q) := by
  unfold State.dropRuns
  extract_lets mine
  exact keeps_foldl (h.update rfl) (fun _ _ hk => canonical_completeJob hk)

theorem canonical_queueCancel {asid q : ℕ} (h : Canonical s) : Canonical (queueCancel asid q s) := by
  unfold queueCancel
  refine canonical_attemptState h fun _ hk => ?_
  extract_lets s1 s11
  have hs1 : Canonical s1 := by unfold s1; exact canonical_touchQueue hk
  have hs11 : Canonical s11 := by
    unfold s11
    refine keeps_foldl (canonical_modQueue (canonical_dropRuns hs1)) fun _ _ hk1 => ?_
    extract_lets next
    split
    · next e =>
        split
        · exact canonical_cancelWalk ((canonical_cancelOne hk1).carry e :)
        · exact ((canonical_cancelOne hk1).carry e :)
  split
  · extract_lets s2
    have hs2 : Canonical s2 := by unfold s2; exact IfAny.getD (canonical_devWrite hs11) hs11
    split
    · next e2 => exact IfAny.getD (canonical_devWrite ((canonical_devRead hs2).of_some e2 :)) ((canonical_devRead hs2).of_some e2 :)
    · exact hs2
  · exact hs1

theorem canonical_flushEvents {asid : ℕ} {l : List Event} (h : Canonical s) : Canonical (flushEvents asid l s) := by
  induction l generalizing asid s with
  | nil =>
    rw [flushEvents]
    exact h
  | cons e t ih =>
    rw [flushEvents]
    split
    · exact h
    · split
      · exact h
      · next e2 =>
          split
          · exact canonical_askedBy h
          · exact ih (canonical_modSpace ((canonical_putEvent h).of_some e2 :))

theorem canonical_eventsLostReport {asid : ℕ} (h : Canonical s) : Canonical (eventsLostReport asid s) := by
  unfold eventsLostReport
  split
  · exact h
  · extract_lets s1
    have hs1 : Canonical s1 := by unfold s1; exact canonical_flushEvents h
    split
    · exact hs1
    · split
      · exact hs1
      · split
        · exact hs1
        · next e2 =>
            split
            · exact canonical_askedBy hs1
            · exact canonical_modSpace ((canonical_putEvent hs1).of_some e2 :)

/-! ### SCHEDULER_PREEMPT (R332) -/

theorem canonical_makeWay {site c : ℕ} {asid q : ℕ} {k : LQueue} {va : ℕ} {r : Rec} (h : Canonical s) :
    Canonical (s.makeWay site c asid q k va r) := by
  unfold State.makeWay
  extract_lets s1 g away
  have hs1 : Canonical s1 := by unfold s1; exact canonical_modCore (canonical_interruptLong h)
  have haway : ∀ (s2 : State), Canonical s2 → Canonical (away s2) := fun _ hk => canonical_dispatchOn (canonical_modCore hk)
  split
  · exact canonical_startMove hs1
  · split
    · split
      · exact h
      · next e2 => exact canonical_nextU (haway _ ((canonical_overflow hs1).of_ok e2 :))
    · split
      · exact h
      · next e1 => exact canonical_nextU (canonical_modCore (haway _ ((canonical_parkImage hs1).of_ok e1 :)))

theorem canonical_schedulerPreempt {site : ℕ} (h : Canonical s) : Canonical (schedulerPreempt site s) := by
  unfold schedulerPreempt
  refine canonical_attemptState h fun _ hk => ?_
  extract_lets s1 due
  have hs1 : Canonical s1 := by unfold s1; exact canonical_touchReady hk
  clear_value due
  split
  · exact hs1
  · split
    · exact hs1
    · split
      · exact canonical_makeWay hs1
      · exact canonical_capHold hs1

end Sys2Proof.Proofs
end


section
/-! SUPPORT. Every function of a step keeps memory canonical (O26): bring-up and management; matrix, message, reference and vector instructions. -/

namespace Sys2Proof.Proofs
open Sys2Proof.Machine

variable {s : State}

/-! ### The list (R397, R398; log 35, DESIGN CHOICE for the layout of the records that the rule gives no offsets for) -/

theorem canonical_writeCapList (h : Canonical s) : Canonical s.writeCapList := Memory.wf_writeBytes h _ _

/-! ### Resets (R388, R389) -/

theorem canonical_doReset {cold : Bool} (h : Canonical s) : Canonical (s.doReset cold) := by
  unfold State.doReset
  extract_lets src src1 src2
  exact Memory.wf_afterReset h _

theorem canonical_modctlCold (h : Canonical s) : Canonical (modctlCold s) := by
  unfold modctlCold
  split
  · exact h
  · exact canonical_doReset h

theorem canonical_modctlWarm (h : Canonical s) : Canonical (modctlWarm s) := by
  unfold modctlWarm
  split
  · exact canonical_doReset h
  · exact h

/-! ### Bring-up (R390 to R393, R399, R400) -/

theorem canonical_bringImage (h : Canonical s) : Canonical (bringImage s) := by
  unfold bringImage
  split
  · exact h
  · extract_lets s1 src s2
    have hs1 : Canonical s1 := by unfold s1; exact canonical_extend h
    have hs2 : Canonical s2 := hs1.update rfl
    split
    · exact hs2
    · extract_lets s3 src1
      have hs3 : Canonical s3 := by unfold s3; exact canonical_extend (canonical_extend hs2)
      exact hs3.update rfl

theorem canonical_toPhase {n : ℕ} (h : Canonical s) : Canonical (s.toPhase n) := h.update rfl

theorem canonical_trainLink {link : ℕ} (h : Canonical s) : Canonical (s.trainLink link) := by
  unfold State.trainLink
  split
  · next e => exact ((canonical_freshWord h).carry e :).update rfl

theorem canonical_bringLinks (h : Canonical s) : Canonical (bringLinks s) := by
  unfold bringLinks
  extract_lets s1 src src1
  have hs1 : Canonical s1 := by unfold s1; exact keeps_foldl h (fun _ _ hk => canonical_trainLink hk)
  exact canonical_toPhase (canonical_reassess (hs1.update rfl))

theorem canonical_bringTraining (h : Canonical s) : Canonical (bringTraining s) := by
  unfold bringTraining
  extract_lets redone failed entries record had src src1 s1
  have hs1 : Canonical s1 := by
    unfold s1
    unfold Canonical
    split
    · exact h
    · exact Memory.wf_poisonIf h _ _
  exact canonical_toPhase (canonical_extend hs1)

theorem canonical_markFailing {p : ℕ} (h : Canonical s) : Canonical (s.markFailing p) := by
  unfold State.markFailing
  split
  · exact h
  · exact h.update rfl

theorem canonical_remapBank {failing : List ℕ} {p : ℕ} (h : Canonical s) : Canonical (State.remapBank failing s p) := by
  unfold State.remapBank
  split
  · exact Memory.wf_poisonIf h _ _
  · exact canonical_markFailing h

theorem canonical_bringRemaps (h : Canonical s) : Canonical (bringRemaps s) := by
  unfold bringRemaps
  extract_lets failing s1 src
  have hs1 : Canonical s1 := by unfold s1; exact keeps_foldl (h.update rfl) (fun _ _ hk => canonical_remapBank hk)
  exact canonical_toPhase (canonical_reassess (hs1.update rfl))

theorem canonical_bringCores (h : Canonical s) : Canonical (bringCores s) := by
  unfold bringCores
  extract_lets tested failed gone status s1 src src1
  have hs1 : Canonical s1 := by
    unfold s1
    refine keeps_foldl h fun _ _ hk => ?_
    split
    · exact hk
    · exact canonical_modCore hk
  exact canonical_toPhase (canonical_reassess (hs1.update rfl))

theorem canonical_bringTables (h : Canonical s) : Canonical (bringTables s) := by
  unfold bringTables
  extract_lets src s1
  have hs1 : Canonical s1 := h.update rfl
  exact canonical_toPhase (canonical_writeCapList (canonical_extend hs1))

theorem canonical_bringReady (h : Canonical s) : Canonical (bringReady s) := h.update rfl

theorem canonical_bringPower (h : Canonical s) : Canonical (bringPower s) := h.update rfl

theorem canonical_bringUp (h : Canonical s) : Canonical (bringUp s) := by
  unfold bringUp
  split
  · exact canonical_bringPower h
  · exact canonical_bringImage h
  · exact canonical_bringLinks h
  · exact canonical_bringTraining h
  · exact canonical_bringRemaps h
  · exact canonical_bringCores h
  · exact canonical_bringTables h
  · exact canonical_bringReady h

/-! ### ASBIND: bind (R289, R290, R308, R352, R353) -/

theorem canonical_ringRead {asid va : ℕ} (h : Canonical s) : Either CanonicalBindStop CanonicalFst (s.ringRead asid va) := by
  unfold State.ringRead
  extract_lets typ
  split
  · exact .error .bad
  · split
    · next e =>
        split
        · exact .error .bad
        · exact .ok ((canonical_translate h).of_ok e :)
    · next e => exact .error (.wait (((canonical_translate h).of_error e).of_parkHost :))
    · next e => exact .error (.wait (((canonical_translate h).of_error e).of_stallIn :))
    · exact .error (.wait h)
    · exact .error .bad

theorem canonical_ringSlots {asid va : ℕ} {l : List ℕ} (h : Canonical s) : Either CanonicalBindStop Canonical (ringSlots asid va l s) := by
  induction l generalizing asid va s with
  | nil =>
    rw [ringSlots]
    exact .ok h
  | cons off t ih =>
    rw [ringSlots]
    refine Either.bind (canonical_ringRead h) fun _ hk => ?_
    split
    · split
      · exact .error .bad
      · exact ih hk

theorem canonical_bindRing {sp : Space} (h : Canonical s) : Either CanonicalBindStop CanonicalFst (s.bindRing sp) := by
  unfold State.bindRing
  split
  · exact .ok h
  · extract_lets rd
    have hrd : ∀ (i : ℕ) (s : State), Canonical s → Either CanonicalBindStop CanonicalFst (rd i s) := fun _ _ hk => canonical_ringRead hk
    refine Either.bind (hrd _ _ h) fun _ hk => ?_
    split
    · refine Either.bind (hrd _ _ hk) fun _ hk1 => ?_
      split
      · refine Either.bind (hrd _ _ hk1) fun _ hk2 => ?_
        split
        · refine Either.bind (P := CanonicalFst) ?_ ?_
          · refine Either.foldlM hk2 fun _ _ hk3 => ?_
            refine Either.bind (hrd _ _ hk3) fun _ hk4 => ?_
            split
            · exact .ok hk4
          · intro _ hk3
            split
            · exact .error .bad
            · exact Either.bind (canonical_ringSlots hk3) (fun _ hk4 => .ok hk4)

theorem canonical_bindQueue {asid q : ℕ} (h : Canonical s) : Canonical (bindQueue asid s q) := by
  unfold bindQueue
  split
  · exact h
  · extract_lets va add stop
    have hadd : ∀ (k : LQueue) (t : State), Canonical t → Canonical (add k t) := fun _ _ hk => canonical_modSpace hk
    have hstop : ∀ (t : State), Canonical t → Canonical (stop t) := by
      intro _ hk
      unfold stop
      extract_lets u
      have hu : Canonical u := by
        unfold u
        split
        · next e1 => exact IfAny.getD (canonical_devWrite ((canonical_devRead hk).of_some e1 :)) ((canonical_devRead hk).of_some e1 :)
        · exact hk
      exact canonical_cbfmtEvent hu
    split
    · exact hstop _ (hadd _ _ h)
    · next e1 =>
        split
        · exact hstop _ (hadd _ _ ((canonical_devReads h).of_some e1 :))
        · extract_lets k s21
          have hs21 : Canonical s21 := hadd _ _ ((canonical_devReads h).of_some e1 :)
          exact IfAny.getD (canonical_devWrite hs21) hs21

theorem canonical_bindEnd {result : ℕ} (h : Canonical s) : Canonical (s.bindEnd result) := h.update rfl

theorem canonical_bindSpace {sp : Space} (h : Canonical s) : Canonical (bindSpace sp s) := by
  have listed : Canonical { s with spaces := s.spaces ++ [sp] } := h.update rfl
  unfold bindSpace
  split
  · exact canonical_bindEnd h
  · next e => exact ((canonical_bindRing listed).of_error e).of_wait.update rfl
  · next e =>
      exact canonical_bindEnd (keeps_foldl (canonical_modSpace ((canonical_bindRing listed).of_ok e :)) (fun _ _ hk => canonical_bindQueue hk))

theorem canonical_bindStep {recPa : ℕ} (h : Canonical s) : Canonical (bindStep recPa s) := by
  unfold bindStep
  split
  · exact canonical_bindEnd h
  · split
    · exact canonical_bindEnd h
    · split
      · exact canonical_bindEnd h
      · exact canonical_attemptState (h.update rfl) (fun _ hk => canonical_bindSpace hk)

/-! ### ASBIND: unbind (R352) -/

theorem canonical_stopQueues {sp : Space} (h : Canonical s) : Canonical (s.stopQueues sp) := by
  unfold State.stopQueues
  refine keeps_foldl h fun _ _ hk => ?_
  split
  · next e => exact IfAny.getD (canonical_devWrite ((canonical_devRead hk).of_some e :)) ((canonical_devRead hk).of_some e :)
  · exact hk

theorem canonical_killHandler {asid c : ℕ} (h : Canonical s) : Canonical (s.killHandler asid c) := by
  unfold State.killHandler
  split
  · split
    · exact h
    · exact canonical_modCore (canonical_freeA h)
  · exact h

theorem canonical_killSpace {asid : ℕ} (h : Canonical s) : Canonical (s.killSpace asid) := by
  unfold State.killSpace
  extract_lets s1 s2 s3
  have hs1 : Canonical s1 := by unfold s1; exact keeps_foldl h (fun _ _ hk => canonical_killOne hk)
  have hs2 : Canonical s2 := by unfold s2; exact keeps_foldl hs1 (fun _ _ hk => canonical_killHandler hk)
  have hs3 : Canonical s3 := by unfold s3; exact canonical_mapCores (canonical_dropOps hs2)
  exact keeps_foldl hs3 (fun _ _ hk => canonical_refreshOwner hk)

theorem canonical_removeSpace {asid : ℕ} (h : Canonical s) : Canonical (s.removeSpace asid) := by
  unfold State.removeSpace
  extract_lets s1 s2
  have hs1 : Canonical s1 := by unfold s1; exact canonical_dropL1Alias h
  have hs2 : Canonical s2 := hs1.update rfl
  exact keeps_foldl hs2 (fun _ _ hk => canonical_nextU hk)

theorem canonical_unbindStep {recPa : ℕ} (h : Canonical s) : Canonical (unbindStep recPa s) := by
  unfold unbindStep
  refine canonical_attemptState h fun _ hk => ?_
  split
  · exact canonical_bindEnd hk
  · extract_lets s1
    have hs1 : Canonical s1 := by unfold s1; exact canonical_killSpace (canonical_stopQueues hk)
    split
    · exact hs1
    · exact canonical_bindEnd (canonical_removeSpace hs1)

theorem canonical_asbindStep (h : Canonical s) : Canonical (asbindStep s) := by
  unfold asbindStep
  split
  · exact h
  · exact canonical_bindStep h
  · exact canonical_unbindStep h

theorem canonical_asbindWrite {op : Bool} {record : ℕ} (h : Canonical s) : Canonical (asbindWrite op record s) := by
  unfold asbindWrite
  split
  · exact h
  · exact canonical_asbindStep (h.update rfl)

/-! ### Attestation (R401, R402) -/

theorem canonical_attEnd {result : ℕ} (h : Canonical s) : Canonical (s.attEnd result) := h.update rfl

theorem canonical_attestRequest {area : ℕ} (h : Canonical s) : Canonical (attestRequest area s) := by
  unfold attestRequest
  split
  · exact h
  · extract_lets src start s1
    have hstart : ∀ (window : Bool) (nonce : List Byte), Canonical (start window nonce) := fun _ _ => h.update rfl
    have hs1 : Canonical s1 := h.update rfl
    split
    · exact hstart _ _
    · split
      · exact canonical_attEnd hs1
      · split
        · exact canonical_attEnd hs1
        · exact hstart _ _

theorem canonical_attestStep (h : Canonical s) : Canonical (attestStep s) := by
  unfold attestStep
  split
  · exact h
  · extract_lets src s1 src1 src2 s2
    have hs1 : Canonical s1 := h.update rfl
    have hs2 : Canonical s2 := by
      unfold s2
      split
      · exact hs1.update rfl
      · exact Memory.wf_writeBytes hs1 _ _
    exact canonical_attEnd hs2

/-! ### Capture and replay (R403 to R406) -/

theorem canonical_capRefuse {result : ℕ} (h : Canonical s) : Canonical (s.capRefuse result) := h.update rfl

theorem canonical_capStart {mode ring logn : ℕ} (h : Canonical s) : Canonical (s.capStart mode ring logn) := by
  unfold State.capStart
  extract_lets s1 src
  have hs1 : Canonical s1 := by unfold s1; exact canonical_setCapMode h
  exact hs1.update rfl

theorem canonical_captureModeOff (h : Canonical s) : Canonical (captureModeOff s) := by
  unfold captureModeOff
  split
  · exact canonical_capRefuse h
  · extract_lets s1 src
    have hs1 : Canonical s1 := by unfold s1; exact canonical_setCapMode h
    exact hs1.update rfl

theorem canonical_captureModeOn {ring logn : ℕ} (h : Canonical s) : Canonical (captureModeOn ring logn s) := by
  unfold captureModeOn
  split
  · exact h
  · split
    · exact canonical_capRefuse h
    · split
      · exact canonical_capRefuse h
      · exact canonical_capStart h

theorem canonical_replayModeOn {ring logn : ℕ} (h : Canonical s) : Canonical (replayModeOn ring logn s) := by
  unfold replayModeOn
  split
  · exact h
  · split
    · exact canonical_capRefuse h
    · split
      · exact canonical_capRefuse h
      · extract_lets s1
        have hs1 : Canonical s1 := h.update rfl
        split
        · exact canonical_capRefuse hs1
        · split
          · exact canonical_capRefuse hs1
          · exact canonical_capStart hs1

theorem canonical_captureRingSpace (h : Canonical s) : Canonical (captureRingSpace s) := by
  unfold captureRingSpace
  split
  · exact h.update rfl
  · exact h

theorem canonical_replayForceTimeout {asid queue record : ℕ} (h : Canonical s) : Canonical (replayForceTimeout asid queue record s) := by
  unfold replayForceTimeout
  split
  · exact h
  · split
    · exact canonical_event (canonical_setCapMode h)

/-! ### Other registers (R7, R379, R380, R401) -/

theorem canonical_capctlWrite {v : ℕ} (h : Canonical s) : Canonical (capctlWrite v s) := by
  unfold capctlWrite
  extract_lets ring logn src src1
  have hsrc : Canonical src := by unfold src; exact canonical_captureModeOff h
  split
  · split
    · exact canonical_captureModeOff h
    · exact hsrc.update rfl
  · exact canonical_captureModeOn h
  · exact canonical_replayModeOn h
  · exact h

theorem canonical_registerWrite {offset value : ℕ} (h : Canonical s) : Canonical (registerWrite offset value s) := by
  unfold registerWrite
  extract_lets v src w o
  split
  · exact canonical_capctlWrite h
  · split
    · exact h
    · split
      · exact h.update rfl
      · split
        · exact h.update rfl
        · exact h

theorem canonical_ofCheck {i : Instr} {m : MFmt} : Either CanonicalStop Stateless (ofCheck i m) := by
  unfold ofCheck
  split
  · exact .error .trap
  · exact .ok trivial

/-! ### Checks at issue -/

theorem canonical_matrixChecks {i : Instr} {names : Bool} : Either CanonicalStop Stateless (matrixChecks i names s) := by
  unfold matrixChecks
  split
  · next e1 => exact .error (canonical_vectorAllowed.of_error e1 :)
  · split
    · exact canonical_ewLive
    · exact .ok trivial

theorem canonical_accPoisonTrap (h : Canonical s) : CanonicalStop (accPoisonTrap s) := by
  unfold accPoisonTrap
  split
  · next e => exact .trapIn ((canonical_freshWord h).carry e :)

theorem canonical_issueShort {i : Instr} {op1 op2 : Word} (h : Canonical s) : Either CanonicalStop Canonical (issueShort i op1 op2 s) := by
  unfold issueShort
  split
  · exact .error .stall
  · exact .ok (canonical_advance (canonical_modCore h))

theorem canonical_issueRank {i : Instr} {o : LX} (h : Canonical s) : Either CanonicalStop Canonical (issueRank i o s) := by
  unfold issueRank
  refine Either.bind canonical_matrixChecks fun _ _ => ?_
  extract_lets m
  refine Either.bind canonical_ofCheck fun _ _ => ?_
  split
  · exact .error canonical_poisonQfault
  · exact canonical_issueShort h

theorem canonical_execMwr {o : LX} (h : Canonical s) : CanonicalNext (execMwr o s) := by
  unfold execMwr
  refine canonical_run h fun _ hk => ?_
  refine Either.bind canonical_matrixChecks fun _ _ => ?_
  extract_lets m
  refine Either.bind canonical_ofCheck fun _ _ => ?_
  split
  · exact .error canonical_poisonQfault
  · exact canonical_issueShort hk

theorem canonical_execMrowacc {o : LX} (h : Canonical s) : CanonicalNext (execMrowacc o s) := by
  unfold execMrowacc
  refine canonical_run h fun _ hk => ?_
  refine Either.bind canonical_matrixChecks fun _ _ => ?_
  extract_lets m
  refine Either.bind canonical_ofCheck fun _ _ => ?_
  split
  · exact .error canonical_poisonQfault
  · split
    · exact .error (canonical_accPoisonTrap hk)
    · exact canonical_issueShort hk

/-! ### MRD, MSTAT and MWAIT (R166, R170) -/

theorem canonical_execMrd {o : LX} (h : Canonical s) : CanonicalNext (execMrd o s) := by
  unfold execMrd
  refine canonical_run h fun _ hk => ?_
  refine Either.bind canonical_matrixChecks fun _ _ => ?_
  extract_lets m k r x rest
  refine Either.bind canonical_ofCheck fun _ _ => ?_
  refine Either.bind canonical_checkMode fun _ _ => ?_
  split
  · exact .error .stall
  · unfold rest
    split
    · exact .error canonical_poisonQfault
    · exact .ok (canonical_retX (canonical_orFlags (canonical_setCore hk)))

theorem canonical_execMstat {o : LH} (h : Canonical s) : CanonicalNext (execMstat o s) := by
  unfold execMstat
  refine canonical_run h fun _ hk => ?_
  refine Either.bind canonical_matrixChecks fun _ _ => ?_
  extract_lets k owned
  exact .ok (canonical_retX hk)

theorem canonical_execMwait (h : Canonical s) : CanonicalNext (execMwait s) := by
  unfold execMwait
  refine canonical_run h fun _ hk => ?_
  refine Either.bind canonical_matrixChecks fun _ _ => ?_
  split
  · exact .error .stall
  · exact .ok (canonical_advance hk)

/-! ### Long instructions: start and end (R155, R161, R164, R165) -/

theorem canonical_startLong {kind acc next : ℕ} {key panels : List ℕ} (h : Canonical s) :
    Canonical (s.startLong kind acc next key panels) := canonical_modCore h

theorem canonical_stepLong {total : ℕ} (h : Canonical s) : Canonical (s.stepLong total) := by
  unfold State.stepLong
  split
  · exact h
  · split
    · exact canonical_modCore h
    · exact canonical_advance (canonical_modCore h)

theorem canonical_emptyLong (h : Canonical s) : Canonical s.emptyLong := canonical_advance (canonical_modU h)

/-! ### MOPAK (R161, R162) -/

theorem canonical_panelPlace {va n : ℕ} : Either CanonicalStop Stateless (panelPlace va n s) := by
  unfold panelPlace
  extract_lets w outside
  have houtside : Either CanonicalStop Stateless outside := by unfold outside; exact .error .trap
  split
  · exact houtside
  · split
    · split
      · exact houtside
      · split
        · exact .ok trivial
        · split
          · next e2 => exact .error (canonical_localAccess.of_error e2 :)
          · exact .ok trivial
    · exact houtside

theorem canonical_joinMulticast {key : List ℕ} (h : Canonical s) : Canonical (s.joinMulticast key) := by
  unfold State.joinMulticast
  extract_lets peers s0 s1
  have hs0 : Canonical s0 := by unfold s0; exact canonical_modCore h
  have hs1 : Canonical s1 := hs0.update rfl
  split
  · exact hs0
  · split
    · exact keeps_foldl hs1 (fun _ _ hk => canonical_modCore hk)
    · exact hs1

theorem canonical_mopakStep {o : LX} {m : MFmt} {k ka kb : ℕ} (h : Canonical s) :
    Either CanonicalStop Canonical (mopakStep o m k ka kb s) := by
  unfold mopakStep
  extract_lets n bad a b r
  split
  · exact .error .trap
  · split
    · exact .error (canonical_accPoisonTrap h)
    · exact .ok (canonical_orFlags (canonical_setCore h))

theorem canonical_mopak {o : LX} (h : Canonical s) : Either CanonicalStop Canonical (mopak o s) := by
  unfold mopak
  extract_lets m a b total n start key s1 panels rest rest1 rest2
  have hs1 : Canonical s1 := by unfold s1; exact canonical_joinMulticast h
  refine Either.bind canonical_ofCheck fun _ _ => ?_
  split
  · exact Either.bind (canonical_mopakStep h) (fun _ hk1 => .ok (canonical_stepLong hk1))
  · split
    · exact .error .stall
    · unfold rest2
      refine Either.bind canonical_orderWait fun _ _ => ?_
      refine Either.bind canonical_checkAlign fun _ _ => ?_
      refine Either.bind canonical_checkAlign fun _ _ => ?_
      split
      · exact .error .trap
      · unfold rest1
        split
        · exact .error .trap
        · unfold rest
          refine Either.bind canonical_panelPlace fun _ _ => ?_
          refine Either.bind canonical_panelPlace fun _ _ => ?_
          split
          · exact .ok (canonical_emptyLong hs1)
          · exact .ok (canonical_startLong hs1)

/-! ### MSTA and MLDA (R169) -/

theorem canonical_rowFormat {i : Instr} {o : LX} : Either CanonicalStop Stateless (rowFormat i o s) := by
  unfold rowFormat
  extract_lets p m fc
  split
  · exact .error .trap
  · exact .ok trivial

theorem canonical_rowPlaces {w : Who} {sz : ℕ} {l : List ℤ} (h : Canonical s) : Either CanonicalStop CanonicalFst (rowPlaces w sz l s) := by
  induction l generalizing w sz s with
  | nil =>
    rw [rowPlaces]
    exact .ok h
  | cons a t ih =>
    rw [rowPlaces]
    split
    · exact .error (.trapIn h)
    · next e1 => exact .error (canonical_checkRange.of_error e1 :)
    · split
      · exact .error (.trapIn h)
      · exact .error (.stallIn h)
      · next e2 => exact .error ((canonical_access h).of_error e2 :)
      · next e1 =>
          split
          · exact .error (.trapIn ((canonical_access h).of_ok e1 :))
          · split
            · next e3 => exact .error ((ih ((canonical_access h).of_ok e1 :)).of_error e3 :)
            · next e2 => exact .ok ((ih ((canonical_access h).of_ok e1 :)).of_ok e2 :)

theorem canonical_storeRow {asid sz : ℕ} {l : List (Place × ℕ)} (h : Canonical s) : Canonical (s.storeRow asid sz l) := by
  induction l generalizing s asid sz with
  | nil =>
    rw [State.storeRow]
    exact h
  | cons e t ih =>
    obtain ⟨p, c⟩ := e
    rw [State.storeRow]
    exact ih (canonical_placeWrite h)

theorem canonical_rowStep {o : LX} {store : Bool} {ea : ℤ} {sz r : ℕ} (h : Canonical s) :
    Either CanonicalStop Canonical (rowStep o store ea sz r s) := by
  unfold rowStep
  extract_lets m d fc src w base
  split
  · next e1 => exact .error ((canonical_rowPlaces h).of_error e1 :)
  · next e =>
      split
      · next e1 =>
          split
          · refine .error ?_
            refine .stallIn ?_
            split
            · exact canonical_noteMoving ((canonical_pinAll ((canonical_rowPlaces h).of_ok e :)).carry e1 :)
            · exact ((canonical_pinAll ((canonical_rowPlaces h).of_ok e :)).carry e1 :)
          · split
            · split
              · refine .error ?_
                split
                · exact .trapIn (canonical_unpin ((canonical_pinAll ((canonical_rowPlaces h).of_ok e :)).carry e1 :))
                · exact canonical_poisonQfault
              · extract_lets cs s3 s4
                have hs3 : Canonical s3 := by
                  unfold s3
                  exact canonical_wroteWhole (canonical_storeRow ((canonical_pinAll ((canonical_rowPlaces h).of_ok e :)).carry e1 :))
                have hs4 : Canonical s4 := by unfold s4; exact keeps_foldl hs3 (fun _ _ hk => canonical_countHot hk)
                exact .ok (canonical_orFlags (canonical_unpin hs4))
            · extract_lets vs x2 s3 s4
              have hs3 : Canonical s3 := by unfold s3; exact canonical_modCore ((canonical_pinAll ((canonical_rowPlaces h).of_ok e :)).carry e1 :)
              have hs4 : Canonical s4 := by unfold s4; exact keeps_foldl hs3 (fun _ _ hk => canonical_countHot hk)
              exact .ok (canonical_orFlags (canonical_unpin hs4))

theorem canonical_rowUnpin {c : ℕ} {x : Stop} (hx : CanonicalStop x) : CanonicalStop (rowUnpin c x) := by
  unfold rowUnpin
  split
  · exact .trapIn (canonical_unpin hx.of_trapIn)
  · exact hx

theorem canonical_rowMove {i : Instr} {o : LX} {store : Bool} (h : Canonical s) : Either CanonicalStop Canonical (rowMove i o store s) := by
  unfold rowMove
  extract_lets m kind fc sz ea total code start s1 rest rest1
  have hs1 : Canonical s1 := by
    unfold s1
    split
    · exact h
    · exact canonical_modCore h
  refine Either.bind canonical_rowFormat fun _ _ => ?_
  refine Either.bind canonical_checkMode fun _ _ => ?_
  split
  · split
    · next e2 => exact .error (canonical_rowUnpin ((canonical_rowStep h).of_error e2 :))
    · next e1 => exact .ok (canonical_stepLong ((canonical_rowStep h).of_ok e1 :))
  · refine Either.bind canonical_checkAlign fun _ _ => ?_
    split
    · exact .error .trap
    · unfold rest1
      refine Either.bind canonical_checkRange fun _ _ => ?_
      split
      · exact .error .stall
      · unfold rest
        refine Either.bind canonical_orderWait fun _ _ => ?_
        split
        · exact .ok (canonical_emptyLong hs1)
        · exact .ok (canonical_startLong h)

/-! ### The answer of a mailbox (R220) -/

theorem canonical_mailRecorded {status t : ℕ} {sender seqNo : ℕ} (h : Canonical s) : Canonical (s.mailRecorded status t sender seqNo) := by
  unfold State.mailRecorded
  split
  · split
    · exact canonical_replayTake h
    · exact h
  · exact canonical_capture h

theorem canonical_refuseMsg {t sender status : ℕ} (h : Canonical s) : Canonical (s.refuseMsg t sender status) := by
  unfold State.refuseMsg
  extract_lets s1
  have hs1 : Canonical s1 := by
    unfold s1
    split
    · exact h
    · exact canonical_modCore h
  exact canonical_mailRecorded hs1

theorem canonical_acceptMsg {t : ℕ} {m : Msg} {status : ℕ} (h : Canonical s) : CanonicalFst (s.acceptMsg t m status) := by
  unfold State.acceptMsg
  extract_lets key n s1 s2
  have hs1 : Canonical s1 := h.update rfl
  have hs2 : Canonical s2 := by unfold s2; exact canonical_modCore hs1
  exact canonical_mailRecorded hs2

theorem canonical_answerAt {t target hops : ℕ} {m : Msg} (h : Canonical s) : IfAny CanonicalFst (s.answerAt t target hops m) := by
  unfold State.answerAt
  split
  · exact .none
  · exact .some h
  · exact .some (canonical_refuseMsg h)
  · extract_lets st
    split
    · next e1 => exact .some ((canonical_acceptMsg h).carry e1 :)

theorem canonical_sendFrom {target : ℕ} {m : Msg} {n n1 : ℕ} (h : Canonical s) : IfAny CanonicalFst (s.sendFrom target m n n1) := by
  induction n generalizing s target m n1 with
  | zero =>
    rw [State.sendFrom]
    exact .none
  | succ k ih =>
    rw [State.sendFrom]
    split
    · exact .none
    · next e => exact .some ((canonical_answerAt h).of_some e :)
    · next e => exact ih ((canonical_answerAt h).of_some e :)

/-! ### MSEND, MSENDA (R194, R195) -/

theorem canonical_sendOrder {o : LH} : Either CanonicalStop Stateless (sendOrder o s) := by
  unfold sendOrder
  split
  · exact .ok trivial
  · exact canonical_orderWait

theorem canonical_execMsend {o : LH} (h : Canonical s) : CanonicalNext (execMsend o s) := by
  unfold execMsend
  refine canonical_run h fun _ hk => ?_
  refine Either.bind canonical_sendOrder fun _ _ => ?_
  extract_lets t rest
  split
  · exact .error .stall
  · unfold rest
    split
    · refine .error ?_
      refine .stallIn ?_
      split
      · exact hk
      · exact canonical_capHold hk
    · next e => exact .ok (canonical_retX ((canonical_sendFrom hk).of_some e :))

theorem canonical_execMsenda {o : LH} (h : Canonical s) : CanonicalNext (execMsenda o s) := by
  unfold execMsenda
  refine canonical_run h fun _ hk => ?_
  split
  · next e1 => exact .error (canonical_tokenCheck.of_some e1 :)
  · next x _ =>
      extract_lets t rest
      split
      · exact .error .stall
      · unfold rest
        refine Either.bind canonical_sendOrder fun _ _ => ?_
        split
        · next e1 =>
            extract_lets f
            exact .ok (canonical_advance (canonical_setPending (((canonical_freshId hk).carry e1 :).update rfl)))

/-! ### Events of a message in flight -/

theorem canonical_modFlight {id : ℕ} {f : Flight → Flight} (h : Canonical s) : Canonical (s.modFlight id f) := h.update rfl

theorem canonical_messageAnswer {id : ℕ} (h : Canonical s) : Canonical (messageAnswer id s) := by
  unfold messageAnswer
  split
  · exact h
  · extract_lets earlier
    split
    · exact h
    · split
      · split
        · exact h
        · exact canonical_capHold h
      · next e1 => exact canonical_modFlight ((canonical_answerAt h).of_some e1 :)
      · next e1 => exact canonical_modFlight ((canonical_answerAt h).of_some e1 :)

theorem canonical_msendaCompletion {id : ℕ} (h : Canonical s) : Canonical (msendaCompletion id s) := by
  unfold msendaCompletion
  split
  · exact h
  · split
    · exact h
    · extract_lets s1
      have hs1 : Canonical s1 := h.update rfl
      exact canonical_deliver hs1

/-! ### Handlers and service entries (R17, R26, R205, R223) -/

theorem canonical_handlerStart {c : ℕ} (h : Canonical s) : Canonical (handlerStart c s) := by
  unfold handlerStart
  extract_lets k
  split
  · exact h
  · split
    · exact h
    · extract_lets rest own
      split
      · exact h
      · split
        · next e2 =>
            refine canonical_modCore ?_
            refine (CanonicalSnd.carry ?_ e2 :)
            split
            · exact h
            · exact canonical_freshWord h

theorem canonical_serviceEntry {c : ℕ} (h : Canonical s) : Canonical (serviceEntry c s) := by
  unfold serviceEntry
  split
  · exact h
  · split
    · exact canonical_startService h
    · exact h

theorem canonical_execHend (h : Canonical s) : CanonicalNext (execHend s) := by
  unfold execHend
  refine canonical_run h fun _ hk => ?_
  refine canonical_attempt ?_ hk
  intro _ hk1
  split
  · exact canonical_endStrand hk1
  · split
    · exact .error .stall
    · split
      · exact .error .trap
      · exact .ok (canonical_freeA hk1)

theorem canonical_setQ {r : BitVec 5} {v : Word} (h : Canonical s) : Canonical (s.setQ r v) := canonical_modCx h

theorem canonical_keep {x : Stop} (h : Canonical s) (hx : CanonicalStop x) : CanonicalStop (keep s x) := by
  unfold keep
  split
  · exact .trapIn h
  · exact .stallIn h
  · exact hx

/-! ### Slots (R175 to R177) -/

theorem canonical_barrierAccess {kind : AKind} {need : Need} {va : ℕ} {late : optParam Bool false} (h : Canonical s) :
    Either CanonicalStop CanonicalFst (s.barrierAccess kind need va late) := by
  unfold State.barrierAccess
  extract_lets src w now
  split
  · exact canonical_access h
  · split
    · next e => exact .error ((canonical_translate h).of_error e :)
    · next e => exact canonical_access ((canonical_translate h).of_ok e :)

theorem canonical_barrierCheck {kind : AKind} {need : Need} {va : ℕ} (h : Canonical s) :
    Either CanonicalStop Canonical (s.barrierCheck kind need va) := by
  unfold State.barrierCheck
  extract_lets w
  split
  · exact Either.map canonical_localAccess (fun _ _ => h)
  · split
    · exact .ok h
    · exact Either.map (canonical_translate h) (fun _ hk => hk)

theorem canonical_countDue {p : Place} (h : Canonical s) : Canonical (s.countDue p) := by
  unfold State.countDue
  split
  · exact canonical_countHot h
  · exact h

theorem canonical_execLdref {o : LM} (h : Canonical s) : CanonicalNext (execLdref o s) := by
  unfold execLdref
  refine canonical_run h fun _ hk => ?_
  refine Either.bind canonical_orderWait fun _ _ => ?_
  refine Either.bind canonical_checkAddr fun _ _ => ?_
  refine Either.bind (canonical_barrierAccess hk) fun _ hk3 => ?_
  split
  · next x _ _ =>
      extract_lets v rest
      split
      · exact .error (.trapIn hk3)
      · unfold rest
        split
        · exact .ok (canonical_advance (canonical_setQ (canonical_countDue hk3)))
        · split
          · exact .error (.trapIn hk3)
          · refine Either.bind (Either.mapError (canonical_heal hk3) (fun _ hk4 => canonical_keep hk3 hk4)) fun _ hk4 => ?_
            split
            · split
              · exact .ok (canonical_advance (canonical_setQ (canonical_countDue hk4)))
              · refine Either.bind (Either.mapError (canonical_barrierAccess hk4) (fun _ hk5 => canonical_keep hk4 hk5)) fun _ hk5 => ?_
                split
                · extract_lets s4
                  have hs4 : Canonical s4 := by
                    unfold s4
                    split
                    · exact canonical_placeWrite hk5
                    · exact hk5
                  exact .ok (canonical_advance (canonical_setQ (canonical_countDue hs4)))

theorem canonical_execStref {o : LM} (h : Canonical s) : CanonicalNext (execStref o s) := by
  unfold execStref
  refine canonical_run h fun _ hk => ?_
  refine Either.bind canonical_orderWait fun _ _ => ?_
  refine Either.bind canonical_checkAddr fun _ _ => ?_
  extract_lets v
  split
  · refine Either.bind (canonical_barrierAccess hk) fun _ hk3 => ?_
    split
    · exact .ok (canonical_advance (canonical_placeWrite hk3))
  · refine Either.bind (canonical_barrierCheck hk) fun _ hk3 => ?_
    refine Either.bind (Either.mapError (canonical_heal hk3) (fun _ hk4 => canonical_keep hk3 hk4)) fun _ hk4 => ?_
    split
    · extract_lets s3
      have hs3 : Canonical s3 := by unfold s3; exact canonical_setQ hk4
      refine Either.bind (Either.mapError (canonical_barrierAccess hs3) (fun _ hk5 => canonical_keep hs3 hk5)) fun _ hk5 => ?_
      split
      · exact .ok (canonical_advance (canonical_placeWrite hk5))

/-! ### Fields (R178) -/

theorem canonical_field {o : LM} {kind : AKind} {need : Need} (h : Canonical s) :
    Either CanonicalStop CanonicalFst (s.field o kind need) := by
  unfold State.field
  extract_lets r w rest rest1
  split
  · exact .error .trap
  · unfold rest1
    split
    · exact .error .trap
    · unfold rest
      refine Either.bind (canonical_heal h) fun _ hk => ?_
      split
      · extract_lets s21
        have hs21 : Canonical s21 := by unfold s21; exact canonical_setQ hk
        refine Either.bind (Either.mapError canonical_checkRange (fun _ hk1 => canonical_keep hs21 hk1)) fun _ _ => ?_
        split
        · exact .error (.trapIn hs21)
        · split
          · exact .error (canonical_keep hs21 (canonical_homeStop hs21))
          · next e =>
              split
              · exact .error (.trapIn ((canonical_homeEntry hs21).of_ok e :))
              · split
                · exact .error (.trapIn ((canonical_homeEntry hs21).of_ok e :))
                · split
                  · exact .error (.trapIn ((canonical_homeEntry hs21).of_ok e :))
                  · refine Either.bind (Either.mapError (canonical_barrierAccess ((canonical_homeEntry hs21).of_ok e :))
                      (fun _ hk2 => canonical_keep ((canonical_homeEntry hs21).of_ok e :) hk2)) fun _ hk2 => ?_
                    split
                    · exact .ok hk2

theorem canonical_execLdf {o : LM} (h : Canonical s) : CanonicalNext (execLdf o s) := by
  unfold execLdf
  refine canonical_run h fun _ hk => ?_
  refine Either.bind canonical_orderWait fun _ _ => ?_
  refine Either.bind (canonical_field hk) fun _ hk2 => ?_
  split
  · next x _ _ _ =>
      extract_lets src
      split
      · exact .error (.trapIn hk2)
      · exact .ok (canonical_retX hk2)

theorem canonical_execStf {o : LM} (h : Canonical s) : CanonicalNext (execStf o s) := by
  unfold execStf
  refine canonical_run h fun _ hk => ?_
  refine Either.bind canonical_orderWait fun _ _ => ?_
  refine Either.bind (canonical_field hk) fun _ hk2 => ?_
  split
  · exact .ok (canonical_advance (canonical_placeWrite hk2))

/-! ### Pins (R179) -/

theorem canonical_objectPages {w : Who} {n n1 n2 : ℕ} (h : Canonical s) : Either CanonicalStop CanonicalFst (s.objectPages w n n1 n2) := by
  induction n generalizing s w n1 n2 with
  | zero =>
    rw [State.objectPages]
    exact .ok h
  | succ fuel ih =>
    rw [State.objectPages]
    split
    · exact .ok h
    · split
      · next e1 => exact .error (canonical_keep h ((canonical_managedPage h).of_error e1 :))
      · next e1 =>
          extract_lets m
          split
          · next e2 => exact .error ((ih ((canonical_managedPage h).of_ok e1 :)).of_error e2 :)
          · next e2 => exact .ok ((ih ((canonical_managedPage h).of_ok e1 :)).of_ok e2 :)

theorem canonical_pinPages {f : ℕ → ℕ} {l : List HomeEntry} (h : Canonical s) : Canonical (s.pinPages f l) := by
  unfold State.pinPages
  extract_lets up
  refine keeps_foldl h fun _ _ hk => ?_
  split
  · exact canonical_modEntry hk
  · exact Memory.wf_write hk _ _ _

theorem canonical_pinOp {a : BitVec 5} {bad reason : ℕ} {f : ℕ → ℕ} (h : Canonical s) :
    Either CanonicalStop CanonicalFst (pinOp a bad reason f s) := by
  unfold pinOp
  extract_lets r w rest
  split
  · exact .error .trap
  · unfold rest
    refine Either.bind (canonical_heal h) fun _ hk => ?_
    split
    · next x _ _ =>
        extract_lets s21
        have hs21 : Canonical s21 := by unfold s21; exact canonical_setQ hk
        refine Either.bind (Either.mapError (canonical_managedPage hs21) (fun _ hk1 => canonical_keep hs21 hk1)) fun _ hk1 => ?_
        split
        · extract_lets p n rest1
          split
          · exact .error (.trapIn hk1)
          · unfold rest1
            refine Either.bind (canonical_objectPages hk1) fun _ hk2 => ?_
            split
            · split
              · exact .error (.trapIn hk2)
              · exact .ok (canonical_pinPages hk2)

theorem canonical_execPin {o : LH} (h : Canonical s) : CanonicalNext (execPin o s) := by
  unfold execPin
  refine canonical_run h fun _ hk => ?_
  refine Either.bind (canonical_pinOp hk) fun _ hk1 => ?_
  split
  · exact .ok (canonical_retX hk1)

theorem canonical_execUnpin {o : LH} (h : Canonical s) : CanonicalNext (execUnpin o s) := by
  unfold execUnpin
  refine canonical_run h fun _ hk => ?_
  extract_lets rest
  split
  · exact .error .stall
  · unfold rest
    refine Either.bind (canonical_pinOp hk) fun _ hk1 => ?_
    split
    · exact .ok (canonical_advance hk1)

/-! ### Moves, conversion and comparison (R180) -/

theorem canonical_execQcvtToRef {o : LH} (h : Canonical s) : CanonicalNext (execQcvtToRef o s) := by
  unfold execQcvtToRef
  refine canonical_run h fun _ hk => ?_
  extract_lets v
  split
  · exact .ok (canonical_advance (canonical_setQ hk))
  · split
    · exact .error .trap
    · refine Either.bind (canonical_managedPage hk) fun _ hk1 => ?_
      split
      · exact .ok (canonical_advance (canonical_setQ hk1))

theorem canonical_execRefeq {o : LH} (h : Canonical s) : CanonicalNext (execRefeq o s) := by
  unfold execRefeq
  refine canonical_run h fun _ hk => ?_
  extract_lets a1 b
  split
  · exact .ok (canonical_retX hk)
  · refine Either.bind (canonical_heal hk) fun _ hk1 => ?_
    split
    · extract_lets s21
      have hs21 : Canonical s21 := by unfold s21; exact canonical_setQ hk1
      refine Either.bind (Either.mapError (canonical_heal hs21) (fun _ hk2 => canonical_keep hs21 hk2)) fun _ hk2 => ?_
      split
      · extract_lets s4
        have hs4 : Canonical s4 := by unfold s4; exact canonical_setQ hk2
        exact .ok (canonical_retX hs4)

theorem canonical_remapLanes (h : Canonical s) : Either CanonicalStop Canonical (remapLanes s) := by
  unfold remapLanes
  extract_lets k s1
  have hs1 : Canonical s1 := by unfold s1; exact canonical_modCore h
  split
  · split
    · exact .error .stall
    · exact .ok (Memory.wf_zero hs1 _ _)
  · exact .ok h

theorem canonical_configAllowed {i : Instr} : Either CanonicalStop Stateless (configAllowed i s) := canonical_vectorAllowed

theorem canonical_execSetvl {o : LH} (h : Canonical s) : CanonicalNext (execSetvl o s) := by
  unfold execSetvl
  refine canonical_run h fun _ hk => ?_
  refine Either.bind canonical_configAllowed fun _ _ => ?_
  extract_lets req
  exact Either.bind (canonical_remapLanes hk) (fun _ hk2 => .ok (canonical_retX hk2))

theorem canonical_execVsett {o : LI16} (h : Canonical s) : CanonicalNext (execVsett o s) := by
  unfold execVsett
  refine canonical_run h fun _ hk => ?_
  refine Either.bind canonical_configAllowed fun _ _ => ?_
  extract_lets src
  split
  · exact .error .trap
  · exact Either.bind (canonical_remapLanes hk) (fun _ hk2 => Either.bind (canonical_writeVtype hk2) (fun _ hk3 => .ok (canonical_retX hk3)))

theorem canonical_execVsettx {o : LH} (h : Canonical s) : CanonicalNext (execVsettx o s) := by
  unfold execVsettx
  refine canonical_run h fun _ hk => ?_
  refine Either.bind canonical_configAllowed fun _ _ => ?_
  extract_lets v req t src
  split
  · exact .error .trap
  · exact Either.bind (canonical_remapLanes hk) (fun _ hk2 => Either.bind (canonical_writeVtype hk2) (fun _ hk3 => .ok (canonical_retX hk3)))

theorem canonical_execQsync (h : Canonical s) : CanonicalNext (execQsync s) := by
  unfold execQsync
  refine canonical_run h fun _ hk => ?_
  refine Either.bind canonical_configAllowed fun _ _ => ?_
  split
  · exact .ok (canonical_advance hk)
  · exact .error .stall

theorem canonical_formGang {n : ℕ} (h : Canonical s) : Canonical (s.formGang n) := by
  unfold State.formGang
  extract_lets c s1
  have hs1 : Canonical s1 := by unfold s1; exact canonical_modCore h
  refine keeps_foldl hs1 fun _ _ hk => ?_
  extract_lets t1
  have ht1 : Canonical t1 := by unfold t1; exact canonical_flushSlots (canonical_modCore hk)
  exact Memory.wf_zero ht1 _ _

theorem canonical_execGang {o : LH} (h : Canonical s) : CanonicalNext (execGang o s) := by
  unfold execGang
  refine canonical_run h fun _ hk => ?_
  refine Either.bind (canonical_remapLanes hk) fun _ hk1 => ?_
  extract_lets n st s2 src
  have hs2 : Canonical s2 := by
    unfold s2
    split
    · exact canonical_formGang hk1
    · exact hk1
  split
  · exact .error .stall
  · exact .ok (canonical_retX hs2)

theorem canonical_execUngang (h : Canonical s) : CanonicalNext (execUngang s) := by
  unfold execUngang
  refine canonical_run h fun _ hk => ?_
  refine Either.bind canonical_configAllowed fun _ _ => ?_
  split
  · exact .error .stall
  · exact .ok (canonical_advance (canonical_disband hk))

/-! ### Issue of elementwise instructions (R142 to R145) -/

theorem canonical_issueInt {i : Instr} {o : LV} (h : Canonical s) :
    Either CanonicalStop Canonical (issueInt i o s) := Either.bind canonical_vectorChecks (fun _ _ => canonical_issueEntry h)

theorem canonical_issueFloat {i : Instr} {o : LV} {sat rounds : Bool} (h : Canonical s) :
    Either CanonicalStop Canonical (issueFloat i o sat rounds s) := Either.bind canonical_vectorChecks
        (fun _ _ => Either.bind canonical_needFloat (fun _ _ => Either.bind canonical_satAllowed (fun _ _ => Either.bind canonical_checkMode
        (fun _ _ => canonical_issueEntry h))))

theorem canonical_issueX24 {i : Instr} {o : LX} {sat rounds : Bool} (h : Canonical s) :
    Either CanonicalStop Canonical (issueX24 i o sat rounds s) := Either.bind canonical_vectorChecks
        (fun _ _ => Either.bind canonical_needFloat (fun _ _ => Either.bind canonical_satAllowed (fun _ _ => Either.bind canonical_checkMode
        (fun _ _ => canonical_issueEntry h))))

theorem canonical_cvtFormats {i : Instr} {f16 : ℕ} : Either CanonicalStop Stateless (cvtFormats i f16) := by
  unfold cvtFormats
  extract_lets src tgt bad
  split
  · exact .error .trap
  · split
    · exact .error .trap
    · split
      · exact .error .trap
      · exact .ok trivial

theorem canonical_issueCvt {i : Instr} {o : LX} (h : Canonical s) :
    Either CanonicalStop Canonical (issueCvt i o s) := Either.bind canonical_vectorChecks
        (fun _ _ => Either.bind canonical_cvtFormats (fun _ _ => Either.bind canonical_checkMode (fun _ _ => canonical_issueEntry h)))

theorem canonical_issueSgn {i : Instr} {o : LX} (h : Canonical s) : Either CanonicalStop Canonical (issueSgn i o s) := by
  unfold issueSgn
  split
  · split
    · next e1 => exact .error (canonical_vectorChecks.of_error e1 :)
    · exact .error .trap
  · exact canonical_issueX24 h

theorem canonical_issueMask {i : Instr} {o : LH} (h : Canonical s) :
    Either CanonicalStop Canonical (issueMask i o s) := Either.bind canonical_vectorChecks (fun _ _ => canonical_issueEntry h)

theorem canonical_scalarHalf {i : Instr} {r : RegName} : Either CanonicalStop Stateless (scalarHalf i r s) := by
  unfold scalarHalf
  refine Either.bind canonical_vectorChecks fun _ _ => ?_
  split
  · exact .error .stall
  · exact .ok trivial

theorem canonical_execVmovx {o : LV} (h : Canonical s) : CanonicalNext (execVmovx o s) := by
  unfold execVmovx
  refine canonical_run h fun _ hk => ?_
  refine Either.bind canonical_scalarHalf fun _ _ => ?_
  extract_lets w i v
  split
  · exact .ok (canonical_retX hk)
  · split
    · split
      · exact .error canonical_poisonQfault
      · exact .error .stall
    · exact .ok (canonical_retX hk)

theorem canonical_maskRead {i : Instr} {o : LH} {f : Core → ℕ → ℕ → Word} (h : Canonical s) :
    Either CanonicalStop Canonical (maskRead i o f s) := by
  unfold maskRead
  refine Either.bind canonical_scalarHalf fun _ _ => ?_
  extract_lets n
  split
  · split
    · exact .error canonical_poisonQfault
    · exact .error .stall
  · exact .ok (canonical_retX h)

end Sys2Proof.Proofs
end


section
/-! SUPPORT. Every function of a step keeps memory canonical (O26): every instruction and event, the turns, and the step. -/

namespace Sys2Proof.Proofs
open Sys2Proof.Machine

variable {s : State}

theorem canonical_exec {i : Instr} (h : Canonical s) : CanonicalNext (exec i s) := by
  cases i with
  | brk => simp only [exec]; exact canonical_run h (fun _ _ => .error .trap)
  | add | sub | and | or | xor | andn | orn | xnor | sll | srl | sra | rol | ror | slt | sltu | seq | min | max | minu | maxu | mul | mulh
  | mulhu | mulhsu | div | divu | rem | remu | clz | ctz | popc | bswap | sext | zext | addw | subw | mulw =>
    simp only [exec]
    exact canonical_run h (fun _ hk => canonical_aluH hk)
  | cmovz | cmovnz | gfmt | clrfmt | suba | liI16 | liI32 | liL64 | lpc | mov | qcvtFromRef | self =>
    simp only [exec]
    exact canonical_run h (fun _ hk => .ok (canonical_retX hk))
  | addiI16 | andiI16 | oriI16 | xoriI16 | sltiI16 | sltiuI16 | shiI16 | muliI16 =>
    simp only [exec]
    exact canonical_run h (fun _ hk => canonical_immForm16 hk)
  | addiWi | andiWi | oriWi | xoriWi | sltiWi | sltiuWi | shiWi | muliWi =>
    simp only [exec]
    exact canonical_run h (fun _ hk => canonical_immForm27 hk)
  | addiXi | andiXi | oriXi | xoriXi | sltiXi | sltiuXi | shiXi | muliXi =>
    simp only [exec]
    exact canonical_run h (fun _ hk => canonical_immForm59 hk)
  | adda | addiaWi | addiaXi | scalea => simp only [exec]; exact canonical_run h (fun _ hk => canonical_retPointer hk)
  | pfmt => simp only [exec]; exact canonical_execPfmt h
  | csrr | csrw | csrs | csrc | csrx => simp only [exec]; exact canonical_run h (fun _ hk => canonical_csrOp hk)
  | j => simp only [exec]; exact canonical_run h (fun _ hk => .ok (canonical_jump hk))
  | jal | jalr => simp only [exec]; exact canonical_run h (fun _ hk => canonical_linkTo hk)
  | beq | bne | blt | bge | bltu | bgeu => simp only [exec]; exact canonical_run h (fun _ hk => canonical_branch hk)
  | bms | bmc => simp only [exec]; exact canonical_run h (fun _ hk => canonical_maskBranch hk)
  | fadd | fsub | fmul | fdiv => simp only [exec]; exact canonical_run h (fun _ hk => canonical_fpArith hk)
  | fsqrt => simp only [exec]; exact canonical_execFsqrt h
  | fmin | fmax => simp only [exec]; exact canonical_run h (fun _ hk => canonical_fpMinMax hk)
  | fcmp => simp only [exec]; exact canonical_execFcmp h
  | fma => simp only [exec]; exact canonical_execFma h
  | fcvt => simp only [exec]; exact canonical_execFcvt h
  | fclass => simp only [exec]; exact canonical_execFclass h
  | ldb | ldbu | ldh | ldhu | ldw | ldwu | ldd | ldaq | ldaqw => simp only [exec]; exact canonical_run h (fun _ hk => canonical_loadM hk)
  | stb | sth | stw | std | strl | strlw => simp only [exec]; exact canonical_run h (fun _ hk => canonical_storeM hk)
  | mstd => simp only [exec]; exact canonical_execMstd h
  | amo | cas => simp only [exec]; exact canonical_run h (fun _ hk => canonical_atomicW hk)
  | fence => simp only [exec]; exact canonical_execFence h
  | pflush => simp only [exec]; exact canonical_execPflush h
  | clwb => simp only [exec]; exact canonical_execClwb h
  | acopy => simp only [exec]; exact canonical_execAcopy h
  | acopy2d => simp only [exec]; exact canonical_execAcopy2d h
  | agather => simp only [exec]; exact canonical_execAgather h
  | acoll => simp only [exec]; exact canonical_execAcoll h
  | glaze => simp only [exec]; exact canonical_execGlaze h
  | wbind => simp only [exec]; exact canonical_execWbind h
  | wread => simp only [exec]; exact canonical_execWread h
  | acancel => simp only [exec]; exact canonical_execAcancel h
  | setvl => simp only [exec]; exact canonical_execSetvl h
  | vsett => simp only [exec]; exact canonical_execVsett h
  | vsettx => simp only [exec]; exact canonical_execVsettx h
  | slip =>
    simp only [exec]
    exact canonical_run h (fun _ hk => Either.bind canonical_configAllowed (fun _ _ => .ok (canonical_advance (canonical_modU hk))))
  | gang => simp only [exec]; exact canonical_execGang h
  | vadd | vsub | vand | vor | vxor | vsll | vsrl | vsra | vmul | vmulh | vmin | vmax | vsadd | vssub | vcmp | vmerge | vredsum | vredmax
  | vslide | vperm | vcompress | vexpand | viota | vmov => simp only [exec]; exact canonical_run h (fun _ hk => canonical_issueInt hk)
  | vfadd | vfsub | vfmul | vfdiv | vfmin | vfmax | vfcmp | vfsqrt | vfredsum | vfredmax =>
    simp only [exec]
    exact canonical_run h (fun _ hk => canonical_issueFloat hk)
  | vfma | vfnma | vfclass | vfscale => simp only [exec]; exact canonical_run h (fun _ hk => canonical_issueX24 hk)
  | vfcvt => simp only [exec]; exact canonical_run h (fun _ hk => canonical_issueCvt hk)
  | vfsgn => simp only [exec]; exact canonical_run h (fun _ hk => canonical_issueSgn hk)
  | vmovx => simp only [exec]; exact canonical_execVmovx h
  | vins | vsplat => simp only [exec]; exact canonical_run h (fun _ hk => Either.bind canonical_vectorChecks (fun _ _ => canonical_issueEntry hk))
  | mand | mor | mxor | mandn | mnot | msbf => simp only [exec]; exact canonical_run h (fun _ hk => canonical_issueMask hk)
  | mpop | mfirst => simp only [exec]; exact canonical_run h (fun _ hk => canonical_maskRead hk)
  | vld | vst => simp only [exec]; exact canonical_run h (fun _ hk => canonical_issuePlain hk)
  | vldx | vstx => simp only [exec]; exact canonical_run h (fun _ hk => canonical_issueIndexed hk)
  | vlds | vsts => simp only [exec]; exact canonical_run h (fun _ hk => canonical_issueScaled hk)
  | mld | mst => simp only [exec]; exact canonical_run h (fun _ hk => canonical_issueMaskMem hk)
  | vldl | vstl => simp only [exec]; exact canonical_run h (fun _ hk => canonical_issueLane hk)
  | ranka | ranks => simp only [exec]; exact canonical_run h (fun _ hk => canonical_issueRank hk)
  | mopak => simp only [exec]; exact canonical_run h (fun _ hk => canonical_mopak hk)
  | mzero | mdrop => simp only [exec]; exact canonical_run h (fun _ hk => Either.bind canonical_matrixChecks (fun _ _ => canonical_issueShort hk))
  | mrd => simp only [exec]; exact canonical_execMrd h
  | mwr => simp only [exec]; exact canonical_execMwr h
  | mrowacc => simp only [exec]; exact canonical_execMrowacc h
  | msta | mlda => simp only [exec]; exact canonical_run h (fun _ hk => canonical_rowMove hk)
  | mstat => simp only [exec]; exact canonical_execMstat h
  | ldref => simp only [exec]; exact canonical_execLdref h
  | stref => simp only [exec]; exact canonical_execStref h
  | ldf => simp only [exec]; exact canonical_execLdf h
  | stf => simp only [exec]; exact canonical_execStf h
  | pin => simp only [exec]; exact canonical_execPin h
  | unpin => simp only [exec]; exact canonical_execUnpin h
  | qmov => simp only [exec]; exact canonical_run h (fun _ hk => .ok (canonical_advance (canonical_setQ hk)))
  | qcvtToRef => simp only [exec]; exact canonical_execQcvtToRef h
  | refeq => simp only [exec]; exact canonical_execRefeq h
  | spawn => simp only [exec]; exact canonical_execSpawn h
  | join => simp only [exec]; exact canonical_execJoin h
  | exit => simp only [exec]; exact canonical_execExit h
  | migrate => simp only [exec]; exact canonical_execMigrate h
  | bar => simp only [exec]; exact canonical_execBar h
  | crewinfo => simp only [exec]; exact canonical_execCrewinfo h
  | msend => simp only [exec]; exact canonical_execMsend h
  | msenda => simp only [exec]; exact canonical_execMsenda h
  | enqt => simp only [exec]; exact canonical_execEnqt h
  | tdone => simp only [exec]; exact canonical_execTdone h
  | grun => simp only [exec]; exact canonical_execGrun h
  | cbinv =>
    simp only [exec]
    exact canonical_run h (fun _ hk => Either.bind canonical_orderWait (fun _ _ => Either.bind canonical_rangeOperand (fun _ _ => .ok
        (canonical_advance hk))))
  | sysc => simp only [exec]; exact canonical_execSysc h
  | sret => simp only [exec]; exact canonical_execSret h
  | wait => simp only [exec]; exact canonical_execWait h
  | xinv => simp only [exec]; exact canonical_execXinv h
  | opreq => simp only [exec]; exact canonical_run h (fun _ hk => .ok (canonical_advance (canonical_modCore hk)))
  | preempt => simp only [exec]; exact canonical_execPreempt h
  | ctxstream => simp only [exec]; exact canonical_execCtxstream h
  | serviceEntry => simp only [exec]; exact .next (canonical_serviceEntry h)
  | handlerStart => simp only [exec]; exact .next (canonical_handlerStart h)
  | messageAnswer => simp only [exec]; exact .next (canonical_messageAnswer h)
  | msendaCompletion => simp only [exec]; exact .next (canonical_msendaCompletion h)
  | vectorEntryExecute => simp only [exec]; exact .next (canonical_vectorEntry h)
  | matrixEntryExecute => simp only [exec]; exact .next (canonical_matrixEntry h)
  | enginePiece => simp only [exec]; exact .next (canonical_enginePiece h)
  | tokenCompletion => simp only [exec]; exact .next (canonical_tokenCompletion h)
  | windowExchange => simp only [exec]; exact .next (canonical_windowExchange h)
  | collectiveTimeout => simp only [exec]; exact .next (canonical_collectiveTimeout h)
  | remoteCopyTimeout => simp only [exec]; exact .next (canonical_remoteTimeout h)
  | liveMoveAck => simp only [exec]; exact .next (canonical_liveMoveAck h)
  | measuredMigration => simp only [exec]; exact .next (canonical_measuredMigration h)
  | aging => simp only [exec]; exact .next (canonical_aging h)
  | parkedWaitCheck => simp only [exec]; exact .next (canonical_parkedCheck h)
  | waitTimeout => simp only [exec]; exact .next (canonical_waitTimeout h)
  | overflowAdmit => simp only [exec]; exact .next (canonical_overflowAdmit h)
  | occupantZeroingDone => simp only [exec]; exact .next (canonical_zeroingDone h)
  | schedulerPreempt => simp only [exec]; exact .next (canonical_schedulerPreempt h)
  | watchdogT1 => simp only [exec]; exact .next (canonical_watchdogT1 h)
  | watchdogT2 => simp only [exec]; exact .next (canonical_watchdogT2 h)
  | watchdogT3 => simp only [exec]; exact .next (canonical_watchdogT3 h)
  | jobTake => simp only [exec]; exact .next (canonical_jobTake h)
  | recordReady => simp only [exec]; exact .next (canonical_recordReady h)
  | dispatch => simp only [exec]; exact .next (canonical_dispatchSite h)
  | crewReservation => simp only [exec]; exact .next (canonical_crewReservation h)
  | eprioRaise => simp only [exec]; exact .next (canonical_eprioRaise h)
  | clusterTaskDispatch => simp only [exec]; exact .next (canonical_clusterDispatch h)
  | clusterTaskRecheck => simp only [exec]; exact .next (canonical_clusterRecheck h)
  | queueCancel => simp only [exec]; exact .next (canonical_queueCancel h)
  | eventsLostReport => simp only [exec]; exact .next (canonical_eventsLostReport h)
  | syscRingRetry => simp only [exec]; exact .next (canonical_syscRingRetry h)
  | syscResult => simp only [exec]; exact .next (canonical_syscResult h)
  | asbindBind | asbindUnbind => simp only [exec]; exact .next (canonical_asbindWrite h)
  | powerOnReset => simp only [exec]; exact .next (canonical_doReset h)
  | modctlCold => simp only [exec]; exact .next (canonical_modctlCold h)
  | modctlWarm => simp only [exec]; exact .next (canonical_modctlWarm h)
  | attestRequest => simp only [exec]; exact .next (canonical_attestRequest h)
  | captureModeOff => simp only [exec]; exact .next (canonical_captureModeOff h)
  | captureModeOn => simp only [exec]; exact .next (canonical_captureModeOn h)
  | replayModeOn => simp only [exec]; exact .next (canonical_replayModeOn h)
  | captureRingSpace => simp only [exec]; exact .next (canonical_captureRingSpace h)
  | replayForceTimeout => simp only [exec]; exact .next (canonical_replayForceTimeout h)
  | registerWrite => simp only [exec]; exact .next (canonical_registerWrite h)
  | errorCorrected => simp only [exec]; exact canonical_execErrorCorrected h
  | poisonCreated => simp only [exec]; exact .next (canonical_poisonCreated h)
  | laneRetire => simp only [exec]; exact .next (canonical_laneRetire h)
  | matrixStepCheckFail => simp only [exec]; exact .next (canonical_matrixFail h)
  | coreFence => simp only [exec]; exact canonical_execCoreFence h
  | opLimitLower => simp only [exec]; exact .next (canonical_opLimitLower h)
  | pseudoChannelFailing => simp only [exec]; exact canonical_execPseudoChannelFailing h
  | linkDegrade => simp only [exec]; exact canonical_execLinkDegrade h
  | moduleError | thermalCritical => simp only [exec]; exact .next (canonical_moduleStop h)
  | hostPortDown => simp only [exec]; exact .next (canonical_hostPortDown h)
  | hostDeath => simp only [exec]; exact .next (canonical_poisonRange h)
  | poolFailure => simp only [exec]; exact canonical_execPoolFailure h
  | cxlEngineFailure => simp only [exec]; exact .next (canonical_logRecord (canonical_modPort h))
  | fabricPortDown | fabricPortUp => simp only [exec]; exact .next (canonical_setFabric h)
  | thermalWarning | thermalThrottle => simp only [exec]; exact .next (canonical_recallAll (canonical_modSite h))
  | damperGrant => simp only [exec]; exact .next (canonical_damperGrant h)
  | tileGate => simp only [exec]; exact .next (canonical_tileGate h)
  | tileWake => simp only [exec]; exact .next (canonical_tileWake h)
  | pointSwitch => simp only [exec]; exact .next (canonical_pointSwitch h)
  | atsCompletion => simp only [exec]; exact .next (canonical_atsCompletion h)
  | priResponse => simp only [exec]; exact .next (canonical_priResponse h)
  | priTimeout => simp only [exec]; exact .next (canonical_priTimeout h)
  | atsInvalidation => simp only [exec]; exact canonical_execAtsInvalidation h
  | invalidationCompletion => simp only [exec]; exact .next (canonical_invalidationCompletion h)
  | hostSnoop => simp only [exec]; exact .next (canonical_hostSnoop h)
  | hostMemAccess => simp only [exec]; exact canonical_execHostMemAccess h
  | pinAdmit => simp only [exec]; exact .next (canonical_pinAdmit h)
  | hotnessWriteback => simp only [exec]; exact canonical_execHotnessWriteback h
  | moveMigrate | moveReplicate | moveCollapse | moveResetHotness => simp only [exec]; exact .next (canonical_moveServe h)
  | flip => simp only [exec]; exact .next (canonical_heapServe (fun _ _ _ _ hk => canonical_flipServe hk) h)
  | copy => simp only [exec]; exact .next (canonical_heapServe (fun _ _ _ _ hk => canonical_copyServe hk) h)
  | free => simp only [exec]; exact .next (canonical_heapServe (fun _ _ _ _ hk => canonical_freeServe hk) h)
  | errorLogSpace => simp only [exec]; exact .next (canonical_errorLogSpace h)
  | persistConfirmation => simp only [exec]; exact .next (canonical_persistConfirmation h)
  | nodeQualifiedRemoteAccess => simp only [exec]; exact .next (canonical_remoteAccess h)
  | hostPortUp => simp only [exec]; exact .next (canonical_modPort h)
  | conePointRecovery => simp only [exec]; exact .next (canonical_modSite h)
  | nop => simp only [exec]; exact canonical_run h (fun _ hk => .ok (canonical_advance hk))
  | psync => simp only [exec]; exact canonical_execPsync h
  | qsync => simp only [exec]; exact canonical_execQsync h
  | ungang => simp only [exec]; exact canonical_execUngang h
  | mwait => simp only [exec]; exact canonical_execMwait h
  | yield => simp only [exec]; exact canonical_execYield h
  | hend => simp only [exec]; exact canonical_execHend h

/-! ### Issue -/

theorem canonical_fetchStop {e : Stop} (h : Canonical s) (he : CanonicalStop e) : CanonicalNext (fetchStop s e) := by
  unfold fetchStop
  split
  · split
    · exact .next (canonical_fence h)
    · exact canonical_finish h .trap
  · split
    · exact .next (canonical_fence h)
    · exact canonical_finish h (.trapIn he.of_trapIn)
  · exact canonical_finish h he

theorem canonical_afterIssue {i : Instr} {t : State} (ht : Canonical t) : Canonical (afterIssue i s t) := by
  unfold afterIssue
  split
  · exact ht
  · split
    · exact ht
    · extract_lets k same t1 t11
      have ht1 : Canonical t1 := by
        unfold t1
        split
        · exact ht
        · exact canonical_modStrand ht
      have ht11 : Canonical t11 := by unfold t11; exact canonical_modCore ht1
      split
      · exact canonical_closeWindow ht11
      · exact ht11

theorem canonical_mapNext {f : State → State} {x : Host.Outcome State Fault Refusal} (hf : ∀ t, Canonical t → Canonical (f t))
    (hx : CanonicalNext x) :
    CanonicalNext (mapNext f x) := by
  unfold mapNext
  split
  · exact .next (hf _ (hx.of_next rfl))
  · exact .fault
  · exact .refused

theorem canonical_issueNow (h : Canonical s) : CanonicalTurn (issueNow s) := by
  unfold issueNow
  split
  · next e1 => exact canonical_fetchStop h ((canonical_fetch h).of_error e1 :)
  · next e =>
      split
      · exact canonical_finish ((canonical_fetch h).of_ok e :) .trap
      · split
        · next e2 => exact .next (canonical_afterIssue ((canonical_exec ((canonical_fetch h).of_ok e :)).of_next e2 :))
        · exact canonical_exec ((canonical_fetch h).of_ok e :)

theorem canonical_issueAt {c : ℕ} {n : CtxName} (h : Canonical s) : CanonicalTurn (issueAt c n s) := canonical_issueNow (h.update rfl)

theorem canonical_coreIssue {c : ℕ} (h : Canonical s) : CanonicalNext (coreIssue c s) := by
  unfold coreIssue
  split
  · split
    · exact canonical_issueAt h
    · exact .next h
  · split
    · exact canonical_issueAt h
    · extract_lets ra ru
      have hra : CanonicalTurn ra := by unfold ra; exact canonical_issueAt h
      have hru : CanonicalTurn ru := by unfold ru; exact canonical_issueAt h
      split
      · split
        · split
          · next e2 => exact canonical_issueAt (hru.of_next e2 :)
          · exact hru
        · split
          · exact hru
          · exact canonical_mapNext (fun _ hk => canonical_modCore hk) hra
      · split
        · next e => exact canonical_issueAt (hra.of_next e :)
        · exact hra

/-! ### What a core does of itself -/

theorem canonical_whenB {b : Bool} {f : State → State} (hf : ∀ t, Canonical t → Canonical (f t)) (h : Canonical s) :
    Canonical (whenB b f s) := by
  unfold whenB
  split
  · exact canonical_attemptState h (fun _ hk => hf _ hk)
  · exact h

theorem canonical_background {c : ℕ} (h : Canonical s) : Canonical (background c s) := by
  unfold background
  extract_lets s1 s2 s3 s4 s5 s6 s7 s8 s9 s10 s11
  have hs1 : Canonical s1 := by unfold s1; exact canonical_whenB (fun _ hk => canonical_zeroingDone hk) h
  have hs2 : Canonical s2 := by unfold s2; exact canonical_whenB (fun _ hk => canonical_nextU hk) hs1
  have hs3 : Canonical s3 := by unfold s3; exact canonical_whenB (fun _ hk => canonical_stopNow (canonical_stopMate hk)) hs2
  have hs4 : Canonical s4 := by unfold s4; exact canonical_whenB (fun _ hk => canonical_breakStep hk) hs3
  have hs5 : Canonical s5 := by unfold s5; exact canonical_whenB (fun _ hk => canonical_retireStep hk) hs4
  have hs6 : Canonical s6 := by unfold s6; exact canonical_whenB (fun _ hk => canonical_endKilled hk) hs5
  have hs7 : Canonical s7 := by unfold s7; exact canonical_whenB (fun _ hk => canonical_sendOn hk) hs6
  have hs8 : Canonical s8 := by unfold s8; exact canonical_whenB (fun _ hk => canonical_serviceEntry hk) hs7
  have hs9 : Canonical s9 := by unfold s9; exact canonical_whenB (fun _ hk => canonical_handlerStart hk) hs8
  have hs10 : Canonical s10 := by unfold s10; exact canonical_whenB (fun _ hk => canonical_matrixEntry hk) hs9
  have hs11 : Canonical s11 := by unfold s11; exact canonical_whenB (fun _ hk => canonical_vectorEntry hk) hs10
  exact canonical_whenB (fun _ hk => canonical_measuredMigration (canonical_aging hk)) hs11

theorem canonical_tickCore {c : ℕ} (h : Canonical s) : Canonical (s.tickCore c) := by
  unfold State.tickCore
  extract_lets src
  have hsrc : Canonical src := by unfold src; exact canonical_modCore h
  exact hsrc.update rfl

theorem canonical_noteWork {c : ℕ} (h : Canonical s) :
    Canonical (s.noteWork c) := canonical_noteAsk (canonical_whenB (fun _ hk => canonical_modTile hk) h)

theorem canonical_coreTurn {c : ℕ} (h : Canonical s) :
    CanonicalNext (coreTurn c s) := canonical_coreIssue (canonical_background (canonical_tickCore (canonical_noteWork h)))

/-! ### What the device does of itself -/

theorem canonical_sweep {α : Type} {l : List α} {f : α → State → State} (hf : ∀ (a : α) (t : State), Canonical t → Canonical (f a t))
    (h : Canonical s) :
    Canonical (sweep l f s) := keeps_foldl h (fun _ _ hk => hf _ _ hk)

theorem canonical_sweepFlights (h : Canonical s) :
    Canonical (sweepFlights s) := canonical_sweep (fun _ _ hk => canonical_msendaCompletion (canonical_messageAnswer hk)) h

theorem canonical_sweepOps (h : Canonical s) :
    Canonical (sweepOps s) := canonical_sweep (fun _ _ hk => canonical_tokenCompletion (canonical_remoteTimeout (canonical_collectiveTimeout
        (canonical_windowExchange (canonical_enginePiece hk))))) h

theorem canonical_sweepMoves (h : Canonical s) : Canonical (sweepMoves s) := canonical_sweep (fun _ _ hk => canonical_liveMoveAck hk) h

theorem canonical_sweepSpaces (h : Canonical s) : Canonical (sweepSpaces s) := by
  unfold sweepSpaces
  refine canonical_sweep ?_ h
  intro _ _ hk
  extract_lets t1 t2
  have ht1 : Canonical t1 := by
    unfold t1
    exact canonical_sweep (fun _ _ hk1 => canonical_eprioRaise (canonical_jobTake (canonical_queueCancel hk1))) hk
  have ht2 : Canonical t2 := by unfold t2; exact canonical_syscRingRetry (canonical_eventsLostReport ht1)
  exact canonical_sweep (fun _ _ hk1 => canonical_syscResult hk1) ht2

theorem canonical_sweepSites (h : Canonical s) : Canonical (sweepSites s) := by
  unfold sweepSites
  refine canonical_sweep ?_ h
  intro _ _ hk
  extract_lets t1
  have ht1 : Canonical t1 := by
    unfold t1
    exact canonical_hotnessDue (canonical_moveServe (canonical_moveServe (canonical_moveServe (canonical_moveServe (canonical_pinAdmit hk)))))
  exact canonical_schedulerPreempt (canonical_dispatchSite (canonical_crewReservation ht1))

theorem canonical_sweepClusters (h : Canonical s) :
    Canonical (sweepClusters s) := canonical_sweep (fun _ _ hk => canonical_clusterDispatch (canonical_sweep
        (fun _ _ hk1 => canonical_clusterRecheck hk1) hk)) h

theorem canonical_sweepStrands (h : Canonical s) :
    Canonical (sweepStrands s) := canonical_sweep (fun _ _ hk => canonical_watchdogT3 (canonical_watchdogT2 (canonical_watchdogT1
        (canonical_waitTimeout hk)))) h

theorem canonical_sweepCores (h : Canonical s) : Canonical (sweepCores s) := by
  unfold sweepCores
  refine canonical_sweep ?_ h
  intro _ _ hk
  extract_lets t1 t2
  have ht1 : Canonical t1 := by unfold t1; exact canonical_tileWake hk
  have ht2 : Canonical t2 := by unfold t2; exact canonical_sweep (fun _ _ hk1 => canonical_parkedCheck hk1) ht1
  exact canonical_overflowAdmit (canonical_aging ht2)

theorem canonical_sweepTiles (h : Canonical s) :
    Canonical (sweepTiles s) := canonical_sweep (fun _ _ hk => canonical_tileGate hk)
        (canonical_sweep (fun _ _ hk => canonical_pointSwitch (canonical_damperGrant hk)) h)

theorem canonical_sweepHeap (h : Canonical s) : Canonical (sweepHeap s) := by
  unfold sweepHeap
  split
  · exact h
  · exact canonical_heapServe (fun _ _ _ _ hk => canonical_freeServe hk)
      (canonical_heapServe (fun _ _ _ _ hk => canonical_copyServe hk) (canonical_heapServe (fun _ _ _ _ hk => canonical_flipServe hk) h))

theorem canonical_sweepHost (h : Canonical s) : Canonical (sweepHost s) := by
  unfold sweepHost
  extract_lets s1 s2 s3
  have hs1 : Canonical s1 := by unfold s1; exact canonical_sweep (fun _ _ hk => canonical_priTimeout hk) (h.update rfl)
  have hs2 : Canonical s2 := by unfold s2; exact canonical_sweep (fun _ _ hk => canonical_invalidationCompletion hk) hs1
  have hs3 : Canonical s3 := by unfold s3; exact canonical_sweep (fun _ _ hk => canonical_persistConfirmation hk) hs2
  exact canonical_replayForceTimeout (canonical_captureRingSpace (canonical_errorLogSpace (canonical_attestStep (canonical_asbindStep hs3))))

theorem canonical_deviceTurn (h : Canonical s) :
    Canonical (deviceTurn s) := canonical_sweepHost (canonical_sweepHeap (canonical_sweepTiles (canonical_sweepCores (canonical_sweepStrands
        (canonical_sweepClusters (canonical_sweepSites (canonical_sweepSpaces (canonical_sweepMoves (canonical_sweepOps
        (canonical_sweepFlights h))))))))))

/-! ### The order of turns (log 1, DESIGN CHOICE) -/

theorem canonical_tick (h : Canonical s) : Canonical s.tick := h.update rfl

theorem canonical_defaultTurn (h : Canonical s) : CanonicalNext (defaultTurn s) := by
  have moved (n : ℕ) (t : State) (ht : Canonical t) : Canonical { t with cur := n } := ht.update rfl
  unfold defaultTurn
  split
  · exact .next (canonical_bringUp (canonical_attestStep h))
  · split
    · exact .next h
    · split
      · exact canonical_mapNext (moved _) (canonical_coreTurn h)
      · exact .next (moved 0 _ (canonical_deviceTurn h))

theorem canonical_agendaTurn {t : Turn} (h : Canonical s) : CanonicalNext (agendaTurn t s) := by
  unfold agendaTurn
  split
  · split
    · exact .next h
    · split
      · exact canonical_coreIssue (canonical_tickCore (canonical_noteWork h))
      · split
        · exact canonical_issueAt (canonical_tickCore (canonical_noteWork h))
        · exact .next h
  · refine .next ?_
    split
    · exact canonical_vectorEntry h
    · exact h
  · refine .next ?_
    split
    · exact canonical_enginePiece h
    · exact h
  · split
    · exact canonical_exec h
    · exact .next h

theorem canonical_step (h : Canonical s) : CanonicalNext (step s) := by
  unfold step
  split
  · exact canonical_defaultTurn (canonical_tick h)
  · refine canonical_agendaTurn ?_
    extract_lets src
    have hsrc : Canonical src := by unfold src; exact canonical_tick h
    exact hsrc.update rfl

/-- Settles O26: whatever the turn of a step is, it keeps memory canonical. -/
theorem stepKeepsMemoryCanonical : Obligations.StepKeepsMemoryCanonical := fun _ _ canonical next => (canonical_step canonical).of_next next

end Sys2Proof.Proofs
end
